-- ==== Sys2Proof/Word.lean ====
section
/-!
DEFINITION. The word types of the model and the plainest arithmetic on them.
-/
namespace Sys2Proof

/-- A register word, and a word of a memory-resident structure (R14). -/
abbrev W32 := BitVec 32

/-- The smallest addressable unit of HBM, of a scratchpad and of the flash. -/
abbrev Byte := BitVec 8

/-- An eyelet index e (R3). -/
abbrev Eye := Fin 16

/-- A channel index c = 0..255 (R3). -/
abbrev Chan := Fin 256

/-- A quadrant index q = 0..3 (R4). -/
abbrev Quad := Fin 4

/-- A BAR0 byte offset (R438: BAR0 is 64 MiB). -/
abbrev Ofs := BitVec 26

/-- A register page: BAR0 offset divided by 4096, which is (block type) * 256 + instance (R439). -/
abbrev PageNo := BitVec 13

/-- An access that has become ready at a crossbar port (R313, R326): its HBM address, whether it writes, and whether it
belongs to a resident-area load, or to a fail-log record. -/
structure MemReq where
  port : Fin 48
  addr : BitVec 35
  wr : Bool
  load : Bool
  log : Bool
  deriving DecidableEq, Repr

/-- A partial burst whose linger time runs (R222). -/
inductive Linger where
  /-- The stamp stream of a channel. -/
  | stream (c : Chan)
  /-- The fail-log queue of an eyelet. -/
  | flog (e : Eye)
  /-- The acquisition queue of a trigger engine. -/
  | acq (q : Quad)
  /-- The event queue. -/
  | evq
  /-- The scheduler trace. -/
  | trace
  deriving DecidableEq, Repr

/-- What the checks of R398 that need the ciphertext or the key find in a firmware copy: the flash is read, the key hash,
the signature and the tag are correct; and the parts that the bundle carries. -/
structure CopyCheck where
  read : Bool
  key : Bool
  sig : Bool
  tag : Bool
  mc : Bool
  lst : Bool
  ucode : Bool
  deriving DecidableEq, Repr

/-- What a step of the service stage finds (R403): the two firmware copies and the vendor regions whose load passed its
ECC check; the memories that fail the self-tests (R405); the stacks that do not respond at bring-up, and the rows whose
read-back after the fill is uncorrectable, each with its stack, as MEM_REPAIR_LOG bits 23:0 name it (R406); the live slices
that fail the check of R110, by channel. -/
structure Boot where
  copy0 : CopyCheck
  copy1 : CopyCheck
  vendor : BitVec 4
  eyes : BitVec 16
  cores : BitVec 32
  spads : BitVec 4
  ucodes : BitVec 4
  seg : Bool
  evq : Bool
  sch : Bool
  cal : Bool
  hbmBad : BitVec 2
  rows : List (Fin 2 × BitVec 24)
  slices : List Chan
  deriving DecidableEq, Repr

/-- Saturating increment below a limit. -/
def satAdd (lim a b : Nat) : Nat := min lim (a + b)

/-- Bit `i` of a natural number. -/
def bit (n i : Nat) : Bool := n.testBit i

/-- Bits `hi:lo` of a natural number. -/
def bits (n hi lo : Nat) : Nat := (n >>> lo) % 2 ^ (hi + 1 - lo)

/-- A natural number's bit set. -/
def setBit (n i : Nat) : Nat := n ||| (1 <<< i)

/-- A natural number's bit cleared. -/
def clearBit (n i : Nat) : Nat := if n.testBit i then n - 2 ^ i else n

/-- The signed value of the low `w` bits of a natural number. -/
def toSigned (w n : Nat) : Int :=
  let m := n % 2 ^ w
  if 2 ^ (w - 1) ≤ m then (m : Int) - 2 ^ w else m

/-- The low `w` bits, as a natural number, of an integer in two's complement. -/
def ofSigned (w : Nat) (i : Int) : Nat := (i % (2 ^ w : Int)).toNat

/-- One as a truth value. -/
def b2n (b : Bool) : Nat := if b then 1 else 0

end Sys2Proof
end

