-- ==== Sys2Proof/Syntax.lean ====
section
/-!
DEFINITION. The commands of the block: one constructor per row of the table of operations and events
(spec/opcode_table.json, spec/95). A command is what the host, a pin, a link, a last core, the management firmware or
the timing of the device does to the block; its operands are what the world outside the block supplies: an address,
a value, a unit's index, an instant of the timeline in fraction units (R8, R9).
-/
namespace Sys2Proof

/-- The commands, in the order of the table. Each docstring names the governing rule and repeats the row's summary. -/
inductive Instr where
  /-- REGISTER_WRITE (R19). A BAR0 write to a register with no row of its own applies RW fields by S or L type, acts W1C/W1S/WO bits, or is refused and sets CFG_ERR. -/
  | registerWrite (ofs : Ofs) (v : W32) (be : BitVec 4) (ep : Bool)
  /-- RC_READ (R16). A read of a register with RC fields returns their values and then clears them. -/
  | rcRead (ofs : Ofs)
  /-- WIDE_REGISTER_LO_READ (R15). A read of an _LO register captures the whole wide value so that a later _HI read returns its upper part. -/
  | wideRegisterLoRead (ofs : Ofs)
  /-- PG_ENABLE_WRITE (R442). A write to PG_CTL.ENABLE enables or disables the page's block, with the per-block effects such as parking a channel or restarting the shadow rotation. -/
  | pgEnableWrite (p : PageNo) (v : W32)
  /-- BLOCK_RESET (R444). A write of PG_CTL.BLOCK_RESET starts a reset of the block that ends its work and returns its configuration to reset values. -/
  | blockReset (p : PageNo)
  /-- BLOCK_RESET_DONE (R444). A block reset completes within 1 µs, BUSY falls and the page accepts writes again. -/
  | blockResetDone (p : PageNo) (ok : Bool)
  /-- CFG_LOCK (R445). A write of 1 to PG_CTL.CFG_LOCK locks the page so that later writes that change RW fields are refused. -/
  | cfgLock (p : PageNo)
  /-- PG_COMMIT (R447). A write of PG_COMMIT sets COMMIT_PEND so that the page's shadow table is committed at its boundary. -/
  | pgCommit (p : PageNo)
  /-- TABLE_COMMIT (R36). A pending commit reaches its boundary, is validated, and either makes the shadow table live or is refused and reported. -/
  | tableCommit (p : PageNo)
  /-- SHADOW_COPY_DONE (R82). The copy of a newly live table back into its shadow copy completes, and writes to the table are accepted again. -/
  | shadowCopyDone (p : PageNo)
  /-- FAULT_CLEAR (R420). A write of 1 to a PG_FLT bit clears it if its cause is absent, or is refused with a CLEAR_REFUSED record. -/
  | faultClear (p : PageNo) (v : W32)
  /-- FLT_CLASS_WRITE (R410). A write of PG_FLT_CLASS with WR at 1 sets the class of the selected fault source for its next rise. -/
  | fltClassWrite (p : PageNo) (v : W32)
  /-- FLT_RXN_WRITE (R410). A write of PG_FLT_RXN with WR at 1 sets the reactions of the selected fault source, keeping fixed reactions. -/
  | fltRxnWrite (p : PageNo) (v : W32)
  /-- TRAP_HANDLER (R411). The management controller's non-maskable fault handler writes two diagnostic words into the source's log record within 100 µs. -/
  | trapHandler (d0 : W32) (d1 : W32)
  /-- FAULT_CHIP_RESET (R414). The CHIP_RESET reaction acts once the FAULT entry has reached the host ring or 20 µs have passed. -/
  | faultChipReset
  /-- FLT_LOG_POP (R419). A read of FLT_LOG0 pops the oldest fault-log record into a hold for FLT_LOG1 to FLT_LOG7. -/
  | fltLogPop (bad : Bool)
  /-- LEAVE_DEV (R425). A write of FLT_HEEL_CTL.LEAVE_DEV leaves device heel under the firmware recovery sequence, or is refused. -/
  | leaveDev
  /-- LEAVE_EYE (R425). A write of a FLT_HEEL_CTL.LEAVE_EYE bit leaves heel of that eyelet once its causes have ended and been cleared, or is refused. -/
  | leaveEye (m : BitVec 16)
  /-- HEEL_LEAVE_DONE (R425). The firmware completes leaving device heel and writes a HEEL_LEAVE record. -/
  | heelLeaveDone (bad : BitVec 32)
  /-- REFIN_LOSS (R43). No REFIN rising edge arrives for four nominal periods, REF_PRESENT falls and the device enters holdover. -/
  | refinLoss
  /-- REFIN_RETURN (R45). After 1,000 consecutive good REFIN periods the PLLs relock with phase build-out, REF_PRESENT rises, HOLDOVER and ALIGNED fall. -/
  | refinReturn (phase : BitVec 16)
  /-- REF_LONG (R45). REFIN has been absent for 1 ms, the REF_LONG fault is raised and the device enters heel state. -/
  | refLong
  /-- FMON_WINDOW (R44). A 1 ms frequency-monitor window ends and raises REF_FREQ if the measured error exceeds FMON_THR. -/
  | fmonWindow (ppm : Nat)
  /-- PLL_LOCK (R46). The quadrant PLLs and the core PLL report lock after REF_PRESENT rises. -/
  | pllLock
  /-- PLL_UNLOCK (R72). A quadrant PLL loses lock and the PLL_UNLOCK fault is raised. -/
  | pllUnlock (q : Quad)
  /-- TIMELINE_START (R47). The timeline starts at 0 on the first REFIN rising edge after all five PLLs report lock. -/
  | timelineStart
  /-- ALIGN_ARM (R53). A write of 1 to TBS_LACE_CTL.ALIGN_ARM arms zeroing by the next ALIGN frame. -/
  | alignArm (v : W32)
  /-- DISARM (R53). A write of 1 to TBS_LACE_CTL.DISARM clears ALIGN_ARM. -/
  | disarm (v : W32)
  /-- ALIGN (R53). A lace ALIGN frame is received whole and is taken as armed, refused under R54 and R55, or unarmed. -/
  | align (line : List Bool) (t : Nat)
  /-- ZEROING_EDGE (R56). At the zeroing edge of an armed ALIGN the timeline reads 0, ALIGNED becomes 1, a pending trim takes force and slot tables restart. -/
  | zeroingEdge
  /-- ALIGN_CHECK (R57). At the would-be zeroing edge of an unarmed ALIGN the UI bits are stored in TBS_ALIGN_CHK and ALIGN_PHASE is checked. -/
  | alignCheck
  /-- START (R58). A lace START frame is received whole, a full timeline value is built and passed to armed sequencers, DDS units and SYNC arming. -/
  | start (line : List Bool) (t : Nat)
  /-- COUNT (R52). A lace COUNT frame is received whole and decrements its dependence counter within 320 ns. -/
  | count (line : List Bool) (t : Nat)
  /-- TRIG (R52). A lace TRIG frame is received whole and its code is passed to all four trigger engines within 100 ns. -/
  | trig (line : List Bool) (t : Nat)
  /-- LACE_CRC (R51). A lace frame with a bad CRC is discarded and counted, and the SYNC hunt resumes at the next bit. -/
  | laceCrc (line : List Bool) (t : Nat)
  /-- RSVD_TYPE (R51). A lace frame with a good CRC and a reserved type is discarded and sets RSVD_TYPE. -/
  | rsvdType (line : List Bool) (t : Nat)
  /-- GO_LACE_TX (R60). A write of 1 to TBS_LACE_TX.GO sends one lace frame on LACE_OUT as master, or is ignored and sets TX_OVR. -/
  | goLaceTx (v : W32)
  /-- LACE_TX_DONE (R60). Bit 63 of a sent lace frame has left and TX_BUSY falls. -/
  | laceTxDone
  /-- CAP_ARM (R371). A write of 1 to TBS_REFCAL_CTL.CAP_ARM arms capture of the next REFCAL rising edge. -/
  | capArm (v : W32)
  /-- REFCAL_EDGE (R371). A REFCAL rising edge arrives while capture is armed and is stamped into TBS_REFCAL with CAP_DONE set. -/
  | refcalEdge (t : Nat)
  /-- TRACK_WINDOW (R66). A 64-UI tracking window ends, the loop takes its sample and updates QOFS within the slew limit and clamp. -/
  | trackWindow (q : Quad)
  /-- TRACK_LOCKED (R70). A tracking loop counts 1,024 consecutive samples within LOCK_THR and enters LOCKED. -/
  | trackLocked (q : Quad)
  /-- TRACK_LOST (R70). LOSS_WIN consecutive windows pass without a forwarded edge and the loop enters HOLD or RETURN. -/
  | trackLost (q : Quad)
  /-- TRACK_RETURN_DONE (R70). A loop in RETURN has slewed QOFS to 0 and passes to OFF. -/
  | trackReturnDone (q : Quad)
  /-- VECTOR_BOUNDARY (R30). A vector of a running group begins at the pins, applying every change due at that boundary. -/
  | vectorBoundary (e : Eye)
  /-- STITCH (R84). A stitch of a waveform is placed at its time on the quadrant timeline, driving DRV or DEN or strobing the comparators. -/
  | stitch (c : Chan)
  /-- WFT_WRITE (R80). A write to CHN_WFT updates a shadow waveform record, revalidates it and advances the index under AUTO_INC. -/
  | wftWrite (c : Chan) (v : W32)
  /-- WFT_READ (R477). A read of CHN_WFT returns the selected word and advances CHN_WFT_IDX under AUTO_INC. -/
  | wftRead (c : Chan)
  /-- DWELL_START (R99). A shadow-check dwell begins and the spare starts shadowing the next enabled position of the rotation. -/
  | dwellStart (e : Eye)
  /-- CHECK_STITCH (R101). A quiet position under check and the spare each place a check stitch that reaches the self-check tap but not the ball. -/
  | checkStitch (e : Eye)
  /-- MISMATCH_DECISION (R105). The self-check awl decides on a stamp pair, advancing CLEAN_T or judging a mismatch and which side is faulty. -/
  | mismatchDecision (e : Eye) (live : BitVec 16) (spare : BitVec 16) (noLive : Bool) (noSpare : Bool) (t : Nat)
  /-- TAKEOVER (R107). At the first vector boundary at least 32 UI after a decision the spare takes over the faulty channel and a re-run record is posted. -/
  | takeover (e : Eye)
  /-- GO_VAMP_LOAD (R120). A write of EYE_VAMP_LD_CTL.GO starts a load of lines from HBM into the resident area, or is refused with LOAD_ERR. -/
  | goVampLoad (e : Eye) (v : W32)
  /-- VAMP_LOAD_DONE (R120). The last line of a resident-area load is stored and LOAD_BUSY falls. -/
  | vampLoadDone (e : Eye)
  /-- VAMP_WDATA_WRITE (R120). A write to EYE_VAMP_WDATA stores a resident word or is dropped or refused, and WADDR advances under AUTO_INC. -/
  | vampWdataWrite (e : Eye) (v : W32)
  /-- VAMP_WDATA_READ (R477). A read of EYE_VAMP_WDATA returns a resident word and advances WADDR under AUTO_INC. -/
  | vampWdataRead (e : Eye)
  /-- GRANULE_COMPLETE (R122). All lines of a requested granule have arrived and are stored in the stream ring. -/
  | granuleComplete (e : Eye) (k : Nat)
  /-- PRESENCE_CHECK (R123). 32 UI before a granule boundary the buffer checks whether the granule is complete and marks it missing if not. -/
  | presenceCheck (e : Eye)
  /-- SLACK_RESTART (R125). A write of 1 to EYE_VAMP_SLACK.RESTART sets MIN_SLACK to 0xFFFF. -/
  | slackRestart (e : Eye)
  /-- SEG_WINDOW_WRITE (R140). A write to the segment table window updates a shadow entry and revalidates it, or is dropped with WR_DROP. -/
  | segWindowWrite (n : Fin 131072) (w : Fin 4) (v : W32)
  /-- GO (R158). A write of 1 to EYE_SEQ_CTL.GO on the leader starts or arms the lock group, or is refused with a REASON. -/
  | go (e : Eye) (v : W32)
  /-- SEQ_STOP (R161). A write of 1 to EYE_SEQ_CTL.STOP sets stop_pending, or stops an armed or waiting group at once. -/
  | seqStop (e : Eye) (v : W32)
  /-- ABORT (R162). A write of 1 to EYE_SEQ_CTL.ABORT stops the group at the first vector boundary at least 32 UI later, or at once if armed or waiting. -/
  | abort (e : Eye) (v : W32)
  /-- SEQ_START_TIME (R158). The timeline reaches a started group's start value T and its first vector begins. -/
  | seqStartTime (e : Eye)
  /-- SWFLAG (R148). A write to EYE_SEQ_FLAG sets the SWFLAG event latches for the bits written 1. -/
  | swflag (e : Eye) (v : W32)
  /-- SYNC_AT_ARM (R163). A write of EYE_SYNC_AT_HI arms the synchronisation time AT, replacing an unconsumed one. -/
  | syncAtArm (e : Eye) (v : W32)
  /-- SYNC_AT_REACHED (R164). A WAITING group reaches its armed AT and the first pass of the SYNC entry begins. -/
  | syncAtReached (e : Eye)
  /-- FAIL_ARRIVAL (R204). A fail reaches the sequencers, trigger engines and EVT outputs within 192 UI of the ball, setting latches and masks. -/
  | failArrival
  /-- SITE_SUMMARY_FINAL (R198). 256 UI after a site's last strobe its fail summary becomes final and FINAL reads 1. -/
  | siteSummaryFinal (n : Fin 128)
  /-- FLOG_WRITE (R201). The fail-log queue writes records to the HBM ring, or discards them at a full ring in STOP mode. -/
  | flogWrite (e : Eye) (bad : BitVec 2)
  /-- LOG_DONE (R203). After a group stop every fail-log record up to STOP is written or counted lost, and the log is reported done. -/
  | logDone (e : Eye)
  /-- EVT_PULSE_END (R206). An EVT output pulse reaches the end of its width and the pin falls unless another source holds it. -/
  | evtPulseEnd (n : Fin 8)
  /-- GO_DDS (R180). A write of 1 to DDS_CTL.GO starts or arms the DDS unit at entry 0, or is refused with a REASON. -/
  | goDds (e : Eye) (v : W32)
  /-- DDS_STOP (R182). A write of 1 to DDS_CTL.STOP ends the clock output at its next falling edge, or at once when armed or waiting. -/
  | ddsStop (e : Eye) (v : W32)
  /-- DDS_START_TIME (R180). The timeline reaches the DDS start value T and the unit enters entry 0 with a phase-set hop. -/
  | ddsStartTime (e : Eye)
  /-- HOP (R175). A DDS hop instant is reached and the unit enters its successor entry, changing frequency or phase. -/
  | hop (e : Eye)
  /-- HOP_PUSH (R177). A write of DDS_HOP_AT_HI pushes a hop time onto the hop-time queue, or is refused with OVF. -/
  | hopPush (e : Eye) (v : W32)
  /-- DDS_LIST_WRITE (R172). A write to DDS_LIST updates a shadow list word, revalidates the entry and advances the index under AUTO_INC. -/
  | ddsListWrite (e : Eye) (v : W32)
  /-- DDS_LIST_READ (R477). A read of DDS_LIST returns the selected word and advances DDS_LIST_IDX under AUTO_INC. -/
  | ddsListRead (e : Eye)
  /-- PEL_TX_GO (R186). A write of DDS_PEL_TX.GO captures one software level-port frame as pending, or drops it with PEL_OVR. -/
  | pelTxGo (e : Eye) (v : W32)
  /-- PEL_FRAME_START (R184). A level-port frame, amplitude or software, begins with CS_N falling at a 128-UI multiple. -/
  | pelFrameStart (e : Eye)
  /-- PEL_FRAME_DONE (R184). A level-port frame ends with CS_N rising, latching a write or capturing read data. -/
  | pelFrameDone (e : Eye) (sdi : BitVec 16)
  /-- CMP_TRANSITION (R208). A transition of a channel's CMPH or CMPL input at the ball is converted by its awl into a stamp, or missed. -/
  | cmpTransition (c : Chan) (high : Bool) (level : Bool) (t : Nat)
  /-- STAMP_ARRIVAL (R212). A stamp reaches the stream queue, interval units, trigger engine and tracking loop within 64 UI. -/
  | stampArrival
  /-- STREAM_BURST_WRITE (R216). An eyelet drains a channel's stream queue to its HBM ring in a burst of 16 words. -/
  | streamBurstWrite (c : Chan) (bad : BitVec 16)
  /-- LINGER_EXPIRY (R222). A partial burst has been held for its linger time and its tail is written alone. -/
  | lingerExpiry (l : Linger) (bad : Nat)
  /-- FLUSH (R222). A write of 1 to TDC_CTL.FLUSH writes every stream tail at once. -/
  | flush (e : Eye) (v : W32) (bad : BitVec 1024)
  /-- GATE_OPEN (R225). GATEq has read 1 for 64 consecutive UI and the quadrant's gate opens. -/
  | gateOpen (q : Quad) (t : Nat)
  /-- GATE_CLOSE (R225). GATEq has read 0 for 64 consecutive UI and the quadrant's gate closes. -/
  | gateClose (q : Quad) (t : Nat)
  /-- IU_ARM (R227). A write of 1 to TDC_IU_CTL.ARM starts an interval unit from TA, or is refused with ARM_ERR. -/
  | iuArm (e : Eye) (u : Fin 4) (v : W32)
  /-- IU_DISARM (R227). A write of 1 to TDC_IU_CTL.DISARM returns the interval unit to IDLE at once. -/
  | iuDisarm (e : Eye) (u : Fin 4) (v : W32)
  /-- IU_TIMEOUT (R228). An interval unit's deadline passes with no stop and a TMO result is emitted. -/
  | iuTimeout (e : Eye) (u : Fin 4)
  /-- IU_GATE_END (R232). A frequency-mode gate closes and the unit emits the edge count and span. -/
  | iuGateEnd (e : Eye) (u : Fin 4)
  /-- IU_RESULT_POP (R230). A read of TDC_IU_RES0 pops the oldest result entry into a hold. -/
  | iuResultPop (e : Eye) (u : Fin 4) (bad : Bool)
  /-- TRG_ARM (R243). A register ARM of a trigger engine schedules its start at B, or is refused with ARM_ERR. -/
  | trgArm (q : Quad) (v : W32)
  /-- TRG_DISARM (R246). A DISARM by register ends the trigger engine with reason DISARM at the next sample evaluated. -/
  | trgDisarm (q : Quad) (v : W32)
  /-- FORCE (R245). A FORCE acts as a TRIGGER action of no term in the next sample evaluated. -/
  | force (q : Quad) (v : W32)
  /-- TRG_START (R244). An armed trigger engine reaches B, enters RUN in level 0 and begins its first acquisition record. -/
  | trgStart (q : Quad)
  /-- TRG_SAMPLE (R238). A trigger engine evaluates a 4-UI sample, sets hits and carries out the actions of the lowest met term. -/
  | trgSample (q : Quad)
  /-- ACQ_RECORD_WRITE (R252). The trigger engine's write queue writes acquisition records and markers to HBM through its port. -/
  | acqRecordWrite (q : Quad) (n : Nat) (m : Nat) (bad : List (Nat × Nat))
  /-- DECIM_DOWN (R252). The acquisition queue has held DN_LVL lines or fewer for 16,384 UI and log2 D falls by 1. -/
  | decimDown (q : Quad)
  /-- ANE_JOB_TAKE (R279). An analysis engine takes a descriptor from its queue, copies it to the mailbox and starts its WHEN 1 transfers. -/
  | aneJobTake (q : Quad) (bad : BitVec 16)
  /-- ANE_XFER_DONE (R278). A transfer between HBM and the scratchpad completes. -/
  | aneXferDone (q : Quad) (w : Nat)
  /-- ANE_NEXT (R262). Microcode sequencer operation NEXT continues at PC + 1. -/
  | aneNext (q : Quad)
  /-- ANE_JUMP (R262). Microcode sequencer operation JUMP continues at TARGET. -/
  | aneJump (q : Quad)
  /-- ANE_BLOCK (R264). Microcode sequencer operation BLOCK opens a repeated block of words. -/
  | aneBlock (q : Quad)
  /-- ANE_BRANCH (R262). Microcode sequencer operation BRANCH goes to TARGET if its condition holds. -/
  | aneBranch (q : Quad)
  /-- ANE_CALL (R262). Microcode sequencer operation CALL pushes PC + 1 and goes to TARGET. -/
  | aneCall (q : Quad)
  /-- ANE_RET (R262). Microcode sequencer operation RET pops the call stack and goes there. -/
  | aneRet (q : Quad)
  /-- ANE_BEXP (R266). Microcode sequencer operation BEXP sets BSH from BMAX and adds it to BEXP_SUM. -/
  | aneBexp (q : Quad)
  /-- ANE_LDP (R265). Microcode sequencer operation LDP loads a pointer from two scratchpad words. -/
  | aneLdp (q : Quad)
  /-- ANE_XFER (R262). Microcode sequencer operation XFER starts a WHEN 3 transfer of the job. -/
  | aneXfer (q : Quad)
  /-- ANE_WAIT (R262). Microcode sequencer operation WAIT stalls until a transfer is complete. -/
  | aneWait (q : Quad)
  /-- ANE_DONE (R279). Microcode sequencer operation DONE ends the job and starts its WHEN 2 transfers and completion. -/
  | aneDone (q : Quad)
  /-- ANE_SETK (R262). Microcode sequencer operation SETK loads a count register from TARGET. -/
  | aneSetk (q : Quad)
  /-- ANE_NOP (R258). Lane operation NOP does nothing. -/
  | aneNop (q : Quad)
  /-- ANE_MUL (R258). Lane operation MUL sets ACC to the 16-bit product of A and B. -/
  | aneMul (q : Quad)
  /-- ANE_MAC (R258). Lane operation MAC adds the 16-bit product of A and B to ACC. -/
  | aneMac (q : Quad)
  /-- ANE_MSU (R258). Lane operation MSU subtracts the 16-bit product of A and B from ACC. -/
  | aneMsu (q : Quad)
  /-- ANE_CLRA (R258). Lane operation CLRA clears ACC. -/
  | aneClra (q : Quad)
  /-- ANE_MOVA (R260). Lane operation MOVA writes ACC shifted right, with optional rounding and saturation, to DST. -/
  | aneMova (q : Quad)
  /-- ANE_ADD (R258). Lane operation ADD writes A + B to DST. -/
  | aneAdd (q : Quad)
  /-- ANE_SUB (R258). Lane operation SUB writes A − B to DST. -/
  | aneSub (q : Quad)
  /-- ANE_ABS (R258). Lane operation ABS writes the magnitude of A to DST. -/
  | aneAbs (q : Quad)
  /-- ANE_MIN (R258). Lane operation MIN writes the lesser of A and B to DST. -/
  | aneMin (q : Quad)
  /-- ANE_MAX (R258). Lane operation MAX writes the greater of A and B to DST. -/
  | aneMax (q : Quad)
  /-- ANE_AND (R258). Lane operation AND writes the bitwise AND of A and B to DST. -/
  | aneAnd (q : Quad)
  /-- ANE_OR (R258). Lane operation OR writes the bitwise OR of A and B to DST. -/
  | aneOr (q : Quad)
  /-- ANE_XOR (R258). Lane operation XOR writes the bitwise XOR of A and B to DST. -/
  | aneXor (q : Quad)
  /-- ANE_SHL (R258). Lane operation SHL writes A shifted left by B bits to DST. -/
  | aneShl (q : Quad)
  /-- ANE_SHR (R258). Lane operation SHR writes A shifted right arithmetically by B bits to DST. -/
  | aneShr (q : Quad)
  /-- ANE_MOV (R258). Lane operation MOV writes B to DST. -/
  | aneMov (q : Quad)
  /-- ANE_CGT (R258). Lane operation CGT sets F when A is greater than B. -/
  | aneCgt (q : Quad)
  /-- ANE_CEQ (R258). Lane operation CEQ sets F when A equals B. -/
  | aneCeq (q : Quad)
  /-- ANE_RSUM (R258). Lane operation RSUM sums all lanes' ACC into lane 0's ACC over 4 cycles. -/
  | aneRsum (q : Quad)
  /-- ANE_GETB (R258). Lane operation GETB writes BEXP_SUM to DST in every lane. -/
  | aneGetb (q : Quad)
  /-- ANE_LANE (R258). Lane operation LANE writes the lane number to DST. -/
  | aneLane (q : Quad)
  /-- ANE_LD16 (R263). Load operation LD16 starts a signed 16-bit scratchpad load into a V register. -/
  | aneLd16 (q : Quad) (w : Nat)
  /-- ANE_LD32 (R263). Load operation LD32 starts a signed 32-bit scratchpad load into a V register. -/
  | aneLd32 (q : Quad) (w : Nat)
  /-- ANE_LDB32 (R263). Load operation LDB32 loads lane 0's 32-bit word into every lane. -/
  | aneLdb32 (q : Quad) (w : Nat)
  /-- ANE_LDU16 (R263). Load operation LDU16 starts an unsigned 16-bit scratchpad load into a V register. -/
  | aneLdu16 (q : Quad) (w : Nat)
  /-- ANE_LOAD_DATA (R263). The data of a lane load arrive 3 cycles after its word and release any stalled word. -/
  | aneLoadData (q : Quad) (n : Nat)
  /-- ANE_ST16 (R273). Store operation ST16 writes 16 bits of a V register of each lane to the scratchpad. -/
  | aneSt16 (q : Quad) (w : Nat)
  /-- ANE_ST32 (R273). Store operation ST32 writes 32 bits of a V register of each lane to the scratchpad. -/
  | aneSt32 (q : Quad) (w : Nat)
  /-- ANE_STA (R274). Store operation STA atomically adds each lane's 32-bit value to its scratchpad word. -/
  | aneSta (q : Quad) (w : Nat)
  /-- ANE_BUDGET (R280). A job's cycle count exceeds its BUDGET and the job ends with code BUDGET. -/
  | aneBudget (q : Quad)
  /-- ANE_ABORT (R281). A write of 1 to ANE_CTL.ABORT ends the running job with ABORTED within 8 cycles. -/
  | aneAbort (q : Quad) (v : W32)
  /-- ANE_JOBQ_SUBMIT (R276). A host write of ANE_JOBQ word 15 submits a job descriptor, or drops it with JOBQ_OVF. -/
  | aneJobqSubmit (q : Quad) (v : W32)
  /-- MARCH_GO (R283). A write of ANE_MARCH_CTL.GO starts a destructive march test on the selected target, or is refused. -/
  | marchGo (q : Quad) (v : W32)
  /-- MARCH_DONE (R284). A march test ends and the engine passes to OFFLINE on failure, or back to HELD on a qualifying pass. -/
  | marchDone (q : Quad) (banks : W32) (uc : Bool) (a : BitVec 20) (x : W32)
  /-- SPAD_FETCHADD (R342). A PCI Express 32-bit FetchAdd on a BAR4 scratchpad word adds atomically and returns the old value. -/
  | spadFetchadd (a : BitVec 24) (v : W32) (ep : Bool) (w : Nat)
  /-- SPAD_SWAP (R342). A PCI Express 32-bit Swap on a BAR4 scratchpad word swaps atomically and returns the old value. -/
  | spadSwap (a : BitVec 24) (v : W32) (ep : Bool) (w : Nat)
  /-- UNSUPPORTED_ATOMIC (R342). Any other AtomicOp is completed with Unsupported Request. -/
  | unsupportedAtomic
  /-- LAST_SPAD_ATOMIC (R274). A last core issues an atomic add or swap on a scratchpad word and receives the old value. -/
  | lastSpadAtomic (n : Fin 32) (q : Quad) (a : BitVec 18) (swap : Bool) (v : W32) (w : Nat)
  /-- BAR4_WRITE (R450). A host write through BAR4 reaches a scratchpad or a customer microcode word, or is dropped. -/
  | bar4Write (a : BitVec 24) (bs : List (Option Byte)) (ep : Bool) (w : Nat)
  /-- BAR4_READ (R450). A host read through BAR4 returns scratchpad or microcode data, poisoned where the word is poisoned. -/
  | bar4Read (a : BitVec 24) (n : Nat) (w : Nat)
  /-- TICKET_SUBMIT (R292). A write of SCH_SUBMIT word 15 submits a ticket, which is accepted and checked, or discarded with SUBMIT_OVF. -/
  | ticketSubmit (v : W32)
  /-- CTR_DEC (R293). A write to SCH_CTR_DEC decrements a dependence counter, stopping at 0 with CTR_UFL. -/
  | ctrDec (v : W32)
  /-- CTR_SET (R293). A write to SCH_CTR_VAL sets the value of a dependence counter. -/
  | ctrSet (v : W32)
  /-- EVT_EDGE (R294). An edge on an EVT pin used as input decrements its counter and serves the EVT condition and trigger term. -/
  | evtEdge (n : Fin 8) (rising : Bool)
  /-- DISPATCH (R295). The scheduler gives a ready ticket to a last core's slot or to an asking core. -/
  | dispatch
  /-- AFF_WAIT_EXPIRY (R295). A ready ticket's affinity wait expires and it goes to the lowest-numbered core that can take it. -/
  | affWaitExpiry (slot : Fin 1024)
  /-- DISPATCH_SWITCH (R297). On a change of DISPATCH from 0 to 1 every ticket in a slot returns to the ready list within 100 ns. -/
  | dispatchSwitch
  /-- BURST (R288). A last core runs a BURST ticket, binding its eyelets and starting the lock group. -/
  | burst (slot : Fin 1024)
  /-- MEASURE (R288). A last core runs a MEASURE ticket, arming the interval unit and copying results to HBM. -/
  | measure (slot : Fin 1024)
  /-- ANALYZE (R288). A last core runs an ANALYZE ticket, placing its descriptor in the engine's job queue. -/
  | analyze (slot : Fin 1024)
  /-- WRITE (R288). A last core runs a WRITE ticket, making its register writes in order. -/
  | write (slot : Fin 1024)
  /-- WAIT (R288). A last core runs a WAIT ticket until the timeline reaches AT. -/
  | wait (slot : Fin 1024)
  /-- WAIT_AT_REACHED (R288). The timeline reaches a WAIT ticket's AT and the ticket completes. -/
  | waitAtReached (slot : Fin 1024)
  /-- POST (R290). A last core runs a POST ticket, forming the site's bin from its site record and fail bit. -/
  | post (slot : Fin 1024)
  /-- TICKET_COMPLETE (R298). A ticket completes, its status is recorded and its SIG_CTR is decremented unless a re-run is pending. -/
  | ticketComplete (slot : Fin 1024) (bad : Nat)
  /-- TICKET_TIMEOUT (R291). A ticket runs past its LIMIT and completes with TIMEOUT, a BURST's group first being aborted. -/
  | ticketTimeout (slot : Fin 1024)
  /-- RELEASE (R299). A complete ticket whose earlier flow tickets are released and whose gate is met is released and posts any RESULT entry. -/
  | release (slot : Fin 1024)
  /-- RERUN_RECORD (R301). The scheduler receives a takeover re-run record and selects the tickets to run again, or posts UNCOVERED. -/
  | rerunRecord
  /-- LST_WDOG_EXPIRY (R303). A last core's ticket firmware misses its heartbeat and the core goes OFFLINE with its tickets re-dispatched. -/
  | lstWdogExpiry (n : Fin 32)
  /-- LST_MEM_UNCORR (R303). An uncorrectable error in a last core's local memory takes the core OFFLINE with its tickets re-dispatched. -/
  | lstMemUncorr (n : Fin 32)
  /-- EVQ_POP (R306). A read of EVQ_POP0 pops and acknowledges the highest-class oldest event-queue entry. -/
  | evqPop (bad : Bool)
  /-- EVQ_RING_WRITE (R306). In ring mode the event queue writes a burst of entries to the host ring and signals MSI-X. -/
  | evqRingWrite (bad : BitVec 2)
  /-- TRACE_WRITE (R308). The scheduler trace writer writes records to its HBM ring. -/
  | traceWrite
  /-- SLOT (R328). In each core cycle's slot a crossbar makes at most one grant from owners, forced ports or background ranking. -/
  | slot (x : Fin 2) (req : List MemReq)
  /-- HBM_ACCESS_ISSUE (R324). An HBM controller issues a queued access to its pseudo-channel in urgency, row-hit and age order. -/
  | hbmAccessIssue (x : Fin 2) (pch : Fin 32) (busy : BitVec 16) (draw : Bool)
  /-- HBM_READ_RETURN (R318). Read data of an access reaches the crossbar, corrected, re-read from the mirror copy or poisoned. -/
  | hbmReadReturn (x : Fin 2) (k : Nat) (e0 : Fin 3) (e1 : Fin 3)
  /-- URGENCY_RISE (R324). A queued access ages into a higher urgency, possibly triggering preemption or QOS_MISS. -/
  | urgencyRise (x : Fin 2) (k : Nat)
  /-- WAIT_FORCED (R331). A port's wait counter reaches XBR_WAIT_LIMITp and the port is forced. -/
  | waitForced (x : Fin 2) (p : Fin 48)
  /-- REFRESH (R320). A bank's refresh interval expires and its refresh starts or is postponed into debt. -/
  | refresh (x : Fin 2) (pch : Fin 32) (bank : Fin 16)
  /-- NBR_REFRESH (R322). A neighbour-refresh draw hit at an activate leads to refresh of the physical neighbour rows within 1 µs. -/
  | nbrRefresh (x : Fin 2)
  /-- SR_ENTRY (R321). A stack has been idle for SR_IDLE × 64 core cycles and enters self-refresh. -/
  | srEntry (x : Fin 2)
  /-- SR_EXIT (R321). A request ends self-refresh and the stack exits before serving it. -/
  | srExit (x : Fin 2)
  /-- REPAIR_START (R319). The controller starts a soft post-package repair of a logged candidate row. -/
  | repairStart (x : Fin 2)
  /-- REPAIR_DONE (R319). A soft repair completes and the row's data is written back. -/
  | repairDone (x : Fin 2)
  /-- STACK_FAIL (R335). A stack gives no response for 10 µs and STACK_FAIL is raised. -/
  | stackFail (x : Fin 2)
  /-- BAR2_READ (R340). A host read through BAR2 reads the HBM logical address through port 40. -/
  | bar2Read (o : W32) (n : Nat)
  /-- BAR2_WRITE (R340). A host write through BAR2 writes HBM through port 40, partial accesses by read-modify-write. -/
  | bar2Write (o : W32) (bs : List (Option Byte)) (ep : Bool)
  /-- APT_BASE_WRITE (R341). A write to PCI_APT_BASE moves the BAR2 aperture for every later received request. -/
  | aptBaseWrite (v : W32)
  /-- CPL_TMO (R344). A device read times out, CPL_TMO is set and its descriptor completes with ERR. -/
  | cplTmo (e : Fin 2) (tx : Bool) (d : List W32)
  /-- PCIE_CONFIG_REQUEST (R407). A configuration request is answered, with Configuration Request Retry Status before stage 1. -/
  | pcieConfigRequest (k : Fin 1024) (w : Option W32)
  /-- PCIE_LINK_DOWN (R370). The PCI Express link leaves L0 and L1 other than by PERST_N. -/
  | pcieLinkDown
  /-- D3HOT_ENTRY (R346). The endpoint enters D3hot and answers configuration requests only. -/
  | d3hotEntry
  /-- D0_RETURN (R346). The endpoint returns to D0 and sends the MSI-X messages held in the PBA. -/
  | d0Return
  /-- WELT_TRIG_MSG (R353). A Welt TRIG message is received whole and delivered and forwarded, or dropped as a duplicate. -/
  | weltTrigMsg (n : Fin 4) (seq : BitVec 12) (code : Byte) (src : BitVec 6) (mid : Byte) (ttl : BitVec 6)
  /-- WELT_LACE_MSG (R353). A Welt LACE message is received whole and acts as a lace frame of its type, and is forwarded. -/
  | weltLaceMsg (n : Fin 4) (seq : BitVec 12) (typ : BitVec 4) (data : BitVec 48) (src : BitVec 6) (mid : Byte) (ttl : BitVec 6)
  /-- WELT_CAPTURE_PACKET (R356). A capture packet is received, written into the receive window or discarded with WIN_ERR, and acknowledged. -/
  | weltCapturePacket (n : Fin 4) (seq : BitVec 12) (ofs : BitVec 30) (len : Fin 16) (ws : List W32) (pmask : BitVec 4)
  /-- WELT_ACK (R351). An ACK is received and acknowledged packets leave the replay buffer. -/
  | weltAck (n : Fin 4) (seq : BitVec 12)
  /-- WELT_NAK (R351). A NAK is received and the transmitter replays from the packet after ACKSEQ. -/
  | weltNak (n : Fin 4) (seq : BitVec 12)
  /-- WELT_BAD_PACKET (R351). A packet with a CRC error, block error or unexpected SEQ is discarded and a NAK is sent. -/
  | weltBadPacket (n : Fin 4)
  /-- WELT_REPLAY_TIMEOUT (R351). 4 µs pass without an ACK and the transmitter replays. -/
  | weltReplayTimeout (n : Fin 4)
  /-- WELT_ACK_TIMER (R351). A packet has been left unacknowledged for 1 µs and the receiver sends an ACK. -/
  | weltAckTimer (n : Fin 4)
  /-- WLT_MSG_GO (R352). A write of WLT_MSG.GO queues one TRIG message, or loses it with MSG_LOST. -/
  | wltMsgGo (v : W32)
  /-- WELT_MSG_SEND (R352). A queued message leaves on every UP link with FWD, at most one per 256 UI. -/
  | weltMsgSend
  /-- WELT_LAST_EXPIRY (R353). No message from a SRC has been received for 20 ms and LAST[SRC] empties. -/
  | weltLastExpiry (src : BitVec 6)
  /-- WELT_TRAIN_DONE (R357). A link finishes training and becomes UP or DEGRADED. -/
  | weltTrainDone (n : Fin 4) (good : BitVec 4) (far : BitVec 6)
  /-- LANE_FAIL (R358). A Welt lane fails and both ends stripe over the remaining lanes from the next block boundary. -/
  | laneFail (n : Fin 4) (lane : Fin 4)
  /-- WELT_LINK_DOWN (R351). A link is not UP again within 10 ms of retraining and goes DOWN, discarding unacknowledged messages. -/
  | weltLinkDown (n : Fin 4)
  /-- RATE (R349). A receive elastic buffer reaches empty or full and RATE is raised. -/
  | rate (n : Fin 4)
  /-- RETRAIN (R358). A write of WLT_CTL.RETRAIN retrains every lane in LANE_EN. -/
  | retrain (n : Fin 4) (v : W32)
  /-- WELT_SLEEP_ENTRY (R359). A link or direction idle for SLEEP_IDLE µs enters deep or half sleep. -/
  | weltSleepEntry (n : Fin 4) (far : Bool)
  /-- WAKE (R359). A write of WLT_CTL.WAKE, or something to send, starts exit from sleep. -/
  | wake (n : Fin 4) (v : W32)
  /-- WELT_WAKE_DONE (R359). Exit from sleep completes and waiting packets are sent. -/
  | weltWakeDone (n : Fin 4) (far : Bool)
  /-- CAPS_GO (R356). A write of WLT_CAPS_CTL.GO starts a capture send to the far window, or is ignored. -/
  | capsGo (n : Fin 4) (v : W32)
  /-- ESCAN_GO (R360). A write of WLT_ESCAN_CTL.GO starts an offset-sampler scan on a lane. -/
  | escanGo (n : Fin 4) (v : W32)
  /-- ESCAN_DONE (R360). An eye scan completes its 2^DWELL bits and reports disagreements, or is aborted by a lane failure. -/
  | escanDone (n : Fin 4) (errs : Nat)
  /-- ETH_RX_FRAME (R362). A received Ethernet frame is stamped and written to a receive descriptor, or dropped. -/
  | ethRxFrame (e : Fin 2) (f : List Byte) (st : Fin 3) (d : List W32)
  /-- ETH_TX_FRAME (R362). The port sends the frame of an owned transmit descriptor, with stamping and one-step insertion, and writes it back. -/
  | ethTxFrame (e : Fin 2) (f : List Byte) (d : List W32) (bad : Bool)
  /-- ETH_LINK_DOWN (R370). An Ethernet port's link goes down. -/
  | ethLinkDown (e : Fin 2)
  /-- PTP_CAPTURE (R367). A read of PTP_TIME0 captures the precision-time clock and the timeline in one core cycle. -/
  | ptpCapture
  /-- SET (R368). A write of PTP_ADJ_CTL.SET loads the clock, or acts as a STEP when VALID is 1. -/
  | set (v : W32)
  /-- STEP (R368). A write of PTP_ADJ_CTL.STEP steps the clock, or is refused and added to SLEW_REM. -/
  | step (v : W32)
  /-- INVALIDATE (R368). A write of PTP_ADJ_CTL.INVALIDATE clears VALID. -/
  | invalidate (v : W32)
  /-- PTP_SLEW_DONE (R368). The remaining slew reaches 0 and SLEWING falls. -/
  | ptpSlewDone
  /-- PG_GO (R369). A write of PTP_PG_CTL.GO starts a pulse generator, skipping due times too close. -/
  | pgGo (g : Fin 4) (v : W32)
  /-- PG_STOP (R369). A write of PTP_PG_CTL.STOP ends the pulse generator at once. -/
  | pgStop (g : Fin 4) (v : W32)
  /-- PG_PULSE (R369). A pulse generator's due time is reached and its EVT pin rises. -/
  | pgPulse (g : Fin 4)
  /-- THM_SAMPLE (R430). A temperature sensor is sampled, validated and compared with WARN, STOP and TRIP limits. -/
  | thmSample (n : Fin 26) (raw : Int) (odd : Bool)
  /-- TRIP_PLL_GATE (R432). 10 µs after TRIP the quadrant PLL outputs are gated off. -/
  | tripPllGate
  /-- THERMAL_PARK_DEADLINE (R431). A group with no segment boundary 99 µs after a STOP sample is parked at that instant. -/
  | thermalParkDeadline
  /-- CAL_TARGET_UPDATE (R376). After a sensor sample the management controller computes new correction targets for the eyelet. -/
  | calTargetUpdate (e : Eye)
  /-- SLEW_PERIOD (R378). A 64,000-UI slew period starts and each correction moves towards its target by STEP. -/
  | slewPeriod
  /-- CAL_WIN_WRITE (R383). A write to CAL_WIN_DATA updates a shadow image word and advances the index under AUTO_INC. -/
  | calWinWrite (v : W32)
  /-- CAL_WIN_READ (R477). A read of CAL_WIN_DATA returns an image word and advances the index under AUTO_INC. -/
  | calWinRead
  /-- SAVE (R384). A write of CAL_FLASH_CTL.SAVE writes the live image to the other flash slot. -/
  | save (v : W32)
  /-- SAVE_DONE (R384). A calibration save finishes writing COMMIT and SAVE_BUSY falls. -/
  | saveDone (ok : Bool)
  /-- LOAD (R385). A write of CAL_FLASH_CTL.LOAD copies the newest valid flash image into the shadow copy, or sets LOAD_ERR. -/
  | load (v : W32)
  /-- CLR (R374). A write of CAL_LIN_CTL.CLR clears every linearity count. -/
  | clr (v : W32)
  /-- POWER_ON_RESET (R390). A rail below its valid threshold holds the die in power-on reset until all rails are valid. -/
  | powerOnReset (test : Bool)
  /-- RESET_N_ASSERT (R393). A low pulse of 100 ns or longer on RESET_N resets everything, the PCI Express link included. -/
  | resetNAssert
  /-- RESET_N_RELEASE (R390). RESET_N rises with rails valid and REFIN running, and start-up begins. -/
  | resetNRelease
  /-- PERST_ASSERT (R393). PERST_N low resets the PCI Express endpoint, its link and page while the fast plane runs on. -/
  | perstAssert
  /-- PERST_RELEASE (R407). PERST_N rises and the endpoint trains its link. -/
  | perstRelease (speed : Fin 6) (width : Fin 17)
  /-- CHIP (R394). A write of GLB_RST.CHIP with KEY 0xA5 parks channels, asserts KILL_N, optionally keeps HBM and resets the chip. -/
  | chip (v : W32)
  /-- MGMT_WDOG_EXPIRY (R395). The management firmware misses its heartbeat for 100 ms and the chip resets with KEEP_HBM 1. -/
  | mgmtWdogExpiry
  /-- STAGE_STEP (R403). When its condition holds and HOLD_AT allows, the firmware raises GLB_STAGE one step and carries out the step's actions. -/
  | stageStep (b : Boot)
  /-- STAGE_FALL (R404). With HOLD_AT below the stage, the stage falls once every sequencer is STOPPED. -/
  | stageFall
  /-- HOLD_AT_WRITE (R404). A write of GLB_STAGE.HOLD_AT lowers or raises the highest stage allowed. -/
  | holdAtWrite (v : W32)
  /-- ERASE (R401). SEC_FLASH_CMD operation erase erases the 64 KiB block holding ADDR, or is refused with FLASH_ERR. -/
  | erase
  /-- PROGRAM (R401). SEC_FLASH_CMD operation program writes DATA at ADDR, or is refused with FLASH_ERR. -/
  | program
  /-- FLASH_READ (R401). SEC_FLASH_CMD operation read reads the flash word at ADDR into DATA. -/
  | flashRead
  /-- FLASH_OP_DONE (R401). A flash command completes and FLASH_BUSY falls. -/
  | flashOpDone (ok : Bool)
  /-- RELEASE_KILL (R424). A write of 1 to GLB_KILL.RELEASE releases KILL_N, or is dropped during heel, power failure or after TRIP. -/
  | releaseKill
  /-- PWR_FAIL (R434). PWR_FAIL_N is recognised after 128 UI low and the device parks, stops, completes and flushes every ticket. -/
  | pwrFail
  /-- PWR_FAIL_END (R433). PWR_FAIL_N has been high for 1 ms and is no longer recognised. -/
  | pwrFailEnd
  /-- IDCODE (R468). JTAG instruction IDCODE selects the device identification register. -/
  | idcode
  /-- SAMPLE_PRELOAD (R468). JTAG instruction SAMPLE/PRELOAD samples and preloads the boundary register. -/
  | samplePreload
  /-- EXTEST (R469). JTAG instruction EXTEST takes the balls from the die after parking and a chip reset. -/
  | extest
  /-- EXTEST_PULSE (R469). JTAG instruction EXTEST_PULSE takes the balls for 1149.6 pulse testing. -/
  | extestPulse
  /-- EXTEST_TRAIN (R469). JTAG instruction EXTEST_TRAIN takes the balls for 1149.6 train testing. -/
  | extestTrain
  /-- HIGHZ (R469). JTAG instruction HIGHZ takes the balls and places them high-impedance. -/
  | highz
  /-- CLAMP (R469). JTAG instruction CLAMP takes the balls and holds them at the boundary register values. -/
  | clamp
  /-- BYPASS (R468). JTAG instruction BYPASS, or any unassigned code, selects the bypass register. -/
  | bypass
  /-- TEST_LOGIC_RESET (R469). The TAP reaches Test-Logic-Reset, IDCODE is selected and the die leaves boundary-scan reset. -/
  | testLogicReset
  /-- SMB_ARP (R470). An SMBus Address Resolution Protocol command assigns or reports the target's address. -/
  | smbArp (a : Option (BitVec 7))
  /-- SMB_READ_STAGE (R470). SMBus command 0x00 returns GLB_STAGE bits 7:0. -/
  | smbReadStage
  /-- SMB_READ_FLT_STS (R470). SMBus command 0x01 returns FLT_STS bits 15:0. -/
  | smbReadFltSts
  /-- SMB_READ_TEMP (R470). SMBus command 0x02 returns the highest valid die temperature. -/
  | smbReadTemp
  /-- SMB_READ_HBM_TEMP (R470). SMBus command 0x03 returns the higher stack temperature. -/
  | smbReadHbmTemp
  /-- SMB_READ_STATUS (R470). SMBus command 0x04 returns the KILL_N, FAULT_N and HOT status bits. -/
  | smbReadStatus
  /-- REF_PRESENT_RISE (R43). At power-up REF_PRESENT rises at the end of 1,000 consecutive good REFIN periods, and the PLL lock time of R46 counts from this rise. -/
  | refPresentRise
  /-- CLOCK_EDGE (R168). A running DDS unit places a clock edge where its phase passes a whole or half cycle, subject to the 1,023-fraction-unit spacing and CLK_CLASH. -/
  | clockEdge (e : Eye)
  /-- PCIE_LINK_UP (R370). The PCI Express link returns to L0 after having left L0 and L1, ending the cause of the persistent LINK_DOWN fault. -/
  | pcieLinkUp (speed : Fin 6) (width : Fin 17)
  /-- ETH_LINK_UP (R370). An Ethernet port gains PCS block lock and its link comes up, ending the cause of its persistent LINK_DOWN fault. -/
  | ethLinkUp (e : Fin 2)
  /-- STACK_RESPONSE_RETURN (R335). An HBM stack that gave no response for 10 µs responds again, ending the cause of the persistent STACK_FAIL fault. -/
  | stackResponseReturn (x : Fin 2)
  deriving DecidableEq, Repr

end Sys2Proof
end

