-- ==== Sys2Proof/Config.lean ====
section
/-!
DEFINITION. What one implementation, one die or one board fixes, and the free values: constants with no body, of
which nothing can be proved but what the spec states. Every statement about the model holds for every value of them.
-/
namespace Sys2Proof.Config

open Sys2Proof

/-- GLB_ID.DIE_REV, read from the die (R337). -/
opaque dieRev : BitVec 4

/-- The PCI-SIG vendor ID, one fixed value for every Barroth (R337); the manual does not print it. -/
opaque vendorId : BitVec 16

/-- Dword i of the configuration space outside the fields of R337 and the BARs of R338: the manual does not give it. -/
opaque cfgWord : Nat → W32

/-- Word i of the factory-default calibration image in the factory data (R396): Ihliraben's, not printed. -/
opaque factoryCal : Nat → W32

/-- MEM_DLY in the factory data (R317, R396), by 256 * stack + 32 * lane + pseudo-channel: not printed. -/
opaque factoryDly : Nat → W32

/-- The SMBus UDID in the die data (R470): not printed. -/
opaque udid : BitVec 128

/-- SEC_STS.SVN_MIN, fused (R398). -/
opaque svnMin : BitVec 8

/-- SEC_KEY_HASH word i, fused (R398). -/
opaque keyHash : Nat → W32

/-- The JEDEC manufacturer field of the IDCODE (R468); the manual does not print it. -/
opaque jedec : BitVec 11

/-- Word i of vendor microcode word n once it is loaded (R267): the vendor's, not printed. -/
opaque vendorUcode : Nat → Nat → W32

/-- Gains of a tracking loop for a BW code and a period, in 1/16 fraction unit of offset for each fraction unit of error:
proportional and integral. R67 gives the loop's order, damping and bandwidth, and no coefficients. -/
opaque loopP : Nat → Nat → Int
opaque loopI : Nat → Nat → Int

/-- The n-th value the manual leaves open: a number nothing constrains. -/
opaque freeValue : Nat → Nat

end Sys2Proof.Config
end

