-- ==== Sys2Proof/Machine/Fields.lean ====
section
/-!
DEFINITION. Every register of the register index (R451) and every field of it, with the access code, the S or L
type and the reset value that the chapters' register tables give (R16, R18, R22), and every fault source with its
default class and reactions. Offsets are within the page; `n0 s0 n1 s1` say how often a register repeats and how far
apart (a register of an indexed group lies at ofs + i * s0 + j * s1).
-/
namespace Sys2Proof.Machine

/-- Access codes and S and L types (R16, R18). -/
inductive Acc where
  | rwS | rwL | ro | w1c | w1s | wo | rc
  deriving DecidableEq, Repr

/-- One field of a register: the register's byte offset within its page, the bits, the access code, the reset. -/
structure Fld where
  ofs : Nat
  hi : Nat
  lo : Nat
  acc : Acc
  rst : Nat
  deriving DecidableEq, Repr

/-- The same field of a register `n` bytes further on: an indexed register of a group. -/
def Fld.off (f : Fld) (n : Nat) : Fld := { f with ofs := f.ofs + n }

/-- A register, or a group of equal registers, of a page. `only0`: present on instance 0 only. -/
structure Reg where
  ofs : Nat
  n0 : Nat
  s0 : Nat
  n1 : Nat
  s1 : Nat
  only0 : Bool
  fields : List Fld
  deriving DecidableEq, Repr

/-! ## Block types (R439) -/

namespace T

/-- Block type code of GLB. -/
def glb : Nat := 0x00

/-- Block type code of TBS. -/
def tbs : Nat := 0x01

/-- Block type code of CHN. -/
def chn : Nat := 0x02

/-- Block type code of SPR. -/
def spr : Nat := 0x03

/-- Block type code of EYE. -/
def eye : Nat := 0x04

/-- Block type code of DDS. -/
def dds : Nat := 0x05

/-- Block type code of CMP. -/
def cmp : Nat := 0x06

/-- Block type code of TDC. -/
def tdc : Nat := 0x07

/-- Block type code of TRG. -/
def trg : Nat := 0x08

/-- Block type code of ANE. -/
def ane : Nat := 0x09

/-- Block type code of SCH. -/
def sch : Nat := 0x0A

/-- Block type code of LST. -/
def lst : Nat := 0x0B

/-- Block type code of MEM. -/
def mem : Nat := 0x0C

/-- Block type code of XBR. -/
def xbr : Nat := 0x0D

/-- Block type code of PCI. -/
def pci : Nat := 0x0E

/-- Block type code of WLT. -/
def wlt : Nat := 0x0F

/-- Block type code of ETH. -/
def eth : Nat := 0x10

/-- Block type code of PTP. -/
def ptp : Nat := 0x11

/-- Block type code of FLT. -/
def flt : Nat := 0x12

/-- Block type code of THM. -/
def thm : Nat := 0x13

/-- Block type code of CAL. -/
def cal : Nat := 0x14

/-- Block type code of SEC. -/
def sec : Nat := 0x15

/-- Block type code of EVQ. -/
def evq : Nat := 0x16

end T

/-- Instances of each block type (R439); 0 for a reserved type. -/
def instances : Nat → Nat
  | 0x02 => 256
  | 0x03 => 16
  | 0x04 => 16
  | 0x05 => 16
  | 0x06 => 16
  | 0x07 => 16
  | 0x08 => 4
  | 0x09 => 4
  | 0x0B => 32
  | 0x0C => 2
  | 0x0D => 2
  | 0x0F => 4
  | 0x10 => 2
  | n => if n < 0x17 then 1 else 0

/-! ## Fields -/

namespace F

def PG_ID_TYPE : Fld := ⟨0x000, 7, 0, .ro, 0⟩
def PG_ID_INSTANCE : Fld := ⟨0x000, 15, 8, .ro, 0⟩
def PG_ID_REV : Fld := ⟨0x000, 23, 16, .ro, 1⟩
def PG_CAP_NSRC : Fld := ⟨0x004, 5, 0, .ro, 0⟩
def PG_CAP_SHADOW : Fld := ⟨0x004, 8, 8, .ro, 0⟩
def PG_CAP_RESETTABLE : Fld := ⟨0x004, 9, 9, .ro, 0⟩
def PG_CAP_EYE_SCOPE : Fld := ⟨0x004, 10, 10, .ro, 0⟩
def PG_CAP_PART_ENABLE : Fld := ⟨0x004, 11, 11, .ro, 0⟩
def PG_CTL_ENABLE : Fld := ⟨0x008, 0, 0, .rwL, 0⟩
def PG_CTL_BLOCK_RESET : Fld := ⟨0x008, 1, 1, .wo, 0⟩
def PG_CTL_CFG_LOCK : Fld := ⟨0x008, 2, 2, .w1s, 0⟩
def PG_STS_BUSY : Fld := ⟨0x00C, 0, 0, .ro, 0⟩
def PG_STS_CFG_ERR : Fld := ⟨0x00C, 1, 1, .w1c, 0⟩
def PG_STS_COMMIT_PEND : Fld := ⟨0x00C, 2, 2, .ro, 0⟩
def PG_FLT_FLT : Fld := ⟨0x010, 31, 0, .w1c, 0⟩
def PG_FLT_MASK_MASK : Fld := ⟨0x014, 31, 0, .rwL, 0⟩
def PG_FLT_CLASS_SRC : Fld := ⟨0x018, 4, 0, .rwL, 0⟩
def PG_FLT_CLASS_CLASS : Fld := ⟨0x018, 9, 8, .rwL, 0⟩
def PG_FLT_CLASS_WR : Fld := ⟨0x018, 31, 31, .wo, 0⟩
def PG_FLT_RXN_SRC : Fld := ⟨0x01C, 4, 0, .rwL, 0⟩
def PG_FLT_RXN_RXN : Fld := ⟨0x01C, 13, 8, .rwL, 0⟩
def PG_FLT_RXN_FIXED : Fld := ⟨0x01C, 21, 16, .ro, 0⟩
def PG_FLT_RXN_WR : Fld := ⟨0x01C, 31, 31, .wo, 0⟩
def PG_COMMIT_COMMIT : Fld := ⟨0x020, 0, 0, .wo, 0⟩
def PG_CFG_ERR_OFS_OFS : Fld := ⟨0x024, 11, 0, .ro, 0⟩
def GLB_ID_PART : Fld := ⟨0x100, 15, 0, .ro, 0x256⟩
def GLB_ID_DIE_REV : Fld := ⟨0x100, 19, 16, .ro, 0⟩
def GLB_STAGE_STAGE : Fld := ⟨0x104, 2, 0, .ro, 0⟩
def GLB_STAGE_STEP_BUSY : Fld := ⟨0x104, 3, 3, .ro, 0⟩
def GLB_STAGE_HOLD_AT : Fld := ⟨0x104, 6, 4, .rwL, 4⟩
def GLB_RST_CHIP : Fld := ⟨0x108, 0, 0, .wo, 0⟩
def GLB_RST_KEEP_HBM : Fld := ⟨0x108, 1, 1, .rwL, 0⟩
def GLB_RST_KEY : Fld := ⟨0x108, 15, 8, .wo, 0⟩
def GLB_RST_CAUSE_POR : Fld := ⟨0x10C, 0, 0, .w1c, 0⟩
def GLB_RST_CAUSE_PIN : Fld := ⟨0x10C, 1, 1, .w1c, 0⟩
def GLB_RST_CAUSE_SW : Fld := ⟨0x10C, 2, 2, .w1c, 0⟩
def GLB_RST_CAUSE_FAULT : Fld := ⟨0x10C, 3, 3, .w1c, 0⟩
def GLB_RST_CAUSE_WDOG : Fld := ⟨0x10C, 4, 4, .w1c, 0⟩
def GLB_RST_CAUSE_PERST : Fld := ⟨0x10C, 5, 5, .w1c, 0⟩
def GLB_KILL_RELEASE : Fld := ⟨0x110, 0, 0, .rwL, 0⟩
def GLB_KILL_ASSERTED : Fld := ⟨0x110, 1, 1, .ro, 1⟩
def GLB_BIST_EYE_FAIL : Fld := ⟨0x114, 15, 0, .ro, 0⟩
def GLB_BIST_LST_FAIL : Fld := ⟨0x118, 31, 0, .ro, 0⟩
def GLB_BIST_MISC_ANE : Fld := ⟨0x11C, 3, 0, .ro, 0⟩
def GLB_BIST_MISC_SEG : Fld := ⟨0x11C, 4, 4, .ro, 0⟩
def GLB_BIST_MISC_EVQ : Fld := ⟨0x11C, 5, 5, .ro, 0⟩
def GLB_BIST_MISC_SCH : Fld := ⟨0x11C, 6, 6, .ro, 0⟩
def GLB_BIST_MISC_CALRAM : Fld := ⟨0x11C, 7, 7, .ro, 0⟩
def GLB_BIST_MISC_RLIST_FULL : Fld := ⟨0x11C, 8, 8, .w1c, 0⟩
def GLB_BIST_MISC_HBM : Fld := ⟨0x11C, 10, 9, .ro, 0⟩
def GLB_SEG_CMT_REGIONS : Fld := ⟨0x400, 31, 0, .rwL, 0⟩
def GLB_SEG_CTL_LIVE : Fld := ⟨0x410, 0, 0, .rwL, 0⟩
def GLB_SEG_STS_INVALID : Fld := ⟨0x414, 16, 0, .ro, 0⟩
def GLB_SEG_STS_SEG_ERR : Fld := ⟨0x414, 17, 17, .w1c, 0⟩
def GLB_SEG_STS_SEG_BUSY : Fld := ⟨0x414, 18, 18, .ro, 0⟩
def GLB_SEG_STS_WR_DROP : Fld := ⟨0x414, 19, 19, .w1c, 0⟩
def GLB_SEG_ERR_ENTRY : Fld := ⟨0x418, 16, 0, .ro, 0⟩
def GLB_SEG_ERR_REASON : Fld := ⟨0x418, 19, 17, .ro, 0⟩
def GLB_SEG_ECC_CORR : Fld := ⟨0x41C, 15, 0, .rc, 0⟩
def GLB_SEG_ECC_UNCORR : Fld := ⟨0x41C, 31, 16, .rc, 0⟩
def TBS_REF_STS_REF_PRESENT : Fld := ⟨0x100, 0, 0, .ro, 0⟩
def TBS_REF_STS_HOLDOVER : Fld := ⟨0x100, 1, 1, .ro, 0⟩
def TBS_REF_STS_ALIGNED : Fld := ⟨0x100, 2, 2, .ro, 0⟩
def TBS_REF_STS_QPLL_LOCK : Fld := ⟨0x100, 7, 4, .ro, 0⟩
def TBS_REF_STS_CPLL_LOCK : Fld := ⟨0x100, 8, 8, .ro, 0⟩
def TBS_REF_STS_HOLD_US : Fld := ⟨0x100, 31, 16, .ro, 0⟩
def TBS_REF_CTL_FMON_SRC : Fld := ⟨0x104, 1, 0, .rwL, 0⟩
def TBS_REF_CTL_FMON_THR : Fld := ⟨0x104, 15, 8, .rwL, 0xC8⟩
def TBS_TIMELINE_LO_UI_LO : Fld := ⟨0x108, 31, 0, .ro, 0⟩
def TBS_TIMELINE_HI_UI_HI : Fld := ⟨0x10C, 31, 0, .ro, 0⟩
def TBS_LACE_CTL_ALIGN_ARM : Fld := ⟨0x110, 0, 0, .w1s, 0⟩
def TBS_LACE_CTL_DISARM : Fld := ⟨0x110, 1, 1, .wo, 0⟩
def TBS_LACE_CTL_OUT_MODE : Fld := ⟨0x110, 3, 2, .rwS, 0⟩
def TBS_LACE_CTL_SAMPLE_EDGE : Fld := ⟨0x110, 4, 4, .rwS, 0⟩
def TBS_LACE_TRIM_TRIM : Fld := ⟨0x114, 17, 0, .rwL, 0⟩
def TBS_LACE_STS_ALIGN_SEQ : Fld := ⟨0x118, 15, 0, .ro, 0⟩
def TBS_LACE_STS_ALIGN_REFUSED : Fld := ⟨0x118, 16, 16, .w1c, 0⟩
def TBS_LACE_STS_TX_BUSY : Fld := ⟨0x118, 17, 17, .ro, 0⟩
def TBS_LACE_STS_RSVD_TYPE : Fld := ⟨0x118, 18, 18, .w1c, 0⟩
def TBS_LACE_STS_TX_OVR : Fld := ⟨0x118, 19, 19, .w1c, 0⟩
def TBS_LACE_STS_REFUSE_WHY : Fld := ⟨0x118, 22, 20, .ro, 0⟩
def TBS_LACE_STS_CRC_ERRS : Fld := ⟨0x118, 31, 24, .rc, 0⟩
def TBS_LACE_TX_TYPE : Fld := ⟨0x11C, 3, 0, .rwL, 0⟩
def TBS_LACE_TX_GO : Fld := ⟨0x11C, 31, 31, .wo, 0⟩
def TBS_LACE_TX_PL_LO_PL_LO : Fld := ⟨0x120, 31, 0, .rwL, 0⟩
def TBS_LACE_TX_PL_HI_PL_HI : Fld := ⟨0x124, 15, 0, .rwL, 0⟩
def TBS_ALIGN_CHK_CHK : Fld := ⟨0x128, 31, 0, .ro, 0⟩
def TBS_REFCAL_LO_FRAC : Fld := ⟨0x130, 9, 0, .ro, 0⟩
def TBS_REFCAL_LO_UI_L : Fld := ⟨0x130, 31, 10, .ro, 0⟩
def TBS_REFCAL_HI_UI_H : Fld := ⟨0x134, 31, 0, .ro, 0⟩
def TBS_REFCAL_CTL_CAP_ARM : Fld := ⟨0x138, 0, 0, .w1s, 0⟩
def TBS_REFCAL_CTL_CAP_DONE : Fld := ⟨0x138, 1, 1, .ro, 0⟩
def TBS_TRACK_CTL_EN : Fld := ⟨0x140, 0, 0, .rwL, 0⟩
def TBS_TRACK_CTL_SRC_CH : Fld := ⟨0x140, 6, 1, .rwS, 0⟩
def TBS_TRACK_CTL_BW : Fld := ⟨0x140, 10, 7, .rwS, 6⟩
def TBS_TRACK_CTL_REF_AUTO : Fld := ⟨0x140, 11, 11, .rwS, 1⟩
def TBS_TRACK_CTL_LOSS_ACT : Fld := ⟨0x140, 12, 12, .rwL, 0⟩
def TBS_TRACK_CTL_LOSS_WIN : Fld := ⟨0x140, 20, 13, .rwS, 8⟩
def TBS_TRACK_CTL_LOCK_THR : Fld := ⟨0x140, 28, 21, .rwS, 0x40⟩
def TBS_TRACK_PER_PER : Fld := ⟨0x144, 23, 0, .rwS, 0x2000⟩
def TBS_TRACK_REF_REF : Fld := ⟨0x148, 23, 0, .rwS, 0⟩
def TBS_TRACK_SLEW_SLEW : Fld := ⟨0x14C, 11, 0, .rwL, 0x100⟩
def TBS_TRACK_STS_STATE : Fld := ⟨0x150, 2, 0, .ro, 0⟩
def TBS_TRACK_STS_STEER_LIMIT : Fld := ⟨0x150, 3, 3, .w1c, 0⟩
def TBS_TRACK_STS_BW_CLAMP : Fld := ⟨0x150, 4, 4, .ro, 0⟩
def TBS_TRACK_STS_FWD_LOST : Fld := ⟨0x150, 5, 5, .w1c, 0⟩
def TBS_QOFS_OFS : Fld := ⟨0x154, 15, 0, .ro, 0⟩
def CHN_CTL_MODE : Fld := ⟨0x100, 1, 0, .rwS, 0⟩
def CHN_CTL_SROLE : Fld := ⟨0x100, 3, 2, .rwS, 0⟩
def CHN_CTL_PARK : Fld := ⟨0x100, 5, 4, .rwL, 0⟩
def CHN_CTL_IDLE : Fld := ⟨0x100, 6, 6, .rwL, 0⟩
def CHN_CTL_SITE : Fld := ⟨0x100, 14, 8, .rwS, 0⟩
def CHN_STS_TAKEN : Fld := ⟨0x104, 0, 0, .ro, 0⟩
def CHN_STS_PARKED : Fld := ⟨0x104, 1, 1, .ro, 1⟩
def CHN_STS_SHADOW_BUSY : Fld := ⟨0x104, 2, 2, .ro, 0⟩
def CHN_STS_CLASH : Fld := ⟨0x104, 3, 3, .w1c, 0⟩
def CHN_STS_WFT_ERR : Fld := ⟨0x104, 4, 4, .w1c, 0⟩
def CHN_STS_ABSORBED : Fld := ⟨0x104, 5, 5, .ro, 0⟩
def CHN_CLASH_CNT_COUNT : Fld := ⟨0x108, 15, 0, .rc, 0⟩
def CHN_WFT_IDX_WORD : Fld := ⟨0x110, 2, 0, .rwL, 0⟩
def CHN_WFT_IDX_WAVE : Fld := ⟨0x110, 6, 3, .rwL, 0⟩
def CHN_WFT_IDX_TSET : Fld := ⟨0x110, 12, 7, .rwL, 0⟩
def CHN_WFT_IDX_LIVE : Fld := ⟨0x110, 16, 16, .rwL, 0⟩
def CHN_WFT_IDX_AUTO_INC : Fld := ⟨0x110, 17, 17, .rwL, 0⟩
def CHN_WFT_DATA : Fld := ⟨0x114, 31, 0, .rwL, 0⟩
def CHN_WFT_ERR_TSET : Fld := ⟨0x118, 5, 0, .ro, 0⟩
def CHN_WFT_ERR_WAVE : Fld := ⟨0x118, 9, 6, .ro, 0⟩
def CHN_WFT_ERR_WORD : Fld := ⟨0x118, 12, 10, .ro, 0⟩
def CHN_WFT_ERR_REASON : Fld := ⟨0x118, 15, 13, .ro, 0⟩
def CHN_SER_DLY_DLY : Fld := ⟨0x120, 11, 0, .rwL, 0⟩
def CHN_SER_STB_STB : Fld := ⟨0x124, 9, 0, .rwL, 0x200⟩
def CHN_CAL_SEL_CLASS : Fld := ⟨0x130, 2, 0, .rwL, 0⟩
def CHN_CAL_APPLIED_CORR : Fld := ⟨0x134, 19, 0, .ro, 0⟩
def SPR_CTL_THR : Fld := ⟨0x100, 7, 0, .rwL, 0x41⟩
def SPR_CTL_REF_THR : Fld := ⟨0x100, 16, 8, .rwL, 0x83⟩
def SPR_STS_STATE : Fld := ⟨0x104, 2, 0, .ro, 0⟩
def SPR_STS_POS : Fld := ⟨0x104, 7, 4, .ro, 0⟩
def SPR_STS_FOR_CH : Fld := ⟨0x104, 11, 8, .ro, 0⟩
def SPR_STS_NPOS : Fld := ⟨0x104, 16, 12, .ro, 0⟩
def SPR_STS_TAKEOVER : Fld := ⟨0x104, 17, 17, .w1c, 0⟩
def SPR_STS_SPARE_BAD : Fld := ⟨0x104, 18, 18, .w1c, 0⟩
def SPR_DWELL_DWELL : Fld := ⟨0x108, 22, 0, .ro, 0⟩
def SPR_DEV_LIVE_DEV : Fld := ⟨0x10C, 15, 0, .ro, 0⟩
def SPR_DEV_SPARE_DEV : Fld := ⟨0x10C, 31, 16, .ro, 0⟩
def SPR_CLEAN_SEL_CH : Fld := ⟨0x110, 3, 0, .rwL, 0⟩
def SPR_CLEAN_LO_CLEAN : Fld := ⟨0x114, 31, 0, .ro, 0⟩
def SPR_CLEAN_HI_CLEAN : Fld := ⟨0x118, 31, 0, .ro, 0⟩
def SPR_WIN_START_LO_START : Fld := ⟨0x120, 31, 0, .ro, 0⟩
def SPR_WIN_START_HI_START : Fld := ⟨0x124, 31, 0, .ro, 0⟩
def SPR_WIN_END_LO_END : Fld := ⟨0x128, 31, 0, .ro, 0⟩
def SPR_WIN_END_HI_END : Fld := ⟨0x12C, 31, 0, .ro, 0⟩
def SPR_DWELL_T_LO_T : Fld := ⟨0x130, 31, 0, .ro, 0⟩
def SPR_DWELL_T_HI_T : Fld := ⟨0x134, 31, 0, .ro, 0⟩
def EYE_SEQ_CTL_GO : Fld := ⟨0x100, 0, 0, .wo, 0⟩
def EYE_SEQ_CTL_STOP : Fld := ⟨0x100, 1, 1, .wo, 0⟩
def EYE_SEQ_CTL_ABORT : Fld := ⟨0x100, 2, 2, .wo, 0⟩
def EYE_SEQ_CTL_START_MODE : Fld := ⟨0x100, 4, 4, .rwL, 0⟩
def EYE_SEQ_CTL_START_TAG : Fld := ⟨0x100, 12, 5, .rwL, 0⟩
def EYE_SEQ_CTL_AUTO_MASK : Fld := ⟨0x100, 13, 13, .rwL, 0⟩
def EYE_SEQ_CTL_MATCH_MODE : Fld := ⟨0x100, 14, 14, .rwL, 0⟩
def EYE_SEQ_CTL_MATCH_FAIL : Fld := ⟨0x100, 15, 15, .rwL, 0⟩
def EYE_SEQ_CTL_SYNC_LATE_ACT : Fld := ⟨0x100, 16, 16, .rwL, 1⟩
def EYE_SEQ_CTL_SYNC_TAG : Fld := ⟨0x100, 24, 17, .rwL, 0⟩
def EYE_SEQ_CTL_SYNC_LACE_EN : Fld := ⟨0x100, 25, 25, .rwL, 0⟩
def EYE_SEQ_STS_STATE : Fld := ⟨0x104, 2, 0, .ro, 0⟩
def EYE_SEQ_STS_FOLLOWER : Fld := ⟨0x104, 3, 3, .ro, 0⟩
def EYE_SEQ_STS_START_REFUSED : Fld := ⟨0x104, 4, 4, .w1c, 0⟩
def EYE_SEQ_STS_SYNC_LATE : Fld := ⟨0x104, 5, 5, .w1c, 0⟩
def EYE_SEQ_STS_MATCH_TMO : Fld := ⟨0x104, 6, 6, .w1c, 0⟩
def EYE_SEQ_STS_SEG_EMPTY : Fld := ⟨0x104, 7, 7, .w1c, 0⟩
def EYE_SEQ_STS_ABORTED : Fld := ⟨0x104, 8, 8, .w1c, 0⟩
def EYE_SEQ_STS_AT_ARMED : Fld := ⟨0x104, 9, 9, .ro, 0⟩
def EYE_SEQ_STS_STOP_PEND : Fld := ⟨0x104, 10, 10, .ro, 0⟩
def EYE_SEQ_STS_REASON : Fld := ⟨0x104, 15, 12, .ro, 0⟩
def EYE_SEQ_PTR_ENTRY : Fld := ⟨0x108, 16, 0, .ro, 0⟩
def EYE_SEQ_PTR_PASSES_LEFT : Fld := ⟨0x108, 28, 17, .ro, 0⟩
def EYE_SEQ_VEC_VEC : Fld := ⟨0x10C, 20, 0, .ro, 0⟩
def EYE_SEQ_FIRST_ENTRY : Fld := ⟨0x110, 16, 0, .rwL, 0⟩
def EYE_SEQ_START_LO_T : Fld := ⟨0x114, 31, 0, .rwL, 0⟩
def EYE_SEQ_START_HI_T : Fld := ⟨0x118, 31, 0, .rwL, 0⟩
def EYE_SYNC_AT_LO_AT_L : Fld := ⟨0x11C, 31, 0, .rwL, 0⟩
def EYE_SYNC_AT_HI_AT_H : Fld := ⟨0x120, 31, 0, .rwL, 0⟩
def EYE_COND_ARG_ARG : Fld := ⟨0x130, 7, 0, .rwL, 0⟩
def EYE_COND_TIME_LO_TIME : Fld := ⟨0x140, 31, 0, .rwL, 0⟩
def EYE_COND_TIME_HI_TIME : Fld := ⟨0x144, 31, 0, .rwL, 0⟩
def EYE_COND_CNT_RELOAD : Fld := ⟨0x148, 15, 0, .rwL, 1⟩
def EYE_COND_CNT_COUNT : Fld := ⟨0x148, 31, 16, .ro, 0⟩
def EYE_SEQ_FLAG_FLAG : Fld := ⟨0x14C, 31, 0, .wo, 0⟩
def EYE_BIND_LEADER : Fld := ⟨0x150, 3, 0, .rwL, 0⟩
def EYE_BIND_BOUND : Fld := ⟨0x150, 4, 4, .rwL, 0⟩
def EYE_MATCH_SITES : Fld := ⟨0x160, 31, 0, .ro, 0⟩
def EYE_VAMP_CFG_FMT : Fld := ⟨0x200, 0, 0, .rwS, 0⟩
def EYE_VAMP_CFG_RES_BLK : Fld := ⟨0x200, 7, 1, .rwS, 0⟩
def EYE_VAMP_CFG_FILL_AHEAD : Fld := ⟨0x200, 15, 8, .rwS, 0x10⟩
def EYE_VAMP_STS_UNDERRUN : Fld := ⟨0x204, 0, 0, .w1c, 0⟩
def EYE_VAMP_STS_HOLD : Fld := ⟨0x204, 1, 1, .w1c, 0⟩
def EYE_VAMP_STS_POISON : Fld := ⟨0x204, 2, 2, .w1c, 0⟩
def EYE_VAMP_STS_RANGE : Fld := ⟨0x204, 3, 3, .w1c, 0⟩
def EYE_VAMP_STS_LOAD_BUSY : Fld := ⟨0x204, 4, 4, .ro, 0⟩
def EYE_VAMP_STS_LOAD_ERR : Fld := ⟨0x204, 5, 5, .w1c, 0⟩
def EYE_VAMP_STS_HOLDING : Fld := ⟨0x204, 6, 6, .ro, 0⟩
def EYE_VAMP_STS_AHEAD : Fld := ⟨0x204, 15, 8, .ro, 0⟩
def EYE_HOLD_CTL_MODE : Fld := ⟨0x208, 0, 0, .rwL, 0⟩
def EYE_HOLD_CTL_WAVE : Fld := ⟨0x208, 4, 1, .rwL, 0⟩
def EYE_HOLD_CTL_MAX : Fld := ⟨0x208, 15, 8, .rwL, 0x10⟩
def EYE_PAT_BASE_LO_ADDR_L : Fld := ⟨0x210, 31, 6, .rwS, 0⟩
def EYE_PAT_BASE_HI_ADDR_H : Fld := ⟨0x214, 2, 0, .rwS, 0⟩
def EYE_PAT_LINES_LINES : Fld := ⟨0x218, 28, 0, .rwS, 0⟩
def EYE_VAMP_SLACK_MIN_SLACK : Fld := ⟨0x21C, 15, 0, .ro, 0xFFFF⟩
def EYE_VAMP_SLACK_RESTART : Fld := ⟨0x21C, 31, 31, .wo, 0⟩
def EYE_VAMP_HOLDS_COUNT : Fld := ⟨0x220, 31, 0, .rc, 0⟩
def EYE_VAMP_UNDERRUNS_COUNT : Fld := ⟨0x224, 15, 0, .rc, 0⟩
def EYE_VAMP_ECC_CORR : Fld := ⟨0x228, 15, 0, .rc, 0⟩
def EYE_VAMP_ECC_UNCORR : Fld := ⟨0x228, 31, 16, .rc, 0⟩
def EYE_VAMP_LD_SRC_LO_SRC_L : Fld := ⟨0x230, 31, 6, .rwL, 0⟩
def EYE_VAMP_LD_SRC_HI_SRC_H : Fld := ⟨0x234, 2, 0, .rwL, 0⟩
def EYE_VAMP_LD_CTL_DST : Fld := ⟨0x238, 14, 0, .rwL, 0⟩
def EYE_VAMP_LD_CTL_COUNT : Fld := ⟨0x238, 30, 15, .rwL, 0⟩
def EYE_VAMP_LD_CTL_GO : Fld := ⟨0x238, 31, 31, .wo, 0⟩
def EYE_VAMP_WADDR_WADDR : Fld := ⟨0x240, 18, 0, .rwL, 0⟩
def EYE_VAMP_WADDR_AUTO_INC : Fld := ⟨0x240, 31, 31, .rwL, 0⟩
def EYE_VAMP_WDATA_DATA : Fld := ⟨0x244, 31, 0, .rwL, 0⟩
def EYE_DMAP_CMP : Fld := ⟨0xA00, 15, 0, .rwL, 0⟩
def EYE_TS_PER_LO_FRAC : Fld := ⟨0x800, 9, 0, .rwS, 0⟩
def EYE_TS_PER_LO_UI_L : Fld := ⟨0x800, 31, 10, .rwS, 4⟩
def EYE_TS_PER_HI_UI_H : Fld := ⟨0x804, 10, 0, .rwS, 0⟩
def DDS_CTL_GO : Fld := ⟨0x100, 0, 0, .wo, 0⟩
def DDS_CTL_STOP : Fld := ⟨0x100, 1, 1, .wo, 0⟩
def DDS_CTL_START_MODE : Fld := ⟨0x100, 3, 2, .rwL, 0⟩
def DDS_CTL_START_TAG : Fld := ⟨0x100, 11, 4, .rwL, 0⟩
def DDS_CTL_WRAP : Fld := ⟨0x100, 12, 12, .rwL, 1⟩
def DDS_CTL_SEG_SEL : Fld := ⟨0x100, 14, 13, .rwL, 0⟩
def DDS_CTL_AMP_LEAD : Fld := ⟨0x100, 22, 15, .rwL, 0⟩
def DDS_STS_STATE : Fld := ⟨0x104, 2, 0, .ro, 0⟩
def DDS_STS_START_REFUSED : Fld := ⟨0x104, 3, 3, .w1c, 0⟩
def DDS_STS_HOP_LATE : Fld := ⟨0x104, 4, 4, .w1c, 0⟩
def DDS_STS_CLK_CLASH : Fld := ⟨0x104, 5, 5, .w1c, 0⟩
def DDS_STS_LIST_ERR : Fld := ⟨0x104, 6, 6, .w1c, 0⟩
def DDS_STS_AMP_LATE : Fld := ⟨0x104, 7, 7, .w1c, 0⟩
def DDS_STS_PEL_BUSY : Fld := ⟨0x104, 8, 8, .ro, 0⟩
def DDS_STS_PEL_OVR : Fld := ⟨0x104, 9, 9, .w1c, 0⟩
def DDS_STS_REASON : Fld := ⟨0x104, 15, 12, .ro, 0⟩
def DDS_STS_ENTRY : Fld := ⟨0x104, 27, 16, .ro, 0⟩
def DDS_START_LO_T : Fld := ⟨0x108, 31, 0, .rwL, 0⟩
def DDS_START_HI_T : Fld := ⟨0x10C, 31, 0, .rwL, 0⟩
def DDS_HOP_AT_LO_AT_L : Fld := ⟨0x110, 31, 0, .rwL, 0⟩
def DDS_HOP_AT_HI_AT_H : Fld := ⟨0x114, 31, 0, .wo, 0⟩
def DDS_HOP_Q_STS_DEPTH : Fld := ⟨0x118, 4, 0, .ro, 0⟩
def DDS_HOP_Q_STS_OVF : Fld := ⟨0x118, 5, 5, .w1c, 0⟩
def DDS_SEG_ENTRY_ENTRY : Fld := ⟨0x11C, 16, 0, .rwL, 0⟩
def DDS_SEG_OFS_OFS : Fld := ⟨0x120, 15, 0, .rwL, 0⟩
def DDS_CH_INV_INV : Fld := ⟨0x124, 15, 0, .rwL, 0⟩
def DDS_LIST_IDX_ENTRY : Fld := ⟨0x130, 11, 0, .rwL, 0⟩
def DDS_LIST_IDX_WORD : Fld := ⟨0x130, 13, 12, .rwL, 0⟩
def DDS_LIST_IDX_LIVE : Fld := ⟨0x130, 16, 16, .rwL, 0⟩
def DDS_LIST_IDX_AUTO_INC : Fld := ⟨0x130, 17, 17, .rwL, 0⟩
def DDS_LIST_DATA : Fld := ⟨0x134, 31, 0, .rwL, 0⟩
def DDS_LIST_ERR_ENTRY : Fld := ⟨0x138, 11, 0, .ro, 0⟩
def DDS_LIST_ERR_REASON : Fld := ⟨0x138, 14, 12, .ro, 0⟩
def DDS_PEL_TX_DATA : Fld := ⟨0x140, 15, 0, .rwL, 0⟩
def DDS_PEL_TX_REG : Fld := ⟨0x140, 23, 16, .rwL, 0⟩
def DDS_PEL_TX_CH : Fld := ⟨0x140, 27, 24, .rwL, 0⟩
def DDS_PEL_TX_OP : Fld := ⟨0x140, 29, 28, .rwL, 1⟩
def DDS_PEL_TX_GO : Fld := ⟨0x140, 31, 31, .wo, 0⟩
def DDS_PEL_RX_DATA : Fld := ⟨0x144, 15, 0, .ro, 0⟩
def DDS_PEL_RX_DONE : Fld := ⟨0x144, 16, 16, .ro, 0⟩
def DDS_PEL_CFG_AREG : Fld := ⟨0x148, 7, 0, .rwS, 0⟩
def DDS_AMP_COAL_COUNT : Fld := ⟨0x14C, 15, 0, .rc, 0⟩
def CMP_CTL_DEN_GATE : Fld := ⟨0x100, 0, 0, .rwL, 0⟩
def CMP_POL_INV_H : Fld := ⟨0x104, 15, 0, .rwS, 0⟩
def CMP_POL_INV_L : Fld := ⟨0x104, 31, 16, .rwS, 0⟩
def CMP_CH_MASK_MASK : Fld := ⟨0x108, 15, 0, .rwL, 0⟩
def CMP_STS_ILLEGAL : Fld := ⟨0x10C, 0, 0, .w1c, 0⟩
def CMP_STS_ILL_CH : Fld := ⟨0x10C, 4, 1, .ro, 0⟩
def CMP_STS_FULL : Fld := ⟨0x10C, 5, 5, .w1c, 0⟩
def CMP_STS_LOST : Fld := ⟨0x10C, 6, 6, .w1c, 0⟩
def CMP_STS_WRAPPED : Fld := ⟨0x10C, 7, 7, .w1c, 0⟩
def CMP_STS_WMARK : Fld := ⟨0x10C, 8, 8, .w1c, 0⟩
def CMP_STS_WMARK_LIVE : Fld := ⟨0x10C, 9, 9, .ro, 0⟩
def CMP_STS_REC_POISON : Fld := ⟨0x10C, 10, 10, .w1c, 0⟩
def CMP_STS_LOG_DONE : Fld := ⟨0x10C, 11, 11, .ro, 1⟩
def CMP_CH_FAILED_FAILED : Fld := ⟨0x110, 15, 0, .ro, 0⟩
def CMP_CH_FCNT_COUNT : Fld := ⟨0x180, 31, 0, .ro, 0⟩
def CMP_FLOG_CTL_EN : Fld := ⟨0x200, 0, 0, .rwS, 0⟩
def CMP_FLOG_CTL_MODE : Fld := ⟨0x200, 1, 1, .rwS, 0⟩
def CMP_FLOG_CTL_LINGER : Fld := ⟨0x200, 9, 2, .rwL, 0x10⟩
def CMP_FLOG_BASE_LO_ADDR_L : Fld := ⟨0x204, 31, 5, .rwS, 0⟩
def CMP_FLOG_BASE_HI_ADDR_H : Fld := ⟨0x208, 2, 0, .rwS, 0⟩
def CMP_FLOG_SIZE_SIZE64 : Fld := ⟨0x20C, 17, 0, .rwS, 0⟩
def CMP_FLOG_WP_WP : Fld := ⟨0x210, 23, 0, .ro, 0⟩
def CMP_FLOG_RP_RP : Fld := ⟨0x214, 23, 0, .rwL, 0⟩
def CMP_FLOG_WMARK_LEVEL : Fld := ⟨0x218, 23, 0, .rwL, 0⟩
def CMP_FLOG_LOST_COUNT : Fld := ⟨0x21C, 31, 0, .rc, 0⟩
def CMP_FLOG_SEQ_SEQ : Fld := ⟨0x220, 31, 0, .ro, 0⟩
def CMP_EVT_CTL_EN : Fld := ⟨0x230, 0, 0, .rwS, 0⟩
def CMP_EVT_CTL_PIN : Fld := ⟨0x230, 3, 1, .rwS, 0⟩
def CMP_EVT_CTL_SRC : Fld := ⟨0x230, 5, 4, .rwS, 0⟩
def CMP_EVT_CTL_LEVEL : Fld := ⟨0x230, 6, 6, .rwS, 0⟩
def CMP_EVT_CTL_SITE : Fld := ⟨0x230, 13, 7, .rwS, 0⟩
def CMP_EVT_CTL_WIDTH : Fld := ⟨0x230, 21, 14, .rwS, 4⟩
def CMP_SITE_MASK_MASK : Fld := ⟨0x120, 31, 0, .rwL, 0⟩
def CMP_SITE_FAIL_FAIL : Fld := ⟨0x130, 31, 0, .ro, 0⟩
def CMP_SITE_SEL_SITE : Fld := ⟨0x140, 6, 0, .rwL, 0⟩
def CMP_SITE_CNT_COUNT : Fld := ⟨0x144, 23, 0, .ro, 0⟩
def CMP_SITE_CNT_FINAL : Fld := ⟨0x144, 24, 24, .ro, 0⟩
def CMP_SITE_FIRST_LO_UI : Fld := ⟨0x148, 31, 0, .ro, 0⟩
def CMP_SITE_FIRST_HI_UI : Fld := ⟨0x14C, 31, 0, .ro, 0⟩
def CMP_AUTO_MASKED_AUTO : Fld := ⟨0x150, 31, 0, .ro, 0⟩
def TDC_CTL_STREAM : Fld := ⟨0x100, 15, 0, .rwS, 0⟩
def TDC_CTL_MODE : Fld := ⟨0x100, 16, 16, .rwS, 0⟩
def TDC_CTL_GATED : Fld := ⟨0x100, 17, 17, .rwS, 0⟩
def TDC_CTL_LINGER : Fld := ⟨0x100, 25, 18, .rwL, 0x10⟩
def TDC_CTL_FLUSH : Fld := ⟨0x100, 31, 31, .wo, 0⟩
def TDC_EDGE0_SEL : Fld := ⟨0x104, 31, 0, .rwS, 0xFFFFFFFF⟩
def TDC_EDGE1_SEL : Fld := ⟨0x108, 31, 0, .rwS, 0xFFFFFFFF⟩
def TDC_Q_STS_WMARK : Fld := ⟨0x10C, 15, 0, .w1c, 0⟩
def TDC_Q_STS_WMARK_LIVE : Fld := ⟨0x10C, 31, 16, .ro, 0⟩
def TDC_LOSS_STS_LOST : Fld := ⟨0x110, 15, 0, .w1c, 0⟩
def TDC_LOSS_STS_POISON : Fld := ⟨0x110, 31, 16, .w1c, 0⟩
def TDC_RING_BASE_LO_ADDR_L : Fld := ⟨0x114, 31, 6, .rwS, 0⟩
def TDC_RING_BASE_HI_ADDR_H : Fld := ⟨0x118, 2, 0, .rwS, 0⟩
def TDC_RING_SIZE_SIZE16 : Fld := ⟨0x11C, 19, 0, .rwS, 0⟩
def TDC_RING_WMARK_LEVEL : Fld := ⟨0x120, 23, 0, .rwL, 0⟩
def TDC_LOST_CNT_COUNT : Fld := ⟨0x124, 31, 0, .rc, 0⟩
def TDC_MISS_CNT_COUNT : Fld := ⟨0x128, 31, 0, .rc, 0⟩
def TDC_RING_WP_WP : Fld := ⟨0x200, 23, 0, .ro, 0⟩
def TDC_RING_RP_RP : Fld := ⟨0x204, 23, 0, .rwL, 0⟩
def TDC_IU_CTL_ARM : Fld := ⟨0x400, 0, 0, .wo, 0⟩
def TDC_IU_CTL_DISARM : Fld := ⟨0x400, 1, 1, .wo, 0⟩
def TDC_IU_CTL_MODE : Fld := ⟨0x400, 3, 2, .rwL, 0⟩
def TDC_IU_CTL_COUNT : Fld := ⟨0x400, 19, 4, .rwL, 1⟩
def TDC_IU_CTL_AVG_LOG : Fld := ⟨0x400, 23, 20, .rwL, 0⟩
def TDC_IU_CTL_GATED : Fld := ⟨0x400, 24, 24, .rwL, 0⟩
def TDC_IU_SRC_START_CH : Fld := ⟨0x404, 7, 0, .rwL, 0⟩
def TDC_IU_SRC_START_EDGE : Fld := ⟨0x404, 9, 8, .rwL, 0⟩
def TDC_IU_SRC_STOP_CH : Fld := ⟨0x404, 17, 10, .rwL, 0⟩
def TDC_IU_SRC_STOP_EDGE : Fld := ⟨0x404, 19, 18, .rwL, 0⟩
def TDC_IU_TMO_TMO : Fld := ⟨0x408, 23, 0, .rwL, 0x10⟩
def TDC_IU_STS_STATE : Fld := ⟨0x40C, 2, 0, .ro, 0⟩
def TDC_IU_STS_ARM_ERR : Fld := ⟨0x40C, 3, 3, .w1c, 0⟩
def TDC_IU_STS_OVF : Fld := ⟨0x40C, 4, 4, .w1c, 0⟩
def TDC_IU_STS_DEPTH : Fld := ⟨0x40C, 9, 5, .ro, 0⟩
def TDC_IU_RES_WORD : Fld := ⟨0x410, 31, 0, .ro, 0⟩
def TRG_CTL_ARM : Fld := ⟨0x100, 0, 0, .wo, 0⟩
def TRG_CTL_DISARM : Fld := ⟨0x100, 1, 1, .wo, 0⟩
def TRG_CTL_FORCE : Fld := ⟨0x100, 2, 2, .wo, 0⟩
def TRG_CTL_ACQ_MODE : Fld := ⟨0x100, 5, 3, .rwL, 0⟩
def TRG_CTL_EYE_SEL : Fld := ⟨0x100, 9, 6, .rwL, 0⟩
def TRG_CTL_REMOTE : Fld := ⟨0x100, 10, 10, .rwL, 0⟩
def TRG_CTL_MARK_LEVEL : Fld := ⟨0x100, 11, 11, .rwL, 0⟩
def TRG_STS_STATE : Fld := ⟨0x104, 1, 0, .ro, 0⟩
def TRG_STS_LEVEL : Fld := ⟨0x104, 4, 2, .ro, 0⟩
def TRG_STS_TRIGGERED : Fld := ⟨0x104, 5, 5, .ro, 0⟩
def TRG_STS_TRIG_TRUNC : Fld := ⟨0x104, 6, 6, .w1c, 0⟩
def TRG_STS_ARM_ERR : Fld := ⟨0x104, 7, 7, .w1c, 0⟩
def TRG_STS_ACQ_LOST : Fld := ⟨0x104, 8, 8, .w1c, 0⟩
def TRG_STS_MARK_LOST : Fld := ⟨0x104, 9, 9, .w1c, 0⟩
def TRG_STS_MARK_WRAP : Fld := ⟨0x104, 10, 10, .w1c, 0⟩
def TRG_STS_ACQ_POISON : Fld := ⟨0x104, 11, 11, .w1c, 0⟩
def TRG_STS_END : Fld := ⟨0x104, 15, 12, .ro, 0⟩
def TRG_HIT_HIT : Fld := ⟨0x108, 31, 0, .w1c, 0⟩
def TRG_POST_COUNT_COUNT : Fld := ⟨0x10C, 31, 0, .rwL, 0x400⟩
def TRG_POST_KEPT_KEPT : Fld := ⟨0x110, 31, 0, .ro, 0⟩
def TRG_DECIM_AUTO : Fld := ⟨0x114, 0, 0, .rwL, 1⟩
def TRG_DECIM_MIN_LOG : Fld := ⟨0x114, 4, 1, .rwL, 0⟩
def TRG_DECIM_MAX_LOG : Fld := ⟨0x114, 8, 5, .rwL, 0xF⟩
def TRG_DECIM_CUR_LOG : Fld := ⟨0x114, 12, 9, .ro, 0⟩
def TRG_DECIM_UP_LVL : Fld := ⟨0x114, 21, 13, .rwL, 0x180⟩
def TRG_DECIM_DN_LVL : Fld := ⟨0x114, 30, 22, .rwL, 0x40⟩
def TRG_RAW_PHASE_PHASE : Fld := ⟨0x118, 9, 0, .rwL, 0x200⟩
def TRG_AVG_AVG_LOG : Fld := ⟨0x11C, 3, 0, .rwL, 0⟩
def TRG_CH_SEL_LO_SEL : Fld := ⟨0x120, 31, 0, .rwL, 0⟩
def TRG_CH_SEL_HI_SEL : Fld := ⟨0x124, 31, 0, .rwL, 0⟩
def TRG_EDGE_SEL_SEL : Fld := ⟨0x128, 3, 0, .rwL, 0xF⟩
def TRG_ACQ_BASE_LO_ADDR_L : Fld := ⟨0x130, 31, 12, .rwS, 0⟩
def TRG_ACQ_BASE_HI_ADDR_H : Fld := ⟨0x134, 2, 0, .rwS, 0⟩
def TRG_ACQ_SIZE_SIZE4K : Fld := ⟨0x138, 23, 0, .rwS, 0⟩
def TRG_MARK_BASE_LO_ADDR_L : Fld := ⟨0x13C, 31, 12, .rwS, 0⟩
def TRG_MARK_BASE_HI_ADDR_H : Fld := ⟨0x140, 2, 0, .rwS, 0⟩
def TRG_MARK_SIZE_SIZE256 : Fld := ⟨0x144, 15, 0, .rwS, 0⟩
def TRG_MARK_WP_WP : Fld := ⟨0x148, 23, 0, .ro, 0⟩
def TRG_ACQ_WIDX_W : Fld := ⟨0x150, 31, 0, .ro, 0⟩
def TRG_TRIG_IDX_IDX : Fld := ⟨0x154, 31, 0, .ro, 0⟩
def TRG_TRIG_T_LO_UI : Fld := ⟨0x158, 31, 0, .ro, 0⟩
def TRG_TRIG_T_HI_UI : Fld := ⟨0x15C, 31, 0, .ro, 0⟩
def TRG_TIME_LO_TIME : Fld := ⟨0x160, 31, 0, .rwL, 0⟩
def TRG_TIME_HI_TIME : Fld := ⟨0x164, 31, 0, .rwL, 0⟩
def TRG_CNT_LIMIT : Fld := ⟨0x170, 15, 0, .rwL, 1⟩
def TRG_CNT_VALUE : Fld := ⟨0x170, 31, 16, .ro, 0⟩
def TRG_EVT_OUT_PIN : Fld := ⟨0x180, 2, 0, .rwL, 0⟩
def TRG_EVT_OUT_WIDTH : Fld := ⟨0x180, 10, 3, .rwL, 4⟩
def TRG_XDEV_CODE_CODE : Fld := ⟨0x184, 7, 0, .rwL, 1⟩
def TRG_TERM_CFG_TYPE : Fld := ⟨0x200, 3, 0, .rwL, 0⟩
def TRG_TERM_CFG_INV : Fld := ⟨0x200, 4, 4, .rwL, 0⟩
def TRG_TERM_CFG_NEXT : Fld := ⟨0x200, 7, 5, .rwL, 0⟩
def TRG_TERM_CFG_GO : Fld := ⟨0x200, 8, 8, .rwL, 0⟩
def TRG_TERM_CFG_TRIGGER : Fld := ⟨0x200, 9, 9, .rwL, 0⟩
def TRG_TERM_CFG_SEQFLAG : Fld := ⟨0x200, 10, 10, .rwL, 0⟩
def TRG_TERM_CFG_EVT : Fld := ⟨0x200, 11, 11, .rwL, 0⟩
def TRG_TERM_CFG_XQUAD : Fld := ⟨0x200, 12, 12, .rwL, 0⟩
def TRG_TERM_CFG_XDEV : Fld := ⟨0x200, 13, 13, .rwL, 0⟩
def TRG_TERM_CFG_CSEL : Fld := ⟨0x200, 15, 14, .rwL, 0⟩
def TRG_TERM_CFG_CINC : Fld := ⟨0x200, 16, 16, .rwL, 0⟩
def TRG_TERM_CFG_CCLR : Fld := ⟨0x200, 17, 17, .rwL, 0⟩
def TRG_TERM_CFG_STOP : Fld := ⟨0x200, 18, 18, .rwL, 0⟩
def TRG_TERM_ARG_ARG : Fld := ⟨0x204, 31, 0, .rwL, 0⟩
def TRG_PM_MSK_LO_MSK : Fld := ⟨0x300, 31, 0, .rwL, 0⟩
def TRG_PM_MSK_HI_MSK : Fld := ⟨0x304, 31, 0, .rwL, 0⟩
def TRG_PM_VAL_VAL : Fld := ⟨0x308, 31, 0, .rwL, 0⟩
def ANE_CTL_HOLD : Fld := ⟨0x100, 0, 0, .rwL, 1⟩
def ANE_CTL_ABORT : Fld := ⟨0x100, 1, 1, .wo, 0⟩
def ANE_CTL_BITS : Fld := ⟨0x100, 6, 2, .rwL, 0xD⟩
def ANE_STS_STATE : Fld := ⟨0x104, 2, 0, .ro, 4⟩
def ANE_STS_QDEPTH : Fld := ⟨0x104, 6, 3, .ro, 0⟩
def ANE_STS_JOBQ_OVF : Fld := ⟨0x104, 7, 7, .w1c, 0⟩
def ANE_STS_TAG : Fld := ⟨0x104, 31, 16, .ro, 0⟩
def ANE_PC_PC : Fld := ⟨0x108, 13, 0, .ro, 0⟩
def ANE_PC_DEPTH : Fld := ⟨0x108, 16, 14, .ro, 0⟩
def ANE_JOB_STS_CODE : Fld := ⟨0x10C, 3, 0, .ro, 0⟩
def ANE_JOB_STS_OVF : Fld := ⟨0x10C, 4, 4, .ro, 0⟩
def ANE_JOB_STS_POISON : Fld := ⟨0x10C, 5, 5, .ro, 0⟩
def ANE_JOB_STS_DONE : Fld := ⟨0x10C, 6, 6, .w1c, 0⟩
def ANE_JOB_CYC_CYC : Fld := ⟨0x110, 23, 0, .ro, 0⟩
def ANE_JOB_CYC_STALL : Fld := ⟨0x110, 31, 24, .ro, 0⟩
def ANE_BEXP_BSH : Fld := ⟨0x114, 5, 0, .ro, 0⟩
def ANE_BEXP_SUM : Fld := ⟨0x114, 31, 16, .ro, 0⟩
def ANE_UC_STS_VENDOR_VALID : Fld := ⟨0x118, 0, 0, .ro, 0⟩
def ANE_UC_STS_VENDOR_WR : Fld := ⟨0x118, 1, 1, .w1c, 0⟩
def ANE_UC_STS_HELD_WR : Fld := ⟨0x118, 2, 2, .w1c, 0⟩
def ANE_UC_STS_CORR : Fld := ⟨0x118, 31, 16, .rc, 0⟩
def ANE_SPAD_ECC_CORR : Fld := ⟨0x11C, 15, 0, .rc, 0⟩
def ANE_SPAD_ECC_UNCORR : Fld := ⟨0x11C, 31, 16, .rc, 0⟩
def ANE_SPAD_CONFLICT_COUNT : Fld := ⟨0x120, 31, 0, .rc, 0⟩
def ANE_MARCH_CTL_GO : Fld := ⟨0x140, 0, 0, .wo, 0⟩
def ANE_MARCH_CTL_ALG : Fld := ⟨0x140, 2, 1, .rwL, 0⟩
def ANE_MARCH_CTL_TGT : Fld := ⟨0x140, 3, 3, .rwL, 0⟩
def ANE_MARCH_CTL_BG : Fld := ⟨0x140, 7, 4, .rwL, 0xF⟩
def ANE_MARCH_STS_BUSY : Fld := ⟨0x144, 0, 0, .ro, 0⟩
def ANE_MARCH_STS_PASS : Fld := ⟨0x144, 1, 1, .ro, 0⟩
def ANE_MARCH_STS_MARCH_ERR : Fld := ⟨0x144, 2, 2, .w1c, 0⟩
def ANE_MARCH_STS_UC_BAD : Fld := ⟨0x144, 3, 3, .ro, 0⟩
def ANE_MARCH_BAD_BANKS : Fld := ⟨0x148, 31, 0, .ro, 0⟩
def ANE_MARCH_ADDR_ADDR : Fld := ⟨0x14C, 19, 0, .ro, 0⟩
def ANE_MARCH_XOR_XOR : Fld := ⟨0x150, 31, 0, .ro, 0⟩
def ANE_JOBQ_WORD : Fld := ⟨0x200, 31, 0, .wo, 0⟩
def SCH_MODE_DISPATCH : Fld := ⟨0x100, 0, 0, .rwL, 1⟩
def SCH_MODE_RETRY : Fld := ⟨0x100, 3, 1, .rwL, 2⟩
def SCH_MODE_POST_RES : Fld := ⟨0x100, 8, 4, .rwS, 4⟩
def SCH_MODE_AFF_WAIT : Fld := ⟨0x100, 16, 9, .rwL, 0x40⟩
def SCH_STS_INFLIGHT : Fld := ⟨0x104, 10, 0, .ro, 0⟩
def SCH_STS_SUBMIT_OVF : Fld := ⟨0x104, 11, 11, .w1c, 0⟩
def SCH_STS_CTR_UFL : Fld := ⟨0x104, 12, 12, .w1c, 0⟩
def SCH_STS_NO_CORE : Fld := ⟨0x104, 13, 13, .ro, 0⟩
def SCH_STS_DESC_ERR : Fld := ⟨0x104, 14, 14, .w1c, 0⟩
def SCH_CREDIT_FREE : Fld := ⟨0x108, 10, 0, .ro, 0x400⟩
def SCH_RERUN_CNT_COUNT : Fld := ⟨0x10C, 31, 0, .rc, 0⟩
def SCH_CTR_IDX_IDX : Fld := ⟨0x110, 11, 0, .rwL, 0⟩
def SCH_CTR_VAL_VALUE : Fld := ⟨0x114, 15, 0, .rwL, 0⟩
def SCH_CTR_DEC_IDX : Fld := ⟨0x118, 11, 0, .wo, 0⟩
def SCH_TRACE_CTL_EN : Fld := ⟨0x120, 0, 0, .rwS, 0⟩
def SCH_TRACE_CTL_MASK : Fld := ⟨0x120, 15, 1, .rwL, 0x7FFF⟩
def SCH_TRACE_BASE_LO_ADDR : Fld := ⟨0x124, 31, 6, .rwS, 0⟩
def SCH_TRACE_BASE_HI_ADDR : Fld := ⟨0x128, 2, 0, .rwS, 0⟩
def SCH_TRACE_SIZE_SIZE4K : Fld := ⟨0x12C, 19, 0, .rwS, 0⟩
def SCH_TRACE_WP_WP : Fld := ⟨0x130, 27, 0, .ro, 0⟩
def SCH_EVT_CTL_DIR : Fld := ⟨0x140, 0, 0, .rwS, 0⟩
def SCH_EVT_CTL_EDGE : Fld := ⟨0x140, 1, 1, .rwS, 0⟩
def SCH_EVT_CTL_CTR_EN : Fld := ⟨0x140, 2, 2, .rwL, 0⟩
def SCH_EVT_CTL_CTR : Fld := ⟨0x140, 14, 3, .rwL, 0⟩
def SCH_EVT_CTL_BIN : Fld := ⟨0x140, 15, 15, .rwS, 0⟩
def SCH_EVT_CTL_BINBIT : Fld := ⟨0x140, 18, 16, .rwS, 0⟩
def SCH_EVT_CTL_WIDTH : Fld := ⟨0x140, 26, 19, .rwS, 4⟩
def SCH_FLOW_CTL_GATE : Fld := ⟨0x400, 0, 0, .rwL, 1⟩
def SCH_SUBMIT_WORD : Fld := ⟨0x800, 31, 0, .wo, 0⟩
def LST_CTL_WDOG : Fld := ⟨0x100, 15, 0, .rwL, 0x64⟩
def LST_STS_STATE : Fld := ⟨0x104, 1, 0, .ro, 2⟩
def LST_STS_SLOT_FULL : Fld := ⟨0x104, 2, 2, .ro, 0⟩
def LST_STS_FLOW : Fld := ⟨0x104, 10, 3, .ro, 0⟩
def LST_STS_SITE : Fld := ⟨0x104, 17, 11, .ro, 0⟩
def LST_STS_TYPE : Fld := ⟨0x104, 21, 18, .ro, 0⟩
def LST_TAG_TAG : Fld := ⟨0x108, 31, 0, .ro, 0⟩
def LST_CNT_DONE_COUNT : Fld := ⟨0x10C, 31, 0, .rc, 0⟩
def LST_CNT_BUSY_COUNT : Fld := ⟨0x110, 31, 0, .rc, 0⟩
def LST_CNT_FAULT_FAULTS : Fld := ⟨0x114, 15, 0, .rc, 0⟩
def LST_CNT_FAULT_RERUNS : Fld := ⟨0x114, 31, 16, .rc, 0⟩
def MEM_STS_SR_STATE : Fld := ⟨0x104, 1, 0, .ro, 0⟩
def MEM_STS_ALIAS : Fld := ⟨0x104, 2, 2, .w1c, 0⟩
def MEM_STS_NBR_ERR : Fld := ⟨0x104, 3, 3, .w1c, 0⟩
def MEM_DLY_IDX_PCH : Fld := ⟨0x108, 4, 0, .rwL, 0⟩
def MEM_DLY_IDX_LANE : Fld := ⟨0x108, 7, 5, .rwL, 0⟩
def MEM_DLY_WDLY : Fld := ⟨0x10C, 7, 0, .rwS, 0⟩
def MEM_DLY_RDLY : Fld := ⟨0x10C, 15, 8, .rwS, 0⟩
def MEM_DLY_RLAT : Fld := ⟨0x10C, 19, 16, .rwS, 0⟩
def MEM_REF_CTL_REFI : Fld := ⟨0x110, 15, 0, .rwL, 0x1860⟩
def MEM_REF_CTL_SR_IDLE : Fld := ⟨0x110, 30, 16, .rwL, 0x100⟩
def MEM_REF_CTL_SR_EN : Fld := ⟨0x110, 31, 31, .rwL, 1⟩
def MEM_REF_STS_DEBT_MAX : Fld := ⟨0x114, 3, 0, .rc, 0⟩
def MEM_REF_STS_FORCED : Fld := ⟨0x114, 31, 16, .rc, 0⟩
def MEM_NBR_PROB_LOG2 : Fld := ⟨0x118, 4, 0, .rwL, 0xB⟩
def MEM_NBR_CNT_COUNT : Fld := ⟨0x11C, 31, 0, .rc, 0⟩
def MEM_SCR_MASK : Fld := ⟨0x120, 14, 0, .rwL, 0⟩
def MEM_ECC_CORR : Fld := ⟨0x160, 15, 0, .rc, 0⟩
def MEM_ECC_UNCORR : Fld := ⟨0x160, 31, 16, .rc, 0⟩
def MEM_ECC_ADDR_LO_ADDR : Fld := ⟨0x164, 31, 5, .ro, 0⟩
def MEM_ECC_ADDR_HI_ADDR : Fld := ⟨0x168, 2, 0, .ro, 0⟩
def MEM_REPAIR_EN : Fld := ⟨0x170, 0, 0, .rwL, 0⟩
def MEM_REPAIR_THR : Fld := ⟨0x170, 7, 4, .rwL, 4⟩
def MEM_REPAIR_CAND : Fld := ⟨0x170, 12, 8, .ro, 0⟩
def MEM_REPAIR_FULL : Fld := ⟨0x170, 13, 13, .w1c, 0⟩
def MEM_REPAIR_LOG_ROW : Fld := ⟨0x180, 14, 0, .ro, 0⟩
def MEM_REPAIR_LOG_PCH : Fld := ⟨0x180, 19, 15, .ro, 0⟩
def MEM_REPAIR_LOG_BANK : Fld := ⟨0x180, 23, 20, .ro, 0⟩
def MEM_REPAIR_LOG_DONE : Fld := ⟨0x180, 24, 24, .ro, 0⟩
def MEM_REPAIR_LOG_VALID : Fld := ⟨0x180, 25, 25, .ro, 0⟩
def MEM_QOS_MISS_PORT : Fld := ⟨0x1C0, 5, 0, .ro, 0⟩
def MEM_QOS_MISS_COUNT : Fld := ⟨0x1C0, 31, 16, .rc, 0⟩
def MEM_TEMP_TEMP : Fld := ⟨0x1C4, 10, 0, .ro, 0⟩
def MEM_QOS_TARGET : Fld := ⟨0x200, 11, 0, .rwL, 0⟩
def MEM_MIRROR_BASE : Fld := ⟨0x1D0, 6, 0, .rwS, 0⟩
def MEM_MIRROR_SIZE : Fld := ⟨0x1D0, 13, 8, .rwS, 0⟩
def XBR_CTL_PRE_RANK : Fld := ⟨0x100, 2, 0, .rwL, 2⟩
def XBR_CTL_PRE_MAX : Fld := ⟨0x100, 5, 3, .rwL, 4⟩
def XBR_CTL_BG_OCC : Fld := ⟨0x100, 14, 6, .rwL, 0x100⟩
def XBR_STS_SLOT_ERR : Fld := ⟨0x104, 0, 0, .w1c, 0⟩
def XBR_STS_SHADOW_BUSY : Fld := ⟨0x104, 1, 1, .ro, 0⟩
def XBR_SLOT_CTL_LIVE : Fld := ⟨0x108, 0, 0, .rwL, 0⟩
def XBR_SLOT_ERR_SLOT : Fld := ⟨0x10C, 9, 0, .ro, 0⟩
def XBR_SLOT_ERR_REASON : Fld := ⟨0x10C, 11, 10, .ro, 0⟩
def XBR_PREEMPT_CNT_COUNT : Fld := ⟨0x110, 31, 0, .rc, 0⟩
def XBR_WAIT_LIMIT_LIMIT : Fld := ⟨0x200, 15, 0, .rwL, 0x400⟩
def XBR_PORT_CFG_RANK : Fld := ⟨0x300, 2, 0, .rwL, 0⟩
def XBR_SLOT_A_ENTRIES : Fld := ⟨0x400, 31, 0, .rwL, 0⟩
def XBR_SLOT_B_ENTRIES : Fld := ⟨0x800, 31, 0, .rwL, 0⟩
def XBR_WAIT_MAX_MAX : Fld := ⟨0xC00, 15, 0, .rc, 0⟩
def PCI_ID_VENDOR : Fld := ⟨0x100, 15, 0, .ro, 0⟩
def PCI_ID_DEVICE : Fld := ⟨0x100, 31, 16, .ro, 0x256⟩
def PCI_LINK_SPEED : Fld := ⟨0x104, 2, 0, .ro, 0⟩
def PCI_LINK_WIDTH : Fld := ⟨0x104, 7, 3, .ro, 0⟩
def PCI_LINK_PSTATE : Fld := ⟨0x104, 9, 8, .ro, 0⟩
def PCI_STS_PARTIAL : Fld := ⟨0x108, 0, 0, .w1c, 0⟩
def PCI_STS_POISON_RX : Fld := ⟨0x108, 1, 1, .w1c, 0⟩
def PCI_STS_CPL_TMO : Fld := ⟨0x108, 2, 2, .w1c, 0⟩
def PCI_APT_BASE_BASE : Fld := ⟨0x10C, 6, 0, .rwL, 0⟩
def WLT_CTL_LANE_EN : Fld := ⟨0x100, 3, 0, .rwS, 0xF⟩
def WLT_CTL_COMPAT : Fld := ⟨0x100, 4, 4, .rwS, 0⟩
def WLT_CTL_FWD : Fld := ⟨0x100, 5, 5, .rwL, 0⟩
def WLT_CTL_SLEEP : Fld := ⟨0x100, 7, 6, .rwL, 0⟩
def WLT_CTL_SLEEP_IDLE : Fld := ⟨0x100, 15, 8, .rwL, 0x64⟩
def WLT_CTL_WAKE : Fld := ⟨0x100, 16, 16, .wo, 0⟩
def WLT_CTL_RETRAIN : Fld := ⟨0x100, 17, 17, .wo, 0⟩
def WLT_CTL_REPLAY_MAX : Fld := ⟨0x100, 20, 18, .rwL, 4⟩
def WLT_STS_STATE : Fld := ⟨0x104, 2, 0, .ro, 0⟩
def WLT_STS_LANES : Fld := ⟨0x104, 6, 3, .ro, 0⟩
def WLT_STS_FAILED : Fld := ⟨0x104, 10, 7, .ro, 0⟩
def WLT_STS_TX_HALF : Fld := ⟨0x104, 11, 11, .ro, 0⟩
def WLT_STS_RX_HALF : Fld := ⟨0x104, 12, 12, .ro, 0⟩
def WLT_STS_FAR_DEV : Fld := ⟨0x104, 21, 16, .ro, 0⟩
def WLT_STS_MSG_LOST : Fld := ⟨0x104, 22, 22, .w1c, 0⟩
def WLT_STS_WIN_ERR : Fld := ⟨0x104, 23, 23, .w1c, 0⟩
def WLT_STS_RATE : Fld := ⟨0x104, 24, 24, .w1c, 0⟩
def WLT_CNT_REPLAYS : Fld := ⟨0x108, 15, 0, .rc, 0⟩
def WLT_CNT_CRC_ERRS : Fld := ⟨0x108, 31, 16, .rc, 0⟩
def WLT_CAPW_BASE_LO_ADDR : Fld := ⟨0x110, 31, 12, .rwS, 0⟩
def WLT_CAPW_BASE_HI_ADDR : Fld := ⟨0x114, 2, 0, .rwS, 0⟩
def WLT_CAPW_SIZE_SIZE4K : Fld := ⟨0x118, 23, 0, .rwS, 0⟩
def WLT_CAPS_SRC_LO_ADDR : Fld := ⟨0x120, 31, 5, .rwL, 0⟩
def WLT_CAPS_SRC_HI_ADDR : Fld := ⟨0x124, 2, 0, .rwL, 0⟩
def WLT_CAPS_OFS_OFS : Fld := ⟨0x128, 29, 0, .rwL, 0⟩
def WLT_CAPS_CTL_LEN : Fld := ⟨0x12C, 19, 0, .rwL, 0⟩
def WLT_CAPS_CTL_GO : Fld := ⟨0x12C, 28, 28, .wo, 0⟩
def WLT_CAPS_CTL_BUSY : Fld := ⟨0x12C, 29, 29, .ro, 0⟩
def WLT_CAPS_CTL_DONE : Fld := ⟨0x12C, 30, 30, .w1c, 0⟩
def WLT_CAPS_CTL_ERR : Fld := ⟨0x12C, 31, 31, .w1c, 0⟩
def WLT_ESCAN_CTL_LANE : Fld := ⟨0x130, 1, 0, .rwL, 0⟩
def WLT_ESCAN_CTL_H : Fld := ⟨0x130, 8, 2, .rwL, 0⟩
def WLT_ESCAN_CTL_V : Fld := ⟨0x130, 14, 9, .rwL, 0⟩
def WLT_ESCAN_CTL_DWELL : Fld := ⟨0x130, 20, 15, .rwL, 0x14⟩
def WLT_ESCAN_CTL_GO : Fld := ⟨0x130, 21, 21, .wo, 0⟩
def WLT_ESCAN_CTL_BUSY : Fld := ⟨0x130, 22, 22, .ro, 0⟩
def WLT_ESCAN_CTL_ABORTED : Fld := ⟨0x130, 23, 23, .w1c, 0⟩
def WLT_ESCAN_ERR_ERRORS : Fld := ⟨0x134, 31, 0, .ro, 0⟩
def WLT_NODE_DEV : Fld := ⟨0x140, 5, 0, .rwS, 0⟩
def WLT_NODE_TTL : Fld := ⟨0x140, 11, 6, .rwL, 1⟩
def WLT_NODE_LACE_EXT : Fld := ⟨0x140, 12, 12, .rwL, 0⟩
def WLT_MSG_CODE : Fld := ⟨0x144, 7, 0, .rwL, 1⟩
def WLT_MSG_GO : Fld := ⟨0x144, 31, 31, .wo, 0⟩
def ETH_CTL_FEC : Fld := ⟨0x100, 0, 0, .rwS, 0⟩
def ETH_CTL_UDP4_ZERO : Fld := ⟨0x100, 1, 1, .rwL, 1⟩
def ETH_STS_LINK : Fld := ⟨0x104, 0, 0, .ro, 0⟩
def ETH_STS_BLOCK_LOCK : Fld := ⟨0x104, 1, 1, .ro, 0⟩
def ETH_STS_RX_DROP : Fld := ⟨0x104, 2, 2, .w1c, 0⟩
def ETH_STS_FEC_UNCORR : Fld := ⟨0x104, 3, 3, .w1c, 0⟩
def ETH_TS_LAT_TX_LAT : Fld := ⟨0x108, 15, 0, .rwL, 0x12B0⟩
def ETH_TS_LAT_RX_LAT : Fld := ⟨0x108, 31, 16, .rwL, 0x1BE8⟩
def ETH_TS_LAT_FEC_TX_LAT : Fld := ⟨0x10C, 15, 0, .rwL, 0x2938⟩
def ETH_TS_LAT_FEC_RX_LAT : Fld := ⟨0x10C, 31, 16, .rwL, 0xBDB0⟩
def ETH_TXR_BASE_LO_ADDR : Fld := ⟨0x110, 31, 5, .rwS, 0⟩
def ETH_TXR_BASE_HI_ADDR : Fld := ⟨0x114, 31, 0, .rwS, 0⟩
def ETH_TXR_SIZE_SIZE16 : Fld := ⟨0x118, 11, 0, .rwS, 0⟩
def ETH_TXR_HEAD_HEAD : Fld := ⟨0x11C, 15, 0, .ro, 0⟩
def ETH_TXR_TAIL_TAIL : Fld := ⟨0x120, 15, 0, .rwL, 0⟩
def ETH_RXR_BASE_LO_ADDR : Fld := ⟨0x130, 31, 5, .rwS, 0⟩
def ETH_RXR_BASE_HI_ADDR : Fld := ⟨0x134, 31, 0, .rwS, 0⟩
def ETH_RXR_SIZE_SIZE16 : Fld := ⟨0x138, 11, 0, .rwS, 0⟩
def ETH_RXR_HEAD_HEAD : Fld := ⟨0x13C, 15, 0, .ro, 0⟩
def ETH_RXR_TAIL_TAIL : Fld := ⟨0x140, 15, 0, .rwL, 0⟩
def ETH_CNT_FCS : Fld := ⟨0x150, 15, 0, .rc, 0⟩
def ETH_CNT_DROP : Fld := ⟨0x150, 31, 16, .rc, 0⟩
def PTP_STS_VALID : Fld := ⟨0x104, 0, 0, .ro, 0⟩
def PTP_STS_STEP_REFUSED : Fld := ⟨0x104, 1, 1, .w1c, 0⟩
def PTP_STS_SLEWING : Fld := ⟨0x104, 2, 2, .ro, 0⟩
def PTP_STS_PULSE_LATE : Fld := ⟨0x104, 3, 3, .w1c, 0⟩
def PTP_INCR_INCR : Fld := ⟨0x108, 31, 0, .rwL, 0xA0000000⟩
def PTP_TIME0_NS : Fld := ⟨0x110, 29, 0, .ro, 0⟩
def PTP_TIME1_SEC : Fld := ⟨0x114, 31, 0, .ro, 0⟩
def PTP_TIME2_SEC : Fld := ⟨0x118, 15, 0, .ro, 0⟩
def PTP_TIME_FR_FRAC : Fld := ⟨0x11C, 31, 0, .ro, 0⟩
def PTP_MAP_TL_LO_UI : Fld := ⟨0x120, 31, 0, .ro, 0⟩
def PTP_MAP_TL_HI_UI : Fld := ⟨0x124, 31, 0, .ro, 0⟩
def PTP_SET_NS_NS : Fld := ⟨0x130, 29, 0, .rwL, 0⟩
def PTP_SET_SEC_LO_SEC : Fld := ⟨0x134, 31, 0, .rwL, 0⟩
def PTP_SET_SEC_HI_SEC : Fld := ⟨0x138, 15, 0, .rwL, 0⟩
def PTP_STEP_LO_STEP : Fld := ⟨0x140, 31, 0, .rwL, 0⟩
def PTP_STEP_HI_STEP : Fld := ⟨0x144, 31, 0, .rwL, 0⟩
def PTP_ADJ_CTL_SET : Fld := ⟨0x148, 0, 0, .wo, 0⟩
def PTP_ADJ_CTL_STEP : Fld := ⟨0x148, 1, 1, .wo, 0⟩
def PTP_ADJ_CTL_INVALIDATE : Fld := ⟨0x148, 2, 2, .wo, 0⟩
def PTP_ADJ_CTL_THR : Fld := ⟨0x148, 22, 3, .rwL, 0x3E8⟩
def PTP_SLEW_RATE : Fld := ⟨0x14C, 9, 0, .rwL, 0x64⟩
def PTP_SLEW_REM_LO_REM : Fld := ⟨0x150, 31, 0, .ro, 0⟩
def PTP_SLEW_REM_HI_REM : Fld := ⟨0x154, 31, 0, .ro, 0⟩
def PTP_PG_CTL_GO : Fld := ⟨0x200, 0, 0, .wo, 0⟩
def PTP_PG_CTL_STOP : Fld := ⟨0x200, 1, 1, .wo, 0⟩
def PTP_PG_CTL_SRC : Fld := ⟨0x200, 2, 2, .rwL, 0⟩
def PTP_PG_CTL_PIN : Fld := ⟨0x200, 5, 3, .rwL, 0⟩
def PTP_PG_CTL_WIDTH : Fld := ⟨0x200, 21, 6, .rwL, 4⟩
def PTP_PG_CTL_RUN : Fld := ⟨0x200, 22, 22, .ro, 0⟩
def PTP_PG_START_START : Fld := ⟨0x204, 31, 0, .rwL, 0⟩
def PTP_PG_PERIOD_PERIOD : Fld := ⟨0x210, 31, 0, .rwL, 0x40⟩
def PTP_PG_COUNT_COUNT : Fld := ⟨0x214, 31, 0, .rwL, 0⟩
def FLT_STS_DEV_HEEL : Fld := ⟨0x100, 0, 0, .ro, 0⟩
def FLT_STS_PWR_FAIL : Fld := ⟨0x100, 1, 1, .ro, 0⟩
def FLT_STS_LEAVE_REFUSED : Fld := ⟨0x100, 2, 2, .w1c, 0⟩
def FLT_STS_CLR_REFUSED : Fld := ⟨0x100, 3, 3, .w1c, 0⟩
def FLT_STS_LOG_LOST : Fld := ⟨0x100, 4, 4, .w1c, 0⟩
def FLT_STS_FAULT_N : Fld := ⟨0x100, 5, 5, .ro, 0⟩
def FLT_STS_DEV_CAUSE : Fld := ⟨0x100, 13, 8, .ro, 0⟩
def FLT_STS_EYE_HEEL : Fld := ⟨0x100, 31, 16, .ro, 0⟩
def FLT_HEEL_CTL_LEAVE_DEV : Fld := ⟨0x104, 0, 0, .wo, 0⟩
def FLT_HEEL_CTL_LEAVE_EYE : Fld := ⟨0x104, 31, 16, .wo, 0⟩
def FLT_KILL_CTL_EYE : Fld := ⟨0x108, 15, 0, .rwL, 0⟩
def FLT_LOG_STS_DEPTH : Fld := ⟨0x10C, 9, 0, .ro, 0⟩
def FLT_LOG_STS_LOST : Fld := ⟨0x10C, 31, 16, .rc, 0⟩
def FLT_CLR_OFS_BIT : Fld := ⟨0x110, 4, 0, .ro, 0⟩
def FLT_CLR_OFS_PAGE : Fld := ⟨0x110, 24, 12, .ro, 0⟩
def FLT_LOG_WORD : Fld := ⟨0x140, 31, 0, .ro, 0⟩
def FLT_PEND_PEND : Fld := ⟨0x200, 31, 0, .ro, 0⟩
def THM_CTL_SCOPE : Fld := ⟨0x100, 0, 0, .rwL, 0⟩
def THM_CTL_HYST : Fld := ⟨0x100, 6, 1, .rwL, 0x28⟩
def THM_LIMITS_WARN : Fld := ⟨0x104, 10, 0, .rwL, 0x2F8⟩
def THM_LIMITS_STOP : Fld := ⟨0x104, 21, 11, .rwL, 0x348⟩
def THM_HBM_LIMITS_WARN : Fld := ⟨0x108, 10, 0, .rwL, 0x2D0⟩
def THM_HBM_LIMITS_STOP : Fld := ⟨0x108, 21, 11, .rwL, 0x320⟩
def THM_STS_FAST : Fld := ⟨0x10C, 23, 0, .ro, 0⟩
def THM_STS_TRIP : Fld := ⟨0x10C, 24, 24, .ro, 0⟩
def THM_STS_STOPPING : Fld := ⟨0x10C, 25, 25, .ro, 0⟩
def THM_STS_HOT : Fld := ⟨0x10C, 26, 26, .ro, 0⟩
def THM_BAD_BAD : Fld := ⟨0x110, 23, 0, .ro, 0⟩
def THM_TEMP_TEMP : Fld := ⟨0x140, 10, 0, .ro, 0⟩
def THM_TEMP_VALID : Fld := ⟨0x140, 11, 11, .ro, 0⟩
def THM_TEMP_MAX : Fld := ⟨0x140, 26, 16, .rc, 0⟩
def CAL_CTL_HOLD : Fld := ⟨0x100, 0, 0, .rwL, 0⟩
def CAL_SLEW_STEP : Fld := ⟨0x104, 6, 0, .rwL, 0x53⟩
def CAL_STS_USER_OK : Fld := ⟨0x108, 0, 0, .ro, 0⟩
def CAL_STS_COPY : Fld := ⟨0x108, 1, 1, .ro, 0⟩
def CAL_STS_SETTLED : Fld := ⟨0x108, 2, 2, .ro, 0⟩
def CAL_STS_COMMIT_ERR : Fld := ⟨0x108, 3, 3, .w1c, 0⟩
def CAL_STS_COPY_BUSY : Fld := ⟨0x108, 4, 4, .ro, 0⟩
def CAL_STS_SAVE_BUSY : Fld := ⟨0x108, 5, 5, .ro, 0⟩
def CAL_STS_SAVE_ERR : Fld := ⟨0x108, 6, 6, .w1c, 0⟩
def CAL_STS_LOAD_ERR : Fld := ⟨0x108, 7, 7, .w1c, 0⟩
def CAL_STS_RAM_UNCORR : Fld := ⟨0x108, 8, 8, .w1c, 0⟩
def CAL_ERR_REC : Fld := ⟨0x10C, 8, 0, .ro, 0⟩
def CAL_ERR_REASON : Fld := ⟨0x10C, 11, 9, .ro, 0⟩
def CAL_TEMP_STS_EXTRAP : Fld := ⟨0x110, 15, 0, .ro, 0⟩
def CAL_TEMP_STS_SENSOR_HOLD : Fld := ⟨0x110, 31, 16, .ro, 0⟩
def CAL_WIN_IDX_WORD : Fld := ⟨0x114, 15, 0, .rwL, 0⟩
def CAL_WIN_IDX_LIVE : Fld := ⟨0x114, 16, 16, .rwL, 0⟩
def CAL_WIN_IDX_AUTO_INC : Fld := ⟨0x114, 17, 17, .rwL, 0⟩
def CAL_WIN_DATA_DATA : Fld := ⟨0x118, 31, 0, .rwL, 0⟩
def CAL_FLASH_CTL_SAVE : Fld := ⟨0x11C, 0, 0, .wo, 0⟩
def CAL_FLASH_CTL_LOAD : Fld := ⟨0x11C, 1, 1, .wo, 0⟩
def CAL_SPR_ROUTE_CH : Fld := ⟨0x120, 7, 0, .rwL, 0⟩
def CAL_SPR_ROUTE_EN : Fld := ⟨0x120, 8, 8, .rwL, 0⟩
def CAL_LIN_CTL_CH : Fld := ⟨0x124, 7, 0, .rwL, 0⟩
def CAL_LIN_CTL_IN : Fld := ⟨0x124, 8, 8, .rwL, 0⟩
def CAL_LIN_CTL_RUN : Fld := ⟨0x124, 9, 9, .rwL, 0⟩
def CAL_LIN_CTL_CLR : Fld := ⟨0x124, 10, 10, .wo, 0⟩
def CAL_LIN_CNT_COUNT : Fld := ⟨0x200, 31, 0, .ro, 0⟩
def SEC_STS_COPY0_BAD : Fld := ⟨0x100, 1, 1, .ro, 0⟩
def SEC_STS_COPY1_BAD : Fld := ⟨0x100, 2, 2, .ro, 0⟩
def SEC_STS_RECOVERY : Fld := ⟨0x100, 3, 3, .ro, 0⟩
def SEC_STS_REASON : Fld := ⟨0x100, 6, 4, .ro, 0⟩
def SEC_STS_FLASH_BUSY : Fld := ⟨0x100, 7, 7, .ro, 0⟩
def SEC_STS_FLASH_ERR : Fld := ⟨0x100, 8, 8, .w1c, 0⟩
def SEC_STS_INTEG_BAD : Fld := ⟨0x100, 9, 9, .ro, 0⟩
def SEC_STS_SVN_MIN : Fld := ⟨0x100, 23, 16, .ro, 0⟩
def SEC_UCODE_VER_VERSION : Fld := ⟨0x104, 15, 0, .ro, 0⟩
def SEC_UCODE_VER_SVN : Fld := ⟨0x104, 23, 16, .ro, 0⟩
def SEC_UCODE_VER_ANE : Fld := ⟨0x104, 27, 24, .ro, 0⟩
def SEC_UCODE_VER_LST : Fld := ⟨0x104, 28, 28, .ro, 0⟩
def SEC_UCODE_VER_MC : Fld := ⟨0x104, 29, 29, .ro, 0⟩
def SEC_UCODE_VER_COPY : Fld := ⟨0x104, 30, 30, .ro, 0⟩
def SEC_KEY_HASH_HASH : Fld := ⟨0x110, 31, 0, .ro, 0⟩
def SEC_FLASH_ADDR_ADDR : Fld := ⟨0x140, 23, 2, .rwL, 0⟩
def SEC_FLASH_DATA_DATA : Fld := ⟨0x144, 31, 0, .rwL, 0⟩
def SEC_FLASH_CMD_OP : Fld := ⟨0x148, 1, 0, .wo, 0⟩
def EVQ_CTL_MODE : Fld := ⟨0x100, 0, 0, .rwS, 0⟩
def EVQ_STS_DEPTH : Fld := ⟨0x104, 11, 0, .ro, 0⟩
def EVQ_STS_PRESENT : Fld := ⟨0x104, 15, 12, .ro, 0⟩
def EVQ_STS_WMARK : Fld := ⟨0x104, 16, 16, .w1c, 0⟩
def EVQ_STS_WMARK_LIVE : Fld := ⟨0x104, 17, 17, .ro, 0⟩
def EVQ_STS_INFO_LOST : Fld := ⟨0x104, 18, 18, .w1c, 0⟩
def EVQ_STS_POISON : Fld := ⟨0x104, 19, 19, .w1c, 0⟩
def EVQ_WMARK_LEVEL : Fld := ⟨0x108, 11, 0, .rwL, 0x400⟩
def EVQ_LINGER_LINGER : Fld := ⟨0x10C, 7, 0, .rwL, 0x10⟩
def EVQ_RING_BASE_LO_ADDR : Fld := ⟨0x110, 31, 6, .rwS, 0⟩
def EVQ_RING_BASE_HI_ADDR : Fld := ⟨0x114, 31, 0, .rwS, 0⟩
def EVQ_RING_SIZE_SIZE64 : Fld := ⟨0x118, 15, 0, .rwS, 0⟩
def EVQ_RING_WP_WP : Fld := ⟨0x11C, 21, 0, .ro, 0⟩
def EVQ_RING_RP_RP : Fld := ⟨0x120, 21, 0, .rwL, 0⟩
def EVQ_LOST_COUNT : Fld := ⟨0x124, 31, 0, .rc, 0⟩
def EVQ_POP_WORD : Fld := ⟨0x140, 31, 0, .ro, 0⟩

end F

/-! ## Registers of each page -/

/-- The common page header (R440). -/
def regsHeader : List Reg :=
  [⟨0x000, 1, 0x1000, 1, 4, false,
    [F.PG_ID_TYPE, F.PG_ID_INSTANCE, F.PG_ID_REV]⟩,
   ⟨0x004, 1, 0x1000, 1, 4, false,
    [F.PG_CAP_NSRC, F.PG_CAP_SHADOW, F.PG_CAP_RESETTABLE, F.PG_CAP_EYE_SCOPE, F.PG_CAP_PART_ENABLE]⟩,
   ⟨0x008, 1, 0x1000, 1, 4, false,
    [F.PG_CTL_ENABLE, F.PG_CTL_BLOCK_RESET, F.PG_CTL_CFG_LOCK]⟩,
   ⟨0x00C, 1, 0x1000, 1, 4, false,
    [F.PG_STS_BUSY, F.PG_STS_CFG_ERR, F.PG_STS_COMMIT_PEND]⟩,
   ⟨0x010, 1, 0x1000, 1, 4, false,
    [F.PG_FLT_FLT]⟩,
   ⟨0x014, 1, 0x1000, 1, 4, false,
    [F.PG_FLT_MASK_MASK]⟩,
   ⟨0x018, 1, 0x1000, 1, 4, false,
    [F.PG_FLT_CLASS_SRC, F.PG_FLT_CLASS_CLASS, F.PG_FLT_CLASS_WR]⟩,
   ⟨0x01C, 1, 0x1000, 1, 4, false,
    [F.PG_FLT_RXN_SRC, F.PG_FLT_RXN_RXN, F.PG_FLT_RXN_FIXED, F.PG_FLT_RXN_WR]⟩,
   ⟨0x020, 1, 0x1000, 1, 4, false,
    [F.PG_COMMIT_COMMIT]⟩,
   ⟨0x024, 1, 0x1000, 1, 4, false,
    [F.PG_CFG_ERR_OFS_OFS]⟩]

/-- The registers of the GLB page (R451). -/
def regsGlb : List Reg :=
  [⟨0x100, 1, 0x1000, 1, 4, false,
    [F.GLB_ID_PART, F.GLB_ID_DIE_REV]⟩,
   ⟨0x104, 1, 0x1000, 1, 4, false,
    [F.GLB_STAGE_STAGE, F.GLB_STAGE_STEP_BUSY, F.GLB_STAGE_HOLD_AT]⟩,
   ⟨0x108, 1, 0x1000, 1, 4, false,
    [F.GLB_RST_CHIP, F.GLB_RST_KEEP_HBM, F.GLB_RST_KEY]⟩,
   ⟨0x10C, 1, 0x1000, 1, 4, false,
    [F.GLB_RST_CAUSE_POR, F.GLB_RST_CAUSE_PIN, F.GLB_RST_CAUSE_SW, F.GLB_RST_CAUSE_FAULT, F.GLB_RST_CAUSE_WDOG, F.GLB_RST_CAUSE_PERST]⟩,
   ⟨0x110, 1, 0x1000, 1, 4, false,
    [F.GLB_KILL_RELEASE, F.GLB_KILL_ASSERTED]⟩,
   ⟨0x114, 1, 0x1000, 1, 4, false,
    [F.GLB_BIST_EYE_FAIL]⟩,
   ⟨0x118, 1, 0x1000, 1, 4, false,
    [F.GLB_BIST_LST_FAIL]⟩,
   ⟨0x11C, 1, 0x1000, 1, 4, false,
    [F.GLB_BIST_MISC_ANE, F.GLB_BIST_MISC_SEG, F.GLB_BIST_MISC_EVQ, F.GLB_BIST_MISC_SCH, F.GLB_BIST_MISC_CALRAM, F.GLB_BIST_MISC_RLIST_FULL, F.GLB_BIST_MISC_HBM]⟩,
   ⟨0x400, 1, 0x1000, 4, 4, false,
    [F.GLB_SEG_CMT_REGIONS]⟩,
   ⟨0x410, 1, 0x1000, 1, 4, false,
    [F.GLB_SEG_CTL_LIVE]⟩,
   ⟨0x414, 1, 0x1000, 1, 4, false,
    [F.GLB_SEG_STS_INVALID, F.GLB_SEG_STS_SEG_ERR, F.GLB_SEG_STS_SEG_BUSY, F.GLB_SEG_STS_WR_DROP]⟩,
   ⟨0x418, 1, 0x1000, 1, 4, false,
    [F.GLB_SEG_ERR_ENTRY, F.GLB_SEG_ERR_REASON]⟩,
   ⟨0x41C, 1, 0x1000, 1, 4, false,
    [F.GLB_SEG_ECC_CORR, F.GLB_SEG_ECC_UNCORR]⟩]

/-- The registers of the TBS page (R451). -/
def regsTbs : List Reg :=
  [⟨0x100, 1, 0x1000, 1, 4, false,
    [F.TBS_REF_STS_REF_PRESENT, F.TBS_REF_STS_HOLDOVER, F.TBS_REF_STS_ALIGNED, F.TBS_REF_STS_QPLL_LOCK, F.TBS_REF_STS_CPLL_LOCK, F.TBS_REF_STS_HOLD_US]⟩,
   ⟨0x104, 1, 0x1000, 1, 4, false,
    [F.TBS_REF_CTL_FMON_SRC, F.TBS_REF_CTL_FMON_THR]⟩,
   ⟨0x108, 1, 0x1000, 1, 4, false,
    [F.TBS_TIMELINE_LO_UI_LO]⟩,
   ⟨0x10C, 1, 0x1000, 1, 4, false,
    [F.TBS_TIMELINE_HI_UI_HI]⟩,
   ⟨0x110, 1, 0x1000, 1, 4, false,
    [F.TBS_LACE_CTL_ALIGN_ARM, F.TBS_LACE_CTL_DISARM, F.TBS_LACE_CTL_OUT_MODE, F.TBS_LACE_CTL_SAMPLE_EDGE]⟩,
   ⟨0x114, 1, 0x1000, 1, 4, false,
    [F.TBS_LACE_TRIM_TRIM]⟩,
   ⟨0x118, 1, 0x1000, 1, 4, false,
    [F.TBS_LACE_STS_ALIGN_SEQ, F.TBS_LACE_STS_ALIGN_REFUSED, F.TBS_LACE_STS_TX_BUSY, F.TBS_LACE_STS_RSVD_TYPE, F.TBS_LACE_STS_TX_OVR, F.TBS_LACE_STS_REFUSE_WHY, F.TBS_LACE_STS_CRC_ERRS]⟩,
   ⟨0x11C, 1, 0x1000, 1, 4, false,
    [F.TBS_LACE_TX_TYPE, F.TBS_LACE_TX_GO]⟩,
   ⟨0x120, 1, 0x1000, 1, 4, false,
    [F.TBS_LACE_TX_PL_LO_PL_LO]⟩,
   ⟨0x124, 1, 0x1000, 1, 4, false,
    [F.TBS_LACE_TX_PL_HI_PL_HI]⟩,
   ⟨0x128, 1, 0x1000, 1, 4, false,
    [F.TBS_ALIGN_CHK_CHK]⟩,
   ⟨0x130, 1, 0x1000, 1, 4, false,
    [F.TBS_REFCAL_LO_FRAC, F.TBS_REFCAL_LO_UI_L]⟩,
   ⟨0x134, 1, 0x1000, 1, 4, false,
    [F.TBS_REFCAL_HI_UI_H]⟩,
   ⟨0x138, 1, 0x1000, 1, 4, false,
    [F.TBS_REFCAL_CTL_CAP_ARM, F.TBS_REFCAL_CTL_CAP_DONE]⟩,
   ⟨0x140, 1, 0x1000, 4, 32, false,
    [F.TBS_TRACK_CTL_EN, F.TBS_TRACK_CTL_SRC_CH, F.TBS_TRACK_CTL_BW, F.TBS_TRACK_CTL_REF_AUTO, F.TBS_TRACK_CTL_LOSS_ACT, F.TBS_TRACK_CTL_LOSS_WIN, F.TBS_TRACK_CTL_LOCK_THR]⟩,
   ⟨0x144, 1, 0x1000, 4, 32, false,
    [F.TBS_TRACK_PER_PER]⟩,
   ⟨0x148, 1, 0x1000, 4, 32, false,
    [F.TBS_TRACK_REF_REF]⟩,
   ⟨0x14C, 1, 0x1000, 4, 32, false,
    [F.TBS_TRACK_SLEW_SLEW]⟩,
   ⟨0x150, 1, 0x1000, 4, 32, false,
    [F.TBS_TRACK_STS_STATE, F.TBS_TRACK_STS_STEER_LIMIT, F.TBS_TRACK_STS_BW_CLAMP, F.TBS_TRACK_STS_FWD_LOST]⟩,
   ⟨0x154, 1, 0x1000, 4, 32, false,
    [F.TBS_QOFS_OFS]⟩]

/-- The registers of the CHN page (R451). -/
def regsChn : List Reg :=
  [⟨0x100, 1, 0x1000, 1, 4, false,
    [F.CHN_CTL_MODE, F.CHN_CTL_SROLE, F.CHN_CTL_PARK, F.CHN_CTL_IDLE, F.CHN_CTL_SITE]⟩,
   ⟨0x104, 1, 0x1000, 1, 4, false,
    [F.CHN_STS_TAKEN, F.CHN_STS_PARKED, F.CHN_STS_SHADOW_BUSY, F.CHN_STS_CLASH, F.CHN_STS_WFT_ERR, F.CHN_STS_ABSORBED]⟩,
   ⟨0x108, 1, 0x1000, 1, 4, false,
    [F.CHN_CLASH_CNT_COUNT]⟩,
   ⟨0x110, 1, 0x1000, 1, 4, false,
    [F.CHN_WFT_IDX_WORD, F.CHN_WFT_IDX_WAVE, F.CHN_WFT_IDX_TSET, F.CHN_WFT_IDX_LIVE, F.CHN_WFT_IDX_AUTO_INC]⟩,
   ⟨0x114, 1, 0x1000, 1, 4, false,
    [F.CHN_WFT_DATA]⟩,
   ⟨0x118, 1, 0x1000, 1, 4, false,
    [F.CHN_WFT_ERR_TSET, F.CHN_WFT_ERR_WAVE, F.CHN_WFT_ERR_WORD, F.CHN_WFT_ERR_REASON]⟩,
   ⟨0x120, 1, 0x1000, 1, 4, false,
    [F.CHN_SER_DLY_DLY]⟩,
   ⟨0x124, 1, 0x1000, 1, 4, false,
    [F.CHN_SER_STB_STB]⟩,
   ⟨0x130, 1, 0x1000, 1, 4, false,
    [F.CHN_CAL_SEL_CLASS]⟩,
   ⟨0x134, 1, 0x1000, 1, 4, false,
    [F.CHN_CAL_APPLIED_CORR]⟩]

/-- The registers of the SPR page (R451). -/
def regsSpr : List Reg :=
  [⟨0x100, 1, 0x1000, 1, 4, false,
    [F.SPR_CTL_THR, F.SPR_CTL_REF_THR]⟩,
   ⟨0x104, 1, 0x1000, 1, 4, false,
    [F.SPR_STS_STATE, F.SPR_STS_POS, F.SPR_STS_FOR_CH, F.SPR_STS_NPOS, F.SPR_STS_TAKEOVER, F.SPR_STS_SPARE_BAD]⟩,
   ⟨0x108, 1, 0x1000, 1, 4, false,
    [F.SPR_DWELL_DWELL]⟩,
   ⟨0x10C, 1, 0x1000, 1, 4, false,
    [F.SPR_DEV_LIVE_DEV, F.SPR_DEV_SPARE_DEV]⟩,
   ⟨0x110, 1, 0x1000, 1, 4, false,
    [F.SPR_CLEAN_SEL_CH]⟩,
   ⟨0x114, 1, 0x1000, 1, 4, false,
    [F.SPR_CLEAN_LO_CLEAN]⟩,
   ⟨0x118, 1, 0x1000, 1, 4, false,
    [F.SPR_CLEAN_HI_CLEAN]⟩,
   ⟨0x120, 1, 0x1000, 1, 4, false,
    [F.SPR_WIN_START_LO_START]⟩,
   ⟨0x124, 1, 0x1000, 1, 4, false,
    [F.SPR_WIN_START_HI_START]⟩,
   ⟨0x128, 1, 0x1000, 1, 4, false,
    [F.SPR_WIN_END_LO_END]⟩,
   ⟨0x12C, 1, 0x1000, 1, 4, false,
    [F.SPR_WIN_END_HI_END]⟩,
   ⟨0x130, 1, 0x1000, 1, 4, false,
    [F.SPR_DWELL_T_LO_T]⟩,
   ⟨0x134, 1, 0x1000, 1, 4, false,
    [F.SPR_DWELL_T_HI_T]⟩]

/-- The registers of the EYE page (R451). -/
def regsEye : List Reg :=
  [⟨0x100, 1, 0x1000, 1, 4, false,
    [F.EYE_SEQ_CTL_GO, F.EYE_SEQ_CTL_STOP, F.EYE_SEQ_CTL_ABORT, F.EYE_SEQ_CTL_START_MODE, F.EYE_SEQ_CTL_START_TAG, F.EYE_SEQ_CTL_AUTO_MASK, F.EYE_SEQ_CTL_MATCH_MODE, F.EYE_SEQ_CTL_MATCH_FAIL, F.EYE_SEQ_CTL_SYNC_LATE_ACT, F.EYE_SEQ_CTL_SYNC_TAG, F.EYE_SEQ_CTL_SYNC_LACE_EN]⟩,
   ⟨0x104, 1, 0x1000, 1, 4, false,
    [F.EYE_SEQ_STS_STATE, F.EYE_SEQ_STS_FOLLOWER, F.EYE_SEQ_STS_START_REFUSED, F.EYE_SEQ_STS_SYNC_LATE, F.EYE_SEQ_STS_MATCH_TMO, F.EYE_SEQ_STS_SEG_EMPTY, F.EYE_SEQ_STS_ABORTED, F.EYE_SEQ_STS_AT_ARMED, F.EYE_SEQ_STS_STOP_PEND, F.EYE_SEQ_STS_REASON]⟩,
   ⟨0x108, 1, 0x1000, 1, 4, false,
    [F.EYE_SEQ_PTR_ENTRY, F.EYE_SEQ_PTR_PASSES_LEFT]⟩,
   ⟨0x10C, 1, 0x1000, 1, 4, false,
    [F.EYE_SEQ_VEC_VEC]⟩,
   ⟨0x110, 1, 0x1000, 1, 4, false,
    [F.EYE_SEQ_FIRST_ENTRY]⟩,
   ⟨0x114, 1, 0x1000, 1, 4, false,
    [F.EYE_SEQ_START_LO_T]⟩,
   ⟨0x118, 1, 0x1000, 1, 4, false,
    [F.EYE_SEQ_START_HI_T]⟩,
   ⟨0x11C, 1, 0x1000, 1, 4, false,
    [F.EYE_SYNC_AT_LO_AT_L]⟩,
   ⟨0x120, 1, 0x1000, 1, 4, false,
    [F.EYE_SYNC_AT_HI_AT_H]⟩,
   ⟨0x130, 1, 0x1000, 4, 4, false,
    [F.EYE_COND_ARG_ARG]⟩,
   ⟨0x140, 1, 0x1000, 1, 4, false,
    [F.EYE_COND_TIME_LO_TIME]⟩,
   ⟨0x144, 1, 0x1000, 1, 4, false,
    [F.EYE_COND_TIME_HI_TIME]⟩,
   ⟨0x148, 1, 0x1000, 1, 4, false,
    [F.EYE_COND_CNT_RELOAD, F.EYE_COND_CNT_COUNT]⟩,
   ⟨0x14C, 1, 0x1000, 1, 4, false,
    [F.EYE_SEQ_FLAG_FLAG]⟩,
   ⟨0x150, 1, 0x1000, 1, 4, false,
    [F.EYE_BIND_LEADER, F.EYE_BIND_BOUND]⟩,
   ⟨0x160, 1, 0x1000, 4, 4, false,
    [F.EYE_MATCH_SITES]⟩,
   ⟨0x200, 1, 0x1000, 1, 4, false,
    [F.EYE_VAMP_CFG_FMT, F.EYE_VAMP_CFG_RES_BLK, F.EYE_VAMP_CFG_FILL_AHEAD]⟩,
   ⟨0x204, 1, 0x1000, 1, 4, false,
    [F.EYE_VAMP_STS_UNDERRUN, F.EYE_VAMP_STS_HOLD, F.EYE_VAMP_STS_POISON, F.EYE_VAMP_STS_RANGE, F.EYE_VAMP_STS_LOAD_BUSY, F.EYE_VAMP_STS_LOAD_ERR, F.EYE_VAMP_STS_HOLDING, F.EYE_VAMP_STS_AHEAD]⟩,
   ⟨0x208, 1, 0x1000, 1, 4, false,
    [F.EYE_HOLD_CTL_MODE, F.EYE_HOLD_CTL_WAVE, F.EYE_HOLD_CTL_MAX]⟩,
   ⟨0x210, 1, 0x1000, 1, 4, false,
    [F.EYE_PAT_BASE_LO_ADDR_L]⟩]
  ++  [⟨0x214, 1, 0x1000, 1, 4, false,
    [F.EYE_PAT_BASE_HI_ADDR_H]⟩,
   ⟨0x218, 1, 0x1000, 1, 4, false,
    [F.EYE_PAT_LINES_LINES]⟩,
   ⟨0x21C, 1, 0x1000, 1, 4, false,
    [F.EYE_VAMP_SLACK_MIN_SLACK, F.EYE_VAMP_SLACK_RESTART]⟩,
   ⟨0x220, 1, 0x1000, 1, 4, false,
    [F.EYE_VAMP_HOLDS_COUNT]⟩,
   ⟨0x224, 1, 0x1000, 1, 4, false,
    [F.EYE_VAMP_UNDERRUNS_COUNT]⟩,
   ⟨0x228, 1, 0x1000, 1, 4, false,
    [F.EYE_VAMP_ECC_CORR, F.EYE_VAMP_ECC_UNCORR]⟩,
   ⟨0x230, 1, 0x1000, 1, 4, false,
    [F.EYE_VAMP_LD_SRC_LO_SRC_L]⟩,
   ⟨0x234, 1, 0x1000, 1, 4, false,
    [F.EYE_VAMP_LD_SRC_HI_SRC_H]⟩,
   ⟨0x238, 1, 0x1000, 1, 4, false,
    [F.EYE_VAMP_LD_CTL_DST, F.EYE_VAMP_LD_CTL_COUNT, F.EYE_VAMP_LD_CTL_GO]⟩,
   ⟨0x240, 1, 0x1000, 1, 4, false,
    [F.EYE_VAMP_WADDR_WADDR, F.EYE_VAMP_WADDR_AUTO_INC]⟩,
   ⟨0x244, 1, 0x1000, 1, 4, false,
    [F.EYE_VAMP_WDATA_DATA]⟩,
   ⟨0xA00, 1, 0x1000, 256, 4, false,
    [F.EYE_DMAP_CMP]⟩,
   ⟨0x800, 1, 0x1000, 64, 8, false,
    [F.EYE_TS_PER_LO_FRAC, F.EYE_TS_PER_LO_UI_L]⟩,
   ⟨0x804, 1, 0x1000, 64, 8, false,
    [F.EYE_TS_PER_HI_UI_H]⟩]

/-- The registers of the DDS page (R451). -/
def regsDds : List Reg :=
  [⟨0x100, 1, 0x1000, 1, 4, false,
    [F.DDS_CTL_GO, F.DDS_CTL_STOP, F.DDS_CTL_START_MODE, F.DDS_CTL_START_TAG, F.DDS_CTL_WRAP, F.DDS_CTL_SEG_SEL, F.DDS_CTL_AMP_LEAD]⟩,
   ⟨0x104, 1, 0x1000, 1, 4, false,
    [F.DDS_STS_STATE, F.DDS_STS_START_REFUSED, F.DDS_STS_HOP_LATE, F.DDS_STS_CLK_CLASH, F.DDS_STS_LIST_ERR, F.DDS_STS_AMP_LATE, F.DDS_STS_PEL_BUSY, F.DDS_STS_PEL_OVR, F.DDS_STS_REASON, F.DDS_STS_ENTRY]⟩,
   ⟨0x108, 1, 0x1000, 1, 4, false,
    [F.DDS_START_LO_T]⟩,
   ⟨0x10C, 1, 0x1000, 1, 4, false,
    [F.DDS_START_HI_T]⟩,
   ⟨0x110, 1, 0x1000, 1, 4, false,
    [F.DDS_HOP_AT_LO_AT_L]⟩,
   ⟨0x114, 1, 0x1000, 1, 4, false,
    [F.DDS_HOP_AT_HI_AT_H]⟩,
   ⟨0x118, 1, 0x1000, 1, 4, false,
    [F.DDS_HOP_Q_STS_DEPTH, F.DDS_HOP_Q_STS_OVF]⟩,
   ⟨0x11C, 1, 0x1000, 1, 4, false,
    [F.DDS_SEG_ENTRY_ENTRY]⟩,
   ⟨0x120, 1, 0x1000, 1, 4, false,
    [F.DDS_SEG_OFS_OFS]⟩,
   ⟨0x124, 1, 0x1000, 1, 4, false,
    [F.DDS_CH_INV_INV]⟩,
   ⟨0x130, 1, 0x1000, 1, 4, false,
    [F.DDS_LIST_IDX_ENTRY, F.DDS_LIST_IDX_WORD, F.DDS_LIST_IDX_LIVE, F.DDS_LIST_IDX_AUTO_INC]⟩,
   ⟨0x134, 1, 0x1000, 1, 4, false,
    [F.DDS_LIST_DATA]⟩,
   ⟨0x138, 1, 0x1000, 1, 4, false,
    [F.DDS_LIST_ERR_ENTRY, F.DDS_LIST_ERR_REASON]⟩,
   ⟨0x140, 1, 0x1000, 1, 4, false,
    [F.DDS_PEL_TX_DATA, F.DDS_PEL_TX_REG, F.DDS_PEL_TX_CH, F.DDS_PEL_TX_OP, F.DDS_PEL_TX_GO]⟩,
   ⟨0x144, 1, 0x1000, 1, 4, false,
    [F.DDS_PEL_RX_DATA, F.DDS_PEL_RX_DONE]⟩,
   ⟨0x148, 1, 0x1000, 1, 4, false,
    [F.DDS_PEL_CFG_AREG]⟩,
   ⟨0x14C, 1, 0x1000, 1, 4, false,
    [F.DDS_AMP_COAL_COUNT]⟩]

/-- The registers of the CMP page (R451). -/
def regsCmp : List Reg :=
  [⟨0x100, 1, 0x1000, 1, 4, false,
    [F.CMP_CTL_DEN_GATE]⟩,
   ⟨0x104, 1, 0x1000, 1, 4, false,
    [F.CMP_POL_INV_H, F.CMP_POL_INV_L]⟩,
   ⟨0x108, 1, 0x1000, 1, 4, false,
    [F.CMP_CH_MASK_MASK]⟩,
   ⟨0x10C, 1, 0x1000, 1, 4, false,
    [F.CMP_STS_ILLEGAL, F.CMP_STS_ILL_CH, F.CMP_STS_FULL, F.CMP_STS_LOST, F.CMP_STS_WRAPPED, F.CMP_STS_WMARK, F.CMP_STS_WMARK_LIVE, F.CMP_STS_REC_POISON, F.CMP_STS_LOG_DONE]⟩,
   ⟨0x110, 1, 0x1000, 1, 4, false,
    [F.CMP_CH_FAILED_FAILED]⟩,
   ⟨0x180, 1, 0x1000, 16, 4, false,
    [F.CMP_CH_FCNT_COUNT]⟩,
   ⟨0x200, 1, 0x1000, 1, 4, false,
    [F.CMP_FLOG_CTL_EN, F.CMP_FLOG_CTL_MODE, F.CMP_FLOG_CTL_LINGER]⟩,
   ⟨0x204, 1, 0x1000, 1, 4, false,
    [F.CMP_FLOG_BASE_LO_ADDR_L]⟩,
   ⟨0x208, 1, 0x1000, 1, 4, false,
    [F.CMP_FLOG_BASE_HI_ADDR_H]⟩,
   ⟨0x20C, 1, 0x1000, 1, 4, false,
    [F.CMP_FLOG_SIZE_SIZE64]⟩,
   ⟨0x210, 1, 0x1000, 1, 4, false,
    [F.CMP_FLOG_WP_WP]⟩,
   ⟨0x214, 1, 0x1000, 1, 4, false,
    [F.CMP_FLOG_RP_RP]⟩,
   ⟨0x218, 1, 0x1000, 1, 4, false,
    [F.CMP_FLOG_WMARK_LEVEL]⟩,
   ⟨0x21C, 1, 0x1000, 1, 4, false,
    [F.CMP_FLOG_LOST_COUNT]⟩,
   ⟨0x220, 1, 0x1000, 1, 4, false,
    [F.CMP_FLOG_SEQ_SEQ]⟩,
   ⟨0x230, 1, 0x1000, 1, 4, false,
    [F.CMP_EVT_CTL_EN, F.CMP_EVT_CTL_PIN, F.CMP_EVT_CTL_SRC, F.CMP_EVT_CTL_LEVEL, F.CMP_EVT_CTL_SITE, F.CMP_EVT_CTL_WIDTH]⟩,
   ⟨0x120, 1, 0x1000, 4, 4, true,
    [F.CMP_SITE_MASK_MASK]⟩,
   ⟨0x130, 1, 0x1000, 4, 4, true,
    [F.CMP_SITE_FAIL_FAIL]⟩,
   ⟨0x140, 1, 0x1000, 1, 4, true,
    [F.CMP_SITE_SEL_SITE]⟩,
   ⟨0x144, 1, 0x1000, 1, 4, true,
    [F.CMP_SITE_CNT_COUNT, F.CMP_SITE_CNT_FINAL]⟩]
  ++  [⟨0x148, 1, 0x1000, 1, 4, true,
    [F.CMP_SITE_FIRST_LO_UI]⟩,
   ⟨0x14C, 1, 0x1000, 1, 4, true,
    [F.CMP_SITE_FIRST_HI_UI]⟩,
   ⟨0x150, 1, 0x1000, 4, 4, true,
    [F.CMP_AUTO_MASKED_AUTO]⟩]

/-- The registers of the TDC page (R451). -/
def regsTdc : List Reg :=
  [⟨0x100, 1, 0x1000, 1, 4, false,
    [F.TDC_CTL_STREAM, F.TDC_CTL_MODE, F.TDC_CTL_GATED, F.TDC_CTL_LINGER, F.TDC_CTL_FLUSH]⟩,
   ⟨0x104, 1, 0x1000, 1, 4, false,
    [F.TDC_EDGE0_SEL]⟩,
   ⟨0x108, 1, 0x1000, 1, 4, false,
    [F.TDC_EDGE1_SEL]⟩,
   ⟨0x10C, 1, 0x1000, 1, 4, false,
    [F.TDC_Q_STS_WMARK, F.TDC_Q_STS_WMARK_LIVE]⟩,
   ⟨0x110, 1, 0x1000, 1, 4, false,
    [F.TDC_LOSS_STS_LOST, F.TDC_LOSS_STS_POISON]⟩,
   ⟨0x114, 1, 0x1000, 1, 4, false,
    [F.TDC_RING_BASE_LO_ADDR_L]⟩,
   ⟨0x118, 1, 0x1000, 1, 4, false,
    [F.TDC_RING_BASE_HI_ADDR_H]⟩,
   ⟨0x11C, 1, 0x1000, 1, 4, false,
    [F.TDC_RING_SIZE_SIZE16]⟩,
   ⟨0x120, 1, 0x1000, 1, 4, false,
    [F.TDC_RING_WMARK_LEVEL]⟩,
   ⟨0x124, 1, 0x1000, 1, 4, false,
    [F.TDC_LOST_CNT_COUNT]⟩,
   ⟨0x128, 1, 0x1000, 1, 4, false,
    [F.TDC_MISS_CNT_COUNT]⟩,
   ⟨0x200, 1, 0x1000, 16, 8, false,
    [F.TDC_RING_WP_WP]⟩,
   ⟨0x204, 1, 0x1000, 16, 8, false,
    [F.TDC_RING_RP_RP]⟩,
   ⟨0x400, 1, 0x1000, 4, 64, false,
    [F.TDC_IU_CTL_ARM, F.TDC_IU_CTL_DISARM, F.TDC_IU_CTL_MODE, F.TDC_IU_CTL_COUNT, F.TDC_IU_CTL_AVG_LOG, F.TDC_IU_CTL_GATED]⟩,
   ⟨0x404, 1, 0x1000, 4, 64, false,
    [F.TDC_IU_SRC_START_CH, F.TDC_IU_SRC_START_EDGE, F.TDC_IU_SRC_STOP_CH, F.TDC_IU_SRC_STOP_EDGE]⟩,
   ⟨0x408, 1, 0x1000, 4, 64, false,
    [F.TDC_IU_TMO_TMO]⟩,
   ⟨0x40C, 1, 0x1000, 4, 64, false,
    [F.TDC_IU_STS_STATE, F.TDC_IU_STS_ARM_ERR, F.TDC_IU_STS_OVF, F.TDC_IU_STS_DEPTH]⟩,
   ⟨0x410, 4, 0x40, 4, 4, false,
    [F.TDC_IU_RES_WORD]⟩]

/-- The registers of the TRG page (R451). -/
def regsTrg : List Reg :=
  [⟨0x100, 1, 0x1000, 1, 4, false,
    [F.TRG_CTL_ARM, F.TRG_CTL_DISARM, F.TRG_CTL_FORCE, F.TRG_CTL_ACQ_MODE, F.TRG_CTL_EYE_SEL, F.TRG_CTL_REMOTE, F.TRG_CTL_MARK_LEVEL]⟩,
   ⟨0x104, 1, 0x1000, 1, 4, false,
    [F.TRG_STS_STATE, F.TRG_STS_LEVEL, F.TRG_STS_TRIGGERED, F.TRG_STS_TRIG_TRUNC, F.TRG_STS_ARM_ERR, F.TRG_STS_ACQ_LOST, F.TRG_STS_MARK_LOST, F.TRG_STS_MARK_WRAP, F.TRG_STS_ACQ_POISON, F.TRG_STS_END]⟩,
   ⟨0x108, 1, 0x1000, 1, 4, false,
    [F.TRG_HIT_HIT]⟩,
   ⟨0x10C, 1, 0x1000, 1, 4, false,
    [F.TRG_POST_COUNT_COUNT]⟩,
   ⟨0x110, 1, 0x1000, 1, 4, false,
    [F.TRG_POST_KEPT_KEPT]⟩,
   ⟨0x114, 1, 0x1000, 1, 4, false,
    [F.TRG_DECIM_AUTO, F.TRG_DECIM_MIN_LOG, F.TRG_DECIM_MAX_LOG, F.TRG_DECIM_CUR_LOG, F.TRG_DECIM_UP_LVL, F.TRG_DECIM_DN_LVL]⟩,
   ⟨0x118, 1, 0x1000, 1, 4, false,
    [F.TRG_RAW_PHASE_PHASE]⟩,
   ⟨0x11C, 1, 0x1000, 1, 4, false,
    [F.TRG_AVG_AVG_LOG]⟩,
   ⟨0x120, 1, 0x1000, 1, 4, false,
    [F.TRG_CH_SEL_LO_SEL]⟩,
   ⟨0x124, 1, 0x1000, 1, 4, false,
    [F.TRG_CH_SEL_HI_SEL]⟩,
   ⟨0x128, 1, 0x1000, 1, 4, false,
    [F.TRG_EDGE_SEL_SEL]⟩,
   ⟨0x130, 1, 0x1000, 1, 4, false,
    [F.TRG_ACQ_BASE_LO_ADDR_L]⟩,
   ⟨0x134, 1, 0x1000, 1, 4, false,
    [F.TRG_ACQ_BASE_HI_ADDR_H]⟩,
   ⟨0x138, 1, 0x1000, 1, 4, false,
    [F.TRG_ACQ_SIZE_SIZE4K]⟩,
   ⟨0x13C, 1, 0x1000, 1, 4, false,
    [F.TRG_MARK_BASE_LO_ADDR_L]⟩,
   ⟨0x140, 1, 0x1000, 1, 4, false,
    [F.TRG_MARK_BASE_HI_ADDR_H]⟩,
   ⟨0x144, 1, 0x1000, 1, 4, false,
    [F.TRG_MARK_SIZE_SIZE256]⟩,
   ⟨0x148, 1, 0x1000, 1, 4, false,
    [F.TRG_MARK_WP_WP]⟩,
   ⟨0x150, 1, 0x1000, 1, 4, false,
    [F.TRG_ACQ_WIDX_W]⟩,
   ⟨0x154, 1, 0x1000, 1, 4, false,
    [F.TRG_TRIG_IDX_IDX]⟩]
  ++  [⟨0x158, 1, 0x1000, 1, 4, false,
    [F.TRG_TRIG_T_LO_UI]⟩,
   ⟨0x15C, 1, 0x1000, 1, 4, false,
    [F.TRG_TRIG_T_HI_UI]⟩,
   ⟨0x160, 1, 0x1000, 1, 4, false,
    [F.TRG_TIME_LO_TIME]⟩,
   ⟨0x164, 1, 0x1000, 1, 4, false,
    [F.TRG_TIME_HI_TIME]⟩,
   ⟨0x170, 1, 0x1000, 4, 4, false,
    [F.TRG_CNT_LIMIT, F.TRG_CNT_VALUE]⟩,
   ⟨0x180, 1, 0x1000, 1, 4, false,
    [F.TRG_EVT_OUT_PIN, F.TRG_EVT_OUT_WIDTH]⟩,
   ⟨0x184, 1, 0x1000, 1, 4, false,
    [F.TRG_XDEV_CODE_CODE]⟩,
   ⟨0x200, 8, 0x20, 4, 8, false,
    [F.TRG_TERM_CFG_TYPE, F.TRG_TERM_CFG_INV, F.TRG_TERM_CFG_NEXT, F.TRG_TERM_CFG_GO, F.TRG_TERM_CFG_TRIGGER, F.TRG_TERM_CFG_SEQFLAG, F.TRG_TERM_CFG_EVT, F.TRG_TERM_CFG_XQUAD, F.TRG_TERM_CFG_XDEV, F.TRG_TERM_CFG_CSEL, F.TRG_TERM_CFG_CINC, F.TRG_TERM_CFG_CCLR, F.TRG_TERM_CFG_STOP]⟩,
   ⟨0x204, 8, 0x20, 4, 8, false,
    [F.TRG_TERM_ARG_ARG]⟩,
   ⟨0x300, 1, 0x1000, 4, 32, false,
    [F.TRG_PM_MSK_LO_MSK]⟩,
   ⟨0x304, 1, 0x1000, 4, 32, false,
    [F.TRG_PM_MSK_HI_MSK]⟩,
   ⟨0x308, 4, 0x20, 4, 4, false,
    [F.TRG_PM_VAL_VAL]⟩]

/-- The registers of the ANE page (R451). -/
def regsAne : List Reg :=
  [⟨0x100, 1, 0x1000, 1, 4, false,
    [F.ANE_CTL_HOLD, F.ANE_CTL_ABORT, F.ANE_CTL_BITS]⟩,
   ⟨0x104, 1, 0x1000, 1, 4, false,
    [F.ANE_STS_STATE, F.ANE_STS_QDEPTH, F.ANE_STS_JOBQ_OVF, F.ANE_STS_TAG]⟩,
   ⟨0x108, 1, 0x1000, 1, 4, false,
    [F.ANE_PC_PC, F.ANE_PC_DEPTH]⟩,
   ⟨0x10C, 1, 0x1000, 1, 4, false,
    [F.ANE_JOB_STS_CODE, F.ANE_JOB_STS_OVF, F.ANE_JOB_STS_POISON, F.ANE_JOB_STS_DONE]⟩,
   ⟨0x110, 1, 0x1000, 1, 4, false,
    [F.ANE_JOB_CYC_CYC, F.ANE_JOB_CYC_STALL]⟩,
   ⟨0x114, 1, 0x1000, 1, 4, false,
    [F.ANE_BEXP_BSH, F.ANE_BEXP_SUM]⟩,
   ⟨0x118, 1, 0x1000, 1, 4, false,
    [F.ANE_UC_STS_VENDOR_VALID, F.ANE_UC_STS_VENDOR_WR, F.ANE_UC_STS_HELD_WR, F.ANE_UC_STS_CORR]⟩,
   ⟨0x11C, 1, 0x1000, 1, 4, false,
    [F.ANE_SPAD_ECC_CORR, F.ANE_SPAD_ECC_UNCORR]⟩,
   ⟨0x120, 1, 0x1000, 5, 4, false,
    [F.ANE_SPAD_CONFLICT_COUNT]⟩,
   ⟨0x140, 1, 0x1000, 1, 4, false,
    [F.ANE_MARCH_CTL_GO, F.ANE_MARCH_CTL_ALG, F.ANE_MARCH_CTL_TGT, F.ANE_MARCH_CTL_BG]⟩,
   ⟨0x144, 1, 0x1000, 1, 4, false,
    [F.ANE_MARCH_STS_BUSY, F.ANE_MARCH_STS_PASS, F.ANE_MARCH_STS_MARCH_ERR, F.ANE_MARCH_STS_UC_BAD]⟩,
   ⟨0x148, 1, 0x1000, 1, 4, false,
    [F.ANE_MARCH_BAD_BANKS]⟩,
   ⟨0x14C, 1, 0x1000, 1, 4, false,
    [F.ANE_MARCH_ADDR_ADDR]⟩,
   ⟨0x150, 1, 0x1000, 1, 4, false,
    [F.ANE_MARCH_XOR_XOR]⟩,
   ⟨0x200, 1, 0x1000, 16, 4, false,
    [F.ANE_JOBQ_WORD]⟩]

/-- The registers of the SCH page (R451). -/
def regsSch : List Reg :=
  [⟨0x100, 1, 0x1000, 1, 4, false,
    [F.SCH_MODE_DISPATCH, F.SCH_MODE_RETRY, F.SCH_MODE_POST_RES, F.SCH_MODE_AFF_WAIT]⟩,
   ⟨0x104, 1, 0x1000, 1, 4, false,
    [F.SCH_STS_INFLIGHT, F.SCH_STS_SUBMIT_OVF, F.SCH_STS_CTR_UFL, F.SCH_STS_NO_CORE, F.SCH_STS_DESC_ERR]⟩,
   ⟨0x108, 1, 0x1000, 1, 4, false,
    [F.SCH_CREDIT_FREE]⟩,
   ⟨0x10C, 1, 0x1000, 1, 4, false,
    [F.SCH_RERUN_CNT_COUNT]⟩,
   ⟨0x110, 1, 0x1000, 1, 4, false,
    [F.SCH_CTR_IDX_IDX]⟩,
   ⟨0x114, 1, 0x1000, 1, 4, false,
    [F.SCH_CTR_VAL_VALUE]⟩,
   ⟨0x118, 1, 0x1000, 1, 4, false,
    [F.SCH_CTR_DEC_IDX]⟩,
   ⟨0x120, 1, 0x1000, 1, 4, false,
    [F.SCH_TRACE_CTL_EN, F.SCH_TRACE_CTL_MASK]⟩,
   ⟨0x124, 1, 0x1000, 1, 4, false,
    [F.SCH_TRACE_BASE_LO_ADDR]⟩,
   ⟨0x128, 1, 0x1000, 1, 4, false,
    [F.SCH_TRACE_BASE_HI_ADDR]⟩,
   ⟨0x12C, 1, 0x1000, 1, 4, false,
    [F.SCH_TRACE_SIZE_SIZE4K]⟩,
   ⟨0x130, 1, 0x1000, 1, 4, false,
    [F.SCH_TRACE_WP_WP]⟩,
   ⟨0x140, 1, 0x1000, 8, 4, false,
    [F.SCH_EVT_CTL_DIR, F.SCH_EVT_CTL_EDGE, F.SCH_EVT_CTL_CTR_EN, F.SCH_EVT_CTL_CTR, F.SCH_EVT_CTL_BIN, F.SCH_EVT_CTL_BINBIT, F.SCH_EVT_CTL_WIDTH]⟩,
   ⟨0x400, 1, 0x1000, 256, 4, false,
    [F.SCH_FLOW_CTL_GATE]⟩,
   ⟨0x800, 1, 0x1000, 16, 4, false,
    [F.SCH_SUBMIT_WORD]⟩]

/-- The registers of the LST page (R451). -/
def regsLst : List Reg :=
  [⟨0x100, 1, 0x1000, 1, 4, false,
    [F.LST_CTL_WDOG]⟩,
   ⟨0x104, 1, 0x1000, 1, 4, false,
    [F.LST_STS_STATE, F.LST_STS_SLOT_FULL, F.LST_STS_FLOW, F.LST_STS_SITE, F.LST_STS_TYPE]⟩,
   ⟨0x108, 1, 0x1000, 1, 4, false,
    [F.LST_TAG_TAG]⟩,
   ⟨0x10C, 1, 0x1000, 1, 4, false,
    [F.LST_CNT_DONE_COUNT]⟩,
   ⟨0x110, 1, 0x1000, 1, 4, false,
    [F.LST_CNT_BUSY_COUNT]⟩,
   ⟨0x114, 1, 0x1000, 1, 4, false,
    [F.LST_CNT_FAULT_FAULTS, F.LST_CNT_FAULT_RERUNS]⟩]

/-- The registers of the MEM page (R451). -/
def regsMem : List Reg :=
  [⟨0x104, 1, 0x1000, 1, 4, false,
    [F.MEM_STS_SR_STATE, F.MEM_STS_ALIAS, F.MEM_STS_NBR_ERR]⟩,
   ⟨0x108, 1, 0x1000, 1, 4, false,
    [F.MEM_DLY_IDX_PCH, F.MEM_DLY_IDX_LANE]⟩,
   ⟨0x10C, 1, 0x1000, 1, 4, false,
    [F.MEM_DLY_WDLY, F.MEM_DLY_RDLY, F.MEM_DLY_RLAT]⟩,
   ⟨0x110, 1, 0x1000, 1, 4, false,
    [F.MEM_REF_CTL_REFI, F.MEM_REF_CTL_SR_IDLE, F.MEM_REF_CTL_SR_EN]⟩,
   ⟨0x114, 1, 0x1000, 1, 4, false,
    [F.MEM_REF_STS_DEBT_MAX, F.MEM_REF_STS_FORCED]⟩,
   ⟨0x118, 1, 0x1000, 1, 4, false,
    [F.MEM_NBR_PROB_LOG2]⟩,
   ⟨0x11C, 1, 0x1000, 1, 4, false,
    [F.MEM_NBR_CNT_COUNT]⟩,
   ⟨0x120, 1, 0x1000, 15, 4, false,
    [F.MEM_SCR_MASK]⟩,
   ⟨0x160, 1, 0x1000, 1, 4, false,
    [F.MEM_ECC_CORR, F.MEM_ECC_UNCORR]⟩,
   ⟨0x164, 1, 0x1000, 1, 4, false,
    [F.MEM_ECC_ADDR_LO_ADDR]⟩,
   ⟨0x168, 1, 0x1000, 1, 4, false,
    [F.MEM_ECC_ADDR_HI_ADDR]⟩,
   ⟨0x170, 1, 0x1000, 1, 4, false,
    [F.MEM_REPAIR_EN, F.MEM_REPAIR_THR, F.MEM_REPAIR_CAND, F.MEM_REPAIR_FULL]⟩,
   ⟨0x180, 1, 0x1000, 16, 4, false,
    [F.MEM_REPAIR_LOG_ROW, F.MEM_REPAIR_LOG_PCH, F.MEM_REPAIR_LOG_BANK, F.MEM_REPAIR_LOG_DONE, F.MEM_REPAIR_LOG_VALID]⟩,
   ⟨0x1C0, 1, 0x1000, 1, 4, false,
    [F.MEM_QOS_MISS_PORT, F.MEM_QOS_MISS_COUNT]⟩,
   ⟨0x1C4, 1, 0x1000, 1, 4, false,
    [F.MEM_TEMP_TEMP]⟩,
   ⟨0x200, 1, 0x1000, 48, 4, false,
    [F.MEM_QOS_TARGET]⟩,
   ⟨0x1D0, 1, 0x1000, 1, 4, true,
    [F.MEM_MIRROR_BASE, F.MEM_MIRROR_SIZE]⟩]

/-- The registers of the XBR page (R451). -/
def regsXbr : List Reg :=
  [⟨0x100, 1, 0x1000, 1, 4, false,
    [F.XBR_CTL_PRE_RANK, F.XBR_CTL_PRE_MAX, F.XBR_CTL_BG_OCC]⟩,
   ⟨0x104, 1, 0x1000, 1, 4, false,
    [F.XBR_STS_SLOT_ERR, F.XBR_STS_SHADOW_BUSY]⟩,
   ⟨0x108, 1, 0x1000, 1, 4, false,
    [F.XBR_SLOT_CTL_LIVE]⟩,
   ⟨0x10C, 1, 0x1000, 1, 4, false,
    [F.XBR_SLOT_ERR_SLOT, F.XBR_SLOT_ERR_REASON]⟩,
   ⟨0x110, 1, 0x1000, 1, 4, false,
    [F.XBR_PREEMPT_CNT_COUNT]⟩,
   ⟨0x200, 1, 0x1000, 48, 4, false,
    [F.XBR_WAIT_LIMIT_LIMIT]⟩,
   ⟨0x300, 1, 0x1000, 48, 4, false,
    [F.XBR_PORT_CFG_RANK]⟩,
   ⟨0x400, 1, 0x1000, 256, 4, false,
    [F.XBR_SLOT_A_ENTRIES]⟩,
   ⟨0x800, 1, 0x1000, 256, 4, false,
    [F.XBR_SLOT_B_ENTRIES]⟩,
   ⟨0xC00, 1, 0x1000, 48, 4, false,
    [F.XBR_WAIT_MAX_MAX]⟩]

/-- The registers of the PCI page (R451). -/
def regsPci : List Reg :=
  [⟨0x100, 1, 0x1000, 1, 4, false,
    [F.PCI_ID_VENDOR, F.PCI_ID_DEVICE]⟩,
   ⟨0x104, 1, 0x1000, 1, 4, false,
    [F.PCI_LINK_SPEED, F.PCI_LINK_WIDTH, F.PCI_LINK_PSTATE]⟩,
   ⟨0x108, 1, 0x1000, 1, 4, false,
    [F.PCI_STS_PARTIAL, F.PCI_STS_POISON_RX, F.PCI_STS_CPL_TMO]⟩,
   ⟨0x10C, 1, 0x1000, 1, 4, false,
    [F.PCI_APT_BASE_BASE]⟩]

/-- The registers of the WLT page (R451). -/
def regsWlt : List Reg :=
  [⟨0x100, 1, 0x1000, 1, 4, false,
    [F.WLT_CTL_LANE_EN, F.WLT_CTL_COMPAT, F.WLT_CTL_FWD, F.WLT_CTL_SLEEP, F.WLT_CTL_SLEEP_IDLE, F.WLT_CTL_WAKE, F.WLT_CTL_RETRAIN, F.WLT_CTL_REPLAY_MAX]⟩,
   ⟨0x104, 1, 0x1000, 1, 4, false,
    [F.WLT_STS_STATE, F.WLT_STS_LANES, F.WLT_STS_FAILED, F.WLT_STS_TX_HALF, F.WLT_STS_RX_HALF, F.WLT_STS_FAR_DEV, F.WLT_STS_MSG_LOST, F.WLT_STS_WIN_ERR, F.WLT_STS_RATE]⟩,
   ⟨0x108, 1, 0x1000, 1, 4, false,
    [F.WLT_CNT_REPLAYS, F.WLT_CNT_CRC_ERRS]⟩,
   ⟨0x110, 1, 0x1000, 1, 4, false,
    [F.WLT_CAPW_BASE_LO_ADDR]⟩,
   ⟨0x114, 1, 0x1000, 1, 4, false,
    [F.WLT_CAPW_BASE_HI_ADDR]⟩,
   ⟨0x118, 1, 0x1000, 1, 4, false,
    [F.WLT_CAPW_SIZE_SIZE4K]⟩,
   ⟨0x120, 1, 0x1000, 1, 4, false,
    [F.WLT_CAPS_SRC_LO_ADDR]⟩,
   ⟨0x124, 1, 0x1000, 1, 4, false,
    [F.WLT_CAPS_SRC_HI_ADDR]⟩,
   ⟨0x128, 1, 0x1000, 1, 4, false,
    [F.WLT_CAPS_OFS_OFS]⟩,
   ⟨0x12C, 1, 0x1000, 1, 4, false,
    [F.WLT_CAPS_CTL_LEN, F.WLT_CAPS_CTL_GO, F.WLT_CAPS_CTL_BUSY, F.WLT_CAPS_CTL_DONE, F.WLT_CAPS_CTL_ERR]⟩,
   ⟨0x130, 1, 0x1000, 1, 4, false,
    [F.WLT_ESCAN_CTL_LANE, F.WLT_ESCAN_CTL_H, F.WLT_ESCAN_CTL_V, F.WLT_ESCAN_CTL_DWELL, F.WLT_ESCAN_CTL_GO, F.WLT_ESCAN_CTL_BUSY, F.WLT_ESCAN_CTL_ABORTED]⟩,
   ⟨0x134, 1, 0x1000, 1, 4, false,
    [F.WLT_ESCAN_ERR_ERRORS]⟩,
   ⟨0x140, 1, 0x1000, 1, 4, true,
    [F.WLT_NODE_DEV, F.WLT_NODE_TTL, F.WLT_NODE_LACE_EXT]⟩,
   ⟨0x144, 1, 0x1000, 1, 4, true,
    [F.WLT_MSG_CODE, F.WLT_MSG_GO]⟩]

/-- The registers of the ETH page (R451). -/
def regsEth : List Reg :=
  [⟨0x100, 1, 0x1000, 1, 4, false,
    [F.ETH_CTL_FEC, F.ETH_CTL_UDP4_ZERO]⟩,
   ⟨0x104, 1, 0x1000, 1, 4, false,
    [F.ETH_STS_LINK, F.ETH_STS_BLOCK_LOCK, F.ETH_STS_RX_DROP, F.ETH_STS_FEC_UNCORR]⟩,
   ⟨0x108, 1, 0x1000, 1, 4, false,
    [F.ETH_TS_LAT_TX_LAT, F.ETH_TS_LAT_RX_LAT]⟩,
   ⟨0x10C, 1, 0x1000, 1, 4, false,
    [F.ETH_TS_LAT_FEC_TX_LAT, F.ETH_TS_LAT_FEC_RX_LAT]⟩,
   ⟨0x110, 1, 0x1000, 1, 4, false,
    [F.ETH_TXR_BASE_LO_ADDR]⟩,
   ⟨0x114, 1, 0x1000, 1, 4, false,
    [F.ETH_TXR_BASE_HI_ADDR]⟩,
   ⟨0x118, 1, 0x1000, 1, 4, false,
    [F.ETH_TXR_SIZE_SIZE16]⟩,
   ⟨0x11C, 1, 0x1000, 1, 4, false,
    [F.ETH_TXR_HEAD_HEAD]⟩,
   ⟨0x120, 1, 0x1000, 1, 4, false,
    [F.ETH_TXR_TAIL_TAIL]⟩,
   ⟨0x130, 1, 0x1000, 1, 4, false,
    [F.ETH_RXR_BASE_LO_ADDR]⟩,
   ⟨0x134, 1, 0x1000, 1, 4, false,
    [F.ETH_RXR_BASE_HI_ADDR]⟩,
   ⟨0x138, 1, 0x1000, 1, 4, false,
    [F.ETH_RXR_SIZE_SIZE16]⟩,
   ⟨0x13C, 1, 0x1000, 1, 4, false,
    [F.ETH_RXR_HEAD_HEAD]⟩,
   ⟨0x140, 1, 0x1000, 1, 4, false,
    [F.ETH_RXR_TAIL_TAIL]⟩,
   ⟨0x150, 1, 0x1000, 1, 4, false,
    [F.ETH_CNT_FCS, F.ETH_CNT_DROP]⟩]

/-- The registers of the PTP page (R451). -/
def regsPtp : List Reg :=
  [⟨0x104, 1, 0x1000, 1, 4, false,
    [F.PTP_STS_VALID, F.PTP_STS_STEP_REFUSED, F.PTP_STS_SLEWING, F.PTP_STS_PULSE_LATE]⟩,
   ⟨0x108, 1, 0x1000, 1, 4, false,
    [F.PTP_INCR_INCR]⟩,
   ⟨0x110, 1, 0x1000, 1, 4, false,
    [F.PTP_TIME0_NS]⟩,
   ⟨0x114, 1, 0x1000, 1, 4, false,
    [F.PTP_TIME1_SEC]⟩,
   ⟨0x118, 1, 0x1000, 1, 4, false,
    [F.PTP_TIME2_SEC]⟩,
   ⟨0x11C, 1, 0x1000, 1, 4, false,
    [F.PTP_TIME_FR_FRAC]⟩,
   ⟨0x120, 1, 0x1000, 1, 4, false,
    [F.PTP_MAP_TL_LO_UI]⟩,
   ⟨0x124, 1, 0x1000, 1, 4, false,
    [F.PTP_MAP_TL_HI_UI]⟩,
   ⟨0x130, 1, 0x1000, 1, 4, false,
    [F.PTP_SET_NS_NS]⟩,
   ⟨0x134, 1, 0x1000, 1, 4, false,
    [F.PTP_SET_SEC_LO_SEC]⟩,
   ⟨0x138, 1, 0x1000, 1, 4, false,
    [F.PTP_SET_SEC_HI_SEC]⟩,
   ⟨0x140, 1, 0x1000, 1, 4, false,
    [F.PTP_STEP_LO_STEP]⟩,
   ⟨0x144, 1, 0x1000, 1, 4, false,
    [F.PTP_STEP_HI_STEP]⟩,
   ⟨0x148, 1, 0x1000, 1, 4, false,
    [F.PTP_ADJ_CTL_SET, F.PTP_ADJ_CTL_STEP, F.PTP_ADJ_CTL_INVALIDATE, F.PTP_ADJ_CTL_THR]⟩,
   ⟨0x14C, 1, 0x1000, 1, 4, false,
    [F.PTP_SLEW_RATE]⟩,
   ⟨0x150, 1, 0x1000, 1, 4, false,
    [F.PTP_SLEW_REM_LO_REM]⟩,
   ⟨0x154, 1, 0x1000, 1, 4, false,
    [F.PTP_SLEW_REM_HI_REM]⟩,
   ⟨0x200, 1, 0x1000, 4, 32, false,
    [F.PTP_PG_CTL_GO, F.PTP_PG_CTL_STOP, F.PTP_PG_CTL_SRC, F.PTP_PG_CTL_PIN, F.PTP_PG_CTL_WIDTH, F.PTP_PG_CTL_RUN]⟩,
   ⟨0x204, 4, 0x20, 3, 4, false,
    [F.PTP_PG_START_START]⟩,
   ⟨0x210, 1, 0x1000, 4, 32, false,
    [F.PTP_PG_PERIOD_PERIOD]⟩]
  ++  [⟨0x214, 1, 0x1000, 4, 32, false,
    [F.PTP_PG_COUNT_COUNT]⟩]

/-- The registers of the FLT page (R451). -/
def regsFlt : List Reg :=
  [⟨0x100, 1, 0x1000, 1, 4, false,
    [F.FLT_STS_DEV_HEEL, F.FLT_STS_PWR_FAIL, F.FLT_STS_LEAVE_REFUSED, F.FLT_STS_CLR_REFUSED, F.FLT_STS_LOG_LOST, F.FLT_STS_FAULT_N, F.FLT_STS_DEV_CAUSE, F.FLT_STS_EYE_HEEL]⟩,
   ⟨0x104, 1, 0x1000, 1, 4, false,
    [F.FLT_HEEL_CTL_LEAVE_DEV, F.FLT_HEEL_CTL_LEAVE_EYE]⟩,
   ⟨0x108, 1, 0x1000, 1, 4, false,
    [F.FLT_KILL_CTL_EYE]⟩,
   ⟨0x10C, 1, 0x1000, 1, 4, false,
    [F.FLT_LOG_STS_DEPTH, F.FLT_LOG_STS_LOST]⟩,
   ⟨0x110, 1, 0x1000, 1, 4, false,
    [F.FLT_CLR_OFS_BIT, F.FLT_CLR_OFS_PAGE]⟩,
   ⟨0x140, 1, 0x1000, 8, 4, false,
    [F.FLT_LOG_WORD]⟩,
   ⟨0x200, 1, 0x1000, 14, 4, false,
    [F.FLT_PEND_PEND]⟩]

/-- The registers of the THM page (R451). -/
def regsThm : List Reg :=
  [⟨0x100, 1, 0x1000, 1, 4, false,
    [F.THM_CTL_SCOPE, F.THM_CTL_HYST]⟩,
   ⟨0x104, 1, 0x1000, 1, 4, false,
    [F.THM_LIMITS_WARN, F.THM_LIMITS_STOP]⟩,
   ⟨0x108, 1, 0x1000, 1, 4, false,
    [F.THM_HBM_LIMITS_WARN, F.THM_HBM_LIMITS_STOP]⟩,
   ⟨0x10C, 1, 0x1000, 1, 4, false,
    [F.THM_STS_FAST, F.THM_STS_TRIP, F.THM_STS_STOPPING, F.THM_STS_HOT]⟩,
   ⟨0x110, 1, 0x1000, 1, 4, false,
    [F.THM_BAD_BAD]⟩,
   ⟨0x140, 1, 0x1000, 24, 4, false,
    [F.THM_TEMP_TEMP, F.THM_TEMP_VALID, F.THM_TEMP_MAX]⟩]

/-- The registers of the CAL page (R451). -/
def regsCal : List Reg :=
  [⟨0x100, 1, 0x1000, 1, 4, false,
    [F.CAL_CTL_HOLD]⟩,
   ⟨0x104, 1, 0x1000, 1, 4, false,
    [F.CAL_SLEW_STEP]⟩,
   ⟨0x108, 1, 0x1000, 1, 4, false,
    [F.CAL_STS_USER_OK, F.CAL_STS_COPY, F.CAL_STS_SETTLED, F.CAL_STS_COMMIT_ERR, F.CAL_STS_COPY_BUSY, F.CAL_STS_SAVE_BUSY, F.CAL_STS_SAVE_ERR, F.CAL_STS_LOAD_ERR, F.CAL_STS_RAM_UNCORR]⟩,
   ⟨0x10C, 1, 0x1000, 1, 4, false,
    [F.CAL_ERR_REC, F.CAL_ERR_REASON]⟩,
   ⟨0x110, 1, 0x1000, 1, 4, false,
    [F.CAL_TEMP_STS_EXTRAP, F.CAL_TEMP_STS_SENSOR_HOLD]⟩,
   ⟨0x114, 1, 0x1000, 1, 4, false,
    [F.CAL_WIN_IDX_WORD, F.CAL_WIN_IDX_LIVE, F.CAL_WIN_IDX_AUTO_INC]⟩,
   ⟨0x118, 1, 0x1000, 1, 4, false,
    [F.CAL_WIN_DATA_DATA]⟩,
   ⟨0x11C, 1, 0x1000, 1, 4, false,
    [F.CAL_FLASH_CTL_SAVE, F.CAL_FLASH_CTL_LOAD]⟩,
   ⟨0x120, 1, 0x1000, 1, 4, false,
    [F.CAL_SPR_ROUTE_CH, F.CAL_SPR_ROUTE_EN]⟩,
   ⟨0x124, 1, 0x1000, 1, 4, false,
    [F.CAL_LIN_CTL_CH, F.CAL_LIN_CTL_IN, F.CAL_LIN_CTL_RUN, F.CAL_LIN_CTL_CLR]⟩,
   ⟨0x200, 1, 0x1000, 64, 4, false,
    [F.CAL_LIN_CNT_COUNT]⟩]

/-- The registers of the SEC page (R451). -/
def regsSec : List Reg :=
  [⟨0x100, 1, 0x1000, 1, 4, false,
    [F.SEC_STS_COPY0_BAD, F.SEC_STS_COPY1_BAD, F.SEC_STS_RECOVERY, F.SEC_STS_REASON, F.SEC_STS_FLASH_BUSY, F.SEC_STS_FLASH_ERR, F.SEC_STS_INTEG_BAD, F.SEC_STS_SVN_MIN]⟩,
   ⟨0x104, 1, 0x1000, 1, 4, false,
    [F.SEC_UCODE_VER_VERSION, F.SEC_UCODE_VER_SVN, F.SEC_UCODE_VER_ANE, F.SEC_UCODE_VER_LST, F.SEC_UCODE_VER_MC, F.SEC_UCODE_VER_COPY]⟩,
   ⟨0x110, 1, 0x1000, 12, 4, false,
    [F.SEC_KEY_HASH_HASH]⟩,
   ⟨0x140, 1, 0x1000, 1, 4, false,
    [F.SEC_FLASH_ADDR_ADDR]⟩,
   ⟨0x144, 1, 0x1000, 1, 4, false,
    [F.SEC_FLASH_DATA_DATA]⟩,
   ⟨0x148, 1, 0x1000, 1, 4, false,
    [F.SEC_FLASH_CMD_OP]⟩]

/-- The registers of the EVQ page (R451). -/
def regsEvq : List Reg :=
  [⟨0x100, 1, 0x1000, 1, 4, false,
    [F.EVQ_CTL_MODE]⟩,
   ⟨0x104, 1, 0x1000, 1, 4, false,
    [F.EVQ_STS_DEPTH, F.EVQ_STS_PRESENT, F.EVQ_STS_WMARK, F.EVQ_STS_WMARK_LIVE, F.EVQ_STS_INFO_LOST, F.EVQ_STS_POISON]⟩,
   ⟨0x108, 1, 0x1000, 1, 4, false,
    [F.EVQ_WMARK_LEVEL]⟩,
   ⟨0x10C, 1, 0x1000, 1, 4, false,
    [F.EVQ_LINGER_LINGER]⟩,
   ⟨0x110, 1, 0x1000, 1, 4, false,
    [F.EVQ_RING_BASE_LO_ADDR]⟩,
   ⟨0x114, 1, 0x1000, 1, 4, false,
    [F.EVQ_RING_BASE_HI_ADDR]⟩,
   ⟨0x118, 1, 0x1000, 1, 4, false,
    [F.EVQ_RING_SIZE_SIZE64]⟩,
   ⟨0x11C, 1, 0x1000, 1, 4, false,
    [F.EVQ_RING_WP_WP]⟩,
   ⟨0x120, 1, 0x1000, 1, 4, false,
    [F.EVQ_RING_RP_RP]⟩,
   ⟨0x124, 1, 0x1000, 1, 4, false,
    [F.EVQ_LOST_COUNT]⟩,
   ⟨0x140, 1, 0x1000, 8, 4, false,
    [F.EVQ_POP_WORD]⟩]

/-- The registers of each block type (R451). -/
def regsOf : Nat → List Reg
  | 0x00 => regsGlb
  | 0x01 => regsTbs
  | 0x02 => regsChn
  | 0x03 => regsSpr
  | 0x04 => regsEye
  | 0x05 => regsDds
  | 0x06 => regsCmp
  | 0x07 => regsTdc
  | 0x08 => regsTrg
  | 0x09 => regsAne
  | 0x0A => regsSch
  | 0x0B => regsLst
  | 0x0C => regsMem
  | 0x0D => regsXbr
  | 0x0E => regsPci
  | 0x0F => regsWlt
  | 0x10 => regsEth
  | 0x11 => regsPtp
  | 0x12 => regsFlt
  | 0x13 => regsThm
  | 0x14 => regsCal
  | 0x15 => regsSec
  | 0x16 => regsEvq
  | _ => []

/-! ## Fault sources (R72, R111, R135, R166, R187, R207, R233, R255, R285, R310, R335, R370, R387, R408, R412, R437)

`X.PAGE_SOURCE` is the source's PG_FLT bit. -/

namespace X

def TBS_REF_LOSS : Nat := 0
def TBS_REF_LONG : Nat := 1
def TBS_REF_FREQ : Nat := 2
/-- Bit of quadrant 0; quadrant q is q bits further on. -/
def TBS_PLL_UNLOCK : Nat := 4
def TBS_LACE_CRC : Nat := 8
def TBS_ALIGN_PHASE : Nat := 9
/-- Bit of quadrant 0; quadrant q is q bits further on. -/
def TBS_TRACK_LOST : Nat := 12
/-- Bit of quadrant 0; quadrant q is q bits further on. -/
def TBS_STEER_LIMIT : Nat := 16
def CHN_CLASH : Nat := 0
def CHN_WFT_CORR : Nat := 1
def CHN_WFT_UNCORR : Nat := 2
def SPR_TAKEOVER : Nat := 0
def SPR_SPARE_BAD : Nat := 1
def SPR_SECOND_FAULT : Nat := 2
def EYE_VAMP_UNDERRUN : Nat := 0
def EYE_VAMP_HOLD : Nat := 1
def EYE_VAMP_POISON : Nat := 2
def EYE_VAMP_RANGE : Nat := 3
def EYE_VAMP_CORR : Nat := 4
def EYE_SEQ_REFUSED : Nat := 8
def EYE_SYNC_LATE : Nat := 9
def EYE_SEG_EMPTY : Nat := 10
def EYE_MATCH_TMO : Nat := 11
def GLB_SEG_ERR : Nat := 16
def GLB_SEG_CORR : Nat := 17
def GLB_SEG_UNCORR : Nat := 18
def DDS_HOP_LATE : Nat := 0
def DDS_CLK_CLASH : Nat := 1
def DDS_LIST_CORR : Nat := 2
def DDS_LIST_UNCORR : Nat := 3
def DDS_AMP_LATE : Nat := 4
def CMP_ILLEGAL : Nat := 0
def CMP_FLOG_LOST : Nat := 1
def CMP_FLOG_FULL : Nat := 2
def CMP_REC_POISON : Nat := 3
def CMP_ACC_UNCORR : Nat := 4
def TDC_STAMP_LOST : Nat := 0
def TDC_STAMP_POISON : Nat := 1
def TDC_RING_FULL : Nat := 2
def TDC_IU_OVF : Nat := 3
def TDC_IU_POISON : Nat := 4
def TRG_ACQ_LOST : Nat := 0
def TRG_ACQ_POISON : Nat := 1
def TRG_MARK_LOST : Nat := 2
def TRG_DECIM_MAX : Nat := 3
def ANE_JOB_ERR : Nat := 0
def ANE_UC_CORR : Nat := 1
def ANE_UC_UNCORR : Nat := 2
def ANE_SPAD_CORR : Nat := 3
def ANE_SPAD_UNCORR : Nat := 4
def ANE_MARCH_FAIL : Nat := 5
def SCH_SUBMIT_OVF : Nat := 0
def SCH_DESC_ERR : Nat := 1
def SCH_CTR_UFL : Nat := 2
def SCH_NO_CORE : Nat := 3
def SCH_TRACE_LOST : Nat := 4
def LST_LST_FAULT : Nat := 0
def EVQ_EVQ_LOST : Nat := 0
def EVQ_EVQ_POISON : Nat := 1
def MEM_ECC_CORR : Nat := 0
def MEM_ECC_UNCORR : Nat := 1
def MEM_REF_FORCED : Nat := 2
def MEM_ALIAS : Nat := 3
def MEM_QOS_MISS : Nat := 4
def MEM_REPAIR_FULL : Nat := 5
def MEM_NBR_ERR : Nat := 6
def MEM_STACK_FAIL : Nat := 7
def XBR_SLOT_ERR : Nat := 0
def XBR_WAIT_FORCED : Nat := 1
def PCI_LINK_DOWN : Nat := 0
def PCI_POISON_RX : Nat := 1
def PCI_PARTIAL : Nat := 2
def PCI_CPL_TMO : Nat := 3
def WLT_LANE_FAIL : Nat := 0
def WLT_LINK_DOWN : Nat := 1
def WLT_MSG_LOST : Nat := 2
def WLT_WIN_ERR : Nat := 3
def WLT_RATE : Nat := 4
def ETH_LINK_DOWN : Nat := 0
def ETH_RX_DROP : Nat := 1
def ETH_FEC_UNCORR : Nat := 2
def PTP_STEP_REFUSED : Nat := 0
def PTP_PULSE_LATE : Nat := 1
def CAL_LOAD_ERR : Nat := 0
def CAL_SAVE_ERR : Nat := 1
def CAL_RAM_CORR : Nat := 2
def CAL_RAM_UNCORR : Nat := 3
def CAL_EXTRAP : Nat := 4
def CAL_SENSOR_HOLD : Nat := 5
def GLB_BIST_EYE : Nat := 0
def GLB_BIST_CORE : Nat := 1
def GLB_RLIST_FULL : Nat := 2
def GLB_WDOG_RESET : Nat := 3
def SEC_COPY_BAD : Nat := 0
def SEC_RECOVERY : Nat := 1
def SEC_FLASH_ERR : Nat := 2
def SEC_INTEG_BAD : Nat := 3
def FLT_PWR_FAIL : Nat := 0
def FLT_LOG_LOST : Nat := 1
def THM_WARN : Nat := 0
def THM_STOP : Nat := 1
def THM_TRIP : Nat := 2
def THM_SENSOR_BAD : Nat := 3
def THM_HBM_WARN : Nat := 4
def THM_HBM_STOP : Nat := 5

end X

/-- A fault source of a block type: its bit, default class (0 Corrected, 1 Contained, 2 Fatal), default reactions and
fixed reactions, in the bit order of RXN: bit 0 INT, 1 TRAP, 2 BLOCK_RESET, 3 CHIP_RESET, 4 FAULT_N, 5 HEEL (R410). -/
structure FltSrc where
  bit : Nat
  cls : Nat
  rxn : Nat
  fixed : Nat
  deriving DecidableEq, Repr

/-- The fault sources of each block type. -/
def fltSrcs : Nat → List FltSrc
  | 0x00 => [⟨0, 1, 0x01, 0x00⟩, ⟨1, 2, 0x30, 0x00⟩, ⟨2, 0, 0x01, 0x00⟩, ⟨3, 0, 0x01, 0x00⟩, ⟨16, 0, 0x01, 0x00⟩, ⟨17, 0, 0x01, 0x00⟩,
      ⟨18, 1, 0x01, 0x00⟩]
  | 0x01 => [⟨0, 0, 0x01, 0x00⟩, ⟨1, 2, 0x30, 0x20⟩, ⟨2, 0, 0x01, 0x00⟩, ⟨4, 2, 0x30, 0x00⟩, ⟨5, 2, 0x30, 0x00⟩, ⟨6, 2, 0x30, 0x00⟩,
      ⟨7, 2, 0x30, 0x00⟩, ⟨8, 0, 0x01, 0x00⟩, ⟨9, 1, 0x01, 0x00⟩, ⟨12, 1, 0x01, 0x00⟩, ⟨13, 1, 0x01, 0x00⟩, ⟨14, 1, 0x01, 0x00⟩,
      ⟨15, 1, 0x01, 0x00⟩, ⟨16, 0, 0x01, 0x00⟩, ⟨17, 0, 0x01, 0x00⟩, ⟨18, 0, 0x01, 0x00⟩, ⟨19, 0, 0x01, 0x00⟩]
  | 0x02 => [⟨0, 1, 0x01, 0x00⟩, ⟨1, 0, 0x01, 0x00⟩, ⟨2, 1, 0x01, 0x00⟩]
  | 0x03 => [⟨0, 0, 0x01, 0x00⟩, ⟨1, 0, 0x01, 0x00⟩, ⟨2, 2, 0x30, 0x20⟩]
  | 0x04 => [⟨0, 1, 0x01, 0x00⟩, ⟨1, 0, 0x01, 0x00⟩, ⟨2, 1, 0x01, 0x00⟩, ⟨3, 1, 0x01, 0x00⟩, ⟨4, 0, 0x01, 0x00⟩, ⟨8, 0, 0x01, 0x00⟩,
      ⟨9, 1, 0x01, 0x00⟩, ⟨10, 1, 0x01, 0x00⟩, ⟨11, 0, 0x01, 0x00⟩]
  | 0x05 => [⟨0, 0, 0x01, 0x00⟩, ⟨1, 1, 0x01, 0x00⟩, ⟨2, 0, 0x01, 0x00⟩, ⟨3, 1, 0x01, 0x00⟩, ⟨4, 0, 0x01, 0x00⟩]
  | 0x06 => [⟨0, 0, 0x01, 0x00⟩, ⟨1, 0, 0x01, 0x00⟩, ⟨2, 0, 0x01, 0x00⟩, ⟨3, 0, 0x01, 0x00⟩, ⟨4, 1, 0x01, 0x00⟩]
  | 0x07 => [⟨0, 0, 0x01, 0x00⟩, ⟨1, 0, 0x01, 0x00⟩, ⟨2, 0, 0x01, 0x00⟩, ⟨3, 0, 0x01, 0x00⟩, ⟨4, 1, 0x01, 0x00⟩]
  | 0x08 => [⟨0, 0, 0x01, 0x00⟩, ⟨1, 0, 0x01, 0x00⟩, ⟨2, 0, 0x01, 0x00⟩, ⟨3, 0, 0x01, 0x00⟩]
  | 0x09 => [⟨0, 1, 0x01, 0x00⟩, ⟨1, 0, 0x01, 0x00⟩, ⟨2, 1, 0x01, 0x00⟩, ⟨3, 0, 0x01, 0x00⟩, ⟨4, 1, 0x01, 0x00⟩, ⟨5, 1, 0x01, 0x00⟩]
  | 0x0A => [⟨0, 1, 0x01, 0x00⟩, ⟨1, 0, 0x01, 0x00⟩, ⟨2, 0, 0x01, 0x00⟩, ⟨3, 2, 0x30, 0x00⟩, ⟨4, 0, 0x01, 0x00⟩]
  | 0x0B => [⟨0, 0, 0x01, 0x00⟩]
  | 0x0C => [⟨0, 0, 0x01, 0x00⟩, ⟨1, 1, 0x01, 0x00⟩, ⟨2, 0, 0x01, 0x00⟩, ⟨3, 1, 0x01, 0x00⟩, ⟨4, 0, 0x01, 0x00⟩, ⟨5, 0, 0x01, 0x00⟩,
      ⟨6, 0, 0x01, 0x00⟩, ⟨7, 2, 0x30, 0x00⟩]
  | 0x0D => [⟨0, 0, 0x01, 0x00⟩, ⟨1, 0, 0x01, 0x00⟩]
  | 0x0E => [⟨0, 1, 0x10, 0x00⟩, ⟨1, 0, 0x01, 0x00⟩, ⟨2, 0, 0x01, 0x00⟩, ⟨3, 1, 0x01, 0x00⟩]
  | 0x0F => [⟨0, 0, 0x01, 0x00⟩, ⟨1, 1, 0x01, 0x00⟩, ⟨2, 1, 0x01, 0x00⟩, ⟨3, 0, 0x01, 0x00⟩, ⟨4, 0, 0x01, 0x00⟩]
  | 0x10 => [⟨0, 0, 0x01, 0x00⟩, ⟨1, 0, 0x01, 0x00⟩, ⟨2, 0, 0x01, 0x00⟩]
  | 0x11 => [⟨0, 0, 0x01, 0x00⟩, ⟨1, 0, 0x01, 0x00⟩]
  | 0x12 => [⟨0, 2, 0x30, 0x30⟩, ⟨1, 0, 0x01, 0x00⟩]
  | 0x13 => [⟨0, 0, 0x01, 0x00⟩, ⟨1, 2, 0x30, 0x20⟩, ⟨2, 2, 0x30, 0x30⟩, ⟨3, 0, 0x01, 0x00⟩, ⟨4, 0, 0x01, 0x00⟩, ⟨5, 2, 0x30, 0x20⟩]
  | 0x14 => [⟨0, 1, 0x01, 0x00⟩, ⟨1, 0, 0x01, 0x00⟩, ⟨2, 0, 0x01, 0x00⟩, ⟨3, 1, 0x01, 0x00⟩, ⟨4, 0, 0x01, 0x00⟩, ⟨5, 0, 0x01, 0x00⟩]
  | 0x15 => [⟨0, 0, 0x01, 0x00⟩, ⟨1, 2, 0x10, 0x00⟩, ⟨2, 0, 0x01, 0x00⟩, ⟨3, 0, 0x01, 0x00⟩]
  | 0x16 => [⟨0, 0, 0x01, 0x00⟩, ⟨1, 0, 0x01, 0x00⟩]
  | _ => []

end Sys2Proof.Machine
end

