-- ==== Sys2Proof/Machine/Table.lean ====
section
/-!
DEFINITION. Sparse tables: a list of (key, value) pairs, keys strictly rising, no entry equal to what an unlisted key
reads as. Every register, memory and per-instance record of the model is held in such a table, so equal contents are
equal data. The default of a key is passed to each operation by its caller.
-/
namespace Sys2Proof.Machine

open Sys2Proof

/-- A sparse table. -/
abbrev Tab (α : Type) := List (Nat × α)

/-- The entry listed for a key. -/
def tabFind {α : Type} : Tab α → Nat → Option α
  | [], _ => none
  | (k, v) :: r, i => if k = i then some v else tabFind r i

/-- What a key reads as; `d` is what an unlisted key reads as. -/
def tabGet {α : Type} (d : α) (m : Tab α) (i : Nat) : α := (tabFind m i).getD d

/-- A key taken out of the list. -/
def tabErase {α : Type} : Tab α → Nat → Tab α
  | [], _ => []
  | (k, v) :: r, i => if k = i then tabErase r i else (k, v) :: tabErase r i

/-- A pair put in its place; the key is not listed yet. -/
def tabInsert {α : Type} : Tab α → Nat → α → Tab α
  | [], i, v => [(i, v)]
  | (k, w) :: r, i, v => if i < k then (i, v) :: (k, w) :: r else (k, w) :: tabInsert r i v

/-- Writing a key: writing the value that an unlisted key reads as removes the entry. -/
def tabPut {α : Type} [DecidableEq α] (d : α) (m : Tab α) (i : Nat) (v : α) : Tab α :=
  if v = d then tabErase m i else tabInsert (tabErase m i) i v

/-- The keys rise strictly, from above `lo`. -/
def tabSorted {α : Type} : Tab α → Bool
  | [] => true
  | [_] => true
  | (k, _) :: (k', v') :: r => decide (k < k') && tabSorted ((k', v') :: r)

/-- The canonical form: keys strictly rising, no entry equal to the key's default. -/
def tabWf {α : Type} [DecidableEq α] (d : Nat → α) (m : Tab α) : Bool :=
  tabSorted m && m.all (fun p => decide (p.2 ≠ d p.1))

end Sys2Proof.Machine
end

