-- ==== Sys2Proof/Machine/State.lean ====
section
/-!
DEFINITION. The state of the block: every register (one sparse register file), every buffer, queue, table, memory,
counter, mode and pin the spec gives it, as plain data, the queue of commands that wait, the state after reset, and
the reasons a step can stop.
-/
namespace Sys2Proof.Machine

open Sys2Proof

/-- What leaves the device: completions to the host, messages and writes on the links, frames on the pins. -/
inductive Out where
  /-- A completion of a host read; `ep`: the EP bit is set. -/
  | cpl (ws : List W32) (ep : Bool)
  /-- A completion with Unsupported Request. -/
  | ur
  /-- A completion with Configuration Request Retry Status. -/
  | crs
  /-- An MSI-X message. -/
  | msix (vec : Nat)
  /-- A posted write of words to host memory. -/
  | hostWr (addr : Nat) (ws : List W32)
  /-- A posted write of bytes to host memory. -/
  | hostBytes (addr : Nat) (bs : List Byte)
  /-- Bits on LACE_OUT, in line order, one per REFIN period. -/
  | lace (bits : List Bool)
  /-- A level-port frame on PELe. -/
  | pel (e : Nat) (frame : Nat)
  /-- A Welt packet or message on link n: kind, words. -/
  | welt (n : Nat) (kind : Nat) (ws : List Nat)
  /-- An Ethernet frame on port n. -/
  | eth (n : Nat) (bytes : List Byte)
  /-- SMBus response bytes. -/
  | smb (bytes : List Nat)
  deriving DecidableEq, Repr

/-! ## Channels and spares (R73 to R110) -/

/-- A stitch placed for a vector and not yet due at the ball, or a serial drive or strobe of one UI. -/
structure Due where
  /-- Placement time on the quadrant timeline, fraction units. -/
  t : Nat
  /-- Stitch type of R79; 16, 17: serial DRV low, high; 18, 19: serial DEN off, on; 20 + symbol: serial strobe; 28, 29: a
  clock edge to low, high (R168); 32 to 35: a change of parking (R94): DEN off, DEN on, DRV low, DRV high. -/
  typ : Nat
  /-- Expected state code (R78). -/
  exp : Nat
  /-- Channel the result belongs to (R92). -/
  own : Nat
  /-- Vector boundary of its vector. -/
  vb : Nat
  /-- Boundary that ends its vector. -/
  ve : Nat
  /-- Ordinal of its vector in the run. -/
  vid : Nat
  /-- The pass belongs to an MLOOP entry. -/
  mloop : Bool
  /-- Not judged: channel or site masked, role, or hold vector (R193). -/
  excl : Bool
  /-- DEN gate in force (R193). -/
  gate : Bool
  deriving DecidableEq, Repr

/-- An open compare window (R191). -/
structure Win where
  d : Due
  /-- The instant of its fail, once the observed state has differed. -/
  bad : Option Nat
  /-- Observed state at that instant. -/
  obs : Nat
  /-- DEN was on at an instant of the window. -/
  denOn : Bool
  deriving DecidableEq, Repr

/-- Outputs, inputs and placement state of a channel. -/
structure ChanDyn where
  /-- DRV and DEN as placed (R90, R94). -/
  drv : Bool := false
  den : Bool := false
  /-- Raw CMPH and CMPL at the ball. -/
  cmpH : Bool := false
  cmpL : Bool := false
  /-- Time of the last placed pattern stitch or serial symbol, in the device's own time (State.era). -/
  last : Option Nat := none
  /-- The channel is in compare role in the segment in play: DEN is held off (R90). -/
  role : Bool := false
  /-- Stitches and changes not yet placed, ascending by time (R84, R94). -/
  due : List Due := []
  /-- The open compare window (R191). -/
  win : Option Win := none
  /-- CLEAN_T in fraction units, while it is an enabled position (R103). -/
  clean : Nat := 0
  deriving DecidableEq, Repr

/-- Shadow check of an eyelet (R99 to R109). -/
structure SprDyn where
  /-- A dwell is in progress. -/
  on : Bool := false
  /-- Start of the dwell in progress and of the next one, fraction units of the device's own time (State.era). -/
  start : Nat := 0
  next : Nat := 0
  /-- Thresholds in force since the dwell start. -/
  thr : Nat := 65
  refThr : Nat := 131
  /-- Time of the last check stitch, fraction units of the device's own time. -/
  lastChk : Nat := 0
  /-- A check stitch has been placed in this dwell. -/
  checked : Bool := false
  /-- Takeover decided: channel and decision time. -/
  take : Option (Nat × Nat) := none
  /-- STATE before heel, whether a dwell was in progress then, and the instant of the park of the heel entry. -/
  was : Nat := 0
  wasOn : Bool := false
  heelT : Option Nat := none
  deriving DecidableEq, Repr

/-! ## Sequencers and vamp buffers (R112 to R166) -/

/-- A granule requested for the stream ring (R122). -/
structure Gran where
  /-- Ordinal of its pass in the run. -/
  pass : Nat
  /-- Index within the pass. -/
  g : Nat
  /-- Completed: time, and per word of the granule its data, with poison per 32-byte half-line. -/
  done : Option Nat := none
  words : List W32 := []
  poison : List Bool := []
  /-- Errors of its 64-bit words in the ring: 1 single-bit, 2 uncorrectable; a word beyond the list has none (R130). -/
  err : List Nat := []
  /-- A line at or beyond the region or HBM (R116). -/
  range : Bool := false
  /-- Its presence check is made, and whether it was found missing. -/
  checked : Bool := false
  missing : Bool := false
  deriving DecidableEq, Repr

/-- A pass that is playing or fixed: the entry as read. -/
structure Pass where
  /-- Ordinal of the pass in the run. -/
  ord : Nat
  /-- Number of the entry. -/
  entry : Nat
  /-- Words 0 to 3 of the entry as read. -/
  w0 : W32
  w1 : W32
  w2 : W32
  w3 : W32
  /-- Passes of the entry left after this one. -/
  left : Nat
  /-- First pass of the entry since it was fixed from another entry or a branch (R163). -/
  first : Bool
  /-- Pass of the entry, from 0. -/
  num : Nat
  deriving DecidableEq, Repr

/-- States of a running or armed lock group (EYE_SEQ_STS.STATE). -/
inductive GState where
  | armed | running | waiting
  deriving DecidableEq, Repr

/-- A lock group from its GO to its stop (R154 to R165). -/
structure Group where
  /-- The eyelet whose page takes the commands (R154). -/
  leader : Nat
  /-- Eyelets of the group, the leader among them. -/
  members : List Nat
  /-- Armed, running or waiting in a SYNC entry. -/
  st : GState
  /-- Lace tag it is armed with, START_MODE 1. -/
  tag : Option Nat := none
  /-- The first vector has begun. -/
  begun : Bool := false
  /-- Pass in play, or to be played first. -/
  cur : Pass
  /-- Passes fixed after it, in order. -/
  queue : List Pass := []
  /-- The chain ends after the last fixed pass; 0 or the status of a contained stop. -/
  stopAfter : Option Nat := none
  /-- Index of the next vector to begin in the current pass. -/
  vec : Nat := 0
  /-- Time at which it begins, fraction units. -/
  at_ : Nat := 0
  /-- Vectors begun since the start, and the count at which the last fixed pass ends (R146). -/
  vcount : Nat := 0
  tail : Nat := 0
  /-- Ordinal of the next pass to be fixed. -/
  nextOrd : Nat := 1
  /-- STOP written: the chain ends at the next decision point (R161). -/
  stopPend : Bool := false
  /-- ABORT written: earliest boundary, fraction units. -/
  abortAt : Option Nat := none
  /-- Event latches set: (COND, PSEL). -/
  latch : List (Nat × Nat) := []
  /-- Events of the core cycle in which the last one arrived: the cycle, COND, and what ARG is compared with (R149). -/
  recent : List (Nat × Nat × Nat) := []
  /-- FAIL_ALL and TIME have become true in this run (R148). -/
  allMet : Bool := false
  timeMet : Bool := false
  /-- In a match loop: MATCH has become true in it (R148, R152). -/
  loop : Option Bool := none
  /-- AUTO_MASK at the GO (R157). -/
  autoMask : Bool := false
  /-- Sites whose first fail has reached the sequencer and that wait for a granule boundary, with the core cycle of the
  arrival (R157); the sites the group has auto-masked. -/
  toMask : List (Nat × Nat) := []
  masked : List Nat := []
  /-- Sites with a fail recorded in this run that has reached the sequencer. -/
  failed : List Nat := []
  /-- Enabled channels at the start that are still in the run: (eyelet, channel bits). -/
  chans : List (Nat × Nat) := []
  /-- Sites with a channel in the run. -/
  sites : List Nat := []
  /-- Hold vectors left in the hold granule in play, and hold granules inserted for the missing granule. -/
  holdLeft : Nat := 0
  holds : Nat := 0
  /-- The vector in play belongs to a hold granule. -/
  holdOn : Bool := false
  /-- Orderly thermal stop: latest park time, and the cause status. -/
  thermal : Option Nat := none
  /-- Window slots of the BURSTs that run on it. -/
  slots : List Nat := []
  /-- Time at which the first vector began, fraction units. -/
  startT : Nat := 0
  deriving DecidableEq, Repr

/-- A vector of an eyelet with judgements open or fails recorded (R200). -/
structure VecRec where
  /-- Ordinal of the vector in the run. -/
  vid : Nat
  /-- Its vector boundary, fraction units. -/
  vb : Nat
  /-- Entry, pass and vector of the record. -/
  entry : Nat
  pass : Nat
  vec : Nat
  /-- Channels that failed; their observed states; how many judgements failed. -/
  fail : Nat := 0
  obs : Nat := 0
  nfail : Nat := 0
  /-- Bits of channels with a judged, agreeing strobe and none disagreeing: match bookkeeping (R151). -/
  agree : List Nat := []
  disagree : List Nat := []
  /-- The vector belongs to a pass of a match loop. -/
  mloop : Bool := false
  deriving DecidableEq, Repr

/-- Buffer, fail log and synchronisation of an eyelet. -/
structure EyeDyn where
  /-- Granules requested, oldest first (R122). -/
  gran : List Gran := []
  /-- The load in progress: source address, first resident line, lines (R120). -/
  load : Option (Nat × Nat × Nat) := none
  /-- Vectors whose judgements are open or not yet recorded (R200). -/
  vecs : List VecRec := []
  /-- Fail-log queue, oldest first. -/
  flogQ : List (List W32) := []
  /-- Records lost at a full queue, and the position words of the first. -/
  flogLost : Nat := 0
  flogLostPos : List W32 := []
  /-- Records discarded at a full ring, and the position words of the first. -/
  ringLost : Nat := 0
  ringLostPos : List W32 := []
  /-- AT armed: value and arming time, fraction units (R163). -/
  sync : Option (Nat × Nat) := none
  /-- COND_ARGp written since the last decision point (R149). -/
  argNew : List Nat := []
  /-- Half-lines and words already counted in this pass (R131). -/
  counted : List Nat := []
  /-- Every slot of the fail-log ring has been written since the enable (R201). -/
  flogAround : Bool := false
  /-- End of the linger time of a lone record in the fail-log queue, in the device's own time (R202, R222). -/
  flogLinger : Nat := 0
  deriving DecidableEq, Repr

/-! ## DDS units (R167 to R187) -/

/-- A frame of the level port (R184). -/
structure PelFrame where
  /-- The 16 bits of the frame. -/
  word : Nat
  /-- A software frame; otherwise an amplitude frame. -/
  sw : Bool
  /-- Hop instant of an amplitude frame, UI. -/
  hop : Nat
  /-- The pass on whose segment boundary that instant still depends. -/
  seg : Option Nat := none
  deriving DecidableEq, Repr

/-- A DDS unit. -/
structure DdsDyn where
  /-- START_MODE and START_TAG at the GO (R180). -/
  mode : Nat := 0
  tag : Nat := 0
  /-- Start time T, UI, once known. -/
  startT : Option Nat := none
  /-- The unit runs. -/
  on : Bool := false
  /-- STOP was written: the output ends at its next falling edge. -/
  stop : Bool := false
  /-- Words of the entry in force, hop instant (UI) and phase at it. -/
  cur : List W32 := []
  at_ : Nat := 0
  phase : Nat := 0
  /-- Half cycles passed since the hop instant. -/
  half : Nat := 0
  /-- Output level. -/
  level : Bool := false
  /-- Last placed edge, fraction units; the rising edges placed in the last 256 UI that are the first of their 16-UI
  window of the dwell (R102). -/
  lastEdge : Option Nat := none
  rises : List Nat := []
  /-- Successor entry, its hop instant (UI) if known, and the pass whose boundary makes a SEG hop. -/
  succ : Option Nat := none
  hopAt : Option Nat := none
  segOrd : Option Nat := none
  /-- SEG_OFS at the decision point that fixed that boundary; the hop is a TIME hop. -/
  segOfs : Nat := 0
  timed : Bool := false
  /-- An uncorrectable entry was read: no further hop. -/
  stuck : Bool := false
  /-- Plays of a loop that are left, by entry (R174). -/
  left : Tab Nat := []
  /-- TIME values queued by software, oldest first. -/
  hopQ : List Nat := []
  /-- The pending amplitude set, which has not begun, with the first UI at which it may begin; the frames left of the set
  that has begun (R186). -/
  amp : List PelFrame := []
  ampFrom : Nat := 0
  ampCur : List PelFrame := []
  /-- Pending software frame and the UI of its GO. -/
  sw : Option (PelFrame × Nat) := none
  /-- Frame in progress and its end, UI. -/
  frame : Option (PelFrame × Nat) := none
  /-- First UI at which the port may begin a frame. -/
  free : Nat := 0
  deriving DecidableEq, Repr

/-! ## Awls (R208 to R233) -/

/-- A stamp on its way to its destinations (R212). -/
structure Stamp where
  /-- Channel; edge code. -/
  ch : Nat
  edge : Nat
  /-- Value, fraction units. -/
  v : Nat
  deriving DecidableEq, Repr

/-- The awl and the stream of a channel. -/
structure AwlDyn where
  /-- Last converted transition of each input, fraction units. -/
  lastH : Option Nat := none
  lastL : Option Nat := none
  /-- Words of the stream queue, oldest first. -/
  q : List W32 := []
  /-- EPOCH_H and EPOCH last written, as UI bits 63:17. -/
  epoch : Option Nat := none
  /-- Words lost at a full queue and not yet written as a LOST word; transitions missed; words lost at a full ring (R210,
  R217). -/
  lost : Nat := 0
  miss : Nat := 0
  ringLost : Nat := 0
  /-- UI bits 63:17 as the words that have left the queue give them; both EPOCH words are due ahead of the next STAMP or
  GATE word, after a LOST word of the ring. -/
  ringEpoch : Nat := 0
  again : Bool := false
  /-- End of the linger time of the partial burst at the end of the queue, in the device's own time (R222). -/
  linger : Nat := 0
  /-- Stamps of a gated channel whose gate is not decided yet, ascending (R226). -/
  wait : List Stamp := []
  deriving DecidableEq, Repr

/-- The gate of a quadrant (R225): the last gates, newest first, as open and close times in UI. -/
abbrev GateDyn := List (Nat × Option Nat)

/-- An interval unit (R227 to R232). -/
structure IuDyn where
  /-- Images of its registers, taken at the ARM. -/
  ctl : W32 := 0
  src : W32 := 0
  tmo : W32 := 0
  /-- TA, fraction units. -/
  ta : Nat := 0
  /-- Start that waits for a stop that came first, or stop that waits for its start; start of the pair in progress; its
  deadline, fraction units (R228). -/
  held : Option Nat := none
  t0 : Nat := 0
  deadline : Nat := 0
  /-- SEQ of the next result; MISS of the next result. -/
  seq : Nat := 0
  miss : Bool := false
  /-- Members of the average in progress: interval, TIE, ORDER; and the TMO members left out. -/
  members : List (Int × Bool × Bool) := []
  excl : Nat := 0
  /-- Gate of a frequency unit: open and close, fraction units; the edges that no gate has taken yet. -/
  gs : Nat := 0
  ge : Option Nat := none
  edges : List Nat := []
  /-- Result entries in the queue, oldest first; the hold words of a pop. -/
  results : List (List W32) := []
  hold : List W32 := []
  /-- Window slot and destination of the MEASURE ticket it runs for. -/
  owner : Option (Nat × Nat) := none
  deriving DecidableEq, Repr

/-- A tracking loop beside its registers (R65 to R70). -/
structure TrackDyn where
  /-- Rising edges not yet taken by a window: instant on the device timeline, and stamp. -/
  edges : List (Nat × Nat) := []
  /-- Boundary at which the loop's last window ended, in 64 UI. -/
  win : Option Nat := none
  /-- Integrator of the loop, in 1/16 fraction unit. -/
  integ : Int := 0
  /-- Consecutive samples within LOCK_THR, and consecutive windows without an edge. -/
  good : Nat := 0
  gone : Nat := 0
  /-- Offset in 1/16 fraction unit. -/
  ofs : Int := 0
  /-- The next sample sets REF. -/
  auto : Bool := false
  deriving DecidableEq, Repr

/-- A Welt packet (R350): SEQ; 0 TRIG, 1 LACE, 2 capture; its fields after SEQ; its length in blocks. -/
structure WPkt where
  /-- SEQ of the packet. -/
  seq : Nat
  /-- 0 TRIG, 1 LACE, 2 capture; its fields after SEQ; its length in blocks. -/
  kind : Nat
  ws : List Nat
  blocks : Nat
  deriving DecidableEq, Repr

/-- A Welt link beside its registers (R347 to R360). -/
structure WltDyn where
  /-- Packets sent and not acknowledged, oldest first. -/
  replay : List WPkt := []
  /-- SEQ of the next packet sent. -/
  txSeq : Nat := 0
  /-- SEQ expected next; packets accepted and not acknowledged; a NAK is out. -/
  rxSeq : Nat := 0
  due : Nat := 0
  nak : Bool := false
  /-- Replays without progress. -/
  tries : Nat := 0
  /-- Messages that wait for the end of an exit from sleep: kind and fields. -/
  waitq : List (Nat × List Nat) := []
  /-- Send in progress: source, far offset and length left, in 32-byte units. -/
  caps : Option (Nat × Nat × Nat) := none
  /-- Lane of a scan in progress. -/
  scan : Option Nat := none
  deriving DecidableEq, Repr

/-- A pulse generator (R369): due times from START on, in UI or 2^-32 ns. -/
structure PgDyn where
  /-- It runs. -/
  run : Bool := false
  /-- SRC 1. -/
  clock : Bool := false
  /-- Next due time and period. -/
  next : Nat := 0
  period : Nat := 0
  /-- Pulses left; none: no end. -/
  left : Option Nat := none
  /-- EVT pin and pulse width, in 64 UI. -/
  pin : Nat := 0
  width : Nat := 0
  deriving DecidableEq, Repr

/-- The precision-time clock (R366 to R369): its value in 2^-32 ns at a core cycle, and the slew left there. -/
structure PtpDyn where
  /-- Value at a core cycle, and that cycle. -/
  base : Nat := 0
  at_ : Nat := 0
  /-- Slew left, in 2^-32 ns. -/
  rem : Int := 0
  /-- Pulse generators. -/
  pgs : Tab PgDyn := []
  deriving DecidableEq, Repr

/-- The lace and holdover beside their registers (R45, R53, R60). -/
structure LaceDyn where
  /-- ALIGN received: sequence number, armed at its reference instant, time of its edge in fraction units. -/
  align : Option (Nat × Bool × Nat) := none
  /-- Time at which the last holdover began, fraction units of the device's own time. -/
  holdT : Nat := 0
  /-- Phase of the REFIN rising edges on the timeline: their value modulo 64 UI, in fraction units (R48). -/
  phase : Nat := 0
  /-- The receiver: below 4 bits the last bits of the hunt for SYNC, from 4 on the bits of the frame being received. -/
  rx : List Bool := []
  /-- The bit of LACE_IN sampled last. -/
  line : Bool := false
  /-- The frame being sent: its bits, and the instant at which bit 0 leaves, fraction units. -/
  tx : Option (List Bool × Nat) := none
  deriving DecidableEq, Repr

/-- A fail on its way to the sequencers, trigger engines and EVT outputs (R204). -/
structure FailMsg where
  /-- Channel, if it is of one; site. -/
  ch : Option Nat
  site : Nat
  /-- Instant of the fail, fraction units. -/
  t : Nat
  /-- It is the first fail of its site in the run. -/
  first : Bool
  deriving DecidableEq, Repr

/-! ## Trigger engines (R234 to R253) -/

/-- A stamp run of a channel and edge code in an Average interval: first, last, count, least and greatest spacing. -/
structure AvgRun where
  /-- First and last stamp, count, least and greatest spacing, fraction units. -/
  first : Nat
  last : Nat
  n : Nat
  least : Nat
  most : Nat
  deriving DecidableEq, Repr

/-- A trigger taken whose record is not yet written. -/
structure TrigPend where
  s : Nat
  level : Nat
  term : Nat
  forced : Bool
  met : Nat
  deriving DecidableEq, Repr

/-- A record in an engine's write queue: its index, its words, and the instant (UI) and log2 D that it stands for. -/
structure AcqRec where
  /-- Index of the record and its words. -/
  idx : Nat
  ws : List W32
  /-- Instant and log2 D. -/
  ui : Nat
  dlog : Nat
  deriving DecidableEq, Repr

/-- A trigger engine beside its registers. -/
structure TrgDyn where
  /-- B of an ARM not yet reached, UI. -/
  armed : Option Nat := none
  /-- B of the run, and start of the next sample, UI. -/
  start : Nat := 0
  at_ : Nat := 0
  /-- The engine's timer (R238). -/
  timer : Nat := 0
  /-- FORCEs and DISARM that wait for the sample evaluated at or after an instant, fraction units. -/
  forced : List Nat := []
  disarm : Option Nat := none
  /-- Inputs not yet evaluated, each with the sample it is assigned to. -/
  fails : List (Nat × FailMsg) := []
  evt : List (Nat × Nat) := []
  lace : List (Nat × Nat) := []
  welt : List (Nat × Nat) := []
  xquad : List (Nat × Nat) := []
  /-- Segment boundaries not yet evaluated: eyelet of the quadrant, entry, UI. -/
  segs : List (Nat × Nat × Nat) := []
  /-- Stamps not yet evaluated. -/
  stamps : List Stamp := []
  /-- Rebuilt comparator levels by channel j: bit 0 CMPH, bit 1 CMPL. -/
  lvl : Tab Nat := []
  /-- Latest stamp since ARM, by 4j + edge code. -/
  latest : Tab Nat := []
  /-- Matchers that agreed at the UI before. -/
  agreed : List Nat := []
  /-- log2 D that waits for its boundary. -/
  want : Option Nat := none
  /-- Time since which the queue has held DN_LVL lines or fewer, UI. -/
  lowSince : Option Nat := none
  /-- Raw record in progress: its start, UI, and its points, each with a word per selected eyelet. -/
  rawT : Nat := 0
  points : List (List W32) := []
  /-- Raw state at the last raw point, per selected eyelet. -/
  prev : List W32 := []
  /-- Runs of D, by 4j + edge code or eyelet. -/
  runs : Tab Nat := []
  /-- Average runs of the interval in progress, by 4j + edge code. -/
  avg : List (Nat × AvgRun) := []
  /-- Fail records of the judgements not yet stored: eyelet of the quadrant and record. -/
  frecs : List (Nat × VecRec) := []
  /-- Trigger not yet recorded, and records left after the trigger record. -/
  pend : Option TrigPend := none
  left : Option Nat := none
  /-- Records lost since the last record written. -/
  lost : Nat := 0
  /-- UI bits 63:32 of the last marker. -/
  epoch : Nat := 0
  /-- Write queue: records; markers; markers written since ARM. -/
  q : List AcqRec := []
  marks : List (List W32) := []
  mcount : Nat := 0
  /-- Ends of the linger times of the partial bursts of records and of markers, in the device's own time (R222, R249). -/
  linger : Nat := 0
  mlinger : Nat := 0
  /-- Words of the INFO entry of the end, which follows the last write (R246). -/
  info : Option (List W32) := none
  deriving DecidableEq, Repr

/-! ## Analysis engines (R256 to R284) -/

/-- A pointer (R265). -/
structure Ptr where
  /-- Base, word in progress, strides and offset. -/
  base : Nat := 0
  w : Nat := 0
  stride : Int := 0
  inc : Int := 0
  ofs : Int := 0
  deriving DecidableEq, Repr

/-- A frame of the sequencer's stack: an open block with plays left, or a call. -/
inductive Frame where
  | block (first last left : Nat)
  | call (ret : Nat)
  deriving DecidableEq, Repr

/-- A load on its way: destination register, per lane its value and whether its word was poisoned, and how many words have
ended since it was issued, its own included. -/
structure LaneLoad where
  /-- Destination register. -/
  dst : Nat
  /-- Per lane its value and whether its word was poisoned. -/
  vals : List (BitVec 40 × Bool)
  /-- Words that have ended since. -/
  age : Nat := 0
  deriving DecidableEq, Repr

/-- An analysis engine beside its registers. -/
structure AneDyn where
  /-- V registers by 16 * lane + register; ACC by lane; flags as lane bits. -/
  v : Tab (BitVec 40) := []
  acc : Tab (BitVec 40) := []
  f : Nat := 0
  ovf : Nat := 0
  psn : Nat := 0
  /-- K counters (R262). -/
  k : Tab Nat := []
  /-- Pointers (R265). -/
  ptrs : Tab Ptr := []
  /-- Blocks and calls, innermost first. -/
  stack : List Frame := []
  /-- BITS of the run and the block maximum since the last BEXP step (R266). -/
  bits : Nat := 13
  bmax : Nat := 0
  /-- Parts of the current word carried out: bit 0 load, 1 store, 2 lane operation. -/
  parts : Nat := 0
  /-- Results of the current word, not yet readable. -/
  wv : List (Nat × BitVec 40) := []
  wacc : List (Nat × BitVec 40) := []
  /-- Flags and block maximum of the current word. -/
  wf : Option Nat := none
  wb : Nat := 0
  /-- Pointers that advance as the word ends. -/
  winc : List Nat := []
  /-- Loads on their way, oldest first. -/
  loads : List LaneLoad := []
  /-- Stall cycles of the job (R263). -/
  stall : Nat := 0
  /-- Queue of jobs and the job in hand: descriptor, and the window slot of its ANALYZE ticket. -/
  jobq : List (List W32 × Option Nat) := []
  job : Option (List W32 × Option Nat) := none
  /-- Transfers started and not complete, oldest first. -/
  xfers : List Nat := []
  /-- Words of ANE_JOBQ. -/
  win : Tab W32 := []
  /-- Targets that failed a march since device reset and have not passed one since. -/
  badTgt : List Nat := []
  /-- Target of the march in progress (R283). -/
  tgt : Nat := 0
  deriving DecidableEq, Repr

/-- A Welt message in the transmit queue: a TRIG code, or a lace type and payload; the link it came from. -/
structure WMsg where
  /-- A lace message; otherwise a TRIG message. -/
  lace : Bool
  /-- Type and payload, or the code. -/
  typ : Nat
  data : Nat
  /-- SRC, MID, TTL, and the link it came from. -/
  src : Nat
  mid : Nat
  ttl : Nat
  link : Option Nat
  deriving DecidableEq, Repr

/-- A site context: its fail summary (R196, R198) and its site record (R290). -/
structure SiteRec where
  /-- Fail count, UI of the first fail, FINAL (R196, R198). -/
  cnt : Nat := 0
  firstFail : Nat := 0
  final : Bool := false
  /-- What each ticket serving the site has added since its last POST was released: age, status, flags. -/
  adds : List (Nat × Nat × Nat) := []
  /-- Word SUM0 of the site record (R290). -/
  sum0 : W32 := 0
  deriving DecidableEq, Repr

/-- A source that holds an EVT output pin high: until a time, or a level held until released. -/
structure EvtSrc where
  /-- EVT pin. -/
  pin : Nat
  /-- 0 compare, 1 trigger, 2 POST pulse, 3 bin level, 4 pulse generator; and the unit. -/
  kind : Nat
  unit : Nat
  /-- End of the pulse, fraction units; none: held until released. -/
  until_ : Option Nat
  /-- It is high from this instant on, fraction units. -/
  from_ : Nat := 0
  deriving DecidableEq, Repr

/-! ## Scheduler (R286 to R310) -/

/-- Where a ticket stands. -/
inductive TPhase where
  | waiting | ready | slot (core : Nat) | running (core : Nat) | complete
  deriving DecidableEq, Repr

/-- An accepted ticket that is not released. -/
structure Ticket where
  /-- The 16 words of its descriptor, and its window slot. -/
  words : List W32
  slot : Nat
  /-- Order of acceptance. -/
  age : Nat
  /-- Where it stands. -/
  phase : TPhase := .waiting
  /-- Time it became ready, fraction units. -/
  readyAt : Nat := 0
  /-- Its action is finished and it waits for its completion. -/
  fin : Bool := false
  /-- The affinity wait of its present readiness has expired (R295). -/
  late : Bool := false
  /-- It has started on a core: its run-time limit counts from here. -/
  started : Bool := false
  /-- Time of the start, in the device's own time. -/
  beginT : Nat := 0
  /-- Its action is under way. -/
  begun : Bool := false
  /-- A BURST's GO was issued. -/
  goIssued : Bool := false
  /-- Completion status and FLAGS (R291, R307). -/
  status : Nat := 0
  flags : Nat := 0
  /-- Status per site served by a BURST. -/
  siteSt : List (Nat × Nat) := []
  /-- Sites it serves. -/
  served : List Nat := []
  /-- Exposure interval, UI (R300). -/
  expStart : Option Nat := none
  expEnd : Option Nat := none
  /-- Re-run selected and pending (R301). -/
  rerun : Bool := false
  /-- It has been re-run; its further runs through core faults; its completion has been signalled (R301, R303). -/
  ranAgain : Bool := false
  retries : Nat := 0
  signalled : Bool := false
  /-- POST result: bin, site fail count, first-fail UI, payload word 7. -/
  bin : Nat := 0
  pay5 : W32 := 0
  pay6 : W32 := 0
  pay7 : W32 := 0
  /-- Cleared gate (R426). -/
  noGate : Bool := false
  deriving DecidableEq, Repr

/-- A last core. -/
structure CoreDyn where
  /-- Heartbeat limit in force, µs. -/
  wdog : Nat := 100
  /-- Time from which LST_CNT_BUSY counts on, in the device's own time. -/
  busyFrom : Nat := 0
  /-- Old value returned by the core's last scratchpad atomic (R274). -/
  got : W32 := 0
  /-- The last completion of an analysis job that the core received (R279): TAG, the code with the flags in the places of
  ANE_JOB_STS, the cycles used, and the four words of the summary. -/
  comp : List W32 := []
  deriving DecidableEq, Repr

/-- The scheduler beside its registers. -/
structure SchDyn where
  /-- Tickets of the window, by age, and the age of the next. -/
  tickets : List Ticket := []
  nextAge : Nat := 0
  /-- Window slots held by RESULT entries not yet acknowledged. -/
  unacked : List Nat := []
  /-- Words of the submission window. -/
  submit : Tab W32 := []
  /-- Completion counters (R298). -/
  ctr : Tab (BitVec 16) := []
  /-- Last cores. -/
  cores : Tab CoreDyn := []
  /-- By affinity key (129 × flow + site + 1, or 129 × flow): 1 + the core that last ran a ticket with it (R295). -/
  aff : Tab Nat := []
  /-- Flow sequence numbers. -/
  flowSeq : Tab Nat := []
  /-- Re-run records on their way to the scheduler (R108): channel, site, window start and end in UI. -/
  reruns : List (Nat × Nat × Nat × Nat) := []
  /-- Released tickets of flows with GATE 0: flow, sites, exposure in UI (R302). -/
  released : List (Nat × List Nat × Nat × Nat) := []
  /-- Trace records not yet written; records lost; UI bits 63:32 of the last EPOCH record (R308). -/
  trace : List (List W32) := []
  traceLost : Nat := 0
  traceHi : W32 := 0
  /-- End of the linger time of the partial burst of records, in the device's own time (R222). -/
  traceEnd : Nat := 0
  deriving DecidableEq, Repr

/-- The event queue beside its registers (R305, R306). -/
structure EvqDyn where
  /-- Entries on chip, oldest first: words, and the window slot of a RESULT entry. -/
  q : List (List W32 × Option Nat) := []
  /-- Hold words of EVQ_POP. -/
  hold : List W32 := []
  /-- Entries in the host ring not yet acknowledged. -/
  ring : List (Option Nat) := []
  /-- Entries lost and not yet reported. -/
  lost : Nat := 0
  /-- Beside `q`: the end of each entry's linger time, in the device's own time (R222). -/
  ends : List Nat := []
  deriving DecidableEq, Repr

/-! ## Faults (R409 to R437) -/

/-- A cause of device or eyelet heel: scope (eyelet, or 31 the device), page and PG_FLT bit; bit 32: a fatal
self-test failure (R405), 33: a second failing slice at stage 3 (R110). -/
structure Heel where
  /-- Eyelet, or 31 the device. -/
  scope : Nat
  /-- Page and PG_FLT bit. -/
  page : Nat
  src : Nat
  deriving DecidableEq, Repr

/-- The fault collector and the thermal unit beside their registers. -/
structure FltDyn where
  /-- Rises not yet handled by the collector: page, bit. -/
  rises : List (Nat × Nat) := []
  /-- Class and reactions in force by source; an unlisted source has those of R412. -/
  cls : Tab Nat := []
  rxn : Tab Nat := []
  /-- Fault log of 512 records, hold words of a pop, SEQ, records lost (R418, R419). -/
  log : List (List W32) := []
  logHold : List W32 := []
  seq : Nat := 0
  logLost : Nat := 0
  /-- Causes of heel (R423); the stage at the entry to device heel; its leaving is under way (R425). -/
  heels : List Heel := []
  stageAtHeel : Nat := 0
  leaving : Bool := false
  /-- Bits at 1 that drive FAULT_N. -/
  faultN : List (Nat × Nat) := []
  /-- Traps due: SEQ of their log record. -/
  traps : List W32 := []
  /-- Pages whose BLOCK_RESET reaction waits for a vector boundary of their eyelet's group: that boundary, in fraction units
  of the quadrant timeline (R28). -/
  resetDue : List (Nat × Nat) := []
  /-- A CHIP_RESET reaction is due (R414). -/
  chipDue : Bool := false
  /-- FAULT entries of class FATAL not yet written, for the wait of CHIP_RESET. -/
  chipT : Nat := 0
  deriving DecidableEq, Repr

/-! ## PCI Express endpoint (R336 to R346) -/

/-- The endpoint beside its registers. -/
structure PciDyn where
  /-- Link up; D3hot; PERST_N low. -/
  linkUp : Bool := false
  d3 : Bool := false
  perstLow : Bool := false
  /-- MSI-X table words, keyed by 4 * vector + word; an unlisted vector has its mask bit 1. -/
  msix : Tab W32 := []
  /-- Configuration dwords written: command and BARs. -/
  cfg : Tab W32 := []
  /-- Pending bits of the PBA. -/
  pba : List Nat := []
  deriving DecidableEq, Repr

/-! ## HBM (R311 to R335) -/

/-- The two stacks: bytes by physical address (an unlisted byte reads 0), the 32-byte accesses stored with the poison
pattern, and those with an uncorrectable error, by physical address divided by 32. -/
structure HbmDyn where
  /-- Bytes by physical address. -/
  bytes : List Host.Cell := []
  /-- 32-byte accesses that hold the poison pattern. -/
  poison : List Nat := []
  /-- 32-byte accesses with an uncorrectable error. -/
  bad : List Nat := []
  deriving DecidableEq, Repr

/-- An access: port, HBM address, write, resident-area load, fail-log record, drops so far. -/
structure MemAcc where
  port : Nat
  addr : Nat
  wr : Bool
  load : Bool
  log : Bool
  drops : Nat
  deriving DecidableEq, Repr

/-- An access admitted to its pseudo-channel queue (R324): its physical address unless it is a read in the mirrored
window, latency target, core cycle of admission, urgency, grant, and whether that grant is preemptible (`fix`: no
longer, R333). -/
structure QAcc where
  a : MemAcc
  phys : Option Nat
  tgt : Nat
  adm : Nat
  urg : Nat
  grant : Nat
  pre : Bool
  fix : Bool
  deriving DecidableEq, Repr

/-- A crossbar and its HBM controller beside their registers (R311 to R334). -/
structure XbrDyn where
  /-- Accesses ready, in the order in which they became ready. -/
  ready : List MemAcc := []
  /-- Core cycles each port has waited; ports that are forced (R331). -/
  wait : Tab Nat := []
  forced : List Nat := []
  /-- Accesses admitted and not issued, oldest first (R324). -/
  queue : List QAcc := []
  /-- Reads issued, whose data has not returned. -/
  issued : List QAcc := []
  /-- Grants made. -/
  grants : Nat := 0
  /-- Accesses of each port's grants that are not issued whole: grant, port, accesses in order (R328, R333). -/
  kept : List (Nat × Nat × List MemAcc) := []
  /-- Open row + 1 and debt of a bank, by 16 * pseudo-channel + bank; neighbour refreshes drawn: bank and row. -/
  rows : Tab Nat := []
  debt : Tab Nat := []
  nbr : List (Nat × Nat) := []
  /-- The tracker: row and its corrections, by ((pseudo-channel * 16 + bank) * 32768 + row). -/
  track : List (Nat × Nat) := []
  /-- Last request, repair in progress (log index), start of the last repair; fraction units. -/
  last : Nat := 0
  repair : Option Nat := none
  repairT : Option Nat := none
  /-- The stack gives no response. -/
  dead : Bool := false
  deriving DecidableEq, Repr

/-! ## Flash, start-up, sensors and test ports -/

/-- The SPI flash (R396): words by byte address divided by 4, an unlisted word reads erased. -/
structure FlashDyn where
  words : Tab W32 := []
  /-- Command in progress: 1 erase, 2 program, 3 read; word address; data. -/
  op : Option (Nat × Nat × W32) := none
  /-- Slot of a calibration save in progress: 0 A, 1 B. -/
  save : Option Nat := none
  /-- The stored repair list (R406): stack and the row's place in it, MEM_REPAIR_LOG bits 23:0. -/
  rlist : List (Nat × Nat) := []
  deriving DecidableEq, Repr

/-- Start-up beside its registers (R390 to R407). -/
structure BootDyn where
  /-- The die is held in reset: a rail is not valid, RESET_N is low, or TEST_EN reads high. -/
  held : Bool := false
  /-- TEST_EN reads high: the die holds itself in power-on reset (R455). -/
  test : Bool := false
  /-- The next bring-up of the stacks resumes them (R406). -/
  resume : Bool := false
  /-- The host wrote MEM_MIRROR while the stage was held at 2 (R406), or MEM_DLY after a fall (R404). -/
  mirror : Bool := false
  dly : Bool := false
  /-- The last reset was by the watchdog (R408). -/
  wdog : Bool := false
  deriving DecidableEq, Repr

/-- A temperature sensor beside its registers (R428 to R430). -/
structure Sensor where
  /-- A valid reading has been taken, and its value. -/
  last : Option Nat := none
  /-- Consecutive invalid samples; valid samples while BAD; samples below the fast level while fast. -/
  invalid : Nat := 0
  valid : Nat := 0
  below : Nat := 0
  /-- WARN and STOP crossed and not yet below their limit less HYST. -/
  warn : Bool := false
  stop : Bool := false
  deriving DecidableEq, Repr

/-- The sensors, by their number (24 and 25: the stacks); the orderly stops in progress: sample time in fraction units,
scope (an eyelet, or 31 the device), PG_FLT bit of its source (R431); time of the TRIP, and whether the PLL outputs are
gated off (R432). -/
structure ThmDyn where
  /-- Sensors. -/
  sensors : Tab Sensor := []
  /-- Orderly stops in progress. -/
  stops : List (Nat × Nat × Nat) := []
  /-- Time of the TRIP. -/
  tripT : Option Nat := none
  /-- PLL outputs are gated off. -/
  gated : Bool := false
  deriving DecidableEq, Repr

/-- The test access port (R468, R469): instruction register; the balls belong to the boundary register, which holds the
die in reset; the boundary register. -/
structure JtagDyn where
  /-- Instruction register. -/
  ir : BitVec 8 := 1
  /-- The balls belong to the boundary register. -/
  taken : Bool := false
  /-- Boundary register. -/
  bsr : Nat := 0
  deriving DecidableEq, Repr

/-! ## The reasons a step can stop -/

/-- Faults of the model. No command of this block stops with a fault. -/
inductive Fault where
  deriving DecidableEq, Repr

/-- Refusals of the model. -/
inductive Refusal where
  /-- A command the model gives no meaning yet; safe. Raised by the dispatch only. -/
  | notModelled (mnemonic : String)
  deriving DecidableEq, Repr

/-! ## The state -/

/-- The state of the device. -/
structure State where
  /-- Commands that wait, first in, first out. -/
  pending : List Instr := []
  /-- The timeline in fraction units (R9, R10), and whether it runs (R47). -/
  now : Nat := 0
  tlOn : Bool := false
  /-- What the timeline had counted at its zeroings: `era + now` is the device's own time, which a zeroing does not touch (the
  model's own field). Instants from which a duration counts are kept in it: those of tickets and cores, of the Welt
  messages, the thermal stops, the crossbars' admissions and repairs, the lingers, the dwells and takeover decisions. -/
  era : Nat := 0
  /-- Every register, keyed by its BAR0 offset; an unlisted register reads its reset value. -/
  regs : Tab W32 := []
  /-- The word in force of a register whose written L fields wait for their boundary (R20). -/
  held : Tab W32 := []
  /-- Captured upper parts of wide registers, keyed by the offset of the _HI register (R15). -/
  caps : Tab W32 := []
  /-- What has left the device, in order. -/
  out : List Out := []
  /-- Pages whose block reset runs (R444). -/
  resetting : List Nat := []
  /-- Free values consumed so far (the model's own field). -/
  free : Nat := 0
  flt : FltDyn := {}
  evq : EvqDyn := {}
  sch : SchDyn := {}
  pci : PciDyn := {}
  hbm : HbmDyn := {}
  groups : List Group := []
  chan : Tab ChanDyn := []
  spr : Tab SprDyn := []
  eye : Tab EyeDyn := []
  site : Tab SiteRec := []
  fails : List FailMsg := []
  evtSrc : List EvtSrc := []
  evtIn : Nat := 0
  dds : Tab DdsDyn := []
  stamps : List Stamp := []
  awl : Tab AwlDyn := []
  gate : Tab GateDyn := []
  iu : Tab IuDyn := []
  track : Tab TrackDyn := []
  lace : LaceDyn := {}
  ptp : PtpDyn := {}
  xbr : Tab XbrDyn := []
  /-- Live slot tables by x * 512 + 256 * (1 for B) + w, live scramble masks by x * 16 + i, PHY delays by
  x * 256 + 32 * lane + pseudo-channel. -/
  slotL : Tab W32 := []
  scrL : Tab W32 := []
  memDly : Tab W32 := []
  trg : Tab TrgDyn := []
  ane : Tab AneDyn := []
  /-- Scratchpads by q * 2^18 + word, and their poisoned words; microcode bytes as written, by (q * 16384 + n) * 32 + byte,
  and the words that can be fetched, by (q * 16384 + n) * 8 + word. -/
  spad : Tab W32 := []
  spadPoison : List Nat := []
  ucBytes : Tab Byte := []
  ucode : Tab W32 := []
  /-- Welt transmit queue (R352) and the MID of the next message of this device. -/
  wq : List WMsg := []
  wmid : Nat := 0
  wlt : Tab WltDyn := []
  /-- LAST by SRC: the MID and the time of the last message received from it, fraction units (R353). -/
  wlast : List (Nat × Nat × Nat) := []
  /-- The device sends no message before this time: 20 ms after a reset, then 256 UI after the last one. -/
  wquiet : Nat := 131072000000
  /-- Tables (R21): shadow and live copies. Waveforms by c * 8192 + word, segment table by word, DDS lists by
  e * 16384 + word, direction maps by e * 256 + m (the shadow copy is EYE_DMAP). -/
  wftS : Tab W32 := []
  wftL : Tab W32 := []
  /-- Invalid records of the shadow waveform tables (R80), by c * 1024 + record: word * 8 + reason. -/
  wftBad : Tab Nat := []
  segS : Tab W32 := []
  segL : Tab W32 := []
  ddsS : Tab W32 := []
  ddsL : Tab W32 := []
  dmapL : Tab (BitVec 16) := []
  /-- Regions of a pending segment-table commit (R141). -/
  segPend : List Nat := []
  /-- Regions whose copy after a commit is in progress (R142). -/
  segCopy : List Nat := []
  /-- Resident areas by e * 491520 + word, and poisoned half-lines by e * 61440 + half-line (R119, R120). -/
  res : Tab W32 := []
  resPoison : List Nat := []
  /-- Calibration (R373 to R385): image words of the shadow and the live copy, target and
  correction in force in 1/256 fraction unit, and correction applied, in fraction units, by 16c + class; the spare of
  eyelet e by 8192 + 128e + 5p + class, its taps by 8192 + 128e + 80 + i. -/
  calS : Tab W32 := []
  calL : Tab W32 := []
  calT : Tab Int := []
  calF : Tab Int := []
  calA : Tab Int := []
  /-- The words of the live image, and of the shadow image, that are not listed are those of the factory default (R403);
  MEM_DLY holds the factory data, but for the entries listed. -/
  calFac : Bool := false
  calSFac : Bool := false
  dlyFac : Bool := false
  flash : FlashDyn := {}
  boot : BootDyn := {}
  thm : ThmDyn := {}
  jtag : JtagDyn := {}
  /-- Address assigned on the SMBus (R470). -/
  smb : Option (BitVec 7) := none
  /-- Words of on-chip memories with an error: 1 single-bit, 2 uncorrectable; keyed by table * 2^40 + key
  (0 segment, 1 waveform, 2 resident, 3 DDS list, 4 microcode, 5 scratchpad, 6 calibration, 7 words of the stream queues
  by 64 * channel + place, 8 shadow DDS lists, 9 shadow calibration image, 10 channel counts, 11 site summaries). -/
  upset : Tab Nat := []
  /-- Poisoned words delivered by the queues of a block, by its page (R221). -/
  parity : Tab Nat := []
  deriving DecidableEq, Repr

/-- The state right after reset. -/
def State.reset : State := {}

end Sys2Proof.Machine
end

