-- ==== Sys2Proof/Machine/Ops.lean ====
section
/-!
DEFINITION. The named operations over the register file, time, MSI-X, the event queue, the fault log and the fault
collector's record of a rise, on which every meaning is built.
-/
namespace Sys2Proof.Machine

open Sys2Proof

/-! ## Pages and registers -/

/-- The page number of instance `i` of block type `t` (R439). -/
def pg (t i : Nat) : Nat := t * 256 + i

/-- The timebase page. -/
def tbsPg : Nat := pg T.tbs 0

/-- A page exists when its type is not reserved and its instance lies below the block's count (R439). -/
def pagePresent (p : Nat) : Bool := decide (p % 256 < instances (p / 256))

/-- The register group covers the offset. -/
def Reg.covers (r : Reg) (ofs : Nat) : Bool :=
  decide (r.ofs ≤ ofs) &&
    (let d := ofs - r.ofs
     decide (d / r.s0 < r.n0) && decide ((d % r.s0) / r.s1 < r.n1) && decide ((d % r.s0) % r.s1 = 0))

/-- The register of a page at a byte offset, if the page holds one there (R440, R451). -/
def findReg (p ofs : Nat) : Option Reg :=
  if pagePresent p then
    (if ofs < 0x100 then regsHeader else regsOf (p / 256)).find?
      (fun r => r.covers ofs && (!r.only0 || decide (p % 256 = 0)))
  else none

/-- Highest PG_FLT bit implemented, plus 1. -/
def nsrc (t : Nat) : Nat := (fltSrcs t).foldl (fun m x => max m (x.bit + 1)) 0

/-- Pages with a table committed by PG_COMMIT (R447). -/
def hasShadow (t : Nat) : Bool := [T.glb, T.chn, T.eye, T.dds, T.mem, T.xbr, T.cal].contains t

/-- Pages on which BLOCK_RESET acts (R443). -/
def resettable (t : Nat) : Bool := !([T.glb, T.pci, T.flt, T.sec].contains t)

/-- Pages whose HEEL has eyelet scope (R416). -/
def eyeScope (t : Nat) : Bool := [T.chn, T.spr, T.eye, T.dds, T.cmp, T.tdc].contains t

/-- PG_CAP of a block type (R440). -/
def pgCap (t : Nat) : Nat :=
  nsrc t + 0x100 * b2n (hasShadow t) + 0x200 * b2n (resettable t) + 0x400 * b2n (eyeScope t)
    + 0x800 * b2n (t == T.tbs || t == T.tdc)

/-- Default rank of crossbar port `p` (R326). -/
def portRank (p : Nat) : Nat :=
  if p < 16 then 7 else if p < 32 then 6 else if p < 36 then 5 else if p < 40 then 2
  else if p = 40 then 1 else if p = 41 then 4 else if p = 42 then 0 else if p = 43 then 3 else 4

/-- Default latency target of crossbar port `p`, core cycles (R326). -/
def portTarget (p : Nat) : Nat :=
  if p < 16 then 48 else if p < 36 then 128 else if p < 41 then 512
  else if p = 41 then 96 else if p = 42 then 1024 else 256

/-- The fields' reset values in place. -/
def Reg.reset (r : Reg) : W32 := r.fields.foldl (fun w f => w ||| BitVec.ofNat 32 (f.rst <<< f.lo)) 0

/-- What the register at an offset of a page reads right after reset. -/
def resetWord (p ofs : Nat) : W32 :=
  match findReg p ofs with
  | none => 0
  | some r =>
    let t := p / 256
    if ofs = 0x000 then BitVec.ofNat 32 (0x10000 + p % 256 * 256 + t)
    else if ofs = 0x004 then BitVec.ofNat 32 (pgCap t)
    else if ofs = 0x008 then (if resettable t then 0 else 1)
    else if t = T.glb ∧ ofs = 0x100 then BitVec.ofNat 32 (0x256 + Config.dieRev.toNat * 0x10000)
    else if t = T.glb ∧ ofs = 0x10C then 3
    else if t = T.sec ∧ ofs = 0x100 then BitVec.ofNat 32 (Config.svnMin.toNat * 0x10000)
    else if t = T.sec ∧ 0x110 ≤ ofs ∧ ofs < 0x140 then Config.keyHash ((ofs - 0x110) / 4)
    else if t = T.mem ∧ 0x120 ≤ ofs ∧ ofs < 0x15C then BitVec.ofNat 32 (1 <<< ((ofs - 0x120) / 4))
    else if t = T.mem ∧ 0x200 ≤ ofs then BitVec.ofNat 32 (portTarget ((ofs - 0x200) / 4))
    else if t = T.xbr ∧ 0x300 ≤ ofs ∧ ofs < 0x400 then BitVec.ofNat 32 (portRank ((ofs - 0x300) / 4))
    else r.reset

/-- The key of a register in the register file: its BAR0 offset (R439). -/
def rkey (p ofs : Nat) : Nat := p * 4096 + ofs

namespace State

/-- The value of a register. -/
def rd (s : State) (p ofs : Nat) : W32 := tabGet (resetWord p ofs) s.regs (rkey p ofs)

/-- A register set to a value, whatever its access codes. -/
def wr (s : State) (p ofs : Nat) (v : W32) : State :=
  { s with regs := tabPut (resetWord p ofs) s.regs (rkey p ofs) v }

end State

/-- The bits of a field, in place. -/
def fieldMask (hi lo : Nat) : W32 := (BitVec.allOnes 32 >>> (31 - (hi - lo))) <<< lo

/-- The value of bits `hi:lo` of a word. -/
def fget (w : W32) (hi lo : Nat) : Nat := ((w >>> lo) &&& (BitVec.allOnes 32 >>> (31 - (hi - lo)))).toNat

/-- A word with bits `hi:lo` set to a value. -/
def fset (w : W32) (hi lo v : Nat) : W32 :=
  (w &&& ~~~(fieldMask hi lo)) ||| ((BitVec.ofNat 32 v <<< lo) &&& fieldMask hi lo)

/-- The value of a field in a given word of its register. -/
def Fld.of (f : Fld) (w : W32) : Nat := fget w f.hi f.lo

namespace State

/-- The value of a field of page `p`. -/
def get (s : State) (p : Nat) (f : Fld) : Nat := fget (s.rd p f.ofs) f.hi f.lo

/-- A field of page `p` set to a value. -/
def set (s : State) (p : Nat) (f : Fld) (v : Nat) : State := s.wr p f.ofs (fset (s.rd p f.ofs) f.hi f.lo v)

/-- A one-bit field of page `p` reads 1. -/
def flag (s : State) (p : Nat) (f : Fld) : Bool := decide (s.get p f ≠ 0)

/-- A one-bit field of page `p` set or cleared. -/
def put (s : State) (p : Nat) (f : Fld) (b : Bool) : State := s.set p f (b2n b)

/-- The greatest value a field holds. -/
def fmax (f : Fld) : Nat := 2 ^ (f.hi + 1 - f.lo) - 1

/-- A saturating counter field counts up by `n`. -/
def bump (s : State) (p : Nat) (f : Fld) (n : Nat) : State := s.set p f (satAdd (fmax f) (s.get p f) n)

/-- A 64-bit value in a _LO and _HI pair of registers. -/
def get64 (s : State) (p : Nat) (lo hi : Fld) : Nat := s.get p lo + s.get p hi * 2 ^ 32

/-- A 64-bit value written to a _LO and _HI pair of registers. -/
def set64 (s : State) (p : Nat) (lo hi : Fld) (v : Nat) : State :=
  (s.set p lo (v % 2 ^ 32)).set p hi (v / 2 ^ 32 % 2 ^ 32)

/-- A page's PG_CTL.ENABLE. -/
def enabled (s : State) (p : Nat) : Bool := s.flag p F.PG_CTL_ENABLE

/-- A page's PG_CTL.CFG_LOCK. -/
def locked (s : State) (p : Nat) : Bool := s.flag p F.PG_CTL_CFG_LOCK

/-- A refusal under R19: CFG_ERR is set and the register's offset recorded (R446). -/
def refuse (s : State) (p ofs : Nat) : State :=
  (s.put p F.PG_STS_CFG_ERR true).set p F.PG_CFG_ERR_OFS_OFS ofs

/-! ## L fields that wait for a boundary (R20) -/

/-- The word of a register that is in force. -/
def eff (s : State) (p ofs : Nat) : W32 := tabGet (s.rd p ofs) s.held (rkey p ofs)

/-- The value of a field that is in force. -/
def getEff (s : State) (p : Nat) (f : Fld) : Nat := fget (s.eff p f.ofs) f.hi f.lo

/-- A register's written value comes into force. -/
def inForce (s : State) (p ofs : Nat) : State := { s with held := tabErase s.held (rkey p ofs) }

/-- Every register of a page with an offset in [lo, hi) comes into force. -/
def inForceRange (s : State) (p lo hi : Nat) : State :=
  { s with held := s.held.filter (fun e => !(decide (rkey p lo ≤ e.1) && decide (e.1 < rkey p hi))) }

end State

/-- Bits of a register whose written values wait for a boundary that is not the next use of the register. -/
def deferMask (t ofs : Nat) : W32 :=
  if t = T.tbs ∧ ofs = 0x114 then 0x3FFFF
  else if t = T.tbs ∧ ofs = 0x104 then 0xFF03
  else if t = T.tbs ∧ 0x140 ≤ ofs then (if (ofs - 0x140) % 0x20 = 0 then 0x1001 else if (ofs - 0x140) % 0x20 = 0xC then 0xFFF else 0)
  else if t = T.chn ∧ (ofs = 0x120 ∨ ofs = 0x124) then 0xFFFFFFFF
  else if t = T.eye ∧ ofs = 0x208 then 0xFF1F
  else if t = T.eye ∧ ofs = 0x100 then 0x1C000
  else if t = T.eye ∧ (ofs = 0x140 ∨ ofs = 0x144) then 0xFFFFFFFF
  else if t = T.eye ∧ 0x130 ≤ ofs ∧ ofs < 0x140 then 0xFF
  else if t = T.cmp ∧ (ofs = 0x100 ∨ ofs = 0x108 ∨ ofs = 0x214 ∨ ofs = 0x218 ∨ (0x120 ≤ ofs ∧ ofs < 0x130)) then 0xFFFFFFFF
  else if t = T.evq ∧ ofs = 0x108 then 0xFFFFFFFF
  else if t = T.dds ∧ ofs = 0x124 then 0xFFFF
  else if t = T.trg ∧ (ofs = 0x10C ∨ ofs = 0x160 ∨ (0x114 ≤ ofs ∧ ofs < 0x12C) ∨ (0x170 ≤ ofs ∧ ofs < 0x188) ∨ 0x200 ≤ ofs) then 0xFFFFFFFF
  else if t = T.trg ∧ ofs = 0x100 then 0xBF8
  else if t = T.spr ∧ ofs = 0x100 then 0x1FFFF
  else if t = T.tdc ∧ (ofs = 0x120 ∨ (0x200 ≤ ofs ∧ ofs < 0x280 ∧ ofs % 8 = 4)) then 0xFFFFFFFF
  else 0

/-- Where two words differ in masked bits, the old bits stay in force. -/
def deferred (t ofs : Nat) (old new : W32) : W32 := (new &&& ~~~(deferMask t ofs)) ||| (old &&& deferMask t ofs)

namespace State

/-- The RW bits of a register set to `v`: fields in force at once change, the others wait (R19, R20). -/
def setRW (s : State) (p ofs : Nat) (v : W32) : State :=
  let e := deferred (p / 256) ofs (s.eff p ofs) v
  let s1 := s.wr p ofs v
  if e = v then s1.inForce p ofs
  else { s1 with held := tabPut v s1.held (rkey p ofs) e }

end State

/-! ## The generic register write (R16 to R19, R445, R446) -/

/-- The bits of a register's fields with an access code among those given. -/
def Reg.mask (r : Reg) (a : List Acc) : W32 :=
  r.fields.foldl (fun w f => if a.contains f.acc then w ||| fieldMask f.hi f.lo else w) 0

/-- A write of `v` to the register `r` of page `p`. `bad`: the register's own rules refuse it. The result says whether
the RW fields were accepted. PG_CTL.ENABLE is held apart: see writePgCtl. -/
def regWrite (s : State) (p ofs : Nat) (r : Reg) (v : W32) (bad : Bool) (gov : Bool) : State × Bool :=
  let old := s.rd p ofs
  let mRW := r.mask [.rwS, .rwL]
  let mS := r.mask [.rwS]
  let chS := decide ((old ^^^ v) &&& mS ≠ 0) && gov
  let chL := decide ((old ^^^ v) &&& mRW ≠ 0) && s.locked p
  let keep := old &&& ~~~(v &&& r.mask [.w1c])
  let ones := keep ||| (v &&& r.mask [.w1s])
  if bad || chS || chL then ((s.wr p ofs ones).refuse p ofs, false)
  else ((s.wr p ofs ones).setRW p ofs ((ones &&& ~~~mRW) ||| (v &&& mRW)), true)

/-- The generic write at an offset of a page; offsets without a register ignore it (R339, R451). -/
def writeAt (s : State) (p ofs : Nat) (v : W32) (bad : Bool) : State × Bool :=
  match findReg p ofs with
  | none => (s, false)
  | some r => regWrite s p ofs r v bad (s.enabled p)

namespace State

/-! ## Time (R8 to R10) -/

/-- The timeline's UI count. -/
def ui (s : State) : Nat := s.now / 1024

/-- The timeline moves forward to an instant; it never moves back. -/
def upTo (s : State) (t : Nat) : State := if s.tlOn then { s with now := max s.now t } else s

/-- The device's own time, which a zeroing does not touch. -/
def mono (s : State) : Nat := s.era + s.now

/-- The timeline moves forward to an instant of the device's own time. -/
def upToMono (s : State) (m : Nat) : State := s.upTo (m - s.era)

/-- TBS_LACE_TRIM in force, fraction units (R62). -/
def trim (s : State) : Int := toSigned 18 (s.getEff tbsPg F.TBS_LACE_TRIM_TRIM)

/-- TBS_QOFS of quadrant q, fraction units (R68). -/
def qofs (s : State) (q : Nat) : Int := toSigned 16 (s.get tbsPg (F.TBS_QOFS_OFS.off (0x20 * q)))

/-- An event that stands at a value of quadrant q's timeline meets the ball this much after the device timeline has
that value: the quadrant timeline is the device timeline plus TBS_QOFS (R69), and TRIM moves the ball (R62). -/
def ballShift (s : State) (q : Nat) : Int := s.trim - s.qofs q

/-- The value of quadrant q's timeline for what meets the balls at an instant of the device timeline. -/
def atQ (s : State) (q t : Nat) : Nat := ((t : Int) - s.ballShift q).toNat

/-- The value of quadrant q's timeline for what meets the balls now, and its UI count. -/
def nowQ (s : State) (q : Nat) : Nat := s.atQ q s.now
def uiQ (s : State) (q : Nat) : Nat := s.nowQ q / 1024

/-- The device timeline moves forward to the instant at which a value of quadrant q's timeline meets the balls. -/
def upToQ (s : State) (q v : Nat) : State := s.upTo ((v : Int) + s.ballShift q).toNat

/-- A time in UI from its two halves. -/
def lo32 (n : Nat) : W32 := BitVec.ofNat 32 n
def hi32 (n : Nat) : W32 := BitVec.ofNat 32 (n / 2 ^ 32)

/-- Words found corrupted as they leave a queue of page `p`: each is counted by its block (R221). -/
def parityErr (s : State) (p n : Nat) : State := { s with parity := tabPut 0 s.parity p (tabGet 0 s.parity p + n) }

/-- Something leaves the device. -/
def emit (s : State) (o : Out) : State := { s with out := s.out ++ [o] }

/-- A value the manual leaves open. -/
def fresh (s : State) : Nat × State := (Config.freeValue s.free, { s with free := s.free + 1 })

/-! ## MSI-X (R345, R346) -/

/-- A word of the MSI-X table; a vector's control word has its mask bit 1 until written. -/
def msixWord (s : State) (i : Nat) : W32 := tabGet (if i % 4 = 3 then 1 else 0) s.pci.msix i

/-- A vector is masked in the MSI-X table. -/
def msixMasked (s : State) (v : Nat) : Bool := (s.msixWord (4 * v + 3)).getLsbD 0

/-- An MSI-X message, or its pending bit where it cannot be sent now. -/
def msi (s : State) (v : Nat) : State :=
  if s.pci.linkUp && !s.pci.d3 && !s.msixMasked v then s.emit (.msix v)
  else if s.pci.pba.contains v then s
  else { s with pci := { s.pci with pba := s.pci.pba ++ [v] } }

/-- Pending messages that can be sent now leave. -/
def msiFlush (s : State) : State :=
  if s.pci.linkUp && !s.pci.d3 then
    let go := s.pci.pba.filter (fun v => !s.msixMasked v)
    { s with pci := { s.pci with pba := s.pci.pba.filter (fun v => s.msixMasked v) },
             out := s.out ++ go.map .msix }
  else s

end State

/-- The MSI-X vector of a page (R417). -/
def pageVector (p : Nat) : Nat :=
  let t := p / 256; let i := p % 256
  if t = T.glb then 16 else if t = T.tbs then 17 else if t = T.chn then 32 + i
  else if t = T.spr then 288 + i else if t = T.eye then 304 + i else if t = T.dds then 320 + i
  else if t = T.cmp then 336 + i else if t = T.tdc then 352 + i else if t = T.trg then 368 + i
  else if t = T.ane then 372 + i else if t = T.sch then 376 else if t = T.lst then 384 + i
  else if t = T.mem then 416 + i else if t = T.xbr then 418 + i else if t = T.pci then 420
  else if t = T.wlt then 424 + i else if t = T.eth then 428 + i else if t = T.ptp then 430
  else if t = T.flt then 431 else if t = T.thm then 432 else if t = T.cal then 433
  else if t = T.sec then 434 else 435

/-! ## A rise of a fault source (R414) -/

/-- The fault source of a page. -/
def srcOf (p b : Nat) : FltSrc :=
  match (fltSrcs (p / 256)).find? (fun x => x.bit == b) with
  | some x => x
  | none => ⟨b, 0, 0, 0⟩

namespace State

/-- A source's class in force (R410). -/
def cls (s : State) (p b : Nat) : Nat := tabGet (srcOf p b).cls s.flt.cls (p * 32 + b)

/-- A source's reactions in force, without the fixed ones (R410). -/
def rxn (s : State) (p b : Nat) : Nat := tabGet (srcOf p b).rxn s.flt.rxn (p * 32 + b)

/-- A PG_FLT bit of a page reads 1. -/
def fltBit (s : State) (p b : Nat) : Bool := (s.rd p 0x010).getLsbD b

/-- An occurrence of a fault source. Only a change of its PG_FLT bit from 0 to 1 is a rise. -/
def rise (s : State) (p b : Nat) : State :=
  if s.fltBit p b then s
  else
    let s1 := s.wr p 0x010 (s.rd p 0x010 ||| BitVec.ofNat 32 (1 <<< b))
    { s1 with flt := { s1.flt with rises := s1.flt.rises ++ [(p, b)] } }

/-! ## The fault log (R418, R419) -/

/-- Records other than Fatal rises and heel records. -/
def logOther (ws : List W32) : Bool :=
  let w3 := ws.getD 3 0
  let kind := fget w3 16 14
  !(kind == 4 || kind == 5 || (kind == 1 && fget w3 6 5 == 2))

/-- A record enters the log, or is lost where no entry is free for it. -/
def logPush (s : State) (ws : List W32) : State :=
  let s := { s with flt := { s.flt with seq := s.flt.seq + 1 } }
  let full := decide (512 ≤ s.flt.log.length) ||
    (logOther ws && decide (480 ≤ (s.flt.log.filter logOther).length))
  if full then
    let s1 := { s with flt := { s.flt with logLost := s.flt.logLost + 1 } }
    ((s1.bump (pg T.flt 0) F.FLT_LOG_STS_LOST 1).put (pg T.flt 0) F.FLT_STS_LOG_LOST true).rise
      (pg T.flt 0) X.FLT_LOG_LOST
  else
    let s1 := { s with flt := { s.flt with log := s.flt.log ++ [ws] } }
    s1.set (pg T.flt 0) F.FLT_LOG_STS_DEPTH s1.flt.log.length

/-- A log record of R418. -/
def logRec (s : State) (kind page src cls rxn : Nat) (masked : Bool) : List W32 :=
  [lo32 s.ui, hi32 s.ui, BitVec.ofNat 32 (page * 4096),
   BitVec.ofNat 32 (src + cls * 2 ^ 5 + rxn * 2 ^ 7 + b2n masked * 2 ^ 13 + kind * 2 ^ 14),
   BitVec.ofNat 32 s.flt.seq, 0, 0, 0]

/-- A LOST record enters when room returns. -/
def logRoom (s : State) : State :=
  if s.flt.logLost = 0 then s
  else if 512 ≤ s.flt.log.length ∨ 480 ≤ (s.flt.log.filter logOther).length then s
  else
    let ws := [lo32 s.ui, hi32 s.ui, 0, BitVec.ofNat 32 (6 * 2 ^ 14), BitVec.ofNat 32 s.flt.logLost, 0, 0, 0]
    let s1 := { s with flt := { s.flt with log := s.flt.log ++ [ws], logLost := 0 } }
    s1.set (pg T.flt 0) F.FLT_LOG_STS_DEPTH s1.flt.log.length

/-! ## The event queue (R305 to R307) -/

/-- The class of an entry. -/
def evClass (ws : List W32) : Nat := fget (ws.getD 0 0) 1 0

/-- Entries of a class on chip. -/
def evCount (s : State) (c : Nat) : Nat := (s.evq.q.filter (fun e => evClass e.1 == c)).length

/-- EVQ_STS shows the queue; the watermark notice latches at a rise to the level in force, and where a watermark that has
just taken effect stands at or below the depth (R223). -/
def evqMark (s : State) (new : Bool) : State :=
  let n := s.evq.q.length
  let pr := b2n (s.evCount 0 ≠ 0) + 2 * b2n (s.evCount 1 ≠ 0) + 4 * b2n (s.evCount 2 ≠ 0) + 8 * b2n (s.evCount 3 ≠ 0)
  let live := decide (s.getEff (pg T.evq 0) F.EVQ_WMARK_LEVEL ≤ n)
  let was := s.flag (pg T.evq 0) F.EVQ_STS_WMARK_LIVE
  let s1 := ((s.set (pg T.evq 0) F.EVQ_STS_DEPTH n).set (pg T.evq 0) F.EVQ_STS_PRESENT pr).put (pg T.evq 0) F.EVQ_STS_WMARK_LIVE live
  if live && (new || !was) then s1.put (pg T.evq 0) F.EVQ_STS_WMARK true else s1

def evqSync (s : State) : State := s.evqMark false

/-- The queue has room for an entry of a class (R305): RESULT entries are never lost, 256 of the other 1,024 places are kept
for FATAL and CONTAINED, and FATAL may take any free entry of the 2,048. -/
def evRoom (s : State) (c : Nat) : Bool :=
  let fc := s.evCount 0 + s.evCount 1
  let info := s.evCount 3
  if c = 2 then true
  else if c = 0 then decide (s.evq.q.length < 2048)
  else if c = 1 then decide (fc < 256)
  else decide (info + max fc 256 < 1024)

/-- An entry enters the queue, and EVQ_WMARK takes effect; in MODE 0 its class is signalled (R306). -/
def evPush (s : State) (ws : List W32) (slot : Option Nat) : State :=
  let p := pg T.evq 0
  let c := evClass ws
  if s.evRoom c then
    let new := decide (s.eff p 0x108 ≠ s.rd p 0x108)
    let s1 := s.inForce p 0x108
    let s2 := { s1 with evq := { s1.evq with
      q := s1.evq.q ++ [(ws, slot)], ends := s1.evq.ends ++ [s.mono + max 1 (s.get p F.EVQ_LINGER_LINGER) * 65536] } }.evqMark new
    if s2.flag p F.EVQ_CTL_MODE then s2 else s2.msi c
  else
    let s1 := { s with evq := { s.evq with lost := s.evq.lost + 1 } }
    ((s1.bump p F.EVQ_LOST_COUNT 1).put p F.EVQ_STS_INFO_LOST true).rise p X.EVQ_EVQ_LOST

/-- The words of an entry that comes from no ticket (R307). -/
def evWords (s : State) (cls kind : Nat) (w5 w6 w7 : W32) : List W32 :=
  [BitVec.ofNat 32 (cls + kind * 4), 0, 0, lo32 s.ui, hi32 s.ui, w5, w6, w7]

/-- A LOST entry enters when room returns. -/
def evqRoom (s : State) : State :=
  if s.evq.lost = 0 then s
  else if s.evRoom 3 then
    { s with evq := { s.evq with lost := 0 } }.evPush (s.evWords 3 0x11 (BitVec.ofNat 32 s.evq.lost) 0 0) none
  else s

/-- The place of the oldest entry of the highest class present. -/
def evNext (q : List (List W32 × Option Nat)) : Option Nat :=
  [0, 1, 2, 3].findSome? (fun c => q.findIdx? (fun e => evClass e.1 == c))

/-- That entry leaves the queue. -/
def evTake (s : State) : Option ((List W32 × Option Nat) × State) :=
  match evNext s.evq.q with
  | none => none
  | some i => match s.evq.q[i]? with
    | none => none
    | some e => some (e, { s with evq := { s.evq with q := s.evq.q.eraseIdx i, ends := s.evq.ends.eraseIdx i } })

end State

end Sys2Proof.Machine
end

