-- ==== Sys2Proof/Machine/Hbm.lean ====
section
/-!
DEFINITION. Memory: the HBM of both stacks by logical byte address, the mirrored window, poison, and reads and writes
of bytes and words (R311 to R318, R340).
-/
namespace Sys2Proof.Machine

open Sys2Proof

/-- The canonical form of the HBM contents: addresses strictly rising, no listed byte 0. -/
def Memory.wf (m : List Host.Cell) : Bool := tabWf (fun _ => (0 : Byte)) m

/-- The 32 bytes from `a` on take the values of those from `b` on. -/
def Memory.copyAccess (m : List Host.Cell) (a b : Nat) : List Host.Cell :=
  (List.range 32).foldl (fun n i => tabPut 0 n (a + i) (tabGet 0 m (b + i))) m

def memPg (x : Nat) : Nat := pg T.mem x
def xbrPg (x : Nat) : Nat := pg T.xbr x

/-! ## Address mapping (R312) -/

def hbmPch (a : Nat) : Nat := bits a 8 5 + 16 * bits a 10 10
def hbmStack (a : Nat) : Nat := bits a 9 9
def hbmBank (a : Nat) : Nat := bits a 19 16 ^^^ bits a 23 20
def hbmRow (a : Nat) : Nat := bits a 34 20

/-- The row of an address, as MEM_REPAIR_LOG bits 23:0 name it. -/
def rowKey (a : Nat) : Nat := hbmRow a + hbmPch a * 2 ^ 15 + hbmBank a * 2 ^ 20

/-- 32 GiB. -/
def hbmSize : Nat := 2 ^ 35

namespace State

/-- MEM_MIRROR: base and size of the mirrored window in bytes (R314). -/
def mirrorBase (s : State) : Nat := 2 ^ 28 * s.get (pg T.mem 0) F.MEM_MIRROR_BASE
def mirrorSize (s : State) : Nat := 2 ^ 28 * s.get (pg T.mem 0) F.MEM_MIRROR_SIZE

/-- The logical address lies in the mirrored window. -/
def mirrored (s : State) (a : Nat) : Bool := decide (s.mirrorBase ≤ a) && decide (a < s.mirrorBase + s.mirrorSize)

/-- The logical address lies in the half that cannot be addressed (R316). -/
def aliased (s : State) (a : Nat) : Bool :=
  decide (s.mirrorBase + s.mirrorSize ≤ a) && decide (a < s.mirrorBase + 2 * s.mirrorSize)

/-- Copy `c` of a logical address (R314); outside the window the address itself. -/
def physical (s : State) (a c : Nat) : Nat :=
  if s.mirrored a then
    let o := a - s.mirrorBase
    s.mirrorBase + 2 ^ 20 * (o / 2 ^ 19) + 2 ^ 19 * c + o % 2 ^ 19
  else a

/-- Copies of an address. -/
def copies (s : State) (a : Nat) : List Nat := if s.mirrored a then [s.physical a 0, s.physical a 1] else [a]

/-- A byte at a physical address. -/
def physByte (s : State) (a : Nat) : Byte := tabGet 0 s.hbm.bytes a

/-- An access stored with the poison pattern, or uncorrectable in every copy (R318). -/
def accPoison (s : State) (a : Nat) : Bool :=
  s.hbm.poison.contains (s.physical a 0 / 32) || (s.copies a).all (fun x => s.hbm.bad.contains (x / 32))

/-- A read of the access returns poison (R316, R318). -/
def rdPoison (s : State) (a : Nat) : Bool := s.aliased a || s.accPoison a

/-- The copy a read is delivered from: the first that is not uncorrectable (R315). -/
def rdCopy (s : State) (a : Nat) : Nat :=
  match (s.copies a).find? (fun x => !s.hbm.bad.contains (x / 32)) with
  | some x => x
  | none => s.physical a 0

/-- The byte at a logical address; 0 where it cannot be addressed. -/
def hbmByte (s : State) (a : Nat) : Byte := if s.aliased a then 0 else s.physByte (s.rdCopy a)

/-- One byte written at a logical address, in every copy (R315). -/
def hbmPutByte (s : State) (a : Nat) (v : Byte) : State :=
  { s with hbm := { s.hbm with bytes := (s.copies a).foldl (fun m x => tabPut 0 m x v) s.hbm.bytes } }

/-- The poison pattern of an access set or cleared in every copy; clearing ends an uncorrectable error as well. -/
def hbmSetPoison (s : State) (a : Nat) (p : Bool) : State :=
  let xs := (s.copies a).map (· / 32)
  let poison := s.hbm.poison.filter (fun x => !xs.contains x)
  { s with hbm := { s.hbm with poison := if p then poison ++ xs else poison,
                               bad := s.hbm.bad.filter (fun x => !xs.contains x) } }

/-- ALIAS on the MEM page of the address's stack (R316). -/
def alias_ (s : State) (a : Nat) : State :=
  let p := pg T.mem ((a / 512) % 2)
  (s.put p F.MEM_STS_ALIAS true).rise p X.MEM_ALIAS

/-- The log holds a row. -/
def candLogged (s : State) (x key j : Nat) : Bool :=
  let w := s.rd (memPg x) (0x180 + 4 * j)
  w.getLsbD 25 && fget w 23 0 == key

/-- A row of a stack enters the repair log as a candidate, unless it is there (R319). -/
def candidate (s : State) (x key : Nat) : State :=
  let p := memPg x
  if (List.range 16).any (s.candLogged x key) then s
  else match (List.range 16).find? (fun j => !(s.rd p (0x180 + 4 * j)).getLsbD 25) with
    | none => (s.put p F.MEM_REPAIR_FULL true).rise p X.MEM_REPAIR_FULL
    | some j => (s.wr p (0x180 + 4 * j) (BitVec.ofNat 32 (key + 2 ^ 25))).set p F.MEM_REPAIR_CAND (s.get p F.MEM_REPAIR_CAND + 1)

/-- The read of a read-modify-write: an uncorrectable error in every copy is reported, and its rows are repair candidates; a
stored poison pattern is not reported (R318, R319). -/
def rmwRead (s : State) (a : Nat) : State :=
  let xs := s.copies a
  if s.hbm.poison.contains (s.physical a 0 / 32) || !xs.all (fun x => s.hbm.bad.contains (x / 32)) then s
  else
    let p := pg T.mem ((a / 512) % 2)
    let s := xs.foldl (fun s x => s.candidate (hbmStack a) (rowKey x)) s
    (((s.bump p F.MEM_ECC_UNCORR xs.length).set p F.MEM_ECC_ADDR_LO_ADDR (a % 2 ^ 32 / 32)).set p F.MEM_ECC_ADDR_HI_ADDR
      (a / 2 ^ 32)).rise p X.MEM_ECC_UNCORR

/-- Bytes written within one 32-byte access, whole or in part, sound or poisoned (R318). -/
def hbmPutAccess (s : State) (a : Nat) (bs : List Byte) (ep : Bool) : State :=
  if s.aliased a then s.alias_ a
  else if hbmSize ≤ a then s
  else
    let was := s.accPoison a
    let s := if bs.length < 32 then s.rmwRead a else s
    let s1 := (bs.zipIdx).foldl (fun s b => s.hbmPutByte (a + b.2) b.1) s
    s1.hbmSetPoison a (ep || (was && decide (bs.length < 32)))

/-- Bytes written from a logical address on, access by access; `n` bounds the number of accesses. -/
def hbmPut (s : State) (a : Nat) (bs : List Byte) (ep : Bool) : Nat → State
  | 0 => s
  | n + 1 =>
    if bs.isEmpty then s
    else
      let k := 32 - a % 32
      ((s.hbmPutAccess a (bs.take k) ep).hbmPut (a + k) (bs.drop k) ep n)

/-- The bytes of a word, little-endian (R14). -/
def wordBytes (w : W32) : List Byte :=
  [w.extractLsb' 0 8, w.extractLsb' 8 8, w.extractLsb' 16 8, w.extractLsb' 24 8]

/-- A word from its bytes. -/
def wordOf (b0 b1 b2 b3 : Byte) : W32 :=
  BitVec.ofNat 32 (b0.toNat + b1.toNat * 2 ^ 8 + b2.toNat * 2 ^ 16 + b3.toNat * 2 ^ 24)

/-- Words written from a logical address on. -/
def hbmPutWords (s : State) (a : Nat) (ws : List W32) : State :=
  s.hbmPut a (ws.flatMap wordBytes) false (ws.length / 8 + 2)

/-- A word read at a logical address. -/
def hbmWord (s : State) (a : Nat) : W32 := wordOf (s.hbmByte a) (s.hbmByte (a + 1)) (s.hbmByte (a + 2)) (s.hbmByte (a + 3))

/-- Words read from a logical address on. -/
def hbmWords (s : State) (a n : Nat) : List W32 := (List.range n).map (fun i => s.hbmWord (a + 4 * i))

/-- Reads of an address that cannot be addressed report it (R316). -/
def hbmTouch (s : State) (a : Nat) : State := if s.aliased a then s.alias_ a else s

/-- An address range lies within HBM and outside the half that cannot be addressed. -/
def hbmReach (s : State) (a n : Nat) : Bool :=
  decide (a + n ≤ hbmSize) &&
    (n == 0 || decide (s.mirrorSize = 0) || decide (a + n ≤ s.mirrorBase + s.mirrorSize) ||
      decide (s.mirrorBase + 2 * s.mirrorSize ≤ a))

end State

end Sys2Proof.Machine
end

