-- ==== Sys2Proof/Machine/Judge.lean ====
section
/-!
DEFINITION. Compare: observed states, the judgement of strobes and windows, counts and site summaries, the fail log's
records and queue, and the EVT output pins (R188 to R206, R294).
-/
namespace Sys2Proof.Machine

open Sys2Proof

namespace State

/-! ## Per-instance records -/

def chanOf (s : State) (c : Nat) : ChanDyn := tabGet {} s.chan c
def setChan (s : State) (c : Nat) (d : ChanDyn) : State := { s with chan := tabPut {} s.chan c d }
def eyeOf (s : State) (e : Nat) : EyeDyn := tabGet {} s.eye e
def setEye (s : State) (e : Nat) (d : EyeDyn) : State := { s with eye := tabPut {} s.eye e d }
def siteOf (s : State) (i : Nat) : SiteRec := tabGet {} s.site i
def setSite (s : State) (i : Nat) (d : SiteRec) : State := { s with site := tabPut {} s.site i d }
def ddsOf (s : State) (e : Nat) : DdsDyn := tabGet {} s.dds e
def setDds (s : State) (e : Nat) (d : DdsDyn) : State := { s with dds := tabPut {} s.dds e d }
def sprOf (s : State) (e : Nat) : SprDyn := tabGet {} s.spr e
def setSpr (s : State) (e : Nat) (d : SprDyn) : State := { s with spr := tabPut {} s.spr e d }

/-- The lock group an eyelet belongs to (R154). -/
def groupOf (s : State) (e : Nat) : Option Group := s.groups.find? (fun g => g.members.contains e)

/-- A group replaced by its new state; a group is known by its leader. -/
def setGroup (s : State) (g : Group) : State :=
  { s with groups := s.groups.map (fun h => if h.leader = g.leader then g else h) }

def eyePg (e : Nat) : Nat := pg T.eye e

/-! ## Time of a quadrant in the device's own time -/

/-- A value of a quadrant timeline, and the value of quadrant q's now, counted on over the zeroings (State.era). -/
def ownT (s : State) (v : Nat) : Nat := s.era + v
def ownQ (s : State) (q : Nat) : Nat := s.ownT (s.nowQ q)

/-! ## Channels (R92, R93, R97) -/

/-- CHN_CTL.MODE: 0 timed, 1 serial, 2 paired, 3 clock. -/
def mode (s : State) (c : Nat) : Nat := s.get (pg T.chn c) F.CHN_CTL_MODE
def absorbed (s : State) (c : Nat) : Bool := s.flag (pg T.chn c) F.CHN_STS_ABSORBED
/-- The site of a channel; an absorbed odd channel carries the even channel's (R93). -/
def siteOfCh (s : State) (c : Nat) : Nat :=
  s.get (pg T.chn (if s.absorbed c then c - 1 else c)) F.CHN_CTL_SITE
def chEnabled (s : State) (c : Nat) : Bool := s.enabled (pg T.chn c)

/-- The observed state of a channel (R188). -/
def observed (s : State) (c : Nat) : Nat :=
  let w := s.rd (pg T.cmp (c / 16)) 0x104
  let h := (s.chanOf c).cmpH ^^ w.getLsbD (c % 16)
  let l := (s.chanOf c).cmpL ^^ w.getLsbD (16 + c % 16)
  match h, l with
  | false, false => 0
  | true, true => 1
  | false, true => 2
  | true, false => 3

/-! ## Corrections (R84, R373, R378, R382) -/

/-- Word `i` of the live calibration image (R380). -/
def calWord (s : State) (i : Nat) : W32 := tabGet (if s.calFac then Config.factoryCal i else 0) s.calL i

/-- Key of class `j` of a channel; a channel whose spare has taken over uses the spare's path for classes 0 to 4. -/
def calKey (s : State) (c j : Nat) : Nat :=
  if j < 5 && s.flag (pg T.chn c) F.CHN_STS_TAKEN then 8192 + 128 * (c / 16) + 5 * (c % 16) + j else 16 * c + j

/-- GLB_STAGE. -/
def stage (s : State) : Nat := s.get (pg T.glb 0) F.GLB_STAGE_STAGE

/-- The correction applied at the pins, fraction units; below stage 3 every correction is 0 (R372). -/
def calOf (s : State) (c j : Nat) : Int := if s.stage < 3 then 0 else tabGet 0 s.calA (s.calKey c j)

/-- The eyelet of a correction's key. -/
def calEye (k : Nat) : Nat := if k < 8192 then k / 256 else (k - 8192) / 128

/-- A correction in 1/256 fraction unit rounded to whole fraction units, halves up. -/
def calRound (v : Int) : Int := (v + 128) / 256

/-- One step of an applied correction towards the correction in force. -/
def calStep (a w : Int) : Int := if a < w then a + 1 else if w < a then a - 1 else a

/-- At a vector boundary of an eyelet every applied correction moves by at most 1 fraction unit (R378). -/
def calVector (s : State) (e : Nat) : State :=
  ((s.calF.map (·.1) ++ s.calA.map (·.1)).filter (fun k => calEye k == e)).eraseDups.foldl (fun (s : State) k =>
    { s with calA := tabPut 0 s.calA k (calStep (tabGet 0 s.calA k) (calRound (tabGet 0 s.calF k))) }) s

/-- DRV and DEN after something placed has taken effect on levels `v` and `d` (R79, R89, R90, R94, R168). `role`: the
compare role holds DEN off. -/
def outAfter (typ : Nat) (role v d : Bool) : Bool × Bool :=
  match typ with
  | 1 => (false, d)
  | 2 => (true, d)
  | 3 => (!v, d)
  | 4 => (v, false)
  | 5 => (v, true)
  | 6 => (false, true)
  | 7 => (true, true)
  | 16 => (false, d)
  | 17 => (true, d)
  | 18 => (v, false)
  | 19 => (v, !role)
  | 28 => (false, d)
  | 29 => (true, d)
  | 32 => (v, false)
  | 33 => (v, true)
  | 34 => (false, d)
  | 35 => (true, d)
  | _ => (v, d)

/-- DRV of a channel once its placements have taken effect. -/
def drvAfter (k : ChanDyn) : Bool := k.due.foldl (fun v d => (outAfter d.typ false v false).1) k.drv

/-- The edge class of a stitch, a serial drive or strobe, or a clock edge (R84, R168, R373). A stitch that sets DRV and
DEN together takes the class of its DRV level. -/
def edgeClass (k : ChanDyn) (typ : Nat) : Nat :=
  if typ = 1 ∨ typ = 6 ∨ typ = 16 ∨ typ = 28 then 1
  else if typ = 2 ∨ typ = 7 ∨ typ = 17 ∨ typ = 29 then 0
  else if typ = 3 then (if drvAfter k then 1 else 0)
  else if typ = 4 ∨ typ = 18 then 3
  else if typ = 5 ∨ typ = 19 then 2
  else 4

/-- A placement among those of its channel, in order of time; of equal times the older first. -/
def dueInsert (d : Due) : List Due → List Due
  | [] => [d]
  | x :: r => if x.t ≤ d.t then x :: dueInsert d r else d :: x :: r

/-- A placement of no judgement. -/
def plainDue (c typ t : Nat) : Due :=
  { t := t, typ := typ, exp := 3, own := c, vb := 0, ve := 0, vid := 0, mloop := false, excl := true, gate := false }

/-- The instant at which something placed at `t` leaves the ball. -/
def corrected (s : State) (c typ t : Nat) : Nat := ((t : Int) + s.calOf c (edgeClass (s.chanOf c) typ)).toNat

/-! ## EVT pins (R206, R294) -/

/-- EVTn is an output. -/
def evtIsOut (s : State) (n : Nat) : Bool := s.flag (pg T.sch 0) (F.SCH_EVT_CTL_DIR.off (4 * n))

/-- The level of EVT output n: high while any source holds it. -/
def evtOut (s : State) (n : Nat) : Bool := s.evtIsOut n && s.evtSrc.any (fun x => x.pin == n && decide (x.from_ ≤ s.now))

/-- A source drives an EVT output high until a time, or as a level; an earlier hold of the same source is replaced. -/
def evtDrive (s : State) (x : EvtSrc) : State :=
  if s.evtIsOut x.pin then
    { s with evtSrc := s.evtSrc.filter (fun y => !(y.pin == x.pin && y.kind == x.kind && y.unit == x.unit)) ++ [x] }
  else s

/-- A source releases an EVT output. -/
def evtRelease (s : State) (pin kind unit : Nat) : State :=
  { s with evtSrc := s.evtSrc.filter (fun y => !(y.pin == pin && y.kind == kind && y.unit == unit)) }

/-- A pulse of `w` × 64 UI that begins `d` UI from now; a width of 0 counts as 1. -/
def evtPulse (s : State) (pin kind unit w d : Nat) : State :=
  s.evtDrive ⟨pin, kind, unit, some (s.now + (d + max w 1 * 64) * 1024), s.now + d * 1024⟩

/-! ## The fail log (R200 to R203) -/

/-- The fail log of an eyelet is on. -/
def flogOn (s : State) (e : Nat) : Bool := s.flag (pg T.cmp e) F.CMP_FLOG_CTL_EN

/-- A record takes the next SEQ and is completed with it. -/
def flogSeq (s : State) (e : Nat) (ws : List W32) : List W32 × State :=
  let q := s.get (pg T.cmp e) F.CMP_FLOG_SEQ_SEQ
  (ws ++ [BitVec.ofNat 32 q], s.set (pg T.cmp e) F.CMP_FLOG_SEQ_SEQ ((q + 1) % 2 ^ 32))

/-- Words 0 to 3 of a record (R200). -/
def flogPos (vb entry pass typ vec e : Nat) : List W32 :=
  [lo32 (vb / 1024), hi32 (vb / 1024),
   BitVec.ofNat 32 (entry + min pass 4095 * 2 ^ 17 + typ * 2 ^ 29), BitVec.ofNat 32 (vec + e * 2 ^ 21)]

/-- The position words of a record with its TYPE made LOST. -/
def lostPos (ws : List W32) : List W32 :=
  [ws.getD 0 0, ws.getD 1 0, fset (ws.getD 2 0) 31 29 2, ws.getD 3 0]

/-- A record joins the queue; its linger time counts from now (R202, R222). -/
def flogJoin (s : State) (e : Nat) (r : List W32) : State :=
  let d := s.eyeOf e
  s.setEye e { d with flogQ := d.flogQ ++ [r],
                      flogLinger := s.mono + max 1 (s.get (pg T.cmp e) F.CMP_FLOG_CTL_LINGER) * 64 * 1024 }

/-- The queue takes a record of seven words (R202). -/
def flogOffer (s : State) (e : Nat) (ws : List W32) : State :=
  if !s.flogOn e then s
  else
    let d := s.eyeOf e
    let s :=
      if d.flogLost ≠ 0 ∧ d.flogQ.length < 512 then
        let (r, s1) := s.flogSeq e (d.flogLostPos ++ [BitVec.ofNat 32 d.flogLost, 0, 0])
        (s1.setEye e { d with flogLost := 0, flogLostPos := [] }).flogJoin e r
      else s
    let (r, s) := s.flogSeq e ws
    let d := s.eyeOf e
    if d.flogQ.length < 512 then s.flogJoin e r
    else
      let s := s.setEye e { d with flogLost := d.flogLost + 1,
                                   flogLostPos := if d.flogLost = 0 then lostPos ws else d.flogLostPos }
      let s := s.bump (pg T.cmp e) F.CMP_FLOG_LOST_COUNT 1
      (s.put (pg T.cmp e) F.CMP_STS_LOST true).rise (pg T.cmp e) X.CMP_FLOG_LOST

/-! ## Recording a fail (R193, R196) -/

/-- The fail bit of a site. -/
def siteFailed (s : State) (i : Nat) : Bool := (s.rd (pg T.cmp 0) (0x130 + 4 * (i / 32))).getLsbD (i % 32)

/-- One bit of a register of 32 set or cleared. -/
def setBitAt (s : State) (p ofs b : Nat) (v : Bool) : State :=
  s.wr p ofs (if v then s.rd p ofs ||| BitVec.ofNat 32 (1 <<< b) else s.rd p ofs &&& ~~~(BitVec.ofNat 32 (1 <<< b)))

/-- Errors of a word of a table held on chip: see State.upset. -/
def eccOf (s : State) (tbl key : Nat) : Nat := tabGet 0 s.upset (tbl * 2 ^ 40 + key)

/-- An uncorrectable error in a channel count or a site summary: the BURST of each site it affects, not yet complete, takes
status CMP_ECC (R207). -/
def accUncorr (s : State) (e : Nat) (sites : List Nat) : State :=
  let s := s.rise (pg T.cmp e) X.CMP_ACC_UNCORR
  { s with sch := { s.sch with tickets := s.sch.tickets.map (fun k =>
      if k.phase == .complete then k
      else { k with siteSt := k.siteSt.map (fun x => if x.2 = 0 ∧ sites.contains x.1 then (x.1, 0x13) else x) }) } }

/-- The count of a channel is read with its error: an uncorrectable one leaves a value nothing fixes (R207). -/
def accChan (s : State) (c : Nat) : State :=
  let bad := s.eccOf 10 c
  if bad = 0 then s
  else
    let s := { s with upset := tabErase s.upset (10 * 2 ^ 40 + c) }
    if bad = 1 then s
    else
      let (v, s) := s.fresh
      (s.set (pg T.cmp (c / 16)) (F.CMP_CH_FCNT_COUNT.off (4 * (c % 16))) v).accUncorr (c / 16) [s.siteOfCh c]

/-- The summary of a site is read with its error. -/
def accSite (s : State) (i : Nat) : State :=
  let bad := s.eccOf 11 i
  if bad = 0 then s
  else
    let s := { s with upset := tabErase s.upset (11 * 2 ^ 40 + i) }
    if bad = 1 then s
    else
      let (v, s) := s.fresh
      let (t, s) := s.fresh
      (s.setSite i { s.siteOf i with cnt := v % 2 ^ 24, firstFail := t }).accUncorr 0 [i]

/-- A site's summary takes `n` fails, the first failing vector boundary being `vb` unless an earlier one stands. -/
def siteFail (s : State) (i n vb : Nat) : State :=
  let s := s.accSite i
  let r := s.siteOf i
  let was := s.siteFailed i
  let s := s.setSite i { r with cnt := satAdd (2 ^ 24 - 1) r.cnt n,
                                firstFail := if was then min r.firstFail vb else vb }
  s.setBitAt (pg T.cmp 0) (0x130 + 4 * (i / 32)) (i % 32) true

/-- The record of a vector of an eyelet. -/
def vecRec (s : State) (e vid : Nat) : Option VecRec := (s.eyeOf e).vecs.find? (fun v => v.vid == vid)

/-- A vector's record changed. -/
def modVec (s : State) (e vid : Nat) (f : VecRec → VecRec) : State :=
  let d := s.eyeOf e
  s.setEye e { d with vecs := d.vecs.map (fun v => if v.vid = vid then f v else v) }

/-- A fail of channel `c` in a vector: counts, summary, record, and the event on its way to the fast path. -/
def recordFail (s : State) (c vid vb t obs : Nat) : State :=
  let e := c / 16; let k := c % 16; let p := pg T.cmp e
  let i := s.siteOfCh c
  let first := !s.siteFailed i
  let s := s.accChan c
  let s := s.bump p (F.CMP_CH_FCNT_COUNT.off (4 * k)) 1
  let s := s.setBitAt p 0x110 k true
  let s := s.siteFail i 1 (vb / 1024)
  let s := s.modVec e vid (fun v =>
    { v with fail := setBit v.fail k, nfail := satAdd 255 v.nfail 1,
             obs := if v.fail.testBit k then v.obs else v.obs + obs * 4 ^ k })
  { s with fails := s.fails ++ [⟨some c, i, t, first⟩] }

/-- A strobe, window or serial UI is judged (R189, R193, R151). -/
def judge (s : State) (d : Due) (obs : Nat) (den : Bool) (t : Nat) : State :=
  if d.excl || (d.gate && den) || d.exp == 3 then s
  else
    let e := d.own / 16
    let s := if obs = 3 then
        ((s.put (pg T.cmp e) F.CMP_STS_ILLEGAL true).set (pg T.cmp e) F.CMP_STS_ILL_CH (d.own % 16)).rise (pg T.cmp e) X.CMP_ILLEGAL
      else s
    if d.mloop then
      if obs = d.exp then s.modVec e d.vid (fun v => { v with agree := v.agree ++ [d.own] })
      else s.modVec e d.vid (fun v => { v with disagree := v.disagree ++ [d.own] })
    else if obs = d.exp then s
    else s.recordFail d.own d.vid d.vb t obs

/-! ## Judgements of a vector complete (R151, R200) -/

/-- A judgement of this kind of stitch is still to come. -/
def judges (d : Due) : Bool := d.typ == 8 || d.typ == 9 || d.typ == 10 || (decide (20 ≤ d.typ) && decide (d.typ < 28))

/-- A judgement of the vector is open in the eyelet. -/
def vecOpen (s : State) (e vid : Nat) : Bool :=
  (List.range 16).any (fun k =>
    let c := s.chanOf (16 * e + k)
    c.due.any (fun d => d.vid == vid && judges d) ||
      (match c.win with | some w => w.d.vid == vid | none => false))

def trgOf (s : State) (q : Nat) : TrgDyn := tabGet {} s.trg q
def setTrg (s : State) (q : Nat) (d : TrgDyn) : State := { s with trg := tabPut {} s.trg q d }
/-- STATE of a trigger engine: 0 IDLE, 1 RUN, 2 POST, 3 DONE. -/
def trgState (s : State) (q : Nat) : Nat := s.get (pg T.trg q) F.TRG_STS_STATE
/-- The engine evaluates samples. -/
def trgRuns (s : State) (q : Nat) : Bool := s.trgState q == 1 || s.trgState q == 2

/-- The judgements of a failing vector reach the trigger engine that stores fails (R247, ACQ_MODE 5). -/
def trgFail (s : State) (e : Nat) (v : VecRec) : State :=
  let q := e / 4
  let w := s.eff (pg T.trg q) 0x100
  if s.trgRuns q && fget w 5 3 == 5 && w.getLsbD (6 + e % 4) then
    s.setTrg q { s.trgOf q with frecs := (s.trgOf q).frecs ++ [(e % 4, v)] }
  else s

/-- The FAIL record of a vector (R200). -/
def failRec (e : Nat) (v : VecRec) : List W32 :=
  flogPos v.vb v.entry v.pass 0 v.vec e ++
    [BitVec.ofNat 32 v.fail, BitVec.ofNat 32 v.obs, BitVec.ofNat 32 v.nfail]

/-- A site's match bit set on the page of every member (R151, R156). -/
def setMatch (s : State) (members : List Nat) (i : Nat) (v : Bool) : State :=
  members.foldl (fun s e => s.setBitAt (pg T.eye e) (0x160 + 4 * (i / 32)) (i % 32) v) s

/-- The written mask in force, or the auto-mask, masks the site (R193, R194). -/
def siteMasked (s : State) (i : Nat) : Bool :=
  (s.eff (pg T.cmp 0) (0x120 + 4 * (i / 32))).getLsbD (i % 32) ||
    (s.rd (pg T.cmp 0) (0x150 + 4 * (i / 32))).getLsbD (i % 32)

/-- The sites of the group with a bit of EYE_MATCH at 0 that are not masked (R152). -/
def unmatched (s : State) (g : Group) : List Nat :=
  g.sites.filter (fun i => !s.siteMasked i && !(s.rd (eyePg g.leader) (0x160 + 4 * (i / 32))).getLsbD (i % 32))

/-- The match bits meet MATCH_MODE (R152). -/
def matchBits (s : State) (g : Group) : Bool :=
  let u := g.sites.filter (fun i => !s.siteMasked i)
  if u.isEmpty then false
  else if s.getEff (eyePg g.leader) F.EYE_SEQ_CTL_MATCH_MODE ≠ 0 then decide ((s.unmatched g).length < u.length)
  else (s.unmatched g).isEmpty

/-- MATCH stays true from the moment it becomes true in a match loop until the loop is left (R148). -/
def matchSync (s : State) (g : Group) : Group :=
  { g with loop := g.loop.map (fun m => m || s.matchBits g) }

/-- The vector's records of the members of a group leave; the sites that match in it are set. -/
def matchVec (s : State) (g : Group) (vid : Nat) : State :=
  let vs := g.members.filterMap (fun e => s.vecRec e vid)
  let ok := (vs.flatMap (·.agree)).map s.siteOfCh
  let no := (vs.flatMap (·.disagree)).map s.siteOfCh
  let s := (ok.filter (fun i => !no.contains i)).foldl (fun s i => s.setMatch g.members i true) s
  let s := s.setGroup (s.matchSync g)
  g.members.foldl (fun s e =>
    let d := s.eyeOf e
    s.setEye e { d with vecs := d.vecs.filter (fun v => v.vid != vid) }) s

/-- The judgements of a vector may be complete: its FAIL record is offered, or its matches are found. -/
def closeVec (s : State) (e vid : Nat) : State :=
  match s.vecRec e vid with
  | none => s
  | some v =>
    if v.mloop then
      match s.groupOf e with
      | some g => if g.members.any (fun x => s.vecOpen x vid) then s else s.matchVec g vid
      | none =>
        let d := s.eyeOf e
        s.setEye e { d with vecs := d.vecs.filter (fun v => v.vid != vid) }
    else if s.vecOpen e vid then s
    else
      let d := s.eyeOf e
      let s := s.setEye e { d with vecs := d.vecs.filter (fun v => v.vid != vid) }
      if v.fail = 0 then s else (s.trgFail e v).flogOffer e (failRec e v)

/-- A window closes: it is judged by its first disagreeing instant (R191). -/
def closeWin (s : State) (c : Nat) : State :=
  let d := s.chanOf c
  match d.win with
  | none => s
  | some w =>
    let s := s.setChan c { d with win := none }
    let s := match w.bad with
      | some t => if w.d.mloop then s.judge w.d w.obs w.denOn t else s
      | none => s.judge w.d w.d.exp w.denOn (s.nowQ (c / 64))
    s.closeVec (c / 16) w.d.vid

/-- DEN is turned on by a stitch placed before the window's end, so that the window will not be judged under the DEN
gate (R193). -/
def denComes : List Due → Bool
  | [] => false
  | d :: r => d.typ != 10 && (d.typ == 5 || d.typ == 6 || d.typ == 7 || denComes r)

/-- The observed state or DEN of a channel has changed: an open window sees it, however short the excursion (R191 lets one
shorter than 2 UI be missed: DESIGN CHOICE, log 141). A fail outside a match loop does not wait for the window's end. Once
a window has disagreed, a later illegal state in it is not judged again and sets no ILLEGAL (DESIGN CHOICE, log 142). -/
def seeWin (s : State) (c : Nat) : State :=
  let d := s.chanOf c
  match d.win with
  | none => s
  | some w =>
    let obs := s.observed c
    let t := s.nowQ (c / 64)
    let w1 := { w with denOn := w.denOn || d.den }
    if w.bad.isSome || obs = w.d.exp then s.setChan c { d with win := some w1 }
    else
      let s := s.setChan c { d with win := some { w1 with bad := some t, obs := obs } }
      if w.d.mloop then s else s.judge w.d obs (w1.denOn || denComes d.due) t

end State

end Sys2Proof.Machine
end

