-- ==== Sys2Proof/Machine/Tickets.lean ====
section
/-!
DEFINITION. The ticket window: fields of tickets, dependence counters, trace records, completion, the release gate and
release (R286 to R302, R308).
-/
namespace Sys2Proof.Machine

open Sys2Proof

/-! ## Fields of a ticket (R286, R287) -/

namespace Ticket

def word (k : Ticket) (i : Nat) : W32 := k.words.getD i 0
def typ (k : Ticket) : Nat := fget (k.word 0) 3 0
def flow (k : Ticket) : Nat := fget (k.word 0) 11 4
def site (k : Ticket) : Nat := fget (k.word 0) 18 12
def sited (k : Ticket) : Bool := (k.word 0).getLsbD 19
def report (k : Ticket) : Bool := (k.word 0).getLsbD 20
def waitCtr (k : Ticket) : Nat := fget (k.word 1) 11 0
def waitEn (k : Ticket) : Bool := (k.word 1).getLsbD 12
def sigCtr (k : Ticket) : Nat := fget (k.word 1) 27 16
def sigEn (k : Ticket) : Bool := (k.word 1).getLsbD 28
def tag (k : Ticket) : W32 := k.word 2
def limit (k : Ticket) : Nat := fget (k.word 3) 15 0
def isBurst (k : Ticket) : Bool := k.typ == 1
def isPost (k : Ticket) : Bool := k.typ == 6
/-- A 64-bit value in words i and i + 1. -/
def wide (k : Ticket) (i : Nat) : Nat := (k.word i).toNat + (k.word (i + 1)).toNat * 2 ^ 32
def isComplete (k : Ticket) : Bool := k.phase == .complete
/-- Affinity key: the flow with the site, or the flow alone (R295). -/
def affKey (k : Ticket) : Nat := 129 * k.flow + (if k.sited then k.site + 1 else 0)
/-- The core a ticket runs on. -/
def core (k : Ticket) : Option Nat := match k.phase with | .running n => some n | _ => none
def slotCore (k : Ticket) : Option Nat := match k.phase with | .slot n => some n | _ => none
/-- Sites the ticket serves. -/
def serves (k : Ticket) : List Nat := if k.isBurst then k.served else if k.sited then [k.site] else []
/-- A ticket's own status: a BURST's is that of the lowest-numbered site it serves that does not read OK (R291). -/
def ownStatus (k : Ticket) : Nat :=
  if k.isBurst then
    match (List.range 128).findSome? (fun i => (k.siteSt.find? (fun p => p.1 == i && p.2 != 0)).map Prod.snd) with
    | some v => v
    | none => k.status
  else k.status

end Ticket

namespace State

def ticketAt (s : State) (slot : Nat) : Option Ticket := s.sch.tickets.find? (fun k => k.slot == slot)

def modTicket (s : State) (slot : Nat) (f : Ticket → Ticket) : State :=
  { s with sch := { s.sch with tickets := s.sch.tickets.map (fun k => if k.slot = slot then f k else k) } }

/-- Window slots in use (R299). -/
def inflight (s : State) : Nat := s.sch.tickets.length + s.sch.unacked.length

/-- SCH_STS.INFLIGHT and SCH_CREDIT.FREE show the window. -/
def schSync (s : State) : State :=
  (s.set (pg T.sch 0) F.SCH_STS_INFLIGHT s.inflight).set (pg T.sch 0) F.SCH_CREDIT_FREE (1024 - s.inflight)

/-! ## Trace (R308) -/

/-- SCH_TRACE_CTL selects the records of an event. -/
def traced (s : State) (ev : Nat) : Bool :=
  let w := s.rd (pg T.sch 0) 0x120
  w.getLsbD 0 && w.getLsbD ev

/-- A record stands in the trace queue; the first of a partial burst starts its linger of 1,024 UI (R222). -/
def traceIn (s : State) (ws : List W32) : State :=
  { s with sch := { s.sch with
      trace := s.sch.trace ++ [ws],
      traceEnd := if s.sch.trace.length % 4 = 0 then s.mono + 1048576 else s.sch.traceEnd } }

/-- A trace record enters the 256-record queue, or is lost; a LOST record that is selected goes ahead of the next. -/
def tracePut (s : State) (ws : List W32) : State :=
  let s :=
    if s.sch.traceLost ≠ 0 ∧ s.sch.trace.length < 256 ∧ s.traced 9 then
      let s1 := s.traceIn [lo32 s.ui, BitVec.ofNat 32 9, BitVec.ofNat 32 s.sch.traceLost, 0]
      { s1 with sch := { s1.sch with traceLost := 0 } }
    else s
  if s.sch.trace.length < 256 then s.traceIn ws
  else { s with sch := { s.sch with traceLost := s.sch.traceLost + 1 } }.rise (pg T.sch 0) X.SCH_TRACE_LOST

/-- An event is traced where SCH_TRACE_CTL selects it; an EPOCH record that is selected goes ahead when UI bits 63:32 have
changed. -/
def traceEv (s : State) (ev core : Nat) (k : Ticket) : State :=
  if s.traced ev then
    let hi := hi32 s.ui
    let s := if s.sch.traceHi = hi ∨ !s.traced 0xF then s
      else { s with sch := { s.sch with traceHi := hi } }.tracePut [lo32 s.ui, 0xF, hi, 0]
    s.tracePut
      [lo32 s.ui, BitVec.ofNat 32 (ev + core * 2 ^ 4 + k.flow * 2 ^ 9 + k.site * 2 ^ 17 + k.typ * 2 ^ 24), k.tag,
       BitVec.ofNat 32 (k.slot + k.ownStatus * 2 ^ 10 + k.flags * 2 ^ 18)]
  else s

/-! ## Dependence counters (R293) -/

def ctr (s : State) (n : Nat) : Nat := (tabGet 0 s.sch.ctr n).toNat

/-- Tickets that wait on a counter which reads 0 are ready. -/
def wakeup (s : State) (n : Nat) : State :=
  if s.ctr n ≠ 0 then s
  else
    let go (k : Ticket) : Bool := k.phase == .waiting && k.waitEn && k.waitCtr == n
    let woken := s.sch.tickets.filter go
    let s := { s with sch := { s.sch with tickets := s.sch.tickets.map (fun k =>
      if go k then { k with phase := .ready, readyAt := s.mono } else k) } }
    woken.foldl (fun s k => s.traceEv 2 0 k) s

def ctrPut (s : State) (n v : Nat) : State :=
  { s with sch := { s.sch with ctr := tabPut 0 s.sch.ctr n (BitVec.ofNat 16 v) } }.wakeup n

/-- A decrement: at 0 the value stays and CTR_UFL is set. -/
def ctrDown (s : State) (n : Nat) : State :=
  if s.ctr n = 0 then (s.put (pg T.sch 0) F.SCH_STS_CTR_UFL true).rise (pg T.sch 0) X.SCH_CTR_UFL
  else s.ctrPut n (s.ctr n - 1)

/-! ## Last cores (R296, R297) -/

def lst (n : Nat) : Nat := pg T.lst n
def coreState (s : State) (n : Nat) : Nat := s.get (lst n) F.LST_STS_STATE
def coreOf (s : State) (n : Nat) : CoreDyn := tabGet {} s.sch.cores n
def setCore (s : State) (n : Nat) (d : CoreDyn) : State := { s with sch := { s.sch with cores := tabPut {} s.sch.cores n d } }
/-- SCH_MODE.DISPATCH: 1 ask-and-block. -/
def askMode (s : State) : Bool := s.flag (pg T.sch 0) F.SCH_MODE_DISPATCH

/-- A core takes a ticket to run. -/
def coreTake (s : State) (n : Nat) (k : Ticket) : State :=
  let s := s.modTicket k.slot (fun k => { k with
    phase := .running n, started := true, beginT := if k.goIssued then k.beginT else s.mono })
  let s := if (k.ranAgain || k.retries != 0) && !k.goIssued then s.bump (lst n) F.LST_CNT_FAULT_RERUNS 1 else s
  let s := s.setCore n { s.coreOf n with wdog := s.get (lst n) F.LST_CTL_WDOG, busyFrom := s.mono }
  let s := { s with sch := { s.sch with aff := tabPut 0 s.sch.aff k.affKey (n + 1) } }
  let s := ((((s.set (lst n) F.LST_STS_STATE 1).set (lst n) F.LST_STS_FLOW k.flow).set (lst n) F.LST_STS_SITE k.site).set
    (lst n) F.LST_STS_TYPE k.typ).set (lst n) F.LST_TAG_TAG k.tag.toNat
  s.traceEv 4 n k

/-- A core has finished its ticket: it takes the one in its slot, or waits for one. -/
def coreFree (s : State) (n : Nat) : State :=
  let s := s.bump (lst n) F.LST_CNT_BUSY_COUNT ((s.mono - (s.coreOf n).busyFrom) / 4096 / 1024)
  match s.sch.tickets.find? (fun k => k.slotCore == some n) with
  | some k => (s.put (lst n) F.LST_STS_SLOT_FULL false).coreTake n k
  | none => s.set (lst n) F.LST_STS_STATE (if s.askMode then 2 else 0)

/-! ## Site records (R290) -/

/-- What a ticket adds to a site's record replaces what its earlier run added. -/
def siteAdd (s : State) (i age st fl : Nat) : State :=
  let r := s.siteOf i
  let adds := if r.adds.any (fun a => a.1 == age)
    then r.adds.map (fun a => if a.1 = age then (age, st, fl) else a) else r.adds ++ [(age, st, fl)]
  s.setSite i { r with adds := adds }

/-- STATUS of a site record: the first status other than OK. -/
def siteStatus (s : State) (i : Nat) : Nat :=
  match (s.siteOf i).adds.find? (fun a => a.2.1 != 0) with
  | some a => a.2.1
  | none => 0

/-- FLAGS of a site record. -/
def siteFlags (s : State) (i : Nat) : Nat := (s.siteOf i).adds.foldl (fun m a => m ||| a.2.2) 0

/-! ## Completion (R291, R298) -/

/-- A ticket that is not complete is changed. -/
def modOpen (s : State) (slot : Nat) (f : Ticket → Ticket) : State :=
  s.modTicket slot (fun k => if k.isComplete then k else f k)

/-- A status for every site a BURST serves among those given; the first other than OK is kept. -/
def burstStatus (s : State) (slot st : Nat) (p : Nat → Bool) : State :=
  s.modOpen slot (fun k => { k with
    status := if k.status = 0 ∧ k.served = [] then st else k.status,
    siteSt := k.siteSt.map (fun x => if x.2 = 0 ∧ p x.1 then (x.1, st) else x) })

/-- A flag of a ticket set. -/
def ticketFlag (s : State) (slot fl : Nat) : State := s.modOpen slot (fun k => { k with flags := k.flags ||| fl })

/-- A ticket selected to run again has an older one of the selection still to complete (R301). -/
def rerunBlocked (s : State) (k : Ticket) : Bool :=
  s.sch.tickets.any (fun j => decide (j.age < k.age) && (j.rerun || (j.ranAgain && !j.isComplete)))

/-- The oldest ticket selected to run again whose run has ended starts again: it is ready. -/
def rerunNext (s : State) : State :=
  match s.sch.tickets.find? (fun k => k.rerun && k.isComplete && !s.rerunBlocked k) with
  | none => s
  | some k =>
    let s := s.modTicket k.slot (fun k => { k with
      phase := .ready, readyAt := s.mono, late := false, started := false, begun := false, fin := false, goIssued := false, rerun := false, ranAgain := true,
      flags := 8, status := 0, siteSt := k.siteSt.map (fun x => (x.1, 0)), expStart := none, expEnd := none })
    (s.bump (pg T.sch 0) F.SCH_RERUN_CNT_COUNT 1).traceEv 7 0 k

/-- A ticket's run ends (the exposure of a MEASURE with it, where the unit has not been DONE): its status is kept, its site records take it, its core is free. If a re-run is pending the
ticket waits for its next run and its decrement waits for that; otherwise its counter is decremented in the same
cycle. -/
def completeTicket (s : State) (slot st fl : Nat) : State :=
  match s.ticketAt slot with
  | none => s
  | some k =>
    if k.isComplete then s
    else
      let k : Ticket := { k with expEnd := if k.typ = 2 ∧ k.expStart.isSome ∧ k.expEnd.isNone then some s.ui else k.expEnd,
                                 flags := k.flags ||| fl, status := if k.status = 0 then st else k.status,
                                 siteSt := if k.isBurst then k.siteSt.map (fun (x : Nat × Nat) => if x.2 = 0 ∧ st ≠ 0 then (x.1, st) else x) else k.siteSt }
      let sites := if k.isBurst then k.siteSt else if k.sited then [(k.site, k.status)] else []
      let n := k.core
      let at_ := k.slotCore
      let s := s.modTicket slot (fun _ => { k with phase := .complete, signalled := k.signalled || !k.rerun })
      let s := if k.isPost then s else sites.foldl (fun (s : State) (x : Nat × Nat) => s.siteAdd x.1 k.age x.2 k.flags) s
      let s := match n with
        | some c => s.bump (lst c) F.LST_CNT_DONE_COUNT 1
        | none => s
      let s := s.traceEv 5 (n.getD 0) k
      let s := if k.sigEn && !k.signalled && !k.rerun then s.ctrDown k.sigCtr else s
      let s := s.rerunNext
      match n with
      | some c => s.coreFree c
      | none =>
        match at_ with
        | some c => s.put (lst c) F.LST_STS_SLOT_FULL false
        | none => s

/-! ## The release gate (R103, R300) -/

/-- Shadow checking runs on an eyelet (R100); while the eyelet is in heel its CLEAN_T no longer advances (R426). -/
def checking (s : State) (e : Nat) : Bool :=
  s.enabled (pg T.spr e) && decide (3 ≤ s.get (pg T.glb 0) F.GLB_STAGE_STAGE)

/-- CLEAN_T of a channel, fraction units (R103). -/
def cleanT (s : State) (c : Nat) : Nat :=
  let c := if s.absorbed c then c - 1 else c
  if s.checking (c / 16) && s.chEnabled c then (s.chanOf c).clean else s.nowQ (c / 64)

/-- Enabled channels of a site. -/
def chansOfSite (s : State) (i : Nat) : List Nat :=
  (List.range 256).filter (fun c => s.chEnabled c && s.siteOfCh c == i)

/-- The gate of R300 is met for a ticket. -/
def gateMet (s : State) (k : Ticket) : Bool :=
  if k.noGate || !s.flag (pg T.sch 0) (F.SCH_FLOW_CTL_GATE.off (4 * k.flow)) then true
  else match k.expStart, k.expEnd with
    | none, _ => true
    | some _, none => false
    | some _, some e => k.serves.all (fun i => (s.chansOfSite i).all (fun c => decide (e * 1024 ≤ s.cleanT c)))

/-! ## Release (R299, R294, R307) -/

/-- Every earlier ticket of the flow is released. -/
def releaseTurn (s : State) (k : Ticket) : Bool :=
  s.sch.tickets.all (fun j => !(j.flow == k.flow && decide (j.age < k.age)))

/-- Bin levels of a POST at its release, and its pulses, which rise 64 UI after them. -/
def postPins (s : State) (k : Ticket) : State :=
  let s := if (k.word 4).getLsbD 24 then
      (List.range 8).foldl (fun s n =>
        let p := pg T.sch 0
        if s.flag p (F.SCH_EVT_CTL_BIN.off (4 * n)) then
          if k.bin.testBit (s.get p (F.SCH_EVT_CTL_BINBIT.off (4 * n)))
          then s.evtDrive ⟨n, 3, 0, none, s.now⟩ else s.evtRelease n 3 0
        else s) s
    else s
  (List.range 8).foldl (fun s n =>
    if (k.word 5).getLsbD n then s.evtPulse n 2 k.slot (s.get (pg T.sch 0) (F.SCH_EVT_CTL_WIDTH.off (4 * n))) 64 else s) s

/-- The RESULT entry of a ticket (R307). -/
def resultEntry (s : State) (k : Ticket) (seq : Nat) : List W32 :=
  let st := k.ownStatus
  [BitVec.ofNat 32 (2 + (if k.isPost then 1 else 2) * 2 ^ 2 + k.site * 2 ^ 8 + k.flow * 2 ^ 16 + st * 2 ^ 24), k.tag,
   BitVec.ofNat 32 (k.flags + (if k.isPost then k.bin else 0) * 2 ^ 8 + seq % 2 ^ 16 * 2 ^ 16), lo32 s.ui, hi32 s.ui,
   if k.isPost then k.pay5 else 0, if k.isPost then k.pay6 else 0, if k.isPost then k.pay7 else 0]

/-- A ticket is released: it leaves the window unless it posts a RESULT entry that the host has to acknowledge. -/
def releaseTicket (s : State) (k : Ticket) : State :=
  let seq := tabGet 0 s.sch.flowSeq k.flow
  let s := { s with
    sch := { s.sch with
      tickets := s.sch.tickets.filter (fun j => j.slot != k.slot),
      flowSeq := tabPut 0 s.sch.flowSeq k.flow ((seq + 1) % 2 ^ 16) },
    groups := s.groups.map (fun (g : Group) => { g with slots := g.slots.filter (· != k.slot) }) }
  let s := s.traceEv 6 0 k
  let s := match s.flag (pg T.sch 0) (F.SCH_FLOW_CTL_GATE.off (4 * k.flow)), k.expStart, k.expEnd with
    | false, some a, some b => { s with sch := { s.sch with released := s.sch.released ++ [(k.flow, k.serves, a, b)] } }
    | _, _, _ => s
  let s := if k.isPost then
      let s := s.postPins k
      s.setSite k.site { s.siteOf k.site with adds := [], sum0 := 0 }
    else s
  let s := if k.isPost || k.report || k.ownStatus != 0 then
      { s with sch := { s.sch with unacked := s.sch.unacked ++ [k.slot] } }.evPush (s.resultEntry k seq) (some k.slot)
    else s
  s.schSync

/-- An acknowledged RESULT entry frees its window slot. -/
def ackSlot (s : State) (o : Option Nat) : State :=
  match o with
  | none => s
  | some i => { s with sch := { s.sch with unacked := s.sch.unacked.erase i } }.schSync

end State

end Sys2Proof.Machine
end

