-- ==== Sys2Proof/Machine/Dds.lean ====
section
/-!
DEFINITION. The DDS clock units and their level ports: list entries, edges, hops, amplitude and software frames, and
starts and stops (R167 to R187); parking of a channel (R94, R95).
-/
namespace Sys2Proof.Machine

open Sys2Proof

namespace State

/-! ## Parking (R94, R95) -/

/-- A channel carries its unit's clock (R170). -/
def clockCh (s : State) (c : Nat) : Bool := s.chEnabled c && s.mode c == 3

/-- Outputs of a channel in its park state: 0 off and low, 1 driven low, 2 driven high. A disabled channel and the odd
channel of a pair hold park state 0 (R74, R93). -/
def parkState (s : State) (c : Nat) : Nat :=
  if s.chEnabled c && !s.absorbed c then s.get (pg T.chn c) F.CHN_CTL_PARK else 0

/-- The two changes of a move to park state `k`, in order (R94). -/
def parkMoves (k : Nat) : Nat × Nat := if k = 0 then (32, 34) else if k = 1 then (34, 33) else (35, 33)

/-- Something placed takes effect on the outputs of its channel. -/
def outApply (k : ChanDyn) (typ : Nat) : ChanDyn :=
  let o := outAfter typ k.role k.drv k.den
  { k with drv := o.1, den := o.2 }

/-- The channel moves to park state `k`, the first change at a value of its quadrant's timeline, the second 2 UI after it; a
change to a level that stands already is none (R94, R95). -/
def parkTo (s : State) (c k t : Nat) : State :=
  let m := parkMoves k
  let d := s.chanOf c
  let s :=
    if d.due.isEmpty ∧ t ≤ s.nowQ (c / 64) then
      let d1 := outApply d m.1
      let d2 := outApply d1 m.2
      s.setChan c { d1 with due := if d2.drv = d1.drv ∧ d2.den = d1.den then [] else [plainDue c m.2 (t + 2048)] }
    else s.setChan c { d with due := d.due ++ [plainDue c m.1 t, plainDue c m.2 (t + 2048)] }
  s.put (pg T.chn c) F.CHN_STS_PARKED true

/-- Every stitch not yet placed is suppressed, and the outputs move to a park state from now on. An open window ends. -/
def parkNow (s : State) (c k : Nat) : State :=
  let s := s.closeWin c
  (s.setChan c { s.chanOf c with due := [] }).parkTo c k (s.nowQ (c / 64))

/-- A park for a fault, heel or power failure. -/
def parkCh (s : State) (c : Nat) : State := s.parkNow c (s.parkState c)

/-- The park of a sequencer stop at a boundary of its quadrant's timeline: with IDLE 1 the outputs keep their state;
otherwise the first change comes at the boundary, or 2 UI after the last stitch placed if that is later (R95), and after
what is placed and still to come. -/
def idleCh (s : State) (c b : Nat) : State :=
  if s.flag (pg T.chn c) F.CHN_CTL_IDLE then s
  else
    let l := match (s.chanOf c).last with
      | some l => l + 2048 - s.era
      | none => 0
    (s.closeWin c).parkTo c (s.parkState c) ((s.chanOf c).due.foldl (fun m d => max m d.t) (max b l))

/-- Enabled clock channels of an eyelet. -/
def clockChans (s : State) (e : Nat) : List Nat := ((List.range 16).map (16 * e + ·)).filter s.clockCh

/-! ## The list (R171, R172) -/

/-- The four words of an entry of the live list. -/
def ddsEntry (s : State) (e i : Nat) : List W32 := (List.range 4).map (fun w => tabGet 0 s.ddsL (e * 16384 + 4 * i + w))

/-- The worst error in an entry of the live list. -/
def ddsEcc (s : State) (e i : Nat) : Nat := (List.range 4).foldl (fun m w => max m (s.eccOf 3 (e * 16384 + 4 * i + w))) 0

end State

/-- Fields of a list entry (R171). -/
def entFw (ws : List W32) : Nat := (ws.getD 0 0).toNat + fget (ws.getD 1 0) 15 0 * 2 ^ 32
def entPhase (ws : List W32) : Nat := fget (ws.getD 1 0) 31 16
def entAmp (ws : List W32) : Nat := fget (ws.getD 2 0) 11 0
def entAmpEn (ws : List W32) : Bool := (ws.getD 2 0).getLsbD 12
def entPset (ws : List W32) : Bool := (ws.getD 2 0).getLsbD 13
def entTrig (ws : List W32) : Nat := fget (ws.getD 2 0) 15 14
def entLoopTo (ws : List W32) : Nat := fget (ws.getD 2 0) 27 16
def entLast (ws : List W32) : Bool := (ws.getD 2 0).getLsbD 28
/-- The dwell of an entry in UI. -/
def entDwell (ws : List W32) : Nat := fget (ws.getD 3 0) 19 0 * 64 ^ fget (ws.getD 3 0) 21 20
def entLoopCnt (ws : List W32) : Nat := fget (ws.getD 3 0) 31 22

/-- REASON of the first rule of R172 that an entry breaks; 0: valid. -/
def ddsReason (ws : List W32) (i : Nat) : Nat :=
  let fw := entFw ws
  if !(fw == 0 || (decide (43980465 ≤ fw) && decide (fw ≤ 2 ^ 47))) then 1
  else if entTrig ws = 3 then 2
  else if i < entLoopTo ws then 3
  else if fget (ws.getD 2 0) 31 29 ≠ 0 then 4
  else 0

namespace State

/-- The lowest-numbered invalid entry of an eyelet's shadow list, with its reason (R172). -/
def ddsInvalid (s : State) (e : Nat) : Option (Nat × Nat) :=
  (s.ddsS.filter (fun x => x.1 / 16384 == e)).findSome? (fun x =>
    let i := x.1 % 16384 / 4
    let r := ddsReason ((List.range 4).map (fun w => tabGet 0 s.ddsS (e * 16384 + 4 * i + w))) i
    if r = 0 then none else some (i, r))

/-- DDS_LIST_ERR shows the lowest invalid entry and its reason. -/
def ddsErrShow (s : State) (p : Nat) (o : Option (Nat × Nat)) : State :=
  (s.set p F.DDS_LIST_ERR_ENTRY (o.getD (0, 0)).1).set p F.DDS_LIST_ERR_REASON (o.getD (0, 0)).2

/-- DDS_LIST_ERR is kept up to date; an invalid entry sets LIST_ERR. -/
def ddsErrSync (s : State) (e : Nat) (written : Nat) : State :=
  let p := pg T.dds e
  let bad := ddsReason ((List.range 4).map (fun w => tabGet 0 s.ddsS (e * 16384 + 4 * written + w))) written != 0
  let s := if bad then s.put p F.DDS_STS_LIST_ERR true else s
  s.ddsErrShow p (s.ddsInvalid e)

/-- The part of a table whose keys, divided by `n`, give `k`, replaced by that of another table. -/
def tabSplice {α : Type} (m src : Tab α) (n k : Nat) : Tab α :=
  m.filter (fun x => decide (x.1 / n < k)) ++ src.filter (fun x => decide (x.1 / n = k)) ++
    m.filter (fun x => decide (k < x.1 / n))

/-- The errors of a part of a table are gone: its words have been written anew. -/
def upsetClear (s : State) (tbl n k : Nat) : State :=
  { s with upset := s.upset.filter (fun x => !(decide (x.1 / 2 ^ 40 = tbl) && decide (x.1 % 2 ^ 40 / n = k))) }

/-- A commit has taken effect: the copy back into the shadow copy is in progress (R447). -/
def copyStart (s : State) (p : Nat) : State := s.put p F.PG_STS_BUSY true

/-- Each BURST that runs and serves a site with a clock channel of the eyelet takes a status (R187). -/
def clockBursts (s : State) (e st : Nat) : State :=
  let here := (s.clockChans e).map s.siteOfCh
  s.groups.foldl (fun s g =>
    if g.begun then g.slots.foldl (fun s i => s.burstStatus i st here.contains) s else s) s

/-- A word of a list is read with an error `v`: a corrected one, or an uncorrectable one (R172, R187). -/
def ddsReadErr (s : State) (e v : Nat) : State :=
  if v = 0 then s
  else if v = 1 then s.rise (pg T.dds e) X.DDS_LIST_CORR
  else (s.rise (pg T.dds e) X.DDS_LIST_UNCORR).clockBursts e 0x12

/-- Words of the shadow list with an error, and the worst of them. -/
def ddsShadowErrs (s : State) (e : Nat) : List (Nat × Nat) :=
  (s.upset.filter (fun x => x.1 / 2 ^ 40 == 8 && x.1 % 2 ^ 40 / 16384 == e)).map (fun x => (x.1 % 2 ^ 40, x.2))

/-- The shadow list becomes live, or is refused (R172). A word of the shadow copy with an uncorrectable error passes it
on. -/
def ddsCommit (s : State) (e : Nat) : State :=
  let p := pg T.dds e
  let s := s.put p F.PG_STS_COMMIT_PEND false
  if (s.ddsInvalid e).isSome then s.put p F.DDS_STS_LIST_ERR true
  else
    let errs := s.ddsShadowErrs e
    let s := (errs.map (·.2)).foldl (fun s v => s.ddsReadErr e v) s
    let s := ({ s with ddsL := tabSplice s.ddsL s.ddsS 16384 e } : State).upsetClear 3 16384 e
    let s := errs.foldl (fun (s : State) x =>
      if x.2 = 2 then { s with upset := tabPut 0 s.upset (3 * 2 ^ 40 + x.1) 2 } else s) s
    s.copyStart p

/-! ## Edges (R168, R169, R170) -/

/-- A rising edge of the position under check is one that the self-check awl compares if no earlier one lies in its 16-UI
window of the dwell; those of the last 256 UI are kept (R102). -/
def ddsRise (s : State) (e t : Nat) (v : Bool) : State :=
  let p := pg T.spr e
  let k := s.get p F.SPR_STS_POS
  let z := s.sprOf e
  let up := v ^^ (s.eff (pg T.dds e) 0x124).getLsbD k
  if z.on && up && s.clockCh (16 * e + k) then
    let d := s.ddsOf e
    let old := d.rises.filter (fun x => decide (t < x + 262144))
    let win (x : Nat) : Nat := ((s.ownT x : Int) - z.start - s.qofs (e / 4)).toNat / 16384
    if old.any (fun x => win x == win t) then s.setDds e { d with rises := old }
    else s.setDds e { d with rises := old ++ [t] }
  else s

/-- An edge of the clock reaches a channel that is not parked, with the correction of its class (R168, R170). -/
def clockPlace (s : State) (e t : Nat) (v : Bool) (c : Nat) : State :=
  if s.flag (pg T.chn c) F.CHN_STS_PARKED then s
  else
    let typ := if v ^^ (s.eff (pg T.dds e) 0x124).getLsbD (c % 16) then 29 else 28
    let k := s.chanOf c
    let t' := s.corrected c typ t
    if k.due.isEmpty ∧ t' ≤ s.nowQ (e / 4) then s.setChan c (outApply k typ)
    else s.setChan c { k with due := dueInsert (plainDue c typ t') k.due }

/-- The level moves to `v` at an instant: edges lie at least 1,023 fraction units apart. -/
def ddsEdge (s : State) (e t : Nat) (v : Bool) : State :=
  let d := s.ddsOf e
  let (t', clash) := match d.lastEdge with
    | some l => if t < l + 1023 then (l + 1023, true) else (t, false)
    | none => (t, false)
  let s := s.upToQ (e / 4) t'
  let s := (s.setDds e { d with level := v, lastEdge := some t' }).ddsRise e t' v
  let s := if clash then
      ((s.put (pg T.dds e) F.DDS_STS_CLK_CLASH true).rise (pg T.dds e) X.DDS_CLK_CLASH).clockBursts e 0x11
    else s
  (s.clockChans e).foldl (fun s c => s.clockPlace e t' v c) s

/-- Instant of the next edge, fraction units: the phase passes the next half cycle. None while FW is 0. -/
def ddsNextEdge (d : DdsDyn) : Option (Nat × Bool) :=
  let fw := entFw d.cur
  if !d.on || fw = 0 then none
  else
    let m := d.phase / 2 ^ 47 + 1 + d.half
    some (d.at_ * 1024 + (2 * 1024 * (m * 2 ^ 47 - d.phase) + fw) / (2 * fw), m % 2 == 0)

/-- The phase of a running unit at a UI. -/
def ddsPhase (d : DdsDyn) (ui : Nat) : Nat := (d.phase + (ui - d.at_) * entFw d.cur) % 2 ^ 48

/-! ## The level port (R184 to R186) -/

/-- PEL_BUSY: a frame is in progress or pending. -/
def pelSync (s : State) (e : Nat) : State :=
  let d := s.ddsOf e
  s.put (pg T.dds e) F.DDS_STS_PEL_BUSY (d.frame.isSome || d.sw.isSome || !d.amp.isEmpty || !d.ampCur.isEmpty)

/-- First multiple of 128 UI at or after a UI. -/
def up128 (u : Nat) : Nat := (u + 127) / 128 * 128

/-- The value of the device timeline, on which the level port runs, at a hop instant of a unit. -/
def hopDev (s : State) (e hop : Nat) : Nat := ((hop * 1024 : Int) - s.qofs (e / 4)).toNat

/-- A hop into an entry is known: its amplitude set is pending, in place of one that has not begun; the frames left of a
set that has begun are still sent (R185, R186). The AMP sent is that of the list live when the hop becomes known, also for
a hop into entry 0 with a commit pending (DESIGN CHOICE, log 143). `seg`: the pass whose boundary the hop follows. -/
def ampKnown (s : State) (e : Nat) (ws : List W32) (hop : Nat) (seg : Option Nat) : State :=
  if !entAmpEn ws then s
  else
    let p := pg T.dds e
    let d := s.ddsOf e
    let s := if d.amp.isEmpty then s else s.bump p F.DDS_AMP_COAL_COUNT 1
    let start := s.hopDev e hop - (4096 + 128 * s.get p F.DDS_CTL_AMP_LEAD) * 1024
    let b := start / 131072 * 128
    let from_ := if b < s.ui then up128 (s.ui + 1) else b
    let fr := (s.clockChans e).map (fun c =>
      (⟨0x10000000 + c % 16 * 2 ^ 24 + s.get p F.DDS_PEL_CFG_AREG * 2 ^ 16 + entAmp ws, false, hop, seg⟩ : PelFrame))
    (s.setDds e { d with amp := fr, ampFrom := from_ }).pelSync e

/-- The boundary of the pass that a hop follows stands at last: the hop instant of its amplitude frames is known. -/
def ampFixed (d : DdsDyn) (ord h : Nat) : DdsDyn :=
  let f (x : PelFrame) : PelFrame := if x.seg = some ord then { x with hop := h, seg := none } else x
  { d with amp := d.amp.map f, ampCur := d.ampCur.map f, frame := d.frame.map (fun x => (f x.1, x.2)) }

/-! ## Successors and hops (R174 to R179) -/

/-- The state of a unit in DDS_STS. -/
def ddsState (s : State) (e v : Nat) : State := s.set (pg T.dds e) F.DDS_STS_STATE v

/-- HOP_LATE (R179). -/
def ddsLate (s : State) (e : Nat) : State := (s.put (pg T.dds e) F.DDS_STS_HOP_LATE true).rise (pg T.dds e) X.DDS_HOP_LATE

/-- A hop is due at a UI: at least 64 UI after the one before it, and not in the past (R179). -/
def ddsDue (s : State) (e t : Nat) : State :=
  let d := s.ddsOf e
  let lo := max (d.at_ + 64) ((s.nowQ (e / 4) + 1023) / 1024)
  let s := if t < lo then s.ddsLate e else s
  let t' := max t lo
  let s := s.setDds e { s.ddsOf e with hopAt := some t' }
  match d.succ with
  | some i => (s.ddsState e 2).ampKnown e (s.ddsEntry e i) t' none
  | none => s.ddsState e 2

/-- The head of the hop-time queue fixes a TIME hop; with the queue empty the unit waits. -/
def ddsTime (s : State) (e : Nat) : State :=
  match (s.ddsOf e).hopQ with
  | [] => s.ddsState e 3
  | t :: _ => (s.setDds e { s.ddsOf e with timed := true }).ddsDue e t

/-- On entering an entry its successor is fixed. -/
def ddsFixSucc (s : State) (e i : Nat) : State :=
  let p := pg T.dds e
  let d := s.ddsOf e
  let lc := entLoopCnt d.cur
  let left := tabGet 0 d.left i
  let wrap := s.flag p F.DDS_CTL_WRAP
  let (succ, left') :=
    if lc > 0 ∧ left > 0 then (some (entLoopTo d.cur), left - 1)
    else if entLast d.cur then ((if wrap then some 0 else none), lc)
    else (some ((i + 1) % 4096), lc)
  let s := s.setDds e { d with succ := succ, hopAt := none, segOrd := none, timed := false, left := tabPut 0 d.left i left' }
  match succ with
  | none => s.ddsState e 2
  | some j =>
    let ws := s.ddsEntry e j
    if entTrig ws = 0 then s.ddsDue e (d.at_ + entDwell d.cur)
    else if entTrig ws = 1 then s.ddsTime e
    else if entTrig ws = 2 then s.ddsState e 4
    else s.ddsState e 2

/-- A single-bit error of an entry read is corrected. -/
def ddsCorr (s : State) (e i : Nat) : State :=
  if s.ddsEcc e i = 1 then s.rise (pg T.dds e) X.DDS_LIST_CORR else s

/-- The output ends and the unit is STOPPED; each clock channel follows IDLE from the falling edge, or from now, on. -/
def ddsEnd (s : State) (e : Nat) : State :=
  let d := s.ddsOf e
  let s := s.setDds e { d with on := false, stop := false, startT := none, succ := none, hopAt := none,
                               segOrd := none, timed := false, stuck := false, level := false, half := 0 }
  ((s.clockChans e).foldl (fun s c => s.idleCh c (s.nowQ (e / 4))) s).ddsState e 0

/-- The hop at UI `h` into entry `i`; `first`: the start of the unit. A TIME hop consumes the head of the queue. A falling
edge that it places ends the output where a STOP is pending (R182). -/
def ddsHop (s : State) (e i h : Nat) (first : Bool) : State :=
  let s := if i = 0 ∧ !first ∧ s.flag (pg T.dds e) F.PG_STS_COMMIT_PEND then s.ddsCommit e else s
  let d := s.ddsOf e
  if s.ddsEcc e i = 2 then
    ((s.setDds e { d with stuck := true, hopAt := none }).rise (pg T.dds e) X.DDS_LIST_UNCORR).clockBursts e 0x12
  else
    let s := s.ddsCorr e i
    let ws := s.ddsEntry e i
    let ph := if first || entPset ws then entPhase ws * 2 ^ 32 else ddsPhase d h
    let lv := decide (ph < 2 ^ 47)
    let q := if d.timed then d.hopQ.drop 1 else d.hopQ
    let s := s.setDds e { d with cur := ws, at_ := h, phase := ph, half := 0, hopQ := q, on := true }
    let s := (s.set (pg T.dds e) F.DDS_HOP_Q_STS_DEPTH q.length).set (pg T.dds e) F.DDS_STS_ENTRY i
    let s := if lv != d.level then s.ddsEdge e (h * 1024) lv else s
    if d.stop && d.level && !lv then s.ddsEnd e else s.ddsFixSucc e i

/-- A decision point has fixed a pass (R175): a unit that waits for a matching segment boundary knows its hop, with the
fields of DDS_CTL, DDS_SEG_ENTRY and DDS_SEG_OFS at that decision point. `b` is the boundary as it stands, fraction
units. -/
def ddsFixed (s : State) (e entry ord b : Nat) (first : Bool) : State :=
  let p := pg T.dds e
  let sel := s.get p F.DDS_CTL_SEG_SEL
  let d := s.ddsOf e
  if s.get p F.DDS_STS_STATE == 4 && !d.stuck &&
      (sel == 0 || (entry == s.get p F.DDS_SEG_ENTRY_ENTRY && (sel == 1 || first))) then
    let ofs := s.get p F.DDS_SEG_OFS_OFS
    let h := max ((b + 1023) / 1024 + ofs) (d.at_ + 64)
    let s := (s.setDds e { d with segOrd := some ord, segOfs := ofs, hopAt := some h }).ddsState e 2
    match d.succ with
    | some i => s.ampKnown e (s.ddsEntry e i) h (some ord)
    | none => s
  else s

/-- The segment boundary of a fixed pass is reached at `b`: a SEG hop tied to it stands at its instant (R175, R176,
R179). -/
def ddsSegment (s : State) (e ord b : Nat) : State :=
  let d := s.ddsOf e
  if d.segOrd = some ord then
    let h := (b + 1023) / 1024 + d.segOfs
    let lo := d.at_ + 64
    let s := if h < lo then s.ddsLate e else s
    s.setDds e (ampFixed { s.ddsOf e with hopAt := some (max h lo), segOrd := none } ord (max h lo))
  else s

/-- The sequencer stops before the boundary of a SEG hop: the unit waits for the next start (R179). -/
def ddsUnfix (s : State) (e : Nat) : State :=
  let d := s.ddsOf e
  if d.segOrd.isSome then (s.setDds e { d with segOrd := none, hopAt := none }).ddsState e 4 else s

/-! ## Starts and stops (R180 to R182) -/

/-- The start time of a unit is known. -/
def ddsStartAt (s : State) (e t : Nat) : State :=
  let s := s.setDds e { s.ddsOf e with startT := some t }
  s.ampKnown e (s.ddsEntry e 0) t none

/-- A start is refused (R181). -/
def ddsRefuse (s : State) (e r : Nat) : State :=
  (s.put (pg T.dds e) F.DDS_STS_START_REFUSED true).set (pg T.dds e) F.DDS_STS_REASON r

/-- The eyelet group's next start begins its first vector at a UI: a unit armed in START_MODE 2 takes it as T. -/
def ddsGroupStart (s : State) (e t : Nat) : State :=
  let d := s.ddsOf e
  if s.get (pg T.dds e) F.DDS_STS_STATE == 1 && d.mode == 2 && d.startT.isNone && !d.stuck
  then s.ddsStartAt e t else s

/-- Loop counts loaded at a start (R174): LOOP_CNT of every entry of the live list. -/
def ddsLoops (s : State) (e : Nat) : Tab Nat :=
  (s.ddsL.filter (fun x => decide (x.1 / 16384 = e) && decide (x.1 % 4 = 3) && decide (fget x.2 31 22 ≠ 0))).map
    (fun x => (x.1 % 16384 / 4, fget x.2 31 22))

/-- A clock channel leaves park for the output of its unit at level `v`. -/
def clockJoin (s : State) (e : Nat) (v : Bool) (c : Nat) : State :=
  (s.put (pg T.chn c) F.CHN_STS_PARKED false).setChan c
    { s.chanOf c with den := true, drv := v ^^ (s.eff (pg T.dds e) 0x124).getLsbD (c % 16), due := [] }

/-- The unit reaches T: it enters entry 0 by a phase-set hop, and its clock channels leave park. With an uncorrectable
entry 0 no entry is entered: the unit waits, ARMED, until it is stopped (R179; that STATE is a DESIGN CHOICE, log 144). -/
def ddsBegin (s : State) (e t : Nat) : State :=
  let p := pg T.dds e
  let s := s.inForce p 0x124
  let d := s.ddsOf e
  let s := s.setDds e { d with startT := none, stuck := false, stop := false, timed := false, left := s.ddsLoops e,
                               lastEdge := none, rises := [] }
  if s.ddsEcc e 0 = 2 then
    ((s.setDds e { s.ddsOf e with stuck := true }).rise p X.DDS_LIST_UNCORR).clockBursts e 0x12
  else ((s.clockChans e).foldl (fun s c => s.clockJoin e false c) s).ddsHop e 0 t true

end State

end Sys2Proof.Machine
end

