-- ==== Sys2Proof/Machine/Groups.lean ====
section
/-!
DEFINITION. Lock groups: segment entries, conditions and decisions, granules and holds, the placement of a vector's
stitches, vector boundaries, and the ways a group starts and stops (R112 to R166, R84 to R95, R189 to R203).
-/
namespace Sys2Proof.Machine

open Sys2Proof

/-! ## Fields of a segment entry (R136) -/

namespace Pass

def start (p : Pass) : Nat := fget p.w0 28 0
def resident (p : Pass) : Bool := p.w0.getLsbD 29
def stall (p : Pass) : Bool := p.w0.getLsbD 30 && !p.resident
def mloop (p : Pass) : Bool := p.w0.getLsbD 31
def length (p : Pass) : Nat := fget p.w1 20 0
def tset (p : Pass) : Nat := fget p.w1 26 21
def cond (p : Pass) : Nat := fget p.w1 30 27
def inv (p : Pass) : Bool := p.w1.getLsbD 31
def next (p : Pass) : Nat := fget p.w2 16 0
def repeats (p : Pass) : Nat := fget p.w2 28 17
def sync (p : Pass) : Bool := p.w2.getLsbD 29
def psel (p : Pass) : Nat := fget p.w2 31 30
def branch (p : Pass) : Nat := fget p.w3 16 0
def dmap (p : Pass) : Nat := fget p.w3 24 17

end Pass

namespace State

/-! ## Segment table (R136 to R143) -/

/-- Word `w` of an entry of the live table. -/
def segWord (s : State) (i w : Nat) : W32 := tabGet 0 s.segL (4 * i + w)

/-- The worst error in an entry of the live table. -/
def segEcc (s : State) (i : Nat) : Nat := (List.range 4).foldl (fun m w => max m (s.eccOf 0 (4 * i + w))) 0

/-- An entry of the live table as a pass. -/
def passOf (s : State) (i ord left num : Nat) (first : Bool) : Pass :=
  { ord := ord, entry := i, w0 := s.segWord i 0, w1 := s.segWord i 1, w2 := s.segWord i 2, w3 := s.segWord i 3,
    left := left, first := first, num := num }

/-- Words of an entry of the live table with a single-bit error. -/
def segCorrs (s : State) (i : Nat) : Nat := ((List.range 4).filter (fun w => s.eccOf 0 (4 * i + w) == 1)).length

/-- The read of an entry counts its errors: each word corrected, and an uncorrectable entry (R143). -/
def segRead (s : State) (i : Nat) : State :=
  let n := s.segCorrs i
  let s := if n = 0 then s else (s.bump (pg T.glb 0) F.GLB_SEG_ECC_CORR n).rise (pg T.glb 0) X.GLB_SEG_CORR
  if s.segEcc i = 2 then (s.bump (pg T.glb 0) F.GLB_SEG_ECC_UNCORR 1).rise (pg T.glb 0) X.GLB_SEG_UNCORR else s

/-- EYE_TS_PER of timing set `t` in eyelet `e`, fraction units (R75). -/
def tsPer (s : State) (e t : Nat) : Nat :=
  (s.rd (eyePg e) (0x800 + 8 * t)).toNat + fget (s.rd (eyePg e) (0x804 + 8 * t)) 10 0 * 2 ^ 32

/-- The vector period of timing set `t` in eyelet `e`, fraction units; a serial vector lasts 4 UI (R29, R75). -/
def period (s : State) (e t : Nat) : Nat := if s.flag (eyePg e) F.EYE_VAMP_CFG_FMT then 4096 else s.tsPer e t

/-! ## Masks (R193, R194) -/

/-- The channel's bit of CMP_CH_MASK is in force. -/
def chMasked (s : State) (c : Nat) : Bool := (s.eff (pg T.cmp (c / 16)) 0x108).getLsbD (c % 16)

/-- The written software mask of a site comes into force. -/
def siteMaskForce (s : State) (i : Nat) : State :=
  let p := pg T.cmp 0
  let ofs := 0x120 + 4 * (i / 32)
  let w := s.rd p ofs
  let e := s.eff p ofs
  let m := BitVec.ofNat 32 (1 <<< (i % 32))
  let e' := (e &&& ~~~m) ||| (w &&& m)
  { s with held := tabPut w s.held (rkey p ofs) e' }

/-! ## Groups and their registers -/

def groupFlag (s : State) (g : Group) (f : Fld) (b : Bool) : State := s.put (eyePg g.leader) f b

/-- The channel took part in the group's start (R74). -/
def inRun (g : Group) (c : Nat) : Bool := g.chans.any (fun x => x.1 == c / 16 && x.2.testBit (c % 16))

/-- The channels of the group's eyelets that carry pattern. -/
def runChans (s : State) (g : Group) : List Nat :=
  g.members.flatMap (fun e => ((List.range 16).map (16 * e + ·)).filter (fun c =>
    inRun g c && s.chEnabled c && s.mode c != 3))

/-- Every channel of the group's eyelets that is enabled. -/
def groupChans (s : State) (g : Group) : List Nat :=
  g.members.flatMap (fun e => ((List.range 16).map (16 * e + ·)).filter s.chEnabled)

/-- Those of them that take part in the run: a channel enabled after the GO waits in park state 0 (R74). -/
def runAll (s : State) (g : Group) : List Nat := (s.groupChans g).filter (inRun g ·)

/-- AHEAD: complete granules ahead of the granule playing; with none of the ring's playing, all that are complete. -/
def aheadSync (s : State) (g : Group) (e : Nat) : State :=
  let playing (y : Gran) : Bool := y.pass == g.cur.ord && decide (y.g * 64 < g.vec) && !g.holdOn
  s.set (eyePg e) F.EYE_VAMP_STS_AHEAD
    (min 255 ((s.eyeOf e).gran.filter (fun y => y.done.isSome && !playing y)).length)

/-- EYE_SEQ_STS, EYE_SEQ_PTR and EYE_SEQ_VEC show the group on the page of every member (R156). -/
def groupSync (s : State) (g : Group) : State :=
  let st := match g.st with
    | .armed => 1
    | .waiting => 3
    | .running => if g.holdOn then 4 else 2
  g.members.foldl (fun s e =>
    let p := eyePg e
    let s := (s.set p F.EYE_SEQ_STS_STATE st).put p F.EYE_SEQ_STS_FOLLOWER (e != g.leader)
    let s := s.put p F.EYE_SEQ_STS_STOP_PEND g.stopPend
    let s := (s.put p F.EYE_VAMP_STS_HOLDING g.holdOn).aheadSync g e
    if e = g.leader then
      ((s.set p F.EYE_SEQ_PTR_ENTRY g.cur.entry).set p F.EYE_SEQ_PTR_PASSES_LEFT g.cur.left).set p F.EYE_SEQ_VEC_VEC
        (if !g.holdOn ∧ g.begun ∧ g.vec ≠ 0 then g.vec - 1 else g.vec)
    else s) s

/-- The group is replaced by its new state and its registers show it. -/
def keep (s : State) (g : Group) : State := (s.setGroup g).groupSync g

/-- Flags of the BURSTs that run on the group. -/
def burstFlags (s : State) (g : Group) (fl : Nat) : State := g.slots.foldl (fun s i => s.ticketFlag i fl) s

/-- A status for sites of the BURSTs that run on the group. -/
def burstFail (s : State) (g : Group) (st : Nat) (p : Nat → Bool) : State :=
  g.slots.foldl (fun s i => s.burstStatus i st p) s

/-! ## Condition latches (R148, R149) -/

/-- The ARG of a parameter set in force. -/
def condArg (s : State) (g : Group) (p : Nat) : Nat := fget (s.eff (eyePg g.leader) (0x130 + 4 * p)) 7 0

/-- An event of a condition, with what it compares ARG with, meets an ARG (R148). -/
def evMeets (c x a : Nat) : Bool :=
  if c = 3 then a % 128 == x
  else if c = 4 ∨ c = 0xA ∨ c = 0xB then a == x
  else if c = 7 then a % 8 == x
  else if c = 8 ∨ c = 0xF then a % 4 == x
  else if c = 9 then x.testBit (a % 32)
  else true

/-- Latches set by an event, for the parameter sets given. -/
def latchSets (s : State) (g : Group) (c x : Nat) (ps : List Nat) : List (Nat × Nat) :=
  (ps.filter (fun p => evMeets c x (s.condArg g p) && !g.latch.contains (c, p))).map (fun p => (c, p))

/-- An event of a condition sets the latches of the parameter sets whose ARG it meets; it is kept for a decision point in
its core cycle (R149). -/
def latchIn (s : State) (g : Group) (c x : Nat) : Group :=
  let cyc := s.now / 4096
  { g with latch := g.latch ++ s.latchSets g c x (List.range 4),
           recent := g.recent.filter (fun r => r.1 == cyc) ++ [(cyc, c, x)] }

/-- An event reaches every sequencer. -/
def seqEvent (s : State) (c x : Nat) : State := { s with groups := s.groups.map (fun g => s.latchIn g c x) }

/-- MATCH, in a match loop (R148, R152). -/
def matchNow (s : State) (g : Group) : Bool := (s.matchSync g).loop.getD false

/-- Every site of the group has a fail recorded in the run. -/
def allFailed (g : Group) : Bool := !g.sites.isEmpty && g.sites.all (fun i => g.failed.contains i)

/-- EYE_COND_TIME as written and in force, fraction units. -/
def condTime (s : State) (g : Group) : Nat :=
  ((s.rd (eyePg g.leader) 0x140).toNat + (s.rd (eyePg g.leader) 0x144).toNat * 2 ^ 32) * 1024
def condTimeEff (s : State) (g : Group) : Nat :=
  ((s.eff (eyePg g.leader) 0x140).toNat + (s.eff (eyePg g.leader) 0x144).toNat * 2 ^ 32) * 1024

/-- The test of a condition (R148 to R150) at the instant `t` of the leader's quadrant timeline: its result, and the group
and state after it. -/
def condTest (s : State) (g : Group) (c p t : Nat) : Bool × State × Group :=
  let l := eyePg g.leader
  let hit := g.latch.contains (c, p)
  let g' := { g with latch := g.latch.filter (fun x => x != (c, p)) }
  if c = 0 then (false, s, g)
  else if c = 1 then (true, s, g)
  else if c = 5 then (g.allMet || allFailed g, s, g)
  else if c = 6 then (s.matchNow g, s, g)
  else if c = 0xC then (g.timeMet || decide (s.condTime g ≤ t), s, g)
  else if c = 0xD then
    let n := s.get l F.EYE_COND_CNT_COUNT - 1
    if n = 0 then (true, s.set l F.EYE_COND_CNT_COUNT (max 1 (s.get l F.EYE_COND_CNT_RELOAD)), g)
    else (false, s.set l F.EYE_COND_CNT_COUNT n, g)
  else if c = 0xF then
    (hit || s.get (pg T.tbs 0) (F.TBS_TRACK_STS_STATE.off (0x20 * (s.condArg g p % 4))) == 2, s, g')
  else (hit, s, g')

/-- Fields of the leader's page written since the last decision point come into force at this one, at `t` (R20). A write of
COND_ARG clears its set's latches; the events of the decision's own core cycle are then judged under the new ARG (R149).
TIME stays true once its threshold in force has been reached (R148). -/
def decideForce (s : State) (g : Group) (t : Nat) : State × Group :=
  let l := eyePg g.leader
  let d := s.eyeOf g.leader
  let g := { g with timeMet := g.timeMet || decide (s.condTimeEff g < t), allMet := g.allMet || allFailed g }
  let s1 := ((s.inForce l 0x100).inForce l 0x140).inForce l 0x144
  let s1 := d.argNew.foldl (fun s p => s.inForce l (0x130 + 4 * p)) s1
  let s1 := s1.setEye g.leader { d with argNew := [] }
  let g1 := { g with timeMet := g.timeMet || decide (s1.condTimeEff g ≤ t),
                     latch := g.latch.filter (fun x => !d.argNew.contains x.2) }
  (s1, (g1.recent.filter (fun r => r.1 == s.now / 4096)).foldl (fun (g : Group) r =>
    { g with latch := g.latch ++ s1.latchSets g r.2.1 r.2.2 d.argNew }) g1)

/-! ## The decision (R144 to R147, R153) -/

/-- A match loop times out at the decision point `t` (R153, R199): flags, and with MATCH_FAIL a fail of cause MATCH for each
unmatched site. Where that decision is taken at the GO or at the first vector boundary, the fails come ahead of the clearing
of R197 and the MATCH record ahead of the START record (DESIGN CHOICE, log 145). -/
def matchTimeout (s : State) (g : Group) (t : Nat) : State :=
  let l := eyePg g.leader
  let s := ((s.put l F.EYE_SEQ_STS_MATCH_TMO true).rise l X.EYE_MATCH_TMO).burstFlags g 4
  if s.getEff l F.EYE_SEQ_CTL_MATCH_FAIL ≠ 0 then
    let u := s.unmatched g
    let s := u.foldl (fun s i =>
      let first := !s.siteFailed i
      let s := s.siteFail i 1 (t / 1024)
      { s with fails := s.fails ++ [⟨none, i, t, first⟩] }) s
    g.members.foldl (fun s e =>
      let m := ((List.range 16).filter (fun k =>
        s.chEnabled (16 * e + k) && !s.chMasked (16 * e + k) && u.contains (s.siteOfCh (16 * e + k)))).foldl setBit 0
      if m = 0 then s
      else s.flogOffer e (flogPos t g.cur.entry g.cur.num 1 g.vec e ++ [BitVec.ofNat 32 m, 0, 0])) s
  else s

/-- The boundary at which the last fixed pass ends, as it stands. -/
def tailTime (s : State) (g : Group) : Nat :=
  g.queue.foldl (fun b q => b + q.length * s.period g.leader q.tset)
    (g.at_ + (g.cur.length - g.vec) * s.period g.leader g.cur.tset)

/-- A pass is fixed: it joins the queue, and the units that watch segment boundaries know of it, unless the group is
still armed. -/
def fixPass (s : State) (g : Group) (q : Pass) (fresh : Bool) : State × Group :=
  let s := if q.mloop && fresh then
      g.members.foldl (fun s e => (List.range 4).foldl (fun s i => s.wr (eyePg e) (0x160 + 4 * i) 0) s) s
    else s
  let s := if g.st = .armed then s
    else g.members.foldl (fun s e => s.ddsFixed e q.entry q.ord (s.tailTime g) q.first) s
  (s, { g with queue := g.queue ++ [q], tail := g.tail + q.length, nextOrd := g.nextOrd + 1,
               loop := if !q.mloop then none else if fresh then some false else some (g.loop.getD false) })

/-- Entry `i` follows. `same`: a further pass of the entry (R145). -/
def follow (s : State) (g : Group) (last : Pass) (i : Nat) (same : Bool) : State × Group :=
  if i = 0 then (s, { g with stopAfter := some 0 })
  else
    let ecc := s.segEcc i
    let s := s.segRead i
    let left := if same then last.left - 1 else fget (s.segWord i 2) 28 17
    let q := s.passOf i g.nextOrd left (if same then last.num + 1 else 0) (!same)
    if ecc = 2 then (s, { g with stopAfter := some 0x07 })
    else if q.length = 0 then (s, { g with stopAfter := some 0x06 })
    else if s.stage ≤ 2 ∧ s.period g.leader q.tset < 16384 then (s, { g with stopAfter := some 0x0E })
    else s.fixPass g q (last.entry != i)

/-- What follows is fixed at the decision point `t` of the last fixed pass (R144). A match loop whose passes are spent is left
through NEXT also where NEXT names the loop itself (DESIGN CHOICE, log 146). -/
def decideNext (s : State) (g : Group) (t : Nat) : State × Group :=
  let (s, g) := s.decideForce g t
  let g := s.matchSync g
  let last := g.queue.getLastD g.cur
  if g.stopPend then (s, { g with stopAfter := some (if g.thermal.isSome then 0x34 else 0x01) })
  else
    let (c, s, g) := s.condTest g last.cond last.psel t
    if c ^^ last.inv then s.follow g last last.branch false
    else if last.left > 0 then s.follow g last last.entry true
    else
      let s := if last.mloop && !s.matchNow g then s.matchTimeout g t else s
      s.follow g last last.next false

/-- Decisions whose decision points lie before the first vector are taken at the GO (R158). -/
def decideEarly (s : State) (g : Group) : Nat → State × Group
  | 0 => (s, g)
  | n + 1 =>
    if g.tail < 128 ∧ g.stopAfter.isNone then
      let (s, g) := s.decideNext g (s.nowQ (g.leader / 4))
      s.decideEarly g n
    else (s, g)

/-! ## Granules (R116 to R124) -/

/-- Vectors of a line. -/
def vpl (s : State) (e : Nat) : Nat := if s.flag (eyePg e) F.EYE_VAMP_CFG_FMT then 4 else 8

/-- Base of the eyelet's pattern region. -/
def patBase (s : State) (e : Nat) : Nat :=
  s.get (eyePg e) F.EYE_PAT_BASE_LO_ADDR_L * 64 + s.get (eyePg e) F.EYE_PAT_BASE_HI_ADDR_H * 2 ^ 32

/-- First line of granule `k` of a pass. -/
def granLine (s : State) (e : Nat) (p : Pass) (k : Nat) : Nat := p.start + k * (64 / s.vpl e)

/-- A line of the granule lies outside the region or HBM (R116). -/
def granRange (s : State) (e : Nat) (p : Pass) (k : Nat) : Bool :=
  let l := s.granLine e p k + 64 / s.vpl e
  decide (s.get (eyePg e) F.EYE_PAT_LINES_LINES < l) || decide (hbmSize < s.patBase e + 64 * l)

/-- The next granules of the streamed passes given, each from its granule on, at most `n`. A resident pass takes none of
them: while one plays, no granule of the ring plays, and `n` granules of the streamed passes fixed after it are requested
(DESIGN CHOICE, log 147). -/
def nextGrans : List (Pass × Nat) → Nat → List (Pass × Nat)
  | [], _ => []
  | (p, k) :: r, n =>
    if p.resident then nextGrans r n
    else
      let m := min n (p.length / 64 - k)
      (List.range m).map (fun j => (p, k + j)) ++ nextGrans r (n - m)

/-- Requests are kept issued for FILL_AHEAD granules, the one playing included (R122). -/
def request (s : State) (g : Group) (e : Nat) : State :=
  let want := nextGrans ((g.cur, g.vec / 64) :: g.queue.map (fun p => (p, 0))) (s.get (eyePg e) F.EYE_VAMP_CFG_FILL_AHEAD)
  let d := s.eyeOf e
  let have_ (x : Pass × Nat) := d.gran.find? (fun y => y.pass == x.1.ord && y.g == x.2)
  (s.setEye e { d with gran := want.map (fun x =>
    match have_ x with
    | some y => y
    | none => { pass := x.1.ord, g := x.2, range := s.granRange e x.1 x.2 }) }).aheadSync g e

def requestAll (s : State) (g : Group) : State := g.members.foldl (fun s e => s.request g e) s

/-- The presence check of a granule whose boundary is `b` (R123): its margin is noted; that of a granule out of range,
which is missing, is 0 (R116). -/
def checkGran (s : State) (e : Nat) (x : Gran) (b : Nat) : State :=
  let p := eyePg e
  let chk := b - 32 * 1024
  let slack := match x.done with
    | some t => if !x.range ∧ t / 4096 ≤ chk / 4096 then some ((chk - t) / 1024) else none
    | none => none
  let d := s.eyeOf e
  let s := s.setEye e { d with gran := d.gran.map (fun y =>
    if y.pass = x.pass ∧ y.g = x.g then { y with checked := true, missing := slack.isNone } else y) }
  let v := slack.getD 0
  if v < s.get p F.EYE_VAMP_SLACK_MIN_SLACK then s.set p F.EYE_VAMP_SLACK_MIN_SLACK v else s

/-- The granule of the current pass that begins at the group's next boundary is checked if it has not been. -/
def checkNext (s : State) (p : Pass) (k e b : Nat) : State :=
  if p.resident then s
  else match (s.eyeOf e).gran.find? (fun y => y.pass == p.ord && y.g == k) with
    | some x => if x.checked then s else s.checkGran e x b
    | none => s

/-- The granule about to play at an eyelet: 0 present, 1 missing, 2 out of range, 3 refused by the stage (R119, R126). -/
def granFault (s : State) (g : Group) (e : Nat) : Nat :=
  let p := g.cur
  if p.resident then
    let l := p.start + (min (g.vec + 64) p.length - 1) / s.vpl e
    if 256 * s.get (eyePg e) F.EYE_VAMP_CFG_RES_BLK ≤ l then 2 else 0
  else if s.stage ≤ 2 then 3
  else match (s.eyeOf e).gran.find? (fun y => y.pass == p.ord && y.g == g.vec / 64) with
    | none => 1
    | some x => if x.range then 2 else if x.missing || x.done.isNone then 1 else 0

/-! ## Placement (R84 to R92) -/

/-- A clash on a channel (R87): counted, and the BURST of the channel's site reports it. -/
def clash (s : State) (g : Group) (c : Nat) : State :=
  let p := pg T.chn c
  let i := s.siteOfCh c
  (((s.put p F.CHN_STS_CLASH true).bump p F.CHN_CLASH_CNT_COUNT 1).rise p X.CHN_CLASH).burstFail g 0x11 (· == i)

/-- Not judged in this vector (R193): the channel or its site is masked. -/
def excluded (s : State) (c : Nat) : Bool := s.chMasked c || s.siteMasked (s.siteOfCh c)

/-- The DEN gate of an eyelet in force. -/
def denGate (s : State) (e : Nat) : Bool := (s.eff (pg T.cmp e) 0x100).getLsbD 0

/-- A stitch joins the channel's placements in order, with the correction of its class, at least 2 UI after the one
before it (R84, R86, R87, R375). -/
def placeOne (s : State) (g : Group) (c : Nat) (d0 : Due) : State :=
  let k := s.chanOf c
  let d := { d0 with t := s.corrected c d0.typ d0.t }
  let (t, late) := match k.last with
    | some l => if s.ownT d.t < l + 2048 then (l + 2048 - s.era, true) else (d.t, false)
    | none => (d.t, false)
  let s := s.setChan c { k with last := some (s.ownT t), due := k.due ++ [{ d with t := t }] }
  if late then s.clash g c else s

/-- The stitches of a record in a vector that begins at `v` with period `per` (R78, R84, R87). `cmp`: strobes and
windows are placed as well. -/
def placeRecord (s : State) (g : Group) (c key v per : Nat) (vid : Nat) (mloop cmp : Bool) : State :=
  let word (w : Nat) := tabGet 0 s.wftL (key + w)
  let ecc := (List.range (1 + min 6 (fget (word 0) 2 0))).foldl (fun m w => max m (s.eccOf 1 (key + w))) 0
  if ecc = 2 then
    let i := s.siteOfCh c
    (s.rise (pg T.chn c) X.CHN_WFT_UNCORR).burstFail g 0x12 (· == i)
  else
    let s := if ecc = 1 then s.rise (pg T.chn c) X.CHN_WFT_CORR else s
    let n := min 6 (fget (word 0) 2 0)
    let mk (typ t : Nat) : Due :=
      { t := t, typ := typ, exp := fget (word 0) 5 4, own := c, vb := v, ve := v + per, vid := vid, mloop := mloop,
        excl := s.excluded c, gate := s.denGate (c / 16) }
    let (s, open_) := (List.range n).foldl (fun (a : State × Bool) k =>
      let w := word (k + 1)
      let typ := fget w 31 28
      let o := fget w 27 0
      if !cmp && (typ == 8 || typ == 9 || typ == 10) then a
      else if per ≤ o then (a.1.clash g c, a.2)
      else (a.1.placeOne g c (mk typ (v + o)), if typ == 9 then true else if typ == 10 then false else a.2)) (s, false)
    if open_ then
      let k := s.chanOf c
      s.setChan c { k with due := k.due ++ [mk 10 (v + per)] }
    else s

/-- The last placement of an output's serial changes replaced at its own instant, if it is at or after a time. -/
def replaceLate (typs : List Nat) (d : Due) : List Due → Option (List Due)
  | [] => none
  | x :: r =>
    match replaceLate typs d r with
    | some r' => some (x :: r')
    | none => if typs.contains x.typ && decide (d.t ≤ x.t) then some ({ d with t := x.t } :: r) else none

/-- A change of DRV (types 16, 17) or DEN (18, 19) of a serial channel (R91). One that falls at or before the last change of
the same output takes its instant and its place; the result says that this happened. -/
def placeDrive (s : State) (c : Nat) (typ : Nat) (d : Due) : State × Bool :=
  let k := s.chanOf c
  let d := { d with typ := typ, t := s.corrected c typ d.t }
  match replaceLate (if typ < 18 then [16, 17] else [18, 19]) d k.due with
  | some r => (s.setChan c { k with due := r }, true)
  | none =>
    let l := match k.last with
      | some l => max l (s.ownT d.t)
      | none => s.ownT d.t
    (s.setChan c { k with due := dueInsert d k.due, last := some l }, false)

/-- A channel in compare role in the pass in play (R90, R132); a pair follows its even channel's bit. -/
def compareRole (s : State) (c dmap : Nat) : Bool :=
  let r := s.get (pg T.chn c) F.CHN_CTL_SROLE
  r == 1 || (r == 2 && (tabGet (0 : BitVec 16) s.dmapL (c / 16 * 256 + dmap)).getLsbD (c % 16))

/-- One symbol of a serial channel `c`, its result belonging to `own`, in a cell that begins at `t` (R89 to R92). -/
def placeSymbol (s : State) (g : Group) (c own sym t : Nat) (role : Bool) (v vid : Nat) (mloop : Bool) : State :=
  let p := pg T.chn c
  let d : Due := { t := t, typ := 16 + sym, exp := sym, own := own, vb := v, ve := v + 4096, vid := vid,
                   mloop := mloop, excl := s.excluded own, gate := s.denGate (c / 16) }
  if role then
    if sym = 3 then s
    else
      let k := s.chanOf c
      let x := { d with t := s.corrected c (20 + sym) (t + fget (s.eff p 0x124) 9 0), typ := 20 + sym }
      let l := match k.last with
        | some l => max l (s.ownT x.t)
        | none => s.ownT x.t
      s.setChan c { k with due := dueInsert x k.due, last := some l }
  else if sym = 3 then s
  else
    let d := { d with t := t + fget (s.eff p 0x120) 11 0 }
    let (s, a) := if sym = 2 then (s, false) else s.placeDrive c (16 + sym) d
    let (s, b) := s.placeDrive c (if sym = 2 then 18 else 19) d
    if a || b then s.clash g c else s

/-- Bits of the data of a vector: channel `k`'s timed symbol or serial share (R113, R114). -/
def symbolOf (ws : List W32) (fmt : Bool) (k : Nat) : Nat :=
  if fmt then fget (ws.getD (k / 4) 0) (8 * (k % 4) + 7) (8 * (k % 4))
  else fget (ws.getD (k / 8) 0) (4 * (k % 8) + 3) (4 * (k % 8))

/-- The pattern of one channel in a vector that begins at `v`. The share of an absorbed odd channel carries the pair's odd
half-UIs, as R92 says; R115, by which the bits of an absorbed odd channel are read and ignored, is taken of that channel's
own outputs and compare (DESIGN CHOICE, log 148). In compare role DEN is held off (R90). -/
def placeChan (s : State) (g : Group) (c : Nat) (ws : List W32) (v : Nat) (fmt : Bool) : State :=
  let p := g.cur
  let vid := g.vcount
  let k := c % 16
  if s.mode c = 0 then
    s.placeRecord g c (c * 8192 + p.tset * 128 + symbolOf ws fmt k * 8) v (s.period (c / 16) p.tset) vid p.mloop true
  else if s.absorbed c then s
  else
    let role := s.compareRole c p.dmap
    let s := s.setChan c { s.chanOf c with role := role, den := (s.chanOf c).den && !role }
    if s.mode c = 2 then
      (List.range 8).foldl (fun s h =>
        let own := c + h % 2
        let sym := (symbolOf ws fmt (own % 16)) / 4 ^ (h / 2) % 4
        s.placeSymbol g c own sym (v + h * 512) role v vid p.mloop) s
    else
      (List.range 4).foldl (fun s u =>
        s.placeSymbol g c c (symbolOf ws fmt k / 4 ^ u % 4) (v + u * 1024) role v vid p.mloop) s

/-- A hold vector of an eyelet (R127): in timed MODE 1 the drive stitches of WAVE are placed. -/
def placeHold (s : State) (g : Group) (e v : Nat) : State :=
  let h := s.eff (eyePg e) 0x208
  if s.flag (eyePg e) F.EYE_VAMP_CFG_FMT || !h.getLsbD 0 then s
  else (s.runChans g).foldl (fun s c =>
    if c / 16 = e ∧ s.mode c = 0 then
      s.placeRecord g c (c * 8192 + g.cur.tset * 128 + fget h 4 1 * 8) v (s.period e g.cur.tset) g.vcount false false
    else s) s

/-- A hold vector is played in an eyelet of the group: HELD (R128, R148). -/
def heldBy (s : State) (g : Group) : State × Group :=
  (s.burstFlags g 1, s.latchIn g 0xE 0)

/-- The worst error in 64-bit word `x` of an eyelet's resident area (R130). -/
def resEcc (s : State) (e x : Nat) : Nat := max (s.eccOf 2 (e * 491520 + 2 * x)) (s.eccOf 2 (e * 491520 + 2 * x + 1))

/-- The granule of the ring that holds vector `g.vec`. -/
def granOf (s : State) (g : Group) (e : Nat) : Option Gran :=
  (s.eyeOf e).gran.find? (fun y => y.pass == g.cur.ord && y.g == g.vec / 64)

/-- The 64-bit words of vector `g.vec` at an eyelet with an error of a kind, by their place in the resident area or in the
granule (R130). -/
def vectorErrs (s : State) (g : Group) (e kind : Nat) : List Nat :=
  let n := s.vpl e
  let wpv := 8 / n
  if g.cur.resident then
    let w := (g.cur.start + g.vec / n) * 8 + g.vec % n * wpv
    ((List.range wpv).map (w + ·)).filter (fun x => s.resEcc e x == kind)
  else match s.granOf g e with
    | none => []
    | some y => ((List.range wpv).map (g.vec % 64 * wpv + ·)).filter (fun x => y.err.getD x 0 == kind)

/-- The data of vector `g.vec` at an eyelet, and the half-lines and 64-bit words that poison it, by their keys in the
eyelet's count (R131). -/
def vectorData (s : State) (g : Group) (e : Nat) : List W32 × List Nat :=
  let n := s.vpl e
  let wpv := 16 / n
  if g.cur.resident then
    let w := (g.cur.start + g.vec / n) * 16 + g.vec % n * wpv
    let half := w / 8
    ((List.range wpv).map (fun j => tabGet 0 s.res (e * 491520 + w + j)),
     (if s.resPoison.contains (e * 61440 + half) then [half] else []) ++ (s.vectorErrs g e 2).map (2 ^ 20 + ·))
  else
    match s.granOf g e with
    | none => ([], [])
    | some x =>
      let w := g.vec % 64 * wpv
      ((x.words.drop w).take wpv,
       (if x.poison.getD (w / 8) false then [g.vec / 64 * 32 + w / 8] else []) ++
         (s.vectorErrs g e 2).map (fun y => 2 ^ 20 + g.vec / 64 * 128 + y))

/-- A vector of poisoned data is played as a hold vector and does not add to the pass's content (R131). -/
def poisonVector (s : State) (g : Group) (e : Nat) (keys : List Nat) : State :=
  let p := eyePg e
  let d := s.eyeOf e
  let new := keys.filter (fun k => !d.counted.contains k)
  let s := (s.setEye e { d with counted := d.counted ++ new }).bump p F.EYE_VAMP_ECC_UNCORR new.length
  let s := (s.put p F.EYE_VAMP_STS_POISON true).rise p X.EYE_VAMP_POISON
  let here := (List.range 16).filterMap (fun k => if s.chEnabled (16 * e + k) then some (s.siteOfCh (16 * e + k)) else none)
  s.burstFail g 0x0B (fun i => here.contains i)

/-- Corrected words of the vector's data are counted (R130). -/
def resCorr (s : State) (g : Group) (e : Nat) : State :=
  let k := (s.vectorErrs g e 1).length
  if k = 0 then s else (s.bump (eyePg e) F.EYE_VAMP_ECC_CORR k).rise (eyePg e) X.EYE_VAMP_CORR

/-- One eyelet's part of a pattern vector that begins at `v`. -/
def placeEye (s : State) (g : Group) (e v : Nat) : State × Group :=
  let s := s.resCorr g e
  match s.vectorData g e with
  | (_, k :: ks) =>
    let (s, g) := (s.poisonVector g e (k :: ks)).heldBy g
    (s.placeHold g e v, g)
  | (ws, []) =>
    let d := s.eyeOf e
    let r : VecRec := { vid := g.vcount, vb := v, entry := g.cur.entry, pass := g.cur.num, vec := g.vec, mloop := g.cur.mloop }
    let s := s.setEye e { d with vecs := d.vecs ++ [r] }
    let fmt := s.flag (eyePg e) F.EYE_VAMP_CFG_FMT
    let s := (s.runChans g).foldl (fun s c => if c / 16 = e then s.placeChan g c ws v fmt else s) s
    (s.closeVec e g.vcount, g)

/-! ## A stitch at its instant (R79, R89, R189 to R192) -/

/-- The earliest placement of a channel takes effect. -/
def placeDue (s : State) (c : Nat) : State :=
  match (s.chanOf c).due with
  | [] => s
  | d :: r =>
    let s := s.upToQ (c / 64) d.t
    let k := outApply { s.chanOf c with due := r } d.typ
    let s := s.setChan c (if d.typ = 9 then { k with win := some ⟨d, none, 0, k.den⟩ } else k)
    let s := s.seeWin c
    let s :=
      if d.typ = 10 then s.closeWin c
      else if d.typ = 8 ∨ (20 ≤ d.typ ∧ d.typ < 28) then s.judge d (s.observed c) (s.chanOf c).den (s.nowQ (c / 64))
      else s
    s.closeVec (d.own / 16) d.vid

/-- Every placement of a channel up to a time takes effect in order. -/
def placeTo (s : State) (c t : Nat) : Nat → State
  | 0 => s
  | n + 1 =>
    match (s.chanOf c).due with
    | [] => s
    | d :: _ => if d.t ≤ t then (s.placeDue c).placeTo c t n else s

/-! ## Stopping (R94, R95, R129, R147, R161, R162) -/

/-- The START or STOP record of an eyelet (R200). -/
def markRec (s : State) (g : Group) (e typ : Nat) : State :=
  s.flogOffer e (flogPos g.at_ g.cur.entry g.cur.num typ g.vec e ++ [0, 0, 0])

/-- The fail log is done at once while it is off; otherwise once its queue is written (R201, R203). -/
def logStop (s : State) (e : Nat) : State := s.put (pg T.cmp e) F.CMP_STS_LOG_DONE (!s.flogOn e)

/-- Written values that waited for a boundary of the eyelet's group come into force (R20, R194). -/
def eyeInForce (s : State) (e : Nat) : State :=
  let s := (s.inForceRange (eyePg e) 0 0x1000)
  let s := (s.inForce (pg T.cmp e) 0x100).inForce (pg T.cmp e) 0x108
  (List.range 16).foldl (fun s k => s.inForceRange (pg T.chn (16 * e + k)) 0 0x1000) s

/-- The auto-masks of a group end (R157). -/
def unmask (s : State) (g : Group) : State :=
  g.masked.foldl (fun s i => s.setBitAt (pg T.cmp 0) (0x150 + 4 * (i / 32)) (i % 32) false)
    ((g.sites ++ g.masked).foldl siteMaskForce s)

/-- The BURSTs that run on the group have ended with a status for every site not failed otherwise; they wait for their
completion. Their exposure ends with the last vector, which ended at the group's boundary unless the stop cut it short
(R300). -/
def burstsEnd (s : State) (g : Group) (st : Nat) : State :=
  let s := if st = 0 then s else s.burstFail g st (fun _ => true)
  let t := min g.at_ (s.nowQ (g.leader / 4)) / 1024
  g.slots.foldl (fun s i => s.modTicket i (fun k => { k with
    fin := true, expEnd := if k.expStart.isSome then some t else none })) s

/-- Judgements that are still open for an eyelet end. -/
def closeAll (s : State) (e : Nat) : State := ((s.eyeOf e).vecs.map (·.vid)).foldl (fun s v => s.closeVec e v) s

/-- A member's sequencer is STOPPED. -/
def eyeStopped (s : State) (e : Nat) : State :=
  let p := eyePg e
  let d := s.eyeOf e
  let s := s.setEye e { d with gran := [], argNew := [], counted := [] }
  let s := (s.set p F.EYE_SEQ_STS_STATE 0).put p F.EYE_SEQ_STS_FOLLOWER false
  let s := (s.put p F.EYE_SEQ_STS_STOP_PEND false).put p F.EYE_VAMP_STS_HOLDING false
  ((s.set p F.EYE_VAMP_STS_AHEAD 0).eyeInForce e).ddsUnfix e

/-- The channels of a run at its stop: a park suppresses every stitch not yet placed; at a sequencer stop what is placed is
played up to the boundary, and the channels follow IDLE (R94, R95). -/
def stopChan (s : State) (g : Group) (hard : Bool) (c : Nat) : State :=
  if hard then s.parkCh c
  else (if s.mode c = 3 then s else s.placeTo c g.at_ 200).idleCh c g.at_

/-- The group stops with a status for its BURSTs. `hard`: a park, which suppresses every stitch not yet placed;
otherwise a sequencer stop, after which a channel with IDLE 1 keeps its state. -/
def stopGroup (s : State) (g : Group) (st : Nat) (hard : Bool) : State :=
  let s := (s.runAll g).foldl (fun s c => s.stopChan g hard c) s
  let s := g.members.foldl closeAll s
  let s := if g.begun then g.members.foldl (fun s e => (s.markRec g e 4).logStop e) s else s
  let s := s.unmask g
  let s := g.members.foldl eyeStopped s
  let s := { s with groups := s.groups.filter (fun h => h.leader != g.leader) }
  s.burstsEnd g st

/-- MIN_SLACK of a granule that was missing is 0. -/
def slackZero (s : State) (e : Nat) : State := s.set (eyePg e) F.EYE_VAMP_SLACK_MIN_SLACK 0

/-- The missing granule of an eyelet is noted: RANGE or UNDERRUN is set, and counted (R126). -/
def missNote (s : State) (e kind : Nat) : State :=
  let p := eyePg e
  (((s.put p (if kind = 2 then F.EYE_VAMP_STS_RANGE else F.EYE_VAMP_STS_UNDERRUN) true).bump p
    F.EYE_VAMP_UNDERRUNS_COUNT 1)).slackZero e

/-- A park for another cause in the core cycle of a granule boundary at which a granule is missing: it governs, and
UNDERRUN is still set and counted (R126). -/
def missMark (s : State) (g : Group) : State :=
  if g.st = .running && g.holdLeft == 0 && g.vec % 64 == 0 && decide (g.vec < g.cur.length) &&
      decide (s.nowQ (g.leader / 4) / 4096 = g.at_ / 4096) then
    g.members.foldl (fun s e => let k := s.granFault g e; if k = 0 then s else s.missNote e k) s
  else s

/-- The group parks for a cause other than its own underrun. -/
def parkGroup (s : State) (g : Group) (st : Nat) : State := (s.missMark g).stopGroup g st true

/-- A decision fixed an entry whose vectors the stage does not offer (R77): a contained underrun. -/
def stageUnderrun (s : State) (g : Group) : State :=
  (g.members.foldl (fun s e => (s.missNote e 3).rise (eyePg e) X.EYE_VAMP_UNDERRUN) s).stopGroup g 0x0E true

/-- Faults and flags of a stop that a decision fixed (R129, R147). -/
def stopFor (s : State) (g : Group) (st : Nat) : State :=
  let l := eyePg g.leader
  if st = 0x06 ∨ st = 0x07 then
    ((s.put l F.EYE_SEQ_STS_SEG_EMPTY true).rise l X.EYE_SEG_EMPTY).stopGroup g st false
  else if st = 0x0E then s.stageUnderrun g
  else s.stopGroup g st false

/-- The contained underrun of a missing granule (R126, R129). -/
def underrun (s : State) (g : Group) : State :=
  let kind := g.members.foldl (fun m e => max m (s.granFault g e)) 0
  let s := g.members.foldl (fun s e =>
    let k := s.granFault g e
    if k = 0 then s else (s.missNote e k).rise (eyePg e) (if k = 2 then X.EYE_VAMP_RANGE else X.EYE_VAMP_UNDERRUN)) s
  s.stopGroup g (if kind = 2 then 0x0A else if kind = 3 then 0x0E else 0x09) true

/-! ## Vector boundaries (R30 to R36) -/

/-- A waveform table is valid in every record of its shadow copy: kept by CHN_WFT_ERR (R80, R81). -/
def wftValid (s : State) (c : Nat) : Bool := s.get (pg T.chn c) F.CHN_WFT_ERR_REASON == 0

/-- The shadow waveform table of a channel becomes live, or is refused (R81, R82). -/
def wftCommit (s : State) (c : Nat) : State :=
  let p := pg T.chn c
  let s := s.put p F.PG_STS_COMMIT_PEND false
  if s.wftValid c then
    (({ s with wftL := tabSplice s.wftL s.wftS 8192 c }.upsetClear 1 8192 c).put p F.CHN_STS_SHADOW_BUSY true).copyStart p
  else s.put p F.CHN_STS_WFT_ERR true

/-- The direction-map table of an eyelet becomes live (R133). -/
def dmapCommit (s : State) (e : Nat) : State :=
  let p := eyePg e
  let s := s.put p F.PG_STS_COMMIT_PEND false
  ((List.range 256).foldl (fun s m =>
    { s with dmapL := tabPut 0 s.dmapL (e * 256 + m) ((s.rd p (0xA00 + 4 * m)).setWidth 16) }) s).copyStart p

/-- A page's PG_COMMIT is pending. -/
def commitPend (s : State) (p : Nat) : Bool := s.flag p F.PG_STS_COMMIT_PEND

/-- Changes that fall due at a granule boundary: waveform commits, written values, site masks, and the auto-masks of sites
whose first fail arrived before its core cycle (R157). -/
def granForce (s : State) (g : Group) : State × Group :=
  let s := g.members.foldl (fun s e =>
    let s := (List.range 16).foldl (fun s k =>
      let s := if s.commitPend (pg T.chn (16 * e + k)) then s.wftCommit (16 * e + k) else s
      (s.inForce (pg T.chn (16 * e + k)) 0x120).inForce (pg T.chn (16 * e + k)) 0x124) s
    ((s.inForce (eyePg e) 0x208).inForce (pg T.cmp e) 0x100).inForce (pg T.cmp e) 0x108) s
  let s := g.sites.foldl siteMaskForce s
  let now := (g.toMask.filter (fun x => decide (x.2 < s.now / 4096))).map (·.1)
  let s := now.foldl (fun s i => s.setBitAt (pg T.cmp 0) (0x150 + 4 * (i / 32)) (i % 32) true) s
  (s, s.matchSync { g with toMask := g.toMask.filter (fun x => !decide (x.2 < s.now / 4096)),
                           masked := g.masked ++ now })

/-- A vector has been played: the next begins one period later. -/
def advance (s : State) (g : Group) (hold : Bool) : State :=
  let per := s.period g.leader g.cur.tset
  s.keep (if hold then { g with at_ := g.at_ + per, holdLeft := g.holdLeft - 1, holdOn := true }
          else { g with at_ := g.at_ + per, vec := g.vec + 1, vcount := g.vcount + 1, holdOn := false })

/-- A hold vector of the whole group. -/
def holdVector (s : State) (g : Group) : State :=
  let s := g.members.foldl (fun s e => s.placeHold g e g.at_) s
  let (s, g) := s.heldBy g
  s.advance g true

/-- The summary of a site is cleared (R197). -/
def siteClear (s : State) (i : Nat) : State :=
  let s := { s.setSite i { s.siteOf i with cnt := 0, firstFail := 0, final := false } with
             upset := tabErase s.upset (11 * 2 ^ 40 + i) }
  let s := s.setBitAt (pg T.cmp 0) (0x130 + 4 * (i / 32)) (i % 32) false
  s.setBitAt (pg T.cmp 0) (0x150 + 4 * (i / 32)) (i % 32) false

/-- The counts of a channel are cleared (R197). -/
def chanClear (s : State) (c : Nat) : State :=
  let p := pg T.cmp (c / 16)
  let s := { s with upset := tabErase s.upset (10 * 2 ^ 40 + c) }
  (s.set p (F.CMP_CH_FCNT_COUNT.off (4 * (c % 16))) 0).setBitAt p 0x110 (c % 16) false

/-- A channel of the run leaves park, unless it carries a clock or is absorbed in a pair (R93, R170). What was left of the
move to its park state has taken effect. -/
def chanBegin (s : State) (c : Nat) : State :=
  if s.mode c = 3 || s.absorbed c then s
  else
    let k := s.chanOf c
    let k := (k.due.filter (fun d => decide (32 ≤ d.typ))).foldl (fun k d => outApply k d.typ) k
    (s.setChan c { k with due := [], role := false }).put (pg T.chn c) F.CHN_STS_PARKED false

/-- A level on an EVT pin falls at the next start (R206). -/
def levelClear (s : State) (e : Nat) : State :=
  if s.flag (pg T.cmp e) F.CMP_EVT_CTL_LEVEL then s.evtRelease (s.get (pg T.cmp e) F.CMP_EVT_CTL_PIN) 0 e else s

/-- The spare takes over the faulty channel at a boundary `t` of the eyelet, fraction units, and the re-run record goes to the
scheduler (R107, R108). In heel the spare's STATE comes to show TAKEN when heel is left. -/
def takeOver (s : State) (e t : Nat) : State :=
  let p := pg T.spr e
  let d := s.sprOf e
  match d.take with
  | none => s
  | some (c, _) =>
    let ws := s.cleanT c / 1024
    let we := t / 1024
    let heel := s.get p F.SPR_STS_STATE == 4
    let s := s.setSpr e { d with take := none, was := if heel then 2 else d.was }
    let s := s.put (pg T.chn c) F.CHN_STS_TAKEN true
    let s := if heel then s else s.set p F.SPR_STS_STATE 2
    let s := ((s.set p F.SPR_STS_FOR_CH (c % 16)).put p F.SPR_STS_TAKEOVER true).rise p X.SPR_TAKEOVER
    let s := (s.set64 p F.SPR_WIN_START_LO_START F.SPR_WIN_START_HI_START ws).set64 p F.SPR_WIN_END_LO_END F.SPR_WIN_END_HI_END we
    { s with sch := { s.sch with reruns := s.sch.reruns ++ [(c, s.siteOfCh c, ws, we)] } }

/-- A takeover decision at least 32 UI old is carried out at a boundary `t` that the eyelet places (R107). -/
def takeDue (s : State) (t e : Nat) : State :=
  match (s.sprOf e).take with
  | some (_, d) => if d + 32768 ≤ s.ownT t then s.takeOver e t else s
  | none => s

/-- A takeover decision still pending is carried out before a channel of the eyelet leaves park (R106). -/
def takeNow (s : State) (e : Nat) : State := if (s.sprOf e).take.isSome then s.takeOver e (s.nowQ (e / 4)) else s

/-- A run that overlaps HOLD or RETURN of the tracking loop of a quadrant its sites use reports TRACK_LOST (R71). -/
def trackOverlap (s : State) (g : Group) (q : Nat) : State :=
  if 3 ≤ s.get (pg T.tbs 0) (F.TBS_TRACK_STS_STATE.off (0x20 * q)) then
    s.burstFail g 0x10 (fun i => (s.chansOfSite i).any (fun c => c / 64 == q))
  else s

/-- The first vector boundary of a group start (R197, R200, R206). -/
def runBegin (s : State) (g : Group) : State :=
  let s := g.members.foldl takeNow s
  let s := g.sites.foldl siteClear s
  let s := (s.groupChans g).foldl chanClear s
  let s := (s.runAll g).foldl chanBegin s
  let s := g.members.foldl (fun s e => (s.levelClear e).markRec g e 3) s
  let s := g.slots.foldl (fun s i => s.modTicket i (fun k => { k with expStart := some (g.at_ / 1024) })) s
  (List.range 4).foldl (fun s q => s.trackOverlap g q) s

/-- A pass of an entry begins at a boundary: the trigger engines of its eyelets know of it (R236, R239). -/
def segSeen (s : State) (g : Group) : State :=
  g.members.foldl (fun s e =>
    let q := e / 4
    if s.trgRuns q || (s.trgOf q).armed.isSome then
      s.setTrg q { s.trgOf q with segs := (s.trgOf q).segs ++ [(e % 4, g.cur.entry, g.at_ / 1024)] }
    else s) s

/-- Vector 0 of a pass: its segment boundary stands (R34), after the holds and waits before it. A direction-map commit takes
effect (R133), and the SEG hops tied to it have their instant (R175, R176). -/
def passBegin (s : State) (g : Group) : State :=
  (g.members.foldl (fun s e =>
    let s := if s.commitPend (eyePg e) then s.dmapCommit e else s
    (s.setEye e { s.eyeOf e with counted := [] }).ddsSegment e g.cur.ord g.at_) s).segSeen g

/-- A pattern vector of the group, its decision point taken if it falls here (R144), and requests kept issued: for a
further granule as the vector of a granule boundary begins to play (R122). -/
def playVector (s : State) (g : Group) : State :=
  let dec := decide (g.tail = g.vcount + 128) && g.stopAfter.isNone
  let (s, g) := if dec then s.decideNext g g.at_ else (s, g)
  let g := { g with holdOn := false }
  let s := if dec || g.vec % 64 == 0 then s.requestAll g else s
  let s := if g.begun then s else s.runBegin g
  let g := if g.begun then g else { g with begun := true, startT := g.at_ }
  let s := if g.vec = 0 then s.passBegin g else s
  let (s, g) := g.members.foldl (fun (a : State × Group) e => a.1.placeEye a.2 e g.at_) (s, g)
  s.advance g false

/-- A granule boundary: changes, then the granule's presence, then a hold, an underrun or the vector (R126). -/
def granBoundary (s : State) (g : Group) : State :=
  let (s, g) := s.granForce g
  let s := g.members.foldl (fun s e => s.checkNext g.cur (g.vec / 64) e g.at_) s
  let miss := g.members.filter (fun e => s.granFault g e != 0)
  if miss.isEmpty then s.playVector { g with holds := 0 }
  else
    let lim := miss.foldl (fun m e => min m (max 1 (fget (s.eff (eyePg e) 0x208) 15 8))) 255
    if g.cur.stall && miss.all (fun e => s.granFault g e == 1) && decide (g.holds < lim) then
      let s := g.members.foldl (fun s e =>
        let p := eyePg e
        let d := s.eyeOf e
        let s := s.setEye e { d with gran := d.gran.map (fun y => if y.missing then { y with checked := false, missing := false } else y) }
        ((s.put p F.EYE_VAMP_STS_HOLD true).bump p F.EYE_VAMP_HOLDS_COUNT 1).rise p X.EYE_VAMP_HOLD) s
      s.holdVector { g with holds := g.holds + 1, holdLeft := 64 }
    else s.underrun g

/-- The synchronisation time of the group: AT in UI, and its arming time. -/
def syncAt (s : State) (g : Group) : Option (Nat × Nat) := (s.eyeOf g.leader).sync

/-- AT is consumed. -/
def syncUsed (s : State) (g : Group) : State :=
  (s.setEye g.leader { s.eyeOf g.leader with sync := none }).put (eyePg g.leader) F.EYE_SEQ_STS_AT_ARMED false

/-- The first pass of a SYNC entry begins now, late (R165), or the group stops. -/
def syncLate (s : State) (g : Group) : State :=
  let l := eyePg g.leader
  let s := s.put l F.EYE_SEQ_STS_SYNC_LATE true
  let g := { g with st := .running, at_ := if g.st = .waiting then max g.at_ (s.nowQ (g.leader / 4)) else g.at_ }
  if s.getEff l F.EYE_SEQ_CTL_SYNC_LATE_ACT ≠ 0 then (s.rise l X.EYE_SYNC_LATE).stopGroup g 0x08 false
  else ((s.syncUsed g).burstFlags g 2).granBoundary g

/-- The segment boundary of a SYNC entry's first pass (R163 to R165). -/
def syncBoundary (s : State) (g : Group) : State :=
  match s.syncAt g with
  | none => s.keep { g with st := .waiting }
  | some (t, arm) =>
    if t * 1024 = g.at_ then (s.syncUsed g).granBoundary g
    else if t * 1024 < g.at_ ∨ t * 1024 < arm + 32 * 1024 then s.syncLate g
    else s.keep { g with st := .waiting }

/-- A segment boundary (R34): the fixed pass begins, or the group stops. Further passes of a SYNC entry do not wait, nor do
branches of the entry to itself (R164); its first pass after a NEXT that names the entry itself does not wait either
(DESIGN CHOICE, log 149). -/
def segBoundary (s : State) (g : Group) : State :=
  match g.queue with
  | [] => s.stopFor g (g.stopAfter.getD 0)
  | p :: q =>
    let s := g.members.foldl (fun s e => if s.commitPend (eyePg e) then s.dmapCommit e else s) s
    let wait := p.sync && p.first && p.entry != g.cur.entry
    let g := { g with cur := p, queue := q, vec := 0, holds := 0, holdOn := false }
    if wait then s.syncBoundary g else s.granBoundary g

/-- The next vector boundary of a running group: takeovers due at it are carried out, and an ABORT due at it stops the
group (R107, R162). -/
def groupVector (s : State) (g : Group) : State :=
  let s := g.members.foldl calVector (s.upToQ (g.leader / 4) g.at_)
  let s := g.members.foldl (takeDue · g.at_) s
  if (match g.abortAt with | some t => decide (t ≤ g.at_) | none => false) then
    ((s.missMark g).groupFlag g F.EYE_SEQ_STS_ABORTED true).stopGroup g 0x02 false
  else if g.holdLeft > 0 then s.holdVector g
  else if g.begun && g.vec == g.cur.length then s.segBoundary g
  else if g.vec % 64 = 0 then s.granBoundary g
  else s.playVector g

/-! ## Starting (R154 to R160) -/

/-- Members of the group that GO on eyelet `e` would start (R154). -/
def bound (s : State) (e : Nat) : List Nat :=
  if s.flag (eyePg e) F.EYE_BIND_BOUND then
    (List.range 16).filter (fun x => s.flag (eyePg x) F.EYE_BIND_BOUND && s.get (eyePg x) F.EYE_BIND_LEADER == e)
  else [e]

/-- Eyelet heel of an eyelet (FLT_STS.EYE_HEEL). -/
def eyeHeel (s : State) (e : Nat) : Bool := (s.rd (pg T.flt 0) 0x100).getLsbD (16 + e)

/-- Formats and timing sets of two eyelets agree (R160, REASON 3). -/
def sameTiming (s : State) (a b : Nat) : Bool :=
  s.get (eyePg a) F.EYE_VAMP_CFG_FMT == s.get (eyePg b) F.EYE_VAMP_CFG_FMT &&
    (List.range 128).all (fun i => s.rd (eyePg a) (0x800 + 4 * i) == s.rd (eyePg b) (0x800 + 4 * i))

/-- The channel's mode matches the eyelet's format (R112). -/
def fmtOk (s : State) (c : Nat) : Bool :=
  let m := s.mode c
  if s.flag (eyePg (c / 16)) F.EYE_VAMP_CFG_FMT then m != 0 else m == 0 || m == 3

/-- REASON of the first situation of R160 that refuses a start, in its order; `t`: T in UI if it is known, `both`: a
STOP or ABORT stands in the same write. -/
def startReason (s : State) (e : Nat) (both : Bool) (t : Option Nat) : Nat :=
  let m := s.bound e
  let i := s.get (eyePg e) F.EYE_SEQ_FIRST_ENTRY
  let q := s.passOf i 0 0 0 true
  if both then 10
  else if s.groups.any (fun g => g.leader == e) then 9
  else if (s.flag (eyePg e) F.EYE_BIND_BOUND && s.get (eyePg e) F.EYE_BIND_LEADER != e) ||
      m.any (fun x => (s.groupOf x).isSome || s.eyeHeel x) then 2
  else if m.any (fun x => !s.sameTiming e x) then 3
  else if i == 0 || q.length == 0 || s.segEcc i == 2 then 4
  else if s.flag (pg T.tbs 0) F.TBS_REF_STS_HOLDOVER then 5
  else if decide (s.stage ≤ 1) || decide (s.stage ≤ 2) && (!q.resident || s.flag (eyePg e) F.EYE_VAMP_CFG_FMT || decide (s.period e q.tset < 16384)) then 6
  else if m.any (fun x => (List.range 16).any (fun k => s.chEnabled (16 * x + k) && !s.fmtOk (16 * x + k))) then 7
  else if m.any (fun x => s.flag (eyePg x) F.EYE_VAMP_STS_LOAD_BUSY) then 8
  else match t with
    | some t => if t * 1024 < s.nowQ (e / 4) + 12800 * 1024 then 1 else 0
    | none => 0

/-- The ticket status of a REASON (R159, R160). -/
def reasonStatus (r : Nat) : Nat :=
  if r = 1 then 0x03 else if r = 2 ∨ r = 3 then 0x04 else if r = 4 then 0x06 else if r = 5 then 0x0F
  else if r = 6 then 0x0E else if r = 7 then 0x0D else if r = 8 then 0x0C else 0x05

/-- A start is refused. -/
def startRefused (s : State) (e r : Nat) : State :=
  let p := eyePg e
  ((s.put p F.EYE_SEQ_STS_START_REFUSED true).set p F.EYE_SEQ_STS_REASON r).rise p X.EYE_SEQ_REFUSED

/-- Enabled channels of an eyelet as bits. -/
def chanBits (s : State) (e : Nat) : Nat := ((List.range 16).filter (fun k => s.chEnabled (16 * e + k))).foldl setBit 0

/-- Sites with an enabled channel in the eyelets given, ascending. -/
def sitesOf (s : State) (es : List Nat) : List Nat :=
  let here := es.flatMap (fun e => ((List.range 16).filter (fun k => s.chEnabled (16 * e + k))).map (fun k => s.siteOfCh (16 * e + k)))
  (List.range 128).filter (fun i => here.contains i)

/-- The group starts or is armed; `t`: T, or the tag it waits for (R158). -/
def startGroup (s : State) (e : Nat) (t : Option Nat) (slots : List Nat) : State :=
  let p := eyePg e
  let m := s.bound e
  let i := s.get p F.EYE_SEQ_FIRST_ENTRY
  let s := s.segRead i
  let q := s.passOf i 0 (fget (s.segWord i 2) 28 17) 0 true
  let s := m.foldl (fun s x =>
    let s := s.setEye x { s.eyeOf x with gran := [], argNew := [], counted := [], vecs := [] }
    (List.range 4).foldl (fun s j => (s.wr (eyePg x) (0x160 + 4 * j) 0).inForce (eyePg x) (0x130 + 4 * j)) s) s
  let s := s.set p F.EYE_COND_CNT_COUNT (max 1 (s.get p F.EYE_COND_CNT_RELOAD))
  let st : GState := if t.isSome then .running else .armed
  let tag := if t.isSome then none else some (s.get p F.EYE_SEQ_CTL_START_TAG)
  let g : Group := {
    leader := e, members := m, st := st, tag := tag, cur := q, at_ := t.getD 0 * 1024,
    tail := q.length, loop := if q.mloop then some false else none,
    autoMask := s.flag p F.EYE_SEQ_CTL_AUTO_MASK, chans := m.map (fun x => (x, s.chanBits x)),
    sites := s.sitesOf m, slots := slots }
  let s := if t.isSome then m.foldl (fun s x => s.ddsFixed x q.entry 0 g.at_ true) s else s
  let (s, g) := s.decideEarly g 16
  let s := { s with groups := s.groups ++ [g] }
  let s := match t with
    | some t => m.foldl (fun (s : State) x => s.ddsGroupStart x t) s
    | none => s
  (s.requestAll g).keep g

/-- GO on eyelet `e` for the BURSTs given: the result is the REASON, 0 for a start. -/
def goSeq (s : State) (e : Nat) (both : Bool) (slots : List Nat) : State × Nat :=
  let p := eyePg e
  let t := if s.flag p F.EYE_SEQ_CTL_START_MODE then none
    else some (s.get64 p F.EYE_SEQ_START_LO_T F.EYE_SEQ_START_HI_T)
  let r := s.startReason e both t
  if r = 0 then (s.startGroup e t slots, 0)
  else
    let i := s.get p F.EYE_SEQ_FIRST_ENTRY
    ((if r = 4 ∧ i ≠ 0 then s.segRead i else s).startRefused e r, r)

/-- The group of an eyelet whose page is its current leader's (R154, R156). -/
def ledBy (s : State) (e : Nat) : Option Group := s.groups.find? (fun g => g.leader == e)

/-- The units that watch segment boundaries know of the passes an armed group has fixed, once its T is known. -/
def ddsFixedAll (s : State) (g : Group) : State :=
  ((g.cur :: g.queue).foldl (fun (a : State × Nat) q =>
    (g.members.foldl (fun s e => s.ddsFixed e q.entry q.ord a.2 q.first) a.1, a.2 + q.length * s.period g.leader q.tset))
    (s, g.at_)).1

/-- A lace START frame for armed groups (R158, R159): `t` is its timeline value in UI. -/
def groupLace (s : State) (tag t : Nat) : State :=
  (s.groups.filter (fun g => g.st == .armed && g.tag == some tag)).foldl (fun s g =>
    let r := if s.flag (pg T.tbs 0) F.TBS_REF_STS_HOLDOVER then 5 else if t * 1024 < s.nowQ (g.leader / 4) + 12800 * 1024 then 1 else 0
    if r = 0 then
      let g : Group := { g with st := .running, at_ := t * 1024, tag := none }
      let s := (s.keep g).ddsFixedAll g
      g.members.foldl (fun s x => s.ddsGroupStart x t) s
    else (s.startRefused g.leader r).stopGroup g (reasonStatus r) false) s

/-- STOP on a leader (R161). -/
def stopSeq (s : State) (e : Nat) : State :=
  match s.ledBy e with
  | none => s
  | some g =>
    match g.st with
    | .running => s.keep { g with stopPend := true }
    | _ => s.stopGroup { g with latch := [] } 0x01 false

/-- ABORT on a leader (R162). A second ABORT leaves the boundary of the first as it is. -/
def abortSeq (s : State) (e : Nat) : State :=
  match s.ledBy e with
  | none => s
  | some g =>
    match g.st with
    | .running => s.keep { g with abortAt := some (g.abortAt.getD (s.nowQ (g.leader / 4) + 32 * 1024)) }
    | _ => (s.groupFlag g F.EYE_SEQ_STS_ABORTED true).stopGroup g 0x02 false

/-- AT is armed for an eyelet (R163); a group that waits applies R165 to it. -/
def syncArm (s : State) (e at_ : Nat) : State :=
  let s := (s.setEye e { s.eyeOf e with sync := some (at_, s.nowQ (e / 4)) }).put (eyePg e) F.EYE_SEQ_STS_AT_ARMED true
  match s.ledBy e with
  | none => s
  | some g =>
    if g.st = .waiting ∧ (at_ * 1024 < g.at_ ∨ at_ * 1024 < s.nowQ (e / 4) + 32 * 1024) then s.syncLate g else s

/-- A WAITING group reaches its AT (R164). -/
def syncReached (s : State) (e : Nat) : State :=
  match s.ledBy e with
  | none => s
  | some g =>
    match s.syncAt g with
    | none => s
    | some (t, _) =>
      if g.st = .waiting then
        let s := s.upToQ (g.leader / 4) (t * 1024)
        (s.syncUsed g).granBoundary { g with st := .running, at_ := t * 1024 }
      else s

/-! ## Leaving a group (R156) -/

/-- The state of the group's sequencer that stands on the leader's page goes with the lead: the count of CNT and an
armed AT. -/
def leadMoves (s : State) (e new : Nat) : State :=
  let s := s.set (eyePg new) F.EYE_COND_CNT_COUNT (s.get (eyePg e) F.EYE_COND_CNT_COUNT)
  match (s.eyeOf e).sync with
  | none => s
  | some x =>
    let s := (s.setEye new { s.eyeOf new with sync := some x }).put (eyePg new) F.EYE_SEQ_STS_AT_ARMED true
    (s.setEye e { s.eyeOf e with sync := none }).put (eyePg e) F.EYE_SEQ_STS_AT_ARMED false

/-- The sites with a channel in a run that is still in it, ascending. -/
def runSites (s : State) (g : Group) : List Nat :=
  let here := (s.runAll g).map s.siteOfCh
  g.sites.filter (fun i => here.contains i)

/-- The sites of a group, and the conditions that range over them, after a change of its channels (R148, R152). -/
def siteSync (s : State) (g : Group) : Group :=
  let g1 := { g with allMet := g.allMet || allFailed g, sites := s.runSites g }
  s.matchSync { g1 with allMet := g1.allMet || allFailed g1 }

/-- A channel leaves the run of its group: its ENABLE is cleared (R74). -/
def chanLeave (s : State) (c : Nat) : State :=
  match s.groupOf (c / 16) with
  | none => s
  | some g =>
    let bits (x : Nat × Nat) : Nat := if x.1 = c / 16 ∧ x.2.testBit (c % 16) then x.2 - 2 ^ (c % 16) else x.2
    s.setGroup (s.siteSync { g with chans := g.chans.map (fun x => (x.1, bits x)) })

/-- An eyelet leaves its group: its channels park, the sites with a channel in it take a status, those with none in
another eyelet are no longer the group's, and the lowest remaining eyelet leads. -/
def leaveGroup (s : State) (e st : Nat) : State :=
  match s.groupOf e with
  | none => s
  | some g =>
    let rest := g.members.filter (· != e)
    if rest.isEmpty then s.parkGroup g st
    else
      let here := s.sitesOf [e]
      let s := ((s.runAll { g with members := [e] }).foldl parkCh (s.missMark { g with members := [e] })).burstFail g st (fun i => here.contains i)
      let s := if g.begun then ((s.closeAll e).markRec g e 4).logStop e else s
      let lead := if g.leader = e then rest.foldl min 16 else g.leader
      let s := if g.leader = e then s.leadMoves e lead else s
      let s := s.eyeStopped e
      let g' := s.siteSync { g with leader := lead, members := rest, chans := g.chans.filter (fun x => x.1 != e) }
      let s := { s with groups := s.groups.map (fun (h : Group) => if h.leader = g.leader then g' else h) }
      s.groupSync g'

end State

end Sys2Proof.Machine
end

