-- ==== Sys2Proof/Machine/Pages.lean ====
section
/-!
DEFINITION. Register pages: the guard of a page in block reset, writes that come into force at once, commits of the
segment table, and the index registers with AUTO_INC (R20, R21, R36, R139 to R142, R444, R447, R477).
-/
namespace Sys2Proof.Machine

open Sys2Proof

namespace State

/-- While a block reset runs, every write to the page but one to PG_FLT is ignored (R444). -/
def offReset (s : State) (p : Nat) (f : State → State) : State := if s.resetting.contains p then s else f s

/-- No memory request is served: D3hot, or stage 0. -/
def offLink (s : State) : Bool := s.pci.d3 || s.stage == 0

/-- In D3hot the endpoint answers configuration requests only (R346): a memory read completes with Unsupported Request.
At stage 0 nothing is available (R7): the same holds there (DEDUCED, log entry 6). -/
def onLink (s : State) (read : Bool) (f : State → State) : State :=
  if s.offLink then (if read then s.emit .ur else s) else f s

/-- A page answers: it is present, and in recovery it is one of GLB, SEC, PCI and FLT (R399). -/
def answers (s : State) (p : Nat) : Bool :=
  pagePresent p && (!s.flag (pg T.sec 0) F.SEC_STS_RECOVERY || [T.glb, T.sec, T.pci, T.flt].contains (p / 256))

/-- A host write to a page. -/
def onPage (s : State) (p : Nat) (f : State → State) : State :=
  s.onLink false (fun s => if s.answers p then s.offReset p f else s)

/-- The eyelet a page belongs to: CHN, SPR, EYE, DDS, CMP and TDC pages (R416). -/
def pageEye (p : Nat) : Nat := if p / 256 = T.chn then p % 256 / 16 else p % 256

/-- A written value whose boundary belongs to a group that does not run comes into force at once (R36, R194). -/
def idleForce (s : State) (p : Nat) : State :=
  let t := p / 256
  if t = T.chn ∨ t = T.eye ∨ t = T.cmp then
    let s := if p = pg T.cmp 0 then
        (List.range 128).foldl (fun s i => if s.groups.any (fun g => g.sites.contains i) then s else s.siteMaskForce i) s
      else s
    if (s.groupOf (pageEye p)).isSome then s
    else if t = T.cmp then (s.inForce p 0x100).inForce p 0x108
    else s.inForceRange p 0 0x1000
  else s

/-- A write to a register of a page with no action of its own beyond its fields. -/
def writeReg (s : State) (p ofs : Nat) (v : W32) (bad : Bool) : State := (writeAt s p ofs v bad).1.idleForce p

/-- A completion of a host read with one word. -/
def answer (s : State) (v : W32) : State := s.emit (.cpl [v] false)

/-- A host read of a register, and what the read does. -/
def hostRead (s : State) (f : State → State × W32) : State :=
  s.onLink true (fun s => let (s, v) := f s; s.answer v)

/-- A host read of a page: one that does not answer reads 0 (R399, R451). -/
def readPage (s : State) (p : Nat) (f : State → State × W32) : State :=
  s.hostRead (fun s => if s.answers p then f s else (s, 0))

/-- An index register with AUTO_INC advances the `n`-valued index in its low bits (R477). -/
def autoInc (s : State) (p : Nat) (auto : Fld) (n : Nat) : State :=
  if s.flag p auto then
    let w := s.rd p auto.ofs
    s.wr p auto.ofs (BitVec.ofNat 32 (w.toNat / n * n + (w.toNat % n + 1) % n))
  else s

/-! ## The segment table (R139 to R142) -/

/-- Word `w` of an entry of the shadow table. -/
def segShadow (s : State) (i w : Nat) : W32 := tabGet 0 s.segS (4 * i + w)

end State

/-- REASON of the first rule of R139 that an entry breaks; 0: valid or empty. -/
def segReason (w0 w1 w3 : W32) : Nat :=
  let len := fget w1 20 0
  let resident := w0.getLsbD 29
  if len = 0 then 0
  else if !resident && len % 64 != 0 then 1
  else if !resident && decide (len < 512) then 2
  else if resident && decide (len < 16) then 3
  else if resident && decide (30719 < fget w0 28 0) then 4
  else if fget w3 31 25 ≠ 0 then 5
  else 0

namespace State

/-- REASON of an entry of the shadow table; entry 0 is never validated (R137). -/
def segBad (s : State) (i : Nat) : Nat :=
  if i = 0 then 0 else segReason (s.segShadow i 0) (s.segShadow i 1) (s.segShadow i 3)

/-- A write to the segment table window (R140, R142, R445). -/
def segWrite (s : State) (i w : Nat) (v : W32) : State :=
  let p := pg T.glb 0
  if s.flag p F.GLB_SEG_STS_SEG_BUSY || s.locked p then s.put p F.GLB_SEG_STS_WR_DROP true
  else
    let was := b2n (s.segBad i != 0)
    let s := { s with segS := tabPut 0 s.segS (4 * i + w) v }
    let r := s.segBad i
    let s := s.set p F.GLB_SEG_STS_INVALID (s.get p F.GLB_SEG_STS_INVALID + b2n (r != 0) - was)
    if r = 0 then s else (s.set p F.GLB_SEG_ERR_ENTRY i).set p F.GLB_SEG_ERR_REASON r

/-- The segment table commit (R141). -/
def segCommit (s : State) : State :=
  let p := pg T.glb 0
  let rs := s.segPend
  let s := { s.put p F.PG_STS_COMMIT_PEND false with segPend := [] }
  match (s.segS.filter (fun x => rs.contains (x.1 / 4096))).find? (fun x => s.segBad (x.1 / 4) != 0) with
  | some x =>
    let s := (s.set p F.GLB_SEG_ERR_ENTRY (x.1 / 4)).set p F.GLB_SEG_ERR_REASON (s.segBad (x.1 / 4))
    (s.put p F.GLB_SEG_STS_SEG_ERR true).rise p X.GLB_SEG_ERR
  | none =>
    let s := rs.foldl (fun (s : State) r => { s with segL := tabSplice s.segL s.segS 4096 r }.upsetClear 0 4096 r) s
    ({ s with segCopy := rs }.put p F.GLB_SEG_STS_SEG_BUSY true).copyStart p

/-- Regions selected in GLB_SEG_CMT0 to 3. -/
def segSelected (s : State) : List Nat :=
  (List.range 128).filter (fun r => (s.rd (pg T.glb 0) (0x400 + 4 * (r / 32))).getLsbD (r % 32))

end State

end Sys2Proof.Machine
end

