-- ==== Sys2Proof/Machine/Ane.lean ====
section
/-!
DEFINITION. Analysis engines: scratchpad, microcode store, lanes, load and store units, sequencer, block exponent, jobs,
transfers, march tests and the BAR4 windows (R256 to R284, R342, R343, R450).
-/
namespace Sys2Proof.Machine

open Sys2Proof

def anePg (q : Nat) : Nat := pg T.ane q

/-- Narrowing of an exact result to 40 bits (R259): the value, and whether it was clamped or wrapped. -/
def narrow40 (sat : Bool) (i : Int) : BitVec 40 × Bool :=
  let lo : Int := -(2 ^ 39)
  let hi : Int := 2 ^ 39 - 1
  if lo ≤ i ∧ i ≤ hi then (BitVec.ofInt 40 i, false)
  else if sat then (BitVec.ofInt 40 (if i < lo then lo else hi), true) else (BitVec.ofInt 40 i, true)

/-- Bits `w - 1` to 0 of a number in reverse order. -/
def bitRev (w n : Nat) : Nat := (List.range w).foldl (fun m i => if n.testBit i then setBit m (w - 1 - i) else m) 0

/-- Bits needed for a magnitude. -/
def bitLen : Nat → Nat → Nat
  | 0, _ => 0
  | k + 1, n => if n = 0 then 0 else bitLen k (n / 2) + 1

namespace State

def aneOf (s : State) (q : Nat) : AneDyn := tabGet {} s.ane q
def setAne (s : State) (q : Nat) (d : AneDyn) : State := { s with ane := tabPut {} s.ane q d }
/-- ANE_STS.STATE: 0 IDLE, 1 DMA_IN, 2 RUN, 3 DMA_OUT, 4 HELD, 5 MARCH, 6 OFFLINE. -/
def aneState (s : State) (q : Nat) : Nat := s.get (anePg q) F.ANE_STS_STATE
def setAneState (s : State) (q v : Nat) : State := s.set (anePg q) F.ANE_STS_STATE v

/-! ## Scratchpad (R271 to R275) -/

/-- The key of the word at a byte address of a scratchpad. -/
def spadKey (q a : Nat) : Nat := q * 2 ^ 18 + a / 4 % 2 ^ 18

/-- A word is delivered poisoned: its poison bit, or an uncorrectable error. -/
def spadBad (s : State) (k : Nat) : Bool := s.spadPoison.contains k || s.eccOf 5 k == 2

/-- A read of a word: its errors are counted (R275). -/
def spadRead (s : State) (q a : Nat) : State × W32 × Bool :=
  let k := spadKey q a
  let p := anePg q
  let s1 :=
    if s.spadBad k then (s.bump p F.ANE_SPAD_ECC_UNCORR 1).rise p X.ANE_SPAD_UNCORR
    else if s.eccOf 5 k = 1 then (s.bump p F.ANE_SPAD_ECC_CORR 1).rise p X.ANE_SPAD_CORR else s
  (s1, tabGet 0 s.spad k, s.spadBad k)

/-- A word stored whole, sound or poisoned; it ends an earlier error. -/
def spadPut (s : State) (q a : Nat) (v : W32) (bad : Bool) : State :=
  let k := spadKey q a
  let ps := s.spadPoison.filter (· != k)
  { s with spad := tabPut 0 s.spad k v, spadPoison := if bad then ps ++ [k] else ps,
           upset := tabErase s.upset (5 * 2 ^ 40 + k) }

/-- Bytes of a word replaced; a word that was poisoned and is not stored whole stays so. -/
def spadPart (s : State) (q a : Nat) (mask v : W32) (bad : Bool) : State :=
  let k := spadKey q a
  let was := s.spadBad k && mask != BitVec.allOnes 32
  s.spadPut q a ((tabGet 0 s.spad k &&& ~~~mask) ||| (v &&& mask)) (bad || was)

/-- An atomic add or swap: the old value, and whether it was poisoned (R274). -/
def spadAtomic (s : State) (q a : Nat) (swap : Bool) (v : W32) : State × W32 × Bool :=
  let (s, old, bad) := s.spadRead q a
  (s.spadPut q a (if swap then v else old + v) (bad && !swap), old, bad)

/-! ## Microcode words (R261, R267 to R270) -/

/-- Word i of microcode word n, as fetched. -/
def uword (s : State) (q n i : Nat) : W32 :=
  if n < 8192 then Config.vendorUcode n i else tabGet 0 s.ucode ((q * 16384 + n) * 8 + i)

/-- The microcode word in hand. -/
def ucur (s : State) (q i : Nat) : W32 := s.uword q (s.get (anePg q) F.ANE_PC_PC) i

/-- The worst error of a microcode word. -/
def uecc (s : State) (q n : Nat) : Nat := (List.range 5).foldl (fun m i => max m (s.eccOf 4 ((q * 16384 + n) * 8 + i))) 0

/-- A microcode word holds a reserved code or a reserved bit at 1. -/
def ubad (s : State) (q n : Nat) : Bool :=
  let w := s.uword q n
  let opc := fget (w 0) 3 0
  decide (0xB < opc) || (opc == 3 && decide (6 < fget (w 0) 21 18)) ||
    decide (4 < fget (w 1) 2 0) || fget (w 1) 31 11 != 0 ||
    decide (3 < fget (w 2) 2 0) || fget (w 2) 31 11 != 0 ||
    decide (0x15 < fget (w 3) 5 0) || fget (w 3) 31 23 != 0 ||
    decide (39 < fget (w 4) 21 16) || fget (w 4) 31 23 != 0

/-! ## Job descriptor (R277, R278) -/

def jobWord (s : State) (q i : Nat) : W32 := match (s.aneOf q).job with | some j => j.1.getD i 0 | none => 0

end State

/-- Fields of transfer `x` of a descriptor. -/
def xferWhen (d : List W32) (x : Nat) : Nat := fget (d.getD (3 * x + 4) 0) 20 19
def xferHbm (d : List W32) (x : Nat) : Nat := (d.getD (3 * x + 3) 0).toNat + fget (d.getD (3 * x + 4) 0) 2 0 * 2 ^ 32
def xferSpad (d : List W32) (x : Nat) : Nat := fget (d.getD (3 * x + 4) 0) 17 3 * 32
def xferOut (d : List W32) (x : Nat) : Bool := (d.getD (3 * x + 4) 0).getLsbD 18
def xferLen (d : List W32) (x : Nat) : Nat := fget (d.getD (3 * x + 5) 0) 15 0

/-- Transfers of a descriptor with a WHEN. -/
def xfersAt (d : List W32) (w : Nat) : List Nat := (List.range 3).filter (fun x => xferWhen d x == w)

/-- A transfer or a reserved field of the descriptor is at fault (R278). -/
def xferErr (d : List W32) : Bool :=
  fget (d.getD 0 0) 15 14 != 0 || fget (d.getD 12 0) 31 24 != 0 ||
  (List.range 3).any (fun x =>
    fget (d.getD (3 * x + 4) 0) 31 21 != 0 || fget (d.getD (3 * x + 5) 0) 31 16 != 0 ||
      (xferWhen d x != 0 &&
        (xferLen d x == 0 || xferHbm d x % 32 != 0 || decide (2 ^ 20 < xferSpad d x + 32 * xferLen d x) ||
          decide (hbmSize < xferHbm d x + 32 * xferLen d x))))

namespace State

/-! ## The end of a job (R279 to R281) -/

/-- QDEPTH shows the queue. -/
def aneSync (s : State) (q : Nat) : State := s.set (anePg q) F.ANE_STS_QDEPTH (s.aneOf q).jobq.length

/-- The engine is at a job boundary: HELD with HOLD at 1, IDLE otherwise. -/
def aneRest (s : State) (q : Nat) : State :=
  s.setAneState q (if s.flag (anePg q) F.ANE_CTL_HOLD then 4 else 0)

/-- 32 bytes of a transfer. -/
def xferUnit (s : State) (q h a : Nat) (out : Bool) : State :=
  if out then
    let (s, ws, bad) := (List.range 8).foldl (fun (x : State × List W32 × Bool) i =>
      let (s, v, b) := x.1.spadRead q (a + 4 * i)
      (s, x.2.1 ++ [v], x.2.2 || b)) (s, [], false)
    s.hbmPutAccess h (ws.flatMap wordBytes) bad
  else
    let bad := s.rdPoison h
    let s := s.hbmTouch h
    (List.range 8).foldl (fun s i => s.spadPut q (a + 4 * i) (s.hbmWord (h + 4 * i)) bad) s

/-- The first `n` accesses of transfer `x` of a descriptor. -/
def xferSome (s : State) (q : Nat) (w : List W32) (x n : Nat) : State :=
  (List.range n).foldl (fun s i => s.xferUnit q (xferHbm w x + 32 * i) (xferSpad w x + 32 * i) (xferOut w x)) s

/-- A job that ends early stops its transfer in progress after the current 32-byte access (R280): how many accesses have been
made is open. -/
def xferStop (s : State) (q : Nat) : State :=
  match (s.aneOf q).xfers, (s.aneOf q).job with
  | x :: _, some (w, _) =>
    let (f, s) := s.fresh
    s.xferSome q w x (f % (xferLen w x + 1))
  | _, _ => s

/-- The completion of the running job: TAG, code and flags, cycles used, and mailbox bytes 0x040 to 0x04F (R279). -/
def aneComp (s : State) (q code : Nat) (ov po : Bool) : List W32 :=
  [BitVec.ofNat 32 (s.get (anePg q) F.ANE_STS_TAG), BitVec.ofNat 32 (code + b2n ov * 16 + b2n po * 32),
   BitVec.ofNat 32 (s.get (anePg q) F.ANE_JOB_CYC_CYC)] ++
    (List.range 4).map (fun i => tabGet 0 s.spad (spadKey q (0x40 + 4 * i)))

/-- The completion reaches the last core that runs the ticket in a window slot, and the site's record (R279, R290). -/
def aneReport (s : State) (q slot code : Nat) (ov po : Bool) : State :=
  let ws := s.aneComp q code ov po
  match s.ticketAt slot with
  | none => s
  | some k =>
    let s := match k.core with
      | some n => s.setCore n { s.coreOf n with comp := ws }
      | none => s
    let s := if k.sited then s.setSite k.site { s.siteOf k.site with sum0 := ws.getD 3 0 } else s
    s.modOpen slot (fun k => { k with
      fin := true, status := if k.status = 0 ∧ code ≠ 0 then 0x20 + code else k.status,
      flags := k.flags ||| (b2n ov * 16 + b2n po * 32) })

/-- The running job ends with a completion code; a last core that submitted it takes the completion. -/
def aneEnd (s : State) (q code : Nat) : State :=
  let p := anePg q
  let s := s.xferStop q
  let d := s.aneOf q
  let ov := decide (d.ovf ≠ 0)
  let po := decide (d.psn ≠ 0)
  let s := (((s.set p F.ANE_JOB_STS_CODE code).put p F.ANE_JOB_STS_OVF ov).put p F.ANE_JOB_STS_POISON po).put p F.ANE_JOB_STS_DONE true
  let s := s.set p F.ANE_JOB_CYC_STALL (min 255 (d.stall / 1024))
  let s := if 1 ≤ code ∧ code ≤ 4 then s.rise p X.ANE_JOB_ERR else s
  let s := if s.aneState q = 6 then s else s.aneRest q
  let s := match d.job with
    | some (_, some slot) => s.aneReport q slot code ov po
    | _ => s
  s.setAne q { s.aneOf q with job := none, xfers := [], loads := [], parts := 0, wv := [], wacc := [], wf := none, winc := [] }

/-! ## Fetch (R261, R268, R270) -/

/-- The next microcode word is fetched: entry into the vendor region, its errors and its reserved codes end the job. -/
def aneFetch (s : State) (q n : Nat) (outside : Bool) : State :=
  let p := anePg q
  let n := n % 16384
  if outside && decide (64 ≤ n ∧ n < 8192) then s.aneEnd q 2
  else
    let s := s.set p F.ANE_PC_PC n
    let s := s.set p F.ANE_PC_DEPTH (min 7 (s.aneOf q).stack.length)
    if s.uecc q n = 2 then
      let s := (s.rise p X.ANE_UC_UNCORR)
      (if n < 8192 then s.put p F.ANE_UC_STS_VENDOR_VALID false else s).aneEnd q 3
    else
      let s := if s.uecc q n = 1 then (s.bump p F.ANE_UC_STS_CORR 1).rise p X.ANE_UC_CORR else s
      if s.ubad q n then s.aneEnd q 1 else s

/-! ## Registers of the lanes -/

def vreg (d : AneDyn) (l r : Nat) : BitVec 40 := tabGet 0 d.v (16 * l + r)
def accr (d : AneDyn) (l : Nat) : BitVec 40 := tabGet 0 d.acc l
def kreg (d : AneDyn) (n : Nat) : Nat := tabGet 0 d.k n
def ptrOf (d : AneDyn) (n : Nat) : Ptr := tabGet {} d.ptrs n

/-- A register with a load of an earlier word still pending: a word reads its own load's register as it stands at its start. -/
def loadPending (d : AneDyn) (r : Nat) : Bool := d.loads.any (fun x => x.dst == r && x.age != 0)

/-- A load whose data are due: it is delivered 3 cycles after its word (R263). -/
def loadDue (d : AneDyn) : Bool := d.loads.any (fun x => decide (3 ≤ x.age))

/-- Lanes that execute a masked word. -/
def lanesOn (s : State) (q : Nat) : List Nat :=
  (List.range 16).filter (fun l => !(s.ucur q 3).getLsbD 21 || (s.aneOf q).f.testBit l)

/-! ## Lane operations (R257 to R260, R266) -/

/-- The lane operation of the word in hand, if it is `op` and its turn has come: after the word's load and store, and
with no operand pending. `f` gives each executing lane's results from its operands A and B. `a`, `b`: the operation
reads A, B. -/
def laneTurn (s : State) (q op : Nat) (a b : Bool) : Bool :=
  let d := s.aneOf q
  let w := s.ucur q 3
  s.aneState q == 2 && fget w 5 0 == op && !d.parts.testBit 2 &&
    (fget (s.ucur q 1) 2 0 == 0 || d.parts.testBit 0) && (fget (s.ucur q 2) 2 0 == 0 || d.parts.testBit 1) &&
    !(a && loadPending d (fget w 13 10)) && !(b && !w.getLsbD 18 && loadPending d (fget w 17 14))

/-- Operand A and operand B of a lane. -/
def opA (s : State) (q l : Nat) : BitVec 40 := vreg (s.aneOf q) l (fget (s.ucur q 3) 13 10)
def opB (s : State) (q l : Nat) : BitVec 40 :=
  if (s.ucur q 3).getLsbD 18 then BitVec.ofInt 40 (toSigned 16 (fget (s.ucur q 4) 15 0))
  else vreg (s.aneOf q) l (fget (s.ucur q 3) 17 14)

/-- A16 × B16. -/
def prod16 (a b : BitVec 40) : Int := toSigned 16 a.toNat * toSigned 16 b.toNat

/-- The word's SAT bit. -/
def satBit (s : State) (q : Nat) : Bool := (s.ucur q 3).getLsbD 19

/-- The lane part of the word is carried out; the results given wait for the end of the word. -/
def laneDone (s : State) (q : Nat) (wv wacc : List (Nat × BitVec 40)) (wf : Option Nat) (ovf : Nat) : State :=
  let d := s.aneOf q
  let res := wv ++ wacc
  let b := if (s.ucur q 3).getLsbD 22 then res.foldl (fun m x => max m x.2.toInt.natAbs) 0 else 0
  s.setAne q { d with parts := setBit d.parts 2, wv := wv, wacc := wacc, wf := wf, wb := b, ovf := d.ovf ||| ovf }

/-- Lanes that overflowed. -/
def ovfBits (xs : List (Nat × BitVec 40 × Bool)) : Nat := (xs.filter (·.2.2)).foldl (fun m x => setBit m x.1) 0

/-- An operation that writes DST: the exact result of each executing lane is narrowed. -/
def laneDst (s : State) (q op : Nat) (a b : Bool) (f : Nat → Int) : State :=
  if s.laneTurn q op a b then
    let r := (s.lanesOn q).map (fun l => (l, narrow40 (s.satBit q) (f l)))
    s.laneDone q (r.map (fun x => (16 * x.1 + fget (s.ucur q 3) 9 6, x.2.1))) [] none (ovfBits r)
  else s

/-- An operation that writes ACC. -/
def laneAcc (s : State) (q op : Nat) (a b : Bool) (f : Nat → Int) : State :=
  if s.laneTurn q op a b then
    let r := (s.lanesOn q).map (fun l => (l, narrow40 (s.satBit q) (f l)))
    s.laneDone q [] (r.map (fun x => (x.1, x.2.1))) none (ovfBits r)
  else s

/-- A comparison, which writes F. -/
def laneCmp (s : State) (q op : Nat) (f : Nat → Bool) : State :=
  if s.laneTurn q op true true then
    let m := (s.lanesOn q).foldl (fun m l => if f l then setBit m l else clearBit m l) (s.aneOf q).f
    s.laneDone q [] [] (some m) 0
  else s

/-- MOVA (R260): ACC shifted, rounded and, with SAT, clamped to 16 bits. -/
def laneMova (s : State) (q : Nat) : State :=
  if s.laneTurn q 0x05 false false then
    let w := s.ucur q 4
    let sh := if w.getLsbD 22 then s.get (anePg q) F.ANE_BEXP_BSH else fget w 21 16
    let rnd : Int := if (s.ucur q 3).getLsbD 20 && decide (0 < sh) then 2 ^ (sh - 1) else 0
    let r := (s.lanesOn q).map (fun l =>
      let v := ((accr (s.aneOf q) l).toInt + rnd) / (2 ^ sh : Int)
      if s.satBit q && decide (v < -32768) then (l, (BitVec.ofInt 40 (-32768), true))
      else if s.satBit q && decide (32767 < v) then (l, (BitVec.ofInt 40 32767, true))
      else (l, narrow40 false v))
    s.laneDone q (r.map (fun x => (16 * x.1 + fget (s.ucur q 3) 9 6, x.2.1))) [] none (ovfBits r)
  else s

/-- RSUM: ACC of lane 0 takes the sum of all lanes; three more cycles. -/
def laneRsum (s : State) (q : Nat) : State :=
  if s.laneTurn q 0x13 false false then
    let d := s.aneOf q
    let (v, o) := narrow40 (s.satBit q) ((List.range 16).foldl (fun m l => m + (accr d l).toInt) 0)
    let s := s.bump (anePg q) F.ANE_JOB_CYC_CYC 3
    if (s.lanesOn q).contains 0 then s.laneDone q [] [(0, v)] none (b2n o) else s.laneDone q [] [] none 0
  else s

/-! ## The load and store units (R263, R265, R273 to R275) -/

/-- The byte address that a lane forms with a pointer. -/
def laneAddr (p : Ptr) (brev : Bool) (l : Nat) : Nat :=
  let o := ((p.ofs + l * p.stride) % (2 ^ 20 : Int)).toNat
  let o' := if brev then
      (let i := o / 4
       (i / 2 ^ p.w * 2 ^ p.w + bitRev p.w (i % 2 ^ p.w)) * 4 + o % 4)
    else o
  (p.base + o') % 2 ^ 20

/-- Cycles that a lane access takes: distinct rows in its busiest bank, two a cycle in banks 0 and 1 (R271). -/
def accessCycles (as : List Nat) : Nat :=
  let rows := (as.map (· / 64)).eraseDups
  (List.range 32).foldl (fun m b =>
    let n := (rows.filter (fun r => r / 512 == b)).length
    max m (if b < 2 then (n + 1) / 2 else n)) 1

/-- A load of the word in hand, if it is `lop` and not yet carried out; `wait`: cycles it waited for a bank. `value`
forms a lane's value from its word and address. -/
def aneLoad (s : State) (q lop : Nat) (one : Bool) (align : Nat) (value : W32 → Nat → Int) (wait : Nat) : State :=
  let d := s.aneOf q
  let w := s.ucur q 1
  if s.aneState q == 2 && fget w 2 0 == lop && !d.parts.testBit 0 then
    let ptr := fget w 5 3
    let addr (l : Nat) := laneAddr (ptrOf d ptr) (w.getLsbD 10) (if one then 0 else l) / align * align
    let as := (List.range 16).map addr
    let (s, vals) := as.foldl (fun (a : State × List (BitVec 40 × Bool)) x =>
      let (s, v, bad) := a.1.spadRead q x
      (s, a.2 ++ [(BitVec.ofInt 40 (value v x), bad)])) (s, [])
    let n := accessCycles as - 1 + wait
    let s := (s.bump (anePg q) F.ANE_SPAD_CONFLICT_COUNT wait).bump (anePg q) F.ANE_JOB_CYC_CYC n
    s.setAne q { d with stall := d.stall + n, parts := setBit d.parts 0, winc := d.winc ++ [ptr], loads := d.loads ++ [{ dst := fget w 9 6, vals := vals }] }
  else s

/-- The half of a word at an address. -/
def halfOf (v : W32) (a : Nat) : Nat := if a % 4 < 2 then fget v 15 0 else fget v 31 16

/-- The oldest load's data arrive, after its word has ended (R263): a poisoned word sets the lane's PSN. -/
def aneArrive (s : State) (q stall : Nat) : State :=
  let d := s.aneOf q
  match d.loads with
  | [] => s
  | x :: r =>
    if x.age = 0 then s
    else
    let v := (x.vals.zipIdx).foldl (fun m y => tabPut 0 m (16 * y.2 + x.dst) y.1.1) d.v
    let psn := (x.vals.zipIdx).foldl (fun m y => if y.1.2 then setBit m y.2 else m) d.psn
    (s.setAne q { d with loads := r, v := v, psn := psn, stall := d.stall + stall }).bump (anePg q) F.ANE_JOB_CYC_CYC stall

/-- A store of the word in hand, if it is `wop`, its load is carried out and its source is not pending: `put` carries out what
the executing lanes store, each with its address, value and PSN, in lane order. -/
def aneStore (s : State) (q wop : Nat) (put : State → List (Nat × BitVec 40 × Bool) → State) (wait : Nat) : State :=
  let d := s.aneOf q
  let w := s.ucur q 2
  if s.aneState q == 2 && fget w 2 0 == wop && !d.parts.testBit 1 && (fget (s.ucur q 1) 2 0 == 0 || d.parts.testBit 0) &&
      !loadPending d (fget w 9 6) then
    let ptr := fget w 5 3
    let ls := s.lanesOn q
    let addr (l : Nat) := laneAddr (ptrOf d ptr) (w.getLsbD 10) l
    let s := put s (ls.map (fun l => (addr l, vreg d l (fget w 9 6), d.psn.testBit l)))
    let n := accessCycles (ls.map addr) - 1 + wait
    let s := (s.bump (anePg q) (F.ANE_SPAD_CONFLICT_COUNT.off 4) wait).bump (anePg q) F.ANE_JOB_CYC_CYC n
    s.setAne q { d with stall := d.stall + n, parts := setBit d.parts 1, winc := d.winc ++ [ptr] }
  else s

/-- ST16: the lower or the upper half of each lane's word. -/
def putHalves (q : Nat) (s : State) (xs : List (Nat × BitVec 40 × Bool)) : State :=
  xs.foldl (fun s x =>
    let sh := if x.1 % 4 < 2 then 0 else 16
    s.spadPart q x.1 (BitVec.ofNat 32 (0xFFFF <<< sh)) (BitVec.ofNat 32 ((x.2.1.toNat % 2 ^ 16) <<< sh)) x.2.2) s

/-- ST32. -/
def putWords (q : Nat) (s : State) (xs : List (Nat × BitVec 40 × Bool)) : State :=
  xs.foldl (fun s x => s.spadPut q x.1 (x.2.1.setWidth 32) x.2.2) s

/-- STA: the values of the lanes that add to one word are summed and added to it in one atomic access (R273). -/
def putSums (q : Nat) (s : State) (xs : List (Nat × BitVec 40 × Bool)) : State :=
  ((xs.map (fun x => x.1 / 4)).eraseDups).foldl (fun s w =>
    let here := xs.filter (fun x => x.1 / 4 == w)
    let sum : W32 := here.foldl (fun m x => m + x.2.1.setWidth 32) 0
    let (s, old, was) := s.spadRead q (4 * w)
    s.spadPut q (4 * w) (old + sum) (was || here.any (·.2.2))) s

/-! ## The sequencer (R262, R264 to R266) -/

/-- The rest of the word in hand is carried out, the data due by its end have come, and its sequencer operation is `opc`. -/
def seqTurn (s : State) (q opc : Nat) : Bool :=
  let d := s.aneOf q
  s.aneState q == 2 && fget (s.ucur q 0) 3 0 == opc && !loadDue d &&
    (fget (s.ucur q 1) 2 0 == 0 || d.parts.testBit 0) && (fget (s.ucur q 2) 2 0 == 0 || d.parts.testBit 1) &&
    (fget (s.ucur q 3) 5 0 == 0 || d.parts.testBit 2)

/-- The results of the word become readable, and its cycle is counted. -/
def wordEnd (s : State) (q : Nat) : State :=
  let d := s.aneOf q
  let bump (m : Tab Ptr) (n : Nat) : Tab Ptr :=
    let p := tabGet {} m n
    tabPut {} m n { p with ofs := (p.ofs + p.inc) % (2 ^ 20 : Int) }
  let s := s.setAne q { d with
    parts := 0, v := d.wv.foldl (fun m x => tabPut 0 m x.1 x.2) d.v, acc := d.wacc.foldl (fun m x => tabPut 0 m x.1 x.2) d.acc,
    f := d.wf.getD d.f, bmax := max d.bmax d.wb, wb := 0, wv := [], wacc := [], wf := none,
    ptrs := d.winc.foldl bump d.ptrs, winc := [], loads := d.loads.map (fun x => { x with age := x.age + 1 }) }
  s.bump (anePg q) F.ANE_JOB_CYC_CYC 1

/-- The word after `pc` in order: ends of blocks are played (R264). -/
def blockNext (st : List Frame) (pc : Nat) : Nat × List Frame :=
  match st with
  | .block a b n :: r =>
    if pc = b then (if n = 0 then blockNext r pc else (a, .block a b (n - 1) :: r)) else (pc + 1, st)
  | _ => (pc + 1, st)

/-- The engine goes to a word. -/
def aneGo (s : State) (q n : Nat) (st : List Frame) : State :=
  let pc := s.get (anePg q) F.ANE_PC_PC
  (s.setAne q { s.aneOf q with stack := st }).aneFetch q n (decide (8192 ≤ pc))

/-- The engine continues after the word `pc`. -/
def aneNext (s : State) (q pc : Nat) : State :=
  let (n, st) := blockNext (s.aneOf q).stack pc
  s.aneGo q n st

/-- Blocks that hold a word stay open; calls stay. -/
def keepBlocks (st : List Frame) (n : Nat) : List Frame :=
  st.filter (fun f => match f with | .block a b _ => decide (a ≤ n ∧ n ≤ b) | .call _ => true)

/-- A sequencer operation `opc`: `f` acts once the word is done, with its PC, TARGET and ARG. -/
def aneSeq (s : State) (q opc : Nat) (f : State → Nat → Nat → Nat → State) : State :=
  if s.seqTurn q opc then
    let w := s.ucur q 0
    f (s.wordEnd q) (s.get (anePg q) F.ANE_PC_PC) (fget w 17 4) (fget w 29 18)
  else s

/-- BLOCK. -/
def aneBlock (s : State) (q pc t arg : Nat) (ksel : Nat) : State :=
  let st := (s.aneOf q).stack
  let n := if ksel = 0 then arg else kreg (s.aneOf q) ksel
  let open_ := (st.filter (fun f => match f with | .block .. => true | .call _ => false)).length
  let inside := match st with
    | .block _ b _ :: _ => decide (t ≤ b)
    | _ => true
  if 4 ≤ open_ || decide (t < pc + 1) || !inside then s.aneEnd q 1
  else s.aneGo q (pc + 1) (.block (pc + 1) t n :: st)

/-- BRANCH: whether its condition holds, and K counted down where it was not 0. -/
def aneCond (s : State) (q c : Nat) : State × Bool :=
  let d := s.aneOf q
  if c < 4 then
    let k := kreg d c
    if k = 0 then (s, false) else (s.setAne q { d with k := tabPut 0 d.k c (k - 1) }, true)
  else if c = 4 then (s, d.f != 0)
  else if c = 5 then (s, d.f == 65535)
  else (s, d.ovf != 0)

/-- RET. -/
def aneRet (s : State) (q : Nat) : State :=
  match (s.aneOf q).stack with
  | .call r :: st => (s.setAne q { s.aneOf q with stack := st }).aneNext q (r - 1)
  | _ => s.aneEnd q 1

/-- Further cycles of the word in hand, in which it stalls. -/
def aneStall (s : State) (q n : Nat) : State :=
  (s.setAne q { s.aneOf q with stall := (s.aneOf q).stall + n }).bump (anePg q) F.ANE_JOB_CYC_CYC n

/-- BEXP (R266): `bmax`: BMAX of the earlier words, `own`: what the word itself has fed to the detector. It waits up to 4
cycles, a number that the manual leaves open. -/
def aneBexp (s : State) (q bmax own : Nat) : State :=
  let p := anePg q
  let (n, s) := s.fresh
  let s := s.aneStall q (n % 5)
  let d := s.aneOf q
  let sh := bitLen 41 bmax - d.bits
  ((s.setAne q { d with bmax := own }).set p F.ANE_BEXP_BSH sh).set p F.ANE_BEXP_SUM (s.get p F.ANE_BEXP_SUM + sh)

/-- LDP (R265): none where W is above 18. -/
def aneLdp (s : State) (q t n : Nat) : State × Bool :=
  let (s, a, _) := s.spadRead q (8 * t)
  let (s, b, _) := s.spadRead q (8 * t + 4)
  let d := s.aneOf q
  if 18 < fget a 24 20 then (s, false)
  else
    let x : Ptr := ⟨fget a 19 0, fget a 24 20, toSigned 16 (fget b 15 0), toSigned 16 (fget b 31 16), 0⟩
    (s.setAne q { d with ptrs := tabPut {} d.ptrs n x }, true)

/-! ## Transfers (R278, R279) -/

/-- The sequencer starts at ENTRY. -/
def aneRun (s : State) (q : Nat) : State := (s.setAneState q 2).aneFetch q (fget (s.jobWord q 0) 13 0) true

/-- Cycles in which a master had a request waiting for a bank (R272): 2 the transfer unit, 3 the last cores, 4 the host. -/
def bankWait (s : State) (q m n : Nat) : State := s.bump (anePg q) (F.ANE_SPAD_CONFLICT_COUNT.off (4 * m)) n

/-- The oldest transfer is complete; `wait`: cycles it waited for banks. -/
def xferDone (s : State) (q wait : Nat) : State :=
  let d := s.aneOf q
  match d.xfers, d.job with
  | x :: r, some (w, _) =>
    let s := (s.xferSome q w x (xferLen w x)).bankWait q 2 wait
    let s := s.setAne q { s.aneOf q with xfers := r }
    if !r.isEmpty then s
    else if s.aneState q = 1 then s.aneRun q
    else if s.aneState q = 3 then s.aneEnd q 0
    else s
  | _, _ => s

/-- DONE (R279, R280): transfers still in progress come to their end, the WHEN 2 transfers run, then the job ends. -/
def aneDone (s : State) (q : Nat) : State :=
  match (s.aneOf q).job with
  | some (w, _) =>
    let xs := (s.aneOf q).xfers ++ xfersAt w 2
    if xs.isEmpty then s.aneEnd q 0 else (s.setAne q { s.aneOf q with xfers := xs }).setAneState q 3
  | none => s

/-- Words of a descriptor found corrupted in the queue: they are delivered as read, holding values nothing fixes, and are
counted (R221, R276). -/
def jobBlur (s : State) (q : Nat) (ws : List W32) (bad : BitVec 16) : State × List W32 :=
  (List.range 16).foldl (fun (a : State × List W32) i =>
    if bad.getLsbD i then
      let (f, s) := a.1.fresh
      (s.parityErr (anePg q) 1, a.2.set i (BitVec.ofNat 32 f))
    else a) (s, ws)

/-- The engine takes the oldest descriptor (R279, R280); `bad`: its words found corrupted, which the mailbox holds poisoned. -/
def aneTake (s : State) (q : Nat) (bad : BitVec 16) : State :=
  let p := anePg q
  let d := s.aneOf q
  let st := s.aneState q
  match d.jobq with
  | [] => s
  | (ws, slot) :: r =>
    if s.enabled p && (st == 6 || (st == 0 && !s.flag p F.ANE_CTL_HOLD)) then
      let (s, w) := s.jobBlur q ws bad
      let s := if st = 6 then s
        else (w.zipIdx).foldl (fun s x => s.spadPut q (4 * x.2) x.1 (bad.getLsbD x.2)) s
      let k (i : Nat) := fget (w.getD (1 + i / 2) 0) (16 * (i % 2) + 15) (16 * (i % 2))
      let s := s.setAne q { bits := s.get p F.ANE_CTL_BITS, jobq := r, job := some (w, slot), win := d.win, badTgt := d.badTgt,
                            k := (List.range 4).foldl (fun m i => tabPut 0 m i (k i)) [] }
      let s := (((s.set p F.ANE_STS_TAG (fget (w.getD 0 0) 31 16)).set p F.ANE_JOB_CYC_CYC 0).wr p 0x114 0).aneSync q
      let used := (List.range 3).any (fun x => xferWhen w x != 0)
      if st = 6 then s.aneEnd q 8
      else if s.stage < 2 || (decide (s.stage < 3) && used) then s.aneEnd q 6
      else if xferErr w then s.aneEnd q 9
      else if fget (w.getD 0 0) 13 0 < 8192 ∧ !s.flag p F.ANE_UC_STS_VENDOR_VALID then s.aneEnd q 7
      else if (xfersAt w 1).isEmpty then s.aneRun q
      else (s.setAne q { s.aneOf q with xfers := xfersAt w 1 }).setAneState q 1
    else s

/-- A job runs. -/
def aneBusy (s : State) (q : Nat) : Bool := 1 ≤ s.aneState q && s.aneState q ≤ 3

/-- A write to ANE_CTL (R281). -/
def aneCtl (s : State) (q : Nat) (v : W32) : State :=
  let p := anePg q
  let s := s.writeReg p 0x100 v false
  let s := if v.getLsbD 1 && s.aneBusy q then s.aneEnd q 5 else s
  if s.aneState q = 0 ∨ s.aneState q = 4 then s.aneRest q else s

/-- A descriptor joins the job queue. -/
def jobPut (s : State) (q : Nat) (w : List W32) (slot : Option Nat) : State :=
  (s.setAne q { s.aneOf q with jobq := (s.aneOf q).jobq ++ [(w, slot)] }).aneSync q

/-- A write to word `i` of ANE_JOBQ; word 15 submits (R276). -/
def jobqWrite (s : State) (q i : Nat) (v : W32) : State :=
  let d := s.aneOf q
  let s := s.setAne q { d with win := tabPut 0 d.win i v }
  if i ≠ 15 then s
  else if 8 ≤ d.jobq.length then s.put (anePg q) F.ANE_STS_JOBQ_OVF true
  else s.jobPut q ((List.range 16).map (fun j => tabGet 0 (s.aneOf q).win j)) none

/-! ## March tests (R283, R284) -/

/-- A write to ANE_MARCH_CTL. -/
def marchCtl (s : State) (q : Nat) (v : W32) : State :=
  let p := anePg q
  let s := s.writeReg p 0x140 v false
  if !v.getLsbD 0 then s
  else if (s.aneState q = 4 ∨ s.aneState q = 6) ∧ s.get p F.ANE_MARCH_CTL_ALG ≠ 3 then
    ((s.setAne q { s.aneOf q with tgt := s.get p F.ANE_MARCH_CTL_TGT }).setAneState q 5).put p F.ANE_MARCH_STS_BUSY true
  else s.put p F.ANE_MARCH_STS_MARCH_ERR true

/-- A march ends: the banks, or the microcode store, that failed, and the first failing address and difference. The
target is left at 0. -/
def marchDone (s : State) (q : Nat) (banks : W32) (uc : Bool) (addr : Nat) (x : W32) : State :=
  let p := anePg q
  if s.aneState q ≠ 5 then s
  else
    let tgt := (s.aneOf q).tgt
    let fail := if tgt = 0 then decide (banks ≠ 0) else uc
    let s :=
      if tgt = 0 then
        { s with spad := s.spad.filter (fun e => e.1 / 2 ^ 18 != q), spadPoison := s.spadPoison.filter (fun k => k / 2 ^ 18 != q),
                 upset := s.upset.filter (fun e => !(e.1 / 2 ^ 40 == 5 && e.1 % 2 ^ 40 / 2 ^ 18 == q)) }
      else
        { s with ucBytes := s.ucBytes.filter (fun e => e.1 / 2 ^ 19 != q), ucode := s.ucode.filter (fun e => e.1 / 2 ^ 17 != q),
                 upset := s.upset.filter (fun e =>
                   !(e.1 / 2 ^ 40 == 4 && e.1 % 2 ^ 40 / 2 ^ 17 == q && decide (2 ^ 16 ≤ e.1 % 2 ^ 17))) }
    let s := if tgt = 0 then s.set p F.ANE_MARCH_BAD_BANKS banks.toNat else s.put p F.ANE_MARCH_STS_UC_BAD uc
    let s := (s.put p F.ANE_MARCH_STS_BUSY false).put p F.ANE_MARCH_STS_PASS (!fail)
    let s := if fail then (s.set p F.ANE_MARCH_ADDR_ADDR addr).set p F.ANE_MARCH_XOR_XOR x.toNat else s
    let d := s.aneOf q
    let bad := d.badTgt.filter (· != tgt) ++ (if fail then [tgt] else [])
    let s := s.setAne q { d with badTgt := bad }
    if bad.isEmpty then s.setAneState q 4
    else
      let s := s.setAneState q 6
      if fail then s.rise p X.ANE_MARCH_FAIL else s

/-! ## BAR4 (R269, R343, R450) -/

/-- Engine and offset in its window of a BAR4 offset. -/
def bar4Eng (a : Nat) : Nat := a / 0x400000
def bar4Ofs (a : Nat) : Nat := a % 0x400000

/-- Cycles in which a host access to a scratchpad waited for a bank. -/
def bar4Wait (s : State) (a n : Nat) : State := if bar4Ofs a < 0x100000 then s.bankWait (bar4Eng a) 4 n else s

/-- POISON_RX (R343). -/
def poisonRx (s : State) : State := (s.put (pg T.pci 0) F.PCI_STS_POISON_RX true).rise (pg T.pci 0) X.PCI_POISON_RX

/-- One byte written to a microcode word: byte 19 makes the word fetchable. -/
def ucPut (s : State) (q o : Nat) (v : Byte) : State :=
  let p := anePg q
  let n := o / 32
  let b := o % 32
  if n < 8192 then s.put p F.ANE_UC_STS_VENDOR_WR true
  else if s.aneState q ≠ 4 then s.put p F.ANE_UC_STS_HELD_WR true
  else if 20 ≤ b then s
  else
    let k := (q * 16384 + n) * 32
    let s := { s with ucBytes := tabPut 0 s.ucBytes (k + b) v }
    if b ≠ 19 then s
    else
      let g (i : Nat) := tabGet 0 s.ucBytes (k + i)
      let w (i : Nat) : W32 := wordOf (g (4 * i)) (g (4 * i + 1)) (g (4 * i + 2)) (g (4 * i + 3))
      { s with ucode := (List.range 5).foldl (fun m i => tabPut 0 m ((q * 16384 + n) * 8 + i) (w i)) s.ucode,
               upset := s.upset.filter (fun e => !(e.1 / 2 ^ 40 == 4 && e.1 % 2 ^ 40 / 8 == q * 16384 + n)) }

/-- One byte of a BAR4 write: its offset, and none where its byte enable is off. -/
def bar4Byte (s : State) (a : Nat) (v : Option Byte) (ep : Bool) : State :=
  let q := bar4Eng a
  let o := bar4Ofs a
  match v with
  | none => s
  | some v =>
    if o < 0x100000 then
      if s.aneState q = 5 then s
      else s.spadPart q o (BitVec.ofNat 32 (0xFF <<< (8 * (o % 4)))) (BitVec.ofNat 32 (v.toNat <<< (8 * (o % 4)))) ep
    else if o < 0x180000 then (if ep then s else s.ucPut q (o - 0x100000) v)
    else s

/-- Whole scratchpad words of a write end an earlier poison. -/
def bar4Clear (s : State) (a : Nat) (bs : List (Option Byte)) (ep : Bool) : State :=
  if ep then s
  else
    let whole := (List.range (bs.length + 4)).filter (fun i =>
      (a + i) % 4 == 0 && (List.range 4).all (fun j => (bs.getD (i + j) none).isSome))
    whole.foldl (fun (s : State) i =>
      if bar4Ofs (a + i) < 0x100000 then
        let k := spadKey (bar4Eng (a + i)) (bar4Ofs (a + i))
        { s with spadPoison := s.spadPoison.filter (· != k), upset := tabErase s.upset (5 * 2 ^ 40 + k) }
      else s) s

/-- A host write through BAR4. -/
def bar4Write (s : State) (a : Nat) (bs : List (Option Byte)) (ep : Bool) : State :=
  let s := if ep then s.poisonRx else s
  let s := (bs.zipIdx).foldl (fun s x => s.bar4Byte (a + x.2) x.1 ep) s
  if s.aneState (bar4Eng a) = 5 then s else s.bar4Clear a bs ep

/-- A byte read through BAR4. -/
def bar4Get (s : State) (a : Nat) : Byte :=
  let q := bar4Eng a
  let o := bar4Ofs a
  if s.aneState q = 5 then 0
  else if o < 0x100000 then (tabGet 0 s.spad (spadKey q o)).extractLsb' (8 * (o % 4)) 8
  else if o < 0x180000 then
    (if (o - 0x100000) / 32 < 8192 then 0 else tabGet 0 s.ucBytes (q * 16384 * 32 + (o - 0x100000)))
  else 0

/-- A host read of `n` words through BAR4 from the word that holds an offset. -/
def bar4Read (s : State) (a n : Nat) : State :=
  let a0 := a / 4 * 4
  let word (i : Nat) : W32 := wordOf (s.bar4Get (a0 + 4 * i)) (s.bar4Get (a0 + 4 * i + 1)) (s.bar4Get (a0 + 4 * i + 2)) (s.bar4Get (a0 + 4 * i + 3))
  let isSpad (i : Nat) : Bool := decide (bar4Ofs (a0 + 4 * i) < 0x100000) && s.aneState (bar4Eng a0) != 5
  let bad := (List.range n).any (fun i => isSpad i && s.spadBad (spadKey (bar4Eng a0) (bar4Ofs (a0 + 4 * i))))
  let ws := (List.range n).map word
  let s := (List.range n).foldl (fun s i => if isSpad i then (s.spadRead (bar4Eng a0) (bar4Ofs (a0 + 4 * i))).1 else s) s
  s.emit (.cpl ws bad)

/-- A PCI Express 32-bit atomic on BAR4 (R342): anything but an aligned scratchpad word is an Unsupported Request. -/
def bar4Atomic (s : State) (a : Nat) (swap : Bool) (v : W32) (ep : Bool) : State :=
  let q := bar4Eng a
  if a % 4 ≠ 0 ∨ 0x100000 ≤ bar4Ofs a then s.emit .ur
  else if s.aneState q = 5 then s.emit (.cpl [0] false)
  else
    let s := if ep then s.poisonRx else s
    let (s, old, bad) := s.spadAtomic q (bar4Ofs a) swap v
    let s := if ep then s.spadPut q (bar4Ofs a) (tabGet 0 s.spad (spadKey q (bar4Ofs a))) true else s
    s.emit (.cpl [old] bad)

end State

end Sys2Proof.Machine
end

