-- ==== Sys2Proof/Machine/Flash.lean ====
section
/-!
DEFINITION. The SPI flash: words, the CRC-32 of its images, the calibration slots and the integrator data (R384, R396,
R397, R402).
-/
namespace Sys2Proof.Machine

open Sys2Proof

/-! ## CRC-32 of IEEE 802.3 -/

/-- The CRC register, reflected, after `n` bits of a word's low end have been taken in. -/
def crcBits (c : Nat) : Nat → Nat
  | 0 => c
  | n + 1 => crcBits (if c % 2 = 1 then (c / 2) ^^^ 0xEDB88320 else c / 2) n

/-- CRC-32 of words in little-endian byte order (R14). -/
def crc32 (ws : List W32) : Nat := (ws.foldl (fun c w => crcBits (c ^^^ w.toNat) 32) 0xFFFFFFFF) ^^^ 0xFFFFFFFF

namespace State

/-! ## Words -/

/-- The flash word at a byte address divided by 4; an erased word reads all ones. -/
def flashWord (s : State) (a : Nat) : W32 := tabGet 0xFFFFFFFF s.flash.words a

def flashPut (s : State) (a : Nat) (v : W32) : State :=
  { s with flash := { s.flash with words := tabPut 0xFFFFFFFF s.flash.words a v } }

/-- The words of [a, a + n) read erased. -/
def flashErase (s : State) (a n : Nat) : State :=
  { s with flash := { s.flash with words := s.flash.words.filter (fun x => !(decide (a ≤ x.1) && decide (x.1 < a + n))) } }

/-- `n` words of flash. -/
def flashWords (s : State) (a n : Nat) : List W32 := (List.range n).map (fun i => s.flashWord (a + i))

/-- Words that a flash operation leaves half done hold values nothing fixes. -/
def flashBlur (s : State) (a n : Nat) : State :=
  (List.range n).foldl (fun (s : State) i =>
    let (f, s) := s.fresh
    s.flashPut (a + i) (BitVec.ofNat 32 f)) s

/-! ## Calibration slots (R384, R385) -/

/-- Word address of calibration slot `k` (R396). -/
def slotAddr (k : Nat) : Nat := 0x230000 + 0x10000 * k

/-- A slot holds a valid copy. -/
def slotValid (s : State) (k : Nat) : Bool :=
  let a := slotAddr k
  let w (i : Nat) : W32 := s.flashWord (a + i)
  w 0 == 0x43414C31 && w 8 == ~~~(w 1) &&
    (w 1023).toNat == crc32 (s.flashWords a 8 ++ s.flashWords (a + 9) 1014) &&
    (w 3).toNat == crc32 (s.flashWords (a + 1024) 49152)

/-- SEQ of a slot. -/
def slotSeq (s : State) (k : Nat) : Nat := (s.flashWord (slotAddr k + 1)).toNat

/-- The slot that holds the newest valid copy. -/
def newestSlot (s : State) : Option Nat :=
  match s.slotValid 0, s.slotValid 1 with
  | false, false => none
  | true, false => some 0
  | false, true => some 1
  | true, true =>
    let d := (s.slotSeq 1 + 2 ^ 32 - s.slotSeq 0) % 2 ^ 32
    some (if 1 ≤ d ∧ d < 2 ^ 31 then 1 else 0)

/-! ## Integrator data (R402) -/

/-- Word `i` of the integrator data. -/
def integWord (s : State) (i : Nat) : W32 := s.flashWord (0x224000 + i)

/-- MAGIC and CRC of the integrator data are correct. -/
def integOk (s : State) : Bool :=
  s.integWord 0 == 0x494E5431 && (s.integWord 1023).toNat == crc32 (s.flashWords 0x224000 1023)

/-! ## Firmware copies (R397, R398) -/

/-- Word `i` of the header of a firmware copy. -/
def fwWord (s : State) (c i : Nat) : W32 := s.flashWord (0x4000 + 0x100000 * c + i)

/-- SVN and VERSION of a copy. -/
def fwSvn (s : State) (c : Nat) : Nat := fget (s.fwWord c 1) 23 16
def fwVersion (s : State) (c : Nat) : Nat := fget (s.fwWord c 1) 15 0

/-- MAGIC, LEN and the reserved words of a header are correct. -/
def fwHeader (s : State) (c : Nat) : Bool :=
  let len := (s.fwWord c 2).toNat
  s.fwWord c 0 == 0x54425046 && len % 16 == 0 && decide (len ≤ 4190208) && fget (s.fwWord c 1) 31 25 == 0 &&
    (List.range 966).all (fun i => s.fwWord c (58 + i) == 0)

/-- REASON of the first check that a copy fails; 0: it passes. -/
def fwCheck (s : State) (c : Nat) (k : CopyCheck) : Nat :=
  if !k.read then 6
  else if !s.fwHeader c then 1
  else if !k.key then 2
  else if !k.sig then 3
  else if s.fwSvn c < s.get (pg T.sec 0) F.SEC_STS_SVN_MIN then 4
  else if !k.tag then 5
  else 0

end State

end Sys2Proof.Machine
end

