-- ==== Sys2Proof/Machine/Tdc.lean ====
section
/-!
DEFINITION. Awls: stream queues and rings, gates, and interval units (R208 to R233).
-/
namespace Sys2Proof.Machine

open Sys2Proof

/-- The page of an interval unit is its eyelet's; its registers repeat every 0x40 bytes. -/
def iuFld (f : Fld) (u : Nat) : Fld := f.off (0x40 * u)

namespace State

def awlOf (s : State) (c : Nat) : AwlDyn := tabGet {} s.awl c
def setAwl (s : State) (c : Nat) (d : AwlDyn) : State := { s with awl := tabPut {} s.awl c d }
/-- Interval unit 4e + u. -/
def iuOf (s : State) (i : Nat) : IuDyn := tabGet {} s.iu i
def setIu (s : State) (i : Nat) (d : IuDyn) : State := { s with iu := tabPut {} s.iu i d }
def gateOf (s : State) (q : Nat) : GateDyn := tabGet [] s.gate q

/-! ## Streams (R213 to R219) -/

/-- Channel c streams (R213). -/
def streaming (s : State) (c : Nat) : Bool :=
  let p := pg T.tdc (c / 16)
  s.enabled p && (s.rd p 0x100).getLsbD (c % 16) && decide (3 ≤ s.stage) && !s.eyeHeel (c / 16)

/-- Edge codes of a channel are selected for its stream. -/
def edgeSel (s : State) (c edge : Nat) : Bool :=
  (s.rd (pg T.tdc (c / 16)) (0x104 + 4 * (c % 16 / 8))).getLsbD (4 * (c % 8) + edge)

/-- Words of a stream are lost (R217, R218): counted, and named in TDC_LOSS_STS. -/
def streamLost (s : State) (c n : Nat) : State :=
  let p := pg T.tdc (c / 16)
  ((s.bump p F.TDC_LOST_CNT_COUNT n).setBitAt p 0x110 (c % 16) true).rise p X.TDC_STAMP_LOST

/-- A word joins a stream queue; one that begins a partial burst starts its linger time (R222). -/
def streamJoin (s : State) (c : Nat) (w : W32) : State :=
  let d := s.awlOf c
  let end_ := s.mono + max 1 (s.get (pg T.tdc (c / 16)) F.TDC_CTL_LINGER) * 65536
  s.setAwl c { d with q := d.q ++ [w], linger := if d.q.length % 16 = 0 then end_ else d.linger }

/-- A word enters a stream queue, or is lost at a full one. -/
def streamPut (s : State) (c : Nat) (w : W32) : State :=
  let d := s.awlOf c
  if d.q.length < 64 then s.streamJoin c w
  else (s.setAwl c { d with lost := satAdd (2 ^ 24 - 1) d.lost 1 }).streamLost c 1

/-- A LOST word enters when the queue has room again. -/
def streamRoom (s : State) (c : Nat) : State :=
  let d := s.awlOf c
  if d.lost ≠ 0 ∧ d.q.length < 64 then
    (s.setAwl c { d with lost := 0, epoch := none }).streamJoin c (BitVec.ofNat 32 (3 * 2 ^ 29 + d.lost))
  else s

/-- EPOCH words ahead of a STAMP or GATE word of a UI (R215). -/
def streamEpoch (s : State) (c ui : Nat) : State :=
  let e := ui / 2 ^ 17
  let d := s.awlOf c
  let s := if (match d.epoch with | some x => decide (x / 2 ^ 28 = e / 2 ^ 28) | none => false) then s
    else s.streamPut c (BitVec.ofNat 32 (2 * 2 ^ 29 + e / 2 ^ 28 % 2 ^ 19))
  let s := if d.epoch = some e then s else s.streamPut c (BitVec.ofNat 32 (1 * 2 ^ 29 + e % 2 ^ 28))
  s.setAwl c { s.awlOf c with epoch := some e }

/-- A GATE word (R214). -/
def streamGate (s : State) (c ui : Nat) (opens : Bool) : State :=
  if s.streaming c && s.flag (pg T.tdc (c / 16)) F.TDC_CTL_GATED then
    ((s.streamRoom c).streamEpoch c ui).streamPut c
      (BitVec.ofNat 32 (5 * 2 ^ 29 + ui % 2 ^ 17 * 2 ^ 9 + b2n opens * 2 ^ 26))
  else s

/-- A UI lies in [open, close) of a gate of the quadrant. -/
def inGate (s : State) (q ui : Nat) : Bool :=
  (s.gateOf q).any (fun g => decide (g.1 ≤ ui) && (match g.2 with | some c => decide (ui < c) | none => true))

/-- A stamp enters its stream queue, after EPOCH words and a MISS word where they are due (R213 to R215). -/
def streamWord (s : State) (x : Stamp) : State :=
  let c := x.ch
  let ui := x.v / 1024
  let s := (s.streamRoom c).streamEpoch c ui
  let d := s.awlOf c
  let s :=
    if d.miss = 0 then s
    else
      let s := s.streamPut c (BitVec.ofNat 32 (4 * 2 ^ 29 + d.miss))
      s.setAwl c { s.awlOf c with miss := 0 }
  s.streamPut c (BitVec.ofNat 32 (x.v % 1024 / 2 + ui % 2 ^ 17 * 2 ^ 9 + x.edge * 2 ^ 26))

/-- The stream of a channel is gated. -/
def streamGated (s : State) (c : Nat) : Bool := c % 16 == 0 && s.flag (pg T.tdc (c / 16)) F.TDC_CTL_GATED

/-- Stamps of a gated channel whose gate is decided, 64 UI of the pin after them, enter the stream if they lie in a gate
(R225, R226). -/
def gateRelease (s : State) (c : Nat) : State :=
  let d := s.awlOf c
  let ok := d.wait.filter (fun x => decide (x.v / 1024 + 64 ≤ s.uiQ (c / 64)))
  let s := s.setAwl c { d with wait := d.wait.filter (fun x => !decide (x.v / 1024 + 64 ≤ s.uiQ (c / 64))) }
  ok.foldl (fun s x => if s.streaming c && s.inGate (c / 64) (x.v / 1024) then s.streamWord x else s) s

/-- A stamp reaches its stream; that of a gated channel waits until its gate is decided (R212, R226). -/
def streamStamp (s : State) (x : Stamp) : State :=
  let c := x.ch
  if s.streaming c && s.edgeSel c x.edge then
    if s.streamGated c then
      (s.setAwl c { s.awlOf c with wait := (s.awlOf c).wait ++ [x] }).gateRelease c
    else s.streamWord x
  else s

/-! ## Rings (R216, R217, R223) -/

/-- Words of a ring. -/
def ringSize (s : State) (e : Nat) : Nat := 16 * s.get (pg T.tdc e) F.TDC_RING_SIZE_SIZE16

/-- HBM address of the stream region of an eyelet. -/
def ringBase (s : State) (e : Nat) : Nat :=
  s.get (pg T.tdc e) F.TDC_RING_BASE_LO_ADDR_L * 64 + s.get (pg T.tdc e) F.TDC_RING_BASE_HI_ADDR_H * 2 ^ 32

/-- The level of a ring against its watermark: the notice latches as the level rises to it, and where a watermark has
just come into force (`new`) at or below the level (R223). -/
def ringMark (s : State) (c : Nat) (new : Bool) : State :=
  let e := c / 16
  let k := c % 16
  let p := pg T.tdc e
  let n := s.ringSize e
  let wp := s.get p (F.TDC_RING_WP_WP.off (8 * k))
  let rp := s.getEff p (F.TDC_RING_RP_RP.off (8 * k))
  let level := if n = 0 then 0 else (wp + n - rp % n) % n
  let live := decide (s.getEff p F.TDC_RING_WMARK_LEVEL ≤ level)
  let was := (s.rd p 0x10C).getLsbD (16 + k)
  let s := s.setBitAt p 0x10C (16 + k) live
  if live && (new || !was) then s.setBitAt p 0x10C k true else s

/-- One word is written to the ring of a channel; it advances WP. -/
def ringStore (s : State) (c : Nat) (w : W32) : State :=
  let e := c / 16
  let p := pg T.tdc e
  let f := F.TDC_RING_WP_WP.off (8 * (c % 16))
  let n := s.ringSize e
  let wp := s.get p f
  ((s.hbmPutWords (s.ringBase e + 4 * n * (c % 16) + 4 * wp) [w]).set p f ((wp + 1) % n)).ringMark c false

/-- The ring of a channel is full in STOP mode. -/
def ringFull (s : State) (c : Nat) : Bool :=
  let p := pg T.tdc (c / 16)
  let n := s.ringSize (c / 16)
  !s.flag p F.TDC_CTL_MODE &&
    (n == 0 || (s.get p (F.TDC_RING_WP_WP.off (8 * (c % 16))) + 1) % n == s.getEff p (F.TDC_RING_RP_RP.off (8 * (c % 16))) % n)

/-- A word is stored in the ring, or discarded at a full one and counted (R217). -/
def ringPut (s : State) (c : Nat) (w : W32) : State :=
  if s.ringFull c then
    let d := s.awlOf c
    ((s.setAwl c { d with ringLost := d.ringLost + 1 }).streamLost c 1).rise (pg T.tdc (c / 16)) X.TDC_RING_FULL
  else s.ringStore c w

/-- A LOST word is written first once a full ring has room. -/
def ringRoom (s : State) (c : Nat) : State :=
  let d := s.awlOf c
  if d.ringLost ≠ 0 ∧ !s.ringFull c then
    (s.ringStore c (BitVec.ofNat 32 (3 * 2 ^ 29 + min d.ringLost (2 ^ 24 - 1)))).setAwl c { d with ringLost := 0, again := true }
  else s

/-- RP and WMARK as written come into force with the next word for the ring; a watermark that differs from the one in
force is met anew (R223). -/
def ringForce (s : State) (c : Nat) : State :=
  let p := pg T.tdc (c / 16)
  let new := decide (s.get p F.TDC_RING_WMARK_LEVEL ≠ s.getEff p F.TDC_RING_WMARK_LEVEL)
  let s := s.inForce p (0x204 + 8 * (c % 16))
  if new then (List.range 16).foldl (fun s k => s.ringMark (c / 16 * 16 + k) true) (s.inForce p 0x120) else s

/-- A word leaves a stream queue for its ring. After a LOST word of the ring, both EPOCH words go ahead of the next STAMP
or GATE word (R215, R217). -/
def ringWord (s : State) (c : Nat) (w : W32) : State :=
  let s := (s.ringForce c).ringRoom c
  let d := s.awlOf c
  let typ := fget w 31 29
  if typ = 1 ∨ typ = 2 then
    let v := fget w 27 0
    let e := if typ = 1 then d.ringEpoch / 2 ^ 28 * 2 ^ 28 + v else v % 2 ^ 19 * 2 ^ 28 + d.ringEpoch % 2 ^ 28
    let s := s.setAwl c { d with ringEpoch := e }
    if d.again then s else s.ringPut c w
  else if (typ = 0 ∨ typ = 5) ∧ d.again then
    let s := s.setAwl c { d with again := false }
    ((s.ringPut c (BitVec.ofNat 32 (2 * 2 ^ 29 + d.ringEpoch / 2 ^ 28))).ringPut c
      (BitVec.ofNat 32 (1 * 2 ^ 29 + d.ringEpoch % 2 ^ 28))).ringPut c w
  else s.ringPut c w

/-- The oldest `n` words of a queue leave for the ring (R216). -/
def streamDrain (s : State) (c n : Nat) : State :=
  let d := s.awlOf c
  let s := s.setAwl c { d with q := d.q.drop n }
  (d.q.take n).foldl (fun s w => s.ringWord c w) s

/-- Words of a stream queue found corrupted carry POISON (R214, R221). -/
def streamPoison (s : State) (c bad : Nat) : State :=
  let d := s.awlOf c
  let n := ((List.range d.q.length).filter (fun i => bad.testBit i)).length
  if n = 0 then s
  else
    let p := pg T.tdc (c / 16)
    let s := s.setAwl c { d with q := d.q.zipIdx.map (fun x => if bad.testBit x.2 then x.1 ||| 0x10000000 else x.1) }
    ((s.parityErr p n).setBitAt p 0x110 (16 + c % 16) true).rise p X.TDC_STAMP_POISON

/-- Every stream of an eyelet writes its tail at once (R222); `bad`: the corrupted words of a channel's queue. -/
def streamFlush (s : State) (e : Nat) (bad : Nat → Nat) : State :=
  (List.range 16).foldl (fun s k => ((s.gateRelease (16 * e + k)).streamPoison (16 * e + k) (bad k)).streamDrain (16 * e + k) 64) s

/-- The words of a stream queue with an error as they stand. -/
def streamBad (s : State) (e k : Nat) : Nat :=
  ((List.range 64).filter (fun i => tabGet 0 s.upset (7 * 2 ^ 40 + 64 * (16 * e + k) + i) != 0)).foldl setBit 0

/-! ## Interval units (R227 to R232) -/

def iuState (s : State) (i : Nat) : Nat := s.get (pg T.tdc (i / 4)) (iuFld F.TDC_IU_STS_STATE (i % 4))
def setIuState (s : State) (i v : Nat) : State := s.set (pg T.tdc (i / 4)) (iuFld F.TDC_IU_STS_STATE (i % 4)) v
def iuDepth (s : State) (i : Nat) : State :=
  s.set (pg T.tdc (i / 4)) (iuFld F.TDC_IU_STS_DEPTH (i % 4)) (s.iuOf i).results.length

end State

namespace IuDyn

def mode (d : IuDyn) : Nat := fget d.ctl 3 2
def count (d : IuDyn) : Nat := fget d.ctl 19 4
def avgLog (d : IuDyn) : Nat := fget d.ctl 23 20
def gated (d : IuDyn) : Bool := d.ctl.getLsbD 24
def startCh (d : IuDyn) : Nat := fget d.src 7 0
def startEdge (d : IuDyn) : Nat := fget d.src 9 8
def stopCh (d : IuDyn) : Nat := fget d.src 17 10
def stopEdge (d : IuDyn) : Nat := fget d.src 19 18
/-- TMO in UI; 0 counts as 1 unit of 64. -/
def span (d : IuDyn) : Nat := max 1 (fget d.tmo 23 0) * 64

end IuDyn

/-- A result entry of R230 without its SEQ: 44-bit value, flag bits 16:12 of word 1, words 2 and 3. -/
def iuEntry (value : Int) (flags w2 w3 : Nat) : List W32 :=
  let v := ofSigned 44 value
  [BitVec.ofNat 32 v, BitVec.ofNat 32 (v / 2 ^ 32 + flags), BitVec.ofNat 32 w2, BitVec.ofNat 32 w3]

namespace State

/-- A result enters the queue of a unit, or is lost; a unit that runs for a MEASURE ticket has it copied to the
ticket's destination (R230, R288). COUNT results end the run. -/
def iuResult (s : State) (i : Nat) (value : Int) (flags w2 hi3 : Nat) : State :=
  let p := pg T.tdc (i / 4)
  let d := s.iuOf i
  let seq := d.seq + 1
  let ws := iuEntry value (flags + b2n d.miss * 2 ^ 16) w2 (seq % 2 ^ 16 + hi3 * 2 ^ 16)
  let d := { d with seq := seq }
  let s :=
    match d.owner with
    | some (_, dest) =>
      (s.hbmPutWords (dest + 16 * (seq - 1)) (ws.set 1 (ws.getD 1 0 ||| 0x80000000))).setIu i d
    | none =>
      if d.results.length < 16 then s.setIu i { d with results := d.results ++ [ws] }
      else ((s.setIu i d).put p (iuFld F.TDC_IU_STS_OVF (i % 4)) true).rise p X.TDC_IU_OVF
  let s := s.iuDepth i
  if d.count > 0 ∧ seq % 2 ^ 16 = d.count then
    let s := s.setIuState i 5
    match d.owner with
    | some (slot, _) => s.modTicket slot (fun k => { k with fin := true, expEnd := some (s.uiQ (d.startCh / 64)) })
    | none => s
  else s

/-- The mean of a group, rounded to the nearest with halves up (R231). -/
def meanOf (xs : List Int) : Int :=
  let n : Int := xs.length
  if n = 0 then 0 else (2 * xs.foldl (· + ·) 0 + n) / (2 * n)

/-- The group of an average is complete: one entry (R230, R231). -/
def iuGroup (s : State) (i : Nat) : State :=
  let d := s.iuOf i
  if d.members.length + d.excl < 2 ^ d.avgLog then s
  else
    let vs := d.members.map (·.1)
    let m := meanOf vs
    let lo := vs.foldl min m
    let hi := vs.foldl max m
    let fl := b2n (d.members.any (·.2.1)) * 2 ^ 12 + b2n (d.members.any (·.2.2)) * 2 ^ 13 + b2n d.members.isEmpty * 2 ^ 14
    let w2 := min 65535 (m - lo).toNat + min 65535 (hi - m).toNat * 2 ^ 16
    (s.setIu i { d with members := [], excl := 0 }).iuResult i m fl w2 (d.excl % 2 ^ 16)

/-- A pairing result (R228): interval, TIE, ORDER, start stamp. -/
def iuPair (s : State) (i : Nat) (v : Int) (tie order : Bool) (start : Nat) : State :=
  let d := s.iuOf i
  if d.mode = 2 then (s.setIu i { d with members := d.members ++ [(v, tie, order)] }).iuGroup i
  else s.iuResult i v (b2n tie * 2 ^ 12 + b2n order * 2 ^ 13) (start / 1024) 0

/-- A TMO result (R228). -/
def iuTmo (s : State) (i : Nat) : State :=
  let s := s.setIuState i 1
  let d := s.iuOf i
  if d.mode = 2 then (s.setIu i { d with excl := d.excl + 1 }).iuGroup i
  else s.iuResult i 0 (2 ^ 14) 0 0

/-- A start stamp (R228). -/
def iuStart (s : State) (i v : Nat) : State :=
  let d := s.iuOf i
  if s.iuState i = 1 then
    match d.held with
    | some h => (s.setIu i { d with held := none }).iuPair i ((h : Int) - v) false true v
    | none => (s.setIu i { d with t0 := v, deadline := v + d.span * 1024 }).setIuState i 2
  else s

/-- A stop stamp (R228); a deadline that it passes has timed out first. -/
def iuStop (s : State) (i v : Nat) : State :=
  let s := if s.iuState i = 2 ∧ (s.iuOf i).deadline < v then s.iuTmo i else s
  let d := s.iuOf i
  if s.iuState i = 1 then s.setIu i { d with held := some v }
  else if s.iuState i = 2 then
    (s.setIuState i 1).iuPair i ((v : Int) - d.t0) (v == d.t0) false d.t0
  else s

/-- The gate of a frequency unit is over (R232): the edges in [open, close), those of its channel that are still on
their way included, give a result; later edges stay for the next gate. -/
def iuGateEnd (s : State) (i : Nat) : State :=
  let d := s.iuOf i
  match d.ge with
  | none => s
  | some ge =>
    if s.iuState i ≠ 4 then s
    else
      let s := s.upToQ (d.startCh / 64) ge
      let late := (s.stamps.filter (fun x => x.ch == d.startCh && x.edge == d.startEdge)).map (·.v)
      let xs := (d.edges ++ late).filter (fun v => decide (d.gs ≤ v) && decide (v < ge))
      let v := match xs with
        | [] => 0
        | x :: r => ((r.foldl max x : Nat) : Int) - (r.foldl min x : Nat)
      let d := { d with edges := d.edges.filter (fun v => decide (ge ≤ v)) }
      let nxt := if d.gated then { d with ge := none } else { d with gs := ge, ge := some (ge + d.span * 1024) }
      let s := (s.setIu i nxt).setIuState i (if d.gated then 3 else 4)
      s.iuResult i v (b2n (decide (xs.length < 2)) * 2 ^ 14) xs.length 0

/-- An edge of a frequency unit: it stays until a gate that may hold it is over (R232). -/
def iuEdge (s : State) (i v : Nat) : State :=
  let d := s.iuOf i
  s.setIu i { d with edges := d.edges ++ [v] }

/-- A stamp reaches an interval unit. -/
def iuStamp (s : State) (i : Nat) (x : Stamp) : State :=
  let d := s.iuOf i
  let st := s.iuState i
  if st = 0 ∨ st = 5 ∨ x.v < d.ta then s
  else
    let isStart := d.startCh == x.ch && d.startEdge == x.edge
    let isStop := d.stopCh == x.ch && d.stopEdge == x.edge
    if d.mode = 1 then (if isStart then s.iuEdge i x.v else s)
    else
      let s := if isStart && s.iuState i == 2 && decide (d.deadline < x.v) then s.iuTmo i else s
      let s := if isStart then s.iuStart i x.v else s
      if isStop && s.iuState i != 5 then s.iuStop i x.v else s

/-- Stamps of one value reach an interval unit: its starts are taken first (R228). -/
def iuStamps (s : State) (xs : List Stamp) (i : Nat) : State :=
  let isStart := fun (x : Stamp) => (s.iuOf i).startCh == x.ch && (s.iuOf i).startEdge == x.edge
  (xs.filter isStart ++ xs.filter (fun x => !isStart x)).foldl (fun s x => s.iuStamp i x) s

/-- A transition of a channel is missed: later results of units that use it carry MISS (R229). -/
def iuMissed (s : State) (c : Nat) : State :=
  (List.range 64).foldl (fun s i =>
    let d := s.iuOf i
    if s.iuState i ≠ 0 ∧ s.iuState i ≠ 5 ∧ (d.startCh = c ∨ (d.mode ≠ 1 ∧ d.stopCh = c)) then s.setIu i { d with miss := true } else s) s

/-- ARM of a unit (R227): none of its state if refused. -/
def iuArm (s : State) (i : Nat) (owner : Option (Nat × Nat)) : State × Bool :=
  let p := pg T.tdc (i / 4)
  let u := i % 4
  let ctl := s.rd p (0x400 + 0x40 * u)
  let src := s.rd p (0x404 + 0x40 * u)
  let st := s.iuState i
  let d : IuDyn := { ctl := ctl, src := src, tmo := s.rd p (0x408 + 0x40 * u), ta := s.now + 65536,
                     results := (s.iuOf i).results, hold := (s.iuOf i).hold, owner := owner }
  if s.enabled p && decide (2 ≤ s.stage) && (st == 0 || st == 5) && d.mode != 3 &&
      !(d.mode == 1 && d.gated && d.startCh % 16 != 0) then
    let d := if d.mode = 1 ∧ !d.gated then { d with gs := d.ta, ge := some (d.ta + d.span * 1024) } else d
    ((s.setIu i d).setIuState i (if d.mode = 1 then (if d.gated then 3 else 4) else 1), true)
  else (s.put p (iuFld F.TDC_IU_STS_ARM_ERR u) true, false)

/-- DISARM (R227): results already queued stay. -/
def iuDisarm (s : State) (i : Nat) : State :=
  if s.iuState i = 0 then s
  else
    let d := s.iuOf i
    (s.setIu i { d with members := [], excl := 0, ge := none, edges := [], held := none, owner := none }).setIuState i 0

/-! ## Gates (R224 to R226) -/

/-- The stamps of the quadrant's gated channels before a gate edge, which it decides, enter their streams. -/
def gateSettle (s : State) (q : Nat) : State := (List.range 4).foldl (fun s j => s.gateRelease (64 * q + 16 * j)) s

/-- The gate of a quadrant opens at a UI, known 64 UI later: frequency units that wait for it take it (R225, R232). -/
def gateOpen (s : State) (q t : Nat) : State :=
  match s.gateOf q with
  | (_, none) :: _ => s
  | gs =>
    let s := (s.upToQ q ((t + 63) * 1024)).gateSettle q
    let s := { s with gate := tabPut [] s.gate q ((t, none) :: gs.take 3) }
    let s := (List.range 4).foldl (fun s j => s.streamGate (64 * q + 16 * j) t true) s
    let s := s.upToQ q ((t + 64) * 1024)
    (List.range 64).foldl (fun s i =>
      let s := if (s.iuOf i).gated && (s.iuOf i).mode == 1 && (s.iuOf i).startCh / 64 == q then s.iuGateEnd i else s
      let d := s.iuOf i
      if s.iuState i = 3 ∧ d.startCh / 64 = q ∧ d.ta ≤ t * 1024 then
        (s.setIu i { d with gs := t * 1024, ge := none, edges := d.edges.filter (fun v => decide (t * 1024 ≤ v)) }).setIuState i 4
      else s) s

/-- The gate of a quadrant closes at a UI, known 64 UI later. -/
def gateClose (s : State) (q t : Nat) : State :=
  match s.gateOf q with
  | (o, none) :: gs =>
    let s := (s.upToQ q ((t + 63) * 1024)).gateSettle q
    let s := { s with gate := tabPut [] s.gate q ((o, some t) :: gs) }
    let s := (List.range 4).foldl (fun s j => s.streamGate (64 * q + 16 * j) t false) s
    let s := s.upToQ q ((t + 64) * 1024)
    (List.range 64).foldl (fun s i =>
      let d := s.iuOf i
      if s.iuState i = 4 ∧ d.gated ∧ d.mode = 1 ∧ d.startCh / 64 = q then s.setIu i { d with ge := some (t * 1024) } else s) s
  | _ => s

/-! ## Register writes -/

/-- The stream region of an eyelet lies within HBM (R217). -/
def regionOk (base size : Nat) : Bool := decide (base + 1024 * size ≤ hbmSize)

/-- A write to TDC_CTL (R217, R219, R222); `bad`: words found corrupted in a flush. -/
def tdcCtl (s : State) (e : Nat) (v : W32) (bad : Nat → Nat) : State :=
  let p := pg T.tdc e
  let old := s.rd p 0x100
  let sets := decide ((v &&& ~~~old) &&& 0xFFFF ≠ 0)
  let sz := s.get p F.TDC_RING_SIZE_SIZE16
  let no := sets && (decide (s.stage < 3) || sz == 0 || !regionOk (s.ringBase e) sz)
  let s := s.writeReg p 0x100 v no
  let now := s.rd p 0x100
  let s := (List.range 16).foldl (fun s k =>
    if now.getLsbD k && !old.getLsbD k then s.setAwl (16 * e + k) { s.awlOf (16 * e + k) with epoch := none } else s) s
  if v.getLsbD 31 then s.streamFlush e bad else s

/-- A write to TDC_RING_BASE_LO, _HI or TDC_RING_SIZE (R217). -/
def tdcRing (s : State) (e ofs : Nat) (v : W32) : State :=
  let p := pg T.tdc e
  let t := (writeAt s p ofs v false).1
  let bad := decide (s.get p F.TDC_CTL_STREAM ≠ 0) &&
    (t.get p F.TDC_RING_SIZE_SIZE16 == 0 || !regionOk (t.ringBase e) (t.get p F.TDC_RING_SIZE_SIZE16))
  s.writeReg p ofs v bad

/-- A write to TDC_IU_CTL (R227); DISARM governs an ARM in the same write. -/
def iuCtl (s : State) (i : Nat) (v : W32) : State :=
  let s := s.writeReg (pg T.tdc (i / 4)) (0x400 + 0x40 * (i % 4)) v false
  if v.getLsbD 1 then s.iuDisarm i
  else if v.getLsbD 0 then (s.iuArm i none).1 else s

/-- A read of TDC_IU_RES0 pops the oldest entry into the hold (R230). -/
def iuPop (s : State) (i : Nat) : State × W32 :=
  let d := s.iuOf i
  match d.results with
  | [] => (s.setIu i { d with hold := [] }, 0)
  | r :: rs =>
    let h := r.set 1 (r.getD 1 0 ||| 0x80000000)
    ((s.setIu i { d with results := rs, hold := h }).iuDepth i, h.getD 0 0)

end State

end Sys2Proof.Machine
end

