-- ==== Sys2Proof/Machine/Trigger.lean ====
section
/-!
DEFINITION. Trigger engines: inputs of a sample, terms, actions, arming and ending, acquisition records, markers,
decimation and the write queue (R234 to R254).
-/
namespace Sys2Proof.Machine

open Sys2Proof

def trgPg (q : Nat) : Nat := pg T.trg q

namespace State

/-! ## Welt messages of this device (R352) -/

/-- A message enters the transmit queue of 16, or is lost. MSG_LOST is shown on page 0. -/
def weltPut (s : State) (m : WMsg) : State :=
  if s.wq.length < 16 then { s with wq := s.wq ++ [m] }
  else (s.put (pg T.wlt 0) F.WLT_STS_MSG_LOST true).rise (pg T.wlt 0) X.WLT_MSG_LOST

/-- A message of this device's own: its MID is the next. -/
def weltOwn (s : State) (lace : Bool) (typ data : Nat) : State :=
  let m : WMsg := { lace := lace, typ := typ, data := data, src := s.get (pg T.wlt 0) F.WLT_NODE_DEV, mid := s.wmid,
                    ttl := s.get (pg T.wlt 0) F.WLT_NODE_TTL, link := none }
  if s.wq.length < 16 then { s.weltPut m with wmid := (s.wmid + 1) % 256 } else s.weltPut m

/-! ## Configuration in force -/

/-- A field of the engine's configuration in force since B (R244). -/
def tcfg (s : State) (q : Nat) (f : Fld) : Nat := s.getEff (trgPg q) f

def acqMode (s : State) (q : Nat) : Nat := s.tcfg q F.TRG_CTL_ACQ_MODE

/-- Selected eyelets of the quadrant, ascending. -/
def eyeSel (s : State) (q : Nat) : List Nat := (List.range 4).filter (fun i => (s.tcfg q F.TRG_CTL_EYE_SEL).testBit i)

/-- log2 D in force. -/
def dlog (s : State) (q : Nat) : Nat := s.get (trgPg q) F.TRG_DECIM_CUR_LOG

end State

/-- Record size in bytes of a mode with E selected eyelets (R247). -/
def recSize (mode e : Nat) : Nat := if mode = 1 then 64 * e else if mode = 3 then 8 else 16

namespace State

/-- Capacity of the region in records (R247). -/
def acqCap (s : State) (q : Nat) : Nat :=
  s.get (trgPg q) F.TRG_ACQ_SIZE_SIZE4K * 4096 / max 1 (recSize (s.acqMode q) (s.eyeSel q).length)

/-- Bytes, and lines of 64 bytes, that the write queue holds. -/
def acqBytes (s : State) (q : Nat) : Nat := (s.trgOf q).q.foldl (fun n r => n + 4 * r.ws.length) 0

def acqLines (s : State) (q : Nat) : Nat := (s.acqBytes q + 63) / 64

/-- The queue has held DN_LVL lines or fewer since a time (R252). -/
def acqLow (s : State) (q : Nat) : State :=
  let d := s.trgOf q
  if s.acqLines q ≤ s.tcfg q F.TRG_DECIM_DN_LVL then
    (if d.lowSince.isSome then s else s.setTrg q { d with lowSince := some (s.mono / 1024) })
  else s.setTrg q { d with lowSince := none }

/-! ## Markers (R249) -/

/-- The end of a linger of 1,024 UI that a partial burst starts now (R222, R249). -/
def lingerEnd (s : State) : Nat := s.mono + 1048576

/-- A marker's words enter the marker queue of 64, or it is lost. -/
def markIn (s : State) (q ui idx w3 : Nat) : State :=
  let d := s.trgOf q
  if d.marks.length < 64 then
    s.setTrg q { d with epoch := ui / 2 ^ 32, mlinger := if d.marks.length % 4 = 0 then s.lingerEnd else d.mlinger,
                        marks := d.marks ++ [[lo32 ui, hi32 ui, BitVec.ofNat 32 idx, BitVec.ofNat 32 w3]] }
  else (s.put (trgPg q) F.TRG_STS_MARK_LOST true).rise (trgPg q) X.TRG_MARK_LOST

/-- A marker of the engine's own. With ACQ_MODE 0 nothing is written. -/
def markPut (s : State) (q typ ui idx level term : Nat) (forced : Bool) (info : Nat) : State :=
  if s.acqMode q = 0 then s
  else s.markIn q ui idx
    (typ + s.dlog q * 2 ^ 4 + level * 2 ^ 8 + term * 2 ^ 11 + b2n forced * 2 ^ 13 + min info 65535 * 2 ^ 16)

/-- Index of the next record. -/
def widx (s : State) (q : Nat) : Nat := s.get (trgPg q) F.TRG_ACQ_WIDX_W

/-! ## Ending (R246) -/

/-- A stamp changes a rebuilt level. -/
def rawStamp (s : State) (q : Nat) (x : Stamp) : State :=
  let d := s.trgOf q
  let j := x.ch % 64
  let l := tabGet 0 d.lvl j
  let b := x.edge / 2
  let l' := if x.edge % 2 = 0 then setBit l b else clearBit l b
  s.setTrg q { d with lvl := tabPut 0 d.lvl j l' }

/-- The stamps with a value up to an instant take effect on the rebuilt state, in order of value. -/
def rawTo (s : State) (q t : Nat) : State :=
  let now := ((s.trgOf q).stamps.filter (fun x => decide (x.v ≤ t))).mergeSort (fun a b => decide (a.v ≤ b.v))
  let s := now.foldl (fun s x => s.rawStamp q x) s
  let d := s.trgOf q
  s.setTrg q { d with stamps := d.stamps.filter (fun x => decide (t < x.v)) }

/-- Every stamp not yet evaluated takes effect on the rebuilt state, in order of value. -/
def rawAll (s : State) (q : Nat) : State := s.rawTo q ((s.trgOf q).stamps.foldl (fun m x => max m x.v) 0)

/-- The INFO entry of an end is posted once nothing is left to write. -/
def infoPost (s : State) (q : Nat) : State :=
  let d := s.trgOf q
  match d.info with
  | none => s
  | some ws =>
    if d.q.isEmpty && d.marks.isEmpty then
      (s.setTrg q { d with info := none }).evPush (s.evWords 3 0x10 (ws.getD 0 0) (ws.getD 1 0) (ws.getD 2 0)) none
    else s

/-- STATE becomes DONE for a reason; the INFO entry follows the last write. -/
def trgDone (s : State) (q reason : Nat) : State :=
  let p := trgPg q
  let s := s.rawAll q
  let s := s.setTrg q { s.trgOf q with
    armed := none, forced := [], disarm := none, fails := [], evt := [], lace := [], welt := [], xquad := [], segs := [],
    want := none, points := [], avg := [], frecs := [], pend := none, left := none,
    info := some [BitVec.ofNat 32 (q + reason * 2 ^ 4), BitVec.ofNat 32 (s.get p F.TRG_TRIG_IDX_IDX), BitVec.ofNat 32 (s.widx q)] }
  ((s.set p F.TRG_STS_STATE 3).set p F.TRG_STS_END reason).infoPost q

/-- The end at UI `u` with its END marker. -/
def trgEnd (s : State) (q reason u : Nat) : State :=
  (s.markPut q 7 u (s.widx q) 0 0 false reason).trgDone q reason

/-! ## Records (R247 to R253) -/

/-- A change of log2 D waits for its boundary, if one is due after a record (R252). -/
def decimCheck (s : State) (q : Nat) : State :=
  let d := s.trgOf q
  if s.tcfg q F.TRG_DECIM_AUTO = 1 ∧ d.want = none ∧ s.tcfg q F.TRG_DECIM_UP_LVL ≤ s.acqLines q ∧
      s.dlog q < s.tcfg q F.TRG_DECIM_MAX_LOG then
    s.setTrg q { d with want := some (s.dlog q + 1) }
  else s

/-- A change of log2 D takes effect for a record that begins at `ui`. -/
def decimTake (s : State) (q ui : Nat) : State :=
  let p := trgPg q
  match (s.trgOf q).want with
  | none => s
  | some w =>
    let m := s.acqMode q
    let unit := if m = 1 then 16 * 2 ^ w else if m = 2 then 2 ^ w
      else if m = 4 then 64 * 2 ^ (s.tcfg q F.TRG_AVG_AVG_LOG + w) else 1
    if ui % unit ≠ 0 then s
    else
      let up := decide (s.dlog q < w)
      let s := (s.setTrg q { s.trgOf q with want := none, runs := [] }).set p F.TRG_DECIM_CUR_LOG w
      let s := if up && w == s.tcfg q F.TRG_DECIM_MAX_LOG then s.rise p X.TRG_DECIM_MAX else s
      s.markPut q 2 ui (s.widx q) 0 0 false 0

/-- The bookkeeping of a record written after the trigger record: the end when its count is reached (R251). -/
def postCount (s : State) (q : Nat) (isTrig : Bool) (ue : Nat) : State :=
  let p := trgPg q
  let c := s.acqCap q
  let want := s.tcfg q F.TRG_POST_COUNT_COUNT
  let d := s.trgOf q
  let left :=
    if isTrig then some (min want (c - 1))
    else d.left.map (· - 1)
  let s := s.setTrg q { d with left := left }
  let s := if !isTrig && d.left.isSome then s.set p F.TRG_POST_KEPT_KEPT (s.get p F.TRG_POST_KEPT_KEPT + 1) else s
  match left with
  | some 0 =>
    if c - 1 < want then (s.put p F.TRG_STS_TRIG_TRUNC true).trgEnd q 2 ue else s.trgEnd q 1 ue
  | _ => s

/-- A record of an instant `ui` (that of its first data) whose data ends at `ue`: it takes the next index, or is lost
at a full queue. Its LOST, TRIG and EPOCH markers go ahead of it, so that the last of them has its UI bits 63:32 (R248). -/
def recPut (s : State) (q ui ue : Nat) (ws : List W32) : State :=
  let p := trgPg q
  if !s.trgRuns q then s
  else
    let size := (4 * ws.length + 63) / 64
    if 512 < s.acqLines q + size then
      let d := s.trgOf q
      (((s.setTrg q { d with lost := d.lost + 1 }).put p F.TRG_STS_ACQ_LOST true).rise p X.TRG_ACQ_LOST).decimCheck q
    else
      let i := s.widx q
      let d := s.trgOf q
      let s := if d.lost = 0 then s
        else (s.markPut q 5 ui i 0 0 false d.lost).setTrg q { (s.markPut q 5 ui i 0 0 false d.lost).trgOf q with lost := 0 }
      let pend := (s.trgOf q).pend
      let hit := match pend with
        | some t => decide (t.s < ue ∨ t.s ≤ ui)
        | none => false
      let s := match pend, hit with
        | some t, true =>
          let s := s.markPut q 3 t.s i t.level t.term t.forced t.met
          (s.setTrg q { s.trgOf q with pend := none }).set p F.TRG_TRIG_IDX_IDX i
        | _, _ => s
      let s := if (s.trgOf q).epoch = ui / 2 ^ 32 then s else s.markPut q 8 ui i 0 0 false 0
      let d := s.trgOf q
      let s := s.setTrg q { d with q := d.q ++ [⟨i, ws, ui, s.dlog q⟩],
                                   linger := if s.acqBytes q % 64 = 0 then s.lingerEnd else d.linger }
      let s := (s.set p F.TRG_ACQ_WIDX_W ((i + 1) % 2 ^ 32)).acqLow q
      (s.postCount q hit ue).decimCheck q

/-! ## Raw state (R237, R240) -/

/-- The raw state code of channel j, from its rebuilt levels. -/
def rawCode (s : State) (q j : Nat) : Nat :=
  match tabGet 0 (s.trgOf q).lvl j with
  | 0 => 0
  | 3 => 1
  | 2 => 2
  | _ => 3

/-- The raw states of the 16 channels of eyelet i of the quadrant. -/
def rawWord (s : State) (q i : Nat) : W32 :=
  BitVec.ofNat 32 ((List.range 16).foldl (fun m k => m + s.rawCode q (16 * i + k) * 4 ^ k) 0)

/-- Pattern matcher n agrees with the rebuilt state (R240). -/
def matcher (s : State) (q n : Nat) : Bool :=
  let p := trgPg q
  (List.range 64).all (fun j =>
    !((s.eff p (0x300 + 0x20 * n + 4 * (j / 32))).getLsbD (j % 32)) ||
      decide (s.rawCode q j = fget (s.eff p (0x308 + 0x20 * n + 4 * (j / 16))) (2 * (j % 16) + 1) (2 * (j % 16))))

/-! ## Acquisition of a sample -/

/-- The raw record in progress is complete or ends (R248): unused words are 0. -/
def rawFlush (s : State) (q : Nat) : State :=
  let d := s.trgOf q
  if d.points.isEmpty then s
  else
    let n := (s.eyeSel q).length
    let ws := (List.range n).flatMap (fun e => (List.range 16).map (fun w => (d.points.getD w []).getD e 0))
    (s.setTrg q { d with points := [] }).recPut q d.rawT (d.rawT + 16 * 2 ^ s.dlog q) ws

/-- A raw point at UI u with its words (R247, R248). -/
def rawPoint (s : State) (q u : Nat) (ws : List W32) : State :=
  if !s.trgRuns q then s
  else if s.acqMode q = 1 then
    let s := if (s.trgOf q).points.isEmpty then s.decimTake q u else s
    if u % 2 ^ s.dlog q ≠ 0 then s
    else
      let d := s.trgOf q
      let s := s.setTrg q { d with rawT := if d.points.isEmpty then u else d.rawT, points := d.points ++ [ws] }
      if (s.trgOf q).points.length = 16 then s.rawFlush q else s
  else if s.acqMode q = 2 then
    let s := s.decimTake q u
    if u % 2 ^ s.dlog q ≠ 0 then s
    else
      let old := (s.trgOf q).prev
      let s := s.setTrg q { s.trgOf q with prev := ws }
      ((s.eyeSel q).zipIdx).foldl (fun s x =>
        let a := old.getD x.2 0
        let b := ws.getD x.2 0
        let chg := ((List.range 16).filter (fun k => fget a (2 * k + 1) (2 * k) != fget b (2 * k + 1) (2 * k))).foldl setBit 0
        if chg = 0 then s
        else s.recPut q u (u + 1) [lo32 u, BitVec.ofNat 32 x.1, b, BitVec.ofNat 32 chg]) s
  else s

/-- Words 0 and 1 of a Stamp record. -/
def stampWords (x : Stamp) : List W32 :=
  [lo32 (x.v / 1024), BitVec.ofNat 32 (x.v % 1024 / 2 + x.edge * 2 ^ 9 + x.ch % 64 * 2 ^ 11)]

/-- The first of each run of D of a key is kept (R252). -/
def runKeep (s : State) (q k : Nat) : State × Bool :=
  let d := s.trgOf q
  let n := tabGet 0 d.runs k
  (s.setTrg q { d with runs := tabPut 0 d.runs k ((n + 1) % 2 ^ s.dlog q) }, n == 0)

/-- A selected stamp in Stamp or Average mode. -/
def acqStamp (s : State) (q : Nat) (x : Stamp) : State :=
  let p := trgPg q
  let j := x.ch % 64
  if !((s.eff p (0x120 + 4 * (j / 32))).getLsbD (j % 32) && (s.eff p 0x128).getLsbD x.edge) then s
  else if s.acqMode q = 3 then
    let s := s.decimTake q (x.v / 1024)
    let (s, keep) := s.runKeep q (4 * j + x.edge)
    if keep then s.recPut q (x.v / 1024) (x.v / 1024 + 1) (stampWords x) else s
  else if s.acqMode q = 4 then
    let d := s.trgOf q
    let k := 4 * j + x.edge
    match d.avg.find? (fun a => a.1 == k) with
    | none => s.setTrg q { d with avg := d.avg ++ [(k, ⟨x.v, x.v, 1, 2 ^ 16 - 1, 0⟩)] }
    | some (_, a) =>
      let gap := min (x.v - a.last) 65535
      let a' : AvgRun := { a with last := x.v, n := satAdd 32767 a.n 1, least := min a.least gap, most := max a.most gap }
      s.setTrg q { d with avg := d.avg.map (fun y => if y.1 = k then (k, a') else y) }
  else s

/-- An Average interval ends: a record for each channel and edge code with a stamp (R248). The manual states no least
and greatest spacing of a single stamp: they are free values. -/
def avgFlush (s : State) (q : Nat) : State :=
  let d := s.trgOf q
  let s := s.setTrg q { d with avg := [] }
  (d.avg.mergeSort (fun a b => decide (a.1 ≤ b.1))).foldl (fun s a =>
    let r := a.2
    let x : Stamp := { ch := a.1 / 4, edge := a.1 % 4, v := r.first }
    let ws := stampWords x
    let (sp, s) := if r.n = 1 then s.fresh else (r.least + r.most * 2 ^ 16, s)
    s.recPut q (r.first / 1024) (r.first / 1024 + 1)
      [ws.getD 0 0, ws.getD 1 0 ||| BitVec.ofNat 32 (r.n * 2 ^ 17), BitVec.ofNat 32 (min (r.last - r.first) (2 ^ 32 - 1)),
       BitVec.ofNat 32 sp]) s

/-- Fail records wait for storage (R248). -/
def acqFails (s : State) (q : Nat) : State :=
  let d := s.trgOf q
  d.frecs.foldl (fun s x =>
    let ui := x.2.vb / 1024
    let s := s.decimTake q ui
    let (s, keep) := s.runKeep q x.1
    if keep then
      s.recPut q ui (ui + 1) [lo32 ui, BitVec.ofNat 32 (x.1 + x.2.nfail * 2 ^ 2 + x.2.fail * 2 ^ 10),
        BitVec.ofNat 32 x.2.obs, BitVec.ofNat 32 x.2.vec]
    else s) (s.setTrg q { d with frecs := [] })

/-! ## Terms (R239) -/

/-- Whether an INV bit acts on a type: the level types. -/
def levelType (typ arg : Nat) : Bool :=
  typ == 0x1 || (typ == 0x2 && !arg.testBit 2) || typ == 0xA || typ == 0xB || typ == 0xC

/-- Stamps of the sample, in order of value. -/
def sampleStamps (d : TrgDyn) (q : Nat) : List Stamp :=
  (d.stamps.filter (fun x => decide (d.at_ * 1024 ≤ x.v ∧ x.v < (d.at_ + 4) * 1024 ∧ x.ch / 64 = q))).mergeSort
    (fun a b => decide (a.v ≤ b.v))

/-- A WIDTH term holds in the sample. -/
def widthMet (d : TrgDyn) (xs : List Stamp) (arg : Nat) : Bool :=
  let j := bits arg 5 0
  let code := bits arg 7 6
  let from_ := bits arg 9 8
  let lim := bits arg 25 10 * 64
  xs.any (fun x =>
    x.ch % 64 == j && x.edge == code &&
      (let inS := xs.filter (fun y => y.ch % 64 == j && y.edge == from_ && (decide (y.v < x.v) || (y.v == x.v && from_ != code)))
       let ref := match inS.getLast? with
         | some y => some (y.v + 1)
         | none => let v := tabGet 0 d.latest (4 * j + from_); if v = 0 then none else some v
       match ref with
       | none => false
       | some r => if arg.testBit 26 then decide (lim < x.v + 1 - r) else decide (x.v + 1 - r < lim)))

/-- The inputs assigned to the sample evaluated next. -/
def inputsAt {α : Type} (d : TrgDyn) (l : List (Nat × α)) : List α := (l.filter (fun x => decide (x.1 ≤ d.at_))).map Prod.snd

/-- Term (typ, arg) of the engine holds in the sample; `at_`: matchers that agreed at each UI, the UI before first. -/
def termHolds (s : State) (q : Nat) (xs : List Stamp) (pm : List (List Nat)) (typ arg : Nat) : Bool :=
  let d := s.trgOf q
  let p := trgPg q
  if typ = 0x1 then true
  else if typ = 0x2 then
    let n := bits arg 1 0
    let a := pm.map (fun l => l.contains n)
    if arg.testBit 2 then (List.range 4).any (fun u => a.getD (u + 1) false && !a.getD u false)
    else (a.drop 1).any (fun b => b)
  else if typ = 0x3 then xs.any (fun x => x.ch % 64 == bits arg 5 0 && x.edge == bits arg 7 6)
  else if typ = 0x4 then widthMet d xs arg
  else if typ = 0x5 then
    let k := bits arg 1 0
    let fails := inputsAt d d.fails
    if k = 0 then !fails.isEmpty
    else if k = 1 then fails.any (fun f => f.ch == some (bits arg 9 2))
    else if k = 2 then fails.any (fun f => f.first && f.site == bits arg 16 10)
    else false
  else if typ = 0x6 then (inputsAt d d.evt).contains (bits arg 2 0)
  else if typ = 0x7 then (inputsAt d d.lace).contains (bits arg 7 0)
  else if typ = 0x8 then (inputsAt d d.welt).contains (bits arg 7 0)
  else if typ = 0x9 then (inputsAt d d.xquad).any (fun i => arg.testBit i)
  else if typ = 0xA then decide ((s.eff p 0x160).toNat + (s.rd p 0x164).toNat * 2 ^ 32 ≤ d.at_)
  else if typ = 0xB then
    let n := bits arg 1 0
    decide (s.tcfg q (F.TRG_CNT_LIMIT.off (4 * n)) ≤ s.get p (F.TRG_CNT_VALUE.off (4 * n)))
  else if typ = 0xC then decide (bits arg 23 0 ≤ d.timer)
  else if typ = 0xD then
    d.segs.any (fun g => decide (d.at_ ≤ g.2.2 ∧ g.2.2 < d.at_ + 4) && g.2.1 == bits arg 16 0 && g.1 == bits arg 18 17)
  else false

/-! ## Inputs (R236) -/

/-- An input that arrives `dt` UI from now is assigned to the sample evaluated in that core cycle. Samples before B are not
evaluated, so an input of theirs reaches nothing. -/
def trgGive (s : State) (q dt : Nat) (f : Nat → TrgDyn → TrgDyn) : State :=
  let d := s.trgOf q
  let u := s.uiQ q + dt
  if s.trgRuns q && decide (d.start + 96 ≤ u) then s.setTrg q (f (max d.at_ (u / 4 * 4 - 96)) d) else s

/-- An input reaches every engine that evaluates samples. -/
def trgInput (s : State) (f : Nat → TrgDyn → TrgDyn) : State := (List.range 4).foldl (fun s q => s.trgGive q 0 f) s

/-! ## Actions (R241, R250) -/

/-- A TRIGGER is taken at the sample, unless one was taken since ARM. -/
def trigger (s : State) (q level term : Nat) (forced : Bool) (met : Nat) : State :=
  let p := trgPg q
  if s.flag p F.TRG_STS_TRIGGERED then s
  else
    let d := s.trgOf q
    let s := (s.put p F.TRG_STS_TRIGGERED true).set64 p F.TRG_TRIG_T_LO_UI F.TRG_TRIG_T_HI_UI d.at_
    if s.acqMode q = 0 then s
    else (s.setTrg q { d with pend := some ⟨d.at_, level, term, forced, met⟩ }).set p F.TRG_STS_STATE 2

/-- The actions of term `t` of level `l`; `met`: the terms met. The result says that the engine stops. -/
def actions (s : State) (q l t met : Nat) : State × Bool :=
  let p := trgPg q
  let cfg := s.eff p (0x200 + 0x20 * l + 8 * t)
  let s := if cfg.getLsbD 9 then s.trigger q l t false met else s
  let s := if cfg.getLsbD 10 then s.seqEvent 0x8 q else s
  let s := if cfg.getLsbD 11 then
      s.evtPulse (s.tcfg q F.TRG_EVT_OUT_PIN) 1 q (s.tcfg q F.TRG_EVT_OUT_WIDTH) 0 else s
  let s := if cfg.getLsbD 12 then
      (List.range 4).foldl (fun s x => if x = q then s else s.trgGive x 8 (fun i d => { d with xquad := d.xquad ++ [(i, q)] })) s
    else s
  let s := if cfg.getLsbD 13 then s.weltOwn false 0 (s.tcfg q F.TRG_XDEV_CODE_CODE) else s
  let f := F.TRG_CNT_VALUE.off (4 * fget cfg 15 14)
  let s := if cfg.getLsbD 17 then s.set p f 0 else if cfg.getLsbD 16 then s.bump p f 1 else s
  let d := s.trgOf q
  let s := if cfg.getLsbD 8 then
      let s := if (s.eff p 0x100).getLsbD 11 then s.markPut q 4 d.at_ (s.widx q) l t false met else s
      (s.setTrg q { s.trgOf q with timer := 0 }).set p F.TRG_STS_LEVEL (fget cfg 7 5)
    else s.setTrg q { d with timer := d.timer + 1 }
  (s, cfg.getLsbD 18)

/-! ## A sample (R235, R238) -/

/-- The instant at which the sample that begins at UI `t` is evaluated (R235), fraction units. -/
def evalAt (t : Nat) : Nat := (t + 96) * 1024

/-- The rebuilt state over the four UI of the sample at `t`: matchers that agree and words of the selected eyelets, UI
by UI. -/
def sampleRaw (s : State) (q t : Nat) : State × List (List Nat) × List (List W32) :=
  let ph := s.tcfg q F.TRG_RAW_PHASE_PHASE
  (List.range 4).foldl (fun (a : State × List (List Nat) × List (List W32)) u =>
    let s := a.1.rawTo q ((t + u) * 1024 + ph)
    (s, a.2.1 ++ [(List.range 4).filter (fun n => s.matcher q n)], a.2.2 ++ [(s.eyeSel q).map (fun i => s.rawWord q i)]))
    (s, [(s.trgOf q).agreed], [])

/-- The level machine of a sample (R238); the result says that the engine stops at its end. -/
def levelStep (s : State) (q : Nat) (xs : List Stamp) (pm : List (List Nat)) : State × Bool :=
  let p := trgPg q
  let u := evalAt (s.trgOf q).at_
  let l := s.get p F.TRG_STS_LEVEL
  let met := (List.range 4).filter (fun n =>
    let cfg := s.eff p (0x200 + 0x20 * l + 8 * n)
    let arg := (s.eff p (0x204 + 0x20 * l + 8 * n)).toNat
    let typ := fget cfg 3 0
    s.termHolds q xs pm typ arg ^^ (cfg.getLsbD 4 && levelType typ arg))
  let s := met.foldl (fun s n => s.setBitAt p 0x108 (4 * l + n) true) s
  let mask := met.foldl setBit 0
  let (s, stop) := match met with
    | [] => (s.setTrg q { s.trgOf q with timer := (s.trgOf q).timer + 1 }, false)
    | n :: _ => s.actions q l n mask
  let d := s.trgOf q
  if d.forced.any (fun v => decide (v ≤ u)) then
    ((s.setTrg q { d with forced := d.forced.filter (fun v => decide (u < v)) }).trigger q l 0 true mask, stop)
  else (s, stop)

/-- What the sample leaves for the next: its inputs are not latched. -/
def sampleDone (s : State) (q : Nat) (xs : List Stamp) (pm : List (List Nat)) : State :=
  let d := s.trgOf q
  let next {α : Type} (l : List (Nat × α)) : List (Nat × α) := l.filter (fun x => decide (d.at_ < x.1))
  s.setTrg q { d with
    fails := next d.fails, evt := next d.evt, lace := next d.lace, welt := next d.welt, xquad := next d.xquad,
    segs := d.segs.filter (fun g => decide (d.at_ + 4 ≤ g.2.2)), agreed := pm.getLastD [],
    latest := xs.foldl (fun m x => tabPut 0 m (4 * (x.ch % 64) + x.edge) (x.v + 1)) d.latest }

/-- The engine ends at UI `u`: its partial records are written first (R246). -/
def trgFinish (s : State) (q reason u : Nat) : State :=
  let s := (s.rawFlush q).avgFlush q
  if s.trgRuns q then s.trgEnd q reason u else s

/-- The engine evaluates its next sample. -/
def trgSample (s : State) (q : Nat) : State :=
  if !s.trgRuns q then s
  else
    let t := (s.trgOf q).at_
    let s := s.upToQ q (evalAt t)
    if (s.trgOf q).disarm.any (fun v => decide (v ≤ evalAt t)) then s.trgFinish q 3 t
    else
      let xs := sampleStamps (s.trgOf q) q
      let (s, pm, raws) := s.sampleRaw q t
      let (s, stop) := s.levelStep q xs pm
      let s := s.sampleDone q xs pm
      let s := (raws.zipIdx).foldl (fun s x => s.rawPoint q (t + x.2) x.1) s
      let s := xs.foldl (fun s x => s.acqStamp q x) s
      let s := s.acqFails q
      let len := 64 * 2 ^ (s.tcfg q F.TRG_AVG_AVG_LOG + s.dlog q)
      let s := if s.acqMode q = 4 ∧ (t + 4) % len = 0 then (s.avgFlush q).decimTake q (t + 4) else s
      if !s.trgRuns q then s
      else
        let s := s.setTrg q { s.trgOf q with at_ := t + 4 }
        if stop then s.trgFinish q 4 (t + 4) else s

/-- A stamp reaches the engine of its quadrant; where none evaluates or is armed it changes the rebuilt state at once. -/
def trgStamp (s : State) (x : Stamp) : State :=
  let q := x.ch / 64
  if s.trgRuns q || (s.trgOf q).armed.isSome then s.setTrg q { s.trgOf q with stamps := (s.trgOf q).stamps ++ [x] }
  else s.rawStamp q x

/-! ## Arming (R242 to R245) -/

/-- An ARM is refused (R243), by the values as written. -/
def armBad (s : State) (q : Nat) : Bool :=
  let p := trgPg q
  let m := s.get p F.TRG_CTL_ACQ_MODE
  let sel := s.get p F.TRG_CTL_EYE_SEL
  let e := ((List.range 4).filter sel.testBit).length
  let cap := s.get p F.TRG_ACQ_SIZE_SIZE4K * 4096 / max 1 (recSize m e)
  !s.enabled p || decide (s.stage < 2) || (m != 0 && decide (s.stage < 3)) || decide (5 < m) ||
    ((m == 1 || m == 2 || m == 5) && sel == 0) ||
    (m != 0 && (decide (cap < 2) || s.get p F.TRG_MARK_SIZE_SIZE256 == 0)) ||
    decide (s.get p F.TRG_DECIM_MAX_LOG < s.get p F.TRG_DECIM_MIN_LOG) ||
    (List.range 32).any (fun i =>
      let typ := fget (s.rd p (0x200 + 8 * i)) 3 0
      typ == 0xE || typ == 0xF || (typ == 0x5 && fget (s.rd p (0x204 + 8 * i)) 1 0 == 3)) ||
    s.trgRuns q

/-- An ARM that reaches the engine at timeline A, fraction units (R244). -/
def trgArm (s : State) (q a : Nat) : State :=
  let p := trgPg q
  if s.armBad q then s.put p F.TRG_STS_ARM_ERR true
  else
    let k := 16 * 2 ^ s.get p F.TRG_DECIM_MIN_LOG
    s.setTrg q { s.trgOf q with armed := some ((a + 65536 + k * 1024 - 1) / (k * 1024) * k), disarm := none }

/-- A DISARM that acts in the sample evaluated at or after an instant, fraction units. An armed engine that has not come to
B by then does not start. -/
def trgDisarm (s : State) (q t : Nat) : State :=
  let d := s.trgOf q
  if !s.trgRuns q && decide (t ≤ s.nowQ q) then s.setTrg q { d with armed := none, disarm := none }
  else if s.trgRuns q || d.armed.isSome then s.setTrg q { d with disarm := some (min t (d.disarm.getD t)) }
  else s

/-- A FORCE that acts in the sample evaluated first at or after an instant, fraction units; ignored in IDLE and DONE. -/
def trgForce (s : State) (q t : Nat) : State :=
  if s.trgRuns q then s.setTrg q { s.trgOf q with forced := (s.trgOf q).forced ++ [t] } else s

/-- A trigger code (R242). `lace`: carried by a lace frame, with the instant at which its ARM, DISARM and FORCE act. -/
def trgCode (s : State) (code : Nat) (lace : Option Nat) : State :=
  if code = 0xF1 ∨ code = 0xF2 ∨ code = 0xF3 then
    (List.range 4).foldl (fun s q =>
      let t := lace.getD (s.nowQ q)
      if s.flag (trgPg q) F.TRG_CTL_REMOTE then
        (if code = 0xF1 then s.trgArm q t else if code = 0xF2 then s.trgDisarm q t else s.trgForce q t)
      else s) s
  else if code = 0 ∨ 0xF0 ≤ code then s
  else if lace.isSome then s.trgInput (fun i d => { d with lace := d.lace ++ [(i, code)] })
  else s.trgInput (fun i d => { d with welt := d.welt ++ [(i, code)] })

/-- The engine starts at B (R244). -/
def trgBegin (s : State) (q b : Nat) : State :=
  let p := trgPg q
  let s := ((s.inForceRange p 0x100 0x160).inForceRange p 0x170 0x1000).set p F.TRG_DECIM_CUR_LOG
    (s.get p F.TRG_DECIM_MIN_LOG)
  let s := (List.range 4).foldl (fun s n => s.set p (F.TRG_CNT_VALUE.off (4 * n)) 0) s
  let s := (((s.wr p 0x108 0).put p F.TRG_STS_TRIGGERED false).set p F.TRG_ACQ_WIDX_W 0).set p F.TRG_POST_KEPT_KEPT 0
  let s := ((s.set p F.TRG_STS_LEVEL 0).set p F.TRG_STS_STATE 1).set p F.TRG_MARK_WP_WP 0
  let d := s.trgOf q
  let s := s.setTrg q { start := b, at_ := b, disarm := d.disarm, stamps := d.stamps, lvl := d.lvl, q := d.q, marks := d.marks,
                        segs := d.segs, linger := d.linger, mlinger := d.mlinger, info := d.info }
  let s := s.rawTo q ((b - 1) * 1024 + s.tcfg q F.TRG_RAW_PHASE_PHASE)
  let s := s.setTrg q { s.trgOf q with
    prev := (s.eyeSel q).map (fun i => s.rawWord q i), agreed := (List.range 4).filter (fun n => s.matcher q n) }
  (s.markPut q 1 b 0 0 0 false 0).acqLow q

/-- An armed engine reaches B, unless a DISARM has acted by then. -/
def trgStart (s : State) (q : Nat) : State :=
  match (s.trgOf q).armed with
  | none => s
  | some b =>
    let s := s.upToQ q (b * 1024)
    if (s.trgOf q).disarm.any (fun v => decide (v ≤ b * 1024)) then
      (s.rawAll q).setTrg q { (s.rawAll q).trgOf q with armed := none, disarm := none }
    else s.trgBegin q b

/-- A write to TRG_CTL (R243 to R246); DISARM governs an ARM in the same write. -/
def trgCtl (s : State) (q : Nat) (v : W32) : State :=
  let s := s.writeReg (trgPg q) 0x100 v false
  let s := if v.getLsbD 2 then s.trgForce q (s.nowQ q) else s
  if v.getLsbD 1 then s.trgDisarm q (s.nowQ q)
  else if v.getLsbD 0 then s.trgArm q (s.nowQ q) else s

/-- The engine ends at once with no further write: reason STAGE (R246). -/
def trgKill (s : State) (q : Nat) : State :=
  if s.trgRuns q then (s.setTrg q { s.trgOf q with q := [], marks := [] }).trgDone q 5
  else s.setTrg q { s.trgOf q with armed := none }

/-! ## The write queue (R247, R249, R252) -/

/-- One record is written to the region. -/
def acqStore (s : State) (q : Nat) (r : AcqRec) : State :=
  let p := trgPg q
  let size := 4 * r.ws.length
  let cap := s.get p F.TRG_ACQ_SIZE_SIZE4K * 4096 / max 1 size
  let base := s.get p F.TRG_ACQ_BASE_LO_ADDR_L * 4096 + s.get p F.TRG_ACQ_BASE_HI_ADDR_H * 2 ^ 32
  s.hbmPutWords (base + r.idx % max 1 cap * size) r.ws

/-- One marker is written to the marker ring. -/
def markStore (s : State) (q : Nat) (ws : List W32) : State :=
  let p := trgPg q
  let n := max 1 (256 * s.get p F.TRG_MARK_SIZE_SIZE256)
  let wp := s.get p F.TRG_MARK_WP_WP
  let base := s.get p F.TRG_MARK_BASE_LO_ADDR_L * 4096 + s.get p F.TRG_MARK_BASE_HI_ADDR_H * 2 ^ 32
  let d := s.trgOf q
  let s := (s.setTrg q { d with mcount := d.mcount + 1 }).hbmPutWords (base + 16 * wp) ws
  let s := if n ≤ d.mcount then s.put p F.TRG_STS_MARK_WRAP true else s
  s.set p F.TRG_MARK_WP_WP ((wp + 1) % n)

/-- Words found corrupted in a queued item are written as read: they hold values nothing fixes. -/
def blurWords (s : State) (ws : List W32) (bad : List Nat) : State × List W32 :=
  bad.foldl (fun (a : State × List W32) w =>
    let (f, s) := a.1.fresh
    (s, a.2.set w (BitVec.ofNat 32 f))) (s, ws)

/-- A POISON marker for word `w` of a record, and its fault (R221, R249). -/
def poisonMark (s : State) (q ui idx dlog w : Nat) : State :=
  (((s.put (trgPg q) F.TRG_STS_ACQ_POISON true).parityErr (trgPg q) 1).rise (trgPg q) X.TRG_ACQ_POISON).markIn q ui idx
    (6 + dlog * 2 ^ 4 + w * 2 ^ 16)

/-- One record leaves the queue, with the places of its corrupted words. -/
def recLeave (s : State) (q : Nat) (r : AcqRec) (bad : List Nat) : State :=
  let bad := bad.filter (· < r.ws.length)
  let (s, ws) := s.blurWords r.ws bad
  bad.foldl (fun s w => s.poisonMark q r.ui r.idx r.dlog w) (s.acqStore q { r with ws := ws })

/-- One marker leaves its queue; a POISON marker for a corrupted word of it names its INDEX. -/
def markLeave (s : State) (q : Nat) (m : List W32) (bad : List Nat) : State :=
  let bad := bad.filter (· < m.length)
  let (s, ws) := s.blurWords m bad
  bad.foldl (fun s w =>
    s.poisonMark q ((m.getD 0 0).toNat + (m.getD 1 0).toNat * 2 ^ 32) (m.getD 2 0).toNat (fget (m.getD 3 0) 7 4) w) (s.markStore q ws)

/-- The oldest `n` records and `m` markers leave the queues; `bad`: words found corrupted, as the place of their record
among the records, or from `n` on of their marker, and the word. -/
def acqDrain (s : State) (q n m : Nat) (bad : List (Nat × Nat)) : State :=
  let d := s.trgOf q
  let badOf (k : Nat) : List Nat := (bad.filter (fun b => b.1 == k)).map Prod.snd
  let s := s.setTrg q { d with q := d.q.drop n, marks := d.marks.drop m }
  let s := ((d.q.take n).zipIdx).foldl (fun s r => s.recLeave q r.1 (badOf r.2)) s
  let s := ((d.marks.take m).zipIdx).foldl (fun s w => s.markLeave q w.1 (badOf (n + w.2))) s
  (s.acqLow q).infoPost q

/-- The partial bursts whose linger time has come to its end leave (R222): of records, of markers, or of both. -/
def acqTail (s : State) (q : Nat) (bad : List (Nat × Nat)) : State :=
  let d := s.trgOf q
  let recs := s.acqBytes q % 64 ≠ 0
  let marks := d.marks.length % 4 ≠ 0
  if !(recs || marks) then s
  else
    let s := s.upToMono (if recs then (if marks then min d.linger d.mlinger else d.linger) else d.mlinger)
    s.acqDrain q (if recs ∧ d.linger ≤ s.mono then d.q.length else 0) (if marks ∧ d.mlinger ≤ s.mono then d.marks.length else 0) bad

/-- The engine ends with reason HEEL: the last record, the END marker and all that waits are written (R246, R423). -/
def trgHeel (s : State) (q : Nat) : State :=
  if s.trgRuns q then
    let s := s.trgFinish q 6 (s.trgOf q).at_
    s.acqDrain q (s.trgOf q).q.length (s.trgOf q).marks.length []
  else s.setTrg q { s.trgOf q with armed := none }

/-- The queue has held DN_LVL lines or fewer for 16,384 UI (R252). -/
def decimDown (s : State) (q : Nat) : State :=
  let d := s.trgOf q
  match d.lowSince with
  | none => s
  | some u =>
    if s.trgRuns q && d.want.isNone && s.tcfg q F.TRG_DECIM_AUTO == 1 && decide (s.tcfg q F.TRG_DECIM_MIN_LOG < s.dlog q) then
      let s := s.upToMono ((u + 16384) * 1024)
      s.setTrg q { s.trgOf q with want := some (s.dlog q - 1), lowSince := some (s.mono / 1024) }
    else s

end State

end Sys2Proof.Machine
end

