-- ==== Sys2Proof/Machine/Compare.lean ====
section
/-!
DEFINITION. Compare: the fast path of a fail, final summaries, the fail-log ring, EVT pulses, and writes to the compare
page (R196 to R206).
-/
namespace Sys2Proof.Machine

open Sys2Proof

namespace State

/-! ## The fast path (R204 to R206) -/

/-- A fail reaches the sequencers (R148, R157). -/
def failSeq (s : State) (m : FailMsg) : State :=
  let any := s.groups.map (fun g => if g.sites.contains m.site then s.latchIn g 0x2 0 else g)
  let s := { s with groups := any }
  let s := s.seqEvent 0x3 m.site
  let s := match m.ch with
    | some c => s.seqEvent 0x4 c
    | none => s
  { s with groups := s.groups.map (fun g =>
      if g.sites.contains m.site && !g.failed.contains m.site then
        let g := { g with failed := g.failed ++ [m.site],
                          toMask := if g.autoMask then g.toMask ++ [(m.site, s.now / 4096)] else g.toMask }
        { g with allMet := g.allMet || allFailed g }
      else g) }

/-- The EVT outputs of the eyelets (R206). -/
def failEvt (s : State) (m : FailMsg) : State :=
  (List.range 16).foldl (fun s e =>
    let p := pg T.cmp e
    let here := match m.ch with
      | some c => c / 16 == e
      | none => false
    let src := s.get p F.CMP_EVT_CTL_SRC
    let hit := if src = 0 then here
      else if src = 1 then m.first && (List.range 16).any (fun k => s.chEnabled (16 * e + k) && s.siteOfCh (16 * e + k) == m.site)
      else src == 2 && m.first && s.get p F.CMP_EVT_CTL_SITE == m.site
    if s.flag p F.CMP_EVT_CTL_EN && hit then
      (if s.flag p F.CMP_EVT_CTL_LEVEL then s.evtDrive ⟨s.get p F.CMP_EVT_CTL_PIN, 0, e, none, s.now⟩
       else s.evtPulse (s.get p F.CMP_EVT_CTL_PIN) 0 e (s.get p F.CMP_EVT_CTL_WIDTH) 0)
    else s) s

/-- The oldest fail on its way arrives. -/
def failArrive (s : State) : State :=
  match s.fails with
  | [] => s
  | m :: r =>
    let s := ({ s with fails := r }.failSeq m).failEvt m
    s.trgInput (fun i d => { d with fails := d.fails ++ [(i, m)] })

/-- A site's summary is final once no group that has begun has a channel of it in its run (R198). -/
def siteFinal (s : State) (i : Nat) : State :=
  if s.groups.any (fun g => g.begun && g.sites.contains i) then s
  else s.setSite i { s.siteOf i with final := true }

/-! ## The fail-log ring (R201 to R203) -/

def flogSize (s : State) (e : Nat) : Nat := 64 * s.get (pg T.cmp e) F.CMP_FLOG_SIZE_SIZE64
def flogBase (s : State) (e : Nat) : Nat :=
  s.get (pg T.cmp e) F.CMP_FLOG_BASE_LO_ADDR_L * 32 + s.get (pg T.cmp e) F.CMP_FLOG_BASE_HI_ADDR_H * 2 ^ 32

/-- The ring is full in STOP mode. -/
def flogFull (s : State) (e : Nat) : Bool :=
  let p := pg T.cmp e
  let n := s.flogSize e
  !s.flag p F.CMP_FLOG_CTL_MODE &&
    (n == 0 || (s.get p F.CMP_FLOG_WP_WP + 1) % n == s.getEff p F.CMP_FLOG_RP_RP % n)

/-- The level of the ring against its watermark: the notice latches as the level rises to it, and where a watermark has
just come into force (`new`) at or below the level (R202, R223). -/
def flogMark (s : State) (e : Nat) (new : Bool) : State :=
  let p := pg T.cmp e
  let n := max 1 (s.flogSize e)
  let level := (s.get p F.CMP_FLOG_WP_WP + n - s.getEff p F.CMP_FLOG_RP_RP % n) % n
  let live := decide (s.getEff p F.CMP_FLOG_WMARK_LEVEL ≤ level)
  let was := s.flag p F.CMP_STS_WMARK_LIVE
  let s := s.put p F.CMP_STS_WMARK_LIVE live
  if live && (new || !was) then s.put p F.CMP_STS_WMARK true else s

/-- RP and WMARK as written come into force with the next record for the ring; a watermark that differs from the one in
force is met anew (R223). -/
def flogForce (s : State) (e : Nat) : State :=
  let p := pg T.cmp e
  let new := decide (s.get p F.CMP_FLOG_WMARK_LEVEL ≠ s.getEff p F.CMP_FLOG_WMARK_LEVEL)
  let s := (s.inForce p 0x214).inForce p 0x218
  if new then s.flogMark e true else s

/-- One record is written at WP, which then advances. -/
def flogStore (s : State) (e : Nat) (ws : List W32) : State :=
  let p := pg T.cmp e
  let n := max 1 (s.flogSize e)
  let wp := s.get p F.CMP_FLOG_WP_WP
  let d := s.eyeOf e
  let s := if d.flogAround then s.put p F.CMP_STS_WRAPPED (s.flag p F.CMP_STS_WRAPPED || s.flag p F.CMP_FLOG_CTL_MODE) else s
  let s := s.hbmPutWords (s.flogBase e + 32 * wp) ws
  let s := if wp + 1 = n then s.setEye e { s.eyeOf e with flogAround := true } else s
  (s.set p F.CMP_FLOG_WP_WP ((wp + 1) % n)).flogMark e false

/-- A record that leaves the queue is written, or discarded at a full ring in STOP mode. -/
def flogRecord (s : State) (e : Nat) (ws : List W32) : State :=
  let p := pg T.cmp e
  let s := s.flogForce e
  let d := s.eyeOf e
  let s := if d.ringLost ≠ 0 ∧ !s.flogFull e then
      let (r, s) := s.flogSeq e (d.ringLostPos ++ [BitVec.ofNat 32 d.ringLost, 0, 0])
      (s.setEye e { d with ringLost := 0, ringLostPos := [] }).flogStore e r
    else s
  if s.flogFull e then
    let d := s.eyeOf e
    let s := s.setEye e { d with ringLost := d.ringLost + 1, ringLostPos := if d.ringLost = 0 then lostPos ws else d.ringLostPos }
    let s := ((s.bump p F.CMP_FLOG_LOST_COUNT 1).put p F.CMP_STS_LOST true).put p F.CMP_STS_FULL true
    (s.rise p X.CMP_FLOG_LOST).rise p X.CMP_FLOG_FULL
  else s.flogStore e ws

/-- A record corrupted in the queue is written with POISON (R202, R221). -/
def flogPoison (s : State) (e : Nat) (ws : List W32) : State × List W32 :=
  let p := pg T.cmp e
  ((((s.parityErr p 1).put p F.CMP_STS_REC_POISON true).rise p X.CMP_REC_POISON), ws.set 3 (ws.getD 3 0 ||| 0x80000000))

/-- The oldest `n` records leave the queue; `bad`: which of them were corrupted. -/
def flogDrain (s : State) (e n bad : Nat) : State :=
  let d := s.eyeOf e
  let s := s.setEye e { d with flogQ := d.flogQ.drop n }
  ((d.flogQ.take n).zipIdx).foldl (fun s x =>
    let (s, ws) := if bad.testBit x.2 then s.flogPoison e x.1 else (s, x.1)
    s.flogRecord e ws) s

/-- The queue writes a pair, or at a group stop its tail. -/
def flogWrite (s : State) (e bad : Nat) : State :=
  let n := (s.eyeOf e).flogQ.length
  if 2 ≤ n then s.flogDrain e 2 bad
  else if s.flag (pg T.cmp e) F.CMP_STS_LOG_DONE then s else s.flogDrain e n bad

/-- The log of an eyelet is done once its queue is empty (R203). -/
def flogDone (s : State) (e : Nat) : State :=
  if (s.eyeOf e).flogQ.isEmpty then s.put (pg T.cmp e) F.CMP_STS_LOG_DONE true else s

/-! ## EVT pulses -/

/-- The earliest pulse on a pin reaches the end of its width. -/
def evtPulseEnd (s : State) (n : Nat) : State :=
  let ts := s.evtSrc.filterMap (fun x => if x.pin = n then x.until_ else none)
  match ts with
  | [] => s
  | t :: r =>
    let t := r.foldl min t
    let s := s.upTo t
    { s with evtSrc := s.evtSrc.filter (fun x => !(x.pin == n && (match x.until_ with | some u => decide (u ≤ t) | none => false))) }

/-! ## Writes to the compare page -/

/-- A write to CMP_FLOG_CTL, _BASE_LO, _BASE_HI or _SIZE (R201). -/
def flogCfg (s : State) (e ofs : Nat) (v : W32) : State :=
  let p := pg T.cmp e
  let t := (writeAt s p ofs v false).1
  let bad := t.flogOn e && (t.flogSize e == 0 || decide (hbmSize < t.flogBase e + 32 * t.flogSize e))
  let was := s.flogOn e
  let s := s.writeReg p ofs v bad
  if !was && s.flogOn e then
    let s := ((((s.set p F.CMP_FLOG_WP_WP 0).set p F.CMP_FLOG_RP_RP 0).set p F.CMP_FLOG_SEQ_SEQ 0).inForce p 0x214).inForce p 0x218
    (s.setEye e { s.eyeOf e with flogAround := false, ringLost := 0, ringLostPos := [] }).flogMark e false
  else s

/-- A write to a compare page. -/
def cmpWrite (s : State) (e ofs : Nat) (v : W32) : State :=
  let p := pg T.cmp e
  if 0x200 ≤ ofs ∧ ofs ≤ 0x20C then s.flogCfg e ofs v
  else if ofs = 0x104 then s.writeReg p ofs v (s.enabled (pg T.eye e))
  else if ofs = 0x230 then
    let old := s.rd p ofs
    let s := s.writeReg p ofs v (fget v 5 4 == 3)
    if s.rd p ofs = old then s
    else { s with evtSrc := s.evtSrc.filter (fun x => !(x.kind == 0 && x.unit == e)) }
  else s.writeReg p ofs v false

end State

end Sys2Proof.Machine
end

