-- ==== Sys2Proof/Machine/Awl.lean ====
section
/-!
DEFINITION. Commands of the awls, the stamp streams, the gates and the interval units (R208 to R233).
-/
namespace Sys2Proof.Machine

open Sys2Proof

namespace State

/-! ## Conversion (R208 to R211, R374) -/

/-- INL[b] of a channel, signed fraction units (R381). -/
def inl (s : State) (c b : Nat) : Int :=
  toSigned 8 (fget (s.calWord (1024 + 128 * c + 80 + b / 4)) (8 * (b % 4) + 7) (8 * (b % 4)))

/-- A raw stamp corrected (R374): linearity and class corrections, their sum rounded to an even number. -/
def stampValue (s : State) (c edge raw : Nat) : Nat :=
  if s.stage < 3 then raw
  else
    let sum := s.inl c (raw % 1024 / 16) * 256 + tabGet 0 s.calF (16 * c + 5 + edge)
    ((raw : Int) + 2 * ((sum + 256) / 512)).toNat

/-- A raw stamp is counted for linearity (CAL_LIN_CTL). -/
def linCount (s : State) (c input raw : Nat) : State :=
  let p := pg T.cal 0
  if s.flag p F.CAL_LIN_CTL_RUN && s.get p F.CAL_LIN_CTL_CH == c && s.get p F.CAL_LIN_CTL_IN == input then
    s.bump p (F.CAL_LIN_CNT_COUNT.off (4 * (raw % 1024 / 16))) 1
  else s

/-- The tracking loops with this source channel note a rising edge of CMPH: its instant on the device timeline, to
which their windows are aligned, and its stamp on the steered quadrant timeline (R65, R66). -/
def trackEdge (s : State) (c edge t v : Nat) : State :=
  (List.range 4).foldl (fun s q =>
    if 64 * q + s.get tbsPg (F.TBS_TRACK_CTL_SRC_CH.off (0x20 * q)) = c ∧ edge = 0 then
      let d := tabGet {} s.track q
      { s with track := tabPut {} s.track q { d with edges := d.edges ++ [(t, v)] } }
    else s) s

/-- The awl converts a transition at an instant of the device timeline, or misses it: transitions of one input less than
1 UI apart (R210). The raw stamp is the value of the quadrant timeline, trim removed (R62, R69), with its last fraction
bit 0. -/
def convert (s : State) (c edge t : Nat) : State :=
  let d := s.awlOf c
  let input := edge / 2
  let prev := if input = 0 then d.lastH else d.lastL
  if (match prev with | some x => decide (s.era + t < x + 1024) | none => false) then
    let p := pg T.tdc (c / 16)
    let s := s.bump p F.TDC_MISS_CNT_COUNT 1
    let s := if s.streaming c && s.edgeSel c edge then s.setAwl c { d with miss := satAdd 65535 d.miss 1 } else s
    s.iuMissed c
  else
    let raw := s.atQ (c / 64) t / 2 * 2
    let at_ := some (s.era + t)
    let s := s.setAwl c (if input = 0 then { d with lastH := at_ } else { d with lastL := at_ })
    let s := s.linCount c input raw
    let v := s.stampValue c edge raw
    ({ s with stamps := s.stamps ++ [{ ch := c, edge := edge, v := v }] } : State).trackEdge c edge t v

/-- CMPH or CMPL of a channel changes at the ball at instant `t` of the device timeline. -/
def cmpChange (s : State) (c : Nat) (high level : Bool) (t : Nat) : State :=
  let k := s.chanOf c
  if (if high then k.cmpH else k.cmpL) = level then s
  else
    let s := s.upTo t
    let s := (s.setChan c (if high then { k with cmpH := level } else { k with cmpL := level })).seeWin c
    let inv := (s.rd (pg T.cmp (c / 16)) 0x104).getLsbD (c % 16 + (if high then 0 else 16))
    let edge := (if high then 0 else 2) + (if level ^^ inv then 0 else 1)
    if s.stage < 2 then s else s.convert c edge t

/-! ## Arrival (R212) -/

/-- The stamps of the least value on their way reach their destinations: a unit takes stamps in ascending order of value
(R228). With none on its way, those that wait for their gate enter their streams (R226). -/
def stampArrive (s : State) : State :=
  match s.stamps with
  | [] =>
    (List.range 16).foldl (fun s e =>
      match (s.awlOf (16 * e)).wait with
      | [] => s
      | x :: _ => (s.upToQ (e / 4) ((x.v / 1024 + 64) * 1024)).gateRelease (16 * e)) s
  | y :: r =>
    let v := r.foldl (fun m x => min m x.v) y.v
    let xs := s.stamps.filter (fun x => x.v == v)
    let s := { s with stamps := s.stamps.filter (fun x => x.v != v) }
    let s := xs.foldl streamStamp s
    let s := (List.range 64).foldl (fun s i => s.iuStamps xs i) s
    xs.foldl trgStamp s

/-! ## Bursts (R216, R221, R222) -/

/-- A burst of 16 words leaves for the ring once the queue holds one. -/
def streamBurst (s : State) (c bad : Nat) : State :=
  let s := s.gateRelease c
  if 16 ≤ (s.awlOf c).q.length then (s.streamPoison c (bad % 2 ^ 16)).streamDrain c 16 else s

/-- An interval unit's deadline passes with no stop, on its way or arrived, at or before it (R228). -/
def iuTimeout (s : State) (i : Nat) : State :=
  let d := s.iuOf i
  let late := s.stamps.any (fun x => x.ch == d.stopCh && x.edge == d.stopEdge && decide (x.v ≤ d.deadline))
  if s.iuState i = 2 ∧ !late then (s.upToQ (d.stopCh / 64) (d.deadline + 1)).iuTmo i else s

/-- A result found corrupted carries POISON (R221, R230). -/
def iuPoison (s : State) (i : Nat) : State :=
  let d := s.iuOf i
  match d.results with
  | [] => s
  | r :: rs =>
    let p := pg T.tdc (i / 4)
    ((s.setIu i { d with results := r.set 1 (r.getD 1 0 ||| 0x8000) :: rs }).parityErr p 1).rise p X.TDC_IU_POISON

end State

end Sys2Proof.Machine
end

