-- ==== Sys2Proof/Machine/Clock.lean ====
section
/-!
DEFINITION. Commands of the DDS clock units and their level ports (R167 to R187).
-/
namespace Sys2Proof.Machine

open Sys2Proof

namespace State

/-- REASON of a refused GO (R181); `t`: T if it is known. -/
def ddsReasonAt (s : State) (e : Nat) (t : Option Nat) : Nat :=
  if (match t with | some t => decide (t * 1024 < s.nowQ (e / 4) + 640 * 1024) | none => false) then 1
  else if s.get (pg T.dds e) F.DDS_STS_STATE ≠ 0 then 2
  else if s.flag (pg T.tbs 0) F.TBS_REF_STS_HOLDOVER then 3
  else if !s.enabled (pg T.dds e) || decide (s.stage < 2) then 4
  else 0

/-- T of the next start of the eyelet's group, if its GO has fixed it and the first vector has not begun (R158, R180). -/
def groupT (s : State) (e : Nat) : Option Nat :=
  match s.groupOf e with
  | some g => if g.st = .running ∧ ¬g.begun then some (g.at_ / 1024) else none
  | none => none

/-- T at a GO of the unit, if it is known there (R180). -/
def ddsT (s : State) (e : Nat) : Option Nat :=
  let p := pg T.dds e
  let m := s.get p F.DDS_CTL_START_MODE
  if m = 0 then some (s.get64 p F.DDS_START_LO_T F.DDS_START_HI_T) else if m = 2 then s.groupT e else none

/-- DDS_CTL.GO (R180): START_MODE and START_TAG are those at the GO. -/
def ddsGo (s : State) (e : Nat) : State :=
  let p := pg T.dds e
  let t := s.ddsT e
  let r := s.ddsReasonAt e t
  if r ≠ 0 then s.ddsRefuse e r
  else
    let s := (s.setDds e { s.ddsOf e with hopQ := [], startT := none, stuck := false,
                                          mode := s.get p F.DDS_CTL_START_MODE, tag := s.get p F.DDS_CTL_START_TAG }).set
      p F.DDS_HOP_Q_STS_DEPTH 0
    let s := s.ddsState e 1
    match t with
    | some t => s.ddsStartAt e t
    | none => s

/-- DDS_CTL.STOP (R182): at the next falling edge, or at once in the armed and waiting states. -/
def ddsStop (s : State) (e : Nat) : State :=
  let st := s.get (pg T.dds e) F.DDS_STS_STATE
  if st = 0 then s
  else if st = 2 then s.setDds e { s.ddsOf e with stop := true }
  else s.ddsEnd e

/-- A write to DDS_CTL; STOP in the same write acts first. -/
def ddsCtl (s : State) (e : Nat) (v : W32) : State :=
  let s := s.writeReg (pg T.dds e) 0x100 v (fget v 3 2 == 3 || fget v 14 13 == 3)
  let s := if v.getLsbD 1 then s.ddsStop e else s
  if v.getLsbD 0 then s.ddsGo e else s

/-- A lace START frame for armed units (R180, R181). A unit whose start is refused there is STOPPED (DESIGN CHOICE, log
151). -/
def ddsLace (s : State) (tag t : Nat) : State :=
  (List.range 16).foldl (fun s e =>
    let d := s.ddsOf e
    if s.get (pg T.dds e) F.DDS_STS_STATE == 1 && d.mode == 1 && d.tag == tag && d.startT.isNone && !d.stuck then
      if t * 1024 < s.nowQ (e / 4) + 640 * 1024 then (s.ddsRefuse e 1).ddsState e 0
      else if s.flag (pg T.tbs 0) F.TBS_REF_STS_HOLDOVER then (s.ddsRefuse e 3).ddsState e 0
      else s.ddsStartAt e t
    else s) s

/-- The unit reaches T. A takeover still pending in the eyelet is carried out first (R106). -/
def ddsStart (s : State) (e : Nat) : State :=
  match (s.ddsOf e).startT with
  | some t => ((s.upToQ (e / 4) (t * 1024)).takeNow e).ddsBegin e t
  | none => s

/-- The next clock edge of a unit (R168); with a STOP pending the output ends at a falling edge. -/
def clockEdge (s : State) (e : Nat) : State :=
  let d := s.ddsOf e
  match ddsNextEdge d with
  | none => s
  | some (t, up) =>
    let s := s.setDds e { d with half := d.half + 1 }
    let s := if up = d.level then s else s.ddsEdge e t up
    if d.stop && !up then s.ddsEnd e else s

/-- A STOP is pending and the falling edge at which it acts lies in the core cycle of UI `h`, or before it. -/
def stopDue (d : DdsDyn) (h : Nat) : Bool :=
  d.stop && (match ddsNextEdge d with | some (t, up) => !up && decide (t / 4096 ≤ h * 1024 / 4096) | none => false)

/-- A hop instant is reached (R175). A STOP due in the same core cycle governs: the hop is not made (R179). -/
def hop (s : State) (e : Nat) : State :=
  let d := s.ddsOf e
  match d.hopAt, d.succ with
  | some h, some i =>
    if d.segOrd.isSome || d.stuck || !d.on then s
    else if stopDue d h then s.clockEdge e
    else (s.upToQ (e / 4) (h * 1024)).ddsHop e i h false
  | _, _ => s

/-- A write of DDS_HOP_AT_HI pushes a hop time (R177). -/
def hopPush (s : State) (e : Nat) (v : W32) : State :=
  let p := pg T.dds e
  let d := s.ddsOf e
  let t := s.get p F.DDS_HOP_AT_LO_AT_L + v.toNat * 2 ^ 32
  if 16 ≤ d.hopQ.length then s.put p F.DDS_HOP_Q_STS_OVF true
  else
    let s := (s.setDds e { d with hopQ := d.hopQ ++ [t] }).set p F.DDS_HOP_Q_STS_DEPTH (d.hopQ.length + 1)
    if s.get p F.DDS_STS_STATE = 3 ∧ ¬d.stuck then
      (s.setDds e { s.ddsOf e with timed := true }).ddsDue e t
    else s

/-- The list word that DDS_LIST_IDX selects: entry, then word. -/
def ddsKey (s : State) (e : Nat) : Nat :=
  e * 16384 + 4 * s.get (pg T.dds e) F.DDS_LIST_IDX_ENTRY + s.get (pg T.dds e) F.DDS_LIST_IDX_WORD

/-- DDS_LIST_IDX advances WORD, then ENTRY (R477). -/
def ddsIdxInc (s : State) (e : Nat) : State :=
  let p := pg T.dds e
  if s.flag p F.DDS_LIST_IDX_AUTO_INC then
    let n := (4 * s.get p F.DDS_LIST_IDX_ENTRY + s.get p F.DDS_LIST_IDX_WORD + 1) % 16384
    (s.set p F.DDS_LIST_IDX_ENTRY (n / 4)).set p F.DDS_LIST_IDX_WORD (n % 4)
  else s

/-- A write to DDS_LIST (R172); during the copy after a commit it is dropped as in R82. -/
def ddsListWrite (s : State) (e : Nat) (v : W32) : State :=
  let p := pg T.dds e
  let key := s.ddsKey e
  let s :=
    if s.flag p F.PG_STS_BUSY || (s.locked p && tabGet 0 s.ddsS key != v) then s.refuse p 0x134
    else ({ s with ddsS := tabPut 0 s.ddsS key v, upset := tabErase s.upset (8 * 2 ^ 40 + key) } : State).ddsErrSync e (key % 16384 / 4)
  s.ddsIdxInc e

/-- A read of DDS_LIST. Either copy's ECC acts on the word read (R172). -/
def ddsListRead (s : State) (e : Nat) : State × W32 :=
  let live := s.flag (pg T.dds e) F.DDS_LIST_IDX_LIVE
  let k := s.ddsKey e
  let v := tabGet 0 (if live then s.ddsL else s.ddsS) k
  ((s.ddsReadErr e (s.eccOf (if live then 3 else 8) k)).ddsIdxInc e, v)

/-- A write to DDS_PEL_TX; with GO one software frame becomes pending, or is dropped (R186). DONE falls as a GO is accepted
(DESIGN CHOICE, log 152). -/
def pelTx (s : State) (e : Nat) (v : W32) : State :=
  let p := pg T.dds e
  let s := s.writeReg p 0x140 v false
  if !v.getLsbD 31 then s
  else
    let d := s.ddsOf e
    let op := s.get p F.DDS_PEL_TX_OP
    if op ≠ 1 ∧ op ≠ 2 then s
    else if d.sw.isSome then s.put p F.DDS_STS_PEL_OVR true
    else
      let w := op * 2 ^ 28 + s.get p F.DDS_PEL_TX_CH * 2 ^ 24 + s.get p F.DDS_PEL_TX_REG * 2 ^ 16 +
        (if op = 1 then s.get p F.DDS_PEL_TX_DATA else 0)
      let s := s.setDds e { d with sw := some (⟨w, true, 0, none⟩, s.ui) }
      (s.put p F.DDS_PEL_RX_DONE false).pelSync e

/-- The amplitude frame that begins next, with the first UI at which it may: one left of the set that has begun, or the
first of the pending set (R185, R186). -/
def ampNext (d : DdsDyn) : Option (PelFrame × Nat) :=
  match d.ampCur, d.amp with
  | f :: _, _ => some (f, up128 d.free)
  | [], f :: _ => some (f, up128 (max d.free d.ampFrom))
  | [], [] => none

/-- That frame is taken. -/
def ampTake (d : DdsDyn) : DdsDyn :=
  match d.ampCur, d.amp with
  | _ :: r, _ => { d with ampCur := r }
  | [], _ :: r => { d with ampCur := r, amp := [] }
  | [], [] => d

/-- A frame of the level port begins at a UI. -/
def pelBegin (s : State) (e : Nat) (d : DdsDyn) (f : PelFrame) (t : Nat) : State :=
  let s := s.upTo (t * 1024)
  (s.setDds e { d with frame := some (f, t + 4096) }).emit (.pel e f.word)

/-- The next frame of the level port begins (R184 to R186): an amplitude frame that may begin goes first. -/
def pelStart (s : State) (e : Nat) : State :=
  let d := s.ddsOf e
  if d.frame.isSome then s
  else
    let sw := d.sw.map (fun x => (x.1, up128 (max d.free x.2)))
    match ampNext d, sw with
    | none, none => s
    | some (f, ta), none => s.pelBegin e (ampTake d) f ta
    | none, some (g, ts) => s.pelBegin e { d with sw := none } g ts
    | some (f, ta), some (g, ts) =>
      if ts < ta then s.pelBegin e { d with sw := none } g ts else s.pelBegin e (ampTake d) f ta

/-- A frame ends with CS_N rising; `sdi`: the bits sampled in a read. -/
def pelDone (s : State) (e : Nat) (sdi : BitVec 16) : State :=
  let p := pg T.dds e
  let d := s.ddsOf e
  match d.frame with
  | none => s
  | some (f, up) =>
    let s := s.upTo (up * 1024)
    let s := s.setDds e { d with frame := none, free := up + 256 }
    let s :=
      if f.sw then
        (if f.word / 2 ^ 28 = 2 then s.set p F.DDS_PEL_RX_DATA sdi.toNat else s).put p F.DDS_PEL_RX_DONE true
      else if f.seg.isNone ∧ s.hopDev e f.hop < up * 1024 then (s.put p F.DDS_STS_AMP_LATE true).rise p X.DDS_AMP_LATE
      else s
    s.pelSync e

end State

end Sys2Proof.Machine
end

