-- ==== Sys2Proof/Machine/Ptp.lean ====
section
/-!
DEFINITION. The precision-time clock and the pulse generators (R366 to R369).
-/
namespace Sys2Proof.Machine

open Sys2Proof

def ptpPg : Nat := pg T.ptp 0

/-- A second in 2^-32 ns, and the clock's modulus. -/
def ptpSec : Nat := 1000000000 * 2 ^ 32
def ptpMod : Nat := 2 ^ 48 * ptpSec

namespace State

def pgOf (s : State) (g : Nat) : PgDyn := tabGet {} s.ptp.pgs g
def setPg (s : State) (g : Nat) (d : PgDyn) : State := { s with ptp := { s.ptp with pgs := tabPut {} s.ptp.pgs g d } }

def ptpIncr (s : State) : Nat := s.get ptpPg F.PTP_INCR_INCR
def ptpRate (s : State) : Nat := min 1000 (max 1 (s.get ptpPg F.PTP_SLEW_RATE))

/-- Core cycles since the clock's base. -/
def ptpCycles (s : State) : Nat := s.now / 4096 - s.ptp.at_

/-- Slew applied in `n` cycles, in 2^-32 ns: 0.625 ns × RATE × 10^-6 a cycle towards what remains (R368). -/
def ptpSlew (s : State) (n : Nat) : Int :=
  let m := min s.ptp.rem.natAbs (n * s.ptpRate * 268435456 / 100000)
  if s.ptp.rem < 0 then -(m : Int) else m

/-- The clock `n` cycles after its base, in 2^-32 ns. -/
def ptpAt (s : State) (n : Nat) : Nat := (((s.ptp.base + n * s.ptpIncr : Nat) : Int) + s.ptpSlew n).toNat % ptpMod

/-- The clock now. -/
def ptpNow (s : State) : Nat := s.ptpAt s.ptpCycles

/-- SLEW_REM and SLEWING show the slew that remains. -/
def ptpShow (s : State) : State :=
  let ns := (s.ptp.rem / 2 ^ 32) % 2 ^ 64
  ((s.set ptpPg F.PTP_SLEW_REM_LO_REM (ns.toNat % 2 ^ 32)).set ptpPg F.PTP_SLEW_REM_HI_REM (ns.toNat / 2 ^ 32)).put ptpPg
    F.PTP_STS_SLEWING (decide (s.ptp.rem ≠ 0))

/-- The clock's base moves to the present cycle. -/
def ptpSync (s : State) : State :=
  { s with ptp := { s.ptp with base := s.ptpNow, at_ := s.now / 4096, rem := s.ptp.rem - s.ptpSlew s.ptpCycles } }.ptpShow

/-- Nanoseconds, seconds and fraction of a clock value. -/
def ptpNs (c : Nat) : Nat := c / 2 ^ 32 % 1000000000
def ptpSecs (c : Nat) : Nat := c / ptpSec
def ptpFrac (c : Nat) : Nat := c % 2 ^ 32

/-- A read of PTP_TIME0 (R367). -/
def ptpCapture (s : State) : State :=
  let c := s.ptpNow
  let u := s.ui / 4 * 4
  (((((s.set ptpPg F.PTP_TIME0_NS (ptpNs c)).set ptpPg F.PTP_TIME1_SEC (ptpSecs c % 2 ^ 32)).set ptpPg F.PTP_TIME2_SEC
    (ptpSecs c / 2 ^ 32)).set ptpPg F.PTP_TIME_FR_FRAC (ptpFrac c)).set ptpPg F.PTP_MAP_TL_LO_UI (u % 2 ^ 32)).set ptpPg
    F.PTP_MAP_TL_HI_UI (u / 2 ^ 32 % 2 ^ 32)

/-- A step of an amount in 2^-32 ns: applied, or refused and slewed (R368). -/
def ptpStep (s : State) (x : Int) : State :=
  let s := s.ptpSync
  if x.natAbs ≤ s.get ptpPg F.PTP_ADJ_CTL_THR * 2 ^ 32 then
    { s with ptp := { s.ptp with base := (((s.ptp.base : Int) + x) % (ptpMod : Int)).toNat } }
  else
    let s := { s with ptp := { s.ptp with rem := s.ptp.rem + x } }.ptpShow
    ((s.put ptpPg F.PTP_STS_STEP_REFUSED true).rise ptpPg X.PTP_STEP_REFUSED).msi 8

/-- PTP_SET, in 2^-32 ns. -/
def ptpSetValue (s : State) : Nat :=
  ((s.get ptpPg F.PTP_SET_SEC_LO_SEC + s.get ptpPg F.PTP_SET_SEC_HI_SEC * 2 ^ 32) * ptpSec +
    s.get ptpPg F.PTP_SET_NS_NS * 2 ^ 32) % ptpMod

/-- A write to PTP_ADJ_CTL (R368): SET governs over STEP. -/
def ptpCtl (s : State) (v : W32) : State :=
  let s := (writeAt s ptpPg 0x148 v false).1
  let s := if v.getLsbD 2 then s.put ptpPg F.PTP_STS_VALID false else s
  if v.getLsbD 0 then
    if s.flag ptpPg F.PTP_STS_VALID then s.ptpStep ((s.ptpSetValue : Int) - s.ptpNow)
    else
      let s := s.ptpSync
      ({ s with ptp := { s.ptp with base := s.ptpSetValue, rem := 0 } }.ptpShow).put ptpPg F.PTP_STS_VALID true
  else if v.getLsbD 1 then
    s.ptpStep (toSigned 64 (s.get64 ptpPg F.PTP_STEP_LO_STEP F.PTP_STEP_HI_STEP) * 2 ^ 32)
  else s

/-- Cycles after the base at which the remaining slew is 0. -/
def slewCycles (s : State) : Nat :=
  let r := s.ptpRate * 268435456
  (s.ptp.rem.natAbs * 100000 + r - 1) / r

/-- The remaining slew reaches 0. -/
def ptpSlewDone (s : State) : State :=
  if s.ptp.rem = 0 then s else (s.upTo ((s.ptp.at_ + s.slewCycles) * 4096)).ptpSync

/-- A write to PTP_INCR (R366) or PTP_SLEW: the new value applies from the next cycle. -/
def ptpRateWrite (s : State) (ofs : Nat) (v : W32) : State :=
  let bad := ofs == 0x108 && (decide (v.toNat < 0x9FD70A3E) || decide (0xA028F5C2 < v.toNat))
  s.ptpSync.writeReg ptpPg ofs v bad

/-! ## Pulse generators (R369) -/

/-- Cycles after the base at which the clock has advanced by `d`. -/
def ptpReach (s : State) (d : Nat) : Nat :=
  let i := s.ptpIncr * 100000
  let r := s.ptpRate * 268435456
  let nd := s.slewCycles
  if s.ptp.rem = 0 then (d + s.ptpIncr - 1) / s.ptpIncr
  else
    let n := if s.ptp.rem < 0 then (if d = 0 then 0 else (d - 1) * 100000 / (i - r) + 1) else (d * 100000 + i + r - 1) / (i + r)
    if n ≤ nd then n else ((((d : Int) - s.ptp.rem).toNat + s.ptpIncr - 1) / s.ptpIncr)

/-- GO of a generator: due times less than 640 UI ahead are skipped. -/
def pgGo (s : State) (g : Nat) : State :=
  let f := fun (x : Fld) => s.get ptpPg (x.off (0x20 * g))
  let w := fun i => (s.rd ptpPg (0x204 + 0x20 * g + 4 * i)).toNat
  let clock := decide (f F.PTP_PG_CTL_SRC = 1)
  let start := if clock then (w 1 + w 2 % 2 ^ 16 * 2 ^ 32) * ptpSec + w 0 % 2 ^ 30 * 2 ^ 32 else w 0 + w 1 * 2 ^ 32
  let period := if clock then max 10 (f F.PTP_PG_PERIOD_PERIOD) * 2 ^ 32 else max 64 (f F.PTP_PG_PERIOD_PERIOD)
  let least := if clock then s.ptpAt (s.ptpCycles + 160) else s.ui + 640
  let skip := if start < least then (least - start + period - 1) / period else 0
  let count := f F.PTP_PG_COUNT_COUNT
  let run := decide (count = 0 ∨ skip < count)
  let s := s.setPg g { run := run, clock := clock, next := start + skip * period, period := period,
                       left := if count = 0 then none else some (count - skip), pin := f F.PTP_PG_CTL_PIN,
                       width := f F.PTP_PG_CTL_WIDTH }
  let s := s.put ptpPg (F.PTP_PG_CTL_RUN.off (0x20 * g)) run
  if skip = 0 then s else ((s.put ptpPg F.PTP_STS_PULSE_LATE true).rise ptpPg X.PTP_PULSE_LATE).msi 8

/-- STOP of a generator: a pulse in progress is cut short. -/
def pgStop (s : State) (g : Nat) : State :=
  let d := s.pgOf g
  ((s.setPg g {}).put ptpPg (F.PTP_PG_CTL_RUN.off (0x20 * g)) false).evtRelease d.pin 4 g

/-- A write to PTP_PG_CTL; STOP in the same write acts first. -/
def pgCtl (s : State) (g : Nat) (v : W32) : State :=
  let s := (writeAt s ptpPg (0x200 + 0x20 * g) v false).1
  let s := if v.getLsbD 1 then s.pgStop g else s
  if v.getLsbD 0 then s.pgGo g else s

/-- The next due time of a generator is reached. -/
def pgPulse (s : State) (g : Nat) : State :=
  let d := s.pgOf g
  if !d.run then s
  else
    let s := if d.clock then s.upTo ((s.ptp.at_ + s.ptpReach (d.next - s.ptp.base)) * 4096)
      else s.upTo ((d.next + 3) / 4 * 4096)
    let left := d.left.map (· - 1)
    let run := decide (left ≠ some 0)
    let s := s.evtPulse d.pin 4 g d.width 0
    (s.setPg g { d with run := run, next := d.next + d.period, left := left }).put ptpPg (F.PTP_PG_CTL_RUN.off (0x20 * g)) run

end State

end Sys2Proof.Machine
end

