-- ==== Sys2Proof/Machine/Xbar.lean ====
section
/-!
DEFINITION. The sole crossbars and the HBM controllers: slots, ranking, preemption, order of issue, ECC and repair,
refresh, self-refresh, slot-table and scramble commits (R311 to R335). Data moves at the command of its requester;
these commands arbitrate the accesses.
-/
namespace Sys2Proof.Machine

open Sys2Proof

namespace State

def xbrOf (s : State) (x : Nat) : XbrDyn := tabGet {} s.xbr x
def setXbr (s : State) (x : Nat) (d : XbrDyn) : State := { s with xbr := tabPut {} s.xbr x d }

/-- The core cycle of the timeline (R327). -/
def cycle (s : State) : Nat := s.now / 4096

/-! ## Slot tables (R327 to R330) -/

/-- Entry of slot `n` in a table of words: its owner port. -/
def slotOwner (w : Nat → W32) (n : Nat) : Option Nat :=
  let b := fget (w (n / 4)) (8 * (n % 4) + 7) (8 * (n % 4))
  if b.testBit 6 then some (b % 64) else none

/-- Word `w` of the live table, 0 primary and 1 secondary. -/
def slotLive (s : State) (x ab w : Nat) : W32 := tabGet 0 s.slotL (x * 512 + 256 * ab + w)

/-- Word `w` of the shadow table. -/
def slotShadow (s : State) (x ab w : Nat) : W32 := s.rd (xbrPg x) (0x400 + 0x400 * ab + 4 * w)

/-- REASON of a slot of the shadow table that offends by itself (R329). -/
def slotBad (s : State) (x n : Nat) : Nat :=
  let a := slotOwner (s.slotShadow x 0) n
  let b := slotOwner (s.slotShadow x 1) n
  if (match a with | some p => decide (47 < p) | none => false) || (match b with | some p => decide (47 < p) | none => false) then 1
  else if a.isSome ∧ a = b then 2
  else 0

/-- Longest run of slots without an open slot, over the table read twice. -/
def closedRun (open_ : Nat → Bool) : Nat :=
  ((List.range 2048).foldl (fun (m : Nat × Nat) n => if open_ (n % 1024) then (0, m.2) else (m.1 + 1, max m.2 (m.1 + 1))) (0, 0)).2

/-- The open-slot rule of R329. -/
def openRule (s : State) (x : Nat) : Bool :=
  let o := fun n => (slotOwner (s.slotShadow x 0) n).isNone
  decide (16 ≤ ((List.range 1024).filter o).length) && decide (closedRun o ≤ 128)

/-- A slot table commit at a wrap (R329, R330). Which slot the open-slot rule names the manual does not say: it is a
free value. -/
def slotCommit (s : State) (x : Nat) : State :=
  let p := xbrPg x
  let s := s.put p F.PG_STS_COMMIT_PEND false
  let refuse := fun (s : State) (n r : Nat) =>
    (((s.set p F.XBR_SLOT_ERR_SLOT n).set p F.XBR_SLOT_ERR_REASON r).put p F.XBR_STS_SLOT_ERR true).rise p X.XBR_SLOT_ERR
  match (List.range 1024).find? (fun n => s.slotBad x n != 0) with
  | some n => refuse s n (s.slotBad x n)
  | none =>
    if !s.openRule x then
      let (f, s) := s.fresh
      refuse s (f % 1024) 3
    else
      let s := (List.range 512).foldl (fun (s : State) k =>
        { s with slotL := tabPut 0 s.slotL (x * 512 + k) (s.slotShadow x (k / 256) (k % 256)) }) s
      (s.put p F.XBR_STS_SHADOW_BUSY true).copyStart p

/-- A table wrap: a pending commit takes place. -/
def slotWrap (s : State) : State :=
  [0, 1].foldl (fun s x => if s.flag (xbrPg x) F.PG_STS_COMMIT_PEND then s.slotCommit x else s) s

/-! ## The scramble table (R322, R323) -/

/-- Masks reduced by one pivot bit. -/
def gfStep (ms : List Nat) (b : Nat) : List Nat :=
  match ms.find? (·.testBit b) with
  | none => ms
  | some m => (ms.erase m).map (fun v => if v.testBit b then v ^^^ m else v)

/-- Fifteen masks are invertible over GF(2): elimination uses all of them. -/
def invertible (ms : List Nat) : Bool := ((List.range 15).foldl gfStep ms).isEmpty

/-- A scramble table commit (R323). -/
def scrCommit (s : State) (x : Nat) : State :=
  let p := memPg x
  let s := s.put p F.PG_STS_COMMIT_PEND false
  if !invertible ((List.range 15).map (fun i => s.get p (F.MEM_SCR_MASK.off (4 * i)))) then
    (s.put p F.MEM_STS_NBR_ERR true).rise p X.MEM_NBR_ERR
  else
    (List.range 15).foldl (fun (s : State) i =>
      { s with scrL := tabPut (BitVec.ofNat 32 (1 <<< i)) s.scrL (x * 16 + i) (s.rd p (0x120 + 4 * i)) }) s |>.copyStart p

/-- The physical row of a logical row. -/
def physRow (s : State) (x row : Nat) : Nat :=
  (List.range 15).foldl (fun n i =>
    let m := (tabGet (BitVec.ofNat 32 (1 <<< i)) s.scrL (x * 16 + i)).toNat &&& row
    if (List.range 15).foldl (fun b k => b ^^ m.testBit k) false then setBit n i else n) 0

/-- The neighbour refreshes of the oldest draw (R322): each is one activate and one precharge, which leave the bank closed. -/
def nbrRefresh (s : State) (x : Nat) : State :=
  let d := s.xbrOf x
  match d.nbr with
  | [] => s
  | (bk, row) :: r =>
    let q := s.physRow x row
    (s.setXbr x { d with nbr := r, rows := tabPut 0 d.rows bk 0 }).bump (memPg x) F.MEM_NBR_CNT_COUNT (b2n (q != 0) + b2n (q != 32767))

/-! ## Slots (R328, R331 to R333) -/

def rank (s : State) (x p : Nat) : Nat := s.get (xbrPg x) (F.XBR_PORT_CFG_RANK.off (4 * p))
def waitOf (d : XbrDyn) (p : Nat) : Nat := tabGet 0 d.wait p

/-- Ready accesses of a port in its order; on a capture port stamp words go before fail-log records (R326). -/
def readyOf (d : XbrDyn) (p : Nat) : List MemAcc :=
  let l := d.ready.filter (fun a => a.port == p)
  if 16 ≤ p ∧ p < 32 then l.filter (fun a => !a.log) ++ l.filter (fun a => a.log) else l

/-- The stack serves accesses: its pages are enabled (R404, R406) and it is not in self-refresh. -/
def memServes (s : State) (x : Nat) : Bool :=
  s.enabled (memPg x) && s.enabled (xbrPg x) && s.get (memPg x) F.MEM_STS_SR_STATE == 0

/-- Those it may send through ownership: no resident-area load (R326). -/
def ownReady (d : XbrDyn) (p : Nat) : List MemAcc := (readyOf d p).takeWhile (fun a => !a.load)

/-- The better of two ports under a key compared by lexicographic order. -/
def bestPort (key : Nat → Nat) (ps : List Nat) : Option Nat :=
  ps.foldl (fun (m : Option Nat) p => match m with
    | none => some p
    | some q => if key q < key p then some p else some q) none

/-- Admission of accesses of one grant, in order, while their pseudo-channel queues have room (R313, R324). -/
def enqueue (s : State) (x g : Nat) : List MemAcc → List QAcc → List MemAcc → List QAcc × List MemAcc
  | [], q, done => (q, done)
  | a :: r, q, done =>
    let n := if s.mirrored a.addr && a.wr then 2 else 1
    if 32 < (q.filter (fun y => hbmPch y.a.addr == hbmPch a.addr)).length + n then (q, done)
    else
      let maxDrops := max 1 (s.get (xbrPg x) F.XBR_CTL_PRE_MAX)
      let fix := decide (maxDrops ≤ a.drops)
      let pre := !fix && decide (s.rank x a.port ≤ s.get (xbrPg x) F.XBR_CTL_PRE_RANK)
      let mk := fun (ph : Option Nat) => (⟨a, ph, max 48 (s.get (memPg x) (F.MEM_QOS_TARGET.off (4 * a.port))), s.mono / 4096, 0, g, pre, fix⟩ : QAcc)
      let new := if s.mirrored a.addr then
          (if a.wr then [mk (some (s.physical a.addr 0)), mk (some (s.physical a.addr 1))] else [mk none])
        else [mk (some a.addr)]
      enqueue s x g r (q ++ new) (done ++ [a])

/-- The accesses of a slot's grant, and whether a forced port won it. -/
def slotPick (s : State) (x : Nat) : List MemAcc × Bool :=
  let d := s.xbrOf x
  let n := s.cycle % 1024
  let own := fun (o : Option Nat) => match o with | some p => ownReady d p | none => []
  let a := own (slotOwner (s.slotLive x 0) n)
  let b := own (slotOwner (s.slotLive x 1) n)
  if !a.isEmpty || !b.isEmpty then ((a.take 16 ++ b).take 16, false)
  else if s.get (xbrPg x) F.XBR_CTL_BG_OCC ≤ d.queue.length then ([], false)
  else
    let ps := (List.range 48).filter (fun p => !(readyOf d p).isEmpty)
    let win := fun o => match o with | some p => (readyOf d p).take 16 | none => []
    let fs := ps.filter d.forced.contains
    if fs.isEmpty then (win (bestPort (fun p => s.rank x p * 2 ^ 64 + min (2 ^ 64 - 1) (waitOf d p)) ps), false)
    else (win (bestPort (waitOf d) fs), true)

/-- A port that was ready counts its wait, or starts again at a grant (R331). -/
def countWait (s : State) (x : Nat) (granted : List Nat) (p : Nat) : State :=
  let d := s.xbrOf x
  if (readyOf d p).isEmpty ∧ ¬granted.contains p then s
  else if granted.contains p then
    s.setXbr x { d with wait := tabPut 0 d.wait p 0, forced := d.forced.filter (· != p) }
  else
    let n := waitOf d p + 1
    let s := s.setXbr x { d with wait := tabPut 0 d.wait p n }
    let f := F.XBR_WAIT_MAX_MAX.off (4 * p)
    s.set (xbrPg x) f (min 65535 (max n (s.get (xbrPg x) f)))

/-- One slot of a crossbar: the accesses given have become ready; at most one grant is made, where the stack serves. -/
def slot (s : State) (x : Nat) (req : List MemAcc) : State :=
  let req := req.filter (fun a => hbmStack a.addr == x && !s.aliased a.addr)
  let d := s.xbrOf x
  let s := s.setXbr x { d with ready := d.ready ++ req, last := if req.isEmpty then d.last else s.mono }
  if !s.memServes x then s
  else
    let (as, forced) := s.slotPick x
    let d := s.xbrOf x
    let (q, done) := s.enqueue x d.grants as d.queue []
    let granted := (done.map (·.port)).eraseDups
    let s := s.setXbr x { d with
      queue := q, grants := d.grants + b2n (!done.isEmpty), ready := done.foldl List.erase d.ready,
      kept := d.kept ++ granted.map (fun p => (d.grants, p, done.filter (fun a => a.port == p))) }
    let s := (List.range 48).foldl (fun s p => s.countWait x granted p) s
    if forced && !done.isEmpty then s.rise (xbrPg x) X.XBR_WAIT_FORCED else s

/-- A port's counter has reached its limit (R331). -/
def waitForced (s : State) (x p : Nat) : State :=
  let d := s.xbrOf x
  let l := s.get (xbrPg x) (F.XBR_WAIT_LIMIT_LIMIT.off (4 * p))
  if l ≠ 0 ∧ l ≤ waitOf d p ∧ ¬d.forced.contains p then s.setXbr x { d with forced := d.forced ++ [p] } else s

/-! ## Order in the controller (R324, R333) -/

/-- The grant of an entry may be dropped now (R333, R334). -/
def droppable (s : State) (x : Nat) (y : QAcc) : Bool :=
  !y.fix && (y.pre || decide (s.rank x y.a.port ≤ s.get (xbrPg x) F.XBR_CTL_PRE_RANK))

/-- The unissued accesses of a grant's port are dropped; the port requests the grant's accesses again from the first of
them, at its head (R333). -/
def dropGrant (s : State) (x g p : Nat) : State :=
  let d := s.xbrOf x
  let mine := fun (y : QAcc) => y.grant == g && y.a.port == p
  let held := fun (y : Nat × Nat × List MemAcc) => y.1 == g && y.2.1 == p
  let back := (d.kept.filter held).flatMap (fun y => y.2.2.map (fun a => { a with drops := a.drops + 1 }))
  (s.setXbr x { d with
    queue := d.queue.filter (fun y => !mine y), ready := back ++ d.ready, wait := tabPut 0 d.wait p 0,
    kept := d.kept.filter (fun y => !held y) }).bump
    (xbrPg x) F.XBR_PREEMPT_CNT_COUNT 1

/-- Age at which an access of a target reaches an urgency. -/
def urgAge (t u : Nat) : Nat := if u = 1 then (t + 1) / 2 else if u = 2 then (3 * t + 3) / 4 else t

/-- Entry `k` of the queues ages into the next urgency. -/
def urgency (s : State) (x k : Nat) : State :=
  let d := s.xbrOf x
  match d.queue[k]? with
  | none => s
  | some y =>
    if 3 ≤ y.urg then s
    else
      let u := y.urg + 1
      let s := s.upToMono ((y.adm + urgAge y.tgt u) * 4096)
      let s := s.setXbr x { d with queue := d.queue.set k { y with urg := u } }
      let s := if u = 2 ∧ s.get (xbrPg x) F.XBR_CTL_PRE_RANK < s.rank x y.a.port then
          ((((s.xbrOf x).queue.filter (fun z => hbmPch z.a.addr == hbmPch y.a.addr && s.droppable x z)).map
            (fun z => (z.grant, z.a.port))).eraseDups).foldl (fun s z => s.dropGrant x z.1 z.2) s
        else s
      if u = 3 then
        ((s.set (memPg x) F.MEM_QOS_MISS_PORT y.a.port).bump (memPg x) F.MEM_QOS_MISS_COUNT 1).rise (memPg x) X.MEM_QOS_MISS
      else s

/-- The physical address at which an entry can be issued: its bank is free; a mirrored read takes the copy whose bank
is free, then the copy whose row is open, then copy 0 (R315). `busy`: banks of the pseudo-channel in maintenance. -/
def issueAddr (s : State) (x busy : Nat) (y : QAcc) : Option Nat :=
  let d := s.xbrOf x
  let free := fun a => !busy.testBit (hbmBank a)
  let hit := fun a => tabGet 0 d.rows (16 * hbmPch a + hbmBank a) == hbmRow a + 1
  match y.phys with
  | some a => if free a then some a else none
  | none =>
    let a := s.physical y.a.addr 0
    let b := s.physical y.a.addr 1
    if free a && free b then (if !hit a && hit b then some b else some a)
    else if free a then some a else if free b then some b else none

/-- One access of a pseudo-channel is issued: highest urgency, then row hits, then the oldest. `draw`: the activate's
neighbour-refresh draw hits (R322). -/
def issue (s : State) (x pch busy : Nat) (draw : Bool) : State :=
  let d := s.xbrOf x
  let busy := match d.repair with
    | some j =>
      let w := s.rd (memPg x) (0x180 + 4 * j)
      if fget w 19 15 = pch then setBit busy (fget w 23 20) else busy
    | none => busy
  let hit := fun a => b2n (tabGet 0 d.rows (16 * hbmPch a + hbmBank a) == hbmRow a + 1)
  let cands := (d.queue.zipIdx).filterMap (fun y =>
    if hbmPch y.1.a.addr = pch then (s.issueAddr x busy y.1).map (fun a => (y.1, y.2, a)) else none)
  let best := cands.foldl (fun (m : Option (QAcc × Nat × Nat)) c => match m with
    | none => some c
    | some b => if 2 * b.1.urg + hit b.2.2 < 2 * c.1.urg + hit c.2.2 then some c else some b) none
  match if s.memServes x then best else none with
  | none => s
  | some (y, k, a) =>
    let bk := 16 * pch + hbmBank a
    let act := hit a == 0
    let q := d.queue.eraseIdx k
    s.setXbr x { d with
      queue := q,
      kept := d.kept.filter (fun z => q.any (fun w => w.grant == z.1 && w.a.port == z.2.1)), issued := if y.a.wr then d.issued else d.issued ++ [{ y with phys := some a }],
      rows := tabPut 0 d.rows bk (hbmRow a + 1), nbr := if act && draw then d.nbr ++ [(bk, hbmRow a)] else d.nbr }

/-! ## ECC and repair (R315, R318, R319) -/

/-- A corrected access at a physical address. -/
def eccCorr (s : State) (x a : Nat) : State :=
  let p := memPg x
  let s := (s.bump p F.MEM_ECC_CORR 1).rise p X.MEM_ECC_CORR
  let d := s.xbrOf x
  let k := (hbmPch a * 16 + hbmBank a) * 32768 + hbmRow a
  let n := match d.track.find? (fun y => y.1 == k) with | some y => y.2 + 1 | none => 1
  if n = 1 ∧ 64 ≤ d.track.length then s
  else
    let s := s.setXbr x { d with track := d.track.filter (fun y => y.1 != k) ++ [(k, n)] }
    if max 1 (s.get p F.MEM_REPAIR_THR) ≤ n then s.candidate x (rowKey a) else s

/-- What one copy gives: 0 sound, 1 corrected, 2 uncorrectable. -/
def copyRead (s : State) (x a err : Nat) : State × Bool :=
  let p := memPg x
  if s.hbm.bad.contains (a / 32) || decide (2 ≤ err) then
    let s := { s with hbm := { s.hbm with bad := if s.hbm.bad.contains (a / 32) then s.hbm.bad else s.hbm.bad ++ [a / 32] } }
    ((s.bump p F.MEM_ECC_UNCORR 1).candidate x (rowKey a), false)
  else (if err = 1 then s.eccCorr x a else s, true)

/-- An uncorrectable read: its address and the rise of ECC_UNCORR. -/
def readLost (s : State) (x a : Nat) : State :=
  ((s.set (memPg x) F.MEM_ECC_ADDR_LO_ADDR (a % 2 ^ 32 / 32)).set (memPg x) F.MEM_ECC_ADDR_HI_ADDR (a / 2 ^ 32)).rise
    (memPg x) X.MEM_ECC_UNCORR

/-- The access at physical address `a` is written back from the copy at `b`. -/
def copyBack (s : State) (a b : Nat) : State :=
  { s with hbm := { s.hbm with
      bytes := Memory.copyAccess s.hbm.bytes a b, bad := s.hbm.bad.filter (fun z => z != a / 32) } }

/-- The second copy of a mirrored read whose first is uncorrectable. -/
def readOther (s : State) (x a addr e1 : Nat) : State :=
  match (s.copies addr).find? (fun b => b != a) with
  | none => s.readLost x addr
  | some b =>
    let (s, ok) := s.copyRead x (b / 32 * 32) e1
    if ok then s.copyBack (a / 32 * 32) (b / 32 * 32) else s.readLost x addr

/-- The data of an issued read returns: `e0` and `e1` are the errors met in the copy read and in the other copy. -/
def readReturn (s : State) (x k e0 e1 : Nat) : State :=
  let d := s.xbrOf x
  match d.issued[k]? with
  | none => s
  | some y =>
    let s := s.setXbr x { d with issued := d.issued.eraseIdx k }
    let a := y.phys.getD y.a.addr
    if s.hbm.poison.contains (a / 32) then s
    else
      let (s, ok) := s.copyRead x a e0
      if ok then s else s.readOther x a y.a.addr e1

/-- Every eyelet sequencer is STOPPED. -/
def allStopped (s : State) : Bool := s.groups.isEmpty

/-- A repaired row takes the data of its sound copy where it is mirrored; other accesses keep their error (R319). -/
def repairRow (s : State) (x key : Nat) : State :=
  (s.hbm.bad.filter (fun b => hbmStack (32 * b) == x && rowKey (32 * b) == key)).foldl (fun s b =>
    let o := (32 * b) ^^^ 2 ^ 19
    if decide (s.mirrorBase ≤ 32 * b) && decide (32 * b < s.mirrorBase + 2 * s.mirrorSize) && !s.hbm.bad.contains (o / 32) then
      s.copyBack (32 * b) o
    else s) s

/-- The firmware appends a soft repair to the repair list (R406). -/
def repairStore (s : State) (x key : Nat) : State :=
  if 256 ≤ (s.flash.rlist.filter (fun r => r.1 == x)).length then
    (s.put (pg T.glb 0) F.GLB_BIST_MISC_RLIST_FULL true).rise (pg T.glb 0) X.GLB_RLIST_FULL
  else { s with flash := { s.flash with rlist := s.flash.rlist ++ [(x, key)] } }

/-- A repair starts on the first candidate not yet repaired (R319). -/
def repairStart (s : State) (x : Nat) : State :=
  let d := s.xbrOf x
  let p := memPg x
  let due := match d.repairT with | some t => decide (t + 6400000 * 1024 ≤ s.mono) | none => true
  match (List.range 16).find? (fun j => fget (s.rd p (0x180 + 4 * j)) 25 24 == 2) with
  | some j =>
    if s.memServes x && s.flag p F.MEM_REPAIR_EN && s.allStopped && due && d.repair.isNone then
      s.setXbr x { d with repair := some j, repairT := some s.mono }
    else s
  | none => s

/-- A repair of a row of the log completes (R319). -/
def repairEnd (s : State) (x j : Nat) : State :=
  let key := fget (s.rd (memPg x) (0x180 + 4 * j)) 23 0
  ((s.put (memPg x) (F.MEM_REPAIR_LOG_DONE.off (4 * j)) true).repairRow x key).repairStore x key

/-- The repair in progress completes. -/
def repairDone (s : State) (x : Nat) : State :=
  match (s.xbrOf x).repair with
  | none => s
  | some j => (s.setXbr x { s.xbrOf x with repair := none }).repairEnd x j

/-- A row whose read-back after the fill is uncorrectable: a candidate, repaired and written again (R406). -/
def fillRepair (s : State) (x key : Nat) : State :=
  let s := s.candidate x key
  match (List.range 16).find? (s.candLogged x key) with
  | some j => if (s.rd (memPg x) (0x180 + 4 * j)).getLsbD 24 then s else s.repairEnd x j
  | none => s.repairStore x key

/-! ## Refresh and self-refresh (R320, R321) -/

/-- A bank's interval expires. How a refresh that starts lowers the debt the manual does not say: the debt left is a
free value, at most the debt before. -/
def refresh (s : State) (x pch bank : Nat) : State :=
  let d := s.xbrOf x
  let p := memPg x
  let k := 16 * pch + bank
  let busy := d.queue.any (fun y => hbmPch y.a.addr == pch && (match y.phys with | some a => hbmBank a == bank | none => false) &&
    decide (1 ≤ y.urg))
  let debt := tabGet 0 d.debt k
  let start := fun (s : State) (n : Nat) =>
    let (f, s) := s.fresh
    s.setXbr x { s.xbrOf x with debt := tabPut 0 d.debt k (f % (n + 1)), rows := tabPut 0 d.rows k 0 }
  if !s.memServes x then s
  else if !busy then start s debt
  else
    let s := s.set p F.MEM_REF_STS_DEBT_MAX (max (debt + 1) (s.get p F.MEM_REF_STS_DEBT_MAX))
    if debt + 1 < 8 then s.setXbr x { d with debt := tabPut 0 d.debt k (debt + 1) }
    else ((start s 8).bump p F.MEM_REF_STS_FORCED 1).rise p X.MEM_REF_FORCED

/-- A stack that has been idle enters self-refresh. -/
def srEntry (s : State) (x : Nat) : State :=
  let d := s.xbrOf x
  let p := memPg x
  let streams := (List.range 16).any (fun e => s.get (pg T.tdc e) F.TDC_CTL_STREAM != 0)
  if s.flag p F.MEM_REF_CTL_SR_EN && s.memServes x && s.allStopped && !streams &&
      (List.range 4).all (fun q => !s.trgRuns q) && d.ready.isEmpty && d.queue.isEmpty && d.issued.isEmpty then
    (s.upToMono (d.last + s.get p F.MEM_REF_CTL_SR_IDLE * 64 * 4096)).set p F.MEM_STS_SR_STATE 2
  else s

/-- A request ends self-refresh; a stack that is held in it stays (R404, R423). -/
def srExit (s : State) (x : Nat) : State :=
  if s.get (memPg x) F.MEM_STS_SR_STATE = 0 || !s.enabled (memPg x) || s.flag (pg T.flt 0) F.FLT_STS_DEV_HEEL then s
  else (s.setXbr x { s.xbrOf x with last := s.mono }).set (memPg x) F.MEM_STS_SR_STATE 0

/-- The stack gives no response (R335). -/
def stackFail (s : State) (x : Nat) : State := (s.setXbr x { s.xbrOf x with dead := true }).rise (memPg x) X.MEM_STACK_FAIL

end State

end Sys2Proof.Machine
end

