-- ==== Sys2Proof/Machine/Timebase.lean ====
section
/-!
DEFINITION. The timebase: reference, holdover, PLLs, the timeline, lace frames, zeroing, the lace transmitter, REFCAL
capture and the tracking loops (R42 to R72).
-/
namespace Sys2Proof.Machine

open Sys2Proof

namespace State

/-! ## Reference and PLLs (R43 to R47) -/

def holdover (s : State) : Bool := s.flag tbsPg F.TBS_REF_STS_HOLDOVER

/-- HOLD_US shows the length of the holdover in progress. -/
def holdSync (s : State) : State :=
  if s.holdover then s.set tbsPg F.TBS_REF_STS_HOLD_US (min 65535 ((s.mono - s.lace.holdT) / (6400 * 1024))) else s

/-- REFIN is lost: holdover. -/
def refLoss (s : State) : State :=
  if s.flag tbsPg F.TBS_REF_STS_REF_PRESENT then
    let s := (s.put tbsPg F.TBS_REF_STS_REF_PRESENT false).put tbsPg F.TBS_REF_STS_HOLDOVER true
    ({ s with lace := { s.lace with holdT := s.mono } }.holdSync).rise tbsPg X.TBS_REF_LOSS
  else s

/-- REFIN has returned and the PLLs have relocked with phase build-out: its edges fall at a phase of the timeline, which
stays until the next zeroing (R45, R48). -/
def refReturn (s : State) (phase : Nat) : State :=
  if s.holdover then
    let s := { s with lace := { s.lace with phase := phase % 65536 } }
    ((s.holdSync.put tbsPg F.TBS_REF_STS_REF_PRESENT true).put tbsPg F.TBS_REF_STS_HOLDOVER false).put tbsPg
      F.TBS_REF_STS_ALIGNED false
  else s

/-- REFIN has been absent for 1 ms, counted from the entry to holdover (R45). DESIGN CHOICE: the manual does not say
whether the 1 ms starts there or at the last edge, 256 UI before (log entry 140). -/
def refLong (s : State) : State :=
  if s.holdover then
    let s := s.upToMono (s.lace.holdT + 6400000 * 1024)
    s.holdSync.rise tbsPg X.TBS_REF_LONG
  else s

/-- A frequency-monitor window of 1 ms ends with an error in ppm (R44); the monitor's settings then come into force. -/
def fmonWindow (s : State) (ppm : Nat) : State :=
  let s := if s.getEff tbsPg F.TBS_REF_CTL_FMON_SRC < 2 ∧ s.getEff tbsPg F.TBS_REF_CTL_FMON_THR < ppm then
    s.rise tbsPg X.TBS_REF_FREQ else s
  s.inForce tbsPg 0x104

/-- All five PLLs lock. -/
def pllLock (s : State) : State :=
  if s.flag tbsPg F.TBS_REF_STS_REF_PRESENT then (s.set tbsPg F.TBS_REF_STS_QPLL_LOCK 15).put tbsPg F.TBS_REF_STS_CPLL_LOCK true
  else s

/-- Quadrant PLL q loses lock. -/
def pllUnlock (s : State) (q : Nat) : State :=
  (s.set tbsPg F.TBS_REF_STS_QPLL_LOCK (clearBit (s.get tbsPg F.TBS_REF_STS_QPLL_LOCK) q)).rise tbsPg (X.TBS_PLL_UNLOCK + q)

def pllsLocked (s : State) : Bool :=
  s.get tbsPg F.TBS_REF_STS_QPLL_LOCK == 15 && s.flag tbsPg F.TBS_REF_STS_CPLL_LOCK

/-- The timeline starts at 0 (R47). -/
def timelineStart (s : State) : State :=
  if s.pllsLocked && !s.tlOn then
    { s with tlOn := true, era := s.mono, now := 0, lace := { s.lace with phase := 0 } }
  else s

/-! ## Zeroing (R53 to R57) -/

/-- REFUSE_WHY: the first condition of R55 that holds, or 0. -/
def refuseWhy (s : State) : Nat :=
  if !s.groups.isEmpty || (List.range 16).any (fun e => s.flag (eyePg e) F.EYE_SEQ_STS_AT_ARMED) then 1
  else if s.holdover then 2
  else if (List.range 16).any (fun e => s.get (pg T.dds e) F.DDS_STS_STATE != 0 || !(s.ddsOf e).hopQ.isEmpty) then 3
  else if (List.range 4).any s.trgRuns then 4
  else if (List.range 64).any (fun i => s.iuState i != 0 && s.iuState i != 5) then 5
  else if (List.range 4).any (fun g => (s.pgOf g).run && !(s.pgOf g).clock) then 6
  else if s.sch.tickets.any (fun k => (k.typ == 5 && (k.core.isSome || k.slotCore.isSome)) || k.rerun ||
      (k.isComplete && s.releaseTurn k && !s.gateMet k)) then 7
  else 0

/-- The timeline starts anew at its value `t`: what is due at a later value is due as much later of the new one, CLEAN_T of
every channel is 0, and streams write their epoch anew (R56). Durations in progress are held in the device's own time and
are not reached; stamps on their way keep the value of the timeline in which they were taken. -/
def rebase (s : State) (t : Nat) : State :=
  let u := t / 1024
  let d (d : Due) : Due := { d with t := d.t - t, vb := d.vb - t, ve := d.ve - t }
  let f (m : FailMsg) : FailMsg := { m with t := m.t - t }
  let ev (w : EvtSrc) : EvtSrc := { w with until_ := w.until_.map (· - t), from_ := w.from_ - t }
  let ch (x : Nat × ChanDyn) : Nat × ChanDyn :=
    (x.1, { x.2 with due := x.2.due.map d, clean := 0,
                     win := x.2.win.map (fun w => { w with d := d w.d, bad := w.bad.map (· - t) }) })
  let pf (x : PelFrame) : PelFrame := { x with hop := x.hop - u }
  let dd (x : Nat × DdsDyn) : Nat × DdsDyn :=
    (x.1, { x.2 with lastEdge := none, rises := [], amp := x.2.amp.map pf, ampFrom := x.2.ampFrom - u,
                     sw := x.2.sw.map (fun y => (pf y.1, y.2 - u)), frame := x.2.frame.map (fun y => (pf y.1, y.2 - u)), free := x.2.free - u })
  let aw (x : Nat × AwlDyn) : Nat × AwlDyn := (x.1, { x.2 with epoch := none })
  let ga (x : Nat × GateDyn) : Nat × GateDyn := (x.1, x.2.map (fun y => (y.1 - u, y.2.map (· - u))))
  let tg (s : State) (q : Nat) : State :=
    let k := 16 * 2 ^ s.get (trgPg q) F.TRG_DECIM_MIN_LOG
    let s := s.rawAll q
    s.setTrg q { s.trgOf q with armed := (s.trgOf q).armed.map (fun b => (b - u + k - 1) / k * k), disarm := (s.trgOf q).disarm.map (· - t),
                                segs := [] }
  let s := (List.range 4).foldl tg s
  let tr (x : Nat × TrackDyn) : Nat × TrackDyn := (x.1, { x.2 with edges := [], win := none })
  { s with chan := s.chan.map ch, dds := s.dds.map dd, awl := s.awl.map aw, gate := s.gate.map ga,
           track := s.track.map tr, fails := s.fails.map f, evtSrc := s.evtSrc.map ev }

/-- The zeroing edge (R53, R56). -/
def zero (s : State) (seq : Nat) : State :=
  let s := s.ptpSync
  let s := { s.rebase s.now with era := s.mono, now := 0, ptp := { s.ptp with at_ := 0 }, lace := { s.lace with phase := 0 } }
  let s := ((s.put tbsPg F.TBS_LACE_CTL_ALIGN_ARM false).put tbsPg F.TBS_REF_STS_ALIGNED true).set tbsPg
    F.TBS_LACE_STS_ALIGN_SEQ seq
  (s.inForce tbsPg 0x114).slotWrap

/-- The check of an unarmed ALIGN (R57). -/
def alignCheck (s : State) (seq : Nat) : State :=
  let s := (s.set tbsPg F.TBS_ALIGN_CHK_CHK (s.ui % 2 ^ 32)).set tbsPg F.TBS_LACE_STS_ALIGN_SEQ seq
  if s.flag tbsPg F.TBS_REF_STS_ALIGNED && s.ui % 64 != 0 then s.rise tbsPg X.TBS_ALIGN_PHASE else s

/-- An armed ALIGN is refused for a reason (R54, R55). -/
def alignRefused (s : State) (r : Nat) : State :=
  (s.put tbsPg F.TBS_LACE_STS_ALIGN_REFUSED true).set tbsPg F.TBS_LACE_STS_REFUSE_WHY r

/-- An ALIGN frame at its reference instant. -/
def align (s : State) (seq : Nat) : State :=
  let edge := s.now + (if s.flag tbsPg F.TBS_LACE_CTL_SAMPLE_EDGE then 1056 else 1024) * 1024
  let armed := s.flag tbsPg F.TBS_LACE_CTL_ALIGN_ARM
  let r := s.refuseWhy
  let s := if armed && r != 0 then s.alignRefused r else s
  { s with lace := { s.lace with align := some (seq, armed && r == 0, edge) } }

/-- The edge of an ALIGN taken as armed at its reference instant: it zeroes the timeline, or is found unarmed or
refused there and acts as a check. -/
def zeroingEdge (s : State) : State :=
  match s.lace.align with
  | some (seq, true, edge) =>
    let s := { s with lace := { s.lace with align := none } }.upTo edge
    if !s.flag tbsPg F.TBS_LACE_CTL_ALIGN_ARM then s.alignCheck seq
    else
      let r := s.refuseWhy
      if r = 0 then s.zero seq else (s.alignRefused r).alignCheck seq
  | _ => s

/-- The would-be zeroing edge of an ALIGN that is not armed. -/
def checkEdge (s : State) : State :=
  match s.lace.align with
  | some (seq, false, edge) => ({ s with lace := { s.lace with align := none } }.upTo edge).alignCheck seq
  | _ => s

/-! ## Frames (R50 to R60) -/

/-- The timeline value of a START frame, UI (R58): `m` is payload bits 47:8. -/
def startValue (s : State) (m : Nat) : Nat :=
  let v := s.ui / 2 ^ 46 * 2 ^ 46 + m % 2 ^ 40 * 64
  if v * 1024 < s.now then v + 2 ^ 46 else v

/-- A START frame reaches sequencers, DDS units and synchronisation times. -/
def laceStart (s : State) (tag m : Nat) : State :=
  let t := s.startValue m
  let s := (s.groupLace tag t).ddsLace tag t
  let s := (List.range 16).foldl (fun s e =>
    if s.flag (eyePg e) F.EYE_SEQ_CTL_SYNC_LACE_EN && s.get (eyePg e) F.EYE_SEQ_CTL_SYNC_TAG == tag then s.syncArm e t else s) s
  s.seqEvent 0xA tag

/-- A frame with a good CRC of one of the short commands: START, COUNT, TRIG. -/
def laceFrame (s : State) (typ data : Nat) : State :=
  if typ = 2 then s.laceStart (data % 256) (data / 256 % 2 ^ 40)
  else if typ = 3 then s.ctrDown (data % 4096)
  else if typ = 4 then s.trgCode (data % 256) (some (s.now + 640 * 1024))
  else s

end State

/-- One bit of a CRC register of a width with a polynomial. -/
def crcStep (w poly c : Nat) (b : Bool) : Nat :=
  let c' := c * 2 % 2 ^ w
  if c.testBit (w - 1) ^^ b then c' ^^^ poly else c'

/-- The low `n` bits of a number, bit 0 first. -/
def lineBits (n v : Nat) : List Bool := (List.range n).map v.testBit

/-- The number whose bits, bit 0 first, are given. -/
def lineNat : List Bool → Nat
  | [] => 0
  | b :: r => b2n b + 2 * lineNat r

/-- CRC-8 of R50 over bits in line order. -/
def crc8 (bs : List Bool) : Nat := bs.foldl (crcStep 8 7) 0

/-- A lace frame (R50). -/
def laceWord (typ payload : Nat) : Nat :=
  let body := typ % 16 + payload % 2 ^ 48 * 16
  0xB + body * 16 + crc8 (lineBits 52 body) * 2 ^ 56

namespace State

/-- The first REFIN edge that samples LACE_IN at or after an instant (R48, R50). -/
def sampleEdge (s : State) (t : Nat) : Nat :=
  let ph := s.lace.phase + (if s.flag tbsPg F.TBS_LACE_CTL_SAMPLE_EDGE then 32768 else 0)
  t + (ph + 65536 - t % 65536) % 65536

/-- The first REFIN rising edge at or after an instant. -/
def refEdge (s : State) (t : Nat) : Nat := t + (s.lace.phase + 65536 - t % 65536) % 65536

/-- A frame has been received whole; it stands at its reference instant (R50 to R53). -/
def laceDone (s : State) (w : Nat) : State :=
  let typ := bits w 7 4
  if crc8 (lineBits 52 (w / 16)) ≠ bits w 63 56 then (s.bump tbsPg F.TBS_LACE_STS_CRC_ERRS 1).rise tbsPg X.TBS_LACE_CRC
  else if typ = 1 then s.align (bits w 23 8)
  else if 2 ≤ typ ∧ typ ≤ 4 then s.laceFrame typ (bits w 55 8)
  else s.put tbsPg F.TBS_LACE_STS_RSVD_TYPE true

/-- One bit sampled on LACE_IN (R51): outside a frame it is compared with SYNC, in line order 1, 1, 0, 1; inside a frame it
joins it, and the 64th completes it. -/
def laceBit (s : State) (b : Bool) : State :=
  let r := s.lace.rx ++ [b]
  let keep (r : List Bool) : State := { s with lace := { s.lace with rx := r, line := b } }
  if r.length < 4 then keep r
  else if r.length = 4 then (if r = [true, true, false, true] then keep r else keep (r.drop 1))
  else if r.length < 64 then keep r
  else (keep []).laceDone (lineNat r)

/-- Bits sampled on LACE_IN one REFIN period apart, the last at the first sampling edge at or after `t`. -/
def laceBits (s : State) (t : Nat) : List Bool → State
  | [] => s
  | b :: r => ((s.upTo (t - r.length * 65536)).laceBit b).laceBits t r

/-- The line brings bits to the lace receiver, which is on (PG_CTL.ENABLE); with OUT_MODE 2 LACE_OUT repeats them
(R60). With the receiver off they are lost, and it is inside no frame. -/
def laceIn (s : State) (line : List Bool) (t : Nat) : State :=
  if s.enabled tbsPg && !s.resetting.contains tbsPg then
    let s := if s.get tbsPg F.TBS_LACE_CTL_OUT_MODE = 2 then s.emit (.lace line) else s
    s.laceBits (s.sampleEdge (max t s.now)) line
  else { s with lace := { s.lace with rx := [], line := false } }

/-- The level of LACE_OUT: the bit of a frame being sent, the bit sampled last with OUT_MODE 2, or 0 (R60). -/
def laceOut (s : State) : Bool :=
  match s.lace.tx with
  | some (b, t) => decide (t ≤ s.now) && b.getD ((s.now - t) / 65536) false
  | none => s.get tbsPg F.TBS_LACE_CTL_OUT_MODE == 2 && s.lace.line

/-- Bit 63 of the frame being sent has left. -/
def laceSent (s : State) : State :=
  match s.lace.tx with
  | some (b, t) =>
    let s := (s.upTo (t + 64 * 65536)).emit (.lace b)
    ({ s with lace := { s.lace with tx := none } } : State).put tbsPg F.TBS_LACE_STS_TX_BUSY false
  | none => s

/-- A block reset of the timebase page: a frame being received is discarded, a frame being sent stops with the bits that
have left (R476). -/
def laceStop (s : State) : State :=
  let s := match s.lace.tx with
    | some (b, t) => s.emit (.lace (b.take (if t ≤ s.now then (s.now - t) / 65536 + 1 else 0)))
    | none => s
  { s with lace := { s.lace with rx := [], line := false, tx := none } }

/-- A write to TBS_LACE_TX (R60). -/
def laceTx (s : State) (v : W32) : State :=
  let s := s.writeReg tbsPg 0x11C v false
  if !v.getLsbD 31 then s
  else if s.flag tbsPg F.TBS_LACE_STS_TX_BUSY || s.get tbsPg F.TBS_LACE_CTL_OUT_MODE != 1 || !s.enabled tbsPg then
    s.put tbsPg F.TBS_LACE_STS_TX_OVR true
  else
    let typ := s.get tbsPg F.TBS_LACE_TX_TYPE
    let data := s.get tbsPg F.TBS_LACE_TX_PL_LO_PL_LO + s.get tbsPg F.TBS_LACE_TX_PL_HI_PL_HI * 2 ^ 32
    let tx := some (lineBits 64 (laceWord typ data), s.refEdge s.now)
    let s := ({ s with lace := { s.lace with tx := tx } } : State).put tbsPg F.TBS_LACE_STS_TX_BUSY true
    if s.flag (pg T.wlt 0) F.WLT_NODE_LACE_EXT && decide (2 ≤ typ ∧ typ ≤ 4) then s.weltOwn true typ data else s

/-- A write to TBS_LACE_CTL: DISARM governs over ALIGN_ARM (R53). -/
def laceCtl (s : State) (v : W32) : State :=
  let s := s.writeReg tbsPg 0x110 v (fget v 3 2 == 3)
  if v.getLsbD 1 then s.put tbsPg F.TBS_LACE_CTL_ALIGN_ARM false else s

/-- A write to TBS_REFCAL_CTL: CAP_ARM clears CAP_DONE. -/
def refcalCtl (s : State) (v : W32) : State :=
  let s := s.writeReg tbsPg 0x138 v false
  if v.getLsbD 0 then s.put tbsPg F.TBS_REFCAL_CTL_CAP_DONE false else s

/-- A REFCAL rising edge at the device timeline's value `t`: the capture holds it with the trim removed (R62) and
fraction bit 0 at 0. -/
def refcalEdge (s : State) (t : Nat) : State :=
  let s := s.upTo t
  if s.flag tbsPg F.TBS_REFCAL_CTL_CAP_ARM then
    let v := ((t : Int) - s.trim).toNat
    let u := v / 1024
    (((((s.set tbsPg F.TBS_REFCAL_LO_FRAC (v % 1024 / 2 * 2)).set tbsPg F.TBS_REFCAL_LO_UI_L (u % 2 ^ 22)).set tbsPg
      F.TBS_REFCAL_HI_UI_H (u / 2 ^ 22 % 2 ^ 32)).put tbsPg F.TBS_REFCAL_CTL_CAP_ARM false)).put tbsPg F.TBS_REFCAL_CTL_CAP_DONE true
  else s

/-! ## Tracking loops (R65 to R71) -/

def trackOf (s : State) (q : Nat) : TrackDyn := tabGet {} s.track q
def setTrack (s : State) (q : Nat) (d : TrackDyn) : State := { s with track := tabPut {} s.track q d }

/-- A field of a quadrant's tracking registers. -/
def tf (q : Nat) (f : Fld) : Fld := f.off (0x20 * q)

def trackState (s : State) (q : Nat) : Nat := s.get tbsPg (tf q F.TBS_TRACK_STS_STATE)

/-- The BURSTs whose sites use quadrant q report TRACK_LOST (R71). -/
def trackFail (s : State) (q : Nat) : State :=
  (s.groups.filter (·.begun)).foldl (fun s g => s.trackOverlap g q) s

/-- The loop passes to a state; leaving LOCKED latches condition TRACK_LOCK (R148), HOLD and RETURN fail the BURSTs. -/
def setTrackState (s : State) (q v : Nat) : State :=
  let s := if s.trackState q = 2 ∧ v ≠ 2 then s.seqEvent 0xF q else s
  let s := s.set tbsPg (tf q F.TBS_TRACK_STS_STATE) v
  if 3 ≤ v then s.trackFail q else s

/-- TBS_QOFS shows the offset. -/
def qofsShow (s : State) (q : Nat) : State := s.set tbsPg (tf q F.TBS_QOFS_OFS) (ofSigned 16 ((s.trackOf q).ofs / 16))

/-- Bandwidth of a BW code, Hz (R67). -/
def trackBw (c : Nat) : Nat := [10000, 20000, 50000, 100000, 200000, 500000, 1000000, 2000000, 4000000].getD c 0

/-- A BW code exceeds one 25th of the sample rate: the lower of the clock frequency and 100 MHz. -/
def bwOver (s : State) (q c : Nat) : Bool :=
  let per := max 1 (s.get tbsPg (tf q F.TBS_TRACK_PER_PER))
  let bw := 25 * trackBw c
  decide (100000000 < bw) || decide (6553600000000 < bw * per)

def bwClamped (s : State) (q : Nat) : Bool := s.bwOver q (s.get tbsPg (tf q F.TBS_TRACK_CTL_BW))

/-- The code at which the loop runs: the highest at or below BW that does not exceed the limit (R67). -/
def bwCode (s : State) (q : Nat) : Nat :=
  ((List.range (s.get tbsPg (tf q F.TBS_TRACK_CTL_BW) + 1)).reverse.find? (fun c => !s.bwOver q c)).getD 0

/-- The offset moves towards a demand by at most SLEW/16 fraction units, within the clamp (R68). -/
def steer (s : State) (q : Nat) (want : Int) : State :=
  let lim : Int := 13107 * 16
  let step : Int := max 1 (s.getEff tbsPg (tf q F.TBS_TRACK_SLEW_SLEW))
  let d := s.trackOf q
  let w := max (-lim) (min lim want)
  let n := max (d.ofs - step) (min (d.ofs + step) w)
  let s := (s.setTrack q { d with ofs := n }).qofsShow q
  if want < -lim ∨ lim < want then (s.put tbsPg (tf q F.TBS_TRACK_STS_STEER_LIMIT) true).rise tbsPg (X.TBS_STEER_LIMIT + q) else s

/-- The phase error of a stamp (R66). -/
def phaseError (per ref : Nat) (v : Nat) : Int :=
  let m := ((v : Int) - ref) % (per : Int)
  if (per : Int) ≤ 2 * m then m - per else m

/-- ACQUIRE is entered: the loop starts from the offset as it stands. -/
def acquire (s : State) (q : Nat) (auto : Bool) : State :=
  let d := s.trackOf q
  (s.setTrack q { d with good := 0, gone := 0, auto := auto, integ := d.ofs }).setTrackState q 1

/-- A sample of a loop in ACQUIRE or LOCKED: a second-order loop, whose demand is an integral of the error and a part in
proportion to it; R67 gives its order and bandwidth, and its gains for the code are constants of Config. A stamp later
than REF calls for a lower offset, since the stamp is taken on the quadrant timeline, which the offset moves (R65, R69). -/
def trackSample (s : State) (q v : Nat) : State :=
  let d := s.trackOf q
  let per := max 1 (s.get tbsPg (tf q F.TBS_TRACK_PER_PER))
  let s := if d.auto then s.set tbsPg (tf q F.TBS_TRACK_REF_REF) (v % per) else s
  let e := phaseError per (s.get tbsPg (tf q F.TBS_TRACK_REF_REF)) v
  let ok := decide (e.natAbs ≤ s.get tbsPg (tf q F.TBS_TRACK_CTL_LOCK_THR))
  let c := s.bwCode q
  let sum := d.integ - Config.loopI c per * e
  let s := s.setTrack q { d with gone := 0, auto := false, good := if ok then d.good + 1 else 0, integ := sum }
  s.steer q (sum - Config.loopP c per * e)

/-- A 64-UI window of quadrant q ends at a multiple of 64 UI of the device timeline, at which no window of q has ended
yet; its sample is the first rising edge that it holds (R66), and the L fields come into force for the next. -/
def trackWindow (s : State) (q : Nat) : State :=
  let w0 := (s.now + 65535) / 65536
  let w := if (s.trackOf q).win = some w0 then w0 + 1 else w0
  let s := s.upTo (w * 65536)
  let st := s.trackState q
  let was := s.getEff tbsPg (tf q F.TBS_TRACK_CTL_EN)
  let en := s.get tbsPg (tf q F.TBS_TRACK_CTL_EN)
  let d := s.trackOf q
  let here := d.edges.filter (fun x => decide ((w - 1) * 65536 ≤ x.1) && decide (x.1 < w * 65536))
  let s := s.setTrack q { d with edges := d.edges.filter (fun x => decide (w * 65536 ≤ x.1)), win := some w }
  let s := if (st = 1 ∨ st = 2) ∧ !s.holdover then
      match here with
      | [] => s.setTrack q { s.trackOf q with gone := (s.trackOf q).gone + 1 }
      | x :: _ => s.trackSample q x.2
    else if st = 4 then s.steer q 0 else s
  let s := s.inForceRange tbsPg (0x140 + 0x20 * q) (0x150 + 0x20 * q)
  if st = 0 then
    if was = 0 ∧ en = 1 then
      (s.put tbsPg (tf q F.TBS_TRACK_STS_BW_CLAMP) (s.bwClamped q)).acquire q (s.flag tbsPg (tf q F.TBS_TRACK_CTL_REF_AUTO))
    else s
  else if en = 0 then (if st = 4 then s else s.setTrackState q 4)
  else if 3 ≤ st ∧ !here.isEmpty then s.acquire q false
  else s

/-- 1,024 consecutive samples within the threshold. -/
def trackLocked (s : State) (q : Nat) : State :=
  if s.trackState q = 1 ∧ 1024 ≤ (s.trackOf q).good then s.setTrackState q 2 else s

/-- LOSS_WIN consecutive windows without an edge: HOLD, or RETURN with LOSS_ACT 1 (R70). -/
def trackLost (s : State) (q : Nat) : State :=
  let st := s.trackState q
  if (st = 1 ∨ st = 2) ∧ !s.holdover ∧ max 1 (s.get tbsPg (tf q F.TBS_TRACK_CTL_LOSS_WIN)) ≤ (s.trackOf q).gone then
    if s.getEff tbsPg (tf q F.TBS_TRACK_CTL_LOSS_ACT) = 1 then s.setTrackState q 4
    else ((s.setTrackState q 3).put tbsPg (tf q F.TBS_TRACK_STS_FWD_LOST) true).rise tbsPg (X.TBS_TRACK_LOST + q)
  else s

/-- A loop in RETURN whose offset is 0 passes to OFF. -/
def trackDone (s : State) (q : Nat) : State :=
  if s.trackState q = 4 ∧ (s.trackOf q).ofs = 0 then s.setTrackState q 0 else s

/-- A write to a quadrant's tracking registers: their S fields are governed by EN; BW codes 9 to 15, and EN with PER
out of range, are refused (R67). -/
def trackWrite (s : State) (ofs : Nat) (v : W32) : State :=
  match findReg tbsPg ofs with
  | none => s
  | some r =>
    let q := (ofs - 0x140) / 0x20
    let ctl := (ofs - 0x140) % 0x20 == 0
    let per := s.get tbsPg (tf q F.TBS_TRACK_PER_PER)
    let en := s.flag tbsPg (tf q F.TBS_TRACK_CTL_EN)
    let badPer := ctl && v.getLsbD 0 && (decide (per < 2048) || decide (6553600 < per))
    let s := (regWrite s tbsPg ofs r v (ctl && (decide (8 < fget v 10 7) || badPer)) en).1
    if badPer then s.set tbsPg F.PG_CFG_ERR_OFS_OFS (0x144 + 0x20 * q) else s

end State

end Sys2Proof.Machine
end

