-- ==== Sys2Proof/Machine/Cal.lean ====
section
/-!
DEFINITION. Calibration: the image and its commit, interpolation, slew, and the flash copies (R371 to R387).
-/
namespace Sys2Proof.Machine

open Sys2Proof

/-! ## The image (R380 to R383) -/

/-- First word of record `r`: channel r, or spare record r - 256. -/
def calBase (r : Nat) : Nat := if r < 256 then 1024 + 128 * r else 33792 + 1024 * (r - 256)

/-- Words of a record. -/
def calLen (r : Nat) : Nat := if r < 256 then 128 else 1024

/-- Temperature i of a record. -/
def calTemp (w : Nat → W32) (i : Nat) : Nat := fget (w (1 + i / 2)) (16 * (i % 2) + 11) (16 * (i % 2))

/-- REASON of the first rule that a record breaks; 0: it meets them. -/
def calReason (w : Nat → W32) (len : Nat) : Nat :=
  let npt := fget (w 0) 3 0
  if (w (len - 1)).toNat ≠ crc32 ((List.range (len - 1)).map w) then 1
  else if npt = 0 ∨ 8 < npt then 2
  else if (List.range (npt - 1)).any (fun i => decide (calTemp w (i + 1) ≤ calTemp w i)) then 3
  else if fget (w 0) 15 8 ≠ 1 then 4
  else 0

/-- The target of a class in 1/256 fraction unit, rounded to the nearest with halves up (R376): `n` points at
temperatures `T` with values `c`, at reading `t`. -/
def interpolate (n : Nat) (T : Nat → Nat) (c : Nat → Int) (t : Nat) : Int :=
  if n = 1 ∨ t ≤ T 0 then 256 * c 0
  else if T (n - 1) ≤ t then 256 * c (n - 1)
  else
    let k := ((List.range (n - 1)).filter (fun i => decide (T i ≤ t))).foldl max 0
    let den : Int := (T (k + 1) : Int) - T k
    256 * c k + (2 * (256 * (c (k + 1) - c k) * ((t : Int) - T k)) + den) / (2 * den)

namespace State

def calPg : Nat := pg T.cal 0

/-- The target of the value in word `8 + step * k + i` of a record at a reading. -/
def calAt (s : State) (r step base i t : Nat) : Int :=
  let w (j : Nat) : W32 := s.calWord (calBase r + j)
  let n := max 1 (min 8 (fget (w 0) 3 0))
  interpolate n (calTemp w) (fun k => toSigned 20 (fget (w (base + step * k + i)) 19 0)) t

/-- A reading lies outside the points of a record. -/
def calOutside (s : State) (r t : Nat) : Bool :=
  let w (j : Nat) : W32 := s.calWord (calBase r + j)
  let n := max 1 (min 8 (fget (w 0) 3 0))
  decide (t < calTemp w 0) || decide (calTemp w (n - 1) < t)

/-- The worst error in a record of the live image. -/
def calEcc (s : State) (r : Nat) : Nat := ((List.range (calLen r)).map (fun i => eccOf s 6 (calBase r + i))).foldl max 0

/-- An eyelet is idle (R379). -/
def calIdle (s : State) (e : Nat) : Bool :=
  (s.groupOf e).isNone && s.get (pg T.dds e) F.DDS_STS_STATE == 0 &&
    (List.range 4).all (fun q => !((s.trackState q == 1 || s.trackState q == 2) &&
      (64 * q + s.get tbsPg (tf q F.TBS_TRACK_CTL_SRC_CH)) / 16 == e))

/-- CAL_STS.SETTLED. -/
def calSync (s : State) : State := s.put calPg F.CAL_STS_SETTLED (decide (s.calF = s.calT))

/-- A target takes a value. -/
def calPut (s : State) (k : Nat) (v : Int) : State := { s with calT := tabPut 0 s.calT k v }

/-- An error of a word that is read: corrected, or the record's targets are held (R383). -/
def calRead (s : State) (r : Nat) (f : State → State) : State :=
  match s.calEcc r with
  | 0 => f s
  | 1 => f (s.rise calPg X.CAL_RAM_CORR)
  | _ => (s.put calPg F.CAL_STS_RAM_UNCORR true).rise calPg X.CAL_RAM_UNCORR

/-- New targets of the channels and the spare of an eyelet at a reading. -/
def calTargets (s : State) (e t : Nat) : State :=
  let s := (List.range 16).foldl (fun s k =>
    let c := 16 * e + k
    s.calRead c (fun s => (List.range 9).foldl (fun s j => s.calPut (16 * c + j) (s.calAt c 9 8 j t)) s)) s
  s.calRead (256 + e) (fun s =>
    let s := (List.range 80).foldl (fun s i => s.calPut (8192 + 128 * e + i) (s.calAt (256 + e) 80 8 i t)) s
    (List.range 17).foldl (fun s i => s.calPut (8192 + 128 * e + 80 + i) (s.calAt (256 + e) 17 648 i t)) s)

/-- In an idle eyelet out of heel every correction takes its target. -/
def calTake (s : State) (e : Nat) : State :=
  if s.calIdle e && !s.eyeHeel e then
    ((s.calF.map (·.1) ++ s.calT.map (·.1)).filter (fun k => calEye k == e)).foldl (fun (s : State) k =>
      let v := tabGet 0 s.calT k
      { s with calF := tabPut 0 s.calF k v, calA := tabPut 0 s.calA k (calRound v) }) s
  else s

/-- The management controller computes the targets of an eyelet after a sample of its sensor (R376, R377, R379). -/
def targetUpdate (s : State) (e : Nat) : State :=
  if s.stage < 3 then s
  else
    let s :=
      if s.flag calPg F.CAL_CTL_HOLD then s
      else
        let w := s.rd (pg T.thm 0) (0x140 + 4 * e)
        if fget w 11 11 = 0 ∨ (s.rd (pg T.thm 0) 0x110).getLsbD e then
          (s.setBitAt calPg 0x110 (16 + e) true).rise calPg X.CAL_SENSOR_HOLD
        else
          let t := fget w 10 0
          let s := (s.setBitAt calPg 0x110 (16 + e) false).calTargets e t
          let out := (List.range 16).any (fun k => s.calOutside (16 * e + k) t)
          let s := s.setBitAt calPg 0x110 e out
          if out then s.rise calPg X.CAL_EXTRAP else s
    (s.calTake e).calSync

/-- A slew period starts (R378). -/
def slewPeriod (s : State) : State :=
  if !s.tlOn then s
  else
  let s := s.upTo ((s.ui / 64000 + 1) * 64000 * 1024)
  let step : Int := (max 1 (s.get calPg F.CAL_SLEW_STEP) : Nat)
  let s := ((s.calF.map (·.1) ++ s.calT.map (·.1)).eraseDups).foldl (fun (s : State) k =>
    if s.eyeHeel (calEye k) then s
    else
      let a := tabGet 0 s.calF k
      let t := tabGet 0 s.calT k
      { s with calF := tabPut 0 s.calF k (if a < t then min t (a + step) else max t (a - step)) }) s
  s.calSync

/-! ## Commit (R383) -/

/-- Word `i` of the shadow image. -/
def calShadow (s : State) (i : Nat) : W32 := tabGet (if s.calSFac then Config.factoryCal i else 0) s.calS i

/-- The shadow image takes a word. -/
def calShadowPut (s : State) (i : Nat) (v : W32) : State :=
  { s with calS := tabPut (if s.calSFac then Config.factoryCal i else 0) s.calS i v, upset := tabErase s.upset (9 * 2 ^ 40 + i) }

/-- The errors of the words of the shadow image go with them to the live image. -/
def calUpsets (s : State) : Tab Nat :=
  let rest := s.upset.filter (fun x => x.1 / 2 ^ 40 != 6)
  (rest.filter (fun x => x.1 / 2 ^ 40 == 9)).foldl (fun m x => tabPut 0 m (6 * 2 ^ 40 + x.1 % 2 ^ 40) x.2) rest

/-- The first bad record of the shadow image, with its REASON. -/
def calBad (s : State) : Option (Nat × Nat) :=
  (List.range 272).findSome? (fun r =>
    let x := calReason (fun i => s.calShadow (calBase r + i)) (calLen r)
    if x = 0 then none else some (r, x))

/-- The shadow image becomes live, or is refused. -/
def calCommit (s : State) : State :=
  let p := calPg
  let s := s.put p F.PG_STS_COMMIT_PEND false
  match s.calBad with
  | some (r, x) => ((s.put p F.CAL_STS_COMMIT_ERR true).set p F.CAL_ERR_REC r).set p F.CAL_ERR_REASON x
  | none =>
    let s := { s with calL := s.calS, calFac := s.calSFac, upset := s.calUpsets }
    (((s.put p F.CAL_STS_USER_OK true).put p F.CAL_STS_COPY_BUSY true)).copyStart p

/-- The factory-default image becomes live, and the shadow image equals it (R21, R403, R404). -/
def calFactory (s : State) : State :=
  ((({ s with calFac := true, calL := [], calSFac := true, calS := [] } : State).upsetClear 6 65536 0).upsetClear 9 65536 0).put calPg
    F.CAL_STS_USER_OK false

/-! ## The window and the flash copies (R384, R385, R477) -/

/-- The word that the window names; beyond the image it names none. -/
def calIdx (s : State) : Nat := s.get calPg F.CAL_WIN_IDX_WORD

def calInc (s : State) : State :=
  if s.flag calPg F.CAL_WIN_IDX_AUTO_INC then s.set calPg F.CAL_WIN_IDX_WORD ((s.calIdx + 1) % 50176) else s

/-- A write to CAL_WIN_DATA; during a copy it is dropped as in R82. -/
def calWinWrite (s : State) (v : W32) : State :=
  let i := s.calIdx
  let s :=
    if s.flag calPg F.CAL_STS_COPY_BUSY || (s.locked calPg && s.calShadow i != v) then s.refuse calPg 0x118
    else if i < 50176 then s.calShadowPut i v
    else s
  s.calInc

/-- A read of CAL_WIN_DATA. The ECC of either copy acts on the word read: what an uncorrectable word reads as the manual does
not say (R383). -/
def calWinRead (s : State) : State × W32 :=
  let i := s.calIdx
  if 50176 ≤ i then (s.calInc, 0)
  else
    let live := s.flag calPg F.CAL_WIN_IDX_LIVE
    let v := if live then s.calWord i else s.calShadow i
    match s.eccOf (if live then 6 else 9) i with
    | 0 => (s.calInc, v)
    | 1 => ((s.rise calPg X.CAL_RAM_CORR).calInc, v)
    | _ =>
      let (f, s) := s.fresh
      (((s.put calPg F.CAL_STS_RAM_UNCORR true).rise calPg X.CAL_RAM_UNCORR).calInc, BitVec.ofNat 32 f)

/-- A save or a load is ignored while a save is in progress. -/
def calIgnored (s : State) : State := (s.put calPg F.CAL_STS_SAVE_ERR true).rise calPg X.CAL_SAVE_ERR

/-- SAVE: the slot that does not hold the newest valid copy is erased and written, but for COMMIT. -/
def calSave (s : State) : State :=
  if s.flag calPg F.CAL_STS_SAVE_BUSY then s.calIgnored
  else
    let newest := s.newestSlot
    let k := if newest = some 0 then 1 else 0
    let seq : W32 := match newest with
      | some n => BitVec.ofNat 32 (s.slotSeq n + 1)
      | none => 1
    let body := (List.range 49152).map (fun i => s.calWord (1024 + i))
    let head : List W32 := [0x43414C31, seq, 0x31000, BitVec.ofNat 32 (crc32 body)] ++ (List.range 4).map (fun i => s.calWord (4 + i))
    let rest := (List.range 1014).map (fun i => s.calWord (9 + i))
    let a := slotAddr k
    let img := head ++ [0xFFFFFFFF] ++ rest ++ [BitVec.ofNat 32 (crc32 (head ++ rest))] ++ body
    let s := s.flashErase a 0x10000
    let s := img.zipIdx.foldl (fun (s : State) (x : W32 × Nat) => s.flashPut (a + x.2) x.1) s
    { s with flash := { s.flash with save := some k } }.put calPg F.CAL_STS_SAVE_BUSY true

/-- A save ends: it writes COMMIT, or, where it has failed, leaves the slot without it and a body nothing fixes. -/
def calSaveDone (s : State) (ok : Bool) : State :=
  match s.flash.save with
  | none => s
  | some k =>
    let a := slotAddr k
    let s := if ok then s.flashPut (a + 8) (~~~(s.flashWord (a + 1)))
      else (s.flashBlur (a + 1024) 49152).calIgnored
    { s with flash := { s.flash with save := none } }.put calPg F.CAL_STS_SAVE_BUSY false

/-- LOAD: the newest valid copy goes to the shadow image. -/
def calLoad (s : State) : State :=
  if s.flag calPg F.CAL_STS_SAVE_BUSY then s.calIgnored
  else match s.newestSlot with
    | none => (s.put calPg F.CAL_STS_LOAD_ERR true).rise calPg X.CAL_LOAD_ERR
    | some k =>
      let s := { s with calSFac := false,
                        calS := (List.range 50176).foldl (fun (m : Tab W32) i => tabPut 0 m i (s.flashWord (slotAddr k + i))) [] }.upsetClear
        9 65536 0
      s.set calPg F.CAL_STS_COPY k

/-- A write to CAL_FLASH_CTL; SAVE comes before LOAD. -/
def calFlashCtl (s : State) (v : W32) : State :=
  let s := if v.getLsbD 0 then s.calSave else s
  if v.getLsbD 1 then s.calLoad else s

/-- A write to CAL_LIN_CTL: CLR clears every count. -/
def calLin (s : State) (v : W32) : State :=
  let s := s.writeReg calPg 0x124 v false
  if v.getLsbD 10 then (List.range 64).foldl (fun s b => s.wr calPg (0x200 + 4 * b) 0) s else s

/-- A write to CAL_SPR_ROUTE: the eyelet is that of CH. -/
def calRoute (s : State) (v : W32) : State :=
  let e := fget v 7 4
  let st := s.get (pg T.spr e) F.SPR_STS_STATE
  s.writeReg calPg 0x120 v (v.getLsbD 8 && ((s.groupOf e).isSome || decide (2 ≤ st)))

end State

end Sys2Proof.Machine
end

