-- ==== Sys2Proof/Machine/Channels.lean ====
section
/-!
DEFINITION. Commands of the channel slices and the spare slices: waveform table accesses, stitches, shadow checking,
mismatch decisions and takeover (R73 to R111).
-/
namespace Sys2Proof.Machine

open Sys2Proof

/-! ## The waveform table (R78 to R83) -/

/-- First broken rule of a waveform record: offending word * 8 + reason; 0: valid. `per`: the period of its timing
set, `w`: its words (R80). -/
def wftReason (per : Nat) (w : Nat → W32) : Nat :=
  let n := fget (w 0) 2 0
  let typ (k : Nat) := fget (w (k + 1)) 31 28
  let ofs (k : Nat) := fget (w (k + 1)) 27 0
  let ks := List.range n
  if 6 < n then 1
  else match ks.find? (fun k => typ k == 0 || decide (11 ≤ typ k)) with
    | some k => (k + 1) * 8 + 2
    | none => match ks.find? (fun k => decide (0 < k) && decide (ofs k < ofs (k - 1) + 2048)) with
      | some k => (k + 1) * 8 + 3
      | none => match ks.find? (fun k => decide (per ≤ ofs k)) with
        | some k => (k + 1) * 8 + 4
        | none =>
          match ks.find? (fun k => typ k == 9 &&
              (match (ks.drop (k + 1)).find? (fun j => typ j == 8 || typ j == 9 || typ j == 10) with
               | some j => typ j != 10
               | none => true)) with
          | some k => (k + 1) * 8 + 5
          | none => 0

namespace State

/-- The word of the waveform table that CHN_WFT_IDX selects. -/
def wftKey (s : State) (c : Nat) : Nat := c * 8192 + fget (s.rd (pg T.chn c) 0x110) 12 0

/-- CHN_WFT_ERR shows the invalid record of the lowest index (R80). -/
def wftErrSync (s : State) (c : Nat) : State :=
  let p := pg T.chn c
  match s.wftBad.find? (fun x => x.1 / 1024 == c) with
  | some (k, v) =>
    (((s.set p F.CHN_WFT_ERR_TSET (k % 1024 / 16)).set p F.CHN_WFT_ERR_WAVE (k % 16)).set p F.CHN_WFT_ERR_WORD (v / 8)).set
      p F.CHN_WFT_ERR_REASON (v % 8)
  | none => s.wr p 0x118 0

/-- A write to CHN_WFT: the shadow word, its record's validity, the index (R80, R82, R445, R477). -/
def wftWrite (s : State) (c : Nat) (v : W32) : State :=
  let p := pg T.chn c
  let key := s.wftKey c
  let s :=
    if s.flag p F.CHN_STS_SHADOW_BUSY || (s.locked p && tabGet 0 s.wftS key != v) then s.refuse p 0x114
    else
      let s := { s with wftS := tabPut 0 s.wftS key v }
      let r := key / 8
      let bad := wftReason (s.tsPer (c / 16) (r % 1024 / 16)) (fun w => tabGet 0 s.wftS (r * 8 + w))
      let s := { s with wftBad := tabPut 0 s.wftBad r bad }
      (if bad = 0 then s else s.put p F.CHN_STS_WFT_ERR true).wftErrSync c
  s.autoInc p F.CHN_WFT_IDX_AUTO_INC 8192

/-- The word that a read of CHN_WFT returns. -/
def wftValue (s : State) (c : Nat) : W32 :=
  tabGet 0 (if s.flag (pg T.chn c) F.CHN_WFT_IDX_LIVE then s.wftL else s.wftS) (s.wftKey c)

/-- A read of CHN_WFT. -/
def wftRead (s : State) (c : Nat) : State × W32 :=
  (s.autoInc (pg T.chn c) F.CHN_WFT_IDX_AUTO_INC 8192, s.wftValue c)

/-! ## The rotation (R99 to R103) -/

/-- Positions of the rotation: the enabled live slices of an eyelet, a pair counting one. -/
def positions (s : State) (e : Nat) : List Nat :=
  (List.range 16).filter (fun k => s.chEnabled (16 * e + k) && !s.absorbed (16 * e + k))

/-- The self-check works on the eyelet: shadow checking runs and the spare is not in heel. -/
def spareRuns (s : State) (e : Nat) : Bool := s.checking e && decide (s.get (pg T.spr e) F.SPR_STS_STATE ≠ 4)

/-- The next dwell begins (R99): on the multiples of 64 UI of the device timeline at first, then each where the one before
it ends, in the device's own time, which a zeroing does not touch. -/
def dwellStart (s : State) (e : Nat) : State :=
  let p := pg T.spr e
  let d := s.sprOf e
  if !s.spareRuns e then s
  else match s.positions e with
    | [] => (((s.setSpr e { d with on := false }).set p F.SPR_STS_NPOS 0).set p F.SPR_DWELL_DWELL 0)
    | lo :: rest =>
      let t := if d.on then d.next else s.era + (s.ui / 64 * 64 + 64) * 1024
      let s := (s.upToMono t).inForce p 0x100
      let k := if d.on then ((lo :: rest).find? (fun k => decide (s.get p F.SPR_STS_POS < k))).getD lo else lo
      let n := (lo :: rest).length
      let s := s.setSpr e { d with on := true, start := t, next := t + 6400000 / n * 1024, checked := false,
                                   thr := s.get p F.SPR_CTL_THR, refThr := s.get p F.SPR_CTL_REF_THR }
      let s := s.setDds e { s.ddsOf e with rises := [] }
      let s := ((s.set p F.SPR_STS_POS k).set p F.SPR_STS_NPOS n).set p F.SPR_DWELL_DWELL (6400000 / n)
      s.set64 p F.SPR_DWELL_T_LO_T F.SPR_DWELL_T_HI_T ((t - s.era) / 1024)

/-- Last pattern stitch of a position, or last clock edge of a clock channel, its quadrant's timeline counted on over the
zeroings (R101, R102). -/
def lastStitch (s : State) (c : Nat) : Nat :=
  if s.mode c = 3 then
    match (s.ddsOf (c / 16)).lastEdge with
    | some l => s.ownT l
    | none => 0
  else ((s.chanOf c).last).getD 0

/-- The eyelet's group, played ahead to a value of its quadrant's timeline: what the pattern already determines. -/
def playAhead (s : State) (e t : Nat) : Nat → State
  | 0 => s
  | n + 1 =>
    match s.groupOf e with
    | some g => if g.st = .running ∧ g.at_ ≤ t then (s.groupVector g).playAhead e t n else s
    | none => s

/-- The clock of an eyelet places an edge up to a value of its quadrant's timeline: the next edge, the start, or the next
hop or an edge after it. -/
def clockSoon (s : State) (e t : Nat) : Bool :=
  let edge (s : State) : Bool := match ddsNextEdge (s.ddsOf e) with
    | some (x, _) => decide (x ≤ t)
    | none => false
  let d := s.ddsOf e
  edge s ||
    (match d.startT with
     | some u => decide (u * 1024 ≤ t) && (let s' := s.ddsBegin e u; (s'.ddsOf e).lastEdge.isSome || edge s')
     | none => false) ||
    (match d.hopAt, d.succ with
     | some h, some i => d.on && !d.stuck && d.segOrd.isNone && decide (h * 1024 ≤ t) &&
         (let s' := s.ddsHop e i h false; (s'.ddsOf e).lastEdge != d.lastEdge || edge s')
     | _, _ => false)

/-- A pattern stitch of a channel, or an edge of its clock, is due at or before a value of its quadrant's timeline: what
is placed already, and what the group's next vectors place (R101, R102). -/
def stitchSoon (s : State) (c t : Nat) : Bool :=
  if s.mode c = 3 then s.clockSoon (c / 16) t
  else
    (s.chanOf c).due.any (fun x => decide (x.typ < 32) && decide (x.t ≤ t)) ||
      (((s.playAhead (c / 16) t 400).chanOf c).last != (s.chanOf c).last)

/-- A quiet position and the spare each place a check stitch, which does not reach the ball (R101). -/
def checkStitch (s : State) (e : Nat) : State :=
  let d := s.sprOf e
  let q := e / 4
  let c := 16 * e + s.get (pg T.spr e) F.SPR_STS_POS
  let t0 := max (s.lastStitch c + 262144) ((d.start : Int) + s.qofs q).toNat
  let t := (if d.checked then max t0 (d.lastChk + 262144) else t0) - s.era
  if s.spareRuns e && d.on && !s.stitchSoon c (max t (s.nowQ q) + 65536) then
    let s := s.upToQ q t
    s.setSpr e { d with lastChk := max (s.ownT t) (s.ownQ q), checked := true }
  else s

/-! ## Mismatch and takeover (R105 to R109) -/

/-- CLEAN_T of a channel advances (R103). -/
def cleanTo (s : State) (c t : Nat) : State := s.setChan c { s.chanOf c with clean := max (s.chanOf c).clean t }

/-- The eyelet parked for heel in the core cycle in progress (R106). -/
def heelNow (s : State) (e : Nat) : Bool :=
  match (s.sprOf e).heelT with
  | some h => decide (s.era ≤ h) && decide ((h - s.era) / 4096 = s.now / 4096)
  | none => false

/-- The pair is one that the self-check awl compares: on a clock channel the first rising edge of a 16-UI window, or a
check stitch (R102). -/
def compared (s : State) (e c t : Nat) : Bool :=
  s.mode c != 3 || (s.ddsOf e).rises.contains t || decide (s.ownT t = (s.sprOf e).lastChk)

/-- The spare is withdrawn (R106). -/
def spareBad (s : State) (e : Nat) (heel : Bool) : State :=
  let p := pg T.spr e
  let s := if heel then s.setSpr e { s.sprOf e with was := 3 } else s.set p F.SPR_STS_STATE 3
  (s.put p F.SPR_STS_SPARE_BAD true).rise p X.SPR_SPARE_BAD

/-- The self-check awl decides on a stamp pair of the position under check: deviations of the live slice and of the
spare from the target, whether either stamp is absent, and the stitch's time. A mismatch in the core cycle in which heel
parks the eyelet is still arbitrated. While a takeover is decided and not yet carried out, a further mismatch changes nothing
(DESIGN CHOICE, log 150); a clean pair still advances CLEAN_T. -/
def mismatch (s : State) (e : Nat) (live spare : Int) (noLive noSpare : Bool) (t : Nat) : State :=
  let p := pg T.spr e
  let d := s.sprOf e
  let c := 16 * e + s.get p F.SPR_STS_POS
  let heel := s.get p F.SPR_STS_STATE == 4
  let st := if heel then d.was else s.get p F.SPR_STS_STATE
  let on := if heel then d.wasOn && s.heelNow e else d.on
  if !s.checking e || !on || !s.compared e c t then s
  else if st = 1 then
    if !noLive && !noSpare && decide ((live - spare).natAbs ≤ d.thr) then (if heel then s else s.cleanTo c t)
    else if d.take.isSome then s
    else
      let s := (s.set p F.SPR_DEV_LIVE_DEV (ofSigned 16 live)).set p F.SPR_DEV_SPARE_DEV (ofSigned 16 spare)
      if noLive || (!noSpare && decide (spare.natAbs ≤ live.natAbs)) then s.setSpr e { d with take := some (c, s.ownQ (e / 4)) }
      else s.spareBad e heel
  else if st = 2 ∨ st = 3 then
    if !noLive && decide (live.natAbs ≤ d.refThr) then (if heel then s else s.cleanTo c t) else s.rise p X.SPR_SECOND_FAULT
  else s

/-- The eyelet places vector boundaries. -/
def placing (s : State) (e : Nat) : Bool :=
  match s.groupOf e with
  | some g => g.st == .running && (g.begun || g.holds != 0)
  | none => false

/-- An eyelet that places no boundary carries a takeover out 32 UI after the decision; one that places them does so at its
own boundaries (R107). -/
def takeover (s : State) (e : Nat) : State :=
  match (s.sprOf e).take with
  | none => s
  | some (_, t) =>
    if s.placing e then s
    else
      let s := s.upToQ (e / 4) (t + 32768 - s.era)
      s.takeOver e (s.nowQ (e / 4))

end State

end Sys2Proof.Machine
end

