-- ==== Sys2Proof/Machine/Eth.lean ====
section
/-!
DEFINITION. The Ethernet ports: rings, stamps, PTP event messages and one-step insertion (R361 to R365). A frame is its
bytes without FCS; whether it arrives sound is the command's to say.
-/
namespace Sys2Proof.Machine

open Sys2Proof

def ethPg (e : Nat) : Nat := pg T.eth e

/-! ## Frames (R363, R365) -/

def byteAt (f : List Byte) (i : Nat) : Nat := (f.getD i 0).toNat

/-- A big-endian number of `n` bytes. -/
def beAt (f : List Byte) (i : Nat) : Nat → Nat
  | 0 => 0
  | n + 1 => beAt f i n * 256 + byteAt f (i + n)

/-- A number put big-endian in `n` bytes. -/
def bePut (f : List Byte) (i v : Nat) : Nat → List Byte
  | 0 => f
  | n + 1 => bePut (f.set (i + n) (BitVec.ofNat 8 v)) i (v / 256) n

/-- Where a PTP message lies in a frame: its offset, the IP version (0: over Ethernet), the UDP header's offset. -/
structure PtpAt where
  ofs : Nat
  ip : Nat
  udp : Nat
  deriving DecidableEq, Repr

/-- The PTP event message of a frame (R363): EtherType 0x88F7 or UDP port 319, at most one VLAN tag, types 0 to 3. -/
def ptpEvent (f : List Byte) : Option PtpAt :=
  let tag := beAt f 12 2 == 0x8100
  let o := if tag then 18 else 14
  let et := beAt f (o - 2) 2
  let u4 := o + byteAt f o % 16 * 4
  let u6 := o + 40
  let at_ : Option PtpAt :=
    if et = 0x88F7 then some ⟨o, 0, 0⟩
    else if et = 0x0800 ∧ byteAt f (o + 9) = 17 ∧ beAt f (u4 + 2) 2 = 319 then some ⟨u4 + 8, 4, u4⟩
    else if et = 0x86DD ∧ byteAt f (o + 6) = 17 ∧ beAt f (u6 + 2) 2 = 319 then some ⟨u6 + 8, 6, u6⟩
    else none
  match at_ with
  | some p => if byteAt f p.ofs % 16 ≤ 3 ∧ p.ofs < f.length then some p else none
  | none => none

/-- Ones-complement sum of 16-bit words. -/
def ocAdd (a b : Nat) : Nat := (a + b) % 65536 + (a + b) / 65536

/-- An incremental checksum update (RFC 1624) for 16-bit words that change. -/
def rfc1624 (hc : Nat) (ch : List (Nat × Nat)) : Nat :=
  65535 - ch.foldl (fun s x => ocAdd (ocAdd s (65535 - x.1)) x.2) (65535 - hc)

/-- The words of the bytes `i` to `i + 2n` of two frames. -/
def changed (f g : List Byte) (i n : Nat) : List (Nat × Nat) :=
  (List.range n).map (fun k => (beAt f (i + 2 * k) 2, beAt g (i + 2 * k) 2))

/-- One-step insertion into a Sync with twoStepFlag 0 (R365): `c` is the egress stamp in 2^-32 ns. -/
def oneStep (f : List Byte) (p : PtpAt) (c : Nat) (zero4 : Bool) : Option (List Byte) :=
  if byteAt f p.ofs % 16 ≠ 0 ∨ (byteAt f (p.ofs + 6)).testBit 1 then none
  else
    let g := bePut (bePut f (p.ofs + 34) (State.ptpSecs c) 6) (p.ofs + 40) (State.ptpNs c) 4
    let g := bePut g (p.ofs + 8) ((beAt f (p.ofs + 8) 8 + State.ptpFrac c / 2 ^ 16) % 2 ^ 64) 8
    if p.ip = 0 then some g
    else if p.ip = 4 ∧ zero4 then some (bePut g (p.udp + 6) 0 2)
    else
      some (bePut g (p.udp + 6) (rfc1624 (beAt f (p.udp + 6) 2) (changed f g (p.ofs + 8) 4 ++ changed f g (p.ofs + 34) 5)) 2)

namespace State

/-! ## Rings (R362) -/

/-- Base, HEAD and size of a ring; `tx`: the transmit ring. -/
def ethBase (s : State) (e : Nat) (tx : Bool) : Nat :=
  if tx then s.get (ethPg e) F.ETH_TXR_BASE_LO_ADDR * 32 + s.get (ethPg e) F.ETH_TXR_BASE_HI_ADDR * 2 ^ 32
  else s.get (ethPg e) F.ETH_RXR_BASE_LO_ADDR * 32 + s.get (ethPg e) F.ETH_RXR_BASE_HI_ADDR * 2 ^ 32

def ethHeadF (tx : Bool) : Fld := if tx then F.ETH_TXR_HEAD_HEAD else F.ETH_RXR_HEAD_HEAD
def ethTailF (tx : Bool) : Fld := if tx then F.ETH_TXR_TAIL_TAIL else F.ETH_RXR_TAIL_TAIL
def ethSizeF (tx : Bool) : Fld := if tx then F.ETH_TXR_SIZE_SIZE16 else F.ETH_RXR_SIZE_SIZE16

/-- The ring holds a descriptor for the device. -/
def ethHas (s : State) (e : Nat) (tx : Bool) : Bool := s.get (ethPg e) (ethHeadF tx) != s.get (ethPg e) (ethTailF tx)

/-- A descriptor is written back, HEAD advances and the ring's vector is signalled (R344, R345). -/
def ethBack (s : State) (e : Nat) (tx : Bool) (ws : List W32) : State :=
  let h := s.get (ethPg e) (ethHeadF tx)
  let s := s.emit (.hostWr (s.ethBase e tx + 32 * h) ws)
  (s.set (ethPg e) (ethHeadF tx) ((h + 1) % max 1 (16 * s.get (ethPg e) (ethSizeF tx)))).msi (4 + 2 * e + b2n (!tx))

/-- The port works: enabled, link up. -/
def ethOn (s : State) (e : Nat) : Bool := s.enabled (ethPg e) && s.flag (ethPg e) F.ETH_STS_LINK

/-- The rings in host memory can be reached: not in D3hot, nor with the PCI Express link down (R346). -/
def ethHost (s : State) : Bool := s.pci.linkUp && !s.pci.d3

end State

/-- Words 4 to 7 of a descriptor: a stamp. -/
def stampWds (c : Nat) : List W32 :=
  [BitVec.ofNat 32 (State.ptpSecs c), BitVec.ofNat 32 (State.ptpSecs c / 2 ^ 32), BitVec.ofNat 32 (State.ptpNs c), BitVec.ofNat 32 (State.ptpFrac c / 2 ^ 16)]

/-- Word 3 of a descriptor written back. -/
def ptpWord (f : List Byte) : W32 :=
  match ptpEvent f with
  | some p => BitVec.ofNat 32 (beAt f (p.ofs + 30) 2 + byteAt f p.ofs % 16 * 2 ^ 16)
  | none => 0

/-- Word 2 of a descriptor written back, OWN 0. -/
def doneWord (len : Nat) (ts one ptp err : Bool) : W32 :=
  BitVec.ofNat 32 (len % 2 ^ 14 + b2n ts * 2 ^ 15 + b2n one * 2 ^ 16 + b2n ptp * 2 ^ 17 + b2n err * 2 ^ 18)

namespace State

/-- Stamp of an event at the MAC now, corrected to the balls (R364). -/
def ethStamp (s : State) (e : Nat) (tx : Bool) : Nat :=
  let p := ethPg e
  let fec := s.flag p F.ETH_CTL_FEC
  let lat := if tx then s.get p (if fec then F.ETH_TS_LAT_FEC_TX_LAT else F.ETH_TS_LAT_TX_LAT)
    else s.get p (if fec then F.ETH_TS_LAT_FEC_RX_LAT else F.ETH_TS_LAT_RX_LAT)
  (if tx then s.ptpNow + lat * 2 ^ 24 else s.ptpNow + ptpMod - lat * 2 ^ 24) % ptpMod

/-- A frame is received: 0 sound, 1 bad FCS, 2 an uncorrectable FEC codeword. `d`: the descriptor at HEAD. -/
def ethRx (s : State) (e : Nat) (f : List Byte) (st : Nat) (d : List W32) : State :=
  let p := ethPg e
  if !s.ethOn e then s
  else if st = 2 ∧ s.flag p F.ETH_CTL_FEC then ((s.put p F.ETH_STS_FEC_UNCORR true).rise p X.ETH_FEC_UNCORR).bump p F.ETH_CNT_FCS 1
  else if st ≠ 0 then s.bump p F.ETH_CNT_FCS 1
  else if !(s.ethHost && s.ethHas e false && (d.getD 2 0).getLsbD 14) then
    ((s.put p F.ETH_STS_RX_DROP true).bump p F.ETH_CNT_DROP 1).rise p X.ETH_RX_DROP
  else
    let size := fget (d.getD 2 0) 13 0
    let addr := (d.getD 0 0).toNat + (d.getD 1 0).toNat * 2 ^ 32
    let s := s.emit (.hostBytes addr (f.take size))
    s.ethBack e false ([d.getD 0 0, d.getD 1 0, doneWord f.length true false (ptpEvent f).isSome (decide (size < f.length)), ptpWord f] ++
      stampWds (s.ethStamp e false))

/-- A descriptor completes with ERR and nothing sent. -/
def ethErr (s : State) (e : Nat) (tx : Bool) (d : List W32) : State :=
  let w := d.getD 2 0
  s.ethBack e tx ([d.getD 0 0, d.getD 1 0, (w &&& ~~~(0x4000 : W32)) ||| 0x40000] ++ (List.range 5).map (fun i => d.getD (i + 3) 0))

/-- The frame of the descriptor at HEAD is sent; `bad`: the read of it was poisoned or failed (R343). -/
def ethTx (s : State) (e : Nat) (f : List Byte) (d : List W32) (bad : Bool) : State :=
  if !(s.ethOn e && s.ethHost && s.ethHas e true && (d.getD 2 0).getLsbD 14) then s
  else if bad then s.ethErr e true d
  else
    let w := d.getD 2 0
    let f := f.take (fget w 13 0)
    let ts := w.getLsbD 15
    let one := w.getLsbD 16
    let c := s.ethStamp e true
    let ins := match ptpEvent f with
      | some p => if one then oneStep f p c (s.flag (ethPg e) F.ETH_CTL_UDP4_ZERO) else none
      | none => none
    let s := s.emit (.eth e (ins.getD f ++ List.replicate (60 - f.length) 0))
    s.ethBack e true ([d.getD 0 0, d.getD 1 0, doneWord (fget w 13 0) ts one (ptpEvent f).isSome (one && ins.isNone), ptpWord f] ++
      (if ts then stampWds c else (List.range 4).map (fun i => d.getD (i + 4) 0)))

/-- A device read times out (R344). -/
def cplTmo (s : State) (e : Nat) (tx : Bool) (d : List W32) : State :=
  let s := (s.put (pg T.pci 0) F.PCI_STS_CPL_TMO true).rise (pg T.pci 0) X.PCI_CPL_TMO
  if s.ethHas e tx then s.ethErr e tx d else s

end State

end Sys2Proof.Machine
end

