-- ==== Sys2Proof/Machine/Pcie.lean ====
section
/-!
DEFINITION. The PCI Express endpoint: BAR2, configuration requests, link and power states (R336 to R346, R407, R449).
-/
namespace Sys2Proof.Machine

open Sys2Proof

def pciPg : Nat := pg T.pci 0

namespace State

/-! ## BAR2 (R340, R341, R449) -/

/-- BAR2 is served. -/
def bar2On (s : State) : Bool :=
  decide (3 ≤ s.stage) && s.enabled (memPg 0) && s.enabled (memPg 1) && !s.flag (pg T.flt 0) F.FLT_STS_DEV_HEEL

/-- The logical address of an aperture offset. -/
def bar2Addr (s : State) (o : Nat) : Nat := s.get pciPg F.PCI_APT_BASE_BASE * 2 ^ 28 + o

/-- A host read of `n` words through BAR2. -/
def bar2Read (s : State) (o n : Nat) : State :=
  if !s.bar2On then s.emit (.cpl (List.replicate n 0) true)
  else
    let a := s.bar2Addr (o / 4 * 4)
    let bad := (List.range n).any (fun i => s.rdPoison (a + 4 * i))
    let s' := (List.range n).foldl (fun (t : State) i => t.hbmTouch (a + 4 * i)) s
    s'.emit (.cpl (s.hbmWords a n) bad)

/-- The enabled bytes of a write within one 32-byte access (R318, R340). -/
def bar2Access (s : State) (a : Nat) (bs : List (Nat × Byte)) (ep : Bool) : State :=
  if bs.isEmpty then s
  else if s.aliased a then s.alias_ a
  else if hbmSize ≤ a then s
  else
    let was := s.accPoison a
    let s := if bs.length < 32 then s.rmwRead a else s
    let s := bs.foldl (fun (s : State) b => s.hbmPutByte b.1 b.2) s
    s.hbmSetPoison a (ep || (was && decide (bs.length < 32)))

/-- A host write through BAR2: the bytes from an offset on, none where the byte enable is off. -/
def bar2Write (s : State) (o : Nat) (bs : List (Option Byte)) (ep : Bool) : State :=
  let s := if ep then s.poisonRx else s
  if !s.bar2On then s
  else
    let a := s.bar2Addr o
    let xs := (bs.zipIdx).filterMap (fun x => x.1.map (fun b => (a + x.2, b)))
    (List.range (bs.length / 32 + 2)).foldl (fun s i =>
      let k := a / 32 + i
      s.bar2Access (32 * k) (xs.filter (fun x => x.1 / 32 == k)) ep) s

/-- A write to PCI_APT_BASE. -/
def aptWrite (s : State) (v : W32) : State := s.writeReg pciPg 0x10C v (decide (112 < fget v 6 0))

/-! ## Configuration requests (R337, R338, R407) -/

/-- Writable bits and fixed bits of a configuration dword: command, BAR0 to BAR5. -/
def cfgMask (i : Nat) : W32 :=
  if i = 1 then 0xFFFF else if i = 4 then 0xFC000000 else if i = 5 ∨ i = 7 ∨ i = 9 then 0xFFFFFFFF
  else if i = 8 then 0xFF000000 else 0
def cfgFixed (i : Nat) : W32 := if i = 4 then 0x4 else if i = 6 ∨ i = 8 then 0xC else 0

/-- A configuration dword. -/
def cfgRead (s : State) (i : Nat) : W32 :=
  if i = 0 then BitVec.ofNat 32 (Config.vendorId.toNat + 0x256 * 2 ^ 16)
  else if i = 2 then BitVec.ofNat 32 (0x11800000 + Config.dieRev.toNat)
  else if i = 11 then tabGet 0 s.pci.cfg 11
  else if 4 ≤ i ∧ i ≤ 9 then tabGet 0 s.pci.cfg i ||| cfgFixed i
  else if i = 1 then (Config.cfgWord 1 &&& 0xFFFF0000) ||| tabGet 0 s.pci.cfg 1
  else Config.cfgWord i

/-- A configuration request: Configuration Request Retry Status before stage 1, no answer while PERST_N or RESET_N is low. -/
def cfgRequest (s : State) (i : Nat) (w : Option W32) : State :=
  if s.pci.perstLow || s.boot.held then s
  else if s.stage = 0 then s.emit .crs
  else match w with
    | none => s.emit (.cpl [s.cfgRead i] false)
    | some v =>
      let m := cfgMask i
      { s with pci := { s.pci with cfg := tabPut 0 s.pci.cfg i ((tabGet 0 s.pci.cfg i &&& ~~~m) ||| (v &&& m)) } }.emit (.cpl [] false)

/-! ## Link and power states (R346, R370) -/

/-- The link is up at a speed and width; while PERST_N or RESET_N is low it does not train. -/
def pciUp (s : State) (speed width : Nat) : State :=
  if s.pci.perstLow || s.boot.held then s
  else
  let s := ((s.set pciPg F.PCI_LINK_SPEED speed).set pciPg F.PCI_LINK_WIDTH width).set pciPg F.PCI_LINK_PSTATE 0
  { s with pci := { s.pci with linkUp := true } }.msiFlush

/-- The link has left L0 and L1. -/
def pciDown (s : State) : State :=
  let s := (s.set pciPg F.PCI_LINK_SPEED 0).set pciPg F.PCI_LINK_WIDTH 0
  { s with pci := { s.pci with linkUp := false } }.rise pciPg X.PCI_LINK_DOWN

def d3Entry (s : State) : State := { s.set pciPg F.PCI_LINK_PSTATE 2 with pci := { s.pci with d3 := true } }
def d0Return (s : State) : State :=
  if s.pci.d3 then ({ s.set pciPg F.PCI_LINK_PSTATE 0 with pci := { s.pci with d3 := false } } : State).msiFlush else s

end State

end Sys2Proof.Machine
end

