-- ==== Sys2Proof/Machine/Sequencer.lean ====
section
/-!
DEFINITION. Commands of the segment table and the sequencers (R136 to R166).
-/
namespace Sys2Proof.Machine

open Sys2Proof

namespace State

/-- A write to EYE_SEQ_CTL (R154, R158, R160 to R162). A command on a follower's page is dropped under R19: the write is
refused, and every RW field of the register keeps its value. -/
def seqCtl (s : State) (e : Nat) (v : W32) : State :=
  let p := eyePg e
  let drop := fget v 2 0 ≠ 0 && s.flag p F.EYE_SEQ_STS_FOLLOWER
  let s := s.writeReg p 0x100 v drop
  if fget v 2 0 = 0 || drop then s
  else
    let both := v.getLsbD 0 && (v.getLsbD 1 || v.getLsbD 2)
    let s := if v.getLsbD 2 then s.abortSeq e else if v.getLsbD 1 then s.stopSeq e else s
    if v.getLsbD 0 then (s.goSeq e both []).1 else s

/-- A write to EYE_SEQ_FLAG: SWFLAG events of the eyelet's sequencer (R148). -/
def seqFlag (s : State) (e : Nat) (v : W32) : State :=
  match s.groupOf e with
  | none => s
  | some g => s.setGroup (s.latchIn g 0x9 v.toNat)

/-- A write of EYE_SYNC_AT_HI (R163). -/
def syncWrite (s : State) (e : Nat) (v : W32) : State :=
  let p := eyePg e
  let (s, ok) := writeAt s p 0x120 v false
  let s := s.idleForce p
  if ok then s.syncArm e (s.get64 p F.EYE_SYNC_AT_LO_AT_L F.EYE_SYNC_AT_HI_AT_H) else s

/-- A write of EYE_COND_ARGp: its set's latches are cleared at the next decision point (R149). -/
def condArgWrite (s : State) (e k : Nat) (v : W32) : State :=
  let p := eyePg e
  let (s, ok) := writeAt s p (0x130 + 4 * k) v false
  let s := s.idleForce p
  match s.groupOf e with
  | some g =>
    if ok && g.leader == e && !(s.eyeOf e).argNew.contains k then
      s.setEye e { s.eyeOf e with argNew := (s.eyeOf e).argNew ++ [k] }
    else s
  | none => s

end State

end Sys2Proof.Machine
end

