-- ==== Sys2Proof/Machine/Sched.lean ====
section
/-!
DEFINITION. The scheduler: acceptance of tickets, dispatch, the actions of the ticket types but WRITE, re-runs, core
faults, EVT inputs, the event queue's ring and the trace ring (R286 to R308).
-/
namespace Sys2Proof.Machine

open Sys2Proof

def schPg : Nat := pg T.sch 0
def evqPg : Nat := pg T.evq 0

/-! ## Acceptance (R289, R292) -/

/-- Words `a` to `b` of a ticket are 0. -/
def zeroWords (k : Ticket) (a b : Nat) : Bool := (List.range (b + 1 - a)).all (fun i => k.word (a + i) == 0)

/-- A BAR0 offset that a WRITE ticket may not name. -/
def writeBad (o : Nat) : Bool :=
  o % 4 != 0 || [T.sch, T.lst, T.evq, T.sec].contains (o / 4096 / 256)

/-- A fault of the descriptor (R289). -/
def descBad (k : Ticket) : Bool :=
  fget (k.word 0) 31 21 != 0 || fget (k.word 1) 15 13 != 0 || fget (k.word 1) 31 29 != 0 || fget (k.word 3) 31 16 != 0 ||
  (match k.typ with
   | 1 => !((fget (k.word 4) 15 0).testBit (fget (k.word 4) 19 16)) || fget (k.word 5) 31 17 != 0 || !zeroWords k 8 15
   | 2 => fget (k.word 4) 31 6 != 0 || fget (k.word 5) 19 4 == 0 || k.wide 8 % 16 != 0 || fget (k.word 9) 31 3 != 0 ||
          !zeroWords k 10 15
   | 3 => fget (k.word 4) 31 2 != 0 || k.wide 5 % 64 != 0 || fget (k.word 6) 31 3 != 0 || !zeroWords k 7 15
   | 4 => fget (k.word 4) 31 3 != 0 || fget (k.word 4) 2 0 == 0 || decide (5 < fget (k.word 4) 2 0) || k.word 15 != 0 ||
          (List.range (fget (k.word 4) 2 0)).any (fun i => writeBad (k.word (5 + 2 * i)).toNat)
   | 5 => !zeroWords k 6 15
   | 6 => !k.sited || fget (k.word 4) 31 26 != 0 || fget (k.word 5) 31 8 != 0 || !zeroWords k 7 15
   | _ => true)

namespace State

/-- The lowest window slot not in use. -/
def freeSlot (s : State) : Nat :=
  ((List.range 1024).find? (fun i => !s.sch.tickets.any (fun k => k.slot == i) && !s.sch.unacked.contains i)).getD 0

/-- C of R426 while the device is in heel state or a power failure is recognised. -/
def causeStatus (s : State) : Option Nat :=
  let w := s.rd (pg T.flt 0) 0x100
  if w.getLsbD 1 then some 0x35
  else if !w.getLsbD 0 then none
  else if w.getLsbD 11 then some 0x35
  else if w.getLsbD 9 || w.getLsbD 10 then some 0x34
  else some 0x14

/-- A POST with its site's bin, flags and payload (R290, R307); `err`: it does not complete with OK. -/
def posted (s : State) (k : Ticket) (err : Bool) : Ticket :=
  let i := k.site
  let w := k.word 4
  let r := s.siteOf i
  { k with
    flags := k.flags ||| s.siteFlags i,
    bin := if err || s.siteStatus i != 0 then fget w 23 16 else if s.siteFailed i then fget w 15 8 else fget w 7 0,
    pay5 := BitVec.ofNat 32 r.cnt, pay6 := lo32 r.firstFail,
    pay7 := if w.getLsbD 25 then r.sum0 else k.word 6 }

/-- A cause of R426 settles a ticket with status C; the gate is waived. A ticket that is complete and held only for
order keeps its status. -/
def endTicket (s : State) (slot c : Nat) : State :=
  match s.ticketAt slot with
  | none => s
  | some k =>
    if k.isComplete then
      if !k.rerun && s.gateMet k then s
      else
        let s := s.modTicket slot (fun k => { k with
          rerun := false, noGate := true, status := c, siteSt := k.siteSt.map (fun x => (x.1, c)),
          flags := if k.rerun then k.flags ||| 8 else k.flags, signalled := true })
        let s := if k.isPost then s else k.serves.foldl (fun s i => s.siteAdd i k.age c k.flags) s
        if k.sigEn && !k.signalled then s.ctrDown k.sigCtr else s
    else
      let s := s.modTicket slot (fun k =>
        let k := if k.isPost then s.posted k true else k
        { k with noGate := true, rerun := false, flags := if k.rerun then k.flags ||| 8 else k.flags })
      s.completeTicket slot c 0

/-- A ticket is submitted: the words of SCH_SUBMIT as they stand, word 15 last (R292). -/
def submit (s : State) (v : W32) : State :=
  let s := { s with sch := { s.sch with submit := tabPut 0 s.sch.submit 15 v } }
  if 1024 ≤ s.inflight then (s.put schPg F.SCH_STS_SUBMIT_OVF true).rise schPg X.SCH_SUBMIT_OVF
  else
    let k : Ticket := { words := (List.range 16).map (fun i => tabGet 0 s.sch.submit i), slot := s.freeSlot, age := s.sch.nextAge }
    let bad := descBad k
    let ready := !k.waitEn || s.ctr k.waitCtr == 0
    let k := { k with phase := if bad then .complete else if ready then .ready else .waiting, readyAt := s.mono,
                      status := if bad then 0x32 else 0, signalled := bad }
    let s := { s with sch := { s.sch with tickets := s.sch.tickets ++ [k], nextAge := s.sch.nextAge + 1 } }.schSync
    let s := s.traceEv 1 0 k
    if !bad && s.causeStatus.isSome then s.endTicket k.slot (s.causeStatus.getD 0)
    else if bad then
      let s := (s.put schPg F.SCH_STS_DESC_ERR true).rise schPg X.SCH_DESC_ERR
      let s := if k.sited && !k.isPost then s.siteAdd k.site k.age 0x32 0 else s
      let s := s.traceEv 5 0 k
      if k.sigEn then s.ctrDown k.sigCtr else s
    else if ready then s.traceEv 2 0 k else s

/-! ## Dispatch (R295 to R297) -/

/-- The rank of a type in the dispatch order. -/
def typeRank (t : Nat) : Nat := if t = 6 then 0 else if t = 5 then 1 else if t = 1 then 2 else if t = 2 then 3 else if t = 4 then 4 else 5

/-- Ready tickets in the order in which the scheduler dispatches them. -/
def readyList (s : State) : List Ticket :=
  (s.sch.tickets.filter (fun k => k.phase == .ready)).mergeSort (fun a b =>
    decide (typeRank a.typ < typeRank b.typ ∨ (typeRank a.typ = typeRank b.typ ∧ a.age ≤ b.age)))

/-- A core may take tickets of this kind (R295). -/
def coreServes (s : State) (n : Nat) (k : Ticket) : Bool :=
  s.coreState n != 3 && (k.isPost || decide (n < 32 - min 16 (s.get schPg F.SCH_MODE_POST_RES)))

/-- A core is free now: idle in prefetch mode, asking in ask-and-block mode. -/
def coreIdle (s : State) (n : Nat) : Bool := if s.askMode then s.coreState n == 2 else s.coreState n == 0 || s.coreState n == 2

/-- A busy core has its prefetch slot free. -/
def coreRoom (s : State) (n : Nat) : Bool := !s.askMode && s.coreState n == 1 && !s.flag (lst n) F.LST_STS_SLOT_FULL

/-- The core can take the ticket. -/
def coreCan (s : State) (n : Nat) (k : Ticket) : Bool := s.coreServes n k && (s.coreIdle n || s.coreRoom n)

/-- The core that the ticket prefers: it last ran a ticket with the same key, and it may take this one. -/
def affCore (s : State) (k : Ticket) : Option Nat :=
  match tabGet 0 s.sch.aff k.affKey with
  | 0 => none
  | n + 1 => if s.coreServes n k then some n else none

/-- The lowest-numbered core that can take the ticket, an idle one before a busy one. -/
def anyCore (s : State) (k : Ticket) : Option Nat :=
  match (List.range 32).find? (fun n => s.coreServes n k && s.coreIdle n) with
  | some n => some n
  | none => (List.range 32).find? (fun n => s.coreServes n k && s.coreRoom n)

/-- The core that R295 chooses for a ticket now; `late`: its affinity wait has expired. -/
def chooseCore (s : State) (k : Ticket) (late : Bool) : Option Nat :=
  match s.affCore k with
  | some n => if s.coreCan n k then some n else if late then s.anyCore k else none
  | none => s.anyCore k

/-- A ticket goes to a core: it runs there, or waits in the slot. -/
def place (s : State) (k : Ticket) (n : Nat) : State :=
  let s := s.traceEv 3 n k
  if s.coreIdle n then s.coreTake n k
  else (s.modTicket k.slot (fun k => { k with phase := .slot n })).put (lst n) F.LST_STS_SLOT_FULL true

/-- One dispatch decision: the first ready ticket that has a core. -/
def dispatch (s : State) : State :=
  match s.readyList.findSome? (fun k => (s.chooseCore k (k.late || k.retries != 0)).map (fun n => (k, n))) with
  | some (k, n) => s.place k n
  | none => s

/-- The affinity wait of a ready ticket expires. -/
def affExpire (s : State) (slot : Nat) : State :=
  match s.ticketAt slot with
  | none => s
  | some k =>
    if k.phase = .ready then
      let s := (s.upToMono (k.readyAt + s.get schPg F.SCH_MODE_AFF_WAIT * 4096)).modTicket slot (fun k => { k with late := true })
      match s.chooseCore k true with
      | some n => s.place k n
      | none => s
    else s

/-- DISPATCH has changed to 1: tickets in slots return to the ready list. -/
def dispatchSwitch (s : State) : State :=
  if !s.askMode then s
  else
    let s := { s with sch := { s.sch with tickets := s.sch.tickets.map (fun k =>
      match k.phase with
      | .slot _ => { k with phase := .ready }
      | _ => k) } }
    (List.range 32).foldl (fun s n =>
      let s := if s.flag (lst n) F.LST_STS_SLOT_FULL then s.put (lst n) F.LST_STS_SLOT_FULL false else s
      if s.coreState n = 0 then s.set (lst n) F.LST_STS_STATE 2 else s) s

/-- A write to SCH_MODE: on a change of DISPATCH to 0 the cores that ask become idle. -/
def modeWrite (s : State) (v : W32) : State :=
  let s := s.writeReg schPg 0x100 v (decide (16 < fget v 8 4))
  if s.askMode then s
  else (List.range 32).foldl (fun s n => if s.coreState n = 2 then s.set (lst n) F.LST_STS_STATE 0 else s) s

/-! ## Ticket actions (R288, R290) -/

/-- The ticket runs on a core and has not begun. -/
def ticketNew (s : State) (slot typ : Nat) : Option Ticket :=
  match s.ticketAt slot with
  | some k => if k.core.isSome && !k.begun && k.typ == typ then some k else none
  | none => none

/-- The ticket's action is under way. -/
def begin_ (s : State) (slot : Nat) : State := s.modTicket slot (fun k => { k with begun := true })

/-- The ticket's action is finished, with a status and flags. -/
def finish (s : State) (slot st fl : Nat) : State :=
  s.modOpen slot (fun k => { k with fin := true, status := if k.status = 0 then st else k.status, flags := k.flags ||| fl })

/-- Eyelets of a BURST. -/
def burstEyes (k : Ticket) : List Nat := (List.range 16).filter (fget (k.word 4) 15 0).testBit

/-- The register writes of a BURST (R288); `again`: it runs again and starts as early as it can (R301). -/
def burstSetup (s : State) (k : Ticket) (again : Bool) : State :=
  let w := k.word 4
  let l := fget w 19 16
  let p := eyePg l
  let s := (burstEyes k).foldl (fun s e => s.writeReg (eyePg e) 0x150 (BitVec.ofNat 32 (l + 16)) false) s
  let s := s.writeReg p 0x110 (BitVec.ofNat 32 (fget (k.word 5) 16 0)) false
  let mode := w.getLsbD 20 && !again
  let t := if (k.wide 6 = 0 ∨ again) ∧ !mode then (s.ui + 12800) / 256 * 256 + 256 else k.wide 6
  let s := (s.writeReg p 0x114 (BitVec.ofNat 32 t) false).writeReg p 0x118 (BitVec.ofNat 32 (t / 2 ^ 32)) false
  let c := s.rd p 0x100
  let c := fset (fset (fset c 4 4 (b2n mode)) 12 5 (fget w 28 21)) 15 13 (fget w 31 29)
  s.writeReg p 0x100 c false

/-- BURST: the core binds the eyelets and starts the group. -/
def burst (s : State) (slot : Nat) : State :=
  match s.ticketNew slot 1 with
  | none => s
  | some k =>
    let s := s.burstSetup k k.ranAgain
    let l := fget (k.word 4) 19 16
    let served := s.sitesOf (burstEyes k)
    let s := s.modTicket slot (fun k => { k with served := served, siteSt := served.map (fun i => (i, 0)) })
    let (s, r) := s.goSeq l false [slot]
    if k.ranAgain ∧ (r = 2 ∨ r = 9) then s
    else
      let s := s.begin_ slot
      if r = 0 then s.modTicket slot (fun k => { k with goIssued := true })
      else (s.burstStatus slot (reasonStatus r) (fun _ => true)).finish slot (if served = [] then reasonStatus r else 0) 0

/-- MEASURE: the unit is armed with the images; its results are copied as they enter. -/
def measure (s : State) (slot : Nat) : State :=
  match s.ticketNew slot 2 with
  | none => s
  | some k =>
    let i := fget (k.word 4) 5 0
    let p := pg T.tdc (i / 4)
    let o := 0x400 + 0x40 * (i % 4)
    let s := s.writeReg p o (k.word 5 &&& ~~~3) false
    let s := (s.writeReg p (o + 4) (k.word 6) false).writeReg p (o + 8) (k.word 7) false
    let (s, ok) := s.iuArm i (some (slot, k.wide 8))
    let s := s.begin_ slot
    if ok then s.modTicket slot (fun k => { k with expStart := some ((s.iuOf i).ta / 1024) }) else s.finish slot 0x18 0

/-- ANALYZE: the descriptor joins the engine's queue; the core waits while it is full. -/
def analyze (s : State) (slot : Nat) : State :=
  match s.ticketNew slot 3 with
  | none => s
  | some k =>
    let q := fget (k.word 4) 1 0
    if 8 ≤ (s.aneOf q).jobq.length then s
    else
      let s := s.hbmTouch (k.wide 5)
      (s.jobPut q (s.hbmWords (k.wide 5) 16) (some slot)).begin_ slot

/-- WAIT: LATE where AT has already passed. -/
def waitTicket (s : State) (slot : Nat) : State :=
  match s.ticketNew slot 5 with
  | none => s
  | some k => if k.wide 4 < s.ui then (s.begin_ slot).finish slot 0 2 else s.begin_ slot

/-- The timeline reaches the AT of a WAIT ticket. -/
def waitReached (s : State) (slot : Nat) : State :=
  match s.ticketAt slot with
  | none => s
  | some k => if k.typ = 5 ∧ k.begun ∧ k.core.isSome then (s.upTo (k.wide 4 * 1024)).finish slot 0 0 else s

/-- POST: the site's bin and payload (R290, R307). -/
def post (s : State) (slot : Nat) : State :=
  match s.ticketNew slot 6 with
  | none => s
  | some k => ((s.begin_ slot).modTicket slot (fun _ => { s.posted k false with begun := true })).finish slot 0 0

/-- Results of a MEASURE ticket that were poisoned in the unit's buffer, by bit: their copies carry POISON, and the status
is MEAS_POISON (R221, R291). -/
def measPoison (s : State) (k : Ticket) (bad : Nat) : State :=
  let i := fget (k.word 4) 5 0
  (List.range (s.iuOf i).seq).foldl (fun s j =>
    if bad.testBit j then
      let a := k.wide 8 + 16 * j + 4
      let s := s.hbmPutWords a [(s.hbmWords a 1).getD 0 0 ||| 0x8000]
      (s.rise (pg T.tdc (i / 4)) X.TDC_IU_POISON).finish k.slot 0x15 0
    else s) s

/-- A ticket completes; `bad`: results of a MEASURE that were poisoned in the queue (R288, R298): a BURST once the summaries of its sites are final and its fail logs are done. -/
def ticketComplete (s : State) (slot bad : Nat) : State :=
  match s.ticketAt slot with
  | none => s
  | some k =>
    let logs := (burstEyes k).all (fun e => s.flag (pg T.cmp e) F.CMP_STS_LOG_DONE)
    let final := k.served.all (fun i => (s.siteOf i).final)
    if k.core.isSome && k.begun && k.fin && (!k.isBurst || k.expStart.isNone || (logs && final)) then
      let s := if k.typ = 2 then s.measPoison k bad else s
      let lost := k.typ == 2 && s.flag (pg T.tdc (fget (k.word 4) 5 0 / 4)) (iuFld F.TDC_IU_STS_OVF (fget (k.word 4) 5 0 % 4))
      s.completeTicket slot (if lost then 0x16 else 0) 0
    else s

/-- What a ticket has set going elsewhere ends: its unit is disarmed, its job leaves the engine. -/
def callBack (s : State) (slot : Nat) : State :=
  let s := (List.range 64).foldl (fun s i =>
    if (match (s.iuOf i).owner with | some o => o.1 == slot | none => false) then s.iuDisarm i else s) s
  (List.range 4).foldl (fun s q =>
    let d := s.aneOf q
    let s := (s.setAne q { d with jobq := d.jobq.filter (fun j => j.2 != some slot) }).aneSync q
    if (match d.job with | some j => j.2 == some slot | none => false) then s.aneEnd q 5 else s) s

/-- A ticket runs past its LIMIT (R291). -/
def ticketTimeout (s : State) (slot : Nat) : State :=
  match s.ticketAt slot with
  | none => s
  | some k =>
    if k.core.isSome && !k.fin && k.limit != 0 then
      let s := (s.upToMono (k.beginT + k.limit * 6400 * 1024)).begin_ slot
      if k.isBurst then
        let s := s.burstStatus slot 0x30 (fun _ => true)
        match s.groups.find? (fun g => g.slots.contains slot) with
        | some g => s.abortSeq g.leader
        | none => s.finish slot 0x30 0
      else (s.finish slot 0x30 0).callBack slot
    else s

/-- A ticket is released where its turn has come and the gate is met (R299, R300). -/
def release (s : State) (slot : Nat) : State :=
  match s.ticketAt slot with
  | none => s
  | some k => if k.isComplete && !k.rerun && s.releaseTurn k && s.gateMet k then s.releaseTicket k else s

/-! ## Re-runs (R301, R302) -/

/-- Two intervals of UI overlap. -/
def overlaps (a : Nat) (b : Option Nat) (ws we : Nat) : Bool :=
  decide (a < we) && (match b with | some e => decide (ws < e) | none => true)

/-- The oldest re-run record from a takeover. -/
def rerunRecord (s : State) : State :=
  match s.sch.reruns with
  | [] => s
  | (_, site, ws, we) :: r =>
    let s := { s with sch := { s.sch with reruns := r } }
    let a := s.sch.tickets.filter (fun k => k.serves.contains site &&
      (match k.expStart with | some x => overlaps x k.expEnd ws we | none => false))
    let b := s.sch.tickets.filter (fun k => k.serves.contains site && k.started &&
      a.any (fun j => j.flow == k.flow && decide (j.age < k.age)))
    let sel := (a ++ b).map (·.slot)
    let s : State := { s with sch := { s.sch with tickets := s.sch.tickets.map (fun (k : Ticket) => if sel.contains k.slot then { k with rerun := true } else k) } }
    let lost := s.sch.released.filter (fun (x : Nat × List Nat × Nat × Nat) => x.2.1.contains site && overlaps x.2.2.1 (some x.2.2.2) ws we)
    let s := lost.foldl (fun (s : State) (x : Nat × List Nat × Nat × Nat) =>
      let e := s.evWords 1 0x21 (lo32 ws) (lo32 we) 0
      s.evPush (e.set 0 (BitVec.ofNat 32 (1 + 0x21 * 4 + site * 2 ^ 8 + x.1 * 2 ^ 16))) none) s
    s.rerunNext

/-! ## Core faults (R303) -/

/-- A ticket hit by a fault of core `n` goes to another core, or completes with CORE_FAULT. One that is selected to run
again makes that run in place of the restart. -/
def coreLost (n : Nat) (s : State) (k : Ticket) : State :=
  let s := s.traceEv 8 n k
  let again := k.isBurst && k.goIssued
  let r := k.retries + 1
  if s.get schPg F.SCH_MODE_RETRY < r then
    ((s.modTicket k.slot (fun k => { k with phase := .ready, rerun := false })).callBack k.slot).completeTicket k.slot 0x31 0
  else if k.rerun && !again then
    ((s.callBack k.slot).modTicket k.slot (fun k => { k with phase := .complete, retries := r })).rerunNext
  else
    let s := if again then s else s.callBack k.slot
    let s := s.modTicket k.slot (fun k => { k with
      phase := .ready, readyAt := s.mono, retries := r, started := again, begun := again, fin := again && k.fin,
      status := if again then k.status else 0, flags := if again || k.ranAgain then k.flags else 0,
      expStart := if again then k.expStart else none, expEnd := if again then k.expEnd else none })
    match s.ticketAt k.slot with
    | none => s
    | some k =>
      match s.chooseCore k true with
      | some c => s.place k c
      | none => s

/-- A last core leaves service. -/
def coreFail (s : State) (n : Nat) : State :=
  if s.coreState n = 3 then s
  else
    let hit := s.sch.tickets.filter (fun k => k.core == some n || k.slotCore == some n)
    let s := ((s.set (lst n) F.LST_STS_STATE 3).put (lst n) F.LST_STS_SLOT_FULL false).bump (lst n) F.LST_CNT_FAULT_FAULTS 1
    let s := s.rise (lst n) X.LST_LST_FAULT
    let s := hit.foldl (coreLost n) s
    if (List.range 32).all (fun c => s.coreState c == 3) then
      (s.put schPg F.SCH_STS_NO_CORE true).rise schPg X.SCH_NO_CORE
    else s

/-! ## Dependence counters and EVT pins (R293, R294) -/

/-- A write to SCH_CTR_VAL. -/
def ctrSet (s : State) (v : W32) : State :=
  let (s, ok) := writeAt s schPg 0x114 v false
  if ok then s.ctrPut (s.get schPg F.SCH_CTR_IDX_IDX) (fget v 15 0) else s

/-- An edge on an EVT pin. -/
def evtEdge (s : State) (n : Nat) (rising : Bool) : State :=
  let s := { s with evtIn := if rising then setBit s.evtIn n else clearBit s.evtIn n }
  if s.evtIsOut n || rising == s.flag schPg (F.SCH_EVT_CTL_EDGE.off (4 * n)) then s
  else
    let s := if s.flag schPg (F.SCH_EVT_CTL_CTR_EN.off (4 * n)) then s.ctrDown (s.get schPg (F.SCH_EVT_CTL_CTR.off (4 * n))) else s
    (s.seqEvent 0x7 n).trgInput (fun i d => { d with evt := d.evt ++ [(i, n)] })

/-- A write to SCH_EVT_CTLn: a pin that is no output drives nothing. -/
def evtCtl (s : State) (n : Nat) (v : W32) : State :=
  let s := s.writeReg schPg (0x140 + 4 * n) v false
  if s.evtIsOut n then s else { s with evtSrc := s.evtSrc.filter (fun x => x.pin != n) }

/-! ## The event queue (R305, R306) -/

/-- An entry corrupted in the queue. -/
def evPoison (s : State) (ws : List W32) (bad : Bool) : State × List W32 :=
  if bad then (((s.put evqPg F.EVQ_STS_POISON true).parityErr evqPg 1).rise evqPg X.EVQ_EVQ_POISON, ws.set 0 (ws.getD 0 0 ||| 0x8000))
  else (s, ws)

/-- A read of EVQ_POP0: the entry goes to the hold and is acknowledged. -/
def evPop (s : State) (bad : Bool) : State × W32 :=
  if s.flag evqPg F.EVQ_CTL_MODE then (s, 0)
  else match s.evTake with
    | none => ({ s with evq := { s.evq with hold := [] } }, 0)
    | some (e, s) =>
      let (s, ws) := s.evPoison e.1 bad
      let s := { s with evq := { s.evq with hold := ws } }
      ((s.evqSync.ackSlot e.2).evqRoom, ws.getD 0 0)

def evRingSize (s : State) : Nat := 64 * s.get evqPg F.EVQ_RING_SIZE_SIZE64

/-- The host ring takes an entry now. -/
def evRingOpen (s : State) : Bool :=
  let n := s.evRingSize
  s.flag evqPg F.EVQ_CTL_MODE && n != 0 && (s.get evqPg F.EVQ_RING_WP_WP + 1) % n != s.get evqPg F.EVQ_RING_RP_RP % n &&
    s.pci.linkUp && !s.pci.d3

/-- One entry of the highest class goes to the host ring, where it has room. -/
def evRingOne (s : State) (bad : Bool) : State :=
  if !s.evRingOpen then s
  else match s.evTake with
    | none => s
    | some (e, s) =>
      let s := { s with evq := { s.evq with ring := s.evq.ring ++ [e.2] } }
      let (s, ws) := s.evPoison e.1 bad
      let wp := s.get evqPg F.EVQ_RING_WP_WP
      let base := s.get evqPg F.EVQ_RING_BASE_LO_ADDR * 64 + s.get evqPg F.EVQ_RING_BASE_HI_ADDR * 2 ^ 32
      let s := (s.emit (.hostWr (base + 32 * wp) ws)).set evqPg F.EVQ_RING_WP_WP ((wp + 1) % s.evRingSize)
      ((s.msi (evClass ws)).evqSync).evqRoom

/-- A lone entry leaves once its linger time ends. -/
def evLone (s : State) (bad : Bool) : State :=
  if s.evq.q.length = 1 && s.evRingOpen then (s.upToMono (s.evq.ends.getD 0 0)).evRingOne bad else s

/-- A burst of two entries; a lone entry leaves after its linger only. -/
def evRing (s : State) (bad : Nat) : State :=
  if 2 ≤ s.evq.q.length then (s.evRingOne (bad.testBit 0)).evRingOne (bad.testBit 1) else s

/-- The host moves EVQ_RING_RP: the entries it passes are acknowledged. -/
def evRpWrite (s : State) (v : W32) : State :=
  let n := max 1 s.evRingSize
  let old := s.get evqPg F.EVQ_RING_RP_RP
  let s := s.writeReg evqPg 0x120 v false
  let k := (s.get evqPg F.EVQ_RING_RP_RP + n - old % n) % n
  let go := s.evq.ring.take k
  go.foldl ackSlot { s with evq := { s.evq with ring := s.evq.ring.drop k } }

/-! ## The trace ring (R308) -/

/-- The oldest `n` records leave for the ring. -/
def traceDrain (s : State) (n : Nat) : State :=
  let recs := s.sch.trace.take n
  let s := { s with sch := { s.sch with trace := s.sch.trace.drop n } }
  let size := 256 * s.get schPg F.SCH_TRACE_SIZE_SIZE4K
  let base := s.get schPg F.SCH_TRACE_BASE_LO_ADDR * 64 + s.get schPg F.SCH_TRACE_BASE_HI_ADDR * 2 ^ 32
  if size = 0 then s
  else recs.foldl (fun s ws =>
    let wp := s.get schPg F.SCH_TRACE_WP_WP
    (s.hbmPutWords (base + 16 * wp) ws).set schPg F.SCH_TRACE_WP_WP ((wp + 1) % size)) s

/-- The partial burst at the end of its linger time. -/
def traceTail (s : State) : State :=
  if s.sch.trace.length % 4 = 0 then s else (s.upToMono s.sch.traceEnd).traceDrain s.sch.trace.length

/-- A burst of four records. -/
def traceWrite (s : State) : State := if 4 ≤ s.sch.trace.length then s.traceDrain 4 else s

end State

end Sys2Proof.Machine
end

