-- ==== Sys2Proof/Machine/Heel.lean ====
section
/-!
DEFINITION. Heel state, KILL_N and FAULT_N, and what becomes of work in flight (R415, R416, R422 to R427).
-/
namespace Sys2Proof.Machine

open Sys2Proof

namespace State

def fltPg : Nat := pg T.flt 0
def thmPg : Nat := pg T.thm 0
def glbPg : Nat := pg T.glb 0

/-- The device is in heel state. -/
def devHeel (s : State) : Bool := s.flag fltPg F.FLT_STS_DEV_HEEL

/-! ## KILL_N and FAULT_N (R415, R424) -/

/-- KILL_N is asserted, which clears RELEASE. -/
def killAssert (s : State) : State := (s.put glbPg F.GLB_KILL_RELEASE false).put glbPg F.GLB_KILL_ASSERTED true

/-- FLT_STS.FAULT_N shows the ball. -/
def faultSync (s : State) : State := s.put fltPg F.FLT_STS_FAULT_N (!s.flt.faultN.isEmpty || s.devHeel)

/-! ## Work in flight (R426) -/

/-- A MEASURE or an ANALYZE in progress is aborted, and the ticket completes with C. -/
def abortTicket (s : State) (c slot : Nat) : State := (s.callBack slot).endTicket slot c

/-- Every ticket, in order of acceptance, at a cause with device scope. -/
def settleTickets (s : State) (c : Nat) : State := (s.sch.tickets.map (·.slot)).foldl (abortTicket · c ·) s

/-- A site of the ticket has an enabled channel in eyelet `e`. -/
def touches (s : State) (k : Ticket) (e : Nat) : Bool := k.serves.any (s.sitesOf [e]).contains

/-- A MEASURE with a unit or a channel in eyelet `e`. -/
def measures (s : State) (k : Ticket) (e : Nat) : Bool :=
  k.typ == 2 && (List.range 64).any (fun i =>
    let d := s.iuOf i
    (match d.owner with | some o => o.1 == k.slot | none => false) &&
      (i / 4 == e || d.startCh / 16 == e || d.stopCh / 16 == e))

/-- One ticket at the heel entry of an eyelet. -/
def settleEyeTicket (e : Nat) (s : State) (slot : Nat) : State :=
  match s.ticketAt slot with
  | none => s
  | some k =>
    if s.measures k e then s.abortTicket 0x14 slot
    else if s.touches k e then
      if k.isComplete then s.endTicket slot 0x14
      else if k.rerun then s.modTicket slot (fun k => { k with rerun := false, noGate := true, flags := k.flags ||| 8 })
      else s.modTicket slot (fun k => { k with noGate := true })
    else s

def settleEye (s : State) (e : Nat) : State := (s.sch.tickets.map (·.slot)).foldl (settleEyeTicket e) s

/-! ## Effects of heel (R423) -/

/-- The fail log and the streams of an eyelet are flushed, the streams stop, and its interval units are disarmed. -/
def eyeFlush (s : State) (e : Nat) : State :=
  let s := s.flogDrain e (s.eyeOf e).flogQ.length 0
  let s := (if s.flogOn e then s.flogDone e else s).streamFlush e (s.streamBad e)
  let s := s.set (pg T.tdc e) F.TDC_CTL_STREAM 0
  (List.range 4).foldl (fun s u => s.iuDisarm (4 * e + u)) s

/-- Channels park; sequencer, DDS unit and spare are in heel state. -/
def eyeHeelPins (s : State) (e : Nat) : State :=
  let s := s.ddsEnd e
  let s := (List.range 16).foldl (fun s k => s.parkCh (16 * e + k)) s
  let s := s.set (eyePg e) F.EYE_SEQ_STS_STATE 5
  let p := pg T.spr e
  let st := s.get p F.SPR_STS_STATE
  let d := s.sprOf e
  let s := s.setSpr e (if st = 4 then { d with on := false }
    else { d with on := false, was := st, wasOn := d.on, heelT := some s.mono })
  s.set p F.SPR_STS_STATE 4

/-- The effects of heel of one eyelet, its tickets first, since they are settled by their state at the cause. -/
def eyeHeelEnter (s : State) (e : Nat) : State :=
  let s := (s.settleEye e).leaveGroup e 0x14
  let s := if s.get fltPg F.FLT_KILL_CTL_EYE / 2 ^ e % 2 = 1 then s.killAssert else s
  (s.eyeFlush e).eyeHeelPins e

/-- Every trigger engine ends with reason HEEL, every analysis job with ABORTED. -/
def enginesHeel (s : State) : State :=
  let s := (List.range 4).foldl (fun s q => s.trgHeel q) s
  (List.range 4).foldl (fun s q =>
    let s := if s.aneBusy q then s.aneEnd q 5 else s
    (s.setAne q { s.aneOf q with jobq := [] }).aneSync q) s

/-- Both stacks are held in self-refresh (R404, R423). -/
def stacksHeld (s : State) : State := (s.set (pg T.mem 0) F.MEM_STS_SR_STATE 2).set (pg T.mem 1) F.MEM_STS_SR_STATE 2

/-- The effects of device heel, with the status C of its cause. -/
def devHeelEnter (s : State) (c : Nat) : State :=
  let s := s.groups.foldl (fun s g => s.parkGroup g c) s
  let s := (s.settleTickets c).killAssert
  let s := (List.range 16).foldl (fun s e => (s.eyeFlush e).eyeHeelPins e) s
  let s := s.enginesHeel
  if 3 ≤ s.stage then s.stacksHeld else s

/-! ## Entry (R422) -/

/-- The bit of FLT_STS.DEV_CAUSE of a cause. -/
def causeBit (page src : Nat) : Nat :=
  if 32 ≤ src then 5
  else if page = tbsPg then 0
  else if page = thmPg then (if src = X.THM_TRIP then 2 else 1)
  else if page = fltPg then 3
  else 4

/-- C of a cause: PWR_FAIL, THERMAL or HEEL. -/
def causeC (page : Nat) : Nat := if page = fltPg then 0x35 else if page = thmPg then 0x34 else 0x14

/-- A heel record (R418). -/
def heelRec (s : State) (kind scope : Nat) : State := s.logPush (s.logRec kind fltPg scope 2 0 false)

/-- A scope (an eyelet, or 31 the device) enters heel state for a cause; `c`: the status of the tickets it settles. -/
def enterHeel (s : State) (scope page src c : Nat) : State :=
  let h : Heel := ⟨scope, page, src⟩
  let s := if s.flt.heels.contains h then s else { s with flt := { s.flt with heels := s.flt.heels ++ [h] } }
  if scope = 31 then
    let s := s.set fltPg F.FLT_STS_DEV_CAUSE (setBit (s.get fltPg F.FLT_STS_DEV_CAUSE) (causeBit page src))
    if s.devHeel then s
    else
      let s : State := { s with flt := { s.flt with stageAtHeel := s.stage } }
      let s := (s.put fltPg F.FLT_STS_DEV_HEEL true).set fltPg F.FLT_STS_EYE_HEEL 0xFFFF
      ((s.heelRec 4 31).devHeelEnter c).faultSync
  else if s.eyeHeel scope then s
  else
    let s := s.set fltPg F.FLT_STS_EYE_HEEL (setBit (s.get fltPg F.FLT_STS_EYE_HEEL) scope)
    (s.heelRec 4 scope).eyeHeelEnter scope

/-! ## Leaving (R425) -/

/-- Shadow checking of an eyelet starts: CLEAN_T counts from now (R103). -/
def cleanStart (s : State) (e : Nat) : State :=
  (List.range 16).foldl (fun s k => s.setChan (16 * e + k) { s.chanOf (16 * e + k) with clean := s.nowQ (e / 4) }) s

/-- An eyelet out of heel is STOPPED, and its spare resumes as it was; a takeover decision still pending is carried out
first (R106). -/
def eyeHeelLeave (s : State) (e : Nat) : State :=
  let s := (s.takeNow e).set (eyePg e) F.EYE_SEQ_STS_STATE 0
  let p := pg T.spr e
  let was := (s.sprOf e).was
  let s := (s.setSpr e { s.sprOf e with heelT := none }).cleanStart e
  s.set p F.SPR_STS_STATE (if 2 ≤ was then was else b2n (s.enabled p && decide (3 ≤ s.stage)))

end State

end Sys2Proof.Machine
end

