-- ==== Sys2Proof/Machine/Thermal.lean ====
section
/-!
DEFINITION. Temperature limits and power loss (R428 to R436).
-/
namespace Sys2Proof.Machine

open Sys2Proof

namespace State

def sensorOf (s : State) (n : Nat) : Sensor := tabGet {} s.thm.sensors n
def setSensor (s : State) (n : Nat) (d : Sensor) : State := { s with thm := { s.thm with sensors := tabPut {} s.thm.sensors n d } }

/-- THM_TEMP of sensor n. -/
def tempF (f : Fld) (n : Nat) : Fld := f.off (4 * n)

def sensorBad (s : State) (n : Nat) : Bool := (s.rd thmPg 0x110).getLsbD n

/-- A sensor of the die or of a stack is above a limit less HYST since it crossed it. -/
def anyWarn (s : State) (lo hi : Nat) : Bool := s.thm.sensors.any (fun x => decide (lo ≤ x.1) && decide (x.1 < hi) && x.2.warn)
def anyStop (s : State) (lo hi : Nat) : Bool := s.thm.sensors.any (fun x => decide (lo ≤ x.1) && decide (x.1 < hi) && x.2.stop)

/-! ## Flush (R431, R434) -/

/-- Entries on chip are written to the host ring, as far as it has room. -/
def evFlush (s : State) : Nat → State
  | 0 => s
  | n + 1 => if s.evq.q.isEmpty then s else (s.evRingOne false).evFlush n

/-- Fail logs, stamp queues, acquisitions and the event queue of the eyelets given are flushed. -/
def thermalFlush (s : State) (es : List Nat) : State :=
  let s := es.foldl (fun s e =>
    (s.flogDrain e (s.eyeOf e).flogQ.length 0).streamFlush e (s.streamBad e)) s
  let s := (List.range 4).foldl (fun s q => s.acqDrain q (s.trgOf q).q.length (s.trgOf q).marks.length []) s
  s.evFlush s.evq.q.length

/-! ## The orderly stop (R431) -/

/-- Groups in the scope of a stop. -/
def scopeGroups (s : State) (scope : Nat) : List Group :=
  s.groups.filter (fun g => scope == 31 || g.members.contains scope)

/-- The scope is in heel state. -/
def inHeel (s : State) (scope : Nat) : Bool := s.devHeel || (decide (scope < 16) && s.eyeHeel scope)

/-- A sample at or above STOP begins an orderly stop of its scope. A scope in heel has nothing to stop: the source rises. A
stop in progress is the one stop, and another source joins it. -/
def stopBegin (s : State) (scope src : Nat) : State :=
  if s.inHeel scope then (s.enterHeel scope thmPg src 0x34).rise thmPg src
  else match s.thm.stops.find? (fun x => x.2.1 == scope || x.2.1 == 31) with
  | some x =>
    if s.thm.stops.contains (x.1, x.2.1, src) then s
    else { s with thm := { s.thm with stops := s.thm.stops ++ [(x.1, x.2.1, src)] } }
  | none =>
    let t := s.mono
    let s := { s with thm := { s.thm with stops := s.thm.stops ++ [(t, scope, src)] } }.put thmPg F.THM_STS_STOPPING true
    let s := (s.scopeGroups scope).foldl (fun s g =>
      match g.st with
      | .running => s.keep { g with stopPend := true, thermal := some (t + 633600 * 1024) }
      | _ => s.stopGroup g 0x34 true) s
    if scope = 31 then
      let busy := s.groups.flatMap (·.slots)
      (s.sch.tickets.map (·.slot)).foldl (fun s i => if busy.contains i then s else s.abortTicket 0x34 i) s
    else s

/-- A stop whose groups have all stopped ends: flush, then heel with cause THERMAL. -/
def stopEnd (s : State) (x : Nat × Nat × Nat) : State :=
  let (_, scope, src) := x
  let s := { s with thm := { s.thm with stops := s.thm.stops.filter (fun y => y != x) } }
  let s := s.put thmPg F.THM_STS_STOPPING (!s.thm.stops.isEmpty)
  let s := s.thermalFlush (if scope = 31 then List.range 16 else [scope])
  (s.enterHeel scope thmPg src 0x34).rise thmPg src

/-- Every orderly stop that has no group left in scope ends. -/
def stopCheck (s : State) : State :=
  (s.thm.stops.filter (fun x => (s.scopeGroups x.2.1).isEmpty)).foldl stopEnd s

/-- 99 µs after the sample a group that has reached no segment boundary parks. -/
def parkDeadline (s : State) : State :=
  match s.thm.stops with
  | [] => s
  | x :: _ =>
    let s := s.upToMono (x.1 + 633600 * 1024)
    ((s.scopeGroups x.2.1).foldl (fun s g => s.parkGroup g 0x34) s).stopCheck

/-! ## TRIP (R432) -/

def trip (s : State) : State :=
  if s.flag thmPg F.THM_STS_TRIP then s
  else
    let s := { s with thm := { s.thm with stops := [], tripT := some s.mono } }
    let s := (s.put thmPg F.THM_STS_STOPPING false).put thmPg F.THM_STS_TRIP true
    (s.enterHeel 31 thmPg X.THM_TRIP 0x34).rise thmPg X.THM_TRIP

/-- 10 µs after a TRIP the quadrant PLL outputs are gated off: the fast plane takes no further part. -/
def pllGate (s : State) : State :=
  match s.thm.tripT with
  | none => s
  | some t =>
    let s := s.upToMono (t + 64000 * 1024)
    { s with thm := { s.thm with gated := true }, tlOn := false }

/-! ## Samples (R428 to R430) -/

/-- THM_CTL.HYST; 0 counts as 1. -/
def hyst (s : State) : Nat := max 1 (s.get thmPg F.THM_CTL_HYST)

/-- HOT: a sensor in service reads at or above WARN. -/
def hotSync (s : State) : State :=
  s.put thmPg F.THM_STS_HOT (s.thm.sensors.any (fun x =>
    decide (x.1 < 24) && !s.sensorBad x.1 && (match x.2.last with | some v => decide (s.get thmPg F.THM_LIMITS_WARN ≤ v) | none => false)))

/-- The sampling rate of a sensor of the die. -/
def fastSync (s : State) (n v : Nat) : State :=
  let d := s.sensorOf n
  let fast := (s.rd thmPg 0x10C).getLsbD n
  if s.get thmPg F.THM_LIMITS_WARN ≤ v + 64 then (s.setSensor n { d with below := 0 }).setBitAt thmPg 0x10C n true
  else if !fast then s
  else if 999 ≤ d.below then (s.setSensor n { d with below := 0 }).setBitAt thmPg 0x10C n false
  else s.setSensor n { d with below := d.below + 1 }

/-- A reading of a sensor in service is compared with its limits. -/
def compare (s : State) (n v warn stop wsrc ssrc : Nat) : State :=
  let d := s.sensorOf n
  let s := s.setSensor n { d with warn := decide (warn ≤ v) || (d.warn && decide (warn ≤ v + s.hyst)),
                                  stop := decide (stop ≤ v) || (d.stop && decide (stop ≤ v + s.hyst)) }
  let s := if warn ≤ v then s.rise thmPg wsrc else s
  if n < 24 ∧ 920 ≤ v then s.trip
  else if stop ≤ v then
    let scope := if s.flag thmPg F.THM_CTL_SCOPE && decide (n < 16) then n else 31
    (s.stopBegin scope ssrc).stopCheck
  else s

/-- An invalid sample of a sensor of the die (R429). -/
def invalidSample (s : State) (n : Nat) : State :=
  let d := s.sensorOf n
  let s := (s.setSensor n { d with invalid := d.invalid + 1, valid := 0 }).put thmPg (tempF F.THM_TEMP_VALID n) false
  if 2 ≤ d.invalid ∧ !s.sensorBad n then
    let s := s.setSensor n { s.sensorOf n with warn := false, stop := false }
    ((s.setBitAt thmPg 0x110 n true).rise thmPg X.THM_SENSOR_BAD).hotSync
  else s

/-- A valid sample of a sensor of the die. -/
def validSample (s : State) (n v : Nat) : State :=
  let d := s.sensorOf n
  let bad := s.sensorBad n
  let s := s.setSensor n { d with last := some v, invalid := 0, valid := if bad then d.valid + 1 else 0 }
  let s := (s.set thmPg (tempF F.THM_TEMP_TEMP n) v).put thmPg (tempF F.THM_TEMP_VALID n) true
  let s := s.set thmPg (tempF F.THM_TEMP_MAX n) (max v (s.get thmPg (tempF F.THM_TEMP_MAX n)))
  let s := (s.fastSync n v)
  let s := if bad then
      (if 999 ≤ d.valid then (s.setSensor n { s.sensorOf n with valid := 0 }).setBitAt thmPg 0x110 n false else s)
    else s.compare n v (s.get thmPg F.THM_LIMITS_WARN) (s.get thmPg F.THM_LIMITS_STOP) X.THM_WARN X.THM_STOP
  s.hotSync

/-- A sensor is sampled; readings saturate at 0 and at 2,047. Sensors 24 and 25 are those of the stacks. -/
def thmSample (s : State) (n : Nat) (raw : Int) (odd : Bool) : State :=
  let v := min raw.toNat 2047
  if 24 ≤ n then
    let s := (s.set (pg T.mem (n - 24)) F.MEM_TEMP_TEMP v).setSensor n { s.sensorOf n with last := some v }
    s.compare n v (s.get thmPg F.THM_HBM_LIMITS_WARN) (s.get thmPg F.THM_HBM_LIMITS_STOP) X.THM_HBM_WARN X.THM_HBM_STOP
  else
    let jump := match (s.sensorOf n).last with
      | some w => decide (w + 80 < v) || decide (v + 80 < w)
      | none => false
    if odd || jump then s.invalidSample n else s.validSample n v

/-- A write to THM_LIMITS or THM_HBM_LIMITS. -/
def limitsWrite (s : State) (ofs : Nat) (v : W32) : State :=
  s.writeReg thmPg ofs v (decide (fget v 21 11 ≤ fget v 10 0) || decide (920 ≤ fget v 21 11))

/-! ## Power loss (R433, R434) -/

/-- A flash command or a save in progress is abandoned. -/
def flashAbandon (s : State) : State :=
  let s := match s.flash.op with
    | some (1, a, _) => s.flashBlur (a / 16384 * 16384) 16384
    | some (2, a, _) => s.flashBlur a 1
    | _ => s
  { s with flash := { s.flash with op := none, save := none } }

/-- PWR_FAIL_N is recognised. -/
def pwrFail (s : State) : State :=
  let s := (s.put fltPg F.FLT_STS_PWR_FAIL true).killAssert
  let s := (s.flashAbandon.put (pg T.sec 0) F.SEC_STS_FLASH_BUSY false).put (pg T.cal 0) F.CAL_STS_SAVE_BUSY false
  let s := s.groups.foldl (fun s g => s.parkGroup g 0x35) s
  ((s.settleTickets 0x35).enterHeel 31 fltPg X.FLT_PWR_FAIL 0x35).rise fltPg X.FLT_PWR_FAIL

/-- Every ticket is released in flow order, and the entries on chip go to the host ring if it has room for all. -/
def pwrFlush (s : State) : State :=
  let s := (s.sch.tickets.map (·.slot)).foldl (fun s i => s.release i) s
  let n := s.evq.q.length
  let room := s.evRingSize - 1 - (s.get evqPg F.EVQ_RING_WP_WP + s.evRingSize - s.get evqPg F.EVQ_RING_RP_RP) % max 1 s.evRingSize
  if n ≤ room then s.evFlush n else s

end State

end Sys2Proof.Machine
end

