-- ==== Sys2Proof/Machine/Vamp.lean ====
section
/-!
DEFINITION. Commands of the vamp buffers: loads of the resident area and its word window, granules and presence checks
(R118 to R131, R477).
-/
namespace Sys2Proof.Machine

open Sys2Proof

namespace State

/-- Words of the resident area of an eyelet (R118). -/
def resWords (s : State) (e : Nat) : Nat := 4096 * s.get (eyePg e) F.EYE_VAMP_CFG_RES_BLK

/-- The sequencer's STATE is STOPPED and no load runs (R120). -/
def resFree (s : State) (e : Nat) : Bool :=
  s.get (eyePg e) F.EYE_SEQ_STS_STATE == 0 && !s.flag (eyePg e) F.EYE_VAMP_STS_LOAD_BUSY

/-- A write to EYE_VAMP_LD_CTL: with GO, a load starts or is refused (R120). -/
def vampLoad (s : State) (e : Nat) (v : W32) : State :=
  let p := eyePg e
  let s := s.writeReg p 0x238 v false
  if !v.getLsbD 31 then s
  else
    let src := s.get p F.EYE_VAMP_LD_SRC_LO_SRC_L * 64 + s.get p F.EYE_VAMP_LD_SRC_HI_SRC_H * 2 ^ 32
    let dst := s.get p F.EYE_VAMP_LD_CTL_DST
    let n := s.get p F.EYE_VAMP_LD_CTL_COUNT
    if s.resFree e && decide (3 ≤ s.stage) && decide (16 * (dst + n) ≤ s.resWords e) && s.hbmReach src (64 * n) then
      if n = 0 then s
      else (s.setEye e { s.eyeOf e with load := some (src, dst, n) }).put p F.EYE_VAMP_STS_LOAD_BUSY true
    else s.put p F.EYE_VAMP_STS_LOAD_ERR true

/-- One line of a load is stored, with the poison of each half-line. -/
def loadLine (s : State) (e src dst : Nat) : State :=
  let s := (List.range 16).foldl (fun (s : State) w =>
    let key := e * 491520 + dst * 16 + w
    { s with res := tabPut 0 s.res key (s.hbmWord (src + 4 * w)), upset := tabErase s.upset (2 * 2 ^ 40 + key) }) s
  (List.range 2).foldl (fun (s : State) h =>
    let key := e * 61440 + dst * 2 + h
    let rest := s.resPoison.filter (· != key)
    { s with resPoison := if s.rdPoison (src + 32 * h) then rest ++ [key] else rest }) s

/-- The load ends: every line is stored. -/
def loadDone (s : State) (e : Nat) : State :=
  let d := s.eyeOf e
  match d.load with
  | none => s
  | some (src, dst, n) =>
    let s := (List.range n).foldl (fun s i => s.loadLine e (src + 64 * i) (dst + i)) s
    (s.setEye e { s.eyeOf e with load := none }).put (eyePg e) F.EYE_VAMP_STS_LOAD_BUSY false

/-- The resident word that WADDR selects. -/
def resKey (s : State) (e : Nat) : Nat := e * 491520 + s.get (eyePg e) F.EYE_VAMP_WADDR_WADDR

/-- A write to EYE_VAMP_WDATA (R120, R445, R477). -/
def wdataWrite (s : State) (e : Nat) (v : W32) : State :=
  let p := eyePg e
  let key := s.resKey e
  let s :=
    if !s.resFree e || decide (s.resWords e ≤ s.get p F.EYE_VAMP_WADDR_WADDR) || (s.locked p && tabGet 0 s.res key != v)
    then s.refuse p 0x244
    else { s with res := tabPut 0 s.res key v, upset := tabErase s.upset (2 * 2 ^ 40 + key) }
  s.autoInc p F.EYE_VAMP_WADDR_AUTO_INC (2 ^ 19)

/-- A read of EYE_VAMP_WDATA; beyond the resident area it returns 0. A single-bit error in its 64-bit word is corrected and
counted (R130). -/
def wdataRead (s : State) (e : Nat) : State × W32 :=
  let p := eyePg e
  let w := s.get p F.EYE_VAMP_WADDR_WADDR
  let v := if w < s.resWords e then tabGet 0 s.res (s.resKey e) else 0
  let s := if w < s.resWords e ∧ s.resEcc e (w / 2) = 1 then
      (s.bump p F.EYE_VAMP_ECC_CORR 1).rise p X.EYE_VAMP_CORR else s
  (s.autoInc p F.EYE_VAMP_WADDR_AUTO_INC (2 ^ 19), v)

/-- The `i`-th requested granule that has not arrived is stored, with its poison (R122, R130). -/
def granComplete (s : State) (e i : Nat) : State :=
  let d := s.eyeOf e
  match (d.gran.filter (fun x => x.done.isNone && !x.range))[i]?, s.groupOf e with
  | some x, some g =>
    match (g.cur :: g.queue).find? (fun p => p.ord == x.pass) with
    | none => s
    | some p =>
      let n := 64 / s.vpl e
      let a := s.patBase e + 64 * s.granLine e p x.g
      let s := (List.range (2 * n)).foldl (fun s h => s.hbmTouch (a + 32 * h)) s
      let ws := s.hbmWords a (16 * n)
      let po := (List.range (2 * n)).map (fun h => s.rdPoison (a + 32 * h))
      (s.setEye e { s.eyeOf e with gran := d.gran.map (fun y =>
        if y.pass = x.pass ∧ y.g = x.g then { y with done := some (s.nowQ (e / 4)), words := ws, poison := po, err := [] } else y) }).aheadSync g e
  | _, _ => s

/-- The boundary at which the first pass of a SYNC entry begins, once it can be told: AT, or that of the pass before it
where AT equals it (R164, R165). -/
def syncBound (s : State) (g : Group) (b : Nat) : Option Nat :=
  match s.syncAt g with
  | some (t, _) => if t * 1024 < b then none else some (t * 1024)
  | none => none

/-- The presence check of the granule that begins at the next granule boundary (R123): within the pass, or where it ends;
that of a pass that waits for AT, at AT. -/
def presence (s : State) (e : Nat) : State :=
  match s.groupOf e with
  | none => s
  | some g =>
    let q := g.leader / 4
    let check (p : Pass) (k : Nat) (b : Option Nat) : State := match b with
      | some b => (s.upToQ q (b - 32768)).checkNext p k e b
      | none => s
    match g.st with
    | .armed => s
    | .waiting => check g.cur 0 (s.syncBound g g.at_)
    | .running =>
      let per := s.period g.leader g.cur.tset
      let left := if g.holdLeft ≠ 0 then g.holdLeft else min ((64 - g.vec % 64) % 64) (g.cur.length - g.vec)
      let b := g.at_ + left * per
      let v := if g.holdLeft ≠ 0 then g.vec else g.vec + left
      if v < g.cur.length then check g.cur (v / 64) (some b)
      else match g.queue with
        | [] => s
        | p :: _ => check p 0 (if p.sync && p.first && p.entry != g.cur.entry then s.syncBound g b else some b)

end State

end Sys2Proof.Machine
end

