-- ==== Sys2Proof/Machine/Welt.lean ====
section
/-!
DEFINITION. Welt links: messages, acknowledgement and replay, capture sharing, lanes, sleep and eye scans (R347 to
R360). A packet is given by its fields; whether it arrives sound is the command's to say.
-/
namespace Sys2Proof.Machine

open Sys2Proof

def wltPg (n : Nat) : Nat := pg T.wlt n

namespace State

def wltOf (s : State) (n : Nat) : WltDyn := tabGet {} s.wlt n
def setWlt (s : State) (n : Nat) (d : WltDyn) : State := { s with wlt := tabPut {} s.wlt n d }

def wltState (s : State) (n : Nat) : Nat := s.get (wltPg n) F.WLT_STS_STATE

/-- WLT_STS.STATE changes: vector 9 + n (R345). -/
def setWltState (s : State) (n v : Nat) : State :=
  if s.wltState n = v then s else (s.set (wltPg n) F.WLT_STS_STATE v).msi (9 + n)

/-- The link carries packets: UP or DEGRADED, transmitter awake. -/
def wltAwake (s : State) (n : Nat) : Bool :=
  (s.wltState n == 2 || s.wltState n == 3) && !s.flag (wltPg n) F.WLT_STS_TX_HALF

/-- The link is UP or DEGRADED, asleep or not. -/
def wltUp (s : State) (n : Nat) : Bool := decide (2 ≤ s.wltState n)

/-- UP or DEGRADED by its lanes. -/
def wltRest (s : State) (n : Nat) : Nat :=
  if s.get (wltPg n) F.WLT_STS_LANES = s.get (wltPg n) F.WLT_CTL_LANE_EN then 2 else 3

/-! ## Packets (R350, R351) -/

/-- Blocks in the replay buffer. -/
def replayBlocks (d : WltDyn) : Nat := d.replay.foldl (fun n x => n + x.blocks) 0

/-- A packet leaves, and is kept until acknowledged. -/
def wltSend (s : State) (n kind : Nat) (ws : List Nat) (blocks : Nat) : State :=
  let d := s.wltOf n
  let s := s.setWlt n { d with txSeq := (d.txSeq + 1) % 4096, replay := d.replay ++ [⟨d.txSeq, kind, ws, blocks⟩] }
  s.emit (.welt n kind (d.txSeq :: ws))

/-- An acknowledgement of everything received in order, or a NAK. -/
def wltAck (s : State) (n : Nat) (nak : Bool) : State :=
  let d := s.wltOf n
  (s.setWlt n { d with due := 0, nak := nak }).emit (.welt n 3 [(d.rxSeq + 4095) % 4096, b2n nak])

/-- A packet is discarded: a NAK at once, unless one is out. -/
def wltBad (s : State) (n : Nat) : State :=
  if !s.wltUp n then s
  else
    let s := s.bump (wltPg n) F.WLT_CNT_CRC_ERRS 1
    if (s.wltOf n).nak then s else s.wltAck n true

/-- A sound packet: in SEQ order it is accepted, otherwise discarded. -/
def wltRx (s : State) (n seq : Nat) (f : State → State) : State :=
  let d := s.wltOf n
  if !s.wltUp n then s
  else if seq ≠ d.rxSeq then s.wltBad n
  else
    let s := f (s.setWlt n { d with rxSeq := (seq + 1) % 4096, due := d.due + 1, nak := false })
    if 32 ≤ (s.wltOf n).due then s.wltAck n false else s

/-- Every packet not acknowledged is sent again; after REPLAY_MAX replays without progress the link retrains. -/
def wltReplay (s : State) (n : Nat) : State :=
  let d := s.wltOf n
  if d.replay.isEmpty || !s.wltUp n then s
  else if max 1 (s.get (wltPg n) F.WLT_CTL_REPLAY_MAX) ≤ d.tries then (s.setWlt n { d with tries := 0 }).setWltState n 1
  else
    let s := (s.setWlt n { d with tries := d.tries + 1 }).bump (wltPg n) F.WLT_CNT_REPLAYS 1
    d.replay.foldl (fun s x => s.emit (.welt n x.kind (x.seq :: x.ws))) s

/-! ## Capture sharing (R356) -/

/-- Words and PMASK of `k` 32-byte accesses. -/
def capsData (s : State) (a k : Nat) : List Nat × Nat :=
  ((s.hbmWords a (8 * k)).map (·.toNat), ((List.range k).filter (fun i => s.rdPoison (a + 32 * i))).foldl setBit 0)

/-- Packets of the send in progress leave while the replay buffer has room. -/
def capsPump (s : State) (n : Nat) : Nat → State
  | 0 => s
  | fuel + 1 =>
    let d := s.wltOf n
    match d.caps with
    | none => s
    | some (src, ofs, left) =>
      let k := min 4 left
      let blocks := 4 * k + 2
      if left = 0 ∨ 1024 < replayBlocks d + blocks ∨ !s.wltAwake n then s
      else
        let (ws, pm) := s.capsData (src * 32) k
        let s := (List.range k).foldl (fun s i => s.hbmTouch (src * 32 + 32 * i)) s
        let s := s.setWlt n { s.wltOf n with caps := some (src + k, ofs + k, left - k) }
        (s.wltSend n 2 (ofs :: pm :: ws) blocks).capsPump n fuel

/-- The send is done when every packet is acknowledged. -/
def capsDone (s : State) (n : Nat) : State :=
  let d := s.wltOf n
  match d.caps with
  | some (_, _, 0) =>
    if d.replay.any (fun x => x.kind == 2) then s
    else ((s.setWlt n { d with caps := none }).put (wltPg n) F.WLT_CAPS_CTL_BUSY false).put (wltPg n) F.WLT_CAPS_CTL_DONE true
  | _ => s

/-- Exit from sleep begins. -/
def wltWake (s : State) (n : Nat) : State := if s.wltState n = 5 then s.setWltState n 6 else s

/-- A write to WLT_CAPS_CTL. -/
def capsCtl (s : State) (n : Nat) (v : W32) : State :=
  let p := wltPg n
  let s := s.writeReg p 0x12C v false
  let len := s.get p F.WLT_CAPS_CTL_LEN
  if !v.getLsbD 28 || s.flag p F.WLT_CAPS_CTL_BUSY || len == 0 then s
  else
    let src := s.get p F.WLT_CAPS_SRC_LO_ADDR + s.get p F.WLT_CAPS_SRC_HI_ADDR * 2 ^ 27
    (((s.setWlt n { s.wltOf n with caps := some (src, s.get p F.WLT_CAPS_OFS_OFS, len) }).put p F.WLT_CAPS_CTL_BUSY true).wltWake n).capsPump n 57

/-- A capture packet is written to the window, or discarded outside it. -/
def capsRx (s : State) (n ofs : Nat) (ws : List W32) (pmask : Nat) : State :=
  let p := wltPg n
  let size := s.get p F.WLT_CAPW_SIZE_SIZE4K * 4096
  let base := s.get p F.WLT_CAPW_BASE_LO_ADDR * 4096 + s.get p F.WLT_CAPW_BASE_HI_ADDR * 2 ^ 32
  if size < ofs * 32 + 4 * ws.length then (s.put p F.WLT_STS_WIN_ERR true).rise p X.WLT_WIN_ERR
  else (List.range 4).foldl (fun s i =>
    let bs := ((ws.drop (8 * i)).take 8).flatMap wordBytes
    if bs.isEmpty then s else s.hbmPutAccess (base + ofs * 32 + 32 * i) bs (pmask.testBit i)) s

/-! ## Acknowledgements received (R351) -/

/-- Packets up to ACKSEQ leave the replay buffer. -/
def wltAcked (s : State) (n seq : Nat) : State :=
  let d := s.wltOf n
  match d.replay.findIdx? (fun x => x.seq == seq) with
  | none => s
  | some i => ((s.setWlt n { d with replay := d.replay.drop (i + 1), tries := 0 }).capsPump n 57).capsDone n

/-! ## Messages (R352, R353) -/

/-- Fields and blocks of a message on the wire. -/
def msgFields (m : WMsg) : List Nat :=
  if m.lace then [m.typ, m.data, m.src, m.mid, m.ttl] else [m.data, m.src, m.mid, m.ttl]

/-- The oldest message leaves on every link that is UP and has FWD at 1, but the one it came from. -/
def weltSend (s : State) : State :=
  match s.wq with
  | [] => s
  | m :: r =>
    let outs := (List.range 4).filter (fun n => s.wltUp n && s.flag (wltPg n) F.WLT_CTL_FWD && m.link != some n)
    let k := b2n m.lace
    if outs.any (fun n => decide (1024 < replayBlocks (s.wltOf n) + 1 + k)) then s
    else
      let s := s.upToMono s.wquiet
      let s := { s with wq := r, wquiet := s.mono + 256 * 1024 }
      outs.foldl (fun s n =>
        if s.wltAwake n then s.wltSend n k (msgFields m) (1 + k)
        else (s.setWlt n { s.wltOf n with waitq := (s.wltOf n).waitq ++ [(k, msgFields m)] }).wltWake n) s

/-- A message received whole: delivered and forwarded, or dropped as a duplicate. -/
def weltMsg (s : State) (m : WMsg) : State :=
  let last := s.wlast.find? (fun x => x.1 == m.src)
  let own := m.src == s.get (wltPg 0) F.WLT_NODE_DEV
  let old := match last with
    | some (_, mid, _) => let d := (m.mid + 256 - mid) % 256; d == 0 || decide (128 ≤ d)
    | none => false
  let keep := s.wlast.filter (fun x => x.1 != m.src)
  if own || old then
    { s with wlast := match last with | some (a, mid, _) => keep ++ [(a, mid, s.mono)] | none => keep }
  else
    let s := { s with wlast := keep ++ [(m.src, m.mid, s.mono)] }
    let s := if m.ttl = 0 then s else s.weltPut { m with ttl := m.ttl - 1 }
    if m.lace then (if s.enabled tbsPg && !s.resetting.contains tbsPg then s.laceFrame m.typ m.data else s)
    else (s.trgCode m.data none).seqEvent 0xB m.data

/-- LAST[SRC] empties 20 ms after the last message from SRC. -/
def lastExpiry (s : State) (src : Nat) : State :=
  match s.wlast.find? (fun x => x.1 == src) with
  | none => s
  | some (_, _, t) =>
    let s := s.upToMono (t + 131072000000)
    { s with wlast := s.wlast.filter (fun x => x.1 != src) }

/-- A write to WLT_MSG. -/
def msgCtl (s : State) (v : W32) : State :=
  let s := s.writeReg (wltPg 0) 0x144 v false
  if v.getLsbD 31 then s.weltOwn false 0 (s.get (wltPg 0) F.WLT_MSG_CODE) else s

/-! ## Lanes and states (R351, R357, R358) -/

/-- Training ends with the lanes in `good` locked. A lane that fails to train has failed, and a failed lane stays out until
RETRAIN (R358); where no lane trains, every one tries again. -/
def trainDone (s : State) (n good far : Nat) : State :=
  let p := wltPg n
  if s.enabled p ∧ s.wltState n ≤ 1 then
    let en := s.get p F.WLT_CTL_LANE_EN
    let failed := s.get p F.WLT_STS_FAILED
    let lanes := (List.range 4).foldl (fun m i => if en.testBit i && good.testBit i && !failed.testBit i then setBit m i else m) 0
    if lanes = 0 then s.setWltState n 1
    else
      let s := ((s.set p F.WLT_STS_LANES lanes).set p F.WLT_STS_FAILED (failed ||| (en ^^^ lanes))).set p F.WLT_STS_FAR_DEV far
      let s := if failed ||| (en ^^^ lanes) = failed then s else s.rise p X.WLT_LANE_FAIL
      let s := s.setWltState n (s.wltRest n)
      let d := s.wltOf n
      let s := s.setWlt n { d with tries := 0 }
      (d.replay.foldl (fun s x => s.emit (.welt n x.kind (x.seq :: x.ws))) s).capsPump n 57
  else s

/-- Unacknowledged messages are lost; a capture send ends with ERR. -/
def wltDrop (s : State) (n : Nat) : State :=
  let p := wltPg n
  let d := s.wltOf n
  let lost := d.replay.any (fun x => x.kind != 2) || !d.waitq.isEmpty
  let s := s.setWlt n { d with replay := [], waitq := [], caps := none, tries := 0 }
  let s := if lost then (s.put p F.WLT_STS_MSG_LOST true).rise p X.WLT_MSG_LOST else s
  if d.caps.isSome then (s.put p F.WLT_CAPS_CTL_BUSY false).put p F.WLT_CAPS_CTL_ERR true else s

/-- The link goes DOWN. -/
def wltDown (s : State) (n : Nat) : State :=
  ((((s.setWltState n 0).set (wltPg n) F.WLT_STS_LANES 0).put (wltPg n) F.WLT_STS_TX_HALF false).put (wltPg n) F.WLT_STS_RX_HALF
    false).wltDrop n |>.rise (wltPg n) X.WLT_LINK_DOWN

/-- A scan ends with ABORTED. -/
def scanAbort (s : State) (n : Nat) : State :=
  ((s.setWlt n { s.wltOf n with scan := none }).put (wltPg n) F.WLT_ESCAN_CTL_BUSY false).put (wltPg n) F.WLT_ESCAN_CTL_ABORTED true

/-- A lane fails. -/
def laneFail (s : State) (n lane : Nat) : State :=
  let p := wltPg n
  let lanes := s.get p F.WLT_STS_LANES
  if !lanes.testBit lane then s
  else
    let s := (s.set p F.WLT_STS_LANES (clearBit lanes lane)).set p F.WLT_STS_FAILED (setBit (s.get p F.WLT_STS_FAILED) lane)
    let s := s.rise p X.WLT_LANE_FAIL
    let s := if (s.wltOf n).scan = some lane then s.scanAbort n else s
    if s.get p F.WLT_STS_LANES = 0 then s.wltDown n
    else
      let s := if s.wltState n = 2 then s.setWltState n 3 else s
      let d := s.wltOf n
      if d.replay.isEmpty then s
      else d.replay.foldl (fun s x => s.emit (.welt n x.kind (x.seq :: x.ws))) (s.bump p F.WLT_CNT_REPLAYS 1)

/-- A write to WLT_CTL: RETRAIN and WAKE act; SLEEP 3 is refused. -/
def wltCtl (s : State) (n : Nat) (v : W32) : State :=
  let p := wltPg n
  let s := s.writeReg p 0x100 v (fget v 7 6 == 3)
  let s := if v.getLsbD 17 && s.enabled p then
      ((((s.set p F.WLT_STS_LANES 0).set p F.WLT_STS_FAILED 0).put p F.WLT_STS_TX_HALF false).put p F.WLT_STS_RX_HALF false).setWltState n 1
    else s
  if v.getLsbD 16 then s.wltWake n else s

/-- PG_CTL.ENABLE of a link's page changes: training begins, or the link is down. -/
def wltEnable (s : State) (n : Nat) (on : Bool) : State :=
  if on then s.setWltState n 1
  else ((s.setWltState n 0).set (wltPg n) F.WLT_STS_LANES 0).wltDrop n

/-! ## Sleep (R359) -/

/-- Nothing to send. -/
def wltIdle (s : State) (n : Nat) : Bool :=
  let d := s.wltOf n
  s.wq.isEmpty && d.replay.isEmpty && d.waitq.isEmpty && (match d.caps with | some (_, _, l) => l == 0 | none => true)

/-- Entry to sleep; `far`: the far transmitter alone goes to half sleep. -/
def sleepEntry (s : State) (n : Nat) (far : Bool) : State :=
  let p := wltPg n
  let mode := s.get p F.WLT_CTL_SLEEP
  let mode := if mode = 1 ∧ s.flag p F.WLT_CTL_COMPAT then 2 else mode
  if !s.wltAwake n then s
  else if far then s.put p F.WLT_STS_RX_HALF true
  else if !s.wltIdle n then s
  else if mode = 1 then s.setWltState n 5
  else if mode = 2 then s.put p F.WLT_STS_TX_HALF true
  else s

/-- Exit from sleep completes: waiting packets are sent. `far`: the far transmitter wakes. -/
def wakeDone (s : State) (n : Nat) (far : Bool) : State :=
  let p := wltPg n
  if far then s.put p F.WLT_STS_RX_HALF false
  else
    let s := s.put p F.WLT_STS_TX_HALF false
    let s := if s.wltState n = 6 ∨ s.wltState n = 5 then s.setWltState n (s.wltRest n) else s
    let q := (s.wltOf n).waitq
    let s := s.setWlt n { s.wltOf n with waitq := [] }
    (q.foldl (fun s m => s.wltSend n m.1 m.2 (1 + m.1)) s).capsPump n 57

/-! ## Eye scans (R360) -/

/-- A write to WLT_ESCAN_CTL. -/
def scanCtl (s : State) (n : Nat) (v : W32) : State :=
  let p := wltPg n
  let d := fget v 20 15
  let s := s.writeReg p 0x130 v (decide (d < 20) || decide (40 < d))
  if v.getLsbD 21 && !s.flag p F.WLT_ESCAN_CTL_BUSY then
    (s.setWlt n { s.wltOf n with scan := some (s.get p F.WLT_ESCAN_CTL_LANE) }).put p F.WLT_ESCAN_CTL_BUSY true
  else s

/-- A scan ends with its count of disagreements. -/
def scanDone (s : State) (n errs : Nat) : State :=
  match (s.wltOf n).scan with
  | none => s
  | some _ =>
    ((s.setWlt n { s.wltOf n with scan := none }).put (wltPg n) F.WLT_ESCAN_CTL_BUSY false).set (wltPg n) F.WLT_ESCAN_ERR_ERRORS
      (min errs (2 ^ 32 - 1))

end State

end Sys2Proof.Machine
end

