-- ==== Sys2Proof/Machine/Startup.lean ====
section
/-!
DEFINITION. Resets, service stages, self-tests, bring-up and flash commands (R388 to R408, R475).
-/
namespace Sys2Proof.Machine

open Sys2Proof

namespace State

def secPg : Nat := pg T.sec 0

/-! ## Resets (R393, R394, R475) -/

/-- The inputs of a channel outlive a reset. -/
def chanInputs (s : State) : Tab ChanDyn :=
  (s.chan.filter (fun x => x.2.cmpH || x.2.cmpL)).map (fun x => (x.1, { cmpH := x.2.cmpH, cmpL := x.2.cmpL }))

/-- What every device reset leaves: flash, the fuse, the TAP, the levels at the pins, and `cause` in GLB_RST_CAUSE. -/
def deviceReset (s : State) (cause : Nat) : State :=
  let svn := s.get secPg F.SEC_STS_SVN_MIN
  let s := s.flashAbandon
  let r : State := { pending := s.pending, out := s.out, free := s.free, flash := s.flash, jtag := s.jtag,
                     evtIn := s.evtIn, chan := s.chanInputs, pci := { perstLow := s.pci.perstLow } }
  (r.wr glbPg 0x10C (BitVec.ofNat 32 cause)).set secPg F.SEC_STS_SVN_MIN svn

/-- GLB_RST_CAUSE. -/
def rstCause (s : State) : Nat := (s.rd glbPg 0x10C).toNat

/-- Power-on reset: a rail is below its valid threshold, or TEST_EN reads high (`test`). RESET_N is low until the rails are
valid (R390, R455, R475). -/
def powerOn (s : State) (test : Bool) : State := { s.deviceReset 3 with jtag := {}, boot := { held := true, test := test } }

/-- RESET_N low for 100 ns or longer. -/
def pinReset (s : State) : State :=
  { s.deviceReset (setBit s.rstCause 1) with boot := { held := true, test := s.boot.test } }

/-- RESET_N rises: the die starts, unless TEST_EN holds it in power-on reset (R455). PERST_N low is recorded from then on
(R475). -/
def pinRelease (s : State) : State :=
  if s.boot.test then s
  else
    let s := { s with boot := { s.boot with held := false } }
    if s.pci.perstLow then s.put glbPg F.GLB_RST_CAUSE_PERST true else s

/-- A chip reset (R394): the endpoint, its configuration space, its MSI-X table, the link and the SMBus address are
kept, and HBM contents with `keep`. `bit`: the bit of GLB_RST_CAUSE that it sets, 0 to 5, or 6 for none. While the die is
held in reset that reset governs (R395). -/
def chipReset (s : State) (keep : Bool) (bit : Nat) : State :=
  if s.boot.held then s
  else
  let link := s.rd pciPg 0x104
  let cause := if bit < 6 then setBit s.rstCause bit else s.rstCause
  let r := s.deviceReset cause
  let r : State := { r with pci := s.pci, smb := s.smb, boot := { resume := keep, wdog := bit == 4 },
                            hbm := if keep then s.hbm else {} }
  r.wr pciPg 0x104 link

/-- A write to GLB_RST (R394). -/
def rstWrite (s : State) (v : W32) : State :=
  let s := s.writeReg glbPg 0x108 v false
  if v.getLsbD 0 && fget v 15 8 == 0xA5 then s.chipReset (s.flag glbPg F.GLB_RST_KEEP_HBM) 2 else s

/-- The management firmware has missed its heartbeat for 100 ms (R395). -/
def wdogReset (s : State) : State := s.chipReset true 4

/-- PERST_N low resets the endpoint, its link, its configuration space, its MSI-X table and the PCI page. -/
def perst (s : State) : State :=
  let id := tabGet 0 s.pci.cfg 11
  let s := { s with regs := s.regs.filter (fun x => x.1 / 4096 != pciPg), held := s.held.filter (fun x => x.1 / 4096 != pciPg) }
  let s := { s with pci := { perstLow := true, pba := s.pci.pba, cfg := tabPut 0 [] 11 id } }
  if s.boot.held then s else s.put glbPg F.GLB_RST_CAUSE_PERST true

/-- PERST_N rises and the link trains. -/
def perstRelease (s : State) (speed width : Nat) : State :=
  if s.pci.perstLow && !s.boot.held then ({ s with pci := { s.pci with perstLow := false } }.pciUp speed width)
  else { s with pci := { s.pci with perstLow := false } }

/-! ## The step from 0 to 1 (R397 to R403) -/

/-- The copy whose (SVN, VERSION) pair is greater is tried first. -/
def fwFirst (s : State) : Nat :=
  if s.fwSvn 0 < s.fwSvn 1 ∨ (s.fwSvn 0 = s.fwSvn 1 ∧ s.fwVersion 0 < s.fwVersion 1) then 1 else 0

/-- A copy has failed a check. -/
def fwBad (s : State) (c reason : Nat) : State :=
  (s.put secPg (if c = 0 then F.SEC_STS_COPY0_BAD else F.SEC_STS_COPY1_BAD) true).set secPg F.SEC_STS_REASON reason

/-- The parts of a copy are loaded. -/
def fwLoad (s : State) (c : Nat) (k : CopyCheck) (vendor : Nat) : State :=
  let p := secPg
  let v := if k.ucode then vendor else 0
  let s := ((s.set p F.SEC_UCODE_VER_VERSION (s.fwVersion c)).set p F.SEC_UCODE_VER_SVN (s.fwSvn c)).set p F.SEC_UCODE_VER_ANE v
  let s := ((s.put p F.SEC_UCODE_VER_LST k.lst).put p F.SEC_UCODE_VER_MC k.mc).set p F.SEC_UCODE_VER_COPY c
  let s := (List.range 4).foldl (fun s q => s.put (anePg q) F.ANE_UC_STS_VENDOR_VALID (v.testBit q)) s
  if (s.fwWord c 1).getLsbD 24 then s.set p F.SEC_STS_SVN_MIN (s.fwSvn c) else s

/-- The boot ROM loads a copy, or enters recovery. -/
def fwBoot (s : State) (b : Boot) : State :=
  let p := secPg
  let chk (c : Nat) : CopyCheck := if c = 0 then b.copy0 else b.copy1
  let c := s.fwFirst
  let r := s.fwCheck c (chk c)
  if r = 0 then s.fwLoad c (chk c) b.vendor.toNat
  else
    let s := s.fwBad c r
    let r' := s.fwCheck (1 - c) (chk (1 - c))
    if r' = 0 then (s.fwLoad (1 - c) (chk (1 - c)) b.vendor.toNat).rise p X.SEC_COPY_BAD
    else ((s.fwBad (1 - c) r').put p F.SEC_STS_RECOVERY true).rise p X.SEC_RECOVERY

/-- The integrator data take effect (R402). -/
def integrate (s : State) : State :=
  let ok := s.integOk
  let w := s.integWord 2
  let rec_ := s.flag secPg F.SEC_STS_RECOVERY
  let id := if ok && !rec_ then s.integWord 1 else 0
  let s := { s with pci := { s.pci with cfg := tabPut 0 s.pci.cfg 11 id } }
  let h := if ok then fget w 2 0 else 0
  let s := (s.set glbPg F.GLB_STAGE_HOLD_AT (if h = 0 then 4 else h)).put glbPg F.GLB_RST_KEEP_HBM (ok && w.getLsbD 3)
  if ok then s else (s.put secPg F.SEC_STS_INTEG_BAD true).rise secPg X.SEC_INTEG_BAD

def setStage (s : State) (n : Nat) : State := s.set glbPg F.GLB_STAGE_STAGE n

/-- The highest stage that HOLD_AT allows. -/
def holdAt (s : State) : Nat :=
  let h := s.get glbPg F.GLB_STAGE_HOLD_AT
  if h = 0 ∨ 4 < h then 4 else h

/-- 0 → 1. -/
def stage1 (s : State) (b : Boot) : State :=
  let s := ((s.fwBoot b).integrate).setStage 1
  if s.boot.wdog then s.rise glbPg X.GLB_WDOG_RESET else s

/-! ## The step from 1 to 2 (R403, R405) -/

/-- One target of an analysis engine is marched. -/
def bootMarch (s : State) (q tgt : Nat) (bad : Bool) : State :=
  let p := anePg q
  let s := (s.setAne q { s.aneOf q with tgt := tgt }).setAneState q 5
  if bad then
    let (f, s) := s.fresh
    let (a, s) := s.fresh
    let (x, s) := s.fresh
    s.marchDone q (if BitVec.ofNat 32 f = 0 then 1 else BitVec.ofNat 32 f) true (a % 2 ^ 20) (BitVec.ofNat 32 x)
  else s.marchDone q 0 false 0 0

/-- The self-tests of an analysis engine. -/
def bootAne (s : State) (b : Boot) (q : Nat) : State :=
  let s := (s.bootMarch q 0 (b.spads.getLsbD q)).bootMarch q 1 (b.ucodes.getLsbD q)
  if b.spads.getLsbD q || b.ucodes.getLsbD q then s.setBitAt glbPg 0x11C q true else s

/-- 1 → 2: the self-tests, then the fields set by firmware. -/
def stage2 (s : State) (b : Boot) : State :=
  let p := glbPg
  let s := s.set p F.GLB_BIST_EYE_FAIL b.eyes.toNat
  let s := (List.range 16).foldl (fun s e => if b.eyes.getLsbD e then s.enterHeel e p 32 0x14 else s) s
  let s := if b.eyes = 0 then s else s.rise p X.GLB_BIST_EYE
  let s := s.set p F.GLB_BIST_LST_FAIL b.cores.toNat
  let s := (List.range 32).foldl (fun s n => if b.cores.getLsbD n then s.coreFail n else s) s
  let s := (List.range 4).foldl (fun s q => s.bootAne b q) s
  let s := ((s.put p F.GLB_BIST_MISC_SEG b.seg).put p F.GLB_BIST_MISC_EVQ b.evq).put p F.GLB_BIST_MISC_SCH b.sch
  let s := s.put p F.GLB_BIST_MISC_CALRAM b.cal
  if b.seg || b.evq || b.sch || b.cal then (s.enterHeel 31 p 33 0x14).rise p X.GLB_BIST_CORE
  else if b.eyes.toNat = 0xFFFF then s
  else
    let s : State := { s with dlyFac := true, memDly := [] }
    let s := (List.range 4).foldl (fun s q =>
      if s.aneState q = 6 then s
      else ((s.put (anePg q) F.PG_CTL_ENABLE true).put (anePg q) F.ANE_CTL_HOLD false).aneRest q) s
    s.setStage 2

/-! ## The step from 2 to 3 (R110, R406) -/

/-- A live slice fails the check of R110: its spare takes over with no re-run record, or it is the second. -/
def sliceFail (s : State) (c : Nat) : State :=
  let p := pg T.spr (c / 16)
  if s.get p F.SPR_STS_STATE = 1 then
    let s := ((s.put (pg T.chn c) F.CHN_STS_TAKEN true).set p F.SPR_STS_STATE 2).set p F.SPR_STS_FOR_CH (c % 16)
    (s.put p F.SPR_STS_TAKEOVER true).rise p X.SPR_TAKEOVER
  else s.rise p X.SPR_SECOND_FAULT

/-- DISPATCH 0: prefetch. -/
def dispatchOff (s : State) : State :=
  let s := s.put schPg F.SCH_MODE_DISPATCH false
  (List.range 32).foldl (fun s n => if s.coreState n = 2 then s.set (lst n) F.LST_STS_STATE 0 else s) s

/-- The words of both slot tables of a crossbar at reset: every slot open. -/
def slotReset (s : State) (x : Nat) : State :=
  let lo := rkey (xbrPg x) 0x400
  { s with regs := s.regs.filter (fun r => !(decide (lo ≤ r.1) && decide (r.1 < lo + 0x800))),
           slotL := s.slotL.filter (fun r => r.1 / 512 != x) }

/-- Bring-up of both stacks; `resume`: they end self-refresh. -/
def bringUp (s : State) (resume : Bool) : State :=
  let mirror := if s.boot.mirror then s.rd (pg T.mem 0) 0x1D0
    else if s.integOk then s.integWord 3 &&& 0x3FFF else 0
  let s := s.wr (pg T.mem 0) 0x1D0 mirror
  let s : State := { s with dlyFac := true, memDly := [], hbm := if resume then s.hbm else {},
                            boot := { s.boot with resume := false, mirror := false, dly := false } }
  (List.range 2).foldl (fun s x =>
    let s := (s.put (memPg x) F.PG_CTL_ENABLE true).set (memPg x) F.MEM_STS_SR_STATE 0
    (s.slotReset x).put (xbrPg x) F.PG_CTL_ENABLE true) s

/-- A stack fails bring-up: it does not respond, or its read-back after the fill finds more than 16 rows of one
pseudo-channel (R406). -/
def stackBad (b : Boot) (fill : Bool) (x : Nat) : Bool :=
  b.hbmBad.getLsbD x || (fill && (List.range 32).any (fun h =>
    decide (16 < (b.rows.filter (fun r => r.1.val == x && fget (r.2.setWidth 32) 19 15 == h)).length)))

/-- 2 → 3. -/
def stage3 (s : State) (b : Boot) : State :=
  let resume := s.boot.resume && !s.boot.dly
  let bad := (List.range 2).filter (stackBad b !resume)
  if bad ≠ [] then bad.foldl stackFail (s.set glbPg F.GLB_BIST_MISC_HBM (bad.foldl setBit 0))
  else
    let s := (s.set glbPg F.GLB_BIST_MISC_HBM 0).bringUp resume
    let s := (if resume then s else b.rows.foldl (fun s r => s.fillRepair r.1.val r.2.toNat) s).calFactory
    let s := s.setStage 3
    let s := (List.range 16).foldl (fun s e =>
      let p := pg T.spr e
      let s := (s.put p F.PG_CTL_ENABLE true).cleanStart e
      if s.get p F.SPR_STS_STATE = 0 then s.set p F.SPR_STS_STATE 1 else s) s
    ((b.slices.map (·.val)).foldl sliceFail s).dispatchOff

/-! ## The step from 3 to 4 (R403) -/

/-- 3 → 4: the user image in flash is loaded and committed, unless one is live. -/
def stage4 (s : State) : State :=
  let p := calPg
  let s := if s.flag p F.CAL_STS_USER_OK then s
    else match s.newestSlot with
      | none => (s.put p F.CAL_STS_LOAD_ERR true).rise p X.CAL_LOAD_ERR
      | some _ => s.calLoad.calCommit
  if s.flag p F.CAL_STS_USER_OK then s.setStage 4 else s

/-- The firmware raises GLB_STAGE by one step, where HOLD_AT and the step's condition allow it (R403). -/
def stageStep (s : State) (b : Boot) : State :=
  let n := s.stage
  if s.boot.held || s.jtag.taken || s.flag fltPg F.FLT_STS_PWR_FAIL || s.devHeel then s
  else if n = 0 then (if s.pllsLocked then s.stage1 b else s)
  else if s.holdAt ≤ n ∨ s.flag secPg F.SEC_STS_RECOVERY then s
  else if n = 1 then (if s.pllsLocked then s.stage2 b else s)
  else if n = 2 then s.stage3 b
  else if n = 3 then s.stage4
  else s

/-! ## Falls (R404) -/

/-- 3 → 2. -/
def fall2 (s : State) : State :=
  let s := (List.range 16).foldl (fun s e => s.set (pg T.tdc e) F.TDC_CTL_STREAM 0) s
  let s := (List.range 4).foldl (fun s q =>
    if (if s.trgRuns q then s.acqMode q else s.get (trgPg q) F.TRG_CTL_ACQ_MODE) = 0 then s else s.trgKill q) s
  let s := (List.range 4).foldl (fun s q =>
    match (s.aneOf q).job with
    | some (w, _) => if s.aneBusy q && (List.range 3).any (fun x => xferWhen w x != 0) then s.aneEnd q 6 else s
    | none => s) s
  let s := (List.range 2).foldl (fun s x => s.put (memPg x) F.PG_CTL_ENABLE false) s.stacksHeld
  let s := (List.range 16).foldl (fun s e =>
    let p := pg T.spr e
    let s := s.setSpr e { s.sprOf e with on := false }
    if s.get p F.SPR_STS_STATE = 1 then s.set p F.SPR_STS_STATE 0 else s) s
  { s.setStage 2 with boot := { s.boot with resume := true, mirror := false, dly := false } }

/-- The stage falls to `m` where it is above, with the effects of each fall. -/
def fallTo (s : State) (m : Nat) : State :=
  let s := if s.stage = 4 ∧ m < 4 then s.calFactory.setStage 3 else s
  if s.stage = 3 ∧ m < 3 then s.fall2 else s

/-- The stage falls to HOLD_AT, but not below 2, once every sequencer is STOPPED. -/
def stageFall (s : State) : State := if s.allStopped then s.fallTo (max 2 s.holdAt) else s

/-! ## The pins (R391, R392, R415, R469) -/

/-- The die does not drive its balls: it is in reset, at stage 0, or the balls belong to the boundary register. -/
def inReset (s : State) : Bool := s.boot.held || s.stage == 0 || s.jtag.taken

/-- DRV and DEN of a channel at the balls; none: high-impedance. -/
def ballChan (s : State) (c : Nat) : Option (Bool × Bool) :=
  if s.inReset then none else some ((s.chanOf c).drv, (s.chanOf c).den)

/-- The level that the die drives on EVTn; none: it drives none. -/
def ballEvt (s : State) (n : Nat) : Option Bool :=
  if s.inReset || !s.evtIsOut n then none else some (s.evtOut n)

/-- KILL_N is low, also while the balls belong to the boundary register. -/
def ballKill (s : State) : Bool := s.inReset || s.flag glbPg F.GLB_KILL_ASSERTED

/-- FAULT_N is driven low: in reset by the die, then by the fault collector. -/
def ballFault (s : State) : Bool := s.boot.held || s.stage == 0 || !s.flt.faultN.isEmpty || s.devHeel

/-! ## KILL_N (R392, R424) -/

/-- A write to GLB_KILL. -/
def killWrite (s : State) (v : W32) : State :=
  let bad := v.getLsbD 0 && (s.devHeel || s.flag fltPg F.FLT_STS_PWR_FAIL || s.flag thmPg F.THM_STS_TRIP)
  let s := s.writeReg glbPg 0x110 v bad
  if s.stage = 0 then s else s.put glbPg F.GLB_KILL_ASSERTED (!s.flag glbPg F.GLB_KILL_RELEASE)

/-! ## Flash commands (R401) -/

/-- The host may erase or program the word at an address (divided by 4). -/
def flashAllowed (s : State) (a : Nat) : Bool :=
  let rec_ := s.flag secPg F.SEC_STS_RECOVERY
  let copy := s.get secPg F.SEC_UCODE_VER_COPY
  let at_ (c : Nat) : Bool := decide (0x4000 + 0x100000 * c ≤ a) && decide (a < 0x4000 + 0x100000 * (c + 1))
  (at_ 0 && (rec_ || copy == 1)) || (at_ 1 && (rec_ || copy == 0)) || (decide (0x224000 ≤ a) && decide (a < 0x228000))

/-- A flash command is refused or fails. -/
def flashErr (s : State) : State := (s.put secPg F.SEC_STS_FLASH_ERR true).rise secPg X.SEC_FLASH_ERR

/-- A write to SEC_FLASH_CMD. -/
def flashCmd (s : State) (v : W32) : State :=
  let op := fget v 1 0
  let a := s.get secPg F.SEC_FLASH_ADDR_ADDR
  if op = 0 then s
  else if s.stage = 0 || s.flash.op.isSome || (op != 3 && !s.flashAllowed a) then s.flashErr
  else { s with flash := { s.flash with op := some (op, a, s.rd secPg 0x144) } }.put secPg F.SEC_STS_FLASH_BUSY true

/-- A flash command ends; `ok`: it has not failed. -/
def flashDone (s : State) (ok : Bool) : State :=
  match s.flash.op with
  | none => s
  | some (op, a, d) =>
    let s := if !ok then ({ s.flashAbandon with flash := { s.flashAbandon.flash with save := s.flash.save } } : State).flashErr
      else if op = 1 then s.flashErase (a / 16384 * 16384) 16384
      else if op = 2 then s.flashPut a (s.flashWord a &&& d)
      else s.wr secPg 0x144 (s.flashWord a)
    let s := if op = 1 then s else s.set secPg F.SEC_FLASH_ADDR_ADDR ((a + 1) % 2 ^ 22)
    { s with flash := { s.flash with op := none } }.put secPg F.SEC_STS_FLASH_BUSY false

end State

end Sys2Proof.Machine
end

