-- ==== Sys2Proof/Machine/Blocks.lean ====
section
/-!
DEFINITION. The common page header: ENABLE, block reset, the configuration lock and commits (R36, R440 to R447, R476).
-/
namespace Sys2Proof.Machine

open Sys2Proof

namespace State

/-! ## The registers of a page (R444) -/

/-- Every register of a page but those kept returns to its reset value, and is in force. A captured upper part is no register
of the page: it stays until the next read of its _LO half replaces it (R15; DESIGN CHOICE, log 18). -/
def regsReset (s : State) (p : Nat) (kept : Nat → Bool) : State :=
  let stays (k : Nat) : Bool := k / 4096 != p || kept (k % 4096)
  { s with regs := s.regs.filter (fun x => stays x.1), held := s.held.filter (fun x => stays x.1) }

/-- An offset lies in [lo, hi). -/
def within (lo hi o : Nat) : Bool := decide (lo ≤ o) && decide (o < hi)

/-- Fields of a page kept through a function that resets the rest. -/
def keepFields (s : State) (p : Nat) (fs : List Fld) (f : State → State) : State :=
  let vs := fs.map (fun x => (x, s.get p x))
  vs.foldl (fun (s : State) (x : Fld × Nat) => s.set p x.1 x.2) (f s)

/-- Registers that outlive a block reset of their page: the fault settings of the header, shadow-buffered tables, stored
data, and status of parts that the reset does not reach (R444, R476). -/
def keptReg (t o : Nat) : Bool :=
  within 0x010 0x020 o ||
    (if t = T.tbs then within 0x100 0x104 o || within 0x108 0x110 o || within 0x128 0x138 o ||
        (within 0x140 0x1C0 o && (o % 0x20 == 0x10 || o % 0x20 == 0x14))
     else if t = T.chn then within 0x118 0x11C o
     else if t = T.spr then within 0x120 0x130 o
     else if t = T.eye then within 0xA00 0xE00 o
     else if t = T.dds then within 0x138 0x13C o
     else if t = T.mem then within 0x120 0x15C o || within 0x180 0x1C0 o || within 0x1C4 0x1C8 o
     else if t = T.xbr then within 0x400 0xC00 o
     else if t = T.ptp then within 0x110 0x128 o
     else if t = T.thm then within 0x10C 0x1A0 o
     else if t = T.cal then within 0x110 0x114 o
     else false)

/-- Fields that outlive it in registers that do not. -/
def keptFlds (t : Nat) : List Fld :=
  if t = T.tbs then [F.TBS_LACE_STS_ALIGN_SEQ, F.TBS_LACE_STS_REFUSE_WHY]
  else if t = T.chn then [F.CHN_STS_TAKEN, F.CHN_STS_PARKED, F.CHN_STS_ABSORBED]
  else if t = T.spr then [F.SPR_STS_STATE, F.SPR_STS_FOR_CH]
  else if t = T.eye then [F.EYE_SEQ_STS_STATE]
  else if t = T.ane then [F.ANE_STS_STATE, F.ANE_UC_STS_VENDOR_VALID]
  else if t = T.sch then [F.SCH_STS_NO_CORE]
  else if t = T.lst then [F.LST_STS_STATE]
  else if t = T.mem then [F.MEM_STS_SR_STATE]
  else if t = T.eth then [F.ETH_STS_LINK, F.ETH_STS_BLOCK_LOCK]
  else if t = T.ptp then [F.PTP_STS_VALID]
  else if t = T.cal then [F.CAL_STS_USER_OK, F.CAL_STS_COPY, F.CAL_STS_SETTLED]
  else []

/-! ## What a block reset ends -/

/-- An absorbed channel reads MODE 2, ABSORBED 1 and the SITE of its partner (R93). -/
def pairSync (s : State) (c : Nat) : State :=
  let e := c / 2 * 2
  let p := pg T.chn e
  let q := pg T.chn (e + 1)
  if s.get p F.CHN_CTL_MODE = 2 then
    (((s.set q F.CHN_CTL_MODE 2).set q F.CHN_CTL_SITE (s.get p F.CHN_CTL_SITE)).put q F.CHN_STS_ABSORBED true)
  else if s.flag q F.CHN_STS_ABSORBED then (s.set q F.CHN_CTL_MODE 0).put q F.CHN_STS_ABSORBED false
  else s

/-- A channel moves to park state 0, which it holds while its ENABLE is 0, and leaves the run of its group (R74, R94). -/
def chanOff (s : State) (c : Nat) : State := (s.parkNow c 0).chanLeave c

/-- BURSTs that use an eyelet complete with ABORTED for its sites. -/
def burstsAbort (s : State) (e : Nat) (sites : List Nat) : State :=
  match s.groupOf e with
  | none => s
  | some g => s.burstFail g 0x02 sites.contains

/-- A memory that a march leaves half done holds values nothing fixes. -/
def marchBlur (s : State) (q : Nat) : State :=
  if (s.aneOf q).tgt = 1 then
    (List.range 65536).foldl (fun (s : State) i =>
      let (f, s) := s.fresh
      { s with ucode := tabPut 0 s.ucode ((q * 16384 + 8192) * 8 + i) (BitVec.ofNat 32 f) }) s
  else
    (List.range 262144).foldl (fun (s : State) i =>
      let (f, s) := s.fresh
      { s with spad := tabPut 0 s.spad (q * 2 ^ 18 + i) (BitVec.ofNat 32 f) }) s

/-- An analysis engine is reset: its jobs end with ABORTED; an OFFLINE engine stays so (R284). -/
def aneReset (s : State) (q : Nat) : State :=
  let st := s.aneState q
  let s := if s.aneBusy q then s.aneEnd q 5 else s
  let s := ((s.aneOf q).jobq.filterMap (·.2)).foldl (fun s i => s.finish i 0x25 0) s
  let s := if st = 5 then s.marchBlur q else s
  let d := s.aneOf q
  (s.setAne q { badTgt := d.badTgt }).setAneState q (if d.badTgt.isEmpty then 4 else 6)

/-- The scheduler is reset: every ticket that is not complete completes with ABORTED; counters return to 0. -/
def schReset (s : State) : State :=
  let s := (s.sch.tickets.map (·.slot)).foldl (fun s i =>
    match s.ticketAt i with
    | some k => if k.isComplete then s else s.abortTicket 0x02 i
    | none => s) s
  { s with sch := { s.sch with submit := [], ctr := [], trace := [], traceLost := 0, traceHi := 0, traceEnd := 0 } }

/-- The work of a block ends. -/
def blockEnd (s : State) (p : Nat) : State :=
  let t := p / 256
  let i := p % 256
  if t = T.tbs then s.laceStop
  else if t = T.chn then (s.burstsAbort (i / 16) [s.siteOfCh i]).chanOff i
  else if t = T.spr then
    let d := s.sprOf i
    let s := s.setSpr i { was := d.was, take := d.take, heelT := d.heelT }
    if s.get p F.SPR_STS_STATE = 1 then s.set p F.SPR_STS_STATE 0 else s
  else if t = T.eye then
    let s := (s.leaveGroup i 0x02)
    let s := (List.range 16).foldl (fun s k => s.parkCh (16 * i + k)) s
    let d := s.eyeOf i
    s.setEye i { vecs := d.vecs, flogQ := d.flogQ, flogLost := d.flogLost, flogLostPos := d.flogLostPos,
                 ringLost := d.ringLost, ringLostPos := d.ringLostPos, flogAround := d.flogAround,
                 flogLinger := d.flogLinger }
  else if t = T.dds then ((s.clockChans i).foldl parkCh (s.ddsEnd i)).setDds i {}
  else if t = T.cmp then
    let s := s.burstsAbort i (s.sitesOf [i])
    let s := (List.range 16).foldl (fun s k => s.setChan (16 * i + k) { s.chanOf (16 * i + k) with win := none }) s
    let s := s.setEye i { s.eyeOf i with vecs := [], flogQ := [], flogLost := 0, flogLostPos := [], ringLost := 0,
                                         ringLostPos := [], flogAround := false }
    if i = 0 then (List.range 128).foldl (fun s k => s.setSite k { s.siteOf k with cnt := 0, firstFail := 0, final := false }) s else s
  else if t = T.tdc then
    let s := (s.sch.tickets.filter (fun k => k.core.isSome && s.measures k i &&
        (List.range 4).any (fun u => (s.iuOf (4 * i + u)).owner.any (fun o => o.1 == k.slot)))).foldl
      (fun s k => s.finish k.slot 0x02 0) s
    let s := (List.range 4).foldl (fun s u => s.setIu (4 * i + u) {}) s
    (List.range 16).foldl (fun s k =>
      let d := s.awlOf (16 * i + k)
      s.setAwl (16 * i + k) { lastH := d.lastH, lastL := d.lastL }) s
  else if t = T.trg then s.setTrg i { lvl := ((s.rawAll i).trgOf i).lvl }
  else if t = T.ane then s.aneReset i
  else if t = T.sch then s.schReset
  else if t = T.lst then s.coreFail i
  else if t = T.mem then
    let d := s.xbrOf i
    let s := s.setXbr i { d with queue := [], issued := [], kept := [], rows := [], debt := [], nbr := [], repair := none }
    (List.range 256).foldl (fun (s : State) k =>
      { s with memDly := tabPut (if s.dlyFac then Config.factoryDly (i * 256 + k) else 0) s.memDly (i * 256 + k) 0 }) s
  else if t = T.xbr then s.setXbr i { s.xbrOf i with ready := [], wait := [], forced := [], grants := 0 }
  else if t = T.wlt then
    let s := s.wltDrop i
    let s := s.setWlt i {}
    if i = 0 then { s with wq := [] } else s
  else if t = T.ptp then
    let s := (List.range 4).foldl (fun s g => s.pgStop g) s.ptpSync
    { s with ptp := { s.ptp with rem := 0, pgs := [] } }
  else if t = T.cal then { s with flash := { s.flash with save := none } }
  else if t = T.evq then s.evq.ring.foldl ackSlot { s with evq := { s.evq with ring := [], hold := [] } }
  else s

/-- What is set once the registers of a page have returned to their reset values. -/
def blockAfter (s : State) (p : Nat) (trim : W32) : State :=
  let t := p / 256
  let i := p % 256
  if t = T.tbs then
    (if trim = 0 then s else { s with held := tabPut 0 s.held (rkey p 0x114) trim })
  else if t = T.chn then s.pairSync i
  else if t = T.evq then s.evqSync
  else if t = T.sch then s.schSync
  else s

/-- A block reset: the block's work ends, its registers return to their reset values, BUSY reads 1 (R444). -/
def blockReset (s : State) (p : Nat) : State :=
  if !pagePresent p || !resettable (p / 256) then s
  else
    let t := p / 256
    let trim := s.eff p 0x114
    let s := (s.blockEnd p).keepFields p (keptFlds t) (fun s => s.regsReset p (keptReg t))
    let s := (s.blockAfter p trim).put p F.PG_STS_BUSY true
    if s.resetting.contains p then s else { s with resetting := s.resetting ++ [p] }

/-- The block reset of a page is complete. A last core whose self-test passes (`ok`) returns to service (R303). -/
def blockResetDone (s : State) (p : Nat) (ok : Bool) : State :=
  if !s.resetting.contains p then s
  else
    let s := { s with resetting := s.resetting.filter (· != p) }.put p F.PG_STS_BUSY false
    if p / 256 = T.lst ∧ ok then
      (s.set p F.LST_STS_STATE (if s.askMode then 2 else 0)).put schPg F.SCH_STS_NO_CORE false
    else s

/-! ## ENABLE (R441, R442) -/

/-- A channel is enabled: CLEAN_T counts from now, and a clock channel of a unit that runs carries its output at once (R170;
DEDUCED, log 153). -/
def chanOn (s : State) (c : Nat) : State :=
  let e := c / 16
  let s := s.setChan c { s.chanOf c with clean := s.nowQ (c / 64) }
  if s.clockCh c && (s.ddsOf e).on then s.clockJoin e (s.ddsOf e).level c else s

/-- The streams of an eyelet start anew: read pointers at 0 and in force, and no level at its watermark (R217, R223). -/
def streamsOn (s : State) (e : Nat) : State :=
  let p := pg T.tdc e
  let s := (List.range 32).foldl (fun s k => s.wr p (0x200 + 4 * k) 0) (s.inForceRange p 0x200 0x280)
  (List.range 16).foldl (fun s k => s.ringMark (16 * e + k) false) s

/-- ENABLE of a page has changed. -/
def pageEnable (s : State) (p : Nat) (on : Bool) : State :=
  let t := p / 256
  let i := p % 256
  if t = T.chn then (if on then s.chanOn i else s.chanOff i)
  else if t = T.spr then
    let st := s.get p F.SPR_STS_STATE
    let s := s.setSpr i { s.sprOf i with on := false }
    let s := if on then s.cleanStart i else s
    if 2 ≤ st then s else s.set p F.SPR_STS_STATE (b2n (on && decide (3 ≤ s.stage)))
  else if t = T.tdc ∧ on then s.streamsOn i
  else if t = T.wlt then s.wltEnable i on
  else s

/-- A write of ENABLE that its page refuses: an Ethernet ring of no descriptors. -/
def enableBad (s : State) (p : Nat) (v : W32) : Bool :=
  p / 256 == T.eth && v.getLsbD 0 && !s.enabled p &&
    (s.get p F.ETH_TXR_SIZE_SIZE16 == 0 || s.get p F.ETH_RXR_SIZE_SIZE16 == 0)

/-- A write to PG_CTL (R440 to R446). -/
def pgCtlWrite (s : State) (p : Nat) (v : W32) : State :=
  if !pagePresent p then s
  else if v.getLsbD 1 && resettable (p / 256) then s.blockReset p
  else
    let v := if resettable (p / 256) then v else v ||| 1
    let was := s.enabled p
    let s := (writeAt s p 0x008 v (s.enableBad p v)).1
    let now := s.enabled p
    if was = now then s else (s.pageEnable p now).idleForce p

/-! ## Commits (R21, R36, R447) -/

/-- A write to PG_COMMIT. -/
def pgCommit (s : State) (p : Nat) (v : W32) : State :=
  if !pagePresent p || !hasShadow (p / 256) || !v.getLsbD 0 then s
  else if s.locked p then s.refuse p 0x020
  else
    let s := s.put p F.PG_STS_COMMIT_PEND true
    if p = glbPg then { s with segPend := (s.segPend ++ s.segSelected).eraseDups } else s

/-- The eyelet's group runs, so its boundaries are those of its vectors. -/
def commitWaits (s : State) (p : Nat) : Bool :=
  let t := p / 256
  if t = T.chn then s.chEnabled (p % 256) && (s.groupOf (p % 256 / 16)).any (fun g => g.st == .running)
  else if t = T.eye then (s.groupOf (p % 256)).any (fun g => g.st == .running)
  else if t = T.dds then s.get p F.DDS_STS_STATE != 0
  else false

/-- A pending commit reaches a boundary that is not one of a running group or unit. -/
def tableCommit (s : State) (p : Nat) : State :=
  if !s.flag p F.PG_STS_COMMIT_PEND || s.commitWaits p then s
  else
    let t := p / 256
    let i := p % 256
    if t = T.glb then s.segCommit
    else if t = T.chn then s.wftCommit i
    else if t = T.eye then s.dmapCommit i
    else if t = T.dds then s.ddsCommit i
    else if t = T.mem then s.scrCommit i
    else if t = T.xbr then
      -- the table wrap, where the slots turn (R36, R37)
      (if s.enabled p && s.tlOn then s.upTo ((s.now + 4194303) / 4194304 * 4194304) else s).slotCommit i
    else if t = T.cal then s.calCommit
    else s

/-- The copy of a newly live table into its shadow copy completes. -/
def copyDone (s : State) (p : Nat) : State :=
  if s.resetting.contains p || !s.flag p F.PG_STS_BUSY then s
  else
    let s := s.put p F.PG_STS_BUSY false
    let t := p / 256
    if t = T.glb then { s with segCopy := [] }.put p F.GLB_SEG_STS_SEG_BUSY false
    else if t = T.chn then s.put p F.CHN_STS_SHADOW_BUSY false
    else if t = T.xbr then s.put p F.XBR_STS_SHADOW_BUSY false
    else if t = T.cal then s.put p F.CAL_STS_COPY_BUSY false
    else s

end State

end Sys2Proof.Machine
end

