-- ==== Sys2Proof/Machine/Collector.lean ====
section
/-!
DEFINITION. The fault collector: what it does with the sources that a command has made rise, clears, and heel exit
(R409 to R425).
-/
namespace Sys2Proof.Machine

open Sys2Proof

namespace State

/-! ## Rises (R411 to R414) -/

/-- A source is masked. -/
def srcMasked (s : State) (p b : Nat) : Bool := (s.rd p 0x014).getLsbD b

/-- Reactions that a rise of a source takes, in the bit order of RXN. -/
def srcRxn (s : State) (p b : Nat) : Nat :=
  let f := (srcOf p b).fixed
  if s.srcMasked p b then f else s.rxn p b ||| f

/-- The heel of the sources that own their entry (STOP, TRIP, HBM_STOP, PWR_FAIL) is taken where they arise. -/
def ownHeel (p b : Nat) : Bool :=
  (p == thmPg && (b == X.THM_STOP || b == X.THM_TRIP || b == X.THM_HBM_STOP)) || (p == fltPg && b == X.FLT_PWR_FAIL)

/-- HEEL of a source (R416). -/
def rxnHeel (c p : Nat) (s : State) (b : Nat) : State :=
  if (s.srcRxn p b).testBit 5 && !ownHeel p b then s.enterHeel (if eyeScope (p / 256) then pageEye p else 31) p b c else s

/-- FAULT_N of a source. -/
def rxnFault (p : Nat) (s : State) (b : Nat) : State :=
  if (s.srcRxn p b).testBit 4 then
    { s with flt := { s.flt with faultN := s.flt.faultN ++ [(p, b)] } }.faultSync
  else s

/-- The log record of a rise, and the trap that is due for it. -/
def rxnLog (p : Nat) (s : State) (b : Nat) : State :=
  let rx := s.srcRxn p b
  let n := s.flt.seq
  let s := s.logPush (s.logRec 1 p b (s.cls p b) rx (s.srcMasked p b))
  if rx.testBit 1 then { s with flt := { s.flt with traps := s.flt.traps ++ [BitVec.ofNat 32 n] } } else s

/-- The FAULT entry of a page and its interrupt. -/
def rxnEntry (p : Nat) (bs : List Nat) (s : State) : State :=
  let open_ := bs.filter (fun b => !s.srcMasked p b)
  if open_.isEmpty then s
  else
    let cls := (open_.map (s.cls p)).foldl max 0
    let int := open_.any (fun b => (s.srcRxn p b).testBit 0)
    let w6 := open_.foldl setBit 0
    let s := s.evPush (s.evWords (if cls = 2 then 0 else if cls = 1 then 1 else 3) 0x20 (BitVec.ofNat 32 (p * 4096)) (BitVec.ofNat 32 w6) 0) none
    if int then s.msi (pageVector p) else s

/-- The BLOCK_RESET reaction of a page (R411). On a page of an eyelet whose group plays vectors the channels that it parks park at
once, and the reset acts at the group's next vector boundary (R28); elsewhere it acts at once. -/
def rxnReset (s : State) (p : Nat) : State :=
  let t := p / 256
  let i := p % 256
  match (if eyeScope t then s.groupOf (pageEye p) else none) with
  | none => s.blockReset p
  | some g =>
    if g.st == .running && g.begun then
      let cs := if t = T.chn then [i] else if t = T.eye then (List.range 16).map (16 * i + ·)
        else if t = T.dds then s.clockChans i else []
      let s := cs.foldl parkCh s
      { s with flt := { s.flt with resetDue := s.flt.resetDue ++ [(p, g.at_)] } }
    else s.blockReset p

/-- Block resets whose vector boundary has come, or whose group has ended, act. -/
def resetsDue (s : State) : State :=
  let due (x : Nat × Nat) : Bool := match s.groupOf (pageEye x.1) with
    | some g => g.st != .running || g.at_ != x.2 || decide (x.2 ≤ s.nowQ (pageEye x.1 / 4))
    | none => true
  let now := s.flt.resetDue.filter due
  now.foldl (fun s x => s.blockReset x.1) { s with flt := { s.flt with resetDue := s.flt.resetDue.filter (fun x => !due x) } }

/-- The rises of one page are handled in the order of R414; `c`: the cause status. -/
def pageRise (rs : List (Nat × Nat)) (c : Nat) (s : State) (p : Nat) : State :=
  let bs := (List.range 32).filter (fun b => rs.contains (p, b))
  let rx := bs.map (s.srcRxn p)
  let s := bs.foldl (rxnHeel c p) s
  let s := bs.foldl (rxnFault p) s
  let s := (bs.foldl (rxnLog p) s).logRoom
  let s := rxnEntry p bs s
  let s := if rx.any (·.testBit 2) then s.rxnReset p else s
  if rx.any (·.testBit 3) then { s with flt := { s.flt with chipDue := true, chipT := s.mono } } else s

/-- Pages of rises, ascending. -/
def risePages (rs : List (Nat × Nat)) : List Nat := ((rs.map Prod.fst).mergeSort (fun a b => decide (a ≤ b))).eraseDups

/-- C of a set of rises: PWR_FAIL before THERMAL before HEEL (R426). -/
def riseC (rs : List (Nat × Nat)) : Nat :=
  if rs.any (fun r => r.1 == fltPg && r.2 == X.FLT_PWR_FAIL) then 0x35
  else if rs.any (fun r => r.1 == thmPg && ownHeel r.1 r.2) then 0x34
  else 0x14

/-- The sources that have risen are handled. -/
def riseRound (s : State) : State :=
  let rs := s.flt.rises
  (risePages rs).foldl (pageRise rs (riseC rs)) { s with flt := { s.flt with rises := [] } }

/-- Rises, and those that handling them makes, up to a bound. -/
def riseRounds (s : State) : Nat → State
  | 0 => s
  | n + 1 => if s.flt.rises.isEmpty then s else s.riseRound.riseRounds n

/-- What follows a command in the same core cycle: orderly stops that have come to their end, block resets whose boundary has
come, and every rise. -/
def settle (s : State) : State := s.stopCheck.resetsDue.riseRounds 8

/-! ## Causes and clears (R420) -/

/-- The cause of a source that its chapter names persistent lasts. -/
def causeHolds (s : State) (p b : Nat) : Bool :=
  let t := p / 256
  let i := p % 256
  if t = T.tbs then
    (b == X.TBS_REF_LOSS && s.holdover) || (b == X.TBS_REF_LONG && s.holdover) ||
      (decide (X.TBS_PLL_UNLOCK ≤ b ∧ b < X.TBS_PLL_UNLOCK + 4) &&
        !(s.get tbsPg F.TBS_REF_STS_QPLL_LOCK).testBit (b - X.TBS_PLL_UNLOCK)) ||
      (decide (X.TBS_TRACK_LOST ≤ b ∧ b < X.TBS_TRACK_LOST + 4) && s.trackState (b - X.TBS_TRACK_LOST) == 3)
  else if t = T.spr then b == X.SPR_SECOND_FAULT
  else if t = T.sch then b == X.SCH_NO_CORE && s.flag schPg F.SCH_STS_NO_CORE
  else if t = T.lst then b == X.LST_LST_FAULT && s.coreState i == 3
  else if t = T.ane then b == X.ANE_MARCH_FAIL && s.aneState i == 6
  else if t = T.pci then b == X.PCI_LINK_DOWN && !s.pci.linkUp
  else if t = T.wlt then b == X.WLT_LINK_DOWN && !s.wltUp i
  else if t = T.eth then b == X.ETH_LINK_DOWN && !s.flag p F.ETH_STS_LINK
  else if t = T.mem then
    (b == X.MEM_STACK_FAIL && (s.xbrOf i).dead) ||
      (b == X.MEM_REPAIR_FULL && (List.range 16).all (fun j => fget (s.rd p (0x180 + 4 * j)) 25 25 != 0))
  else if t = T.flt then b == X.FLT_PWR_FAIL && s.flag fltPg F.FLT_STS_PWR_FAIL
  else if t = T.thm then
    (b == X.THM_WARN && s.anyWarn 0 24) || (b == X.THM_STOP && s.anyStop 0 24) || b == X.THM_TRIP ||
      (b == X.THM_SENSOR_BAD && s.get thmPg F.THM_BAD_BAD != 0) ||
      (b == X.THM_HBM_WARN && s.anyWarn 24 26) || (b == X.THM_HBM_STOP && s.anyStop 24 26)
  else if t = T.cal then
    (b == X.CAL_EXTRAP && s.get calPg F.CAL_TEMP_STS_EXTRAP != 0) ||
      (b == X.CAL_SENSOR_HOLD && s.get calPg F.CAL_TEMP_STS_SENSOR_HOLD != 0)
  else if t = T.glb then b == X.GLB_BIST_EYE || b == X.GLB_BIST_CORE
  else if t = T.sec then b == X.SEC_COPY_BAD || b == X.SEC_RECOVERY || b == X.SEC_INTEG_BAD
  else false

/-- A write of 1 to a PG_FLT bit that is 1. -/
def clearOne (p : Nat) (s : State) (b : Nat) : State :=
  if s.causeHolds p b then
    let s := (s.put fltPg F.FLT_STS_CLR_REFUSED true).set fltPg F.FLT_CLR_OFS_BIT b
    let s := s.set fltPg F.FLT_CLR_OFS_PAGE p
    s.logPush (s.logRec 3 p b (s.cls p b) 0 false)
  else
    let s := s.wr p 0x010 (s.rd p 0x010 &&& ~~~(BitVec.ofNat 32 (1 <<< b)))
    let s : State := { s with flt := { s.flt with faultN := s.flt.faultN.filter (· != (p, b)) } }
    s.faultSync.logPush (s.logRec 2 p b (s.cls p b) 0 false)

/-- A write to PG_FLT. -/
def fltClear (s : State) (p : Nat) (v : W32) : State :=
  if !pagePresent p then s
  else ((List.range 32).filter (fun b => v.getLsbD b && s.fltBit p b)).foldl (clearOne p) s

/-! ## PG_FLT_CLASS and PG_FLT_RXN (R410) -/

/-- A page has the source. -/
def hasSrc (p b : Nat) : Bool := (fltSrcs (p / 256)).any (fun x => x.bit == b)

/-- A write to PG_FLT_CLASS: with WR, CLASS is applied to source SRC; 3 is refused. -/
def clsWrite (s : State) (p : Nat) (v : W32) : State :=
  if !pagePresent p then s
  else
    let w := v.getLsbD 31
    let b := fget v 4 0
    let c := fget v 9 8
    if w && (c == 3 || (s.locked p && s.cls p b != c)) then s.refuse p 0x018
    else if s.locked p && s.get p F.PG_FLT_CLASS_SRC != b then s.refuse p 0x018
    else
      let s := s.set p F.PG_FLT_CLASS_SRC b
      if w && hasSrc p b then { s with flt := { s.flt with cls := tabPut (srcOf p b).cls s.flt.cls (p * 32 + b) c } } else s

/-- A write to PG_FLT_RXN: a 0 for a fixed reaction is ignored. -/
def rxnWrite (s : State) (p : Nat) (v : W32) : State :=
  if !pagePresent p then s
  else
    let w := v.getLsbD 31
    let b := fget v 4 0
    let c := fget v 13 8
    if s.locked p && (s.get p F.PG_FLT_RXN_SRC != b || (w && (s.rxn p b ||| (srcOf p b).fixed) != (c ||| (srcOf p b).fixed))) then
      s.refuse p 0x01C
    else
      let s := s.set p F.PG_FLT_RXN_SRC b
      if w && hasSrc p b then
        { s with flt := { s.flt with rxn := tabPut (srcOf p b).rxn s.flt.rxn (p * 32 + b) (c ||| (srcOf p b).fixed) } }
      else s

/-- What PG_FLT_CLASS and PG_FLT_RXN read. -/
def clsRead (s : State) (p : Nat) : W32 :=
  let b := s.get p F.PG_FLT_CLASS_SRC
  BitVec.ofNat 32 (b + (if hasSrc p b then s.cls p b else 0) * 2 ^ 8)

def rxnRead (s : State) (p : Nat) : W32 :=
  let b := s.get p F.PG_FLT_RXN_SRC
  BitVec.ofNat 32 (b + (if hasSrc p b then (s.rxn p b ||| (srcOf p b).fixed) * 2 ^ 8 + (srcOf p b).fixed * 2 ^ 16 else 0))

/-! ## The log and the traps (R411, R419) -/

/-- A read of FLT_LOG0: the oldest record goes to the hold; one that was corrupted in the log carries POISON (R221, R418). -/
def logPop (s : State) (bad : Bool) : State × W32 :=
  match s.flt.log with
  | [] => ({ s with flt := { s.flt with logHold := [] } }, 0)
  | r :: l =>
    let s := if bad then s.parityErr fltPg 1 else s
    let r := if bad then r.set 3 (r.getD 3 0 ||| 0x20000) else r
    let s : State := { s with flt := { s.flt with log := l, logHold := r } }
    ((s.set fltPg F.FLT_LOG_STS_DEPTH l.length).logRoom, r.getD 0 0)

/-- The trap handler writes the diagnostic words of the oldest trap due into its record, if it is still in the log. -/
def trapDone (s : State) (d0 d1 : W32) : State :=
  match s.flt.traps with
  | [] => s
  | n :: r =>
    { s with flt := { s.flt with traps := r, log := s.flt.log.map (fun x =>
      if x.getD 4 0 = n ∧ fget (x.getD 3 0) 16 14 = 1 then (x.set 5 d0).set 6 d1 else x) } }

/-- The chip reset of the fault reaction takes place once it is due. -/
def faultChipReset (s : State) : State :=
  if s.flt.chipDue then s.chipReset (s.flag glbPg F.GLB_RST_KEEP_HBM) 3 else s

/-! ## Leaving heel (R425) -/

/-- Heel of a scope may be left: no cause that only a reset ends, and no bit that caused it at 1. -/
def mayLeave (s : State) (scope : Nat) : Bool :=
  (s.flt.heels.filter (fun h => h.scope == scope)).all (fun h =>
    h.src < 32 && !(h.page / 256 == T.spr && h.src == X.SPR_SECOND_FAULT) && !(h.page == thmPg && h.src == X.THM_TRIP) &&
      !(h.page == glbPg && (h.src == X.GLB_BIST_EYE || h.src == X.GLB_BIST_CORE)) &&
      !s.fltBit h.page h.src && !s.causeHolds h.page h.src)

def leaveRefused (s : State) : State := s.put fltPg F.FLT_STS_LEAVE_REFUSED true

/-- LEAVE_EYE of an eyelet. -/
def leaveEye (s : State) (e : Nat) : State :=
  if !s.eyeHeel e then s
  else if s.devHeel || !s.mayLeave e then s.leaveRefused
  else
    let s : State := { s with flt := { s.flt with heels := s.flt.heels.filter (fun h => h.scope != e) } }
    let s := s.set fltPg F.FLT_STS_EYE_HEEL (clearBit (s.get fltPg F.FLT_STS_EYE_HEEL) e)
    (s.heelRec 5 e).eyeHeelLeave e

/-- LEAVE_DEV: the firmware begins with DISPATCH 1. -/
def leaveDev (s : State) : State :=
  if !s.devHeel || s.flt.leaving then s
  else if !s.mayLeave 31 then s.leaveRefused
  else
    let s : State := { s with flt := { s.flt with leaving := true } }
    (s.put schPg F.SCH_MODE_DISPATCH true).dispatchSwitch

/-- A write to FLT_HEEL_CTL. -/
def heelCtl (s : State) (v : W32) : State :=
  let s := if v.getLsbD 0 then s.leaveDev else s
  (List.range 16).foldl (fun s e => if v.getLsbD (16 + e) then s.leaveEye e else s) s

/-- The firmware has come to the end of leaving device heel; `bad`: last cores whose self-test fails. -/
def heelLeaveDone (s : State) (bad : W32) : State :=
  if !s.flt.leaving then s
  else
    let s : State := { s with flt := { s.flt with leaving := false } }
    if !s.flag tbsPg F.TBS_REF_STS_REF_PRESENT || !s.pllsLocked || s.holdover || !s.mayLeave 31 then
      s.leaveRefused.dispatchOff
    else
      let s := (List.range 32).foldl (fun s n => if bad.getLsbD n && s.coreState n != 3 then s.coreFail n else s) s
      let own := fun (e : Nat) => s.flt.heels.any (fun h => h.scope == e)
      let stay := (List.range 16).filter own
      let s : State := { s with flt := { s.flt with heels := s.flt.heels.filter (fun h => h.scope != 31) } }
      let s := ((s.put fltPg F.FLT_STS_DEV_HEEL false).set fltPg F.FLT_STS_DEV_CAUSE 0).set fltPg F.FLT_STS_EYE_HEEL (stay.foldl setBit 0)
      let s := if 3 ≤ s.stage then (s.set (memPg 0) F.MEM_STS_SR_STATE 0).set (memPg 1) F.MEM_STS_SR_STATE 0 else s
      let s := s.fallTo (max 2 s.holdAt)
      let s := (List.range 16).foldl (fun s e => if stay.contains e then s else s.eyeHeelLeave e) s
      (s.dispatchOff.heelRec 5 31).faultSync

end State

/-- The outcome of a command. -/
def done (s : State) : Host.Outcome State Fault Refusal := .next s.settle

end Sys2Proof.Machine
end

