-- ==== Sys2Proof/Machine/AneCmds.lean ====
section
/-!
DEFINITION. Commands of the analysis engines (R256 to R284) and of the BAR4 windows (R342, R450). The commands of one
microcode word are sent in the order load, store, lane operation, sequencer operation; a command that is not the turn
of the word in hand changes nothing.
-/
namespace Sys2Proof.Machine

open Sys2Proof


/-- ANE_JOB_TAKE (R279); `bad`: words of the descriptor found corrupted in the queue. -/
def execAneJobTake (q : Quad) (bad : BitVec 16) (s : State) : Host.Outcome State Fault Refusal :=
  done (s.aneTake q.val bad)

/-- ANE_XFER_DONE (R278): the oldest transfer is complete; `w`: cycles it waited for banks (R272). -/
def execAneXferDone (q : Quad) (w : Nat) (s : State) : Host.Outcome State Fault Refusal :=
  done (s.xferDone q.val w)

/-- ANE_NEXT (R262). -/
def execAneNext (q : Quad) (s : State) : Host.Outcome State Fault Refusal :=
  done (s.aneSeq q.val 0 (fun s pc _ _ => s.aneNext q.val pc))

/-- ANE_JUMP (R262). -/
def execAneJump (q : Quad) (s : State) : Host.Outcome State Fault Refusal :=
  done (s.aneSeq q.val 1 (fun s _ t _ => s.aneGo q.val t (State.keepBlocks (s.aneOf q.val).stack t)))

/-- ANE_BLOCK (R262). -/
def execAneBlock (q : Quad) (s : State) : Host.Outcome State Fault Refusal :=
  let k := fget (s.ucur q.val 0) 31 30
  done (s.aneSeq q.val 2 (fun s pc t arg => s.aneBlock q.val pc t arg k))

/-- ANE_BRANCH (R262). -/
def execAneBranch (q : Quad) (s : State) : Host.Outcome State Fault Refusal :=
  done (s.aneSeq q.val 3 (fun s pc t arg => (let (s, hit) := s.aneCond q.val (arg % 16)
    if hit then s.aneGo q.val t (State.keepBlocks (s.aneOf q.val).stack t) else s.aneNext q.val pc)))

/-- ANE_CALL (R262). -/
def execAneCall (q : Quad) (s : State) : Host.Outcome State Fault Refusal :=
  done (s.aneSeq q.val 4 (fun s pc t _ => (if 4 ≤ ((s.aneOf q.val).stack.filter (fun f => match f with | .call _ => true | .block .. => false)).length then s.aneEnd q.val 1
    else s.aneGo q.val t (.call (pc + 1) :: (s.aneOf q.val).stack))))

/-- ANE_RET (R262). -/
def execAneRet (q : Quad) (s : State) : Host.Outcome State Fault Refusal :=
  done (s.aneSeq q.val 5 (fun s _ _ _ => s.aneRet q.val))

/-- ANE_BEXP (R262). -/
def execAneBexp (q : Quad) (s : State) : Host.Outcome State Fault Refusal :=
  let d := s.aneOf q.val
  done (s.aneSeq q.val 6 (fun s pc _ _ => (s.aneBexp q.val d.bmax d.wb).aneNext q.val pc))

/-- ANE_LDP (R262). -/
def execAneLdp (q : Quad) (s : State) : Host.Outcome State Fault Refusal :=
  done (s.aneSeq q.val 7 (fun s pc t arg => (let (s, ok) := s.aneLdp q.val t (arg % 8)
    if ok then s.aneNext q.val pc else s.aneEnd q.val 1)))

/-- ANE_XFER (R262). -/
def execAneXfer (q : Quad) (s : State) : Host.Outcome State Fault Refusal :=
  done (s.aneSeq q.val 8 (fun s pc _ arg => ((let d := s.aneOf q.val
    match d.job with
    | some (w, _) => if arg % 4 < 3 ∧ xferWhen w (arg % 4) = 3 then s.setAne q.val { d with xfers := d.xfers ++ [arg % 4] } else s
    | none => s).aneNext q.val pc)))

/-- ANE_WAIT (R262): while the transfer is not complete it stalls for a cycle. -/
def execAneWait (q : Quad) (s : State) : Host.Outcome State Fault Refusal :=
  done (if (s.aneOf q.val).xfers.contains (fget (s.ucur q.val 0) 29 18 % 4) then
      (if s.seqTurn q.val 9 then s.aneStall q.val 1 else s)
    else s.aneSeq q.val 9 (fun s pc _ _ => s.aneNext q.val pc))

/-- ANE_DONE (R262). -/
def execAneDone (q : Quad) (s : State) : Host.Outcome State Fault Refusal :=
  done (s.aneSeq q.val 10 (fun s _ _ _ => s.aneDone q.val))

/-- ANE_SETK (R262). -/
def execAneSetk (q : Quad) (s : State) : Host.Outcome State Fault Refusal :=
  done (s.aneSeq q.val 11 (fun s pc t arg => (s.setAne q.val { s.aneOf q.val with k := tabPut 0 (s.aneOf q.val).k (arg % 4) t }).aneNext q.val pc))

/-- ANE_NOP (R258). -/
def execAneNop (q : Quad) (s : State) : Host.Outcome State Fault Refusal :=
  done (if s.laneTurn q.val 0 false false then s.laneDone q.val [] [] none 0 else s)

/-- ANE_MUL (R258). -/
def execAneMul (q : Quad) (s : State) : Host.Outcome State Fault Refusal :=
  done (s.laneAcc q.val 1 true true (fun l => State.prod16 (s.opA q.val l) (s.opB q.val l)))

/-- ANE_MAC (R258). -/
def execAneMac (q : Quad) (s : State) : Host.Outcome State Fault Refusal :=
  done (s.laneAcc q.val 2 true true (fun l => (State.accr (s.aneOf q.val) l).toInt + State.prod16 (s.opA q.val l) (s.opB q.val l)))

/-- ANE_MSU (R258). -/
def execAneMsu (q : Quad) (s : State) : Host.Outcome State Fault Refusal :=
  done (s.laneAcc q.val 3 true true (fun l => (State.accr (s.aneOf q.val) l).toInt - State.prod16 (s.opA q.val l) (s.opB q.val l)))

/-- ANE_CLRA (R258). -/
def execAneClra (q : Quad) (s : State) : Host.Outcome State Fault Refusal :=
  done (s.laneAcc q.val 4 false false (fun _ => 0))

/-- ANE_ADD (R258). -/
def execAneAdd (q : Quad) (s : State) : Host.Outcome State Fault Refusal :=
  done (s.laneDst q.val 6 true true (fun l => (s.opA q.val l).toInt + (s.opB q.val l).toInt))

/-- ANE_SUB (R258). -/
def execAneSub (q : Quad) (s : State) : Host.Outcome State Fault Refusal :=
  done (s.laneDst q.val 7 true true (fun l => (s.opA q.val l).toInt - (s.opB q.val l).toInt))

/-- ANE_ABS (R258). -/
def execAneAbs (q : Quad) (s : State) : Host.Outcome State Fault Refusal :=
  done (s.laneDst q.val 8 true false (fun l => ((s.opA q.val l).toInt.natAbs : Int)))

/-- ANE_MIN (R258). -/
def execAneMin (q : Quad) (s : State) : Host.Outcome State Fault Refusal :=
  done (s.laneDst q.val 9 true true (fun l => min (s.opA q.val l).toInt (s.opB q.val l).toInt))

/-- ANE_MAX (R258). -/
def execAneMax (q : Quad) (s : State) : Host.Outcome State Fault Refusal :=
  done (s.laneDst q.val 10 true true (fun l => max (s.opA q.val l).toInt (s.opB q.val l).toInt))

/-- ANE_AND (R258). -/
def execAneAnd (q : Quad) (s : State) : Host.Outcome State Fault Refusal :=
  done (s.laneDst q.val 11 true true (fun l => ((s.opA q.val l) &&& (s.opB q.val l)).toInt))

/-- ANE_OR (R258). -/
def execAneOr (q : Quad) (s : State) : Host.Outcome State Fault Refusal :=
  done (s.laneDst q.val 12 true true (fun l => ((s.opA q.val l) ||| (s.opB q.val l)).toInt))

/-- ANE_XOR (R258). -/
def execAneXor (q : Quad) (s : State) : Host.Outcome State Fault Refusal :=
  done (s.laneDst q.val 13 true true (fun l => ((s.opA q.val l) ^^^ (s.opB q.val l)).toInt))

/-- ANE_SHL (R258). -/
def execAneShl (q : Quad) (s : State) : Host.Outcome State Fault Refusal :=
  done (s.laneDst q.val 14 true true (fun l => (s.opA q.val l).toInt * 2 ^ ((s.opB q.val l).toNat % 64)))

/-- ANE_SHR (R258). -/
def execAneShr (q : Quad) (s : State) : Host.Outcome State Fault Refusal :=
  done (s.laneDst q.val 15 true true (fun l => (s.opA q.val l).toInt / 2 ^ ((s.opB q.val l).toNat % 64)))

/-- ANE_MOV (R258). -/
def execAneMov (q : Quad) (s : State) : Host.Outcome State Fault Refusal :=
  done (s.laneDst q.val 16 false true (fun l => (s.opB q.val l).toInt))

/-- ANE_GETB (R258). -/
def execAneGetb (q : Quad) (s : State) : Host.Outcome State Fault Refusal :=
  done (s.laneDst q.val 20 false false (fun _ => (s.get (anePg q.val) F.ANE_BEXP_SUM : Int)))

/-- ANE_LANE (R258). -/
def execAneLane (q : Quad) (s : State) : Host.Outcome State Fault Refusal :=
  done (s.laneDst q.val 21 false false (fun l => (l : Int)))

/-- ANE_MOVA (R260). -/
def execAneMova (q : Quad) (s : State) : Host.Outcome State Fault Refusal :=
  done (s.laneMova q.val)

/-- ANE_CGT (R258). -/
def execAneCgt (q : Quad) (s : State) : Host.Outcome State Fault Refusal :=
  done (s.laneCmp q.val 0x11 (fun l => decide ((s.opB q.val l).toInt < (s.opA q.val l).toInt)))

/-- ANE_CEQ (R258). -/
def execAneCeq (q : Quad) (s : State) : Host.Outcome State Fault Refusal :=
  done (s.laneCmp q.val 0x12 (fun l => (s.opA q.val l) == (s.opB q.val l)))

/-- ANE_RSUM (R258). -/
def execAneRsum (q : Quad) (s : State) : Host.Outcome State Fault Refusal :=
  done (s.laneRsum q.val)

/-- ANE_LD16 (R263); `w`: cycles the request waited for a bank. -/
def execAneLd16 (q : Quad) (w : Nat) (s : State) : Host.Outcome State Fault Refusal :=
  done (s.aneLoad q.val 1 false 2 (fun v x => toSigned 16 (State.halfOf v x)) w)

/-- ANE_LD32 (R263). -/
def execAneLd32 (q : Quad) (w : Nat) (s : State) : Host.Outcome State Fault Refusal :=
  done (s.aneLoad q.val 2 false 4 (fun v _ => v.toInt) w)

/-- ANE_LDB32 (R263). -/
def execAneLdb32 (q : Quad) (w : Nat) (s : State) : Host.Outcome State Fault Refusal :=
  done (s.aneLoad q.val 3 true 4 (fun v _ => v.toInt) w)

/-- ANE_LDU16 (R263). -/
def execAneLdu16 (q : Quad) (w : Nat) (s : State) : Host.Outcome State Fault Refusal :=
  done (s.aneLoad q.val 4 false 2 (fun v x => State.halfOf v x) w)

/-- ANE_LOAD_DATA (R263): the oldest load's data arrive; `n`: cycles that a word has stalled for them. -/
def execAneLoadData (q : Quad) (n : Nat) (s : State) : Host.Outcome State Fault Refusal :=
  done (s.aneArrive q.val n)

/-- ANE_ST16 (R273). -/
def execAneSt16 (q : Quad) (w : Nat) (s : State) : Host.Outcome State Fault Refusal := done (s.aneStore q.val 1 (State.putHalves q.val) w)

/-- ANE_ST32 (R273). -/
def execAneSt32 (q : Quad) (w : Nat) (s : State) : Host.Outcome State Fault Refusal := done (s.aneStore q.val 2 (State.putWords q.val) w)

/-- ANE_STA (R274). -/
def execAneSta (q : Quad) (w : Nat) (s : State) : Host.Outcome State Fault Refusal := done (s.aneStore q.val 3 (State.putSums q.val) w)

/-- ANE_BUDGET (R280, R281): the cycle count passes BUDGET. -/
def execAneBudget (q : Quad) (s : State) : Host.Outcome State Fault Refusal :=
  done (let b := 256 * fget (s.jobWord q.val 12) 23 0
    if s.aneState q.val = 2 ∧ b ≠ 0 then
      (s.set (anePg q.val) F.ANE_JOB_CYC_CYC (min (2 ^ 24 - 1) (max (s.get (anePg q.val) F.ANE_JOB_CYC_CYC) (b + 1)))).aneEnd q.val 4
    else s)

/-- ANE_ABORT (R281); `v`: the other bits of the write to ANE_CTL. -/
def execAneAbort (q : Quad) (v : W32) (s : State) : Host.Outcome State Fault Refusal :=
  done (s.onPage (anePg q.val) (fun s => s.aneCtl q.val (v ||| 2)))

/-- ANE_JOBQ_SUBMIT (R276): the write of word 15. -/
def execAneJobqSubmit (q : Quad) (v : W32) (s : State) : Host.Outcome State Fault Refusal :=
  done (s.onPage (anePg q.val) (fun s => s.jobqWrite q.val 15 v))

/-- MARCH_GO (R283); `v`: the other bits of the write to ANE_MARCH_CTL. -/
def execMarchGo (q : Quad) (v : W32) (s : State) : Host.Outcome State Fault Refusal :=
  done (s.onPage (anePg q.val) (fun s => s.marchCtl q.val (v ||| 1)))

/-- MARCH_DONE (R284): what the memory under test gave: banks or microcode store that failed, first address, difference. -/
def execMarchDone (q : Quad) (banks : W32) (uc : Bool) (a : BitVec 20) (x : W32) (s : State) : Host.Outcome State Fault Refusal :=
  done (s.marchDone q.val banks uc a.toNat x)

/-- SPAD_FETCHADD (R342) at a BAR4 offset; `w`: cycles the host's access waited for a bank (R272). -/
def execSpadFetchadd (a : BitVec 24) (v : W32) (ep : Bool) (w : Nat) (s : State) : Host.Outcome State Fault Refusal :=
  done (s.onLink true (fun s => (s.bar4Wait a.toNat w).bar4Atomic a.toNat false v ep))

/-- SPAD_SWAP (R342) at a BAR4 offset. -/
def execSpadSwap (a : BitVec 24) (v : W32) (ep : Bool) (w : Nat) (s : State) : Host.Outcome State Fault Refusal :=
  done (s.onLink true (fun s => (s.bar4Wait a.toNat w).bar4Atomic a.toNat true v ep))

/-- UNSUPPORTED_ATOMIC (R342). -/
def execUnsupportedAtomic (s : State) : Host.Outcome State Fault Refusal :=
  done (s.emit .ur)

/-- LAST_SPAD_ATOMIC (R274): core n, engine q, an aligned word; the core receives the old value. -/
def execLastSpadAtomic (n : Fin 32) (q : Quad) (a : BitVec 18) (swap : Bool) (v : W32) (w : Nat) (s : State) :
    Host.Outcome State Fault Refusal :=
  let (s, old, _) := (s.bankWait q.val 3 w).spadAtomic q.val (4 * a.toNat) swap v
  done (s.setCore n.val { s.coreOf n.val with got := old })

/-- BAR4_WRITE (R450): bytes from an offset on, none where the byte enable is off. -/
def execBar4Write (a : BitVec 24) (bs : List (Option Byte)) (ep : Bool) (w : Nat) (s : State) : Host.Outcome State Fault Refusal :=
  done (s.onLink false (fun s => (s.bar4Wait a.toNat w).bar4Write a.toNat bs ep))

/-- BAR4_READ (R450): `n` words from the word that holds an offset. -/
def execBar4Read (a : BitVec 24) (n w : Nat) (s : State) : Host.Outcome State Fault Refusal :=
  done (s.onLink true (fun s => (s.bar4Wait a.toNat w).bar4Read a.toNat n))

end Sys2Proof.Machine
end

