-- ==== Sys2Proof/Machine/AwlCmds.lean ====
section
/-!
DEFINITION. The meanings of the commands of the awls, the stamp streams and the interval units (R208 to R233).
-/
namespace Sys2Proof.Machine

open Sys2Proof

/-- CMP_TRANSITION (R208): `high`: CMPH, else CMPL; its new level at the ball; `t`: the instant, fraction units. -/
def execCmpTransition (c : Chan) (high level : Bool) (t : Nat) (s : State) : Host.Outcome State Fault Refusal :=
  done (s.cmpChange c.val high level t)

/-- STAMP_ARRIVAL (R212): the stamps of the least value on their way. -/
def execStampArrival (s : State) : Host.Outcome State Fault Refusal := done s.stampArrive

/-- STREAM_BURST_WRITE (R216); `bad`: words of the burst found corrupted. -/
def execStreamBurstWrite (c : Chan) (bad : BitVec 16) (s : State) : Host.Outcome State Fault Refusal :=
  done (s.streamBurst c.val bad.toNat)

/-- FLUSH (R222); `v`: the other bits of the write to TDC_CTL; `bad`: words found corrupted, by 64 k + place. -/
def execFlush (e : Eye) (v : W32) (bad : BitVec 1024) (s : State) : Host.Outcome State Fault Refusal :=
  done (s.onPage (pg T.tdc e.val) (fun s => s.tdcCtl e.val (v ||| 0x80000000) (fun k => bad.toNat / 2 ^ (64 * k) % 2 ^ 64)))

/-- GATE_OPEN (R225): `t`: the first UI of the run. -/
def execGateOpen (q : Quad) (t : Nat) (s : State) : Host.Outcome State Fault Refusal :=
  done (s.gateOpen q.val t)

/-- GATE_CLOSE (R225). -/
def execGateClose (q : Quad) (t : Nat) (s : State) : Host.Outcome State Fault Refusal :=
  done (s.gateClose q.val t)

/-- IU_ARM (R227); `v`: the other bits of the write to TDC_IU_CTL. -/
def execIuArm (e : Eye) (u : Fin 4) (v : W32) (s : State) : Host.Outcome State Fault Refusal :=
  done (s.onPage (pg T.tdc e.val) (fun s => s.iuCtl (4 * e.val + u.val) (v ||| 1)))

/-- IU_DISARM (R227). -/
def execIuDisarm (e : Eye) (u : Fin 4) (v : W32) (s : State) : Host.Outcome State Fault Refusal :=
  done (s.onPage (pg T.tdc e.val) (fun s => s.iuCtl (4 * e.val + u.val) (v ||| 2)))

/-- IU_TIMEOUT (R228). -/
def execIuTimeout (e : Eye) (u : Fin 4) (s : State) : Host.Outcome State Fault Refusal :=
  done (s.iuTimeout (4 * e.val + u.val))

/-- IU_GATE_END (R232). -/
def execIuGateEnd (e : Eye) (u : Fin 4) (s : State) : Host.Outcome State Fault Refusal :=
  done (s.iuGateEnd (4 * e.val + u.val))

/-- IU_RESULT_POP (R230): a read of TDC_IU_RES0; `bad`: the entry was corrupted in the queue. -/
def execIuResultPop (e : Eye) (u : Fin 4) (bad : Bool) (s : State) : Host.Outcome State Fault Refusal :=
  done (s.readPage (pg T.tdc e.val) (fun s => (if bad then s.iuPoison (4 * e.val + u.val) else s).iuPop (4 * e.val + u.val)))

end Sys2Proof.Machine
end

