-- ==== Sys2Proof/Machine/Bar0.lean ====
section
/-!
DEFINITION. BAR0: what a write to each register does and what a read of it returns (R15 to R19, R339, R345, R438 to R451).
-/
namespace Sys2Proof.Machine

open Sys2Proof

namespace State

/-! ## Writes with an effect of their own -/

/-- A write to the common header (R440 to R447): PG_CTL, PG_STS, PG_FLT, PG_FLT_CLASS, PG_FLT_RXN, PG_COMMIT. -/
def hdrWrite (s : State) (p o : Nat) (v : W32) : State :=
  if o = 0x008 then s.pgCtlWrite p v
  else if o = 0x00C then
    let s := (writeAt s p o v false).1
    if v.getLsbD 1 then s.set p F.PG_CFG_ERR_OFS_OFS 0 else s
  else if o = 0x010 then s.fltClear p v
  else if o = 0x018 then s.clsWrite p v
  else if o = 0x01C then s.rxnWrite p v
  else if o = 0x020 then s.pgCommit p v
  else (writeAt s p o v false).1

def glbWrite (s : State) (o : Nat) (v : W32) : State :=
  if o = 0x108 then s.rstWrite v
  else if o = 0x110 then s.killWrite v
  else s.writeReg glbPg o v false

def tbsWrite (s : State) (o : Nat) (v : W32) : State :=
  if o = 0x104 then s.writeReg tbsPg o v (fget v 1 0 == 3)
  else if o = 0x110 then s.laceCtl v
  else if o = 0x11C then s.laceTx v
  else if o = 0x138 then s.refcalCtl v
  else if within 0x140 0x1C0 o then s.trackWrite o v
  else s.writeReg tbsPg o v false

/-- A write to CHN_CTL (R88, R92, R93): SROLE 3 and PARK 3 are refused, and MODE 2 where the channel cannot be paired. -/
def chnCtl (s : State) (c : Nat) (v : W32) : State :=
  let p := pg T.chn c
  let to2 := fget v 1 0 == 2 && s.get p F.CHN_CTL_MODE != 2
  let bad := fget v 3 2 == 3 || fget v 5 4 == 3 || (to2 && (c % 2 == 1 || s.chEnabled (c + 1)))
  let s := (s.writeReg p 0x100 v bad).pairSync c
  if to2 && s.get p F.CHN_CTL_MODE == 2 && decide (512 ≤ s.get p F.CHN_SER_STB_STB) then
    (s.set p F.CHN_SER_STB_STB 256).inForce p 0x124
  else s

def chnWrite (s : State) (c o : Nat) (v : W32) : State :=
  let p := pg T.chn c
  if o = 0x100 then s.chnCtl c v
  else if o = 0x114 then s.wftWrite c v
  else if o = 0x124 then s.writeReg p o v (s.get p F.CHN_CTL_MODE == 2 && decide (512 ≤ fget v 9 0))
  else s.writeReg p o v false

/-- A write to an eyelet's sequencer and buffer page; a period outside R75 is refused at the upper half. -/
def eyeWrite (s : State) (e o : Nat) (v : W32) : State :=
  let p := eyePg e
  if o = 0x100 then s.seqCtl e v
  else if o = 0x120 then s.syncWrite e v
  else if within 0x130 0x140 o then s.condArgWrite e ((o - 0x130) / 4) v
  else if o = 0x14C then s.seqFlag e v
  else if o = 0x200 then
    s.writeReg p o v (decide (120 < fget v 7 1) || decide (fget v 15 8 < 4) || decide (64 < fget v 15 8))
  else if o = 0x238 then s.vampLoad e v
  else if o = 0x244 then s.wdataWrite e v
  else if within 0x800 0xA00 o && o % 8 == 4 then
    let per := (s.rd p (o - 4)).toNat + fget v 10 0 * 2 ^ 32
    s.writeReg p o v (decide (per < 4096) || decide (2 ^ 42 < per))
  else s.writeReg p o v false

def ddsWrite (s : State) (e o : Nat) (v : W32) : State :=
  if o = 0x100 then s.ddsCtl e v
  else if o = 0x114 then s.hopPush e v
  else if o = 0x134 then s.ddsListWrite e v
  else if o = 0x140 then s.pelTx e v
  else s.writeReg (pg T.dds e) o v false

def tdcWrite (s : State) (e o : Nat) (v : W32) : State :=
  let p := pg T.tdc e
  if o = 0x100 then s.tdcCtl e v (s.streamBad e)
  else if within 0x114 0x120 o then s.tdcRing e o v
  else if within 0x400 0x500 o && (o - 0x400) % 0x40 == 0 then s.iuCtl (4 * e + (o - 0x400) / 0x40) v
  else s.writeReg p o v false

/-- A write to a trigger page; writing the upper half of a time makes both halves take effect together. -/
def trgWrite (s : State) (q o : Nat) (v : W32) : State :=
  if o = 0x100 then s.trgCtl q v
  else if o = 0x164 then (s.writeReg (trgPg q) o v false).inForce (trgPg q) 0x160
  else s.writeReg (trgPg q) o v false

def aneWrite (s : State) (q o : Nat) (v : W32) : State :=
  if o = 0x100 then s.aneCtl q v
  else if o = 0x140 then s.marchCtl q v
  else if within 0x200 0x240 o then s.jobqWrite q ((o - 0x200) / 4) v
  else s.writeReg (anePg q) o v false

def schWrite (s : State) (o : Nat) (v : W32) : State :=
  if o = 0x100 then s.modeWrite v
  else if o = 0x114 then s.ctrSet v
  else if o = 0x118 then s.ctrDown (fget v 11 0)
  else if within 0x140 0x160 o then s.evtCtl ((o - 0x140) / 4) v
  else if within 0x800 0x83C o then { s with sch := { s.sch with submit := tabPut 0 s.sch.submit ((o - 0x800) / 4) v } }
  else if o = 0x83C then s.submit v
  else s.writeReg schPg o v false

/-- The PHY delay word that MEM_DLY_IDX names, and its value (R317). -/
def dlyKey (s : State) (x : Nat) : Nat :=
  x * 256 + s.get (memPg x) F.MEM_DLY_IDX_LANE * 32 + s.get (memPg x) F.MEM_DLY_IDX_PCH
def dlyBase (s : State) (k : Nat) : W32 := if s.dlyFac then Config.factoryDly k else 0
def dlyWord (s : State) (x : Nat) : W32 := tabGet (s.dlyBase (s.dlyKey x)) s.memDly (s.dlyKey x)

/-- A write to MEM_DLY. -/
def dlyWrite (s : State) (x : Nat) (v : W32) : State :=
  let p := memPg x
  let k := s.dlyKey x
  let (t, ok) := writeAt (s.wr p 0x10C (s.dlyWord x)) p 0x10C v false
  let w := t.rd p 0x10C
  let s := t.wr p 0x10C 0
  if ok then
    { s with memDly := tabPut (s.dlyBase k) s.memDly k w, boot := { s.boot with dly := s.boot.dly || s.stage == 2 } }
  else s

/-- A write to MEM_MIRROR (R316, R406). -/
def mirrorWrite (s : State) (v : W32) : State :=
  let p := memPg 0
  let size := fget v 13 8
  let chg := decide (s.rd p 0x1D0 ≠ v &&& 0x3F7F) && (s.enabled p || s.enabled (memPg 1))
  let (s, ok) := writeAt s p 0x1D0 v (chg || decide (32 < size) || decide (128 < fget v 6 0 + 2 * size))
  if ok && s.stage == 2 then { s with boot := { s.boot with mirror := true } } else s

def memWrite (s : State) (x o : Nat) (v : W32) : State :=
  if o = 0x10C then s.dlyWrite x v
  else if o = 0x1D0 ∧ x = 0 then s.mirrorWrite v
  else s.writeReg (memPg x) o v false

/-- A write to a crossbar page; during a copy the slot tables refuse writes (R330). -/
def xbrWrite (s : State) (x o : Nat) (v : W32) : State :=
  if within 0x400 0xC00 o && s.flag (xbrPg x) F.XBR_STS_SHADOW_BUSY then s.refuse (xbrPg x) o
  else s.writeReg (xbrPg x) o v false

def wltWrite (s : State) (n o : Nat) (v : W32) : State :=
  if o = 0x100 then s.wltCtl n v
  else if o = 0x12C then s.capsCtl n v
  else if o = 0x130 then s.scanCtl n v
  else if o = 0x144 ∧ n = 0 then s.msgCtl v
  else s.writeReg (wltPg n) o v false

def ptpWrite (s : State) (o : Nat) (v : W32) : State :=
  if o = 0x148 then s.ptpCtl v
  else if o = 0x108 ∨ o = 0x14C then s.ptpRateWrite o v
  else if within 0x200 0x280 o && (o - 0x200) % 0x20 == 0 then s.pgCtl ((o - 0x200) / 0x20) v
  else s.writeReg ptpPg o v false

def calWrite (s : State) (o : Nat) (v : W32) : State :=
  if o = 0x104 then s.writeReg calPg o v (decide (83 < fget v 6 0))
  else if o = 0x118 then s.calWinWrite v
  else if o = 0x11C then s.calFlashCtl v
  else if o = 0x120 then s.calRoute v
  else if o = 0x124 then s.calLin v
  else s.writeReg calPg o v false

/-- A write to the event-queue page: MODE 1 with a ring of no entries is refused. -/
def evqWrite (s : State) (o : Nat) (v : W32) : State :=
  if o = 0x100 then s.writeReg evqPg o v (v.getLsbD 0 && s.get evqPg F.EVQ_RING_SIZE_SIZE64 == 0)
  else if o = 0x118 then s.writeReg evqPg o v (s.flag evqPg F.EVQ_CTL_MODE && fget v 15 0 == 0)
  else if o = 0x120 then s.evRpWrite v
  else s.writeReg evqPg o v false

/-- A write at an offset of a page that is present. -/
def pageWrite (s : State) (p o : Nat) (v : W32) : State :=
  let t := p / 256
  let i := p % 256
  if o < 0x100 then s.hdrWrite p o v
  else if t = T.glb then s.glbWrite o v
  else if t = T.tbs then s.tbsWrite o v
  else if t = T.chn then s.chnWrite i o v
  else if t = T.eye then s.eyeWrite i o v
  else if t = T.dds then s.ddsWrite i o v
  else if t = T.cmp then s.cmpWrite i o v
  else if t = T.tdc then s.tdcWrite i o v
  else if t = T.trg then s.trgWrite i o v
  else if t = T.ane then s.aneWrite i o v
  else if t = T.sch then s.schWrite o v
  else if t = T.mem then s.memWrite i o v
  else if t = T.xbr then s.xbrWrite i o v
  else if t = T.pci then (if o = 0x10C then s.aptWrite v else s.writeReg p o v false)
  else if t = T.wlt then s.wltWrite i o v
  else if t = T.ptp then s.ptpWrite o v
  else if t = T.flt then (if o = 0x104 then s.heelCtl v else s.writeReg p o v false)
  else if t = T.thm then (if o = 0x104 ∨ o = 0x108 then s.limitsWrite o v else s.writeReg p o v false)
  else if t = T.cal then s.calWrite o v
  else if t = T.sec then (if o = 0x148 then s.flashCmd v else s.writeReg p o v false)
  else if t = T.evq then s.evqWrite o v
  else s.writeReg p o v false

/-- A word of the MSI-X table is written; messages that can be sent now leave (R345). -/
def msixWrite (s : State) (i : Nat) (v : W32) : State :=
  let v := if i % 4 = 3 then v &&& 1 else v
  { s with pci := { s.pci with msix := tabPut (if i % 4 = 3 then 1 else 0) s.pci.msix i v } }.msiFlush

/-- A word written at a BAR0 offset (R438). -/
def bar0Write (s : State) (a : Nat) (v : W32) : State :=
  let a := a / 4 * 4
  let p := a / 4096
  let o := a % 4096
  if 0x2000000 ≤ a ∧ a < 0x2200000 then s.segWrite ((a - 0x2000000) / 16) (a / 4 % 4) v
  else if 0x3F00000 ≤ a ∧ a < 0x3F08000 then s.msixWrite ((a - 0x3F00000) / 4) v
  else if !s.answers p then s
  else if o = 0x010 then s.fltClear p v
  else s.offReset p (fun s => s.pageWrite p o v)

/-- A host write of a word (R339, R343): `be` the byte enables, `ep` the EP bit. -/
def hostWrite (s : State) (a : Nat) (v : W32) (be : BitVec 4) (ep : Bool) : State :=
  if ep then s.poisonRx
  else if be ≠ 15 then (s.put pciPg F.PCI_STS_PARTIAL true).rise pciPg X.PCI_PARTIAL
  else s.bar0Write a v

/-! ## Reads -/

/-- The offset is the _LO half of a pair (R15). -/
def wideLo (t o : Nat) : Bool :=
  if t = T.tbs then [0x108, 0x120, 0x130].contains o
  else if t = T.spr then [0x114, 0x120, 0x128, 0x130].contains o
  else if t = T.eye then [0x114, 0x11C, 0x140, 0x210, 0x230].contains o || (within 0x800 0xA00 o && o % 8 == 0)
  else if t = T.dds then [0x108, 0x110].contains o
  else if t = T.cmp then [0x148, 0x204].contains o
  else if t = T.tdc then o == 0x114
  else if t = T.trg then [0x120, 0x130, 0x13C, 0x158, 0x160].contains o || (decide (0x300 ≤ o) && o % 0x20 == 0)
  else if t = T.sch then o == 0x124
  else if t = T.mem then o == 0x164
  else if t = T.wlt then [0x110, 0x120].contains o
  else if t = T.eth then [0x110, 0x130].contains o
  else if t = T.ptp then [0x120, 0x134, 0x140, 0x150].contains o
  else if t = T.evq then o == 0x110
  else false

/-- Word w of FLT_PEND: vectors whose page has a fault bit at 1. -/
def pendWord (s : State) (w : Nat) : W32 :=
  let vs := s.regs.filterMap (fun x => if x.1 % 4096 = 0x010 ∧ x.2 ≠ 0 then some (pageVector (x.1 / 4096)) else none)
  BitVec.ofNat 32 (((List.range 32).filter (fun b => vs.contains (16 + 32 * w + b))).foldl setBit 0)

/-- What a register holds at the moment of a read. -/
def liveWord (s : State) (p o : Nat) : W32 :=
  let t := p / 256
  let i := p % 256
  if o < 0x100 then (if o = 0x018 then s.clsRead p else if o = 0x01C then s.rxnRead p else s.rd p o)
  else if t = T.tbs then
    (if o = 0x100 then s.holdSync.rd p o
     else if o = 0x108 then lo32 (s.ui / 4 * 4)
     else if o = 0x10C then hi32 s.ui
     else s.rd p o)
  else if t = T.chn ∧ o = 0x134 then
    let c := s.get p F.CHN_CAL_SEL_CLASS
    BitVec.ofNat 32 (ofSigned 20 (s.calOf i (if c < 5 then c else 0)))
  else if t = T.spr ∧ (o = 0x114 ∨ o = 0x118) then
    let u := s.cleanT (16 * i + s.get p F.SPR_CLEAN_SEL_CH) / 1024
    if o = 0x114 then lo32 u else hi32 u
  else if t = T.cmp ∧ i = 0 ∧ 0x144 ≤ o ∧ o < 0x150 then
    let r := s.siteOf (s.get p F.CMP_SITE_SEL_SITE)
    if o = 0x144 then BitVec.ofNat 32 (r.cnt + b2n r.final * 2 ^ 24) else if o = 0x148 then lo32 r.firstFail else hi32 r.firstFail
  else if t = T.tdc ∧ 0x400 ≤ o ∧ 0x14 ≤ (o - 0x400) % 0x40 ∧ (o - 0x400) % 0x40 < 0x20 then
    (s.iuOf (4 * i + (o - 0x400) / 0x40)).hold.getD (((o - 0x400) % 0x40 - 0x10) / 4) 0
  else if t = T.sch ∧ o = 0x114 then BitVec.ofNat 32 (s.ctr (s.get p F.SCH_CTR_IDX_IDX))
  else if t = T.mem ∧ o = 0x10C then s.dlyWord i
  else if t = T.xbr ∧ 0x400 ≤ o ∧ o < 0xC00 then
    (if s.flag p F.XBR_SLOT_CTL_LIVE then s.slotLive i (b2n (decide (0x800 ≤ o))) ((o - 0x400) / 4 % 256) else s.rd p o)
  else if t = T.ptp ∧ (o = 0x150 ∨ o = 0x154) then s.ptpSync.rd p o
  else if t = T.pci ∧ o = 0x100 then
    BitVec.ofNat 32 ((if 1 ≤ s.stage then Config.vendorId.toNat else 0) + 0x256 * 2 ^ 16)
  else if t = T.flt ∧ 0x144 ≤ o ∧ o < 0x160 then s.flt.logHold.getD ((o - 0x140) / 4) 0
  else if t = T.flt ∧ 0x200 ≤ o then s.pendWord ((o - 0x200) / 4)
  else if t = T.evq ∧ 0x144 ≤ o ∧ o < 0x160 then s.evq.hold.getD ((o - 0x140) / 4) 0
  else s.rd p o

/-- The busy time of a last core that runs is counted as far as it has come. -/
def busySync (s : State) (n : Nat) : State :=
  if s.coreState n = 1 then
    let d := s.coreOf n
    let k := (s.mono - d.busyFrom) / 4194304
    (s.bump (lst n) F.LST_CNT_BUSY_COUNT k).setCore n { d with busyFrom := d.busyFrom + k * 4194304 }
  else s

/-- The read of a register: a _HI half returns what the last read of its _LO half captured, and RC fields clear. -/
def regRead (s : State) (p o : Nat) : State × W32 :=
  match findReg p o with
  | none => (s, 0)
  | some r =>
    let t := p / 256
    if 4 ≤ o ∧ wideLo t (o - 4) then (s, tabGet (resetWord p o) s.caps (rkey p o))
    else
      let v := s.liveWord p o
      let s : State := if wideLo t o then { s with caps := tabPut (resetWord p (o + 4)) s.caps (rkey p (o + 4)) (s.liveWord p (o + 4)) } else s
      let rc := r.mask [.rc]
      (if rc = 0 then s else s.wr p o (s.rd p o &&& ~~~rc), v)

/-- A read at an offset of a page that is present. -/
def pageRead (s : State) (p o : Nat) : State × W32 :=
  let t := p / 256
  let i := p % 256
  if t = T.chn ∧ o = 0x114 then s.wftRead i
  else if t = T.eye ∧ o = 0x244 then s.wdataRead i
  else if t = T.dds ∧ o = 0x134 then s.ddsListRead i
  else if t = T.tdc ∧ 0x400 ≤ o ∧ o < 0x500 ∧ (o - 0x400) % 0x40 = 0x10 then s.iuPop (4 * i + (o - 0x400) / 0x40)
  else if t = T.cmp ∧ 0x180 ≤ o ∧ o < 0x1C0 then (s.accChan (16 * i + (o - 0x180) / 4)).regRead p o
  else if t = T.cmp ∧ i = 0 ∧ 0x144 ≤ o ∧ o < 0x14C then (s.accSite (s.get p F.CMP_SITE_SEL_SITE)).regRead p o
  else if t = T.ptp ∧ o = 0x110 then (s.ptpCapture, s.ptpCapture.rd p o)
  else if t = T.flt ∧ o = 0x140 then s.logPop false
  else if t = T.cal ∧ o = 0x118 then s.calWinRead
  else if t = T.evq ∧ o = 0x140 then s.evPop false
  else if t = T.lst ∧ o = 0x110 then (s.busySync i).regRead p o
  else s.regRead p o

/-- A word of the PBA. -/
def pbaWord (s : State) (w : Nat) : W32 :=
  BitVec.ofNat 32 (((List.range 32).filter (fun b => s.pci.pba.contains (32 * w + b))).foldl setBit 0)

/-- A word read at a BAR0 offset. -/
def bar0Read (s : State) (a : Nat) : State × W32 :=
  let a := a / 4 * 4
  let p := a / 4096
  if 0x2000000 ≤ a ∧ a < 0x2200000 then
    let k := (a - 0x2000000) / 4
    (s, if s.flag glbPg F.GLB_SEG_CTL_LIVE then tabGet 0 s.segL k else tabGet 0 s.segS k)
  else if 0x3F00000 ≤ a ∧ a < 0x3F08000 then (s, s.msixWord ((a - 0x3F00000) / 4))
  else if 0x3F08000 ≤ a ∧ a < 0x3F08100 then (s, s.pbaWord ((a - 0x3F08000) / 4))
  else if !s.answers p then (s, 0)
  else s.pageRead p (a % 4096)

/-! ## WRITE tickets (R288, R291) -/

/-- One write of a WRITE ticket; the result says whether it set CFG_ERR. -/
def writeOne (s : State) (a : Nat) (v : W32) : State × Bool :=
  let p := a / 4096
  (s.bar0Write a v, ((s.put p F.PG_STS_CFG_ERR false).bar0Write a v).flag p F.PG_STS_CFG_ERR && pagePresent p)

/-- Writes of a WRITE ticket in order, up to one that sets CFG_ERR. -/
def writeAll (s : State) (k : Ticket) : List Nat → State × Bool
  | [] => (s, false)
  | i :: r =>
    let (s, bad) := s.writeOne (k.word (5 + 2 * i)).toNat (k.word (6 + 2 * i))
    if bad then (s, true) else s.writeAll k r

/-- WRITE: the writes are made in order. -/
def writeTicket (s : State) (slot : Nat) : State :=
  match s.ticketNew slot 4 with
  | none => s
  | some k =>
    let (s, bad) := (s.begin_ slot).writeAll k (List.range (fget (k.word 4) 2 0))
    s.finish slot (if bad then 0x33 else 0) 0

end State

end Sys2Proof.Machine
end

