-- ==== Sys2Proof/Machine/Bar0Cmds.lean ====
section
/-!
DEFINITION. The meanings of the commands of registers with no row of their own (R15, R16, R19, R339).
-/
namespace Sys2Proof.Machine

open Sys2Proof

/-- REGISTER_WRITE (R19): a word at a BAR0 offset, its byte enables and the EP bit of the request. -/
def execRegisterWrite (ofs : Ofs) (v : W32) (be : BitVec 4) (ep : Bool) (s : State) : Host.Outcome State Fault Refusal :=
  done (s.onLink false (fun s => s.hostWrite ofs.toNat v be ep))

/-- RC_READ (R16): the fields are returned, then cleared. -/
def execRcRead (ofs : Ofs) (s : State) : Host.Outcome State Fault Refusal := done (s.hostRead (·.bar0Read ofs.toNat))

/-- WIDE_REGISTER_LO_READ (R15): the read of an _LO half captures the whole value. -/
def execWideRegisterLoRead (ofs : Ofs) (s : State) : Host.Outcome State Fault Refusal :=
  done (s.hostRead (fun s => s.bar0Read ofs.toNat))

end Sys2Proof.Machine
end

