-- ==== Sys2Proof/Machine/BlocksCmds.lean ====
section
/-!
DEFINITION. The meanings of the commands of the common page header (R36, R82, R440 to R447).
-/
namespace Sys2Proof.Machine

open Sys2Proof

/-- PG_ENABLE_WRITE (R442): a write to PG_CTL without BLOCK_RESET. -/
def execPgEnableWrite (p : PageNo) (v : W32) (s : State) : Host.Outcome State Fault Refusal :=
  done (s.onPage p.toNat (fun s => s.pgCtlWrite p.toNat (v &&& ~~~2)))

/-- BLOCK_RESET (R444). -/
def execBlockReset (p : PageNo) (s : State) : Host.Outcome State Fault Refusal :=
  done (s.onPage p.toNat (fun s => s.pgCtlWrite p.toNat 2))

/-- BLOCK_RESET_DONE (R444); `ok`: the self-test of a last core passes (R303). -/
def execBlockResetDone (p : PageNo) (ok : Bool) (s : State) : Host.Outcome State Fault Refusal :=
  done (s.blockResetDone p.toNat ok)

/-- CFG_LOCK (R445): a write of 1 that leaves ENABLE as it is. -/
def execCfgLock (p : PageNo) (s : State) : Host.Outcome State Fault Refusal :=
  done (s.onPage p.toNat (fun s => s.pgCtlWrite p.toNat (BitVec.ofNat 32 (4 + b2n (s.enabled p.toNat)))))

/-- PG_COMMIT (R447). -/
def execPgCommit (p : PageNo) (s : State) : Host.Outcome State Fault Refusal :=
  done (s.onPage p.toNat (fun s => s.pgCommit p.toNat 1))

/-- TABLE_COMMIT (R36), at a boundary that is not one of a running group or unit. -/
def execTableCommit (p : PageNo) (s : State) : Host.Outcome State Fault Refusal := done (s.tableCommit p.toNat)

/-- SHADOW_COPY_DONE (R82). -/
def execShadowCopyDone (p : PageNo) (s : State) : Host.Outcome State Fault Refusal := done (s.copyDone p.toNat)

end Sys2Proof.Machine
end

