-- ==== Sys2Proof/Machine/CalCmds.lean ====
section
/-!
DEFINITION. The meanings of the calibration commands (R371 to R387).
-/
namespace Sys2Proof.Machine

open Sys2Proof

/-- CAL_TARGET_UPDATE (R376). -/
def execCalTargetUpdate (e : Eye) (s : State) : Host.Outcome State Fault Refusal := done (s.targetUpdate e.val)

/-- SLEW_PERIOD (R378). -/
def execSlewPeriod (s : State) : Host.Outcome State Fault Refusal := done s.slewPeriod

/-- CAL_WIN_WRITE (R383). -/
def execCalWinWrite (v : W32) (s : State) : Host.Outcome State Fault Refusal :=
  done (s.onPage State.calPg (fun s => s.calWinWrite v))

/-- CAL_WIN_READ (R477). -/
def execCalWinRead (s : State) : Host.Outcome State Fault Refusal :=
  done (s.readPage State.calPg (·.calWinRead))

/-- SAVE (R384); `v`: the other bits of the write. -/
def execSave (v : W32) (s : State) : Host.Outcome State Fault Refusal :=
  done (s.onPage State.calPg (fun s => s.calFlashCtl (v ||| 1)))

/-- SAVE_DONE (R384); `ok`: the save has not failed. -/
def execSaveDone (ok : Bool) (s : State) : Host.Outcome State Fault Refusal := done (s.calSaveDone ok)

/-- LOAD (R385); `v`: the other bits of the write. -/
def execLoad (v : W32) (s : State) : Host.Outcome State Fault Refusal :=
  done (s.onPage State.calPg (fun s => s.calFlashCtl (v ||| 2)))

/-- CLR (R374); `v`: the other bits of the write to CAL_LIN_CTL. -/
def execClr (v : W32) (s : State) : Host.Outcome State Fault Refusal :=
  done (s.onPage State.calPg (fun s => s.calLin (v ||| 0x400)))

end Sys2Proof.Machine
end

