-- ==== Sys2Proof/Machine/ChannelsCmds.lean ====
section
/-!
DEFINITION. The meanings of the commands of the channels and their spares (R73 to R111).
-/
namespace Sys2Proof.Machine

open Sys2Proof

/-- VECTOR_BOUNDARY (R30 to R35): the next vector of the eyelet's running group begins. -/
def execVectorBoundary (e : Eye) (s : State) : Host.Outcome State Fault Refusal :=
  done (match s.groupOf e.val with
    | some g => if g.st = .running ∧ (g.begun ∨ g.holds ≠ 0) then s.groupVector g else s
    | none => s)

/-- STITCH (R84): the earliest stitch placed for the channel takes effect at its time. -/
def execStitch (c : Chan) (s : State) : Host.Outcome State Fault Refusal := done (s.placeDue c.val)

/-- WFT_WRITE (R80). -/
def execWftWrite (c : Chan) (v : W32) (s : State) : Host.Outcome State Fault Refusal :=
  done (s.onPage (pg T.chn c.val) (fun s => s.wftWrite c.val v))

/-- WFT_READ (R477). -/
def execWftRead (c : Chan) (s : State) : Host.Outcome State Fault Refusal :=
  done (s.readPage (pg T.chn c.val) (·.wftRead c.val))

/-- DWELL_START (R99). -/
def execDwellStart (e : Eye) (s : State) : Host.Outcome State Fault Refusal := done (s.dwellStart e.val)

/-- CHECK_STITCH (R101). -/
def execCheckStitch (e : Eye) (s : State) : Host.Outcome State Fault Refusal := done (s.checkStitch e.val)

/-- MISMATCH_DECISION (R105). -/
def execMismatchDecision (e : Eye) (live spare : BitVec 16) (noLive noSpare : Bool) (t : Nat) (s : State) :
    Host.Outcome State Fault Refusal :=
  done (s.mismatch e.val live.toInt spare.toInt noLive noSpare t)

/-- TAKEOVER (R107). -/
def execTakeover (e : Eye) (s : State) : Host.Outcome State Fault Refusal := done (s.takeover e.val)

end Sys2Proof.Machine
end

