-- ==== Sys2Proof/Machine/ClockCmds.lean ====
section
/-!
DEFINITION. The meanings of the commands of the DDS units and the level port (R167 to R187).
-/
namespace Sys2Proof.Machine

open Sys2Proof

/-- GO_DDS (R180); `v`: the other bits of the write. -/
def execGoDds (e : Eye) (v : W32) (s : State) : Host.Outcome State Fault Refusal :=
  done (s.onPage (pg T.dds e.val) (fun s => s.ddsCtl e.val (v ||| 1)))

/-- DDS_STOP (R182). -/
def execDdsStop (e : Eye) (v : W32) (s : State) : Host.Outcome State Fault Refusal :=
  done (s.onPage (pg T.dds e.val) (fun s => s.ddsCtl e.val (v ||| 2)))

/-- DDS_START_TIME (R180): the unit reaches T. -/
def execDdsStartTime (e : Eye) (s : State) : Host.Outcome State Fault Refusal :=
  done (s.ddsStart e.val)

/-- HOP (R175). -/
def execHop (e : Eye) (s : State) : Host.Outcome State Fault Refusal := done (s.hop e.val)

/-- HOP_PUSH (R177). -/
def execHopPush (e : Eye) (v : W32) (s : State) : Host.Outcome State Fault Refusal :=
  done (s.onPage (pg T.dds e.val) (fun s => s.hopPush e.val v))

/-- DDS_LIST_WRITE (R172). -/
def execDdsListWrite (e : Eye) (v : W32) (s : State) : Host.Outcome State Fault Refusal :=
  done (s.onPage (pg T.dds e.val) (fun s => s.ddsListWrite e.val v))

/-- DDS_LIST_READ (R477). -/
def execDdsListRead (e : Eye) (s : State) : Host.Outcome State Fault Refusal :=
  done (s.readPage (pg T.dds e.val) (·.ddsListRead e.val))

/-- PEL_TX_GO (R186); `v`: the other bits of the write. -/
def execPelTxGo (e : Eye) (v : W32) (s : State) : Host.Outcome State Fault Refusal :=
  done (s.onPage (pg T.dds e.val) (fun s => s.pelTx e.val (v ||| 0x80000000)))

/-- PEL_FRAME_START (R184). -/
def execPelFrameStart (e : Eye) (s : State) : Host.Outcome State Fault Refusal := done (s.pelStart e.val)

/-- PEL_FRAME_DONE (R184). -/
def execPelFrameDone (e : Eye) (sdi : BitVec 16) (s : State) : Host.Outcome State Fault Refusal :=
  done (s.pelDone e.val sdi)

/-- CLOCK_EDGE (R168): the unit's next edge is placed. -/
def execClockEdge (e : Eye) (s : State) : Host.Outcome State Fault Refusal := done (s.clockEdge e.val)

end Sys2Proof.Machine
end

