-- ==== Sys2Proof/Machine/CompareCmds.lean ====
section
/-!
DEFINITION. The meanings of the commands of compare and the fail log (R196 to R206).
-/
namespace Sys2Proof.Machine

open Sys2Proof

/-- FAIL_ARRIVAL (R204): the oldest fail on its way. -/
def execFailArrival (s : State) : Host.Outcome State Fault Refusal := done s.failArrive

/-- SITE_SUMMARY_FINAL (R198). -/
def execSiteSummaryFinal (i : Fin 128) (s : State) : Host.Outcome State Fault Refusal := done (s.siteFinal i.val)

/-- FLOG_WRITE (R201, R202); `bad`: which of the records that leave were corrupted in the queue. -/
def execFlogWrite (e : Eye) (bad : BitVec 2) (s : State) : Host.Outcome State Fault Refusal :=
  done (s.flogWrite e.val bad.toNat)

/-- LOG_DONE (R203). -/
def execLogDone (e : Eye) (s : State) : Host.Outcome State Fault Refusal := done (s.flogDone e.val)

/-- EVT_PULSE_END (R206). -/
def execEvtPulseEnd (n : Fin 8) (s : State) : Host.Outcome State Fault Refusal := done (s.evtPulseEnd n.val)

end Sys2Proof.Machine
end

