-- ==== Sys2Proof/Machine/EthCmds.lean ====
section
/-!
DEFINITION. The meanings of the commands of the Ethernet ports (R361 to R365).
-/
namespace Sys2Proof.Machine

open Sys2Proof

/-- ETH_RX_FRAME (R362). -/
def execEthRxFrame (e : Fin 2) (f : List Byte) (st : Fin 3) (d : List W32) (s : State) : Host.Outcome State Fault Refusal :=
  done (s.ethRx e.val f st.val d)

/-- ETH_TX_FRAME (R362). -/
def execEthTxFrame (e : Fin 2) (f : List Byte) (d : List W32) (bad : Bool) (s : State) : Host.Outcome State Fault Refusal :=
  done (s.ethTx e.val f d bad)

/-- ETH_LINK_DOWN (R370). -/
def execEthLinkDown (e : Fin 2) (s : State) : Host.Outcome State Fault Refusal :=
  done (((s.put (ethPg e.val) F.ETH_STS_LINK false).put (ethPg e.val) F.ETH_STS_BLOCK_LOCK false).rise (ethPg e.val) X.ETH_LINK_DOWN)

/-- ETH_LINK_UP (R361). -/
def execEthLinkUp (e : Fin 2) (s : State) : Host.Outcome State Fault Refusal :=
  done ((s.put (ethPg e.val) F.ETH_STS_LINK true).put (ethPg e.val) F.ETH_STS_BLOCK_LOCK true)

/-- CPL_TMO (R344): the port, the ring and the descriptor that asked for the read. -/
def execCplTmo (e : Fin 2) (tx : Bool) (d : List W32) (s : State) : Host.Outcome State Fault Refusal := done (s.cplTmo e.val tx d)

end Sys2Proof.Machine
end

