-- ==== Sys2Proof/Machine/FltCmds.lean ====
section
/-!
DEFINITION. The meanings of the commands of the fault collector and of heel (R409 to R427).
-/
namespace Sys2Proof.Machine

open Sys2Proof

/-- FAULT_CLEAR (R420): a write to PG_FLT, also while the page's block reset runs. -/
def execFaultClear (p : PageNo) (v : W32) (s : State) : Host.Outcome State Fault Refusal :=
  done (s.onLink false (fun s => if s.answers p.toNat then s.fltClear p.toNat v else s))

/-- FLT_CLASS_WRITE (R410); `v`: the other bits of the write. -/
def execFltClassWrite (p : PageNo) (v : W32) (s : State) : Host.Outcome State Fault Refusal :=
  done (s.onPage p.toNat (fun s => s.clsWrite p.toNat (v ||| 0x80000000)))

/-- FLT_RXN_WRITE (R410). -/
def execFltRxnWrite (p : PageNo) (v : W32) (s : State) : Host.Outcome State Fault Refusal :=
  done (s.onPage p.toNat (fun s => s.rxnWrite p.toNat (v ||| 0x80000000)))

/-- TRAP_HANDLER (R411): the two diagnostic words for the oldest trap due. -/
def execTrapHandler (d0 d1 : W32) (s : State) : Host.Outcome State Fault Refusal := done (s.trapDone d0 d1)

/-- FAULT_CHIP_RESET (R414). -/
def execFaultChipReset (s : State) : Host.Outcome State Fault Refusal := done s.faultChipReset

/-- FLT_LOG_POP (R419); `bad`: the record was corrupted in the log (R221). -/
def execFltLogPop (bad : Bool) (s : State) : Host.Outcome State Fault Refusal := done (s.hostRead (·.logPop bad))

/-- LEAVE_DEV (R425). -/
def execLeaveDev (s : State) : Host.Outcome State Fault Refusal := done (s.onPage State.fltPg (fun s => s.heelCtl 1))

/-- LEAVE_EYE (R425): the eyelets whose bits are written 1. -/
def execLeaveEye (m : BitVec 16) (s : State) : Host.Outcome State Fault Refusal :=
  done (s.onPage State.fltPg (fun s => s.heelCtl (m.setWidth 32 <<< 16)))

/-- HEEL_LEAVE_DONE (R425); `bad`: last cores whose self-test fails. -/
def execHeelLeaveDone (bad : BitVec 32) (s : State) : Host.Outcome State Fault Refusal := done (s.heelLeaveDone bad)

end Sys2Proof.Machine
end

