-- ==== Sys2Proof/Machine/Jtag.lean ====
section
/-!
DEFINITION. The test access port and the SMBus target (R468 to R470).
-/
namespace Sys2Proof.Machine

open Sys2Proof

/-- The device identification register (R468). -/
def idcode : W32 := BitVec.ofNat 32 (Config.dieRev.toNat * 2 ^ 28 + 0x0256 * 2 ^ 12 + Config.jedec.toNat * 2 + 1)

namespace State

/-- An instruction that leaves the balls with the die takes effect. -/
def tapPlain (s : State) (code : BitVec 8) : State := { s with jtag := { s.jtag with ir := code, taken := false } }

/-- An instruction that takes the balls takes effect (R469): unless RESET_N is low or they are taken already, a chip
reset comes first. -/
def tapTake (s : State) (code : BitVec 8) : State :=
  let s := if s.jtag.taken || s.boot.held then s else s.chipReset (s.flag glbPg F.GLB_RST_KEEP_HBM) 6
  { s with jtag := { s.jtag with ir := code, taken := true } }

/-- SAMPLE/PRELOAD: the boundary register holds the levels at the balls, which the manual does not lay out. -/
def tapSample (s : State) : State :=
  let (f, s) := s.fresh
  let s := s.tapPlain 2
  { s with jtag := { s.jtag with bsr := f } }

/-- The test data register that the instruction in force selects, as it is captured. -/
def tapData (s : State) : Nat :=
  if s.jtag.ir = 1 then idcode.toNat else if 2 ≤ s.jtag.ir.toNat ∧ s.jtag.ir.toNat ≤ 5 then s.jtag.bsr else 0

/-- SMB_ALERT_N is low (R470). -/
def smbAlert (s : State) : Bool :=
  s.devHeel || s.fltBit thmPg X.THM_STOP || s.fltBit thmPg X.THM_TRIP || s.flag fltPg F.FLT_STS_PWR_FAIL

/-- A command to the assigned address: not acknowledged without one, or before stage 1. -/
def smbRead (s : State) (f : State → State × List Nat) : State :=
  if s.smb.isSome && decide (1 ≤ s.stage) then
    let (s, bs) := f s
    s.emit (.smb bs)
  else s

/-- An ARP command assigns an address, or reports the UDID, most significant byte first. -/
def smbArp (s : State) (a : Option (BitVec 7)) : State :=
  match a with
  | some x => { s with smb := some x }
  | none => s.emit (.smb ((List.range 16).map (fun i => Config.udid.toNat / 2 ^ (8 * (15 - i)) % 256)))

/-- A word, low byte first. -/
def smbWord (n : Nat) : List Nat := [n % 256, n / 256 % 256]

/-- Readings of the sensors of the die that are valid. -/
def validTemps (s : State) : List Nat :=
  ((List.range 24).filter (fun n => s.flag thmPg (tempF F.THM_TEMP_VALID n))).map (fun n => s.get thmPg (tempF F.THM_TEMP_TEMP n))

/-- The highest valid temperature; a value nothing fixes where no sensor has one. -/
def hottest (s : State) : Nat × State :=
  match s.validTemps with
  | [] => s.fresh
  | t :: r => (r.foldl max t, s)

end State

end Sys2Proof.Machine
end

