-- ==== Sys2Proof/Machine/JtagCmds.lean ====
section
/-!
DEFINITION. The meanings of the commands of the test access port and of SMBus (R468 to R470).
-/
namespace Sys2Proof.Machine

open Sys2Proof

/-- IDCODE (R468). -/
def execIdcode (s : State) : Host.Outcome State Fault Refusal := done (s.tapPlain 1)

/-- SAMPLE_PRELOAD (R468). -/
def execSamplePreload (s : State) : Host.Outcome State Fault Refusal := done s.tapSample

/-- EXTEST (R469). -/
def execExtest (s : State) : Host.Outcome State Fault Refusal := done (s.tapTake 3)

/-- EXTEST_PULSE (R469). -/
def execExtestPulse (s : State) : Host.Outcome State Fault Refusal := done (s.tapTake 4)

/-- EXTEST_TRAIN (R469). -/
def execExtestTrain (s : State) : Host.Outcome State Fault Refusal := done (s.tapTake 5)

/-- HIGHZ (R469). -/
def execHighz (s : State) : Host.Outcome State Fault Refusal := done (s.tapTake 6)

/-- CLAMP (R469). -/
def execClamp (s : State) : Host.Outcome State Fault Refusal := done (s.tapTake 7)

/-- BYPASS (R468), and every code not assigned. -/
def execBypass (s : State) : Host.Outcome State Fault Refusal := done (s.tapPlain 0xFF)

/-- TEST_LOGIC_RESET (R469): IDCODE is the instruction in force. -/
def execTestLogicReset (s : State) : Host.Outcome State Fault Refusal := done (s.tapPlain 1)

/-- SMB_ARP (R470): assigns an address, or asks for the UDID. -/
def execSmbArp (a : Option (BitVec 7)) (s : State) : Host.Outcome State Fault Refusal := done (s.smbArp a)

/-- SMB_READ_STAGE (R470). -/
def execSmbReadStage (s : State) : Host.Outcome State Fault Refusal :=
  done (s.smbRead (fun s => (s, [(s.rd State.glbPg 0x104).toNat % 256])))

/-- SMB_READ_FLT_STS (R470). -/
def execSmbReadFltSts (s : State) : Host.Outcome State Fault Refusal :=
  done (s.smbRead (fun s => (s, State.smbWord (s.rd State.fltPg 0x100).toNat)))

/-- SMB_READ_TEMP (R470). -/
def execSmbReadTemp (s : State) : Host.Outcome State Fault Refusal :=
  done (s.smbRead (fun s => let (t, s) := s.hottest; (s, State.smbWord t)))

/-- SMB_READ_HBM_TEMP (R470). -/
def execSmbReadHbmTemp (s : State) : Host.Outcome State Fault Refusal :=
  done (s.smbRead (fun s => (s, State.smbWord (max (s.get (pg T.mem 0) F.MEM_TEMP_TEMP) (s.get (pg T.mem 1) F.MEM_TEMP_TEMP)))))

/-- SMB_READ_STATUS (R470). -/
def execSmbReadStatus (s : State) : Host.Outcome State Fault Refusal :=
  done (s.smbRead (fun s => (s, [b2n (s.flag State.glbPg F.GLB_KILL_ASSERTED) +
    2 * b2n (!s.flt.faultN.isEmpty || s.devHeel) + 4 * b2n (s.flag State.thmPg F.THM_STS_HOT)])))

end Sys2Proof.Machine
end

