-- ==== Sys2Proof/Machine/PcieCmds.lean ====
section
/-!
DEFINITION. The meanings of the commands of the PCI Express endpoint (R336 to R346, R407, R449).
-/
namespace Sys2Proof.Machine

open Sys2Proof

/-- BAR2_READ (R340): `n` words from the word that holds an offset. -/
def execBar2Read (o : W32) (n : Nat) (s : State) : Host.Outcome State Fault Refusal :=
  done (s.onLink true (fun s => s.bar2Read o.toNat n))

/-- BAR2_WRITE (R340). -/
def execBar2Write (o : W32) (bs : List (Option Byte)) (ep : Bool) (s : State) : Host.Outcome State Fault Refusal :=
  done (s.onLink false (fun s => s.bar2Write o.toNat bs ep))

/-- APT_BASE_WRITE (R341). -/
def execAptBaseWrite (v : W32) (s : State) : Host.Outcome State Fault Refusal := done (s.onLink false (fun s => s.aptWrite v))

/-- PCIE_CONFIG_REQUEST (R407): a read or a write of a dword. -/
def execPcieConfigRequest (i : Fin 1024) (w : Option W32) (s : State) : Host.Outcome State Fault Refusal := done (s.cfgRequest i.val w)

/-- PCIE_LINK_UP (R336). -/
def execPcieLinkUp (speed : Fin 6) (width : Fin 17) (s : State) : Host.Outcome State Fault Refusal :=
  done (s.pciUp speed.val width.val)

/-- PCIE_LINK_DOWN (R370). -/
def execPcieLinkDown (s : State) : Host.Outcome State Fault Refusal := done s.pciDown

/-- D3HOT_ENTRY (R346). -/
def execD3hotEntry (s : State) : Host.Outcome State Fault Refusal := done s.d3Entry

/-- D0_RETURN (R346). -/
def execD0Return (s : State) : Host.Outcome State Fault Refusal := done s.d0Return

end Sys2Proof.Machine
end

