-- ==== Sys2Proof/Machine/PtpCmds.lean ====
section
/-!
DEFINITION. The meanings of the commands of precision time (R366 to R369).
-/
namespace Sys2Proof.Machine

open Sys2Proof

/-- PTP_CAPTURE (R367): the completion carries the nanoseconds. -/
def execPtpCapture (s : State) : Host.Outcome State Fault Refusal :=
  done (s.readPage ptpPg (fun s => (s.ptpCapture, s.ptpCapture.rd ptpPg 0x110)))

/-- SET (R368); `v`: the other bits of the write to PTP_ADJ_CTL. -/
def execSet (v : W32) (s : State) : Host.Outcome State Fault Refusal := done (s.onPage ptpPg (fun s => s.ptpCtl (v ||| 1)))

/-- STEP (R368). -/
def execStep (v : W32) (s : State) : Host.Outcome State Fault Refusal := done (s.onPage ptpPg (fun s => s.ptpCtl (v ||| 2)))

/-- INVALIDATE (R368). -/
def execInvalidate (v : W32) (s : State) : Host.Outcome State Fault Refusal := done (s.onPage ptpPg (fun s => s.ptpCtl (v ||| 4)))

/-- PTP_SLEW_DONE (R368). -/
def execPtpSlewDone (s : State) : Host.Outcome State Fault Refusal := done s.ptpSlewDone

/-- PG_GO (R369). -/
def execPgGo (g : Fin 4) (v : W32) (s : State) : Host.Outcome State Fault Refusal :=
  done (s.onPage ptpPg (fun s => s.pgCtl g.val (v ||| 1)))

/-- PG_STOP (R369). -/
def execPgStop (g : Fin 4) (v : W32) (s : State) : Host.Outcome State Fault Refusal :=
  done (s.onPage ptpPg (fun s => s.pgCtl g.val (v ||| 2)))

/-- PG_PULSE (R369). -/
def execPgPulse (g : Fin 4) (s : State) : Host.Outcome State Fault Refusal := done (s.pgPulse g.val)

end Sys2Proof.Machine
end

