-- ==== Sys2Proof/Machine/SchedCmds.lean ====
section
/-!
DEFINITION. The meanings of the commands of the scheduler, the last cores, the event queue and the trace (R286 to R308),
and of partial bursts whose linger time ends (R222).
-/
namespace Sys2Proof.Machine

open Sys2Proof

/-- TICKET_SUBMIT (R292): the write of SCH_SUBMIT word 15. -/
def execTicketSubmit (v : W32) (s : State) : Host.Outcome State Fault Refusal :=
  done (s.onPage schPg (fun s => s.submit v))

/-- CTR_DEC (R293): a write to SCH_CTR_DEC. -/
def execCtrDec (v : W32) (s : State) : Host.Outcome State Fault Refusal :=
  done (s.onPage schPg (fun s => s.ctrDown (fget v 11 0)))

/-- CTR_SET (R293): a write to SCH_CTR_VAL. -/
def execCtrSet (v : W32) (s : State) : Host.Outcome State Fault Refusal :=
  done (s.onPage schPg (fun s => s.ctrSet v))

/-- EVT_EDGE (R294). -/
def execEvtEdge (n : Fin 8) (rising : Bool) (s : State) : Host.Outcome State Fault Refusal := done (s.evtEdge n.val rising)

/-- DISPATCH (R295). -/
def execDispatch (s : State) : Host.Outcome State Fault Refusal := done s.dispatch

/-- AFF_WAIT_EXPIRY (R295). -/
def execAffWaitExpiry (slot : Fin 1024) (s : State) : Host.Outcome State Fault Refusal := done (s.affExpire slot.val)

/-- DISPATCH_SWITCH (R297). -/
def execDispatchSwitch (s : State) : Host.Outcome State Fault Refusal := done s.dispatchSwitch

/-- BURST (R288). -/
def execBurst (slot : Fin 1024) (s : State) : Host.Outcome State Fault Refusal := done (s.burst slot.val)

/-- MEASURE (R288). -/
def execMeasure (slot : Fin 1024) (s : State) : Host.Outcome State Fault Refusal := done (s.measure slot.val)

/-- ANALYZE (R288). -/
def execAnalyze (slot : Fin 1024) (s : State) : Host.Outcome State Fault Refusal := done (s.analyze slot.val)

/-- WRITE (R288). -/
def execWrite (slot : Fin 1024) (s : State) : Host.Outcome State Fault Refusal := done (s.writeTicket slot.val)

/-- WAIT (R288). -/
def execWait (slot : Fin 1024) (s : State) : Host.Outcome State Fault Refusal := done (s.waitTicket slot.val)

/-- WAIT_AT_REACHED (R288). -/
def execWaitAtReached (slot : Fin 1024) (s : State) : Host.Outcome State Fault Refusal := done (s.waitReached slot.val)

/-- POST (R290). -/
def execPost (slot : Fin 1024) (s : State) : Host.Outcome State Fault Refusal := done (s.post slot.val)

/-- TICKET_COMPLETE (R298); `bad`: which results of a MEASURE were poisoned in the queue. -/
def execTicketComplete (slot : Fin 1024) (bad : Nat) (s : State) : Host.Outcome State Fault Refusal := done (s.ticketComplete slot.val bad)

/-- TICKET_TIMEOUT (R291). -/
def execTicketTimeout (slot : Fin 1024) (s : State) : Host.Outcome State Fault Refusal := done (s.ticketTimeout slot.val)

/-- RELEASE (R299). -/
def execRelease (slot : Fin 1024) (s : State) : Host.Outcome State Fault Refusal := done (s.release slot.val)

/-- RERUN_RECORD (R301). -/
def execRerunRecord (s : State) : Host.Outcome State Fault Refusal := done s.rerunRecord

/-- LST_WDOG_EXPIRY (R303). -/
def execLstWdogExpiry (n : Fin 32) (s : State) : Host.Outcome State Fault Refusal := done (s.coreFail n.val)

/-- LST_MEM_UNCORR (R303). -/
def execLstMemUncorr (n : Fin 32) (s : State) : Host.Outcome State Fault Refusal := done (s.coreFail n.val)

/-- EVQ_POP (R306); `bad`: the entry was corrupted in the queue. -/
def execEvqPop (bad : Bool) (s : State) : Host.Outcome State Fault Refusal := done (s.readPage evqPg (·.evPop bad))

/-- EVQ_RING_WRITE (R306); `bad`: which of the two entries were corrupted. -/
def execEvqRingWrite (bad : BitVec 2) (s : State) : Host.Outcome State Fault Refusal := done (s.evRing bad.toNat)

/-- TRACE_WRITE (R308). -/
def execTraceWrite (s : State) : Host.Outcome State Fault Refusal := done s.traceWrite

/-- The tail of a burst leaves alone; `bad`: which of its words or records were corrupted in the queue. -/
def State.lingerTail (s : State) (l : Linger) (bad : Nat) : State :=
  match l with
  | .stream c =>
    let s := s.gateRelease c.val
    let n := (s.awlOf c.val).q.length
    if n % 16 = 0 then s
    else ((s.upToMono (s.awlOf c.val).linger).streamPoison c.val bad).streamDrain c.val n
  | .flog e =>
    if (s.eyeOf e.val).flogQ.length = 1 then (s.upToMono (s.eyeOf e.val).flogLinger).flogDrain e.val 1 bad else s
  | .acq q => s.acqTail q.val (((List.range 64).filter bad.testBit).map (fun i => (i / 16, i % 16)))
  | .evq => s.evLone (bad.testBit 0)
  | .trace => s.traceTail

/-- LINGER_EXPIRY (R222). -/
def execLingerExpiry (l : Linger) (bad : Nat) (s : State) : Host.Outcome State Fault Refusal := done (s.lingerTail l bad)

end Sys2Proof.Machine
end

