-- ==== Sys2Proof/Machine/SequencerCmds.lean ====
section
/-!
DEFINITION. The meanings of the commands of the sequencers (R136 to R166).
-/
namespace Sys2Proof.Machine

open Sys2Proof

/-- SEG_WINDOW_WRITE (R140): word `w` of entry `i`. -/
def execSegWindowWrite (i : Fin 131072) (w : Fin 4) (v : W32) (s : State) : Host.Outcome State Fault Refusal :=
  done (s.onLink false (fun s => s.segWrite i.val w.val v))

/-- GO (R158); `v`: the other bits of the write. -/
def execGo (e : Eye) (v : W32) (s : State) : Host.Outcome State Fault Refusal :=
  done (s.onPage (State.eyePg e.val) (fun s => s.seqCtl e.val (v ||| 1)))

/-- SEQ_STOP (R161). -/
def execSeqStop (e : Eye) (v : W32) (s : State) : Host.Outcome State Fault Refusal :=
  done (s.onPage (State.eyePg e.val) (fun s => s.seqCtl e.val (v ||| 2)))

/-- ABORT (R162). -/
def execAbort (e : Eye) (v : W32) (s : State) : Host.Outcome State Fault Refusal :=
  done (s.onPage (State.eyePg e.val) (fun s => s.seqCtl e.val (v ||| 4)))

/-- SEQ_START_TIME (R158): a started group reaches T. -/
def execSeqStartTime (e : Eye) (s : State) : Host.Outcome State Fault Refusal :=
  done (match s.groupOf e.val with
    | some g => if g.st = .running ∧ ¬g.begun ∧ g.holds = 0 then s.groupVector g else s
    | none => s)

/-- SWFLAG (R148). -/
def execSwflag (e : Eye) (v : W32) (s : State) : Host.Outcome State Fault Refusal :=
  done (s.onPage (State.eyePg e.val) (fun s => s.seqFlag e.val v))

/-- SYNC_AT_ARM (R163). -/
def execSyncAtArm (e : Eye) (v : W32) (s : State) : Host.Outcome State Fault Refusal :=
  done (s.onPage (State.eyePg e.val) (fun s => s.syncWrite e.val v))

/-- SYNC_AT_REACHED (R164). -/
def execSyncAtReached (e : Eye) (s : State) : Host.Outcome State Fault Refusal := done (s.syncReached e.val)

end Sys2Proof.Machine
end

