-- ==== Sys2Proof/Machine/StartupCmds.lean ====
section
/-!
DEFINITION. The meanings of the commands of resets, start-up, flash and KILL_N (R388 to R408, R424).
-/
namespace Sys2Proof.Machine

open Sys2Proof

/-- POWER_ON_RESET (R390, R455); `test`: the level at TEST_EN. -/
def execPowerOnReset (test : Bool) (s : State) : Host.Outcome State Fault Refusal := done (s.powerOn test)

/-- RESET_N_ASSERT (R393). -/
def execResetNAssert (s : State) : Host.Outcome State Fault Refusal := done s.pinReset

/-- RESET_N_RELEASE (R390). -/
def execResetNRelease (s : State) : Host.Outcome State Fault Refusal := done s.pinRelease

/-- PERST_ASSERT (R393). -/
def execPerstAssert (s : State) : Host.Outcome State Fault Refusal := done s.perst

/-- PERST_RELEASE (R407): the link trains to a speed and a width. -/
def execPerstRelease (speed : Fin 6) (width : Fin 17) (s : State) : Host.Outcome State Fault Refusal :=
  done (s.perstRelease speed.val width.val)

/-- CHIP (R394); `v`: the other bits of the write to GLB_RST. -/
def execChip (v : W32) (s : State) : Host.Outcome State Fault Refusal :=
  done (s.onPage State.glbPg (fun s => s.rstWrite ((v &&& ~~~0xFF00) ||| 0xA501)))

/-- MGMT_WDOG_EXPIRY (R395). -/
def execMgmtWdogExpiry (s : State) : Host.Outcome State Fault Refusal := done s.wdogReset

/-- STAGE_STEP (R403): what the step finds. -/
def execStageStep (b : Boot) (s : State) : Host.Outcome State Fault Refusal := done (s.stageStep b)

/-- STAGE_FALL (R404). -/
def execStageFall (s : State) : Host.Outcome State Fault Refusal := done s.stageFall

/-- HOLD_AT_WRITE (R404): a write to GLB_STAGE. -/
def execHoldAtWrite (v : W32) (s : State) : Host.Outcome State Fault Refusal :=
  done (s.onPage State.glbPg (fun s => s.writeReg State.glbPg 0x104 v false))

/-- ERASE (R401). -/
def execErase (s : State) : Host.Outcome State Fault Refusal := done (s.onPage State.secPg (fun s => s.flashCmd 1))

/-- PROGRAM (R401). -/
def execProgram (s : State) : Host.Outcome State Fault Refusal := done (s.onPage State.secPg (fun s => s.flashCmd 2))

/-- FLASH_READ (R401). -/
def execFlashRead (s : State) : Host.Outcome State Fault Refusal := done (s.onPage State.secPg (fun s => s.flashCmd 3))

/-- FLASH_OP_DONE (R401); `ok`: the command has not failed. -/
def execFlashOpDone (ok : Bool) (s : State) : Host.Outcome State Fault Refusal := done (s.flashDone ok)

/-- RELEASE_KILL (R424). -/
def execReleaseKill (s : State) : Host.Outcome State Fault Refusal :=
  done (s.onPage State.glbPg (fun s => s.killWrite 1))

end Sys2Proof.Machine
end

