-- ==== Sys2Proof/Machine/ThermalCmds.lean ====
section
/-!
DEFINITION. The meanings of the commands of temperature and power (R428 to R436).
-/
namespace Sys2Proof.Machine

open Sys2Proof

/-- THM_SAMPLE (R428 to R432): sensor n (24 and 25: the stacks), its reading in units of THM_TEMP, and whether the sensor reports
the reading invalid. -/
def execThmSample (n : Fin 26) (raw : Int) (odd : Bool) (s : State) : Host.Outcome State Fault Refusal :=
  done (s.thmSample n.val raw odd)

/-- TRIP_PLL_GATE (R432). -/
def execTripPllGate (s : State) : Host.Outcome State Fault Refusal := done s.pllGate

/-- THERMAL_PARK_DEADLINE (R431). -/
def execThermalParkDeadline (s : State) : Host.Outcome State Fault Refusal := done s.parkDeadline

/-- PWR_FAIL (R434): the tickets are released and flushed after the rise is handled. -/
def execPwrFail (s : State) : Host.Outcome State Fault Refusal := .next s.pwrFail.settle.pwrFlush

/-- PWR_FAIL_END (R433). -/
def execPwrFailEnd (s : State) : Host.Outcome State Fault Refusal := done (s.put State.fltPg F.FLT_STS_PWR_FAIL false)

end Sys2Proof.Machine
end

