-- ==== Sys2Proof/Machine/TimebaseCmds.lean ====
section
/-!
DEFINITION. The meanings of the commands of the timebase (R42 to R72).
-/
namespace Sys2Proof.Machine

open Sys2Proof

/-- REFIN_LOSS (R43). -/
def execRefinLoss (s : State) : Host.Outcome State Fault Refusal := done s.refLoss
/-- REFIN_RETURN (R45, R48): the phase of the timeline at which the returned edges fall, in fraction units modulo 64 UI. -/
def execRefinReturn (phase : BitVec 16) (s : State) : Host.Outcome State Fault Refusal := done (s.refReturn phase.toNat)
/-- REF_LONG (R45). -/
def execRefLong (s : State) : Host.Outcome State Fault Refusal := done s.refLong
/-- FMON_WINDOW (R44): the error measured, in ppm. -/
def execFmonWindow (ppm : Nat) (s : State) : Host.Outcome State Fault Refusal := done (s.fmonWindow ppm)
/-- PLL_LOCK (R46). -/
def execPllLock (s : State) : Host.Outcome State Fault Refusal := done s.pllLock
/-- PLL_UNLOCK (R72). -/
def execPllUnlock (q : Quad) (s : State) : Host.Outcome State Fault Refusal := done (s.pllUnlock q.val)
/-- TIMELINE_START (R47). -/
def execTimelineStart (s : State) : Host.Outcome State Fault Refusal := done s.timelineStart
/-- REF_PRESENT_RISE (R43), outside holdover. -/
def execRefPresentRise (s : State) : Host.Outcome State Fault Refusal :=
  done (if s.holdover then s else s.put tbsPg F.TBS_REF_STS_REF_PRESENT true)
/-- ALIGN_ARM (R53); `v`: the other bits of the write to TBS_LACE_CTL. -/
def execAlignArm (v : W32) (s : State) : Host.Outcome State Fault Refusal :=
  done (s.onPage tbsPg (fun s => s.laceCtl (v ||| 1)))
/-- DISARM (R53). -/
def execDisarm (v : W32) (s : State) : Host.Outcome State Fault Refusal :=
  done (s.onPage tbsPg (fun s => s.laceCtl (v ||| 2)))
/-- ALIGN (R53): the bits sampled on LACE_IN, the last of which completes the frame at its reference instant. -/
def execAlign (line : List Bool) (t : Nat) (s : State) : Host.Outcome State Fault Refusal := done (s.laceIn line t)
/-- ZEROING_EDGE (R56). -/
def execZeroingEdge (s : State) : Host.Outcome State Fault Refusal := done s.zeroingEdge
/-- ALIGN_CHECK (R57). -/
def execAlignCheck (s : State) : Host.Outcome State Fault Refusal := done s.checkEdge
/-- START (R58): the bits sampled on LACE_IN, and the instant of the last. -/
def execStart (line : List Bool) (t : Nat) (s : State) : Host.Outcome State Fault Refusal := done (s.laceIn line t)
/-- COUNT (R52): the bits sampled on LACE_IN, and the instant of the last. -/
def execCount (line : List Bool) (t : Nat) (s : State) : Host.Outcome State Fault Refusal := done (s.laceIn line t)
/-- TRIG (R52): the bits sampled on LACE_IN, and the instant of the last. -/
def execTrig (line : List Bool) (t : Nat) (s : State) : Host.Outcome State Fault Refusal := done (s.laceIn line t)
/-- LACE_CRC (R51): the bits sampled on LACE_IN, and the instant of the last. -/
def execLaceCrc (line : List Bool) (t : Nat) (s : State) : Host.Outcome State Fault Refusal := done (s.laceIn line t)
/-- RSVD_TYPE (R51): the bits sampled on LACE_IN, and the instant of the last. -/
def execRsvdType (line : List Bool) (t : Nat) (s : State) : Host.Outcome State Fault Refusal := done (s.laceIn line t)
/-- GO_LACE_TX (R60); `v`: the other bits of the write to TBS_LACE_TX. -/
def execGoLaceTx (v : W32) (s : State) : Host.Outcome State Fault Refusal :=
  done (s.onPage tbsPg (fun s => s.laceTx (v ||| 0x80000000)))
/-- LACE_TX_DONE (R60). -/
def execLaceTxDone (s : State) : Host.Outcome State Fault Refusal := done s.laceSent
/-- CAP_ARM (R371). -/
def execCapArm (v : W32) (s : State) : Host.Outcome State Fault Refusal :=
  done (s.onPage tbsPg (fun s => s.refcalCtl (v ||| 1)))
/-- REFCAL_EDGE (R371). -/
def execRefcalEdge (t : Nat) (s : State) : Host.Outcome State Fault Refusal := done (s.refcalEdge t)
/-- TRACK_WINDOW (R66). -/
def execTrackWindow (q : Quad) (s : State) : Host.Outcome State Fault Refusal := done (s.trackWindow q.val)
/-- TRACK_LOCKED (R70). -/
def execTrackLocked (q : Quad) (s : State) : Host.Outcome State Fault Refusal := done (s.trackLocked q.val)
/-- TRACK_LOST (R70). -/
def execTrackLost (q : Quad) (s : State) : Host.Outcome State Fault Refusal := done (s.trackLost q.val)
/-- TRACK_RETURN_DONE (R70). -/
def execTrackReturnDone (q : Quad) (s : State) : Host.Outcome State Fault Refusal := done (s.trackDone q.val)

end Sys2Proof.Machine
end

