-- ==== Sys2Proof/Machine/TriggerCmds.lean ====
section
/-!
DEFINITION. Commands of the trigger engines (R234 to R254).
-/
namespace Sys2Proof.Machine

open Sys2Proof

/-- TRG_ARM (R243, R244); `v`: the other bits of the write to TRG_CTL. -/
def execTrgArm (q : Quad) (v : W32) (s : State) : Host.Outcome State Fault Refusal :=
  done (s.onPage (trgPg q.val) (fun s => s.trgCtl q.val (v ||| 1)))

/-- TRG_DISARM (R246). -/
def execTrgDisarm (q : Quad) (v : W32) (s : State) : Host.Outcome State Fault Refusal :=
  done (s.onPage (trgPg q.val) (fun s => s.trgCtl q.val (v ||| 2)))

/-- FORCE (R245). -/
def execForce (q : Quad) (v : W32) (s : State) : Host.Outcome State Fault Refusal :=
  done (s.onPage (trgPg q.val) (fun s => s.trgCtl q.val (v ||| 4)))

/-- TRG_START (R244): the engine reaches B. -/
def execTrgStart (q : Quad) (s : State) : Host.Outcome State Fault Refusal := done (s.trgStart q.val)

/-- TRG_SAMPLE (R238). -/
def execTrgSample (q : Quad) (s : State) : Host.Outcome State Fault Refusal := done (s.trgSample q.val)

/-- ACQ_RECORD_WRITE (R252): records and markers that leave, and words found corrupted among them (R221, R249). -/
def execAcqRecordWrite (q : Quad) (n m : Nat) (bad : List (Nat × Nat)) (s : State) : Host.Outcome State Fault Refusal :=
  done (s.acqDrain q.val n m bad)

/-- DECIM_DOWN (R252). -/
def execDecimDown (q : Quad) (s : State) : Host.Outcome State Fault Refusal := done (s.decimDown q.val)

end Sys2Proof.Machine
end

