-- ==== Sys2Proof/Machine/VampCmds.lean ====
section
/-!
DEFINITION. The meanings of the commands of the vamp buffers (R118 to R131, R477).
-/
namespace Sys2Proof.Machine

open Sys2Proof

/-- GO_VAMP_LOAD (R120); `v`: the other bits of the write. -/
def execGoVampLoad (e : Eye) (v : W32) (s : State) : Host.Outcome State Fault Refusal :=
  done (s.onPage (State.eyePg e.val) (fun s => s.vampLoad e.val (v ||| 0x80000000)))

/-- VAMP_LOAD_DONE (R120). -/
def execVampLoadDone (e : Eye) (s : State) : Host.Outcome State Fault Refusal := done (s.loadDone e.val)

/-- VAMP_WDATA_WRITE (R120). -/
def execVampWdataWrite (e : Eye) (v : W32) (s : State) : Host.Outcome State Fault Refusal :=
  done (s.onPage (State.eyePg e.val) (fun s => s.wdataWrite e.val v))

/-- VAMP_WDATA_READ (R477). -/
def execVampWdataRead (e : Eye) (s : State) : Host.Outcome State Fault Refusal :=
  done (s.readPage (State.eyePg e.val) (·.wdataRead e.val))

/-- GRANULE_COMPLETE (R122): the `i`-th granule awaited. -/
def execGranuleComplete (e : Eye) (i : Nat) (s : State) : Host.Outcome State Fault Refusal :=
  done (s.granComplete e.val i)

/-- PRESENCE_CHECK (R123). -/
def execPresenceCheck (e : Eye) (s : State) : Host.Outcome State Fault Refusal := done (s.presence e.val)

/-- SLACK_RESTART (R125). -/
def execSlackRestart (e : Eye) (s : State) : Host.Outcome State Fault Refusal :=
  done (s.onPage (State.eyePg e.val) (fun s => s.set (State.eyePg e.val) F.EYE_VAMP_SLACK_MIN_SLACK 0xFFFF))

end Sys2Proof.Machine
end

