-- ==== Sys2Proof/Machine/WeltCmds.lean ====
section
/-!
DEFINITION. The meanings of the commands of the Welt (R347 to
R360).
-/
namespace Sys2Proof.Machine

open Sys2Proof

/-- WELT_TRIG_MSG (R353). -/
def execWeltTrigMsg (n : Fin 4) (seq : BitVec 12) (code : Byte) (src : BitVec 6) (mid : Byte) (ttl : BitVec 6) (s : State) :
    Host.Outcome State Fault Refusal :=
  done (s.wltRx n.val seq.toNat (fun s => s.weltMsg ⟨false, 0, code.toNat, src.toNat, mid.toNat, ttl.toNat, some n.val⟩))

/-- WELT_LACE_MSG (R353): a reserved TYPE is a bad packet (R350). -/
def execWeltLaceMsg (n : Fin 4) (seq : BitVec 12) (typ : BitVec 4) (data : BitVec 48) (src : BitVec 6) (mid : Byte)
    (ttl : BitVec 6) (s : State) : Host.Outcome State Fault Refusal :=
  done (if 2 ≤ typ.toNat ∧ typ.toNat ≤ 4 then
      s.wltRx n.val seq.toNat (fun s => s.weltMsg ⟨true, typ.toNat, data.toNat, src.toNat, mid.toNat, ttl.toNat, some n.val⟩)
    else s.wltBad n.val)

/-- WELT_CAPTURE_PACKET (R356): LEN + 1 data blocks of two words. -/
def execWeltCapturePacket (n : Fin 4) (seq : BitVec 12) (ofs : BitVec 30) (len : Fin 16) (ws : List W32) (pmask : BitVec 4)
    (s : State) : Host.Outcome State Fault Refusal :=
  done (s.wltRx n.val seq.toNat (fun s =>
    s.capsRx n.val ofs.toNat ((ws ++ List.replicate 32 0).take (2 * (len.val + 1))) pmask.toNat))

/-- WELT_ACK (R351). -/
def execWeltAck (n : Fin 4) (seq : BitVec 12) (s : State) : Host.Outcome State Fault Refusal := done (s.wltAcked n.val seq.toNat)

/-- WELT_NAK (R351). -/
def execWeltNak (n : Fin 4) (seq : BitVec 12) (s : State) : Host.Outcome State Fault Refusal :=
  done ((s.wltAcked n.val seq.toNat).wltReplay n.val)

/-- WELT_BAD_PACKET (R351). -/
def execWeltBadPacket (n : Fin 4) (s : State) : Host.Outcome State Fault Refusal := done (s.wltBad n.val)

/-- WELT_REPLAY_TIMEOUT (R351). -/
def execWeltReplayTimeout (n : Fin 4) (s : State) : Host.Outcome State Fault Refusal := done (s.wltReplay n.val)

/-- WELT_ACK_TIMER (R351). -/
def execWeltAckTimer (n : Fin 4) (s : State) : Host.Outcome State Fault Refusal :=
  done (if (s.wltOf n.val).due = 0 then s else s.wltAck n.val false)

/-- WLT_MSG_GO (R352); `v`: the other bits of the write to WLT_MSG. -/
def execWltMsgGo (v : W32) (s : State) : Host.Outcome State Fault Refusal :=
  done (s.onPage (wltPg 0) (fun s => s.msgCtl (v ||| 0x80000000)))

/-- WELT_MSG_SEND (R352). -/
def execWeltMsgSend (s : State) : Host.Outcome State Fault Refusal := done s.weltSend

/-- WELT_LAST_EXPIRY (R353). -/
def execWeltLastExpiry (src : BitVec 6) (s : State) : Host.Outcome State Fault Refusal := done (s.lastExpiry src.toNat)

/-- WELT_TRAIN_DONE (R357): lanes that train, and the far device's number. -/
def execWeltTrainDone (n : Fin 4) (good : BitVec 4) (far : BitVec 6) (s : State) : Host.Outcome State Fault Refusal :=
  done (s.trainDone n.val good.toNat far.toNat)

/-- LANE_FAIL (R358). -/
def execLaneFail (n lane : Fin 4) (s : State) : Host.Outcome State Fault Refusal := done (s.laneFail n.val lane.val)

/-- WELT_LINK_DOWN (R351). -/
def execWeltLinkDown (n : Fin 4) (s : State) : Host.Outcome State Fault Refusal := done (s.wltDown n.val)

/-- RATE (R349). -/
def execRate (n : Fin 4) (s : State) : Host.Outcome State Fault Refusal :=
  done ((s.put (wltPg n.val) F.WLT_STS_RATE true).rise (wltPg n.val) X.WLT_RATE)

/-- RETRAIN (R358); `v`: the other bits of the write to WLT_CTL. -/
def execRetrain (n : Fin 4) (v : W32) (s : State) : Host.Outcome State Fault Refusal :=
  done (s.onPage (wltPg n.val) (fun s => s.wltCtl n.val (v ||| 0x20000)))

/-- WELT_SLEEP_ENTRY (R359). -/
def execWeltSleepEntry (n : Fin 4) (far : Bool) (s : State) : Host.Outcome State Fault Refusal := done (s.sleepEntry n.val far)

/-- WAKE (R359). -/
def execWake (n : Fin 4) (v : W32) (s : State) : Host.Outcome State Fault Refusal :=
  done (s.onPage (wltPg n.val) (fun s => s.wltCtl n.val (v ||| 0x10000)))

/-- WELT_WAKE_DONE (R359). -/
def execWeltWakeDone (n : Fin 4) (far : Bool) (s : State) : Host.Outcome State Fault Refusal := done (s.wakeDone n.val far)

/-- CAPS_GO (R356); `v`: the other bits of the write to WLT_CAPS_CTL. -/
def execCapsGo (n : Fin 4) (v : W32) (s : State) : Host.Outcome State Fault Refusal :=
  done (s.onPage (wltPg n.val) (fun s => s.capsCtl n.val (v ||| 0x10000000)))

/-- ESCAN_GO (R360). -/
def execEscanGo (n : Fin 4) (v : W32) (s : State) : Host.Outcome State Fault Refusal :=
  done (s.onPage (wltPg n.val) (fun s => s.scanCtl n.val (v ||| 0x200000)))

/-- ESCAN_DONE (R360): disagreements counted. -/
def execEscanDone (n : Fin 4) (errs : Nat) (s : State) : Host.Outcome State Fault Refusal := done (s.scanDone n.val errs)

end Sys2Proof.Machine
end

