-- ==== Sys2Proof/Machine/XbarCmds.lean ====
section
/-!
DEFINITION. The meanings of the commands of HBM and its crossbars (R311 to R335).
-/
namespace Sys2Proof.Machine

open Sys2Proof

/-- SLOT (R328): `req` are the accesses that have become ready since the slot before. -/
def execSlot (x : Fin 2) (req : List MemReq) (s : State) : Host.Outcome State Fault Refusal :=
  done (s.slot x.val (req.map (fun r => ⟨r.port.val, r.addr.toNat / 32 * 32, r.wr, r.load, r.log, 0⟩)))

/-- HBM_ACCESS_ISSUE (R324). -/
def execHbmAccessIssue (x : Fin 2) (pch : Fin 32) (busy : BitVec 16) (draw : Bool) (s : State) : Host.Outcome State Fault Refusal :=
  done (s.issue x.val pch.val busy.toNat draw)

/-- HBM_READ_RETURN (R318): entry `k` of the reads issued. -/
def execHbmReadReturn (x : Fin 2) (k : Nat) (e0 e1 : Fin 3) (s : State) : Host.Outcome State Fault Refusal :=
  done (s.readReturn x.val k e0.val e1.val)

/-- URGENCY_RISE (R324): entry `k` of the queues. -/
def execUrgencyRise (x : Fin 2) (k : Nat) (s : State) : Host.Outcome State Fault Refusal := done (s.urgency x.val k)

/-- WAIT_FORCED (R331). -/
def execWaitForced (x : Fin 2) (p : Fin 48) (s : State) : Host.Outcome State Fault Refusal := done (s.waitForced x.val p.val)

/-- REFRESH (R320). -/
def execRefresh (x : Fin 2) (pch : Fin 32) (bank : Fin 16) (s : State) : Host.Outcome State Fault Refusal :=
  done (s.refresh x.val pch.val bank.val)

/-- NBR_REFRESH (R322). -/
def execNbrRefresh (x : Fin 2) (s : State) : Host.Outcome State Fault Refusal := done (s.nbrRefresh x.val)

/-- SR_ENTRY (R321). -/
def execSrEntry (x : Fin 2) (s : State) : Host.Outcome State Fault Refusal := done (s.srEntry x.val)

/-- SR_EXIT (R321). -/
def execSrExit (x : Fin 2) (s : State) : Host.Outcome State Fault Refusal := done (s.srExit x.val)

/-- REPAIR_START (R319). -/
def execRepairStart (x : Fin 2) (s : State) : Host.Outcome State Fault Refusal := done (s.repairStart x.val)

/-- REPAIR_DONE (R319). -/
def execRepairDone (x : Fin 2) (s : State) : Host.Outcome State Fault Refusal := done (s.repairDone x.val)

/-- STACK_FAIL (R335). -/
def execStackFail (x : Fin 2) (s : State) : Host.Outcome State Fault Refusal := done (s.stackFail x.val)

/-- STACK_RESPONSE_RETURN (R335): the cause of STACK_FAIL ends. -/
def execStackResponseReturn (x : Fin 2) (s : State) : Host.Outcome State Fault Refusal :=
  done (s.setXbr x.val { s.xbrOf x.val with dead := false })

end Sys2Proof.Machine
end

