-- ==== Sys2Proof/Machine/Dispatch.lean ====
section
/-!
DEFINITION. The meaning of each command: one arm per constructor of Instr, in the order of the table.
-/
namespace Sys2Proof.Machine

open Sys2Proof

def exec (i : Instr) (s : State) : Host.Outcome State Fault Refusal :=
  match i with
  | .registerWrite ofs v be ep => Sys2Proof.Machine.execRegisterWrite ofs v be ep s
  | .rcRead ofs => Sys2Proof.Machine.execRcRead ofs s
  | .wideRegisterLoRead ofs => Sys2Proof.Machine.execWideRegisterLoRead ofs s
  | .pgEnableWrite p v => Sys2Proof.Machine.execPgEnableWrite p v s
  | .blockReset p => Sys2Proof.Machine.execBlockReset p s
  | .blockResetDone p ok => Sys2Proof.Machine.execBlockResetDone p ok s
  | .cfgLock p => Sys2Proof.Machine.execCfgLock p s
  | .pgCommit p => Sys2Proof.Machine.execPgCommit p s
  | .tableCommit p => Sys2Proof.Machine.execTableCommit p s
  | .shadowCopyDone p => Sys2Proof.Machine.execShadowCopyDone p s
  | .faultClear p v => Sys2Proof.Machine.execFaultClear p v s
  | .fltClassWrite p v => Sys2Proof.Machine.execFltClassWrite p v s
  | .fltRxnWrite p v => Sys2Proof.Machine.execFltRxnWrite p v s
  | .trapHandler d0 d1 => Sys2Proof.Machine.execTrapHandler d0 d1 s
  | .faultChipReset => Sys2Proof.Machine.execFaultChipReset s
  | .fltLogPop bad => Sys2Proof.Machine.execFltLogPop bad s
  | .leaveDev => Sys2Proof.Machine.execLeaveDev s
  | .leaveEye m => Sys2Proof.Machine.execLeaveEye m s
  | .heelLeaveDone bad => Sys2Proof.Machine.execHeelLeaveDone bad s
  | .refinLoss => Sys2Proof.Machine.execRefinLoss s
  | .refinReturn phase => Sys2Proof.Machine.execRefinReturn phase s
  | .refLong => Sys2Proof.Machine.execRefLong s
  | .fmonWindow ppm => Sys2Proof.Machine.execFmonWindow ppm s
  | .pllLock => Sys2Proof.Machine.execPllLock s
  | .pllUnlock q => Sys2Proof.Machine.execPllUnlock q s
  | .timelineStart => Sys2Proof.Machine.execTimelineStart s
  | .alignArm v => Sys2Proof.Machine.execAlignArm v s
  | .disarm v => Sys2Proof.Machine.execDisarm v s
  | .align line t => Sys2Proof.Machine.execAlign line t s
  | .zeroingEdge => Sys2Proof.Machine.execZeroingEdge s
  | .alignCheck => Sys2Proof.Machine.execAlignCheck s
  | .start line t => Sys2Proof.Machine.execStart line t s
  | .count line t => Sys2Proof.Machine.execCount line t s
  | .trig line t => Sys2Proof.Machine.execTrig line t s
  | .laceCrc line t => Sys2Proof.Machine.execLaceCrc line t s
  | .rsvdType line t => Sys2Proof.Machine.execRsvdType line t s
  | .goLaceTx v => Sys2Proof.Machine.execGoLaceTx v s
  | .laceTxDone => Sys2Proof.Machine.execLaceTxDone s
  | .capArm v => Sys2Proof.Machine.execCapArm v s
  | .refcalEdge t => Sys2Proof.Machine.execRefcalEdge t s
  | .trackWindow q => Sys2Proof.Machine.execTrackWindow q s
  | .trackLocked q => Sys2Proof.Machine.execTrackLocked q s
  | .trackLost q => Sys2Proof.Machine.execTrackLost q s
  | .trackReturnDone q => Sys2Proof.Machine.execTrackReturnDone q s
  | .vectorBoundary e => Sys2Proof.Machine.execVectorBoundary e s
  | .stitch c => Sys2Proof.Machine.execStitch c s
  | .wftWrite c v => Sys2Proof.Machine.execWftWrite c v s
  | .wftRead c => Sys2Proof.Machine.execWftRead c s
  | .dwellStart e => Sys2Proof.Machine.execDwellStart e s
  | .checkStitch e => Sys2Proof.Machine.execCheckStitch e s
  | .mismatchDecision e live spare noLive noSpare t => Sys2Proof.Machine.execMismatchDecision e live spare noLive noSpare t s
  | .takeover e => Sys2Proof.Machine.execTakeover e s
  | .goVampLoad e v => Sys2Proof.Machine.execGoVampLoad e v s
  | .vampLoadDone e => Sys2Proof.Machine.execVampLoadDone e s
  | .vampWdataWrite e v => Sys2Proof.Machine.execVampWdataWrite e v s
  | .vampWdataRead e => Sys2Proof.Machine.execVampWdataRead e s
  | .granuleComplete e k => Sys2Proof.Machine.execGranuleComplete e k s
  | .presenceCheck e => Sys2Proof.Machine.execPresenceCheck e s
  | .slackRestart e => Sys2Proof.Machine.execSlackRestart e s
  | .segWindowWrite n w v => Sys2Proof.Machine.execSegWindowWrite n w v s
  | .go e v => Sys2Proof.Machine.execGo e v s
  | .seqStop e v => Sys2Proof.Machine.execSeqStop e v s
  | .abort e v => Sys2Proof.Machine.execAbort e v s
  | .seqStartTime e => Sys2Proof.Machine.execSeqStartTime e s
  | .swflag e v => Sys2Proof.Machine.execSwflag e v s
  | .syncAtArm e v => Sys2Proof.Machine.execSyncAtArm e v s
  | .syncAtReached e => Sys2Proof.Machine.execSyncAtReached e s
  | .failArrival => Sys2Proof.Machine.execFailArrival s
  | .siteSummaryFinal n => Sys2Proof.Machine.execSiteSummaryFinal n s
  | .flogWrite e bad => Sys2Proof.Machine.execFlogWrite e bad s
  | .logDone e => Sys2Proof.Machine.execLogDone e s
  | .evtPulseEnd n => Sys2Proof.Machine.execEvtPulseEnd n s
  | .goDds e v => Sys2Proof.Machine.execGoDds e v s
  | .ddsStop e v => Sys2Proof.Machine.execDdsStop e v s
  | .ddsStartTime e => Sys2Proof.Machine.execDdsStartTime e s
  | .hop e => Sys2Proof.Machine.execHop e s
  | .hopPush e v => Sys2Proof.Machine.execHopPush e v s
  | .ddsListWrite e v => Sys2Proof.Machine.execDdsListWrite e v s
  | .ddsListRead e => Sys2Proof.Machine.execDdsListRead e s
  | .pelTxGo e v => Sys2Proof.Machine.execPelTxGo e v s
  | .pelFrameStart e => Sys2Proof.Machine.execPelFrameStart e s
  | .pelFrameDone e sdi => Sys2Proof.Machine.execPelFrameDone e sdi s
  | .cmpTransition c high level t => Sys2Proof.Machine.execCmpTransition c high level t s
  | .stampArrival => Sys2Proof.Machine.execStampArrival s
  | .streamBurstWrite c bad => Sys2Proof.Machine.execStreamBurstWrite c bad s
  | .lingerExpiry l bad => Sys2Proof.Machine.execLingerExpiry l bad s
  | .flush e v bad => Sys2Proof.Machine.execFlush e v bad s
  | .gateOpen q t => Sys2Proof.Machine.execGateOpen q t s
  | .gateClose q t => Sys2Proof.Machine.execGateClose q t s
  | .iuArm e u v => Sys2Proof.Machine.execIuArm e u v s
  | .iuDisarm e u v => Sys2Proof.Machine.execIuDisarm e u v s
  | .iuTimeout e u => Sys2Proof.Machine.execIuTimeout e u s
  | .iuGateEnd e u => Sys2Proof.Machine.execIuGateEnd e u s
  | .iuResultPop e u bad => Sys2Proof.Machine.execIuResultPop e u bad s
  | .trgArm q v => Sys2Proof.Machine.execTrgArm q v s
  | .trgDisarm q v => Sys2Proof.Machine.execTrgDisarm q v s
  | .force q v => Sys2Proof.Machine.execForce q v s
  | .trgStart q => Sys2Proof.Machine.execTrgStart q s
  | .trgSample q => Sys2Proof.Machine.execTrgSample q s
  | .acqRecordWrite q n m bad => Sys2Proof.Machine.execAcqRecordWrite q n m bad s
  | .decimDown q => Sys2Proof.Machine.execDecimDown q s
  | .aneJobTake q bad => Sys2Proof.Machine.execAneJobTake q bad s
  | .aneXferDone q w => Sys2Proof.Machine.execAneXferDone q w s
  | .aneNext q => Sys2Proof.Machine.execAneNext q s
  | .aneJump q => Sys2Proof.Machine.execAneJump q s
  | .aneBlock q => Sys2Proof.Machine.execAneBlock q s
  | .aneBranch q => Sys2Proof.Machine.execAneBranch q s
  | .aneCall q => Sys2Proof.Machine.execAneCall q s
  | .aneRet q => Sys2Proof.Machine.execAneRet q s
  | .aneBexp q => Sys2Proof.Machine.execAneBexp q s
  | .aneLdp q => Sys2Proof.Machine.execAneLdp q s
  | .aneXfer q => Sys2Proof.Machine.execAneXfer q s
  | .aneWait q => Sys2Proof.Machine.execAneWait q s
  | .aneDone q => Sys2Proof.Machine.execAneDone q s
  | .aneSetk q => Sys2Proof.Machine.execAneSetk q s
  | .aneNop q => Sys2Proof.Machine.execAneNop q s
  | .aneMul q => Sys2Proof.Machine.execAneMul q s
  | .aneMac q => Sys2Proof.Machine.execAneMac q s
  | .aneMsu q => Sys2Proof.Machine.execAneMsu q s
  | .aneClra q => Sys2Proof.Machine.execAneClra q s
  | .aneMova q => Sys2Proof.Machine.execAneMova q s
  | .aneAdd q => Sys2Proof.Machine.execAneAdd q s
  | .aneSub q => Sys2Proof.Machine.execAneSub q s
  | .aneAbs q => Sys2Proof.Machine.execAneAbs q s
  | .aneMin q => Sys2Proof.Machine.execAneMin q s
  | .aneMax q => Sys2Proof.Machine.execAneMax q s
  | .aneAnd q => Sys2Proof.Machine.execAneAnd q s
  | .aneOr q => Sys2Proof.Machine.execAneOr q s
  | .aneXor q => Sys2Proof.Machine.execAneXor q s
  | .aneShl q => Sys2Proof.Machine.execAneShl q s
  | .aneShr q => Sys2Proof.Machine.execAneShr q s
  | .aneMov q => Sys2Proof.Machine.execAneMov q s
  | .aneCgt q => Sys2Proof.Machine.execAneCgt q s
  | .aneCeq q => Sys2Proof.Machine.execAneCeq q s
  | .aneRsum q => Sys2Proof.Machine.execAneRsum q s
  | .aneGetb q => Sys2Proof.Machine.execAneGetb q s
  | .aneLane q => Sys2Proof.Machine.execAneLane q s
  | .aneLd16 q w => Sys2Proof.Machine.execAneLd16 q w s
  | .aneLd32 q w => Sys2Proof.Machine.execAneLd32 q w s
  | .aneLdb32 q w => Sys2Proof.Machine.execAneLdb32 q w s
  | .aneLdu16 q w => Sys2Proof.Machine.execAneLdu16 q w s
  | .aneLoadData q n => Sys2Proof.Machine.execAneLoadData q n s
  | .aneSt16 q w => Sys2Proof.Machine.execAneSt16 q w s
  | .aneSt32 q w => Sys2Proof.Machine.execAneSt32 q w s
  | .aneSta q w => Sys2Proof.Machine.execAneSta q w s
  | .aneBudget q => Sys2Proof.Machine.execAneBudget q s
  | .aneAbort q v => Sys2Proof.Machine.execAneAbort q v s
  | .aneJobqSubmit q v => Sys2Proof.Machine.execAneJobqSubmit q v s
  | .marchGo q v => Sys2Proof.Machine.execMarchGo q v s
  | .marchDone q banks uc a x => Sys2Proof.Machine.execMarchDone q banks uc a x s
  | .spadFetchadd a v ep w => Sys2Proof.Machine.execSpadFetchadd a v ep w s
  | .spadSwap a v ep w => Sys2Proof.Machine.execSpadSwap a v ep w s
  | .unsupportedAtomic => Sys2Proof.Machine.execUnsupportedAtomic s
  | .lastSpadAtomic n q a swap v w => Sys2Proof.Machine.execLastSpadAtomic n q a swap v w s
  | .bar4Write a bs ep w => Sys2Proof.Machine.execBar4Write a bs ep w s
  | .bar4Read a n w => Sys2Proof.Machine.execBar4Read a n w s
  | .ticketSubmit v => Sys2Proof.Machine.execTicketSubmit v s
  | .ctrDec v => Sys2Proof.Machine.execCtrDec v s
  | .ctrSet v => Sys2Proof.Machine.execCtrSet v s
  | .evtEdge n rising => Sys2Proof.Machine.execEvtEdge n rising s
  | .dispatch => Sys2Proof.Machine.execDispatch s
  | .affWaitExpiry slot => Sys2Proof.Machine.execAffWaitExpiry slot s
  | .dispatchSwitch => Sys2Proof.Machine.execDispatchSwitch s
  | .burst slot => Sys2Proof.Machine.execBurst slot s
  | .measure slot => Sys2Proof.Machine.execMeasure slot s
  | .analyze slot => Sys2Proof.Machine.execAnalyze slot s
  | .write slot => Sys2Proof.Machine.execWrite slot s
  | .wait slot => Sys2Proof.Machine.execWait slot s
  | .waitAtReached slot => Sys2Proof.Machine.execWaitAtReached slot s
  | .post slot => Sys2Proof.Machine.execPost slot s
  | .ticketComplete slot bad => Sys2Proof.Machine.execTicketComplete slot bad s
  | .ticketTimeout slot => Sys2Proof.Machine.execTicketTimeout slot s
  | .release slot => Sys2Proof.Machine.execRelease slot s
  | .rerunRecord => Sys2Proof.Machine.execRerunRecord s
  | .lstWdogExpiry n => Sys2Proof.Machine.execLstWdogExpiry n s
  | .lstMemUncorr n => Sys2Proof.Machine.execLstMemUncorr n s
  | .evqPop bad => Sys2Proof.Machine.execEvqPop bad s
  | .evqRingWrite bad => Sys2Proof.Machine.execEvqRingWrite bad s
  | .traceWrite => Sys2Proof.Machine.execTraceWrite s
  | .slot x req => Sys2Proof.Machine.execSlot x req s
  | .hbmAccessIssue x pch busy draw => Sys2Proof.Machine.execHbmAccessIssue x pch busy draw s
  | .hbmReadReturn x k e0 e1 => Sys2Proof.Machine.execHbmReadReturn x k e0 e1 s
  | .urgencyRise x k => Sys2Proof.Machine.execUrgencyRise x k s
  | .waitForced x p => Sys2Proof.Machine.execWaitForced x p s
  | .refresh x pch bank => Sys2Proof.Machine.execRefresh x pch bank s
  | .nbrRefresh x => Sys2Proof.Machine.execNbrRefresh x s
  | .srEntry x => Sys2Proof.Machine.execSrEntry x s
  | .srExit x => Sys2Proof.Machine.execSrExit x s
  | .repairStart x => Sys2Proof.Machine.execRepairStart x s
  | .repairDone x => Sys2Proof.Machine.execRepairDone x s
  | .stackFail x => Sys2Proof.Machine.execStackFail x s
  | .bar2Read o n => Sys2Proof.Machine.execBar2Read o n s
  | .bar2Write o bs ep => Sys2Proof.Machine.execBar2Write o bs ep s
  | .aptBaseWrite v => Sys2Proof.Machine.execAptBaseWrite v s
  | .cplTmo e tx d => Sys2Proof.Machine.execCplTmo e tx d s
  | .pcieConfigRequest k w => Sys2Proof.Machine.execPcieConfigRequest k w s
  | .pcieLinkDown => Sys2Proof.Machine.execPcieLinkDown s
  | .d3hotEntry => Sys2Proof.Machine.execD3hotEntry s
  | .d0Return => Sys2Proof.Machine.execD0Return s
  | .weltTrigMsg n seq code src mid ttl => Sys2Proof.Machine.execWeltTrigMsg n seq code src mid ttl s
  | .weltLaceMsg n seq typ data src mid ttl => Sys2Proof.Machine.execWeltLaceMsg n seq typ data src mid ttl s
  | .weltCapturePacket n seq ofs len ws pmask => Sys2Proof.Machine.execWeltCapturePacket n seq ofs len ws pmask s
  | .weltAck n seq => Sys2Proof.Machine.execWeltAck n seq s
  | .weltNak n seq => Sys2Proof.Machine.execWeltNak n seq s
  | .weltBadPacket n => Sys2Proof.Machine.execWeltBadPacket n s
  | .weltReplayTimeout n => Sys2Proof.Machine.execWeltReplayTimeout n s
  | .weltAckTimer n => Sys2Proof.Machine.execWeltAckTimer n s
  | .wltMsgGo v => Sys2Proof.Machine.execWltMsgGo v s
  | .weltMsgSend => Sys2Proof.Machine.execWeltMsgSend s
  | .weltLastExpiry src => Sys2Proof.Machine.execWeltLastExpiry src s
  | .weltTrainDone n good far => Sys2Proof.Machine.execWeltTrainDone n good far s
  | .laneFail n lane => Sys2Proof.Machine.execLaneFail n lane s
  | .weltLinkDown n => Sys2Proof.Machine.execWeltLinkDown n s
  | .rate n => Sys2Proof.Machine.execRate n s
  | .retrain n v => Sys2Proof.Machine.execRetrain n v s
  | .weltSleepEntry n far => Sys2Proof.Machine.execWeltSleepEntry n far s
  | .wake n v => Sys2Proof.Machine.execWake n v s
  | .weltWakeDone n far => Sys2Proof.Machine.execWeltWakeDone n far s
  | .capsGo n v => Sys2Proof.Machine.execCapsGo n v s
  | .escanGo n v => Sys2Proof.Machine.execEscanGo n v s
  | .escanDone n errs => Sys2Proof.Machine.execEscanDone n errs s
  | .ethRxFrame e f st d => Sys2Proof.Machine.execEthRxFrame e f st d s
  | .ethTxFrame e f d bad => Sys2Proof.Machine.execEthTxFrame e f d bad s
  | .ethLinkDown e => Sys2Proof.Machine.execEthLinkDown e s
  | .ptpCapture => Sys2Proof.Machine.execPtpCapture s
  | .set v => Sys2Proof.Machine.execSet v s
  | .step v => Sys2Proof.Machine.execStep v s
  | .invalidate v => Sys2Proof.Machine.execInvalidate v s
  | .ptpSlewDone => Sys2Proof.Machine.execPtpSlewDone s
  | .pgGo g v => Sys2Proof.Machine.execPgGo g v s
  | .pgStop g v => Sys2Proof.Machine.execPgStop g v s
  | .pgPulse g => Sys2Proof.Machine.execPgPulse g s
  | .thmSample n raw odd => Sys2Proof.Machine.execThmSample n raw odd s
  | .tripPllGate => Sys2Proof.Machine.execTripPllGate s
  | .thermalParkDeadline => Sys2Proof.Machine.execThermalParkDeadline s
  | .calTargetUpdate e => Sys2Proof.Machine.execCalTargetUpdate e s
  | .slewPeriod => Sys2Proof.Machine.execSlewPeriod s
  | .calWinWrite v => Sys2Proof.Machine.execCalWinWrite v s
  | .calWinRead => Sys2Proof.Machine.execCalWinRead s
  | .save v => Sys2Proof.Machine.execSave v s
  | .saveDone ok => Sys2Proof.Machine.execSaveDone ok s
  | .load v => Sys2Proof.Machine.execLoad v s
  | .clr v => Sys2Proof.Machine.execClr v s
  | .powerOnReset test => Sys2Proof.Machine.execPowerOnReset test s
  | .resetNAssert => Sys2Proof.Machine.execResetNAssert s
  | .resetNRelease => Sys2Proof.Machine.execResetNRelease s
  | .perstAssert => Sys2Proof.Machine.execPerstAssert s
  | .perstRelease speed width => Sys2Proof.Machine.execPerstRelease speed width s
  | .chip v => Sys2Proof.Machine.execChip v s
  | .mgmtWdogExpiry => Sys2Proof.Machine.execMgmtWdogExpiry s
  | .stageStep b => Sys2Proof.Machine.execStageStep b s
  | .stageFall => Sys2Proof.Machine.execStageFall s
  | .holdAtWrite v => Sys2Proof.Machine.execHoldAtWrite v s
  | .erase => Sys2Proof.Machine.execErase s
  | .program => Sys2Proof.Machine.execProgram s
  | .flashRead => Sys2Proof.Machine.execFlashRead s
  | .flashOpDone ok => Sys2Proof.Machine.execFlashOpDone ok s
  | .releaseKill => Sys2Proof.Machine.execReleaseKill s
  | .pwrFail => Sys2Proof.Machine.execPwrFail s
  | .pwrFailEnd => Sys2Proof.Machine.execPwrFailEnd s
  | .idcode => Sys2Proof.Machine.execIdcode s
  | .samplePreload => Sys2Proof.Machine.execSamplePreload s
  | .extest => Sys2Proof.Machine.execExtest s
  | .extestPulse => Sys2Proof.Machine.execExtestPulse s
  | .extestTrain => Sys2Proof.Machine.execExtestTrain s
  | .highz => Sys2Proof.Machine.execHighz s
  | .clamp => Sys2Proof.Machine.execClamp s
  | .bypass => Sys2Proof.Machine.execBypass s
  | .testLogicReset => Sys2Proof.Machine.execTestLogicReset s
  | .smbArp a => Sys2Proof.Machine.execSmbArp a s
  | .smbReadStage => Sys2Proof.Machine.execSmbReadStage s
  | .smbReadFltSts => Sys2Proof.Machine.execSmbReadFltSts s
  | .smbReadTemp => Sys2Proof.Machine.execSmbReadTemp s
  | .smbReadHbmTemp => Sys2Proof.Machine.execSmbReadHbmTemp s
  | .smbReadStatus => Sys2Proof.Machine.execSmbReadStatus s
  | .refPresentRise => Sys2Proof.Machine.execRefPresentRise s
  | .clockEdge e => Sys2Proof.Machine.execClockEdge e s
  | .pcieLinkUp speed width => Sys2Proof.Machine.execPcieLinkUp speed width s
  | .ethLinkUp e => Sys2Proof.Machine.execEthLinkUp e s
  | .stackResponseReturn x => Sys2Proof.Machine.execStackResponseReturn x s

end Sys2Proof.Machine
end

