-- ==== Sys2Proof/Machine/Step.lean ====
section
/-!
DEFINITION. One step of the block: the command at the front of the queue is carried out with the queue's rest; on an
empty queue one core cycle passes.
-/
namespace Sys2Proof.Machine

open Sys2Proof

/-- One core cycle passes with no command: the timeline, where it runs, advances by 4 UI (R23). DESIGN CHOICE. -/
def idle (s : State) : State := if s.tlOn then { s with now := s.now + 4096 } else s

/-- One step. -/
def step (s : State) : Host.Outcome State Fault Refusal :=
  match s.pending with
  | [] => .next (idle s)
  | c :: rest => exec c { s with pending := rest }

/-- The state with the command that a table word spells put at the front of its queue; unchanged where the word
spells none, which is every word. -/
def State.withFetchWord (s : State) (nbits w : Nat) : State :=
  match decodeTableWord nbits w with
  | none => s
  | some c => { s with pending := c :: s.pending }

end Sys2Proof.Machine
end

