-- ==== Sys2Proof/Safety.lean ====
section
/-!
DEFINITION. The terms in which the statements speak: a safe step, the own effect of a command, the forms a host access
meets, and a change of one register only.
-/
namespace Sys2Proof

open Sys2Proof.Machine

/-- A step that neither stops with a fault nor is refused. -/
def SafeStep (s : State) : Prop := ∃ t, step s = .next t

/-- The command answers a next state: its own effect on `s` is `t`, and the fault collector then handles, in the same
core cycle, what has risen (R414); where nothing has risen the next state is `t` itself (`RisesAreRecordedOnce`). -/
def Does (c : Instr) (s t : State) : Prop := exec c s = .next t.settle

/-- A host write reaches page `p`: memory requests are served (not in D3hot, R346, nor at stage 0, R7), no block reset of
the page runs (R444), and the page answers: it is present and not closed by recovery (R399). -/
abbrev Reaches (s : State) (p : Nat) : Prop :=
  s.offLink = false ∧ s.resetting.contains p = false ∧ s.answers p = true

/-- A host read reaches page `p`: memory requests are served and the page answers; a block reset of the page does not
keep it from being read. -/
abbrev Readable (s : State) (p : Nat) : Prop := s.offLink = false ∧ s.answers p = true

/-- No orderly stop is in progress and no block reset waits for its boundary, so that the collector has only rises to
handle after a command. -/
abbrev Quiet (s : State) : Prop := s.thm.stops = [] ∧ s.flt.resetDue = []

/-- A page type whose own registers have no action beyond their fields (R451). -/
abbrev PlainPage (t : Nat) : Prop := t = T.spr ∨ t = T.eth ∨ t = T.lst

/-- `t` differs from `s` at most in the register at offset `o` of page `p`: the value written and the value in force. -/
def OnlyReg (s t : State) (p o : Nat) : Prop :=
  t = { s with regs := t.regs, held := t.held } ∧
    ∀ q a, rkey q a ≠ rkey p o → t.rd q a = s.rd q a ∧ t.eff q a = s.eff q a

/-- Commands whose effect may reach the contents of HBM: stores, loads that drain queues, transfers and what ends them
(an analysis job that ends leaves the accesses its transfers have made, R280), repairs and resets. -/
def mayStore : Instr → Bool
  | .registerWrite .. | .faultChipReset .. | .flogWrite .. | .stampArrival .. | .streamBurstWrite ..
  | .lingerExpiry .. | .flush .. | .gateOpen .. | .iuTimeout .. | .iuGateEnd .. | .acqRecordWrite ..
  | .aneXferDone .. | .aneAbort .. | .aneBexp .. | .aneBlock .. | .aneBranch .. | .aneBudget .. | .aneCall ..
  | .aneDone .. | .aneJobTake .. | .aneJump .. | .aneLdp .. | .aneNext .. | .aneRet .. | .aneSetk .. | .aneWait ..
  | .aneXfer .. | .blockReset .. | .cfgLock .. | .pgEnableWrite .. | .lstWdogExpiry .. | .lstMemUncorr ..
  | .write .. | .ticketComplete .. | .ticketTimeout .. | .traceWrite .. | .hbmReadReturn .. | .repairDone ..
  | .bar2Write .. | .weltCapturePacket .. | .thmSample .. | .thermalParkDeadline .. | .heelLeaveDone ..
  | .powerOnReset .. | .resetNAssert .. | .chip .. | .mgmtWdogExpiry .. | .stageStep .. | .stageFall .. | .pwrFail ..
  | .extest .. | .extestPulse .. | .extestTrain .. | .highz .. | .clamp .. => true
  | _ => false

/-- A lace frame as 64 bits in line order, bit 0 first: SYNC, a type, a payload, a good CRC (R50). -/
abbrev LineFrame (w typ : Nat) : Prop :=
  w < 2 ^ 64 ∧ w % 16 = 0xB ∧ bits w 7 4 = typ ∧ crc8 (lineBits 52 (w / 16)) = bits w 63 56

/-- A frame stands at its reference instant: with OUT_MODE 2 its bits are repeated (R60), its last bit is sampled at the
first sampling edge at or after `t`, and the receiver is outside a frame again (R50, R51). -/
def heard (s : State) (w t : Nat) : State :=
  let e := if s.get tbsPg F.TBS_LACE_CTL_OUT_MODE = 2 then s.emit (.lace (lineBits 64 w)) else s
  let u := e.upTo (e.sampleEdge (max t e.now))
  { u with lace := { u.lace with rx := [], line := w.testBit 63 } }

/-- Bits on LACE_IN that come while the receiver is off are lost, and it is inside no frame. -/
def unheard (s : State) : State := { s with lace := { s.lace with rx := [], line := false } }

/-- A frame of a sequencer's stack is a call. -/
def isCall : Frame → Bool
  | .call _ => true
  | .block .. => false

end Sys2Proof
end

