-- ==== Sys2Proof/Certificates/Slice0/Obligations.lean ====
section
/-!
DEFINITION. The statements for the provers.
-/

open Sys2Proof Sys2Proof.Machine Sys2Proof.Machine.State

/-- R393, R395, R403, R424: right after reset no command waits, every register reads its reset value (GLB_RST_CAUSE the
two causes of a start at power-on, the last-stage limit 4), the start-up stage is 0, KILL_N is asserted, the
timeline stands at 0, no block reset runs, and memory has its reset contents. -/
def Obligations.StateAtReset : Prop :=
  let r := State.reset
  r.pending = [] ∧ (∀ p o, r.rd p o = resetWord p o ∧ r.eff p o = resetWord p o) ∧ r.rd glbPg 0x10C = 3 ∧
    r.stage = 0 ∧ r.holdAt = 4 ∧ r.flag glbPg F.GLB_KILL_ASSERTED = true ∧ r.flag glbPg F.GLB_KILL_RELEASE = false ∧
    r.now = 0 ∧ r.tlOn = false ∧ r.resetting = [] ∧ r.hbm.bytes = [] ∧ r.groups = [] ∧ r.sch.tickets = [] ∧ r.flt.log = [] ∧
    (∀ p, resettable (p / 256) = true → pagePresent p = true → r.enabled p = false) ∧
    (∀ p, resettable (p / 256) = false → pagePresent p = true → r.enabled p = true)

/-- A step carries out the command at the front of the queue with the queue's rest. On an empty queue one core cycle
passes: the timeline, where it runs, advances by 4 UI and nothing else changes (R23; that time passes in such a step
is the model's choice, log entry 1). No word spells a command. -/
def Obligations.StepRunsFrontCommand : Prop :=
  (∀ (c : Instr) (s : State), Machine.step { s with pending := c :: s.pending } = exec c s) ∧
  (∀ s : State, s.pending = [] → s.tlOn = true → Machine.step s = .next { s with now := s.now + 4096 }) ∧
  (∀ s : State, s.pending = [] → s.tlOn = false → Machine.step s = .next s) ∧
  (∀ (s : State) (nbits w : Nat), decodeTableWord nbits w = none ∧ s.withFetchWord nbits w = s)

/-- Every step answers a next state: no command stops the block, and each leaves the commands that wait behind it as
they are. -/
def Obligations.EveryStepAnswers : Prop :=
  ∀ s : State, ∃ t : State, Machine.step s = .next t ∧ t.pending = s.pending.tail

/-- R314 to R318, R418: the invariant that every step keeps: HBM is in its canonical form, and the fault log holds at
most 512 entries. -/
def Obligations.EveryStepKeepsInvariant : Prop :=
  ∀ s t : State, Memory.wf s.hbm.bytes = true ∧ s.flt.log.length ≤ 512 → Machine.step s = .next t →
    Memory.wf t.hbm.bytes = true ∧ t.flt.log.length ≤ 512

/-- The invariant of `EveryStepKeepsInvariant` holds right after reset. -/
def Obligations.InvariantAtReset : Prop :=
  Memory.wf State.reset.hbm.bytes = true ∧ State.reset.flt.log.length ≤ 512

/-- R24: a command that stores nothing (one that `mayStore` does not name) leaves every byte of HBM as it is. -/
def Obligations.HbmKeptByOtherCommands : Prop :=
  ∀ (c : Instr) (s : State), mayStore c = false → ∃ t : State, Does c s t ∧ ∀ a, t.physByte a = s.physByte a

/-- R314 to R316: a byte written at a logical address that can be addressed reads back, and no other logical address
that can be addressed changes; a mirrored byte is written in both copies, and is read from the other where one is
uncorrectable; an address in the other half of the mirrored range reads 0. The canonical form is kept. -/
def Obligations.HbmByteReadsBack : Prop :=
  ∀ (s : State) (a : Nat) (v : Byte),
    let t := s.hbmPutByte a v
    (s.aliased a = false → t.hbmByte a = v) ∧
    (∀ b, b ≠ a → s.aliased a = false → s.aliased b = false → t.hbmByte b = s.hbmByte b) ∧
    (s.mirrored a = true → t.physByte (s.physical a 0) = v ∧ t.physByte (s.physical a 1) = v ∧
      s.physical a 0 ≠ s.physical a 1) ∧
    (s.mirrored a = true → s.hbm.bad.contains (s.physical a 0 / 32) = true → s.hbm.bad.contains (s.physical a 1 / 32) = false →
      s.hbmByte a = s.physByte (s.physical a 1)) ∧
    (s.aliased a = true → s.hbmByte a = 0) ∧
    (Memory.wf s.hbm.bytes = true → Memory.wf t.hbm.bytes = true)

/-- R346, R399, R444: a host write that acts on a register page changes nothing while memory requests are not served (in
D3hot, or at stage 0), while the page's block reset runs, or where the page does not answer (recovery); a host read
is then answered with Unsupported Request, and a page that does not answer reads 0. That stage 0 serves no memory
request is the model's reading of R7 (log entry 6). -/
def Obligations.UnreachedAccessesChangeNothing : Prop :=
  (∀ (s : State) (p : PageNo) (c : Chan) (e : Eye) (q : Quad) (n u g : Fin 4) (m : BitVec 16) (v : W32)
    (z : BitVec 1024),
    ∀ r ∈ [
      ((.pgEnableWrite p v : Instr), p.toNat), (.blockReset p, p.toNat), (.cfgLock p, p.toNat),
      (.pgCommit p, p.toNat), (.fltClassWrite p v, p.toNat), (.fltRxnWrite p v, p.toNat), (.leaveDev, fltPg),
      (.leaveEye m, fltPg), (.alignArm v, tbsPg), (.disarm v, tbsPg), (.goLaceTx v, tbsPg), (.capArm v, tbsPg),
      (.wftWrite c v, pg T.chn c.val), (.goVampLoad e v, eyePg e.val), (.vampWdataWrite e v, eyePg e.val),
      (.slackRestart e, eyePg e.val), (.go e v, eyePg e.val), (.seqStop e v, eyePg e.val), (.abort e v, eyePg e.val),
      (.swflag e v, eyePg e.val), (.syncAtArm e v, eyePg e.val), (.goDds e v, pg T.dds e.val),
      (.ddsStop e v, pg T.dds e.val), (.hopPush e v, pg T.dds e.val), (.ddsListWrite e v, pg T.dds e.val),
      (.pelTxGo e v, pg T.dds e.val), (.flush e v z, pg T.tdc e.val), (.iuArm e u v, pg T.tdc e.val),
      (.iuDisarm e u v, pg T.tdc e.val), (.trgArm q v, trgPg q.val), (.trgDisarm q v, trgPg q.val),
      (.force q v, trgPg q.val), (.aneAbort q v, anePg q.val), (.aneJobqSubmit q v, anePg q.val),
      (.marchGo q v, anePg q.val), (.ticketSubmit v, schPg), (.ctrDec v, schPg), (.ctrSet v, schPg),
      (.wltMsgGo v, wltPg 0), (.retrain n v, wltPg n.val), (.wake n v, wltPg n.val), (.capsGo n v, wltPg n.val),
      (.escanGo n v, wltPg n.val), (.set v, ptpPg), (.step v, ptpPg), (.invalidate v, ptpPg), (.pgGo g v, ptpPg),
      (.pgStop g v, ptpPg), (.calWinWrite v, calPg), (.save v, calPg), (.load v, calPg), (.clr v, calPg),
      (.chip v, glbPg), (.holdAtWrite v, glbPg), (.erase, secPg), (.program, secPg), (.flashRead, secPg),
      (.releaseKill, glbPg)],
      ¬ Reaches s r.2 → Does r.1 s s) ∧
  (∀ (s : State) (o : Ofs) (c : Chan) (e : Eye) (u : Fin 4) (a : BitVec 24) (n k : Nat) (w v : W32) (b : Bool),
    s.offLink = true →
    ∀ r ∈ [(.rcRead o : Instr), .wideRegisterLoRead o, .fltLogPop b, .wftRead c, .vampWdataRead e, .ddsListRead e,
      .iuResultPop e u b, .spadFetchadd a v b k, .spadSwap a v b k, .bar4Read a n k, .evqPop b, .bar2Read w n, .ptpCapture,
      .calWinRead],
      Does r s (s.emit .ur)) ∧
  (∀ (s : State) (o : Ofs) (p : PageNo) (i : Fin 131072) (k : Fin 4) (a : BitVec 24) (bs : List (Option Byte)) (w v : W32)
    (be : BitVec 4) (b : Bool) (m : Nat), s.offLink = true →
    ∀ r ∈ [(.registerWrite o v be b : Instr), .faultClear p v, .segWindowWrite i k v, .bar4Write a bs b m, .bar2Write w bs b,
      .aptBaseWrite v], Does r s s) ∧
  (∀ (s : State) (c : Chan) (e : Eye) (u : Fin 4) (b : Bool), s.offLink = false →
    ∀ r ∈ [((.wftRead c : Instr), pg T.chn c.val), (.vampWdataRead e, eyePg e.val), (.ddsListRead e, pg T.dds e.val),
      (.iuResultPop e u b, pg T.tdc e.val), (.evqPop b, evqPg), (.ptpCapture, ptpPg), (.calWinRead, calPg)],
      s.answers r.2 = false → Does r.1 s (s.answer 0))

/-- R19 on the pages whose registers have no action beyond their fields: a write is refused where it would change an S
field of an enabled block or an RW field of a locked page (R445); a refused write keeps every RW field, sets CFG_ERR
and records the offset (R446); W1C and W1S bits act in both cases; RO and reserved bits keep their values. Writes
that do not reach a register: poisoned data set POISON_RX and raise the fault of that name (R343), a write without
all byte enables sets PARTIAL and raises its fault (R339), and neither changes the register; while memory requests
are not served (R346; at stage 0 by log entry 6) and at an offset whose page does not answer (none there, R439, or
recovery, R399) nothing changes. -/
def Obligations.RegisterWritesSetFieldsOrAreRefused : Prop :=
  (∀ (s : State) (p o : Nat) (r : Reg) (ofs : Ofs) (v : W32),
     PlainPage (p / 256) → pagePresent p = true → 0x100 ≤ o → o < 0x1000 → o % 4 = 0 → findReg p o = some r →
     ofs.toNat = rkey p o → Reaches s p →
     let rw := r.mask [.rwS, .rwL]
     let w := (s.rd p o &&& ~~~(v &&& r.mask [.w1c])) ||| (v &&& r.mask [.w1s])
     let no := (s.enabled p = true ∧ (s.rd p o ^^^ v) &&& r.mask [.rwS] ≠ 0) ∨
       (s.locked p = true ∧ (s.rd p o ^^^ v) &&& rw ≠ 0)
     (no → Does (.registerWrite ofs v 15 false) s ((s.wr p o w).refuse p o)) ∧
     (¬ no → Does (.registerWrite ofs v 15 false) s ((s.wr p o w).setRW p o ((w &&& ~~~rw) ||| (v &&& rw))))) ∧
  (∀ (s : State) (ofs : Ofs) (v : W32) (be : BitVec 4) (ep : Bool),
     (s.offLink = true → Does (.registerWrite ofs v be ep) s s) ∧
     (s.offLink = false →
       (ep = true → Does (.registerWrite ofs v be ep) s
         ((s.put pciPg F.PCI_STS_POISON_RX true).rise pciPg X.PCI_POISON_RX)) ∧
       (ep = false → be ≠ 15 → Does (.registerWrite ofs v be ep) s
         ((s.put pciPg F.PCI_STS_PARTIAL true).rise pciPg X.PCI_PARTIAL)) ∧
       (ep = false → be = 15 → ofs.toNat < 0x2000000 → s.answers (ofs.toNat / 4096) = false →
         Does (.registerWrite ofs v be ep) s s)))

/-- R15: a read of an _LO half returns the value at that moment and captures the upper half; a read of the _HI half
returns what was captured, and changes nothing. R16: a read of a register with RC fields returns the register and
then clears those fields, and nothing else. The busy count of a last core (LST_CNT_BUSY) is first counted as far as
it has come, and a site summary that is read is first read from its memory (`accSite`, R205). Reads while memory
requests are not served complete with Unsupported Request and change nothing (R346; at stage 0 by log entry 6); a
read at an offset whose page does not answer returns 0 (R439, R451, R399). -/
def Obligations.RegisterReadsCaptureAndClear : Prop :=
  (∀ (s : State) (p o : Nat) (r h : Reg) (lo hi : Ofs),
     pagePresent p = true → o < 0xFFC → o % 4 = 0 → wideLo (p / 256) o = true → findReg p o = some r →
     findReg p (o + 4) = some h → r.mask [.rc] = 0 → lo.toNat = rkey p o → hi.toNat = rkey p (o + 4) → Readable s p →
     let u := if p = pg T.cmp 0 ∧ o = 0x148 then s.accSite (s.get p F.CMP_SITE_SEL_SITE) else s
     Does (.wideRegisterLoRead lo) s
       (({ u with caps := tabPut (resetWord p (o + 4)) u.caps (rkey p (o + 4)) (u.liveWord p (o + 4)) } : State).answer
         (u.liveWord p o)) ∧
     Does (.rcRead hi) s (s.answer (tabGet (resetWord p (o + 4)) s.caps (rkey p (o + 4))))) ∧
  (∀ (s : State) (p o : Nat) (r : Reg) (ofs : Ofs), pagePresent p = true → o < 0x1000 → o % 4 = 0 →
     findReg p o = some r → r.mask [.rc] ≠ 0 → ofs.toNat = rkey p o → Readable s p →
     let u := if p / 256 = T.lst ∧ o = 0x110 then s.busySync (p % 256) else s
     Does (.rcRead ofs) s ((u.wr p o (u.rd p o &&& ~~~r.mask [.rc])).answer (u.rd p o))) ∧
  (∀ (s : State) (ofs : Ofs),
     (s.offLink = true → Does (.rcRead ofs) s (s.emit .ur) ∧ Does (.wideRegisterLoRead ofs) s (s.emit .ur)) ∧
     (s.offLink = false → ofs.toNat < 0x2000000 → s.answers (ofs.toNat / 4096) = false →
       Does (.rcRead ofs) s (s.answer 0) ∧ Does (.wideRegisterLoRead ofs) s (s.answer 0)))

/-- R443: BLOCK_RESET acts on pages whose PG_CAP.RESETTABLE is 1; these are all pages but GLB, PCI, FLT and SEC, on
which the write is ignored. -/
def Obligations.BlockResetActsOnResettablePages : Prop :=
  (∀ p, pagePresent p = true → (resetWord p 4).getLsbD 9 = resettable (p / 256)) ∧
  (∀ t, resettable t = false ↔ t = T.glb ∨ t = T.pci ∨ t = T.flt ∨ t = T.sec) ∧
  (∀ (s : State) (p : PageNo), pagePresent p.toNat = true → Reaches s p.toNat → resettable (p.toNat / 256) = true →
    Does (.blockReset p) s (s.blockReset p.toNat)) ∧
  (∀ (s : State) (p : PageNo), pagePresent p.toNat = true → resettable (p.toNat / 256) = false →
    s.enabled p.toNat = true → ∃ t, Does (.blockReset p) s t ∧ t = { s with regs := t.regs, held := t.held } ∧
      ∀ q a, t.rd q a = s.rd q a)

/-- R444: a block reset returns every configuration register of its page to its reset value, clears CFG_LOCK, CFG_ERR,
COMMIT_PEND and the recorded offset, and BUSY reads 1 until it is done; the fault settings of the header are kept.
The registers named by `keptReg` and `keptFlds` are those of the rule's exceptions (log entry 126). R444: while a
block reset runs every write to the page but one to PG_FLT is ignored; when it is done BUSY reads 0 and the page
accepts writes again. An absorbed odd channel goes on to show its partner's mode and site (R93). A last core whose self-test passes returns to service (R303). -/
def Obligations.BlockResetReturnsRegisters : Prop :=
  (∀ (s : State) (p : PageNo), pagePresent p.toNat = true → Reaches s p.toNat → resettable (p.toNat / 256) = true →
     p.toNat / 256 ≠ T.evq → p.toNat / 256 ≠ T.sch →
     ∃ t, Does (.blockReset p) s t ∧ t.resetting.contains p.toNat = true ∧ t.flag p.toNat F.PG_STS_BUSY = true ∧
       t.locked p.toNat = false ∧ t.enabled p.toNat = false ∧ t.flag p.toNat F.PG_STS_CFG_ERR = false ∧
       t.flag p.toNat F.PG_STS_COMMIT_PEND = false ∧ t.get p.toNat F.PG_CFG_ERR_OFS_OFS = 0 ∧
       (∀ o, o < 0x1000 → keptReg (p.toNat / 256) o = false → o ∉ (keptFlds (p.toNat / 256)).map (·.ofs) → o ≠ 0x00C →
         ¬ (p.toNat / 256 = T.chn ∧ o = 0x100 ∧ p.toNat % 2 = 1 ∧ s.get (p.toNat - 1) F.CHN_CTL_MODE = 2) →
         t.rd p.toNat o = resetWord p.toNat o)) ∧
  ((∀ (s : State) (p : PageNo) (ok : Bool), s.resetting.contains p.toNat = true →
     let t := ({ s with resetting := s.resetting.filter (· != p.toNat) } : State).put p.toNat F.PG_STS_BUSY false
     Does (.blockResetDone p ok) s
       (if p.toNat / 256 = T.lst ∧ ok = true then
         (t.set p.toNat F.LST_STS_STATE (if s.askMode then 2 else 0)).put schPg F.SCH_STS_NO_CORE false
        else t)) ∧
   (∀ (s : State) (p : PageNo) (ok : Bool), s.resetting.contains p.toNat = false → Does (.blockResetDone p ok) s s) ∧
   (∀ (s : State) (p : PageNo) (v : W32), s.resetting.contains p.toNat = true →
     Does (.pgEnableWrite p v) s s ∧ Does (.blockReset p) s s ∧ Does (.cfgLock p) s s ∧ Does (.pgCommit p) s s) ∧
   (∀ (s : State) (p : PageNo) (o : Nat) (ofs : Ofs) (v : W32), pagePresent p.toNat = true → o < 0x1000 → o ≠ 0x010 →
     o % 4 = 0 → ofs.toNat = rkey p.toNat o → s.resetting.contains p.toNat = true → s.offLink = false →
     Does (.registerWrite ofs v 15 false) s s))

/-- R442, R445: a write to PG_CTL sets ENABLE to its bit 0 and CFG_LOCK where its bit 2 is 1; where ENABLE changes, the
page's block acts on it. A locked page refuses a change of ENABLE, and an Ethernet page one to 1 with a ring of no
descriptors (`enableBad`). On GLB, PCI, FLT and SEC the bit is ignored and ENABLE stays 1 (R441). R445: CFG_LOCK
sets the lock and leaves ENABLE and every other register as they are. R447: PG_COMMIT sets COMMIT_PEND on the pages
with a shadow table and is ignored on others; a locked page refuses it (R445); on the GLB page the regions selected
are added to those that wait (R141). -/
def Obligations.PageControlsEnableLockCommit : Prop :=
  (∀ (s : State) (p : PageNo) (v : W32), pagePresent p.toNat = true → Reaches s p.toNat →
     let w := s.rd p.toNat 8 ||| (v &&& 4)
     let no := s.enableBad p.toNat v = true ∨ (s.locked p.toNat = true ∧ s.enabled p.toNat ≠ v.getLsbD 0)
     let u := (s.wr p.toNat 8 w).setRW p.toNat 8 ((w &&& ~~~1) ||| (v &&& 1))
     (resettable (p.toNat / 256) = true →
       (no → Does (.pgEnableWrite p v) s ((s.wr p.toNat 8 w).refuse p.toNat 8)) ∧
       (¬ no → s.enabled p.toNat = v.getLsbD 0 → Does (.pgEnableWrite p v) s u) ∧
       (¬ no → s.enabled p.toNat ≠ v.getLsbD 0 → Does (.pgEnableWrite p v) s
         ((u.pageEnable p.toNat (v.getLsbD 0)).idleForce p.toNat))) ∧
     (resettable (p.toNat / 256) = false → s.enabled p.toNat = true → Does (.pgEnableWrite p v) s
       ((s.wr p.toNat 8 w).setRW p.toNat 8 ((w &&& ~~~1) ||| 1)))) ∧
  (∀ (s : State) (p : PageNo), pagePresent p.toNat = true → Reaches s p.toNat →
     resettable (p.toNat / 256) = true ∨ s.enabled p.toNat = true →
     ∃ t, Does (.cfgLock p) s t ∧ OnlyReg s t p.toNat 8 ∧ t.rd p.toNat 8 = s.rd p.toNat 8 ||| 4 ∧ t.locked p.toNat = true) ∧
  (∀ (s : State) (p : PageNo), pagePresent p.toNat = true → Reaches s p.toNat →
     (hasShadow (p.toNat / 256) = false → Does (.pgCommit p) s s) ∧
     (hasShadow (p.toNat / 256) = true → s.locked p.toNat = true → Does (.pgCommit p) s (s.refuse p.toNat 0x020)) ∧
     (hasShadow (p.toNat / 256) = true → s.locked p.toNat = false → p.toNat ≠ glbPg →
       Does (.pgCommit p) s (s.put p.toNat F.PG_STS_COMMIT_PEND true)) ∧
     (p.toNat = glbPg → s.locked glbPg = false → Does (.pgCommit p) s
       (let u := s.put glbPg F.PG_STS_COMMIT_PEND true
        { u with segPend := (u.segPend ++ u.segSelected).eraseDups })))

/-- R36, R82, R141, R172, R330, R447: at its boundary a pending commit is validated: a valid shadow copy becomes the live
table and is copied back under BUSY (and the busy bit of its table), an invalid one is refused with the error bit of
its table and the live table stays: the waveform table, the DDS list, the calibration image, the regions of the
segment table selected at the write, and the slot table, for which the timeline moves on to the table wrap. A word
of the shadow list with an uncorrectable error passes it on to the live list (DESIGN CHOICE, log entry 164); a fault
source or a status may then be set beside it. Without a pending commit, or while the boundary is that of a running
group, nothing changes. R82: the end of a copy clears BUSY and the busy bit of its table; nothing else changes. -/
def Obligations.TableCommitsCopyShadows : Prop :=
  ((∀ (s : State) (p : PageNo), s.flag p.toNat F.PG_STS_COMMIT_PEND = false ∨ s.commitWaits p.toNat = true →
     Does (.tableCommit p) s s) ∧
   (∀ (s : State) (p : PageNo) (c : Nat), p.toNat = pg T.chn c → c < 256 → s.flag p.toNat F.PG_STS_COMMIT_PEND = true →
     s.commitWaits p.toNat = false →
     let u := s.put p.toNat F.PG_STS_COMMIT_PEND false
     (u.wftValid c = true → Does (.tableCommit p) s
       (((({ u with wftL := tabSplice u.wftL u.wftS 8192 c } : State).upsetClear 1 8192 c).put p.toNat
         F.CHN_STS_SHADOW_BUSY true).put p.toNat F.PG_STS_BUSY true)) ∧
     (u.wftValid c = false → Does (.tableCommit p) s (u.put p.toNat F.CHN_STS_WFT_ERR true))) ∧
   (∀ (s : State) (p : PageNo) (e : Nat), p.toNat = pg T.dds e → e < 16 → s.flag p.toNat F.PG_STS_COMMIT_PEND = true →
     s.commitWaits p.toNat = false →
     let u := s.put p.toNat F.PG_STS_COMMIT_PEND false
     ((u.ddsInvalid e).isSome = false → u.ddsShadowErrs e = [] → Does (.tableCommit p) s
       ((({ u with ddsL := tabSplice u.ddsL u.ddsS 16384 e } : State).upsetClear 3 16384 e).put p.toNat
         F.PG_STS_BUSY true)) ∧
     ((u.ddsInvalid e).isSome = false → ∃ t, Does (.tableCommit p) s t ∧
       t.ddsL = tabSplice u.ddsL u.ddsS 16384 e ∧ t.flag p.toNat F.PG_STS_BUSY = true ∧
       (∀ x ∈ u.ddsShadowErrs e, x.2 = 2 → t.eccOf 3 x.1 = 2)) ∧
     ((u.ddsInvalid e).isSome = true → Does (.tableCommit p) s (u.put p.toNat F.DDS_STS_LIST_ERR true))) ∧
   (∀ (s : State) (p : PageNo), p.toNat = calPg → s.flag p.toNat F.PG_STS_COMMIT_PEND = true →
     let u := s.put p.toNat F.PG_STS_COMMIT_PEND false
     (∀ r x, u.calBad = some (r, x) → Does (.tableCommit p) s
       (((u.put p.toNat F.CAL_STS_COMMIT_ERR true).set p.toNat F.CAL_ERR_REC r).set p.toNat F.CAL_ERR_REASON x)) ∧
     (u.calBad = none → Does (.tableCommit p) s
       (((({ u with calL := u.calS, calFac := u.calSFac, upset := u.calUpsets } : State).put p.toNat
         F.CAL_STS_USER_OK true).put p.toNat F.CAL_STS_COPY_BUSY true).put p.toNat F.PG_STS_BUSY true))) ∧
   (∀ (s : State) (p : PageNo), p.toNat = glbPg → s.flag glbPg F.PG_STS_COMMIT_PEND = true →
     ((∀ x ∈ s.segS, s.segPend.contains (x.1 / 4096) = true → s.segBad (x.1 / 4) = 0) → ∃ t, Does (.tableCommit p) s t ∧
       t.segPend = [] ∧ t.segCopy = s.segPend ∧ t.flag glbPg F.PG_STS_BUSY = true ∧
       t.flag glbPg F.GLB_SEG_STS_SEG_BUSY = true ∧
       ∀ k, tabGet 0 t.segL k = if s.segPend.contains (k / 4096) = true then tabGet 0 s.segS k else tabGet 0 s.segL k) ∧
     ((∃ x ∈ s.segS, s.segPend.contains (x.1 / 4096) = true ∧ s.segBad (x.1 / 4) ≠ 0) → ∃ t, Does (.tableCommit p) s t ∧
       t.segPend = [] ∧ t.segL = s.segL ∧ t.flag glbPg F.GLB_SEG_STS_SEG_ERR = true ∧
       t.fltBit glbPg X.GLB_SEG_ERR = true)) ∧
   (∀ (s : State) (p : PageNo) (x : Nat), p.toNat = xbrPg x → x < 2 → s.flag p.toNat F.PG_STS_COMMIT_PEND = true →
     let w := if s.enabled p.toNat = true ∧ s.tlOn = true then s.upTo ((s.now + 4194303) / 4194304 * 4194304) else s
     let u := w.put p.toNat F.PG_STS_COMMIT_PEND false
     ((∀ n, n < 1024 → u.slotBad x n = 0) → u.openRule x = true → ∃ t, Does (.tableCommit p) s t ∧ t.now = w.now ∧
       t.flag p.toNat F.PG_STS_BUSY = true ∧ t.flag p.toNat F.XBR_STS_SHADOW_BUSY = true ∧
       ∀ k, k < 512 → tabGet 0 t.slotL (x * 512 + k) = u.slotShadow x (k / 256) (k % 256)) ∧
     (∀ n, n < 1024 → u.slotBad x n ≠ 0 → (∀ m, m < n → u.slotBad x m = 0) → Does (.tableCommit p) s
       ((((u.set p.toNat F.XBR_SLOT_ERR_SLOT n).set p.toNat F.XBR_SLOT_ERR_REASON (u.slotBad x n)).put p.toNat
         F.XBR_STS_SLOT_ERR true).rise p.toNat X.XBR_SLOT_ERR)))) ∧
  (∀ (s : State) (p : PageNo),
     (s.resetting.contains p.toNat = true ∨ s.flag p.toNat F.PG_STS_BUSY = false → Does (.shadowCopyDone p) s s) ∧
     (s.resetting.contains p.toNat = false → s.flag p.toNat F.PG_STS_BUSY = true →
       let u := s.put p.toNat F.PG_STS_BUSY false
       Does (.shadowCopyDone p) s
         (if p.toNat / 256 = T.glb then ({ u with segCopy := [] } : State).put p.toNat F.GLB_SEG_STS_SEG_BUSY false
          else if p.toNat / 256 = T.chn then u.put p.toNat F.CHN_STS_SHADOW_BUSY false
          else if p.toNat / 256 = T.xbr then u.put p.toNat F.XBR_STS_SHADOW_BUSY false
          else if p.toNat / 256 = T.cal then u.put p.toNat F.CAL_STS_COPY_BUSY false
          else u)))

/-- R414: only a change of a source's PG_FLT bit from 0 to 1 is a rise; an occurrence of a source whose bit is 1 changes
nothing of the record of rises. Where nothing has risen, no orderly thermal stop is in progress and no block reset
waits for its boundary, the collector changes nothing. R413, R414, R418: a rise that is masked and has no fixed reaction is logged and does nothing else:
one record of the source with MASKED at 1, where the log has room. R418: of the 512 entries of the log, 32 are kept
for Fatal rises and heel records; a record that finds no room is counted in LOST and sets LOG_LOST, and the log
stays as it is. -/
def Obligations.RisesAreRecordedOnce : Prop :=
  (∀ (s : State) (p b : Nat), b < 32 →
     (s.fltBit p b = true → s.rise p b = s) ∧
     (s.fltBit p b = false → (s.rise p b).flt.rises = s.flt.rises ++ [(p, b)] ∧ (s.rise p b).fltBit p b = true ∧
       (∀ c, c < 32 → c ≠ b → (s.rise p b).fltBit p c = s.fltBit p c) ∧
       (∀ q a, rkey q a ≠ rkey p 0x010 → (s.rise p b).rd q a = s.rd q a) ∧ (s.rise p b).hbm = s.hbm) ∧
     (s.rise p b).rise p b = s.rise p b) ∧
  (∀ s : State, s.flt.rises = [] → Quiet s → s.settle = s) ∧
  (∀ (s : State) (p b : Nat), b < 32 → s.flt.rises = [(p, b)] → Quiet s → s.srcMasked p b = true →
     (srcOf p b).fixed = 0 → s.flt.log.length < 480 → s.flt.logLost = 0 →
     let r := s.logRec 1 p b (s.cls p b) 0 true
     s.settle = ({ s with flt := { s.flt with rises := [], seq := s.flt.seq + 1, log := s.flt.log ++ [r] } } : State).set
       fltPg F.FLT_LOG_STS_DEPTH (s.flt.log.length + 1)) ∧
  (∀ (s : State) (ws : List W32),
     let full := 512 ≤ s.flt.log.length ∨ (logOther ws = true ∧ 480 ≤ (s.flt.log.filter logOther).length)
     (full → (s.logPush ws).flt.log = s.flt.log ∧ (s.logPush ws).flt.logLost = s.flt.logLost + 1 ∧
       (s.logPush ws).flag fltPg F.FLT_STS_LOG_LOST = true) ∧
     (¬ full → (s.logPush ws).flt.log = s.flt.log ++ [ws] ∧ (s.logPush ws).flt.logLost = s.flt.logLost) ∧
     (s.flt.log.length ≤ 512 → (s.logPush ws).flt.log.length ≤ 512))

/-- R420: a write of 1 to a PG_FLT bit that is 1 clears it where its cause is absent: the bit no longer drives FAULT_N
and a CLEAR record is written. Where the cause persists the bit stays 1, CLR_REFUSED is set, FLT_CLR_OFS names page
and bit, and a CLEAR_REFUSED record is written. A bit that is 0 is not affected; the write acts during a block reset
too. R410, R445: FLT_CLASS_WRITE selects a source and applies a class to it for its next rise; class 3 is refused,
and so is a change on a locked page. R411: the fault handler writes its two words into the log record of the oldest
trap due, and nothing else; without a trap due nothing changes. R419: a read of FLT_LOG0 pops the oldest record into
the hold and returns its first word; a record that was corrupted in the log carries POISON in its word 3 and counts
as a parity error (R221); an empty log returns 0. -/
def Obligations.FaultBitsClearAndClassesApply : Prop :=
  (∀ (s : State) (p : PageNo) (b : Nat), b < 32 → Readable s p.toNat →
     let v : W32 := BitVec.ofNat 32 (1 <<< b)
     (s.fltBit p.toNat b = false → Does (.faultClear p v) s s) ∧
     (s.fltBit p.toNat b = true → s.causeHolds p.toNat b = false →
       let u := s.wr p.toNat 0x010 (s.rd p.toNat 0x010 &&& ~~~v)
       let w := ({ u with flt := { u.flt with faultN := u.flt.faultN.filter (· != (p.toNat, b)) } } : State).faultSync
       Does (.faultClear p v) s (w.logPush (w.logRec 2 p.toNat b (w.cls p.toNat b) 0 false))) ∧
     (s.fltBit p.toNat b = true → s.causeHolds p.toNat b = true →
       let u := ((s.put fltPg F.FLT_STS_CLR_REFUSED true).set fltPg F.FLT_CLR_OFS_BIT b).set fltPg F.FLT_CLR_OFS_PAGE p.toNat
       Does (.faultClear p v) s (u.logPush (u.logRec 3 p.toNat b (u.cls p.toNat b) 0 false)))) ∧
  (∀ (s : State) (p : PageNo) (v : W32), pagePresent p.toNat = true → Reaches s p.toNat →
     let b := fget v 4 0
     let c := fget v 9 8
     let no := c = 3 ∨ (s.locked p.toNat = true ∧ (s.cls p.toNat b ≠ c ∨ s.get p.toNat F.PG_FLT_CLASS_SRC ≠ b))
     (no → Does (.fltClassWrite p v) s (s.refuse p.toNat 0x018)) ∧
     (¬ no → ∃ t, Does (.fltClassWrite p v) s t ∧ t = { s with regs := t.regs, flt := t.flt } ∧
       (hasSrc p.toNat b = true → t.cls p.toNat b = c) ∧
       (∀ q d, q * 32 + d ≠ p.toNat * 32 + b → t.cls q d = s.cls q d) ∧ t.rxn = s.rxn ∧ t.flt.rises = s.flt.rises ∧
       (∀ q a, rkey q a ≠ rkey p.toNat 0x018 → t.rd q a = s.rd q a))) ∧
  (∀ (s : State) (d0 d1 : W32),
     (s.flt.traps = [] → Does (.trapHandler d0 d1) s s) ∧
     (∀ n r, s.flt.traps = n :: r → ∃ t, Does (.trapHandler d0 d1) s t ∧
       t = { s with flt := { s.flt with traps := r, log := t.flt.log } } ∧ t.flt.log.length = s.flt.log.length ∧
       (∀ (i : Nat) (x : List W32), s.flt.log[i]? = some x → x.getD 4 0 = n → fget (x.getD 3 0) 16 14 = 1 → 7 ≤ x.length →
         ∃ y, t.flt.log[i]? = some y ∧ y.getD 5 0 = d0 ∧ y.getD 6 0 = d1) ∧
       (∀ (i : Nat) (x : List W32), s.flt.log[i]? = some x → x.getD 4 0 ≠ n → t.flt.log[i]? = some x))) ∧
  (∀ (s : State) (bad : Bool), s.offLink = false →
     (s.flt.log = [] → Does (.fltLogPop bad) s (({ s with flt := { s.flt with logHold := [] } } : State).answer 0)) ∧
     (∀ r l, s.flt.log = r :: l → s.flt.logLost = 0 →
       let x := if bad = true then r.set 3 (r.getD 3 0 ||| 0x20000) else r
       let u := if bad = true then s.parityErr fltPg 1 else s
       Does (.fltLogPop bad) s
         ((({ u with flt := { u.flt with log := l, logHold := x } } : State).set fltPg F.FLT_LOG_STS_DEPTH l.length).answer
           (x.getD 0 0))))

/-- R412: a write of 0 to a reaction that is fixed is ignored, and the rest of the write applies; HEEL is fixed for
REF_LONG, SECOND_FAULT, THM STOP, TRIP, HBM_STOP and FLT PWR_FAIL, FAULT_N for TRIP and PWR_FAIL, and nothing else
is. -/
def Obligations.FixedReactionsStay : Prop :=
  (∀ (s : State) (p : PageNo) (v : W32), pagePresent p.toNat = true → Reaches s p.toNat →
    let b := fget v 4 0
    let c := fget v 13 8 ||| (srcOf p.toNat b).fixed
    let no := s.locked p.toNat = true ∧
      (s.get p.toNat F.PG_FLT_RXN_SRC ≠ b ∨ s.rxn p.toNat b ||| (srcOf p.toNat b).fixed ≠ c)
    (no → Does (.fltRxnWrite p v) s (s.refuse p.toNat 0x01C)) ∧
    (¬ no → ∃ t, Does (.fltRxnWrite p v) s t ∧ t = { s with regs := t.regs, flt := t.flt } ∧
      (hasSrc p.toNat b = true → t.rxn p.toNat b = c) ∧
      (∀ q d, q * 32 + d ≠ p.toNat * 32 + b → t.rxn q d = s.rxn q d) ∧ t.cls = s.cls ∧ t.flt.rises = s.flt.rises ∧
      (∀ q a, rkey q a ≠ rkey p.toNat 0x01C → t.rd q a = s.rd q a))) ∧
  (∀ p b, pagePresent p = true →
    ((srcOf p b).fixed.testBit 5 = true ↔
      (p = tbsPg ∧ b = X.TBS_REF_LONG) ∨ (p / 256 = T.spr ∧ b = X.SPR_SECOND_FAULT) ∨ (p = thmPg ∧ b = X.THM_STOP) ∨
      (p = thmPg ∧ b = X.THM_TRIP) ∨ (p = thmPg ∧ b = X.THM_HBM_STOP) ∨ (p = fltPg ∧ b = X.FLT_PWR_FAIL)) ∧
    ((srcOf p b).fixed.testBit 4 = true ↔ (p = thmPg ∧ b = X.THM_TRIP) ∨ (p = fltPg ∧ b = X.FLT_PWR_FAIL)) ∧
    (srcOf p b).fixed &&& 15 = 0)

/-- R425: LEAVE_DEV is refused, with LEAVE_REFUSED, while a cause of device heel lasts, has not been cleared, or ends
only at a device reset; otherwise the firmware begins with DISPATCH 1. Outside device heel nothing changes. R425:
LEAVE_EYE of one eyelet: refused while the device is in heel or a cause lasts; otherwise its EYE_HEEL bit falls, a
HEEL_LEAVE record is written, and the eyelet is STOPPED with its spare as before. R425: the firmware's end of
leaving device heel: refused, with DISPATCH 0, where the reference, the PLLs or a cause forbid it; otherwise device
heel and its causes end, the stacks of stage 3 and above are active, the stage falls to HOLD_AT where it lies above
(to 2 at most: R404 has no fall below), every eyelet without a cause of its own leaves heel, DISPATCH returns to 0 and a HEEL_LEAVE record is
written; the last cores named in `bad` fail their self-test. R414, R394: the CHIP_RESET reaction, once due, resets
the chip with GLB_RST_CAUSE.FAULT set, unless the die is held in reset: the stage and the timeline return to 0, every page but the endpoint's to its
reset values; the endpoint and the TAP are kept. -/
def Obligations.HeelEndsWhenItsCausesEnd : Prop :=
  (∀ s : State, Reaches s fltPg →
     (s.devHeel = false ∨ s.flt.leaving = true → Does .leaveDev s s) ∧
     (s.devHeel = true → s.flt.leaving = false → s.mayLeave 31 = false →
       Does .leaveDev s (s.put fltPg F.FLT_STS_LEAVE_REFUSED true)) ∧
     (s.devHeel = true → s.flt.leaving = false → s.mayLeave 31 = true →
       Does .leaveDev s ((({ s with flt := { s.flt with leaving := true } } : State).put schPg F.SCH_MODE_DISPATCH
         true).dispatchSwitch))) ∧
  (∀ (s : State) (e : Nat), e < 16 → Reaches s fltPg →
     let m : BitVec 16 := BitVec.ofNat 16 (1 <<< e)
     (s.eyeHeel e = false → Does (.leaveEye m) s s) ∧
     (s.eyeHeel e = true → s.devHeel = true ∨ s.mayLeave e = false →
       Does (.leaveEye m) s (s.put fltPg F.FLT_STS_LEAVE_REFUSED true)) ∧
     (s.eyeHeel e = true → s.devHeel = false → s.mayLeave e = true →
       let u : State := { s with flt := { s.flt with heels := s.flt.heels.filter (fun h => h.scope != e) } }
       let w := u.set fltPg F.FLT_STS_EYE_HEEL (clearBit (u.get fltPg F.FLT_STS_EYE_HEEL) e)
       Does (.leaveEye m) s ((w.logPush (w.logRec 5 fltPg e 2 0 false)).eyeHeelLeave e))) ∧
  (∀ (s : State) (bad : BitVec 32),
     (s.flt.leaving = false → Does (.heelLeaveDone bad) s s) ∧
     (s.flt.leaving = true →
       let u : State := { s with flt := { s.flt with leaving := false } }
       let ok := s.flag tbsPg F.TBS_REF_STS_REF_PRESENT = true ∧ u.pllsLocked = true ∧ u.holdover = false ∧
         u.mayLeave 31 = true
       (¬ ok → Does (.heelLeaveDone bad) s ((u.put fltPg F.FLT_STS_LEAVE_REFUSED true).dispatchOff)) ∧
       (ok →
         let v := (List.range 32).foldl (fun s n => if bad.getLsbD n && s.coreState n != 3 then s.coreFail n else s) u
         let stay := (List.range 16).filter (fun e => v.flt.heels.any (fun h => h.scope == e))
         let a : State := { v with flt := { v.flt with heels := v.flt.heels.filter (fun h => h.scope != 31) } }
         let b := ((a.put fltPg F.FLT_STS_DEV_HEEL false).set fltPg F.FLT_STS_DEV_CAUSE 0).set fltPg
           F.FLT_STS_EYE_HEEL (stay.foldl setBit 0)
         let c := if 3 ≤ b.stage then (b.set (memPg 0) F.MEM_STS_SR_STATE 0).set (memPg 1) F.MEM_STS_SR_STATE 0 else b
         let d := c.fallTo (max 2 c.holdAt)
         let f := (List.range 16).foldl (fun s e => if stay.contains e then s else s.eyeHeelLeave e) d
         Does (.heelLeaveDone bad) s ((f.dispatchOff.heelRec 5 31).faultSync)))) ∧
  ((∀ s : State, s.flt.chipDue = false ∨ s.boot.held = true → Does .faultChipReset s s) ∧
   (∀ s : State, s.flt.chipDue = true → s.boot.held = false → ∃ t, Does .faultChipReset s t ∧ t.now = 0 ∧ t.tlOn = false ∧ t.groups = [] ∧
     t.flt = {} ∧ t.pci = s.pci ∧ t.jtag = s.jtag ∧ t.smb = s.smb ∧ t.out = s.out ∧
     t.rd glbPg 0x10C = BitVec.ofNat 32 (setBit s.rstCause 3) ∧ t.rd pciPg 0x104 = s.rd pciPg 0x104 ∧
     (s.flag glbPg F.GLB_RST_KEEP_HBM = true → t.hbm = s.hbm) ∧
     (s.flag glbPg F.GLB_RST_KEEP_HBM = false → t.hbm = {}) ∧
     (∀ p o, o < 0x1000 → ¬ (p = glbPg ∧ o = 0x10C) → ¬ (p = pciPg ∧ o = 0x104) → ¬ (p = secPg ∧ o = 0x100) →
       t.rd p o = resetWord p o)))

/-- R43, R45: loss and return of the reference. REFIN_LOSS takes a device with REF_PRESENT into holdover from that
instant and raises REF_LOSS; 1 ms of holdover (counted from its entry, the model's choice, log entry 140) raises
REF_LONG at its end; REFIN_RETURN ends holdover, clears ALIGNED and brings the phase of its edges; REF_PRESENT_RISE
outside holdover sets REF_PRESENT. In every other state these events change nothing. R44, R46, R47, R72: the
frequency monitor, the PLLs and the start of the timeline. R371: CAP_ARM arms the REFCAL capture and clears
CAP_DONE; the next edge is captured, with TRIM removed (R62) and fraction bit 0 at 0, disarms and sets CAP_DONE; an
edge while it is not armed only moves the timeline to its instant. -/
def Obligations.ReferenceAndLocksSetTheClocks : Prop :=
  ((∀ s : State, s.flag tbsPg F.TBS_REF_STS_REF_PRESENT = true →
     let u := (s.put tbsPg F.TBS_REF_STS_REF_PRESENT false).put tbsPg F.TBS_REF_STS_HOLDOVER true
     Does .refinLoss s ((({ u with lace := { u.lace with holdT := s.mono } } : State).set tbsPg F.TBS_REF_STS_HOLD_US 0).rise
       tbsPg X.TBS_REF_LOSS)) ∧
   (∀ s : State, s.flag tbsPg F.TBS_REF_STS_REF_PRESENT = false → Does .refinLoss s s) ∧
   (∀ (s : State) (ph : BitVec 16), s.holdover = true →
     let us := fun (u : State) => u.set tbsPg F.TBS_REF_STS_HOLD_US (min 65535 ((u.mono - u.lace.holdT) / 6553600))
     let p : State := { s with lace := { s.lace with phase := ph.toNat } }
     Does (.refinReturn ph) s ((((us p).put tbsPg F.TBS_REF_STS_REF_PRESENT true).put tbsPg F.TBS_REF_STS_HOLDOVER false).put tbsPg
       F.TBS_REF_STS_ALIGNED false) ∧
     Does .refLong s ((us (s.upToMono (s.lace.holdT + 6400000 * 1024))).rise tbsPg X.TBS_REF_LONG) ∧
     Does .refPresentRise s s) ∧
   (∀ (s : State) (ph : BitVec 16), s.holdover = false →
     Does (.refinReturn ph) s s ∧ Does .refLong s s ∧ Does .refPresentRise s (s.put tbsPg F.TBS_REF_STS_REF_PRESENT true))) ∧
  ((∀ (s : State) (ppm : Nat), Does (.fmonWindow ppm) s
     ((if s.getEff tbsPg F.TBS_REF_CTL_FMON_SRC < 2 ∧ s.getEff tbsPg F.TBS_REF_CTL_FMON_THR < ppm then
       s.rise tbsPg X.TBS_REF_FREQ else s).inForce tbsPg 0x104)) ∧
   (∀ s : State, Does .pllLock s
     (if s.flag tbsPg F.TBS_REF_STS_REF_PRESENT = true then
       (s.set tbsPg F.TBS_REF_STS_QPLL_LOCK 15).put tbsPg F.TBS_REF_STS_CPLL_LOCK true else s)) ∧
   (∀ (s : State) (q : Quad), Does (.pllUnlock q) s
     ((s.set tbsPg F.TBS_REF_STS_QPLL_LOCK (clearBit (s.get tbsPg F.TBS_REF_STS_QPLL_LOCK) q.val)).rise tbsPg
       (X.TBS_PLL_UNLOCK + q.val))) ∧
   (∀ s : State, s.tlOn = false → s.get tbsPg F.TBS_REF_STS_QPLL_LOCK = 15 → s.flag tbsPg F.TBS_REF_STS_CPLL_LOCK = true →
     Does .timelineStart s 
       { s with tlOn := true, era := s.mono, now := 0, lace := { s.lace with phase := 0 } }) ∧
   (∀ s : State, s.tlOn = true ∨ s.pllsLocked = false → Does .timelineStart s s)) ∧
  ((∀ (s : State) (v : W32), Reaches s tbsPg → ∃ t, Does (.capArm v) s t ∧
     t.flag tbsPg F.TBS_REFCAL_CTL_CAP_ARM = true ∧ t.flag tbsPg F.TBS_REFCAL_CTL_CAP_DONE = false ∧
     t = { s with regs := t.regs, held := t.held }) ∧
   (∀ (s : State) (t : Nat), s.flag tbsPg F.TBS_REFCAL_CTL_CAP_ARM = false → Does (.refcalEdge t) s (s.upTo t)) ∧
   (∀ (s : State) (t : Nat), s.flag tbsPg F.TBS_REFCAL_CTL_CAP_ARM = true →
     let v := ((t : Int) - s.trim).toNat
     ∃ u, Does (.refcalEdge t) s u ∧
     u.get tbsPg F.TBS_REFCAL_LO_FRAC = v % 1024 / 2 * 2 ∧ u.get tbsPg F.TBS_REFCAL_LO_UI_L = v / 1024 % 2 ^ 22 ∧
     u.get tbsPg F.TBS_REFCAL_HI_UI_H = v / 1024 / 2 ^ 22 % 2 ^ 32 ∧ u.flag tbsPg F.TBS_REFCAL_CTL_CAP_ARM = false ∧
     u.flag tbsPg F.TBS_REFCAL_CTL_CAP_DONE = true ∧ u = { s.upTo t with regs := u.regs }))

/-- R54: if any EYE sequencer is running when an armed ALIGN arrives, the frame is treated as unarmed, ALIGN_REFUSED is
set and ALIGN_ARM stays 1. -/
def Obligations.ArmedAlignRefusedWhileRunning : Prop :=
  ∀ (s : State) (w t : Nat), LineFrame w 1 → s.lace.rx = [] → s.enabled tbsPg = true → s.resetting.contains tbsPg = false →
    s.flag tbsPg F.TBS_LACE_CTL_ALIGN_ARM = true → (∃ g ∈ s.groups, g.st = .running) →
    ∃ u, Does (.align (lineBits 64 w) t) s u ∧ (∃ edge, u.lace.align = some (bits w 23 8, false, edge)) ∧
      u.flag tbsPg F.TBS_LACE_STS_ALIGN_REFUSED = true ∧ u.flag tbsPg F.TBS_LACE_CTL_ALIGN_ARM = true ∧
      u.groups = s.groups

/-- R53: a write of ALIGN_ARM arms, a write of DISARM disarms, and DISARM governs where both are written; the settings
of the same register are subject to R19, and no register but TBS_LACE_CTL and those of a refusal changes. R53, R55:
an ALIGN frame names its edge, 1,024 UI after its reference instant or 1,056 with SAMPLE_EDGE, and is held for it as
armed where ALIGN_ARM is 1 and no condition of R55 holds; a receiver that is off loses its bits. R53, R56, R57: at
its edge an ALIGN that is armed and meets no condition of R55 zeroes the timeline, with ALIGNED 1, ALIGN_ARM 0 and
its sequence number shown; one found unarmed acts as a check; one refused there sets ALIGN_REFUSED and acts as a
check; a check records the timeline and raises ALIGN_PHASE off a multiple of 64 UI. -/
def Obligations.AlignmentSetsTheTimeline : Prop :=
  (∀ (s : State) (v : W32), Reaches s tbsPg → ∃ t u,
     Does (.alignArm v) s t ∧ t.flag tbsPg F.TBS_LACE_CTL_ALIGN_ARM = !v.getLsbD 1 ∧
     Does (.disarm v) s u ∧ u.flag tbsPg F.TBS_LACE_CTL_ALIGN_ARM = false ∧
     t = { s with regs := t.regs, held := t.held } ∧ u = { s with regs := u.regs, held := u.held } ∧
     ∀ q a, rkey q a ≠ rkey tbsPg 0x110 → rkey q a ≠ rkey tbsPg 0x00C → rkey q a ≠ rkey tbsPg 0x024 →
       t.rd q a = s.rd q a ∧ u.rd q a = s.rd q a) ∧
  (∀ (s : State) (w t : Nat), LineFrame w 1 → s.lace.rx = [] →
     (s.enabled tbsPg = false ∨ s.resetting.contains tbsPg = true → Does (.align (lineBits 64 w) t) s (unheard s)) ∧
     (s.enabled tbsPg = true → s.resetting.contains tbsPg = false →
       let u := heard s w t
       let seq := bits w 23 8
       let edge := u.now + (if u.flag tbsPg F.TBS_LACE_CTL_SAMPLE_EDGE then 1056 else 1024) * 1024
       (s.flag tbsPg F.TBS_LACE_CTL_ALIGN_ARM = false → Does (.align (lineBits 64 w) t) s
         { u with lace := { u.lace with align := some (seq, false, edge) } }) ∧
       (s.flag tbsPg F.TBS_LACE_CTL_ALIGN_ARM = true → u.refuseWhy = 0 → Does (.align (lineBits 64 w) t) s
         { u with lace := { u.lace with align := some (seq, true, edge) } }) ∧
       (s.flag tbsPg F.TBS_LACE_CTL_ALIGN_ARM = true → u.refuseWhy ≠ 0 →
         let v := (u.put tbsPg F.TBS_LACE_STS_ALIGN_REFUSED true).set tbsPg F.TBS_LACE_STS_REFUSE_WHY u.refuseWhy
         Does (.align (lineBits 64 w) t) s { v with lace := { v.lace with align := some (seq, false, edge) } }))) ∧
  ((∀ (s : State) (seq edge : Nat), s.lace.align = some (seq, true, edge) →
     let u := ({ s with lace := { s.lace with align := none } } : State).upTo edge
     (s.flag tbsPg F.TBS_LACE_CTL_ALIGN_ARM = true → u.refuseWhy = 0 →
       ∃ t, Does .zeroingEdge s t ∧ t.now = 0 ∧ t.mono = u.mono ∧ t.lace.phase = 0 ∧ t.flag tbsPg F.TBS_LACE_CTL_ALIGN_ARM = false ∧
         t.flag tbsPg F.TBS_REF_STS_ALIGNED = true ∧ t.get tbsPg F.TBS_LACE_STS_ALIGN_SEQ = seq % 65536 ∧
         t.lace.align = none ∧ t.hbm = s.hbm ∧ t.groups = s.groups) ∧
     (s.flag tbsPg F.TBS_LACE_CTL_ALIGN_ARM = true → u.refuseWhy ≠ 0 → Does .zeroingEdge s
       (((u.put tbsPg F.TBS_LACE_STS_ALIGN_REFUSED true).set tbsPg F.TBS_LACE_STS_REFUSE_WHY u.refuseWhy).alignCheck seq)) ∧
     (s.flag tbsPg F.TBS_LACE_CTL_ALIGN_ARM = false → Does .zeroingEdge s (u.alignCheck seq)) ∧ Does .alignCheck s s) ∧
   (∀ (s : State) (seq edge : Nat), s.lace.align = some (seq, false, edge) →
     let u := ({ s with lace := { s.lace with align := none } } : State).upTo edge
     let w := (u.set tbsPg F.TBS_ALIGN_CHK_CHK (u.ui % 2 ^ 32)).set tbsPg F.TBS_LACE_STS_ALIGN_SEQ seq
     Does .alignCheck s (if w.flag tbsPg F.TBS_REF_STS_ALIGNED = true ∧ w.ui % 64 ≠ 0 then w.rise tbsPg X.TBS_ALIGN_PHASE
       else w) ∧ Does .zeroingEdge s s) ∧
   (∀ s : State, s.lace.align = none → Does .zeroingEdge s s ∧ Does .alignCheck s s))

/-- R51, R52, R58, R60: the receiver, while it is on. Outside a frame it compares the last four bits with SYNC; inside one
it collects 64 bits. A frame received whole acts at its reference instant: a COUNT frame steps its counter down, a
TRIG frame gives its code to the trigger engines 640 UI later, a START frame starts the groups and units armed with
its tag; a frame with a bad CRC is counted and raises LACE_CRC; a reserved type sets RSVD_TYPE. With OUT_MODE 2 the
bits are repeated as they come, and a receiver that is off loses them. R60: GO on TBS_LACE_TX sends a frame of the
register's type and payload from the next REFIN edge on where OUT_MODE is 1 and none is in progress, and sets
TX_OVR otherwise; the frame's end, 64 REFIN periods later, clears TX_BUSY. The fields of the same write are subject
to R19. -/
def Obligations.LaceFramesActAndAreSent : Prop :=
  ((∀ (s : State) (w t : Nat), s.lace.rx = [] → s.enabled tbsPg = true → s.resetting.contains tbsPg = false →
     let line := lineBits 64 w
     let u := heard s w t
     let p := bits w 55 8
     (LineFrame w 3 → Does (.count line t) s (u.ctrDown (p % 4096))) ∧
     (LineFrame w 4 → Does (.trig line t) s (u.trgCode (p % 256) (some (u.now + 640 * 1024)))) ∧
     (LineFrame w 2 → Does (.start line t) s (u.laceStart (p % 256) (p / 256 % 2 ^ 40))) ∧
     (w < 2 ^ 64 → w % 16 = 0xB → crc8 (lineBits 52 (w / 16)) ≠ bits w 63 56 → Does (.laceCrc line t) s
       ((u.bump tbsPg F.TBS_LACE_STS_CRC_ERRS 1).rise tbsPg X.TBS_LACE_CRC)) ∧
     (∀ k, (k = 0 ∨ 5 ≤ k) → LineFrame w k → Does (.rsvdType line t) s (u.put tbsPg F.TBS_LACE_STS_RSVD_TYPE true))) ∧
   (∀ (s : State) (b : Bool) (t : Nat), s.enabled tbsPg = true → s.resetting.contains tbsPg = false →
     s.lace.rx.length < 63 → s.get tbsPg F.TBS_LACE_CTL_OUT_MODE ≠ 2 →
     let u := s.upTo (s.sampleEdge (max t s.now))
     let r := u.lace.rx ++ [b]
     let rx := if r.length = 4 ∧ r ≠ [true, true, false, true] then r.drop 1 else r
     ∀ c ∈ [(.align [b] t : Instr), .start [b] t, .count [b] t, .trig [b] t, .laceCrc [b] t, .rsvdType [b] t],
       Does c s { u with lace := { u.lace with rx := rx, line := b } }) ∧
   (∀ (s : State) (line : List Bool) (t : Nat), s.enabled tbsPg = false ∨ s.resetting.contains tbsPg = true →
     ∀ c ∈ [(.align line t : Instr), .start line t, .count line t, .trig line t, .laceCrc line t, .rsvdType line t],
       Does c s (unheard s))) ∧
  ((∀ (s : State) (v : W32), Reaches s tbsPg →
     let u := s.writeReg tbsPg 0x11C (v ||| 0x80000000) false
     let typ := u.get tbsPg F.TBS_LACE_TX_TYPE
     let data := u.get tbsPg F.TBS_LACE_TX_PL_LO_PL_LO + u.get tbsPg F.TBS_LACE_TX_PL_HI_PL_HI * 2 ^ 32
     let no := u.flag tbsPg F.TBS_LACE_STS_TX_BUSY = true ∨ u.get tbsPg F.TBS_LACE_CTL_OUT_MODE ≠ 1 ∨ u.enabled tbsPg = false
     (no → Does (.goLaceTx v) s (u.put tbsPg F.TBS_LACE_STS_TX_OVR true)) ∧
     let w := ({ u with lace := { u.lace with tx := some (lineBits 64 (laceWord typ data), u.refEdge u.now) } } : State).put
       tbsPg F.TBS_LACE_STS_TX_BUSY true
     (¬ no → u.flag (pg T.wlt 0) F.WLT_NODE_LACE_EXT = false → Does (.goLaceTx v) s w) ∧
     (¬ no → u.flag (pg T.wlt 0) F.WLT_NODE_LACE_EXT = true → Does (.goLaceTx v) s
       (if 2 ≤ typ ∧ typ ≤ 4 then w.weltOwn true typ data else w))) ∧
   (∀ (s : State) (b : List Bool) (t : Nat), s.lace.tx = some (b, t) →
     let u := (s.upTo (t + 64 * 65536)).emit (.lace b)
     Does .laceTxDone s (({ u with lace := { u.lace with tx := none } } : State).put tbsPg F.TBS_LACE_STS_TX_BUSY false)) ∧
   (∀ s : State, s.lace.tx = none → Does .laceTxDone s s))

/-- R70: the states of a tracking loop. 1,024 good samples lock a loop in ACQUIRE; LOSS_WIN windows without an edge take
it to HOLD with FWD_LOST and TRACK_LOST, or to RETURN with LOSS_ACT 1; a loop in RETURN at offset 0 passes to OFF.
Where its condition does not hold an event changes nothing. R66, R70: a window of a loop ends at a multiple of 64 UI
at which none of its windows has ended yet. One that is OFF, with EN written 1, passes to ACQUIRE with its counts at
0 and BW_CLAMP shown, and with EN 0 it stays OFF and steers nothing; one in ACQUIRE or LOCKED takes the first edge
of the window as its sample; one in HOLD or RETURN with an edge in the window passes to ACQUIRE. -/
def Obligations.TrackedTimingStates : Prop :=
  (∀ (s : State) (q : Quad),
     let n := max 1 (s.get tbsPg (tf q.val F.TBS_TRACK_CTL_LOSS_WIN))
     let lost := (s.trackState q.val = 1 ∨ s.trackState q.val = 2) ∧ s.holdover = false ∧ n ≤ (s.trackOf q.val).gone
     (s.trackState q.val = 1 → 1024 ≤ (s.trackOf q.val).good → Does (.trackLocked q) s (s.setTrackState q.val 2)) ∧
     (s.trackState q.val ≠ 1 ∨ (s.trackOf q.val).good < 1024 → Does (.trackLocked q) s s) ∧
     (lost → s.getEff tbsPg (tf q.val F.TBS_TRACK_CTL_LOSS_ACT) = 1 → Does (.trackLost q) s (s.setTrackState q.val 4)) ∧
     (lost → s.getEff tbsPg (tf q.val F.TBS_TRACK_CTL_LOSS_ACT) ≠ 1 → Does (.trackLost q) s
       (((s.setTrackState q.val 3).put tbsPg (tf q.val F.TBS_TRACK_STS_FWD_LOST) true).rise tbsPg
         (X.TBS_TRACK_LOST + q.val))) ∧
     (¬ lost → Does (.trackLost q) s s) ∧
     (s.trackState q.val = 4 → (s.trackOf q.val).ofs = 0 → Does (.trackReturnDone q) s (s.setTrackState q.val 0)) ∧
     (s.trackState q.val ≠ 4 ∨ (s.trackOf q.val).ofs ≠ 0 → Does (.trackReturnDone q) s s)) ∧
  (∀ (s : State) (q : Quad),
     let w0 := (s.now + 65535) / 65536
     let w := if (s.trackOf q.val).win = some w0 then w0 + 1 else w0
     let u := s.upTo (w * 65536)
     let here := (u.trackOf q.val).edges.filter (fun x => decide ((w - 1) * 65536 ≤ x.1) && decide (x.1 < w * 65536))
     let v := u.setTrack q.val { u.trackOf q.val with
       edges := (u.trackOf q.val).edges.filter (fun x => decide (w * 65536 ≤ x.1)), win := some w }
     let inF := fun (x : State) => x.inForceRange tbsPg (0x140 + 0x20 * q.val) (0x150 + 0x20 * q.val)
     let en := s.get tbsPg (tf q.val F.TBS_TRACK_CTL_EN)
     (s.trackState q.val = 0 → en = 0 → Does (.trackWindow q) s (inF v)) ∧
     (s.trackState q.val = 0 → en = 1 → s.getEff tbsPg (tf q.val F.TBS_TRACK_CTL_EN) = 0 →
       ∃ t, Does (.trackWindow q) s t ∧ t.trackState q.val = 1 ∧ (t.trackOf q.val).good = 0 ∧ (t.trackOf q.val).gone = 0 ∧
         (t.trackOf q.val).ofs = (s.trackOf q.val).ofs ∧
         t.flag tbsPg (tf q.val F.TBS_TRACK_STS_BW_CLAMP) = (inF v).bwClamped q.val) ∧
     (∀ x r, s.trackState q.val = 1 ∨ s.trackState q.val = 2 → s.holdover = false → en = 1 → here = x :: r →
       Does (.trackWindow q) s (inF (v.trackSample q.val x.2))) ∧
     (s.trackState q.val = 3 → en = 1 → here ≠ [] → Does (.trackWindow q) s ((inF v).acquire q.val false)))

/-- R30, R35, R107, R162: at its next boundary a running group first carries out takeovers decided 32 UI before, and then
plays on: an ABORT that has fallen due stops it with ABORTED and status 02, a hold in progress plays its next hold
vector, a segment boundary begins the fixed pass, a granule boundary is checked, and any other boundary plays the
next vector. VECTOR_BOUNDARY does so for a group that has begun or holds, SEQ_START_TIME for one that reaches its T
(R158); in every other state they change nothing. R154, R158 to R162: a write of EYE_SEQ_CTL with GO, STOP or ABORT.
A follower's page refuses it, and the register keeps its value. ABORT goes before STOP; GO is refused with the first
REASON of R160 (10 where STOP or ABORT stands in the same write), which also raises SEQ_REFUSED, and starts or arms
the group where there is none. STOP of a running group takes effect at its next decision (STOP_PEND), ABORT 32 UI
after the first write of it; a group that is not running stops at once, with status 01 or 02. R148, R163 to R165:
SWFLAG latches the software flags of its word in the sequencer of the eyelet's group; a write of EYE_SYNC_AT_HI arms
AT with the instant of the write and applies to a waiting group at once where AT has passed; at AT a waiting group
runs on from it, and AT is consumed. Without such a group nothing else changes. -/
def Obligations.SequencersPlayAndStop : Prop :=
  (∀ (s : State) (e : Eye),
     (s.groupOf e.val = none → Does (.vectorBoundary e) s s ∧ Does (.seqStartTime e) s s) ∧
     ∀ g, s.groupOf e.val = some g →
       let u := g.members.foldl (fun x m => x.takeDue g.at_ m) (g.members.foldl calVector (s.upToQ (g.leader / 4) g.at_))
       let t := if ∃ a, g.abortAt = some a ∧ a ≤ g.at_ then ((u.missMark g).groupFlag g F.EYE_SEQ_STS_ABORTED true).stopGroup g 2 false
         else if g.holdLeft > 0 then u.holdVector g
         else if g.begun = true ∧ g.vec = g.cur.length then u.segBoundary g
         else if g.vec % 64 = 0 then u.granBoundary g
         else u.playVector g
       (g.st ≠ .running → Does (.vectorBoundary e) s s ∧ Does (.seqStartTime e) s s) ∧
       (g.st = .running → g.begun = true ∨ g.holds ≠ 0 → Does (.vectorBoundary e) s t ∧ Does (.seqStartTime e) s s) ∧
       (g.st = .running → g.begun = false → g.holds = 0 → Does (.vectorBoundary e) s s ∧ Does (.seqStartTime e) s t)) ∧
  (∀ (s : State) (e : Eye) (v : W32), Reaches s (eyePg e.val) →
     let p := eyePg e.val
     let put := fun (w : W32) => s.writeReg p 0x100 w false
     let held := fun (w : W32) (u : State) => if w.getLsbD 2 then u.abortSeq e.val else if w.getLsbD 1 then u.stopSeq e.val else u
     (s.flag p F.EYE_SEQ_STS_FOLLOWER = true →
       Does (.go e v) s (s.writeReg p 0x100 (v ||| 1) true) ∧ Does (.seqStop e v) s (s.writeReg p 0x100 (v ||| 2) true) ∧
       Does (.abort e v) s (s.writeReg p 0x100 (v ||| 4) true) ∧
       ∀ w, (s.writeReg p 0x100 w true).rd p 0x100 = s.rd p 0x100 ∧
         (s.writeReg p 0x100 w true).flag p F.PG_STS_CFG_ERR = true) ∧
     (s.flag p F.EYE_SEQ_STS_FOLLOWER = false →
       let u := held (v ||| 1) (put (v ||| 1))
       let t := if u.flag p F.EYE_SEQ_CTL_START_MODE then none
         else some (u.get64 p F.EYE_SEQ_START_LO_T F.EYE_SEQ_START_HI_T)
       let r := u.startReason e.val false t
       let i := u.get p F.EYE_SEQ_FIRST_ENTRY
       (v &&& 6 ≠ 0 → Does (.go e v) s (u.startRefused e.val 10)) ∧
       (v &&& 6 = 0 → r = 0 → Does (.go e v) s (u.startGroup e.val t [])) ∧
       (v &&& 6 = 0 → r ≠ 0 → Does (.go e v) s ((if r = 4 ∧ i ≠ 0 then u.segRead i else u).startRefused e.val r))) ∧
     (s.flag p F.EYE_SEQ_STS_FOLLOWER = false → v.getLsbD 0 = false →
       Does (.seqStop e v) s (held (v ||| 2) (put (v ||| 2)))) ∧
     (s.flag p F.EYE_SEQ_STS_FOLLOWER = false → v.getLsbD 0 = false →
       Does (.abort e v) s ((put (v ||| 4)).abortSeq e.val)) ∧
     (∀ (u : State) (g : Group), u.ledBy e.val = some g →
       (g.st = .running → u.stopSeq e.val = u.keep { g with stopPend := true } ∧
         u.abortSeq e.val = u.keep { g with abortAt := some (g.abortAt.getD (u.nowQ (g.leader / 4) + 32 * 1024)) }) ∧
       (g.st ≠ .running → u.stopSeq e.val = u.stopGroup { g with latch := [] } 1 false ∧
         u.abortSeq e.val = (u.groupFlag g F.EYE_SEQ_STS_ABORTED true).stopGroup g 2 false))) ∧
  (∀ (s : State) (e : Eye) (v : W32),
     (Reaches s (eyePg e.val) → s.groupOf e.val = none → Does (.swflag e v) s s) ∧
     (Reaches s (eyePg e.val) → ∀ g, s.groupOf e.val = some g →
       Does (.swflag e v) s (s.setGroup (s.latchIn g 9 v.toNat))) ∧
     (Reaches s (eyePg e.val) →
       let r := writeAt s (eyePg e.val) 0x120 v false
       let u := r.1.idleForce (eyePg e.val)
       let at_ := u.get64 (eyePg e.val) F.EYE_SYNC_AT_LO_AT_L F.EYE_SYNC_AT_HI_AT_H
       let a := (u.setEye e.val { u.eyeOf e.val with sync := some (at_, u.nowQ (e.val / 4)) }).put (eyePg e.val) F.EYE_SEQ_STS_AT_ARMED true
       (r.2 = false → Does (.syncAtArm e v) s u) ∧
       (r.2 = true → u.ledBy e.val = none → Does (.syncAtArm e v) s a) ∧
       (r.2 = true → ∀ g, u.ledBy e.val = some g → Does (.syncAtArm e v) s
         (if g.st = .waiting ∧ (at_ * 1024 < g.at_ ∨ at_ * 1024 < a.nowQ (e.val / 4) + 32 * 1024) then a.syncLate g else a))) ∧
     (∀ g, s.ledBy e.val = some g → g.st = .waiting → ∀ t arm, (s.eyeOf g.leader).sync = some (t, arm) →
       Does (.syncAtReached e) s
         (((s.upToQ (g.leader / 4) (t * 1024)).syncUsed g).granBoundary { g with st := .running, at_ := t * 1024 })) ∧
     ((∀ g, s.ledBy e.val = some g → g.st ≠ .waiting ∨ (s.eyeOf g.leader).sync = none) → Does (.syncAtReached e) s s))

/-- R140, R141: a word written through the segment window enters the shadow copy and its entry is judged: INVALID counts
the invalid entries and SEG_ERR names an invalid one. While the copy of a commit runs, or with the page locked, the
write is dropped with WR_DROP. R80, R82, R477: a waveform word is written to the shadow table and its record judged,
and is refused while the shadow copy is busy or where it would change a locked page's table; a read gives the word
of the table that LIVE selects; both then advance the index where AUTO_INC is set. R120, R477: a word written
through EYE_VAMP_WDATA enters the resident area, free of errors, and is refused while the sequencer runs or a load
is in progress, beyond the resident area, and where it would change a locked page's data; a read gives the word, and
0 beyond the resident area, and counts a single-bit error that it corrects (R130). Both then advance WADDR where AUTO_INC is set. -/
def Obligations.TableWindowsReadAndWrite : Prop :=
  (∀ (s : State) (i : Fin 131072) (w : Fin 4) (v : W32), s.offLink = false →
     (s.flag glbPg F.GLB_SEG_STS_SEG_BUSY = true ∨ s.locked glbPg = true →
       Does (.segWindowWrite i w v) s (s.put glbPg F.GLB_SEG_STS_WR_DROP true)) ∧
     (s.flag glbPg F.GLB_SEG_STS_SEG_BUSY = false → s.locked glbPg = false →
       let a : State := { s with segS := tabPut 0 s.segS (4 * i.val + w.val) v }
       let b := a.set glbPg F.GLB_SEG_STS_INVALID
         (a.get glbPg F.GLB_SEG_STS_INVALID + b2n (a.segBad i.val != 0) - b2n (s.segBad i.val != 0))
       (a.segBad i.val = 0 → Does (.segWindowWrite i w v) s b) ∧
       (a.segBad i.val ≠ 0 → Does (.segWindowWrite i w v) s
         ((b.set glbPg F.GLB_SEG_ERR_ENTRY i.val).set glbPg F.GLB_SEG_ERR_REASON (a.segBad i.val))))) ∧
  (∀ (s : State) (c : Chan) (v : W32),
     let p := pg T.chn c.val
     let key := c.val * 8192 + fget (s.rd p 0x110) 12 0
     let bad := s.flag p F.CHN_STS_SHADOW_BUSY = true ∨ (s.locked p = true ∧ tabGet 0 s.wftS key ≠ v)
     (Reaches s p → bad → Does (.wftWrite c v) s ((s.refuse p 0x114).autoInc p F.CHN_WFT_IDX_AUTO_INC 8192)) ∧
     (Reaches s p → ¬ bad →
       let r := wftReason (s.tsPer (c.val / 16) (key / 8 % 1024 / 16))
         (fun w => tabGet 0 (tabPut 0 s.wftS key v) (key / 8 * 8 + w))
       ∃ t, Does (.wftWrite c v) s t ∧
       t = { s with regs := t.regs, wftS := tabPut 0 s.wftS key v, wftBad := tabPut 0 s.wftBad (key / 8) r } ∧
       (∀ q a, a < 0x1000 → ¬ (q = p ∧ (a = 0x110 ∨ a = 0x118 ∨ a = F.CHN_STS_WFT_ERR.ofs)) → t.rd q a = s.rd q a) ∧
       t.rd p 0x110 = (s.autoInc p F.CHN_WFT_IDX_AUTO_INC 8192).rd p 0x110) ∧
     (Readable s p → Does (.wftRead c) s ((s.autoInc p F.CHN_WFT_IDX_AUTO_INC 8192).answer
       (tabGet 0 (if s.flag p F.CHN_WFT_IDX_LIVE then s.wftL else s.wftS) key)))) ∧
  (∀ (s : State) (e : Eye) (v : W32),
     let p := eyePg e.val
     let w := s.get p F.EYE_VAMP_WADDR_WADDR
     let n := 4096 * s.get p F.EYE_VAMP_CFG_RES_BLK
     let key := e.val * 491520 + w
     let no := s.resFree e.val = false ∨ n ≤ w ∨ (s.locked p = true ∧ tabGet 0 s.res key ≠ v)
     (Reaches s p → no → Does (.vampWdataWrite e v) s
       ((s.refuse p 0x244).autoInc p F.EYE_VAMP_WADDR_AUTO_INC (2 ^ 19))) ∧
     (Reaches s p → ¬ no → Does (.vampWdataWrite e v) s
       (({ s with res := tabPut 0 s.res key v, upset := tabErase s.upset (2 * 2 ^ 40 + key) } : State).autoInc p
         F.EYE_VAMP_WADDR_AUTO_INC (2 ^ 19))) ∧
     (Readable s p →
       let u := if w < n ∧ s.resEcc e.val (w / 2) = 1 then (s.bump p F.EYE_VAMP_ECC_CORR 1).rise p X.EYE_VAMP_CORR else s
       Does (.vampWdataRead e) s ((u.autoInc p F.EYE_VAMP_WADDR_AUTO_INC (2 ^ 19)).answer (if w < n then tabGet 0 s.res key else 0))))

/-- R84, R79, R89, R90, R94, R168, R189: the earliest thing placed for a channel takes effect at its time, on the
channel's quadrant timeline (R69): a stitch, a serial change, a clock edge or a change of parking sets the level DRV
and the driver enable DEN as its type says (in compare role DEN stays off), a strobe judges the ball, a window opens
or closes. Without a placement nothing changes. R99, R101: the rotation. While an eyelet checks and has a position,
the next dwell begins at its instant on the next position in ascending order, wrapping to the lowest, and lasts
6,400,000 UI divided by the positions, in the device's own time; without a position the rotation is off. A check
stitch of a quiet position, one with no stitch due within 64 UI, moves the timeline alone. While the spare slice is
disabled or in heel, or the stage is below 3, nothing changes. -/
def Obligations.StitchesDriveSlices : Prop :=
  ((∀ (s : State) (c : Chan), (s.chanOf c.val).due = [] → Does (.stitch c) s s) ∧
   (∀ (s : State) (c : Chan) (d : Due) (r : List Due), (s.chanOf c.val).due = d :: r →
     let u := s.upToQ (c.val / 64) d.t
     let k := { s.chanOf c.val with due := r }
     let drive := fun (k : ChanDyn) => Does (.stitch c) s
       (((u.setChan c.val k).seeWin c.val).closeVec (d.own / 16) d.vid)
     (d.typ = 1 → drive { k with drv := false }) ∧ (d.typ = 2 → drive { k with drv := true }) ∧
     (d.typ = 3 → drive { k with drv := !k.drv }) ∧ (d.typ = 4 → drive { k with den := false }) ∧
     (d.typ = 5 → drive { k with den := true }) ∧ (d.typ = 6 → drive { k with drv := false, den := true }) ∧
     (d.typ = 7 → drive { k with drv := true, den := true }) ∧ (d.typ = 16 → drive { k with drv := false }) ∧
     (d.typ = 17 → drive { k with drv := true }) ∧ (d.typ = 18 → drive { k with den := false }) ∧
     (d.typ = 19 → drive { k with den := !k.role }) ∧ (d.typ = 28 → drive { k with drv := false }) ∧
     (d.typ = 29 → drive { k with drv := true }) ∧ (d.typ = 32 → drive { k with den := false }) ∧
     (d.typ = 33 → drive { k with den := true }) ∧ (d.typ = 34 → drive { k with drv := false }) ∧
     (d.typ = 35 → drive { k with drv := true }) ∧
     (d.typ = 9 → drive { k with win := some ⟨d, none, 0, k.den⟩ }) ∧
     (d.typ = 10 → Does (.stitch c) s
       ((((u.setChan c.val k).seeWin c.val).closeWin c.val).closeVec (d.own / 16) d.vid)) ∧
     (d.typ = 8 ∨ (20 ≤ d.typ ∧ d.typ < 28) →
       let w := (u.setChan c.val k).seeWin c.val
       Does (.stitch c) s ((w.judge d (w.observed c.val) (w.chanOf c.val).den (w.nowQ (c.val / 64))).closeVec (d.own / 16) d.vid)))) ∧
  (∀ (s : State) (e : Eye),
     let p := pg T.spr e.val
     let d := s.sprOf e.val
     (s.spareRuns e.val = false → Does (.dwellStart e) s s ∧ Does (.checkStitch e) s s) ∧
     (s.spareRuns e.val = true → s.positions e.val = [] → Does (.dwellStart e) s
       (((s.setSpr e.val { d with on := false }).set p F.SPR_STS_NPOS 0).set p F.SPR_DWELL_DWELL 0)) ∧
     (s.spareRuns e.val = true → ∀ lo rest, s.positions e.val = lo :: rest →
       let t := if d.on then d.next else s.era + (s.ui / 64 * 64 + 64) * 1024
       let n := (lo :: rest).length
       let k := if d.on then ((lo :: rest).find? (fun k => decide (s.get p F.SPR_STS_POS < k))).getD lo else lo
       ∃ u, Does (.dwellStart e) s u ∧ u.get p F.SPR_STS_POS = k % 16 ∧ u.get p F.SPR_STS_NPOS = n ∧
         u.get p F.SPR_DWELL_DWELL = 6400000 / n ∧ (u.sprOf e.val).on = true ∧ (u.sprOf e.val).start = t ∧ (u.sprOf e.val).next = t + 6400000 / n * 1024 ∧
        
         (u.sprOf e.val).checked = false ∧ (u.sprOf e.val).take = d.take ∧ u.now = (s.upToMono t).now ∧
         u = { s with regs := u.regs, held := u.held, spr := u.spr, dds := u.dds, now := u.now }) ∧
     (s.spareRuns e.val = true →
       let q := e.val / 4
       let c := 16 * e.val + s.get p F.SPR_STS_POS
       let t0 := max (s.lastStitch c + 262144) ((d.start : Int) + s.qofs q).toNat
       let t := (if d.checked then max t0 (d.lastChk + 262144) else t0) - s.era
       let ok := d.on = true ∧ s.stitchSoon c (max t (s.nowQ q) + 65536) = false
       let u := s.upToQ q t
       (ok → Does (.checkStitch e) s (u.setSpr e.val { d with lastChk := max (u.ownT t) (u.ownQ q), checked := true })) ∧
       (¬ ok → Does (.checkStitch e) s s)))

/-- R102 to R106: the decision on a pair of stamps that the self-check awl compares. Where the two slices agree within
THR, CLEAN_T advances; where they differ, the deviations are shown and the slice farther from the target (or without
a stamp) is faulty: a takeover is decided, or the spare goes BAD with its fault. While a takeover is decided and not
carried out a further mismatch changes nothing (DESIGN CHOICE, log entry 150). With the spare taken or bad, a live
slice beyond REF_THR raises SECOND_FAULT. A mismatch in the core cycle in which heel parks the eyelet is arbitrated
by the state before it. R107, R108: an eyelet that places no vector boundary carries a takeover out 32 UI after the
decision: the spare slice serves the channel (TAKEN, SPR_STS), TAKEOVER rises, the window from the channel's CLEAN_T
to the takeover is shown and its re-run record goes to the scheduler; in heel SPR_STS shows it once heel is left. An
eyelet that places boundaries does so at one of them (`SequencersPlayAndStop`), and without a takeover decided
nothing changes. -/
def Obligations.MismatchesLeadToTakeovers : Prop :=
  (∀ (s : State) (e : Eye) (l r : BitVec 16) (nl nr : Bool) (t : Nat),
     let p := pg T.spr e.val
     let d := s.sprOf e.val
     let c := 16 * e.val + s.get p F.SPR_STS_POS
     let seen := s.checking e.val = true ∧ s.compared e.val c t = true
     let on := seen ∧ d.on = true ∧ s.get p F.SPR_STS_STATE ≠ 4
     let heel := seen ∧ d.wasOn = true ∧ s.heelNow e.val = true ∧ s.get p F.SPR_STS_STATE = 4
     let gives := fun (u : State) => Does (.mismatchDecision e l r nl nr t) s u
     let agree := nl = false ∧ nr = false ∧ (l.toInt - r.toInt).natAbs ≤ d.thr
     let near := nl = false ∧ l.toInt.natAbs ≤ d.refThr
     let u := (s.set p F.SPR_DEV_LIVE_DEV (ofSigned 16 l.toInt)).set p F.SPR_DEV_SPARE_DEV (ofSigned 16 r.toInt)
     let live := nl = true ∨ (nr = false ∧ r.toInt.natAbs ≤ l.toInt.natAbs)
     let take := gives (u.setSpr e.val { d with take := some (c, u.ownQ (e.val / 4)) })
     (¬ on → ¬ heel → gives s) ∧
     (on → s.get p F.SPR_STS_STATE = 1 →
       (agree → gives (s.cleanTo c t)) ∧ (¬ agree → d.take.isSome = true → gives s) ∧
       (¬ agree → d.take = none → live → take) ∧
       (¬ agree → d.take = none → ¬ live →
         gives (((u.set p F.SPR_STS_STATE 3).put p F.SPR_STS_SPARE_BAD true).rise p X.SPR_SPARE_BAD))) ∧
     (on → s.get p F.SPR_STS_STATE = 2 ∨ s.get p F.SPR_STS_STATE = 3 →
       (near → gives (s.cleanTo c t)) ∧ (¬ near → gives (s.rise p X.SPR_SECOND_FAULT))) ∧
     (on → s.get p F.SPR_STS_STATE = 0 → gives s) ∧
     (heel → d.was = 1 →
       (agree ∨ d.take.isSome = true → gives s) ∧ (¬ agree → d.take = none → live → take) ∧
       (¬ agree → d.take = none → ¬ live →
         gives (((u.setSpr e.val { d with was := 3 }).put p F.SPR_STS_SPARE_BAD true).rise p X.SPR_SPARE_BAD))) ∧
     (heel → d.was = 2 ∨ d.was = 3 → (near → gives s) ∧ (¬ near → gives (s.rise p X.SPR_SECOND_FAULT)))) ∧
  (∀ (s : State) (e : Eye),
     let p := pg T.spr e.val
     ((s.sprOf e.val).take = none → Does (.takeover e) s s) ∧
     (∀ c t, (s.sprOf e.val).take = some (c, t) → c < 256 →
       (s.placing e.val = true → Does (.takeover e) s s) ∧
       (s.placing e.val = false →
         let v := s.upToQ (e.val / 4) (t + 32768 - s.era)
         ∃ u, Does (.takeover e) s u ∧ (u.sprOf e.val).take = none ∧
         u.flag (pg T.chn c) F.CHN_STS_TAKEN = true ∧
         (s.get p F.SPR_STS_STATE ≠ 4 → u.get p F.SPR_STS_STATE = 2) ∧
         (s.get p F.SPR_STS_STATE = 4 → u.get p F.SPR_STS_STATE = 4 ∧ (u.sprOf e.val).was = 2) ∧
         u.get p F.SPR_STS_FOR_CH = c % 16 ∧ u.flag p F.SPR_STS_TAKEOVER = true ∧ u.fltBit p X.SPR_TAKEOVER = true ∧
         u.get64 p F.SPR_WIN_START_LO_START F.SPR_WIN_START_HI_START = v.cleanT c / 1024 % 2 ^ 64 ∧
         u.get64 p F.SPR_WIN_END_LO_END F.SPR_WIN_END_HI_END = v.nowQ (e.val / 4) / 1024 % 2 ^ 64 ∧ u.now = v.now ∧
         u.sch.reruns = s.sch.reruns ++ [(c, s.siteOfCh c, v.cleanT c / 1024, v.nowQ (e.val / 4) / 1024)] ∧
         u.hbm = s.hbm ∧ u.groups = s.groups)))

/-- R120, R125: GO of a vamp load: where the sequencer is STOPPED, no load runs, the stage is 3 or above, the lines lie
in the resident area and their source is readable, a load of COUNT lines runs with LOAD_BUSY (a count of 0 does
nothing); otherwise LOAD_ERR is set. At its end every line and its poison are stored and LOAD_BUSY falls.
SLACK_RESTART sets MIN_SLACK to its greatest value. R122, R123, R130: a granule that arrives is stored with the
words and the poison of its lines; a presence check looks, 32 UI before a boundary, at the granule that begins
there, of the pass in play or of the next (of one that waits for AT, before AT once it can be told, R164). Without a granule awaited, or a running group, nothing changes. -/
def Obligations.VampLoadsFillGranules : Prop :=
  ((∀ (s : State) (e : Eye) (v : W32), Reaches s (eyePg e.val) →
     let p := eyePg e.val
     let u := s.writeReg p 0x238 (v ||| 0x80000000) false
     let src := u.get p F.EYE_VAMP_LD_SRC_LO_SRC_L * 64 + u.get p F.EYE_VAMP_LD_SRC_HI_SRC_H * 2 ^ 32
     let dst := u.get p F.EYE_VAMP_LD_CTL_DST
     let n := u.get p F.EYE_VAMP_LD_CTL_COUNT
     let ok := u.get p F.EYE_SEQ_STS_STATE = 0 ∧ u.flag p F.EYE_VAMP_STS_LOAD_BUSY = false ∧ 3 ≤ u.stage ∧
       16 * (dst + n) ≤ 4096 * u.get p F.EYE_VAMP_CFG_RES_BLK ∧ u.hbmReach src (64 * n) = true
     (¬ ok → Does (.goVampLoad e v) s (u.put p F.EYE_VAMP_STS_LOAD_ERR true)) ∧
     (ok → n = 0 → Does (.goVampLoad e v) s u) ∧
     (ok → n ≠ 0 → Does (.goVampLoad e v) s
       ((u.setEye e.val { u.eyeOf e.val with load := some (src, dst, n) }).put p F.EYE_VAMP_STS_LOAD_BUSY true))) ∧
   (∀ (s : State) (e : Eye),
     ((s.eyeOf e.val).load = none → Does (.vampLoadDone e) s s) ∧
     (∀ src dst n, (s.eyeOf e.val).load = some (src, dst, n) →
       let u := (List.range n).foldl (fun s i => s.loadLine e.val (src + 64 * i) (dst + i)) s
       Does (.vampLoadDone e) s
         ((u.setEye e.val { u.eyeOf e.val with load := none }).put (eyePg e.val) F.EYE_VAMP_STS_LOAD_BUSY false)) ∧
     (Reaches s (eyePg e.val) → Does (.slackRestart e) s (s.set (eyePg e.val) F.EYE_VAMP_SLACK_MIN_SLACK 0xFFFF)))) ∧
  (∀ (s : State) (e : Eye) (i : Nat),
     (((s.eyeOf e.val).gran.filter (fun x => x.done.isNone && !x.range)).length ≤ i ∨ s.groupOf e.val = none →
       Does (.granuleComplete e i) s s) ∧
     (∀ g x q, ((s.eyeOf e.val).gran.filter (fun x => x.done.isNone && !x.range))[i]? = some x → s.groupOf e.val = some g →
       (g.cur :: g.queue).find? (fun p => p.ord == x.pass) = some q →
       let n := 64 / s.vpl e.val
       let a := s.patBase e.val + 64 * s.granLine e.val q x.g
       let u := (List.range (2 * n)).foldl (fun s h => s.hbmTouch (a + 32 * h)) s
       Does (.granuleComplete e i) s
         ((u.setEye e.val { u.eyeOf e.val with gran := (s.eyeOf e.val).gran.map (fun y =>
           if y.pass = x.pass ∧ y.g = x.g then
             { y with done := some (u.nowQ (e.val / 4)), words := u.hbmWords a (16 * n),
                      poison := (List.range (2 * n)).map (fun h => u.rdPoison (a + 32 * h)), err := [] }
           else y) }).aheadSync g e.val)) ∧
     (∀ g x, ((s.eyeOf e.val).gran.filter (fun x => x.done.isNone && !x.range))[i]? = some x → s.groupOf e.val = some g →
       (g.cur :: g.queue).find? (fun p => p.ord == x.pass) = none → Does (.granuleComplete e i) s s) ∧
     (∀ g, s.groupOf e.val = some g → g.st = .running →
       let left := if g.holdLeft ≠ 0 then g.holdLeft else min ((64 - g.vec % 64) % 64) (g.cur.length - g.vec)
       let b := g.at_ + left * s.period g.leader g.cur.tset
       let v := if g.holdLeft ≠ 0 then g.vec else g.vec + left
       let check := fun p k b => Does (.presenceCheck e) s ((s.upToQ (g.leader / 4) (b - 32768)).checkNext p k e.val b)
       (v < g.cur.length → check g.cur (v / 64) b) ∧
       (g.cur.length ≤ v → g.queue = [] → Does (.presenceCheck e) s s) ∧
       (g.cur.length ≤ v → ∀ p r, g.queue = p :: r →
         let waits := p.sync = true ∧ p.first = true ∧ p.entry ≠ g.cur.entry
         (¬ waits → check p 0 b) ∧
         (waits → ∀ t, s.syncBound g b = some t → check p 0 t) ∧
         (waits → s.syncBound g b = none → Does (.presenceCheck e) s s))) ∧
     (∀ g, s.groupOf e.val = some g → g.st = .waiting →
       (∀ t, s.syncBound g g.at_ = some t → Does (.presenceCheck e) s
         ((s.upToQ (g.leader / 4) (t - 32768)).checkNext g.cur 0 e.val t)) ∧
       (s.syncBound g g.at_ = none → Does (.presenceCheck e) s s)) ∧
     ((∀ g, s.groupOf e.val = some g → g.st = .armed) → Does (.presenceCheck e) s s))

/-- R198, R204 to R206: the oldest fail on its way reaches the sequencers, then the EVT outputs, then the trigger
engines; a site's summary is final unless a group that has begun still serves it; the pulses of a pin that have come
to the end of their width end there, the earliest first. R201 to R203: of two or more records in the queue the two
oldest leave for the ring, and at a group stop a single one; those found corrupted leave with POISON; a record that
finds the ring full in STOP mode is lost and counted, and stores nothing. With the queue empty LOG_DONE is set. -/
def Obligations.FailsReachSummariesAndLog : Prop :=
  ((∀ s : State, s.fails = [] → Does .failArrival s s) ∧
   (∀ (s : State) (m : FailMsg) (r : List FailMsg), s.fails = m :: r →
     Does .failArrival s
       (((({ s with fails := r } : State).failSeq m).failEvt m).trgInput (fun i d => { d with fails := d.fails ++ [(i, m)] }))) ∧
   (∀ (s : State) (i : Fin 128),
     ((∃ g ∈ s.groups, g.begun = true ∧ i.val ∈ g.sites) → Does (.siteSummaryFinal i) s s) ∧
     ((∀ g ∈ s.groups, g.begun = true → i.val ∉ g.sites) →
       Does (.siteSummaryFinal i) s (s.setSite i.val { s.siteOf i.val with final := true }))) ∧
   (∀ (s : State) (n : Fin 8),
     ((∀ x ∈ s.evtSrc, x.pin = n.val → x.until_ = none) → Does (.evtPulseEnd n) s s) ∧
     (∀ t, (∃ x ∈ s.evtSrc, x.pin = n.val ∧ x.until_ = some t) →
       (∀ x ∈ s.evtSrc, ∀ a, x.pin = n.val → x.until_ = some a → t ≤ a) →
       ∃ u, Does (.evtPulseEnd n) s u ∧ u = { s.upTo t with evtSrc := u.evtSrc } ∧
         (∀ x, x ∈ u.evtSrc ↔ x ∈ s.evtSrc ∧ ¬ (x.pin = n.val ∧ x.until_ = some t))))) ∧
  (∀ (s : State) (e : Eye) (bad : BitVec 2),
     (2 ≤ (s.eyeOf e.val).flogQ.length → Does (.flogWrite e bad) s (s.flogDrain e.val 2 bad.toNat)) ∧
     ((s.eyeOf e.val).flogQ.length = 1 → s.flag (pg T.cmp e.val) F.CMP_STS_LOG_DONE = false →
       Does (.flogWrite e bad) s (s.flogDrain e.val 1 bad.toNat)) ∧
     ((s.eyeOf e.val).flogQ.length = 1 → s.flag (pg T.cmp e.val) F.CMP_STS_LOG_DONE = true →
       Does (.flogWrite e bad) s s) ∧
     ((s.eyeOf e.val).flogQ = [] → Does (.logDone e) s (s.put (pg T.cmp e.val) F.CMP_STS_LOG_DONE true)) ∧
     ((s.eyeOf e.val).flogQ ≠ [] → Does (.logDone e) s s) ∧
     (∀ (u : State) (ws : List W32),
       let v := u.flogForce e.val
       let w := u.flogRecord e.val ws
       (v.flogFull e.val = false → (v.eyeOf e.val).ringLost = 0 → w = v.flogStore e.val ws) ∧
       (v.flogFull e.val = true → w.hbm = u.hbm ∧ (w.eyeOf e.val).ringLost = (u.eyeOf e.val).ringLost + 1 ∧
         w.flag (pg T.cmp e.val) F.CMP_STS_LOST = true ∧ w.flag (pg T.cmp e.val) F.CMP_STS_FULL = true ∧
         w.fltBit (pg T.cmp e.val) X.CMP_FLOG_FULL = true)))

/-- R180 to R182: GO and STOP of a DDS unit; STOP of the same write acts first. GO is refused with the first REASON of
R181, and otherwise arms the unit with the START_MODE and START_TAG of the GO and empties its hop-time queue, with T
known at once in START_MODE 0, and in START_MODE 2 where the eyelet's group has been started. STOP of a running unit
acts at its next falling edge, and at once in the other states. R168, R175, R180: a unit that reaches T enters entry
0; its next edge inverts the level at the instant that the phase gives, and ends the output where a STOP waits for a
falling edge; at a hop instant it enters the successor entry, or, where a STOP acts in the same core cycle, makes
that edge in its place (R179). Without T, edge or hop nothing changes. R172, R177, R477: a write of DDS_HOP_AT_HI
pushes a hop time, or sets OVF where the queue holds 16; a waiting unit takes it. A list word enters the shadow list,
and is refused during a copy and where it would change a locked page's list; a read gives the word of the list that
LIVE selects, and acts on its error. Both then advance the index. -/
def Obligations.DdsUnitsRunTheirQueues : Prop :=
  (∀ (s : State) (e : Eye) (v : W32), Reaches s (pg T.dds e.val) →
     let p := pg T.dds e.val
     let put := fun (w : W32) => s.writeReg p 0x100 w (fget w 3 2 == 3 || fget w 14 13 == 3)
     let u := if v.getLsbD 1 then (put (v ||| 1)).ddsStop e.val else put (v ||| 1)
     let m := u.get p F.DDS_CTL_START_MODE
     let t := if m = 0 then some (u.get64 p F.DDS_START_LO_T F.DDS_START_HI_T) else if m = 2 then u.groupT e.val else none
     let a := ((u.setDds e.val { u.ddsOf e.val with
       hopQ := [], startT := none, stuck := false, mode := m, tag := u.get p F.DDS_CTL_START_TAG }).set p
       F.DDS_HOP_Q_STS_DEPTH 0).set p F.DDS_STS_STATE 1
     (u.ddsReasonAt e.val t ≠ 0 → Does (.goDds e v) s
       ((u.put p F.DDS_STS_START_REFUSED true).set p F.DDS_STS_REASON (u.ddsReasonAt e.val t))) ∧
     (u.ddsReasonAt e.val t = 0 → t = none → Does (.goDds e v) s a) ∧
     (u.ddsReasonAt e.val t = 0 → ∀ x, t = some x → Does (.goDds e v) s (a.ddsStartAt e.val x)) ∧
     (v.getLsbD 0 = false →
       let w := put (v ||| 2)
       (w.get p F.DDS_STS_STATE = 0 → Does (.ddsStop e v) s w) ∧
       (w.get p F.DDS_STS_STATE = 2 → Does (.ddsStop e v) s (w.setDds e.val { w.ddsOf e.val with stop := true })) ∧
       (w.get p F.DDS_STS_STATE ≠ 0 → w.get p F.DDS_STS_STATE ≠ 2 → Does (.ddsStop e v) s (w.ddsEnd e.val))) ∧
     (v.getLsbD 0 = true → Does (.ddsStop e v) s (((put (v ||| 2)).ddsStop e.val).ddsGo e.val))) ∧
  (∀ (s : State) (e : Eye),
     let d := s.ddsOf e.val
     (d.startT = none → Does (.ddsStartTime e) s s) ∧
     (∀ t, d.startT = some t → Does (.ddsStartTime e) s (((s.upToQ (e.val / 4) (t * 1024)).takeNow e.val).ddsBegin e.val t)) ∧
     (ddsNextEdge d = none → Does (.clockEdge e) s s) ∧
     (∀ t up, ddsNextEdge d = some (t, up) →
       let a := s.setDds e.val { d with half := d.half + 1 }
       let b := if up = d.level then a else a.ddsEdge e.val t up
       (d.stop = true ∧ up = false → Does (.clockEdge e) s (b.ddsEnd e.val)) ∧
       (d.stop = false ∨ up = true → Does (.clockEdge e) s b)) ∧
     (∀ h i, d.hopAt = some h → d.succ = some i → d.segOrd = none → d.stuck = false → d.on = true →
       (stopDue d h = false → Does (.hop e) s ((s.upToQ (e.val / 4) (h * 1024)).ddsHop e.val i h false)) ∧
       (stopDue d h = true → ∃ t, Does (.hop e) s t ∧ Does (.clockEdge e) s t)) ∧
     (d.hopAt = none ∨ d.succ = none ∨ d.segOrd ≠ none ∨ d.stuck = true ∨ d.on = false → Does (.hop e) s s)) ∧
  (∀ (s : State) (e : Eye) (v : W32),
     let p := pg T.dds e.val
     let d := s.ddsOf e.val
     let t := s.get p F.DDS_HOP_AT_LO_AT_L + v.toNat * 2 ^ 32
     let key := e.val * 16384 + 4 * s.get p F.DDS_LIST_IDX_ENTRY + s.get p F.DDS_LIST_IDX_WORD
     let no := s.flag p F.PG_STS_BUSY = true ∨ (s.locked p = true ∧ tabGet 0 s.ddsS key ≠ v)
     (Reaches s p → 16 ≤ d.hopQ.length → Does (.hopPush e v) s (s.put p F.DDS_HOP_Q_STS_OVF true)) ∧
     (Reaches s p → d.hopQ.length < 16 →
       let u := (s.setDds e.val { d with hopQ := d.hopQ ++ [t] }).set p F.DDS_HOP_Q_STS_DEPTH (d.hopQ.length + 1)
       (u.get p F.DDS_STS_STATE = 3 ∧ d.stuck = false → Does (.hopPush e v) s
         ((u.setDds e.val { u.ddsOf e.val with timed := true }).ddsDue e.val t)) ∧
       (u.get p F.DDS_STS_STATE ≠ 3 ∨ d.stuck = true → Does (.hopPush e v) s u)) ∧
     (Reaches s p → no → Does (.ddsListWrite e v) s ((s.refuse p 0x134).ddsIdxInc e.val)) ∧
     (Reaches s p → ¬ no → Does (.ddsListWrite e v) s
       ((({ s with ddsS := tabPut 0 s.ddsS key v, upset := tabErase s.upset (8 * 2 ^ 40 + key) } : State).ddsErrSync e.val (key % 16384 / 4)).ddsIdxInc e.val)) ∧
     (Readable s p →
       let live := s.flag p F.DDS_LIST_IDX_LIVE
       Does (.ddsListRead e) s (((s.ddsReadErr e.val (s.eccOf (if live then 3 else 8) key)).ddsIdxInc e.val).answer
         (tabGet 0 (if live then s.ddsL else s.ddsS) key))))

/-- R184 to R186: the level port. A GO with OP 1 or 2 makes one software frame pending, PEL_BUSY 1 and PEL_RX.DONE 0 (the
latter the model's choice, log entry 152), or sets PEL_OVR where one is pending; another OP does nothing. Of the
frames pending the one that may begin first does, an amplitude frame before a software frame at the same instant, and
its word leaves on the port; the frames left of an amplitude set that has begun go before those of a pending set. At
its end, 4,096 UI later, a software frame sets DONE (a read with its data), and an amplitude frame that ends after
its hop instant raises AMP_LATE. -/
def Obligations.LevelPortFramesComplete : Prop :=
  (∀ (s : State) (e : Eye) (v : W32), Reaches s (pg T.dds e.val) →
    let p := pg T.dds e.val
    let u := s.writeReg p 0x140 (v ||| 0x80000000) false
    let op := u.get p F.DDS_PEL_TX_OP
    let w := op * 2 ^ 28 + u.get p F.DDS_PEL_TX_CH * 2 ^ 24 + u.get p F.DDS_PEL_TX_REG * 2 ^ 16 +
      (if op = 1 then u.get p F.DDS_PEL_TX_DATA else 0)
    (op ≠ 1 → op ≠ 2 → Does (.pelTxGo e v) s u) ∧
    (op = 1 ∨ op = 2 → (u.ddsOf e.val).sw ≠ none → Does (.pelTxGo e v) s (u.put p F.DDS_STS_PEL_OVR true)) ∧
    (op = 1 ∨ op = 2 → (u.ddsOf e.val).sw = none → Does (.pelTxGo e v) s
      (((u.setDds e.val { u.ddsOf e.val with sw := some (⟨w, true, 0, none⟩, u.ui) }).put p F.DDS_PEL_RX_DONE false).pelSync
        e.val))) ∧
  (∀ (s : State) (e : Eye),
    let d := s.ddsOf e.val
    let begins := fun (x : DdsDyn) (f : PelFrame) (t : Nat) => Does (.pelFrameStart e) s
      (((s.upTo (t * 1024)).setDds e.val { x with frame := some (f, t + 4096) }).emit (.pel e.val f.word))
    (d.frame ≠ none ∨ (ampNext d = none ∧ d.sw = none) → Does (.pelFrameStart e) s s) ∧
    (∀ g t, d.frame = none → d.sw = some (g, t) →
      let ts := (max d.free t + 127) / 128 * 128
      (∀ f ta, ampNext d = some (f, ta) → ts < ta) → begins { d with sw := none } g ts) ∧
    (∀ f ta, d.frame = none → ampNext d = some (f, ta) →
      (∀ g t, d.sw = some (g, t) → ta ≤ (max d.free t + 127) / 128 * 128) → begins (ampTake d) f ta) ∧
    (∀ f r, d.ampCur = f :: r → ampNext d = some (f, (d.free + 127) / 128 * 128) ∧ ampTake d = { d with ampCur := r }) ∧
    (∀ f r, d.ampCur = [] → d.amp = f :: r → ampNext d = some (f, (max d.free d.ampFrom + 127) / 128 * 128) ∧
      ampTake d = { d with ampCur := r, amp := [] })) ∧
  (∀ (s : State) (e : Eye) (sdi : BitVec 16),
    let p := pg T.dds e.val
    let d := s.ddsOf e.val
    (d.frame = none → Does (.pelFrameDone e sdi) s s) ∧
    (∀ f up, d.frame = some (f, up) →
      let u := (s.upTo (up * 1024)).setDds e.val { d with frame := none, free := up + 256 }
      let late := f.seg = none ∧ u.hopDev e.val f.hop < up * 1024
      (f.sw = true → f.word / 2 ^ 28 = 2 → Does (.pelFrameDone e sdi) s
        (((u.set p F.DDS_PEL_RX_DATA sdi.toNat).put p F.DDS_PEL_RX_DONE true).pelSync e.val)) ∧
      (f.sw = true → f.word / 2 ^ 28 ≠ 2 → Does (.pelFrameDone e sdi) s ((u.put p F.DDS_PEL_RX_DONE true).pelSync e.val)) ∧
      (f.sw = false → late → Does (.pelFrameDone e sdi) s
        (((u.put p F.DDS_STS_AMP_LATE true).rise p X.DDS_AMP_LATE).pelSync e.val)) ∧
      (f.sw = false → ¬ late → Does (.pelFrameDone e sdi) s (u.pelSync e.val))))

/-- R62, R69, R208 to R210: a change of CMPH or CMPL at the ball. The channel's comparator takes the level, windows that
are open see it, and from stage 2 on the awl converts it on its quadrant's timeline, trim removed, with bit 0 of the
fraction at 0 (R211), and the tracking loops that use the channel note a rising edge of CMPH (R65): a transition
within 1 UI of the one before it on the same input is missed and counted. A level that is already there changes
nothing. R212, R216, R222: the stamps of the least value on their way reach the streams, the interval units and the
trigger engines, in this order, and leave the way. A burst of 16 words leaves a queue that holds as many, those found
corrupted with POISON. FLUSH writes the tails of the eyelet's streams at once, after the settings of the same write,
whose newly enabled streams begin with new EPOCH words (R215). R225: the gate of a quadrant opens 64 UI after the
first UI of a run of 1, and closes 64 UI after the first UI of the 0 that ends it; a gate that is open does not open
again, one that is closed does not close. The other gates and the groups stay as they are, and HBM at a close. -/
def Obligations.StampsReachTheirStreams : Prop :=
  (∀ (s : State) (c : Chan) (high level : Bool) (t : Nat),
     let k := s.chanOf c.val
     let was := if high then k.cmpH else k.cmpL
     (was = level → Does (.cmpTransition c high level t) s s) ∧
     (was ≠ level →
       let u := ((s.upTo t).setChan c.val
         (if high then { k with cmpH := level } else { k with cmpL := level })).seeWin c.val
       let inv := (u.rd (pg T.cmp (c.val / 16)) 0x104).getLsbD (c.val % 16 + (if high then 0 else 16))
       let edge := (if high then 0 else 2) + (if level = inv then 1 else 0)
       let a := u.awlOf c.val
       let last := if high then a.lastH else a.lastL
       let raw := u.atQ (c.val / 64) t / 2 * 2
       let own := some (u.era + t)
       (u.stage < 2 → Does (.cmpTransition c high level t) s u) ∧
       (2 ≤ u.stage → (∀ x, last = some x → x + 1024 ≤ u.era + t) →
         let w := (u.setAwl c.val (if high then { a with lastH := own } else { a with lastL := own })).linCount
           c.val (if high then 0 else 1) raw
         let v := w.stampValue c.val edge raw
         Does (.cmpTransition c high level t) s
           (({ w with stamps := w.stamps ++ [{ ch := c.val, edge := edge, v := v }] } : State).trackEdge c.val edge t v)) ∧
       (2 ≤ u.stage → ∀ x, last = some x → u.era + t < x + 1024 →
         let w := u.bump (pg T.tdc (c.val / 16)) F.TDC_MISS_CNT_COUNT 1
         Does (.cmpTransition c high level t) s
           ((if w.streaming c.val = true ∧ w.edgeSel c.val edge = true then
               w.setAwl c.val { a with miss := satAdd 65535 a.miss 1 } else w).iuMissed c.val)))) ∧
  ((∀ s : State, s.stamps = [] → (∀ e, e < 16 → (s.awlOf (16 * e)).wait = []) → Does .stampArrival s s) ∧
   (∀ (s : State) (v : Nat), (∃ x ∈ s.stamps, x.v = v) → (∀ x ∈ s.stamps, v ≤ x.v) →
     let xs := s.stamps.filter (fun x => x.v == v)
     let a : State := { s with stamps := s.stamps.filter (fun x => x.v != v) }
     let b := (List.range 64).foldl (fun s i => s.iuStamps xs i) (xs.foldl streamStamp a)
     Does .stampArrival s (xs.foldl trgStamp b)) ∧
   (∀ (s : State) (c : Chan) (bad : BitVec 16),
     let u := s.gateRelease c.val
     ((u.awlOf c.val).q.length < 16 → Does (.streamBurstWrite c bad) s u) ∧
     (16 ≤ (u.awlOf c.val).q.length → bad = 0 → Does (.streamBurstWrite c bad) s (u.streamDrain c.val 16)) ∧
     (16 ≤ (u.awlOf c.val).q.length → bad ≠ 0 → Does (.streamBurstWrite c bad) s
       ((u.streamPoison c.val bad.toNat).streamDrain c.val 16))) ∧
   (∀ (s : State) (e : Eye) (v : W32) (z : BitVec 1024), Reaches s (pg T.tdc e.val) →
     let p := pg T.tdc e.val
     let old := s.rd p 0x100
     let sz := s.get p F.TDC_RING_SIZE_SIZE16
     let bad := decide ((v ||| 0x80000000) &&& ~~~old &&& 0xFFFF ≠ 0) &&
       (decide (s.stage < 3) || sz == 0 || !regionOk (s.ringBase e.val) sz)
     let u := s.writeReg p 0x100 (v ||| 0x80000000) bad
     let w := (List.range 16).foldl (fun (w : State) k =>
       if (u.rd p 0x100).getLsbD k && !old.getLsbD k then
         w.setAwl (16 * e.val + k) { w.awlOf (16 * e.val + k) with epoch := none } else w) u
     Does (.flush e v z) s (w.streamFlush e.val (fun k => z.toNat / 2 ^ (64 * k) % 2 ^ 64)))) ∧
  (∀ (s : State) (q : Quad) (t : Nat),
     (∀ o r, s.gateOf q.val = (o, none) :: r →
       Does (.gateOpen q t) s s ∧ ∃ w, Does (.gateClose q t) s w ∧ w.gateOf q.val = (o, some t) :: r ∧
         (∀ q', q' ≠ q.val → w.gateOf q' = s.gateOf q') ∧ w.hbm = s.hbm ∧
         w.now = (s.upToQ q.val ((t + 64) * 1024)).now ∧ w.groups = s.groups) ∧
     ((∀ o r, s.gateOf q.val ≠ (o, none) :: r) →
       Does (.gateClose q t) s s ∧ ∃ w, Does (.gateOpen q t) s w ∧ w.gateOf q.val = (t, none) :: (s.gateOf q.val).take 3 ∧
         (∀ q', q' ≠ q.val → w.gateOf q' = s.gateOf q') ∧ (s.upToQ q.val ((t + 64) * 1024)).now ≤ w.now ∧
         w.groups = s.groups))

/-- R227: ARM and DISARM of an interval unit. A unit that is OFF or DONE, with its page enabled, the stage at 2 or above
and settings that are legal, takes its settings and is armed 64 UI on; otherwise ARM_ERR is set. DISARM turns it
OFF, with the results already queued kept, and governs an ARM in the same write. R228, R230, R232: a deadline that
passes with no stop on its way at or before it gives a TMO result and the unit waits for a start again; the end of a
frequency gate gives the span from the first to the last of the edges in it, those still on their way included,
flagged TMO below two edges, and begins the next gate or waits for it; a read of TDC_IU_RES0 pops the oldest result
into the hold, with the valid bit, and 0 where there is none. -/
def Obligations.IntervalUnitsGiveResults : Prop :=
  (∀ (s : State) (e : Eye) (n : Fin 4) (v : W32), Reaches s (pg T.tdc e.val) →
     let p := pg T.tdc e.val
     let i := 4 * e.val + n.val
     let o := 0x400 + 0x40 * n.val
     let a := s.writeReg p o (v ||| 1) false
     let d : IuDyn := { ctl := a.rd p o, src := a.rd p (o + 4), tmo := a.rd p (o + 8), ta := a.now + 65536,
                        results := (a.iuOf i).results, hold := (a.iuOf i).hold, owner := none }
     let ok := a.enabled p = true ∧ 2 ≤ a.stage ∧ (a.iuState i = 0 ∨ a.iuState i = 5) ∧ d.mode ≠ 3 ∧
       ¬ (d.mode = 1 ∧ d.gated = true ∧ d.startCh % 16 ≠ 0)
     (v.getLsbD 1 = false → ¬ ok → Does (.iuArm e n v) s (a.put p (iuFld F.TDC_IU_STS_ARM_ERR n.val) true)) ∧
     (v.getLsbD 1 = false → ok → d.mode ≠ 1 → Does (.iuArm e n v) s ((a.setIu i d).setIuState i 1)) ∧
     (v.getLsbD 1 = false → ok → d.mode = 1 → d.gated = true → Does (.iuArm e n v) s ((a.setIu i d).setIuState i 3)) ∧
     (v.getLsbD 1 = false → ok → d.mode = 1 → d.gated = false → Does (.iuArm e n v) s
       ((a.setIu i { d with gs := d.ta, ge := some (d.ta + d.span * 1024) }).setIuState i 4)) ∧
     (v.getLsbD 1 = true → Does (.iuArm e n v) s (a.iuDisarm i)) ∧
     (let w := s.writeReg p o (v ||| 2) false
      (w.iuState i = 0 → Does (.iuDisarm e n v) s w) ∧
      (w.iuState i ≠ 0 → Does (.iuDisarm e n v) s
        ((w.setIu i { w.iuOf i with members := [], excl := 0, ge := none, edges := [], held := none, owner := none }).setIuState i 0)))) ∧
  (∀ (s : State) (e : Eye) (n : Fin 4),
     let i := 4 * e.val + n.val
     let d := s.iuOf i
     let late := ∃ x ∈ s.stamps, x.ch = d.stopCh ∧ x.edge = d.stopEdge ∧ x.v ≤ d.deadline
     (s.iuState i ≠ 2 ∨ late → Does (.iuTimeout e n) s s) ∧
     (s.iuState i = 2 → ¬ late →
       let u := (s.upToQ (d.stopCh / 64) (d.deadline + 1)).setIuState i 1
       (d.mode = 2 → Does (.iuTimeout e n) s ((u.setIu i { d with excl := d.excl + 1 }).iuGroup i)) ∧
       (d.mode ≠ 2 → Does (.iuTimeout e n) s (u.iuResult i 0 (2 ^ 14) 0 0))) ∧
     (d.ge = none ∨ s.iuState i ≠ 4 → Does (.iuGateEnd e n) s s) ∧
     (∀ ge, d.ge = some ge → s.iuState i = 4 →
       let u := s.upToQ (d.startCh / 64) ge
       let way := (u.stamps.filter (fun x => x.ch == d.startCh && x.edge == d.startEdge)).map (·.v)
       let xs := (d.edges ++ way).filter (fun v => decide (d.gs ≤ v) && decide (v < ge))
       let rest := d.edges.filter (fun v => decide (ge ≤ v))
       let v : Int := match xs with
         | [] => 0
         | x :: r => ((r.foldl max x : Nat) : Int) - (r.foldl min x : Nat)
       let f := b2n (decide (xs.length < 2)) * 2 ^ 14
       (d.gated = true → Does (.iuGateEnd e n) s
         (((u.setIu i { d with edges := rest, ge := none }).setIuState i 3).iuResult i v f xs.length 0)) ∧
       (d.gated = false → Does (.iuGateEnd e n) s
         (((u.setIu i { d with edges := rest, gs := ge, ge := some (ge + d.span * 1024) }).setIuState i 4).iuResult
           i v f xs.length 0))) ∧
     (Readable s (pg T.tdc e.val) → d.results = [] → Does (.iuResultPop e n false) s ((s.setIu i { d with hold := [] }).answer 0)) ∧
     (Readable s (pg T.tdc e.val) → ∀ r rs, d.results = r :: rs →
       let h := r.set 1 (r.getD 1 0 ||| 0x80000000)
       Does (.iuResultPop e n false) s
         (((s.setIu i { d with results := rs, hold := h }).iuDepth i).answer (h.getD 0 0)) ∧
       Does (.iuResultPop e n true) s
         (((s.iuPoison i).iuPop i).1.answer ((s.iuPoison i).iuPop i).2)))

/-- R242 to R246: a write of TRG_CTL with ARM, DISARM or FORCE, after its settings. FORCE acts on an engine that runs
and is ignored by others; each FORCE acts in a sample of its own. DISARM governs an ARM of the same write: a running
engine stops in a coming sample, an armed one is no longer armed; ARM is refused with ARM_ERR, or arms the engine for the
first multiple of its step that is 64 UI on, on the timeline of its quadrant. R235, R238, R244, R246: an armed engine
reaches B: where a DISARM that acts by then waits it does not start; else it takes the settings in force, its counters,
flags and indices are 0, it stands in level 0, running, and its START marker is due. A running engine evaluates its next
sample 96 UI after it began: the level machine with the stamps and inputs of the sample, then the records of the
acquisition, and goes on 4 UI later or ends; a DISARM that is due ends it first. An engine that is not armed, or does not
run, changes nothing. R247, R249, R252: the oldest records and markers leave the queues for their regions; each word of
them that is found corrupted is written as a value nothing fixes and leaves a POISON marker that names its record. After
16,384 UI of a low queue the decimation of a running AUTO engine that is above its minimum steps down. -/
def Obligations.TriggersStartAndAcquire : Prop :=
  (∀ (s : State) (q : Quad) (v : W32), Reaches s (trgPg q.val) →
     let p := trgPg q.val
     let force := fun (u : State) => if u.trgRuns q.val = true then
       u.setTrg q.val { u.trgOf q.val with forced := (u.trgOf q.val).forced ++ [u.nowQ q.val] } else u
     let disarm := fun (u : State) => if u.trgRuns q.val = true then
       u.setTrg q.val { u.trgOf q.val with disarm := some (min (u.nowQ q.val) ((u.trgOf q.val).disarm.getD (u.nowQ q.val))) }
       else u.setTrg q.val { u.trgOf q.val with armed := none, disarm := none }
     let arm := fun (u : State) =>
       let k := 16 * 2 ^ u.get p F.TRG_DECIM_MIN_LOG
       if u.armBad q.val = true then u.put p F.TRG_STS_ARM_ERR true
       else u.setTrg q.val { u.trgOf q.val with
         armed := some ((u.nowQ q.val + 65536 + k * 1024 - 1) / (k * 1024) * k), disarm := none }
     let run := fun (w : W32) =>
       let u := s.writeReg p 0x100 w false
       let a := if w.getLsbD 2 = true then force u else u
       if w.getLsbD 1 = true then disarm a else if w.getLsbD 0 = true then arm a else a
     Does (.trgArm q v) s (run (v ||| 1)) ∧ Does (.trgDisarm q v) s (run (v ||| 2)) ∧ Does (.force q v) s (run (v ||| 4))) ∧
  (∀ (s : State) (q : Quad),
     let d := s.trgOf q.val
     let p := trgPg q.val
     (d.armed = none → Does (.trgStart q) s s) ∧
     (∀ b, d.armed = some b →
       let u := s.upToQ q.val (b * 1024)
       let off := ∃ x, (u.trgOf q.val).disarm = some x ∧ x ≤ b * 1024
       (off → Does (.trgStart q) s
         ((u.rawAll q.val).setTrg q.val { (u.rawAll q.val).trgOf q.val with armed := none, disarm := none })) ∧
       (¬ off → ∃ t, Does (.trgStart q) s t ∧ t.get p F.TRG_STS_STATE = 1 ∧ t.get p F.TRG_STS_LEVEL = 0 ∧
         t.flag p F.TRG_STS_TRIGGERED = false ∧ t.get p F.TRG_DECIM_CUR_LOG = s.get p F.TRG_DECIM_MIN_LOG ∧
         t.get p F.TRG_ACQ_WIDX_W = 0 ∧ (t.trgOf q.val).at_ = b ∧ (t.trgOf q.val).armed = none)) ∧
     (s.trgRuns q.val = false → Does (.trgSample q) s s) ∧
     (s.trgRuns q.val = true →
       let u := s.upToQ q.val ((d.at_ + 96) * 1024)
       let due := ∃ x, (u.trgOf q.val).disarm = some x ∧ x ≤ (d.at_ + 96) * 1024
       (due → Does (.trgSample q) s (u.trgFinish q.val 3 d.at_)) ∧
       (¬ due →
         let xs := sampleStamps (u.trgOf q.val) q.val
         let r := u.sampleRaw q.val d.at_
         let l := r.1.levelStep q.val xs r.2.1
         let a := (r.2.2.zipIdx).foldl (fun s x => s.rawPoint q.val (d.at_ + x.2) x.1) (l.1.sampleDone q.val xs r.2.1)
         let b := (xs.foldl (fun s x => s.acqStamp q.val x) a).acqFails q.val
         let len := 64 * 2 ^ (b.tcfg q.val F.TRG_AVG_AVG_LOG + b.dlog q.val)
         let c := if b.acqMode q.val = 4 ∧ (d.at_ + 4) % len = 0 then (b.avgFlush q.val).decimTake q.val (d.at_ + 4) else b
         let e := c.setTrg q.val { c.trgOf q.val with at_ := d.at_ + 4 }
         (c.trgRuns q.val = false → Does (.trgSample q) s c) ∧
         (c.trgRuns q.val = true → l.2 = false → Does (.trgSample q) s e) ∧
         (c.trgRuns q.val = true → l.2 = true → Does (.trgSample q) s (e.trgFinish q.val 4 (d.at_ + 4)))))) ∧
  (∀ (s : State) (q : Quad),
     let p := trgPg q.val
     let d := s.trgOf q.val
     (∀ (n m : Nat) (bad : List (Nat × Nat)),
       let of := fun (k : Nat) => (bad.filter (fun x => x.1 == k)).map Prod.snd
       let a := s.setTrg q.val { d with q := d.q.drop n, marks := d.marks.drop m }
       let b := ((d.q.take n).zipIdx).foldl (fun (u : State) r =>
         let xs := (of r.2).filter (fun w => decide (w < r.1.ws.length))
         let c := u.blurWords r.1.ws xs
         xs.foldl (fun u w => u.poisonMark q.val r.1.ui r.1.idx r.1.dlog w) (c.1.acqStore q.val { r.1 with ws := c.2 })) a
       Does (.acqRecordWrite q n m bad) s
         (((((d.marks.take m).zipIdx).foldl (fun u w => u.markLeave q.val w.1 (of (n + w.2))) b).acqLow q.val).infoPost q.val)) ∧
     (let ok := s.trgRuns q.val = true ∧ d.want = none ∧ s.tcfg q.val F.TRG_DECIM_AUTO = 1 ∧
       s.tcfg q.val F.TRG_DECIM_MIN_LOG < s.dlog q.val
      (∀ x, d.lowSince = some x → ok →
        let u := s.upToMono ((x + 16384) * 1024)
        Does (.decimDown q) s (u.setTrg q.val
          { u.trgOf q.val with want := some (u.dlog q.val - 1), lowSince := some (u.mono / 1024) })) ∧
      (d.lowSince = none ∨ ¬ ok → Does (.decimDown q) s s)))

/-- R289, R292: a ticket is submitted by the write of its last word. With 1,024 in flight it is refused with SUBMIT_OVF
and its fault. A descriptor with a fault is accepted and completes at once with status 32 and DESC_ERR; a valid one
is ready, or waits for its counter; in heel or at a power failure it ends with the status of the cause. R293, R294:
a dependence counter steps down by one, and wakes the tickets that wait for it at 0; stepping down a counter at 0
sets CTR_UFL and raises its fault. SCH_CTR_VAL sets the counter that SCH_CTR_IDX names. The selected edge of an EVT
input steps its counter down where CTR_EN is set, and reaches the sequencers and trigger engines; another edge, and
one on an output, only changes the pin. R295 to R297: dispatch places the first ready ticket, in the order of type
and age, that has a core; from the end of its affinity wait on a ready ticket may go to any core that serves it. A ticket
placed on an idle core runs there, otherwise it waits in the core's slot. In ask-and-block mode the switch returns
the tickets in slots to the ready list and the idle cores ask. -/
def Obligations.TicketsAreSubmittedAndDispatched : Prop :=
  (∀ (s : State) (v : W32), Reaches s schPg →
     let a : State := { s with sch := { s.sch with submit := tabPut 0 s.sch.submit 15 v } }
     let k : Ticket := { words := (List.range 16).map (fun i => tabGet 0 a.sch.submit i), slot := a.freeSlot, age := a.sch.nextAge }
     let ready := k.waitEn = false ∨ a.ctr k.waitCtr = 0
     let add := fun (k : Ticket) =>
       (({ a with sch := { a.sch with tickets := a.sch.tickets ++ [k], nextAge := a.sch.nextAge + 1 } } : State).schSync).traceEv 1 0 k
     (1024 ≤ s.inflight → Does (.ticketSubmit v) s
       ((a.put schPg F.SCH_STS_SUBMIT_OVF true).rise schPg X.SCH_SUBMIT_OVF)) ∧
     (s.inflight < 1024 → descBad k = true →
       let j := { k with phase := .complete, readyAt := a.mono, status := 0x32, signalled := true }
       let b := ((add j).put schPg F.SCH_STS_DESC_ERR true).rise schPg X.SCH_DESC_ERR
       let c := (if k.sited = true ∧ k.isPost = false then b.siteAdd k.site k.age 0x32 0 else b).traceEv 5 0 j
       Does (.ticketSubmit v) s (if k.sigEn = true then c.ctrDown k.sigCtr else c)) ∧
     (s.inflight < 1024 → descBad k = false →
       let j := { k with phase := if ready then .ready else .waiting, readyAt := a.mono }
       ((add j).causeStatus = none → ready → Does (.ticketSubmit v) s ((add j).traceEv 2 0 j)) ∧
       ((add j).causeStatus = none → ¬ ready → Does (.ticketSubmit v) s (add j)) ∧
       (∀ c, (add j).causeStatus = some c → Does (.ticketSubmit v) s ((add j).endTicket k.slot c)))) ∧
  ((∀ (s : State) (v : W32), Reaches s schPg →
     let n := fget v 11 0
     (s.ctr n = 0 → Does (.ctrDec v) s ((s.put schPg F.SCH_STS_CTR_UFL true).rise schPg X.SCH_CTR_UFL)) ∧
     (s.ctr n ≠ 0 →
       ∃ t, Does (.ctrDec v) s t ∧ t.ctr n = s.ctr n - 1 ∧ (∀ m, m ≠ n → t.ctr m = s.ctr m) ∧ 
         (∀ p a, rkey p a ≠ rkey schPg 0x010 → t.rd p a = s.rd p a) ∧ t.hbm = s.hbm ∧
         (1 < s.ctr n → t.sch.tickets = s.sch.tickets) ∧
         (s.ctr n = 1 → t.sch.tickets = s.sch.tickets.map (fun k =>
           if k.phase = .waiting ∧ k.waitEn = true ∧ k.waitCtr = n then { k with phase := .ready, readyAt := s.mono } else k))) ∧
     (let r := writeAt s schPg 0x114 v false
      (r.2 = true → Does (.ctrSet v) s (r.1.ctrPut (r.1.get schPg F.SCH_CTR_IDX_IDX) (fget v 15 0))) ∧
      (r.2 = false → Does (.ctrSet v) s r.1))) ∧
   (∀ (s : State) (n : Fin 8) (rising : Bool),
     let a : State := { s with evtIn := if rising then setBit s.evtIn n.val else clearBit s.evtIn n.val }
     let b := if s.flag schPg (F.SCH_EVT_CTL_CTR_EN.off (4 * n.val)) = true then
       a.ctrDown (s.get schPg (F.SCH_EVT_CTL_CTR.off (4 * n.val))) else a
     let off := s.evtIsOut n.val = true ∨ s.flag schPg (F.SCH_EVT_CTL_EDGE.off (4 * n.val)) = rising
     (off → Does (.evtEdge n rising) s a) ∧
     (¬ off → Does (.evtEdge n rising) s
       ((b.seqEvent 7 n.val).trgInput (fun i d => { d with evt := d.evt ++ [(i, n.val)] }))))) ∧
  ((∀ s : State, (∀ k ∈ s.readyList, s.chooseCore k (k.late || k.retries != 0) = none) → Does .dispatch s s) ∧
   (∀ (s : State) (a b : List Ticket) (k : Ticket) (n : Nat), s.readyList = a ++ k :: b →
     (∀ j ∈ a, s.chooseCore j (j.late || j.retries != 0) = none) → s.chooseCore k (k.late || k.retries != 0) = some n →
     (s.coreIdle n = true → Does .dispatch s ((s.traceEv 3 n k).coreTake n k)) ∧
     (s.coreIdle n = false → Does .dispatch s
       (((s.traceEv 3 n k).modTicket k.slot (fun k => { k with phase := .slot n })).put (lst n) F.LST_STS_SLOT_FULL true))) ∧
   (∀ (s : State) (i : Fin 1024),
     ((∀ k, s.ticketAt i.val = some k → k.phase ≠ .ready) → Does (.affWaitExpiry i) s s) ∧
     (∀ k, s.ticketAt i.val = some k → k.phase = .ready →
       let u := (s.upToMono (k.readyAt + s.get schPg F.SCH_MODE_AFF_WAIT * 4096)).modTicket i.val
         (fun k => { k with late := true })
       (u.chooseCore k true = none → Does (.affWaitExpiry i) s u) ∧
       (∀ n, u.chooseCore k true = some n → Does (.affWaitExpiry i) s (u.place k n)))) ∧
   (∀ s : State, s.askMode = false → Does .dispatchSwitch s s) ∧
   (∀ s : State, s.askMode = true → ∃ t, Does .dispatchSwitch s t ∧
     t.sch.tickets = s.sch.tickets.map (fun k => if k.slotCore.isSome then { k with phase := .ready } else k) ∧
     (∀ n, n < 32 → t.flag (lst n) F.LST_STS_SLOT_FULL = false ∧ (s.coreState n = 0 → t.coreState n = 2) ∧
       (s.coreState n ≠ 0 → t.coreState n = s.coreState n)) ∧ t.hbm = s.hbm ∧ t.now = s.now))

/-- R288, R290: the action of a ticket that runs on a core and has not begun. BURST binds and starts its group (a
refused start gives the status of its REASON), MEASURE arms its unit or fails with status 18, ANALYZE joins its
engine's queue and waits while it holds 8, WRITE writes its registers with status 33 where one may not be written,
WAIT waits for its time and is LATE (flag 2) where it has passed, POST takes its site's bin and payload. Any other
ticket changes nothing. -/
def Obligations.TicketActionsStart : Prop :=
  ∀ (s : State) (i : Fin 1024),
    (s.ticketNew i.val 1 = none → Does (.burst i) s s) ∧ (s.ticketNew i.val 2 = none → Does (.measure i) s s) ∧
    (s.ticketNew i.val 3 = none → Does (.analyze i) s s) ∧ (s.ticketNew i.val 4 = none → Does (.write i) s s) ∧
    (s.ticketNew i.val 5 = none → Does (.wait i) s s) ∧ (s.ticketNew i.val 6 = none → Does (.post i) s s) ∧
    (∀ k, s.ticketNew i.val 1 = some k →
      let a := s.burstSetup k k.ranAgain
      let sites := a.sitesOf (burstEyes k)
      let g := (a.modTicket i.val (fun k => { k with served := sites, siteSt := sites.map (fun i => (i, 0)) })).goSeq
        (fget (k.word 4) 19 16) false [i.val]
      let u := g.1.begin_ i.val
      (k.ranAgain = true ∧ (g.2 = 2 ∨ g.2 = 9) → Does (.burst i) s g.1) ∧
      (g.2 = 0 → Does (.burst i) s (u.modTicket i.val (fun k => { k with goIssued := true }))) ∧
      (g.2 ≠ 0 → ¬ (k.ranAgain = true ∧ (g.2 = 2 ∨ g.2 = 9)) → Does (.burst i) s
        ((u.burstStatus i.val (reasonStatus g.2) (fun _ => true)).finish i.val (if sites = [] then reasonStatus g.2 else 0) 0))) ∧
    (∀ k, s.ticketNew i.val 2 = some k →
      let n := fget (k.word 4) 5 0
      let p := pg T.tdc (n / 4)
      let o := 0x400 + 0x40 * (n % 4)
      let a := ((s.writeReg p o (k.word 5 &&& ~~~3) false).writeReg p (o + 4) (k.word 6) false).writeReg p (o + 8) (k.word 7) false
      let r := a.iuArm n (some (i.val, k.wide 8))
      (r.2 = true → Does (.measure i) s ((r.1.begin_ i.val).modTicket i.val (fun k => { k with expStart := some ((r.1.iuOf n).ta / 1024) }))) ∧
      (r.2 = false → Does (.measure i) s ((r.1.begin_ i.val).finish i.val 0x18 0))) ∧
    (∀ k, s.ticketNew i.val 3 = some k →
      let q := fget (k.word 4) 1 0
      let u := s.hbmTouch (k.wide 5)
      (8 ≤ (s.aneOf q).jobq.length → Does (.analyze i) s s) ∧
      ((s.aneOf q).jobq.length < 8 → Does (.analyze i) s
        ((u.jobPut q (u.hbmWords (k.wide 5) 16) (some i.val)).begin_ i.val))) ∧
    (∀ k, s.ticketNew i.val 4 = some k →
      let r := (s.begin_ i.val).writeAll k (List.range (fget (k.word 4) 2 0))
      Does (.write i) s (r.1.finish i.val (if r.2 then 0x33 else 0) 0)) ∧
    (∀ k, s.ticketNew i.val 5 = some k →
      (k.wide 4 < s.ui → Does (.wait i) s ((s.begin_ i.val).finish i.val 0 2)) ∧
      (s.ui ≤ k.wide 4 → Does (.wait i) s (s.begin_ i.val))) ∧
    (∀ k, s.ticketNew i.val 6 = some k → Does (.post i) s
      (((s.begin_ i.val).modTicket i.val (fun _ => { s.posted k false with begun := true })).finish i.val 0 0))

/-- R288, R291, R298 to R301: the ends of a ticket. AT of a WAIT is reached; a ticket whose action is finished completes
(a BURST that has run once its logs are done and its summaries final); one that runs past its LIMIT, from the instant it was
taken, takes status 30,
its group stops by ABORT and its unit or job is called back; a complete ticket is released in its turn once its gate
is met; a takeover's record marks the tickets to run again. A ticket for which the event does not hold is unchanged.
R303: a last core whose watchdog expires or whose memory has an uncorrectable error leaves service: STATE 3, its
slot empty, the fault counted and raised, and each ticket it held goes to another core or completes with status 31;
with no core left NO_CORE is set and raised. A core that is out of service already is unchanged. -/
def Obligations.TicketsEndAndAreReleased : Prop :=
  ((∀ (s : State) (i : Fin 1024) (bad : Nat), s.ticketAt i.val = none →
     Does (.waitAtReached i) s s ∧ Does (.ticketComplete i bad) s s ∧ Does (.ticketTimeout i) s s ∧ Does (.release i) s s) ∧
   (∀ (s : State) (i : Fin 1024) (k : Ticket), s.ticketAt i.val = some k →
     let log := (∀ e ∈ burstEyes k, s.flag (pg T.cmp e) F.CMP_STS_LOG_DONE = true) ∧ ∀ j ∈ k.served, (s.siteOf j).final = true
     let ends := k.core.isSome = true ∧ k.begun = true ∧ k.fin = true ∧ (k.isBurst = false ∨ k.expStart = none ∨ log)
     let late := k.core.isSome = true ∧ k.fin = false ∧ k.limit ≠ 0
     let end_ := (s.upToMono (k.beginT + k.limit * 6400 * 1024)).begin_ i.val
     let turn := k.isComplete = true ∧ k.rerun = false ∧ s.releaseTurn k = true ∧ s.gateMet k = true
     (k.typ = 5 → k.begun = true → k.core.isSome = true →
       Does (.waitAtReached i) s ((s.upTo (k.wide 4 * 1024)).finish i.val 0 0)) ∧
     (k.typ ≠ 5 ∨ k.begun = false ∨ k.core = none → Does (.waitAtReached i) s s) ∧
     (∀ bad, ends → k.typ ≠ 2 → Does (.ticketComplete i bad) s (s.completeTicket i.val 0 0)) ∧
     (∀ bad, ends → k.typ = 2 →
       let u := s.measPoison k bad
       let n := fget (k.word 4) 5 0
       Does (.ticketComplete i bad) s (u.completeTicket i.val
         (if u.flag (pg T.tdc (n / 4)) (iuFld F.TDC_IU_STS_OVF (n % 4)) then 0x16 else 0) 0)) ∧
     (∀ bad, ¬ ends → Does (.ticketComplete i bad) s s) ∧
     (late → k.isBurst = false → Does (.ticketTimeout i) s
       ((end_.finish i.val 0x30 0).callBack i.val)) ∧
     (late → k.isBurst = true →
       let u := end_.burstStatus i.val 0x30 (fun _ => true)
       (∀ g, u.groups.find? (fun g => g.slots.contains i.val) = some g → Does (.ticketTimeout i) s (u.abortSeq g.leader)) ∧
       (u.groups.find? (fun g => g.slots.contains i.val) = none → Does (.ticketTimeout i) s (u.finish i.val 0x30 0))) ∧
     (¬ late → Does (.ticketTimeout i) s s) ∧
     (turn → Does (.release i) s (s.releaseTicket k)) ∧ (¬ turn → Does (.release i) s s)) ∧
   (∀ s : State, s.sch.reruns = [] → Does .rerunRecord s s) ∧
   (∀ (s : State) (c site ws we : Nat) (r : List (Nat × Nat × Nat × Nat)), s.sch.reruns = (c, site, ws, we) :: r →
     let a := s.sch.tickets.filter (fun k => k.serves.contains site &&
       k.expStart.any (fun x => overlaps x k.expEnd ws we))
     let sel := fun (k : Ticket) => decide (k.slot ∈ a.map (·.slot)) ||
       decide (k.slot ∈ (s.sch.tickets.filter (fun k => k.serves.contains site && k.started &&
         a.any (fun j => j.flow == k.flow && decide (j.age < k.age)))).map (·.slot))
     let u : State := { s with sch := { s.sch with reruns := r,
                                                   tickets := s.sch.tickets.map (fun k => if sel k then { k with rerun := true } else k) } }
     (∀ x ∈ s.sch.released, site ∉ x.2.1) → Does .rerunRecord s u.rerunNext)) ∧
  (∀ (s : State) (n : Fin 32),
     (s.coreState n.val = 3 → Does (.lstWdogExpiry n) s s ∧ Does (.lstMemUncorr n) s s) ∧
     (s.coreState n.val ≠ 3 →
       let hit := s.sch.tickets.filter (fun k => k.core == some n.val || k.slotCore == some n.val)
       let a := ((s.set (lst n.val) F.LST_STS_STATE 3).put (lst n.val) F.LST_STS_SLOT_FULL false).bump (lst n.val)
         F.LST_CNT_FAULT_FAULTS 1
       let u := hit.foldl (coreLost n.val) (a.rise (lst n.val) X.LST_LST_FAULT)
       ((∀ m, m < 32 → u.coreState m = 3) →
         let t := (u.put schPg F.SCH_STS_NO_CORE true).rise schPg X.SCH_NO_CORE
         Does (.lstWdogExpiry n) s t ∧ Does (.lstMemUncorr n) s t) ∧
       ((∃ m, m < 32 ∧ u.coreState m ≠ 3) → Does (.lstWdogExpiry n) s u ∧ Does (.lstMemUncorr n) s u)))

/-- R306: reading EVQ_POP0 in MODE 0 takes the oldest entry of the highest class into the hold, acknowledges it and
returns its first word (with POISON where it was corrupted, which counts), and 0 where the queue is empty or in MODE 1. In
MODE 1 two entries leave for the host ring as long as it has room. R222, R308: four trace records leave for the trace ring
together. When the linger time of a partial burst comes to its end, what its queue holds leaves alone: the words of a
stream, the record of a fail log, the records and markers of an acquisition whose own times have ended, the entry of the
event queue, the records of the trace; a queue with no partial burst is unchanged. -/
def Obligations.EventQueueFillsTheRing : Prop :=
  ((∀ (s : State) (bad : Bool), Readable s evqPg →
     (s.flag evqPg F.EVQ_CTL_MODE = true → Does (.evqPop bad) s (s.answer 0)) ∧
     (s.flag evqPg F.EVQ_CTL_MODE = false → s.evq.q = [] →
       Does (.evqPop bad) s (({ s with evq := { s.evq with hold := [] } } : State).answer 0)) ∧
     (∀ ws slot i, s.flag evqPg F.EVQ_CTL_MODE = false → evNext s.evq.q = some i → s.evq.q[i]? = some (ws, slot) →
       let b : State := { s with evq := { s.evq with q := s.evq.q.eraseIdx i, ends := s.evq.ends.eraseIdx i } }
       let a := fun (h : List W32) (u : State) =>
         ((({ u with evq := { u.evq with hold := h } } : State).evqSync.ackSlot slot).evqRoom).answer (h.getD 0 0)
       (bad = false → Does (.evqPop bad) s (a ws b)) ∧
       (bad = true → Does (.evqPop bad) s (a (ws.set 0 (ws.getD 0 0 ||| 0x8000))
         (((b.put evqPg F.EVQ_STS_POISON true).parityErr evqPg 1).rise evqPg X.EVQ_EVQ_POISON))))) ∧
   (∀ (s : State) (bad : BitVec 2),
     (s.evq.q.length < 2 → Does (.evqRingWrite bad) s s) ∧
     (2 ≤ s.evq.q.length → Does (.evqRingWrite bad) s
       ((s.evRingOne (bad.getLsbD 0)).evRingOne (bad.getLsbD 1)))) ∧
   (∀ (s : State) (ws : List W32) (o : Option Nat) (i : Nat),
     let n := 64 * s.get evqPg F.EVQ_RING_SIZE_SIZE64
     let wp := s.get evqPg F.EVQ_RING_WP_WP
     let base := s.get evqPg F.EVQ_RING_BASE_LO_ADDR * 64 + s.get evqPg F.EVQ_RING_BASE_HI_ADDR * 2 ^ 32
     s.flag evqPg F.EVQ_CTL_MODE = true → n ≠ 0 → (wp + 1) % n ≠ s.get evqPg F.EVQ_RING_RP_RP % n → s.pci.linkUp = true →
     s.pci.d3 = false → evNext s.evq.q = some i → s.evq.q[i]? = some (ws, o) →
     s.evRingOne false = ((((({ s with evq := { s.evq with
       q := s.evq.q.eraseIdx i, ends := s.evq.ends.eraseIdx i, ring := s.evq.ring ++ [o] } } : State).emit
       (.hostWr (base + 32 * wp) ws)).set evqPg F.EVQ_RING_WP_WP ((wp + 1) % n)).msi (evClass ws)).evqSync).evqRoom)) ∧
  (∀ s : State,
     (4 ≤ s.sch.trace.length → Does .traceWrite s (s.traceDrain 4)) ∧ (s.sch.trace.length < 4 → Does .traceWrite s s) ∧
     (∀ bad, s.sch.trace.length % 4 ≠ 0 → Does (.lingerExpiry .trace bad) s
       ((s.upToMono s.sch.traceEnd).traceDrain s.sch.trace.length)) ∧
     (∀ bad, s.sch.trace.length % 4 = 0 → Does (.lingerExpiry .trace bad) s s) ∧
     (∀ bad, s.evq.q.length = 1 → s.evRingOpen = true → Does (.lingerExpiry .evq bad) s
       ((s.upToMono (s.evq.ends.getD 0 0)).evRingOne (bad.testBit 0))) ∧
     (∀ bad, s.evq.q.length ≠ 1 ∨ s.evRingOpen = false → Does (.lingerExpiry .evq bad) s s) ∧
     (∀ (c : Chan) (bad : Nat),
       let u := s.gateRelease c.val
       let n := (u.awlOf c.val).q.length
       (n % 16 = 0 → Does (.lingerExpiry (.stream c) bad) s u) ∧
       (n % 16 ≠ 0 → Does (.lingerExpiry (.stream c) bad) s
         (((u.upToMono (u.awlOf c.val).linger).streamPoison c.val bad).streamDrain c.val n))) ∧
     (∀ (e : Eye) (bad : Nat),
       ((s.eyeOf e.val).flogQ.length = 1 → Does (.lingerExpiry (.flog e) bad) s
         ((s.upToMono (s.eyeOf e.val).flogLinger).flogDrain e.val 1 bad)) ∧
       ((s.eyeOf e.val).flogQ.length ≠ 1 → Does (.lingerExpiry (.flog e) bad) s s)) ∧
     (∀ (q : Quad) (bad : Nat),
       let d := s.trgOf q.val
       let bads := ((List.range 64).filter bad.testBit).map (fun i => (i / 16, i % 16))
       let recs := s.acqBytes q.val % 64 ≠ 0
       let marks := d.marks.length % 4 ≠ 0
       let go := fun (end_ : Nat) =>
         let u := s.upToMono end_
         u.acqDrain q.val (if recs ∧ (u.trgOf q.val).linger ≤ u.mono then (u.trgOf q.val).q.length else 0)
           (if marks ∧ (u.trgOf q.val).mlinger ≤ u.mono then (u.trgOf q.val).marks.length else 0) bads
       (¬ recs → ¬ marks → Does (.lingerExpiry (.acq q) bad) s s) ∧
       (recs → ¬ marks → Does (.lingerExpiry (.acq q) bad) s (go d.linger)) ∧
       (¬ recs → marks → Does (.lingerExpiry (.acq q) bad) s (go d.mlinger)) ∧
       (recs → marks → Does (.lingerExpiry (.acq q) bad) s (go (min d.linger d.mlinger)))) ∧
     (s.sch.trace = [] → s.traceDrain 4 = { s with sch := { s.sch with trace := [] } }))

/-- R326, R328, R331 to R333: a slot of a crossbar. The accesses of its stack that can be addressed become ready; where
the stack does not serve (its pages are not both enabled, or it is in self-refresh) nothing else happens; otherwise the
accesses that the slot grants enter the queues as far as they have room, the grant is kept for preemption, every ready
port counts its wait or starts again, and a grant to a forced port raises WAIT_FORCED. A port whose wait reaches its
limit is forced. R324, R333: entry `k` of the queues ages into its next urgency at its time. At urgency 2 of a port above
PRE_RANK the grants of its pseudo-channel that may be dropped are; at urgency 3 the miss is counted and QOS_MISS raised. -/
def Obligations.CrossbarSlotsGrantAndAge : Prop :=
  ((∀ (s : State) (x : Fin 2) (req : List MemReq),
     let rs := (req.map (fun r => (⟨r.port.val, r.addr.toNat / 32 * 32, r.wr, r.load, r.log, 0⟩ : MemAcc))).filter
       (fun a => hbmStack a.addr == x.val && !s.aliased a.addr)
     let d := s.xbrOf x.val
     let u := s.setXbr x.val { d with ready := d.ready ++ rs, last := if rs.isEmpty then d.last else s.mono }
     (s.memServes x.val = false → Does (.slot x req) s u) ∧
     (s.memServes x.val = true →
       let g := u.slotPick x.val
       let w := u.xbrOf x.val
       let r := u.enqueue x.val w.grants g.1 w.queue []
       let ports := (r.2.map (·.port)).eraseDups
       let a := u.setXbr x.val { w with
         queue := r.1, grants := w.grants + b2n (!r.2.isEmpty), ready := r.2.foldl List.erase w.ready,
         kept := w.kept ++ ports.map (fun p => (w.grants, p, r.2.filter (fun a => a.port == p))) }
       let b := (List.range 48).foldl (fun s p => s.countWait x.val ports p) a
       (g.2 = true ∧ r.2 ≠ [] → Does (.slot x req) s (b.rise (xbrPg x.val) X.XBR_WAIT_FORCED)) ∧
       (g.2 = false ∨ r.2 = [] → Does (.slot x req) s b))) ∧
   (∀ (s : State) (x : Fin 2) (p : Fin 48),
     let d := s.xbrOf x.val
     let l := s.get (xbrPg x.val) (F.XBR_WAIT_LIMIT_LIMIT.off (4 * p.val))
     let due := l ≠ 0 ∧ l ≤ waitOf d p.val ∧ p.val ∉ d.forced
     (due → Does (.waitForced x p) s (s.setXbr x.val { d with forced := d.forced ++ [p.val] })) ∧
     (¬ due → Does (.waitForced x p) s s))) ∧
  (∀ (s : State) (x : Fin 2) (k : Nat),
     let d := s.xbrOf x.val
     (d.queue[k]? = none → Does (.urgencyRise x k) s s) ∧
     (∀ y, d.queue[k]? = some y →
       let u := (s.upToMono ((y.adm + urgAge y.tgt (y.urg + 1)) * 4096)).setXbr x.val
         { d with queue := d.queue.set k { y with urg := y.urg + 1 } }
       (3 ≤ y.urg → Does (.urgencyRise x k) s s) ∧
       (y.urg = 0 → Does (.urgencyRise x k) s u) ∧
       (y.urg = 1 → u.rank x.val y.a.port ≤ u.get (xbrPg x.val) F.XBR_CTL_PRE_RANK → Does (.urgencyRise x k) s u) ∧
       (y.urg = 1 → u.get (xbrPg x.val) F.XBR_CTL_PRE_RANK < u.rank x.val y.a.port → Does (.urgencyRise x k) s
         (((((u.xbrOf x.val).queue.filter (fun z => hbmPch z.a.addr == hbmPch y.a.addr && u.droppable x.val z)).map
           (fun z => (z.grant, z.a.port))).eraseDups).foldl (fun s z => s.dropGrant x.val z.1 z.2) u)) ∧
       (y.urg = 2 → Does (.urgencyRise x k) s
         (((u.set (memPg x.val) F.MEM_QOS_MISS_PORT y.a.port).bump (memPg x.val) F.MEM_QOS_MISS_COUNT 1).rise (memPg x.val)
           X.MEM_QOS_MISS))))

/-- R315, R322, R324: of the accesses of a pseudo-channel whose bank is free, one of the highest urgency, a row hit
before a miss, the oldest among equals, is issued (the bank of a repair in progress is not free): it leaves the queue, a read joins the reads issued at the address
chosen, its row is open, and an activate whose draw hits is due for a neighbour refresh. Where none can be issued,
or the stack does not serve, nothing changes. R315, R318: the data of an issued read returns and the read leaves. Sound data and data under the
poison pattern change nothing else; one error is corrected and counted; an uncorrectable copy of a mirrored access
is written back from its other copy, and an access with no sound copy is marked, its address shown and ECC_UNCORR
raised. -/
def Obligations.HbmAccessesIssueAndReturn : Prop :=
  (∀ (s : State) (x : Fin 2) (pch : Fin 32) (busy : BitVec 16) (draw : Bool), s.memServes x.val = true →
     let d := s.xbrOf x.val
     let off := match d.repair with
       | some j =>
         let w := s.rd (memPg x.val) (0x180 + 4 * j)
         if fget w 19 15 = pch.val then setBit busy.toNat (fget w 23 20) else busy.toNat
       | none => busy.toNat
     let cand := fun (k : Nat) (y : QAcc) (a : Nat) =>
       d.queue[k]? = some y ∧ hbmPch y.a.addr = pch.val ∧ s.issueAddr x.val off y = some a
     let hit := fun (a : Nat) => tabGet 0 d.rows (16 * hbmPch a + hbmBank a) = hbmRow a + 1
     let score := fun (y : QAcc) (a : Nat) => 2 * y.urg + (if hit a then 1 else 0)
     ((∀ k y a, ¬ cand k y a) → Does (.hbmAccessIssue x pch busy draw) s s) ∧
     (∀ k y a, cand k y a → (∀ k' y' a', cand k' y' a' → score y' a' ≤ score y a ∧ (score y' a' = score y a → k ≤ k')) →
       let q := d.queue.eraseIdx k
       let b := 16 * pch.val + hbmBank a
       Does (.hbmAccessIssue x pch busy draw) s (s.setXbr x.val { d with
         queue := q, kept := d.kept.filter (fun z => q.any (fun w => w.grant == z.1 && w.a.port == z.2.1)),
         issued := if y.a.wr then d.issued else d.issued ++ [{ y with phys := some a }],
         rows := tabPut 0 d.rows b (hbmRow a + 1),
         nbr := if ¬ hit a ∧ draw = true then d.nbr ++ [(b, hbmRow a)] else d.nbr }))) ∧
  (∀ (s : State) (x : Fin 2) (pch : Fin 32) (busy : BitVec 16) (draw : Bool), s.memServes x.val = false →
     Does (.hbmAccessIssue x pch busy draw) s s) ∧
  (∀ (s : State) (x : Fin 2) (k : Nat) (e0 e1 : Fin 3),
     ((s.xbrOf x.val).issued[k]? = none → Does (.hbmReadReturn x k e0 e1) s s) ∧
     (∀ y, (s.xbrOf x.val).issued[k]? = some y →
       let a := y.phys.getD y.a.addr
       let u := s.setXbr x.val { s.xbrOf x.val with issued := (s.xbrOf x.val).issued.eraseIdx k }
       (a / 32 ∈ s.hbm.poison → Does (.hbmReadReturn x k e0 e1) s u) ∧
       (a / 32 ∉ s.hbm.poison → a / 32 ∉ s.hbm.bad → e0.val = 0 → Does (.hbmReadReturn x k e0 e1) s u) ∧
       (a / 32 ∉ s.hbm.poison → a / 32 ∉ s.hbm.bad → e0.val = 1 → Does (.hbmReadReturn x k e0 e1) s (u.eccCorr x.val a)) ∧
       (a / 32 ∉ s.hbm.poison → a / 32 ∈ s.hbm.bad ∨ e0.val = 2 → Does (.hbmReadReturn x k e0 e1) s
         ((u.copyRead x.val a e0.val).1.readOther x.val a y.a.addr e1.val))))

/-- R319 to R322, R335: refresh, self-refresh, neighbour refresh, repair and loss of a stack. Refreshes, self-refresh and
repair need a stack that serves, and a stack that is held (its page not enabled, or the device in heel) stays in
self-refresh. A repaired row takes the data of its sound copy where it is mirrored, and its other accesses keep their
errors. How far a refresh that starts lowers the debt the manual leaves open: the debt left is a free value, at most the
debt before (log entry 8). -/
def Obligations.StacksRefreshSleepAndRepair : Prop :=
  (∀ (s : State) (x : Fin 2) (pch : Fin 32) (b : Fin 16),
    let d := s.xbrOf x.val
    let k := 16 * pch.val + b.val
    let n := tabGet 0 d.debt k
    let busy := ∃ y ∈ d.queue, hbmPch y.a.addr = pch.val ∧ (∃ a, y.phys = some a ∧ hbmBank a = b.val) ∧ 1 ≤ y.urg
    let f := Config.freeValue s.free
    (s.memServes x.val = false → Does (.refresh x pch b) s s) ∧
    (s.memServes x.val = true → ¬ busy → Does (.refresh x pch b) s (({ s with free := s.free + 1 } : State).setXbr x.val
      { d with debt := tabPut 0 d.debt k (f % (n + 1)), rows := tabPut 0 d.rows k 0 })) ∧
    (s.memServes x.val = true → busy →
      let u := s.set (memPg x.val) F.MEM_REF_STS_DEBT_MAX (max (n + 1) (s.get (memPg x.val) F.MEM_REF_STS_DEBT_MAX))
      (n < 7 → Does (.refresh x pch b) s (u.setXbr x.val { d with debt := tabPut 0 d.debt k (n + 1) })) ∧
      (7 ≤ n → Does (.refresh x pch b) s
        (((({ u with free := s.free + 1 } : State).setXbr x.val
          { d with debt := tabPut 0 d.debt k (f % 9), rows := tabPut 0 d.rows k 0 }).bump (memPg x.val) F.MEM_REF_STS_FORCED
            1).rise (memPg x.val) X.MEM_REF_FORCED)))) ∧
  (∀ (s : State) (x : Fin 2),
    let d := s.xbrOf x.val
    let p := memPg x.val
    (d.nbr = [] → Does (.nbrRefresh x) s s) ∧
    (∀ b row r, d.nbr = (b, row) :: r →
      let q := s.physRow x.val row
      Does (.nbrRefresh x) s ((s.setXbr x.val { d with nbr := r, rows := tabPut 0 d.rows b 0 }).bump p F.MEM_NBR_CNT_COUNT
        ((if q = 0 then 0 else 1) + (if q = 32767 then 0 else 1)))) ∧
    (let idle := s.flag p F.MEM_REF_CTL_SR_EN = true ∧ s.memServes x.val = true ∧ s.groups = [] ∧
       (∀ e, e < 16 → s.get (pg T.tdc e) F.TDC_CTL_STREAM = 0) ∧ (∀ q, q < 4 → s.trgRuns q = false) ∧ d.ready = [] ∧
       d.queue = [] ∧ d.issued = []
     (idle → Does (.srEntry x) s
       ((s.upToMono (d.last + s.get p F.MEM_REF_CTL_SR_IDLE * 64 * 4096)).set p F.MEM_STS_SR_STATE 2)) ∧
     (¬ idle → Does (.srEntry x) s s)) ∧
    (let held := s.enabled p = false ∨ s.flag fltPg F.FLT_STS_DEV_HEEL = true
     (s.get p F.MEM_STS_SR_STATE = 0 ∨ held → Does (.srExit x) s s) ∧
     (s.get p F.MEM_STS_SR_STATE ≠ 0 → ¬ held → Does (.srExit x) s
       ((s.setXbr x.val { d with last := s.mono }).set p F.MEM_STS_SR_STATE 0))) ∧
    Does (.stackFail x) s ((s.setXbr x.val { d with dead := true }).rise p X.MEM_STACK_FAIL) ∧
    Does (.stackResponseReturn x) s (s.setXbr x.val { d with dead := false })) ∧
  (∀ (s : State) (x : Fin 2),
    let d := s.xbrOf x.val
    let p := memPg x.val
    let c := (List.range 16).find? (fun j => fget (s.rd p (0x180 + 4 * j)) 25 24 == 2)
    let may := s.memServes x.val = true ∧ s.flag p F.MEM_REPAIR_EN = true ∧ s.groups = [] ∧ d.repair = none ∧
      ∀ t, d.repairT = some t → t + 6400000 * 1024 ≤ s.mono
    (∀ j, c = some j → may → Does (.repairStart x) s (s.setXbr x.val { d with repair := some j, repairT := some s.mono })) ∧
    (c = none ∨ ¬ may → Does (.repairStart x) s s) ∧
    (d.repair = none → Does (.repairDone x) s s) ∧
    (∀ j, d.repair = some j →
      let key := fget (s.rd p (0x180 + 4 * j)) 23 0
      let u := ((s.setXbr x.val { d with repair := none }).put p (F.MEM_REPAIR_LOG_DONE.off (4 * j)) true).repairRow x.val key
      (256 ≤ (u.flash.rlist.filter (fun r => r.1 == x.val)).length → Does (.repairDone x) s
        ((u.put glbPg F.GLB_BIST_MISC_RLIST_FULL true).rise glbPg X.GLB_RLIST_FULL)) ∧
      ((u.flash.rlist.filter (fun r => r.1 == x.val)).length < 256 → Does (.repairDone x) s
        { u with flash := { u.flash with rlist := u.flash.rlist ++ [(x.val, key)] } })) ∧
    (∀ key b, let o := (32 * b) ^^^ 2 ^ 19
      s.hbm.bad.filter (fun b => hbmStack (32 * b) == x.val && rowKey (32 * b) == key) = [b] →
      (s.mirrorBase ≤ 32 * b → 32 * b < s.mirrorBase + 2 * s.mirrorSize → o / 32 ∉ s.hbm.bad →
        s.repairRow x.val key = s.copyBack (32 * b) o) ∧
      (o / 32 ∈ s.hbm.bad ∨ 32 * b < s.mirrorBase → s.repairRow x.val key = s)))
/-- R340, R341, R343, R318: BAR2. While it is served (stage 3, both HBM pages enabled, no device heel) a read returns
the words of HBM from the aperture on, poisoned where one of them is, and reports addresses in the half that cannot
be addressed; a write stores its enabled bytes access by access, and a poisoned one sets POISON_RX first. Otherwise
a read returns zeros marked poisoned and a write is dropped. In D3hot, and at stage 0, a read completes with UR and a
write is dropped. APT_BASE above 112 is refused. -/
def Obligations.HostApertureReachesHbm : Prop :=
  ∀ (s : State) (o : W32) (n : Nat) (bs : List (Option Byte)) (ep : Bool) (v : W32),
    (s.offLink = true → Does (.bar2Read o n) s (s.emit .ur) ∧ Does (.bar2Write o bs ep) s s ∧ Does (.aptBaseWrite v) s s) ∧
    (s.offLink = false →
      let a := s.get pciPg F.PCI_APT_BASE_BASE * 2 ^ 28 + o.toNat / 4 * 4
      let w := if ep then s.poisonRx else s
      (s.bar2On = false → Does (.bar2Read o n) s (s.emit (.cpl (List.replicate n 0) true))) ∧
      (s.bar2On = true → Does (.bar2Read o n) s
        (((List.range n).foldl (fun (t : State) i => t.hbmTouch (a + 4 * i)) s).emit
          (.cpl ((List.range n).map (fun i => s.hbmWord (a + 4 * i))) (decide (∃ i < n, s.rdPoison (a + 4 * i) = true))))) ∧
      (w.bar2On = false → Does (.bar2Write o bs ep) s w) ∧
      (w.bar2On = true →
        let b := w.bar2Addr o.toNat
        let xs := (bs.zipIdx).filterMap (fun x => x.1.map (fun y => (b + x.2, y)))
        Does (.bar2Write o bs ep) s ((List.range (bs.length / 32 + 2)).foldl (fun s i =>
          s.bar2Access (32 * (b / 32 + i)) (xs.filter (fun x => x.1 / 32 == b / 32 + i)) ep) w)) ∧
      Does (.aptBaseWrite v) s (s.writeReg pciPg 0x10C v (decide (112 < fget v 6 0))))

/-- R337, R338, R346, R370, R407: configuration requests and the states of the link. While PERST_N or RESET_N is low
there is no answer and the link does not train. Before stage 1 a request is
answered with CRS; later a read answers the dword and a write changes its writable bits. The link comes up at its
speed and width and pending MSI-X messages leave; it goes down with speed and width 0 and LINK_DOWN; D3hot is
entered and left with PSTATE 2 and 0. The configuration space's layout is the model's (log entry 99). -/
def Obligations.EndpointAnswersAndChangesState : Prop :=
  (∀ (s : State) (i : Fin 1024) (w : Option W32) (sp : Fin 6) (n : Fin 17), s.pci.perstLow = true ∨ s.boot.held = true →
    Does (.pcieConfigRequest i w) s s ∧ Does (.pcieLinkUp sp n) s s) ∧
  (∀ (s : State) (i : Fin 1024) (w : Option W32), s.pci.perstLow = false → s.boot.held = false → s.stage = 0 → Does (.pcieConfigRequest i w) s (s.emit .crs)) ∧
  (∀ (s : State) (i : Fin 1024) (v : W32), s.pci.perstLow = false → s.boot.held = false → s.stage ≠ 0 →
    Does (.pcieConfigRequest i none) s (s.emit (.cpl [s.cfgRead i.val] false)) ∧
    Does (.pcieConfigRequest i (some v)) s (({ s with pci := { s.pci with
      cfg := tabPut 0 s.pci.cfg i.val ((tabGet 0 s.pci.cfg i.val &&& ~~~cfgMask i.val) ||| (v &&& cfgMask i.val)) } } : State).emit
        (.cpl [] false))) ∧
  (∀ (s : State) (sp : Fin 6) (w : Fin 17), s.pci.perstLow = false → s.boot.held = false →
    let u := ((s.set pciPg F.PCI_LINK_SPEED sp.val).set pciPg F.PCI_LINK_WIDTH w.val).set pciPg F.PCI_LINK_PSTATE 0
    Does (.pcieLinkUp sp w) s ({ u with pci := { u.pci with linkUp := true } } : State).msiFlush) ∧
  (∀ s : State,
    let u := (s.set pciPg F.PCI_LINK_SPEED 0).set pciPg F.PCI_LINK_WIDTH 0
    Does .pcieLinkDown s (({ u with pci := { u.pci with linkUp := false } } : State).rise pciPg X.PCI_LINK_DOWN) ∧
    Does .d3hotEntry s { s.set pciPg F.PCI_LINK_PSTATE 2 with pci := { s.pci with d3 := true } } ∧
    (s.pci.d3 = false → Does .d0Return s s) ∧
    (s.pci.d3 = true → Does .d0Return s
      ({ s.set pciPg F.PCI_LINK_PSTATE 0 with pci := { s.pci with d3 := false } } : State).msiFlush)) ∧
  (∀ (s : State) (v : Nat),
    (s.pci.linkUp = true → s.pci.d3 = false → s.msixMasked v = false → s.msi v = s.emit (.msix v)) ∧
    (s.pci.linkUp = false ∨ s.pci.d3 = true ∨ s.msixMasked v = true → v ∉ s.pci.pba →
      s.msi v = { s with pci := { s.pci with pba := s.pci.pba ++ [v] } }))

/-- R362 to R365: a frame received at a port that works. A bad FCS and, with FEC on, an uncorrectable codeword are
counted; without a descriptor, or with host memory out of reach (log entry 172), the frame is dropped with RX_DROP;
otherwise its bytes go to the buffer, cut to its size, and the descriptor is written back with length, stamp and the words
of a PTP event message. A port that does not work receives nothing. R344, R346, R362, R365, R370: the frame of the
descriptor at HEAD is sent, padded to 60 bytes, with one-step insertion into a PTP message where the descriptor asks for
it, and its descriptor written back; a read of it that was poisoned completes the descriptor with ERR and sends nothing. A
completion timeout sets CPL_TMO and completes the descriptor with ERR. The link events set and clear LINK and BLOCK_LOCK.
Without a descriptor that the device owns, with the port off, or with host memory out of reach, nothing is sent. -/
def Obligations.EthernetFramesMoveThroughRings : Prop :=
  (∀ (s : State) (e : Fin 2) (f : List Byte) (st : Fin 3) (d : List W32),
     let p := ethPg e.val
     let has := s.pci.linkUp = true ∧ s.pci.d3 = false ∧ s.get p F.ETH_RXR_HEAD_HEAD ≠ s.get p F.ETH_RXR_TAIL_TAIL ∧ (d.getD 2 0).getLsbD 14 = true
     (s.ethOn e.val = false → Does (.ethRxFrame e f st d) s s) ∧
     (s.ethOn e.val = true →
       (st.val = 2 → s.flag p F.ETH_CTL_FEC = true → Does (.ethRxFrame e f st d) s
         (((s.put p F.ETH_STS_FEC_UNCORR true).rise p X.ETH_FEC_UNCORR).bump p F.ETH_CNT_FCS 1)) ∧
       (st.val = 1 ∨ (st.val = 2 ∧ s.flag p F.ETH_CTL_FEC = false) → Does (.ethRxFrame e f st d) s (s.bump p F.ETH_CNT_FCS 1)) ∧
       (st.val = 0 → ¬ has → Does (.ethRxFrame e f st d) s
         (((s.put p F.ETH_STS_RX_DROP true).bump p F.ETH_CNT_DROP 1).rise p X.ETH_RX_DROP)) ∧
       (st.val = 0 → has →
         let size := fget (d.getD 2 0) 13 0
         let u := s.emit (.hostBytes ((d.getD 0 0).toNat + (d.getD 1 0).toNat * 2 ^ 32) (f.take size))
         Does (.ethRxFrame e f st d) s (u.ethBack e.val false
           ([d.getD 0 0, d.getD 1 0, doneWord f.length true false (ptpEvent f).isSome (decide (size < f.length)), ptpWord f] ++
             stampWds (u.ethStamp e.val false)))))) ∧
  ((∀ (s : State) (e : Fin 2) (f : List Byte) (d : List W32) (bad : Bool),
     let p := ethPg e.val
     let w := d.getD 2 0
     let may := s.ethOn e.val = true ∧ s.pci.linkUp = true ∧ s.pci.d3 = false ∧ s.get p F.ETH_TXR_HEAD_HEAD ≠ s.get p F.ETH_TXR_TAIL_TAIL ∧ w.getLsbD 14 = true
     let g := f.take (fget w 13 0)
     let c := s.ethStamp e.val true
     (¬ may → Does (.ethTxFrame e f d bad) s s) ∧
     (may → bad = true → Does (.ethTxFrame e f d bad) s (s.ethErr e.val true d)) ∧
     (may → bad = false → ∀ o : Option (List Byte),
       o = (if w.getLsbD 16 then (ptpEvent g).bind (fun x => oneStep g x c (s.flag p F.ETH_CTL_UDP4_ZERO)) else none) →
       Does (.ethTxFrame e f d bad) s
         ((s.emit (.eth e.val (o.getD g ++ List.replicate (60 - g.length) 0))).ethBack e.val true
           ([d.getD 0 0, d.getD 1 0,
             doneWord (fget w 13 0) (w.getLsbD 15) (w.getLsbD 16) (ptpEvent g).isSome (w.getLsbD 16 && o.isNone), ptpWord g] ++
             (if w.getLsbD 15 then stampWds c else (List.range 4).map (fun i => d.getD (i + 4) 0)))))) ∧
   (∀ (s : State) (e : Fin 2) (tx : Bool) (d : List W32),
     let u := (s.put pciPg F.PCI_STS_CPL_TMO true).rise pciPg X.PCI_CPL_TMO
     (u.ethHas e.val tx = true → Does (.cplTmo e tx d) s (u.ethErr e.val tx d)) ∧
     (u.ethHas e.val tx = false → Does (.cplTmo e tx d) s u)) ∧
   (∀ (s : State) (e : Fin 2),
     Does (.ethLinkUp e) s ((s.put (ethPg e.val) F.ETH_STS_LINK true).put (ethPg e.val) F.ETH_STS_BLOCK_LOCK true) ∧
     Does (.ethLinkDown e) s (((s.put (ethPg e.val) F.ETH_STS_LINK false).put (ethPg e.val) F.ETH_STS_BLOCK_LOCK false).rise
       (ethPg e.val) X.ETH_LINK_DOWN)))

/-- R350, R351, R353, R356: packets on a Welt link that is up. A packet in SEQ order is accepted: the next SEQ is
expected, its acknowledgement is due (sent at once for 32), and its message or capture data take effect; another
packet is discarded like a bad one, counted and answered with one NAK. An acknowledgement frees the packets up to
its SEQ and a NAK has the rest sent again; so does the replay timer, until REPLAY_MAX replays without progress send
the link to training; the acknowledgement timer acknowledges what is due. A link that is not up
takes no packet and sends none again. -/
def Obligations.WeltPacketsAreAcceptedInOrder : Prop :=
  (∀ (s : State) (n : Fin 4) (seq : BitVec 12) (code : Byte) (src : BitVec 6) (mid : Byte) (ttl : BitVec 6) (typ : BitVec 4)
     (data : BitVec 48) (ofs : BitVec 30) (len : Fin 16) (ws : List W32) (pm : BitVec 4),
    let d := s.wltOf n.val
    let bad := let u := s.bump (wltPg n.val) F.WLT_CNT_CRC_ERRS 1
      if d.nak = true then u else (u.setWlt n.val { d with due := 0, nak := true }).emit (.welt n.val 3 [(d.rxSeq + 4095) % 4096, 1])
    let u := s.setWlt n.val { d with rxSeq := (seq.toNat + 1) % 4096, due := d.due + 1, nak := false }
    let ok := fun (t : State) => if 32 ≤ (t.wltOf n.val).due then t.wltAck n.val false else t
    let lace := 2 ≤ typ.toNat ∧ typ.toNat ≤ 4
    let t := fun (c : Instr) (x : State) => Does c s x
    let cT := Instr.weltTrigMsg n seq code src mid ttl
    let cL := Instr.weltLaceMsg n seq typ data src mid ttl
    let cC := Instr.weltCapturePacket n seq ofs len ws pm
    (s.wltUp n.val = false → t cT s ∧ t cL s ∧ t cC s ∧ t (.weltBadPacket n) s) ∧
    (s.wltUp n.val = true → t (.weltBadPacket n) bad) ∧
    (s.wltUp n.val = true → seq.toNat ≠ d.rxSeq → t cT bad ∧ t cL bad ∧ t cC bad) ∧
    (s.wltUp n.val = true → ¬ lace → t cL bad) ∧
    (s.wltUp n.val = true → seq.toNat = d.rxSeq →
      t cT (ok (u.weltMsg ⟨false, 0, code.toNat, src.toNat, mid.toNat, ttl.toNat, some n.val⟩)) ∧
      (lace → t cL (ok (u.weltMsg ⟨true, typ.toNat, data.toNat, src.toNat, mid.toNat, ttl.toNat, some n.val⟩))) ∧
      t cC (ok (u.capsRx n.val ofs.toNat ((ws ++ List.replicate 32 0).take (2 * (len.val + 1))) pm.toNat)))) ∧
  (∀ (s : State) (n : Fin 4) (seq : BitVec 12),
    let d := s.wltOf n.val
    let ack := fun (i : Nat) =>
      ((s.setWlt n.val { d with replay := d.replay.drop (i + 1), tries := 0 }).capsPump n.val 57).capsDone n.val
    (d.replay.findIdx? (fun x => x.seq == seq.toNat) = none →
      Does (.weltAck n seq) s s ∧ Does (.weltNak n seq) s (s.wltReplay n.val)) ∧
    (∀ i, d.replay.findIdx? (fun x => x.seq == seq.toNat) = some i →
      Does (.weltAck n seq) s (ack i) ∧ Does (.weltNak n seq) s ((ack i).wltReplay n.val)) ∧
    (d.replay = [] ∨ s.wltUp n.val = false → Does (.weltReplayTimeout n) s s) ∧
    (d.replay ≠ [] → s.wltUp n.val = true → max 1 (s.get (wltPg n.val) F.WLT_CTL_REPLAY_MAX) ≤ d.tries →
      Does (.weltReplayTimeout n) s ((s.setWlt n.val { d with tries := 0 }).setWltState n.val 1)) ∧
    (d.replay ≠ [] → s.wltUp n.val = true → d.tries < max 1 (s.get (wltPg n.val) F.WLT_CTL_REPLAY_MAX) →
      let u := (s.setWlt n.val { d with tries := d.tries + 1 }).bump (wltPg n.val) F.WLT_CNT_REPLAYS 1
      Does (.weltReplayTimeout n) s (d.replay.foldl (fun s x => s.emit (.welt n.val x.kind (x.seq :: x.ws))) u)) ∧
    (d.due = 0 → Does (.weltAckTimer n) s s) ∧
    (d.due ≠ 0 → Does (.weltAckTimer n) s
      ((s.setWlt n.val { d with due := 0, nak := false }).emit (.welt n.val 3 [(d.rxSeq + 4095) % 4096, 0]))))

/-- R352, R353: GO of WLT_MSG queues a trigger message of this device. The oldest message waiting leaves, no earlier
than 256 UI after the one before it, on every link that is up and forwards but the one it came from, and waits while
one of their replay buffers has no room; a link that sleeps keeps it and wakes. LAST of a source empties 20 ms after
its last message. R356, R360: GO of a capture send with a length and none in progress begins it, BUSY, waking the
link, and its packets leave; otherwise it does nothing. GO of an eye scan begins it with BUSY where none runs; its
end gives the count of errors. -/
def Obligations.WeltMessagesAndCapturesAreSent : Prop :=
  ((∀ (s : State) (v : W32), Reaches s (wltPg 0) →
     let u := s.writeReg (wltPg 0) 0x144 (v ||| 0x80000000) false
     Does (.wltMsgGo v) s (u.weltOwn false 0 (u.get (wltPg 0) F.WLT_MSG_CODE))) ∧
   (∀ s : State, s.wq = [] → Does .weltMsgSend s s) ∧
   (∀ (s : State) (m : WMsg) (r : List WMsg), s.wq = m :: r →
     let outs := (List.range 4).filter (fun n => s.wltUp n && s.flag (wltPg n) F.WLT_CTL_FWD && m.link != some n)
     let k := if m.lace then 1 else 0
     let full := ∃ n ∈ outs, 1024 < replayBlocks (s.wltOf n) + 1 + k
     let u := s.upToMono s.wquiet
     (full → Does .weltMsgSend s s) ∧
     (¬ full → Does .weltMsgSend s (outs.foldl (fun s n =>
       if s.wltAwake n then s.wltSend n k (msgFields m) (1 + k)
       else (s.setWlt n { s.wltOf n with waitq := (s.wltOf n).waitq ++ [(k, msgFields m)] }).wltWake n)
       { u with wq := r, wquiet := u.mono + 256 * 1024 }))) ∧
   (∀ (s : State) (src : BitVec 6),
     ((∀ x ∈ s.wlast, x.1 ≠ src.toNat) → Does (.weltLastExpiry src) s s) ∧
     (∀ x, s.wlast.find? (fun x => x.1 == src.toNat) = some x → Does (.weltLastExpiry src) s
       { s.upToMono (x.2.2 + 131072000000) with wlast := s.wlast.filter (fun x => x.1 != src.toNat) }))) ∧
  (∀ (s : State) (n : Fin 4) (v : W32),
     let p := wltPg n.val
     (Reaches s p →
       let u := s.writeReg p 0x12C (v ||| 0x10000000) false
       let len := u.get p F.WLT_CAPS_CTL_LEN
       let src := u.get p F.WLT_CAPS_SRC_LO_ADDR + u.get p F.WLT_CAPS_SRC_HI_ADDR * 2 ^ 27
       (u.flag p F.WLT_CAPS_CTL_BUSY = true ∨ len = 0 → Does (.capsGo n v) s u) ∧
       (u.flag p F.WLT_CAPS_CTL_BUSY = false → len ≠ 0 → Does (.capsGo n v) s
         ((((u.setWlt n.val { u.wltOf n.val with caps := some (src, u.get p F.WLT_CAPS_OFS_OFS, len) }).put p
           F.WLT_CAPS_CTL_BUSY true).wltWake n.val).capsPump n.val 57))) ∧
     (Reaches s p →
       let d := fget (v ||| 0x200000) 20 15
       let u := s.writeReg p 0x130 (v ||| 0x200000) (decide (d < 20) || decide (40 < d))
       (u.flag p F.WLT_ESCAN_CTL_BUSY = true → Does (.escanGo n v) s u) ∧
       (u.flag p F.WLT_ESCAN_CTL_BUSY = false → Does (.escanGo n v) s
         ((u.setWlt n.val { u.wltOf n.val with scan := some (u.get p F.WLT_ESCAN_CTL_LANE) }).put p F.WLT_ESCAN_CTL_BUSY
           true))) ∧
     (∀ errs, (s.wltOf n.val).scan = none → Does (.escanDone n errs) s s) ∧
     (∀ errs l, (s.wltOf n.val).scan = some l → Does (.escanDone n errs) s
       (((s.setWlt n.val { s.wltOf n.val with scan := none }).put p F.WLT_ESCAN_CTL_BUSY false).set p F.WLT_ESCAN_ERR_ERRORS
         (min errs (2 ^ 32 - 1)))))

/-- R349, R351, R357, R358: the states of a link. Training of an enabled link that is down or trains ends with the lanes
enabled that locked and had not failed, and the far device's number; a lane that did not lock has failed, which raises
LANE_FAIL (log entry 176). Without a lane it trains again, otherwise it is UP or DEGRADED and
sends its packets again. The failure of the last lane takes it down; RATE and WELT_LINK_DOWN raise their faults;
RETRAIN of an enabled link sends it to training. R359: sleep. An awake link with nothing to send enters sleep (SLEEP
1) or half sleep (SLEEP 2, or 1 with COMPAT); the far transmitter's half sleep is shown as RX_HALF whatever is to be
sent. WAKE begins the exit of a link that sleeps; at its end the link is up again and sends what waited. -/
def Obligations.WeltLinksTrainAndSleep : Prop :=
  ((∀ (s : State) (n : Fin 4) (good : BitVec 4) (far : BitVec 6),
     let p := wltPg n.val
     let en := s.get p F.WLT_CTL_LANE_EN
     let failed := s.get p F.WLT_STS_FAILED
     let lanes := (List.range 4).foldl (fun m i => if (en.testBit i && good.toNat.testBit i && !failed.testBit i) = true then setBit m i else m) 0
     let out := failed ||| (en ^^^ lanes)
     let on := s.enabled p = true ∧ s.wltState n.val ≤ 1
     let v := ((s.set p F.WLT_STS_LANES lanes).set p F.WLT_STS_FAILED out).set p F.WLT_STS_FAR_DEV far.toNat
     let u := if out = failed then v else v.rise p X.WLT_LANE_FAIL
     let w := u.setWltState n.val (u.wltRest n.val)
     let x := w.setWlt n.val { w.wltOf n.val with tries := 0 }
     (¬ on → Does (.weltTrainDone n good far) s s) ∧
     (on → lanes = 0 → Does (.weltTrainDone n good far) s (s.setWltState n.val 1)) ∧
     (on → lanes ≠ 0 → Does (.weltTrainDone n good far) s
       ((((w.wltOf n.val).replay.foldl (fun s y => s.emit (.welt n.val y.kind (y.seq :: y.ws))) x)).capsPump n.val 57))) ∧
   (∀ (s : State) (n lane : Fin 4),
     let p := wltPg n.val
     let lanes := s.get p F.WLT_STS_LANES
     let a := ((s.set p F.WLT_STS_LANES (clearBit lanes lane.val)).set p F.WLT_STS_FAILED
       (setBit (s.get p F.WLT_STS_FAILED) lane.val)).rise p X.WLT_LANE_FAIL
     let b := if (a.wltOf n.val).scan = some lane.val then a.scanAbort n.val else a
     (lanes.testBit lane.val = false → Does (.laneFail n lane) s s) ∧
     (lanes.testBit lane.val = true → b.get p F.WLT_STS_LANES = 0 → Does (.laneFail n lane) s (b.wltDown n.val)) ∧
     (lanes.testBit lane.val = true → b.get p F.WLT_STS_LANES ≠ 0 →
       let c := if b.wltState n.val = 2 then b.setWltState n.val 3 else b
       ((c.wltOf n.val).replay = [] → Does (.laneFail n lane) s c) ∧
       ((c.wltOf n.val).replay ≠ [] → Does (.laneFail n lane) s
         ((c.wltOf n.val).replay.foldl (fun s x => s.emit (.welt n.val x.kind (x.seq :: x.ws)))
           (c.bump p F.WLT_CNT_REPLAYS 1))))) ∧
   (∀ (s : State) (n : Fin 4),
     let p := wltPg n.val
     Does (.rate n) s ((s.put p F.WLT_STS_RATE true).rise p X.WLT_RATE) ∧
     Does (.weltLinkDown n) s ((((((s.setWltState n.val 0).set p F.WLT_STS_LANES 0).put p F.WLT_STS_TX_HALF false).put p
       F.WLT_STS_RX_HALF false).wltDrop n.val).rise p X.WLT_LINK_DOWN)) ∧
   (∀ (s : State) (n : Fin 4) (v : W32), Reaches s (wltPg n.val) →
     let p := wltPg n.val
     let u := s.writeReg p 0x100 (v ||| 0x20000) (fget (v ||| 0x20000) 7 6 == 3)
     let r := ((((u.set p F.WLT_STS_LANES 0).set p F.WLT_STS_FAILED 0).put p F.WLT_STS_TX_HALF false).put p F.WLT_STS_RX_HALF
       false).setWltState n.val 1
     let t := if u.enabled p then r else u
     Does (.retrain n v) s (if v.getLsbD 16 then t.wltWake n.val else t))) ∧
  (∀ (s : State) (n : Fin 4),
     let p := wltPg n.val
     let mode := if s.get p F.WLT_CTL_SLEEP = 1 ∧ s.flag p F.WLT_CTL_COMPAT = true then 2 else s.get p F.WLT_CTL_SLEEP
     (s.wltAwake n.val = false → ∀ far, Does (.weltSleepEntry n far) s s) ∧
     (s.wltAwake n.val = true → Does (.weltSleepEntry n true) s (s.put p F.WLT_STS_RX_HALF true)) ∧
     (s.wltAwake n.val = true → s.wltIdle n.val = false → Does (.weltSleepEntry n false) s s) ∧
     (s.wltAwake n.val = true → s.wltIdle n.val = true →
       (mode = 1 → Does (.weltSleepEntry n false) s (s.setWltState n.val 5)) ∧
       (mode = 2 → Does (.weltSleepEntry n false) s (s.put p F.WLT_STS_TX_HALF true)) ∧
       (mode ≠ 1 → mode ≠ 2 → Does (.weltSleepEntry n false) s s)) ∧
     (∀ v : W32, Reaches s p →
       let u := s.writeReg p 0x100 (v ||| 0x10000) (fget (v ||| 0x10000) 7 6 == 3)
       let r := ((((u.set p F.WLT_STS_LANES 0).set p F.WLT_STS_FAILED 0).put p F.WLT_STS_TX_HALF false).put p
         F.WLT_STS_RX_HALF false).setWltState n.val 1
       let t := if v.getLsbD 17 = true ∧ u.enabled p = true then r else u
       (t.wltState n.val = 5 → Does (.wake n v) s (t.setWltState n.val 6)) ∧ (t.wltState n.val ≠ 5 → Does (.wake n v) s t)) ∧
     Does (.weltWakeDone n true) s (s.put p F.WLT_STS_RX_HALF false) ∧
     (let a := s.put p F.WLT_STS_TX_HALF false
      let b := if a.wltState n.val = 6 ∨ a.wltState n.val = 5 then a.setWltState n.val (a.wltRest n.val) else a
      let c := b.setWlt n.val { b.wltOf n.val with waitq := [] }
      Does (.weltWakeDone n false) s
        (((b.wltOf n.val).waitq.foldl (fun s m => s.wltSend n.val m.1 m.2 (1 + m.1)) c).capsPump n.val 57)))

/-- R366 to R368: precision time. Reading PTP_TIME0 captures the clock, its seconds and fraction and the timeline, and
returns the nanoseconds. INVALIDATE clears VALID; SET sets an invalid clock to PTP_SET and makes it valid, and steps
a valid one by the difference; STEP steps it by its register. A step within THR is applied; a larger one is refused
with STEP_REFUSED, an MSI-X message, and slewed. The remaining slew reaches 0 at its time. R369: the pulse
generators. STOP ends a generator and cuts its pulse short, before a GO of the same write; GO starts it at its first
due time that is far enough ahead (640 UI, or 100 ns on the clock), and sets PULSE_LATE where times were skipped. At
a due time a running generator gives its pulse and goes on to the next, until its count is done. -/
def Obligations.PrecisionTimeAdjustsAndPulses : Prop :=
  ((∀ s : State, Readable s ptpPg →
     let c := s.ptpNow
     ∃ t : State, Does .ptpCapture s (t.answer (t.rd ptpPg 0x110)) ∧
       t.get ptpPg F.PTP_TIME0_NS = c / 2 ^ 32 % 1000000000 ∧ t.get ptpPg F.PTP_TIME1_SEC = c / ptpSec % 2 ^ 32 ∧
       t.get ptpPg F.PTP_TIME_FR_FRAC = c % 2 ^ 32 ∧ t.get ptpPg F.PTP_MAP_TL_LO_UI = s.ui / 4 * 4 % 2 ^ 32 ∧
       t = { s with regs := t.regs }) ∧
   (∀ (s : State) (v : W32), Reaches s ptpPg →
     let run := fun (w : W32) =>
       let u := (writeAt s ptpPg 0x148 w false).1
       let a := if w.getLsbD 2 then u.put ptpPg F.PTP_STS_VALID false else u
       if w.getLsbD 0 then
         (if a.flag ptpPg F.PTP_STS_VALID then a.ptpStep ((a.ptpSetValue : Int) - a.ptpNow)
          else
            let b := a.ptpSync
            (({ b with ptp := { b.ptp with base := b.ptpSetValue, rem := 0 } } : State).ptpShow).put ptpPg F.PTP_STS_VALID true)
       else if w.getLsbD 1 then a.ptpStep (toSigned 64 (a.get64 ptpPg F.PTP_STEP_LO_STEP F.PTP_STEP_HI_STEP) * 2 ^ 32)
       else a
     Does (.set v) s (run (v ||| 1)) ∧ Does (.step v) s (run (v ||| 2)) ∧ Does (.invalidate v) s (run (v ||| 4))) ∧
   (∀ (s : State) (x : Int),
     let u := s.ptpSync
     (x.natAbs ≤ u.get ptpPg F.PTP_ADJ_CTL_THR * 2 ^ 32 →
       s.ptpStep x = { u with ptp := { u.ptp with base := (((u.ptp.base : Int) + x) % (ptpMod : Int)).toNat } }) ∧
     (u.get ptpPg F.PTP_ADJ_CTL_THR * 2 ^ 32 < x.natAbs →
       s.ptpStep x = ((((({ u with ptp := { u.ptp with rem := u.ptp.rem + x } } : State).ptpShow).put ptpPg
         F.PTP_STS_STEP_REFUSED true).rise ptpPg X.PTP_STEP_REFUSED).msi 8))) ∧
   (∀ s : State, (s.ptp.rem = 0 → Does .ptpSlewDone s s) ∧
     (s.ptp.rem ≠ 0 → Does .ptpSlewDone s ((s.upTo ((s.ptp.at_ + s.slewCycles) * 4096)).ptpSync)))) ∧
  ((∀ (s : State) (g : Fin 4) (v : W32), Reaches s ptpPg →
     let put := fun (w : W32) => (writeAt s ptpPg (0x200 + 0x20 * g.val) w false).1
     let stop := fun (u : State) => ((u.setPg g.val {}).put ptpPg (F.PTP_PG_CTL_RUN.off (0x20 * g.val)) false).evtRelease
       (u.pgOf g.val).pin 4 g.val
     (v.getLsbD 1 = false → Does (.pgGo g v) s ((put (v ||| 1)).pgGo g.val)) ∧
     (v.getLsbD 1 = true → Does (.pgGo g v) s ((stop (put (v ||| 1))).pgGo g.val)) ∧
     (v.getLsbD 0 = false → Does (.pgStop g v) s (stop (put (v ||| 2)))) ∧
     (v.getLsbD 0 = true → Does (.pgStop g v) s ((stop (put (v ||| 2))).pgGo g.val))) ∧
   (∀ (s : State) (g : Nat), g < 4 →
     let f := fun (x : Fld) => s.get ptpPg (x.off (0x20 * g))
     let w := fun (i : Nat) => (s.rd ptpPg (0x204 + 0x20 * g + 4 * i)).toNat
     let clock := f F.PTP_PG_CTL_SRC = 1
     let start := if clock then (w 1 + w 2 % 2 ^ 16 * 2 ^ 32) * ptpSec + w 0 % 2 ^ 30 * 2 ^ 32 else w 0 + w 1 * 2 ^ 32
     let period := if clock then max 10 (f F.PTP_PG_PERIOD_PERIOD) * 2 ^ 32 else max 64 (f F.PTP_PG_PERIOD_PERIOD)
     let least := if clock then s.ptpAt (s.ptpCycles + 160) else s.ui + 640
     let count := f F.PTP_PG_COUNT_COUNT
     let t := s.pgGo g
     let d := t.pgOf g
     d.clock = decide clock ∧ d.period = period ∧ d.pin = f F.PTP_PG_CTL_PIN ∧ d.width = f F.PTP_PG_CTL_WIDTH ∧
       t.flag ptpPg (F.PTP_PG_CTL_RUN.off (0x20 * g)) = d.run ∧
       (least ≤ start → d.run = true ∧ d.next = start ∧ d.left = (if count = 0 then none else some count) ∧
         t.flag ptpPg F.PTP_STS_PULSE_LATE = s.flag ptpPg F.PTP_STS_PULSE_LATE) ∧
       (start < least → t.flag ptpPg F.PTP_STS_PULSE_LATE = true ∧
         ∃ n, d.next = start + n * period ∧ least ≤ d.next ∧ d.next < least + period ∧
           (count = 0 ∨ n < count → d.run = true ∧ d.left = (if count = 0 then none else some (count - n))) ∧
           (count ≠ 0 → count ≤ n → d.run = false))) ∧
   (∀ (s : State) (g : Fin 4),
     let d := s.pgOf g.val
     let u := if d.clock then s.upTo ((s.ptp.at_ + s.ptpReach (d.next - s.ptp.base)) * 4096)
       else s.upTo ((d.next + 3) / 4 * 4096)
     let more := d.left ≠ some 1 ∧ d.left ≠ some 0
     (d.run = false → Does (.pgPulse g) s s) ∧
     (d.run = true → Does (.pgPulse g) s
       (((u.evtPulse d.pin 4 g.val d.width 0).setPg g.val
         { d with run := decide more, next := d.next + d.period, left := d.left.map (· - 1) }).put ptpPg
           (F.PTP_PG_CTL_RUN.off (0x20 * g.val)) (decide more)))))

/-- R374, R376 to R379: targets and slew. From stage 3 on, a sample of an eyelet's sensor gives its new targets unless
HOLD is set; an invalid or failed sensor holds them with SENSOR_HOLD, and a reading outside the points of a channel
raises EXTRAP. An idle eyelet out of heel takes its targets at once. A slew period moves every correction outside
heel one STEP towards its target, or onto it, while the timeline counts. SETTLED shows whether all stand there. R372,
R383 to R385, R477: the image's window and its flash copies. A word written through the window enters the shadow image and
is refused during a copy and where it would change a locked page's image; a read gives the word of the image that LIVE
selects, and 0 beyond it; a single error of the word is corrected, and what an uncorrectable word reads as is a free value
(log entry 174). SAVE begins unless one is in progress, which is ignored with SAVE_ERR; its end writes COMMIT, and one that
fails leaves the slot without it and sets SAVE_ERR. LOAD copies the newest valid slot to the shadow image, or sets
LOAD_ERR. CLR clears the 64 linearity counts. -/
def Obligations.CalibrationTargetsSlewAndSave : Prop :=
  ((∀ (s : State) (e : Eye),
     let w := s.rd thmPg (0x140 + 4 * e.val)
     let bad := fget w 11 11 = 0 ∨ (s.rd thmPg 0x110).getLsbD e.val = true
     let t := fget w 10 0
     let out := ∃ k, k < 16 ∧ (((s.setBitAt calPg 0x110 (16 + e.val) false).calTargets e.val t).calOutside (16 * e.val + k) t) = true
     let v := (s.setBitAt calPg 0x110 (16 + e.val) false).calTargets e.val t
     (s.stage < 3 → Does (.calTargetUpdate e) s s) ∧
     (3 ≤ s.stage → s.flag calPg F.CAL_CTL_HOLD = true → Does (.calTargetUpdate e) s ((s.calTake e.val).calSync)) ∧
     (3 ≤ s.stage → s.flag calPg F.CAL_CTL_HOLD = false → bad → Does (.calTargetUpdate e) s
       ((((s.setBitAt calPg 0x110 (16 + e.val) true).rise calPg X.CAL_SENSOR_HOLD).calTake e.val).calSync)) ∧
     (3 ≤ s.stage → s.flag calPg F.CAL_CTL_HOLD = false → ¬ bad → out → Does (.calTargetUpdate e) s
       ((((v.setBitAt calPg 0x110 e.val true).rise calPg X.CAL_EXTRAP).calTake e.val).calSync)) ∧
     (3 ≤ s.stage → s.flag calPg F.CAL_CTL_HOLD = false → ¬ bad → ¬ out → Does (.calTargetUpdate e) s
       (((v.setBitAt calPg 0x110 e.val false).calTake e.val).calSync))) ∧
   (∀ s : State, s.tlOn = false → Does .slewPeriod s s) ∧
   (∀ s : State, s.tlOn = true → ∃ t, Does .slewPeriod s t ∧ t.now = (s.upTo ((s.ui / 64000 + 1) * 64000 * 1024)).now ∧ t.calT = s.calT ∧
     t.hbm = s.hbm ∧ t.flag calPg F.CAL_STS_SETTLED = decide (t.calF = t.calT) ∧
     ∀ k,
       let step : Int := (max 1 (s.get calPg F.CAL_SLEW_STEP) : Nat)
       let a := tabGet 0 s.calF k
       let g := tabGet 0 s.calT k
       (s.eyeHeel (calEye k) = true → tabGet 0 t.calF k = a) ∧
       (s.eyeHeel (calEye k) = false → a < g → tabGet 0 t.calF k = min g (a + step)) ∧
       (s.eyeHeel (calEye k) = false → g ≤ a → tabGet 0 t.calF k = max g (a - step)))) ∧
  ((∀ (s : State) (v : W32),
     let i := s.get calPg F.CAL_WIN_IDX_WORD
     let no := s.flag calPg F.CAL_STS_COPY_BUSY = true ∨ (s.locked calPg = true ∧ s.calShadow i ≠ v)
     (Reaches s calPg → no → Does (.calWinWrite v) s (s.refuse calPg 0x118).calInc) ∧
     (Reaches s calPg → ¬ no → i < 50176 → Does (.calWinWrite v) s (s.calShadowPut i v).calInc) ∧
     (Reaches s calPg → ¬ no → 50176 ≤ i → Does (.calWinWrite v) s s.calInc) ∧
     (Readable s calPg → 50176 ≤ i → Does .calWinRead s (s.calInc.answer 0)) ∧
     (Readable s calPg → i < 50176 →
       let live := s.flag calPg F.CAL_WIN_IDX_LIVE
       let x := if live then s.calWord i else s.calShadow i
       let err := s.eccOf (if live then 6 else 9) i
       (err = 0 → Does .calWinRead s (s.calInc.answer x)) ∧
       (err = 1 → Does .calWinRead s ((s.rise calPg X.CAL_RAM_CORR).calInc.answer x)) ∧
       (2 ≤ err → Does .calWinRead s (((({ s with free := s.free + 1 } : State).put calPg F.CAL_STS_RAM_UNCORR true).rise calPg
         X.CAL_RAM_UNCORR).calInc.answer (BitVec.ofNat 32 (Config.freeValue s.free)))))) ∧
   (∀ (s : State) (i : Nat) (v : W32), (s.calShadowPut i v).calShadow i = v ∧
     ∀ k, k ≠ i → (s.calShadowPut i v).calShadow k = s.calShadow k) ∧
   (∀ (s : State) (v : W32), Reaches s calPg →
     (s.flag calPg F.CAL_STS_SAVE_BUSY = true → v.getLsbD 1 = false → Does (.save v) s
       ((s.put calPg F.CAL_STS_SAVE_ERR true).rise calPg X.CAL_SAVE_ERR)) ∧
     (s.flag calPg F.CAL_STS_SAVE_BUSY = false → v.getLsbD 1 = false → ∃ t, Does (.save v) s t ∧
       t.flag calPg F.CAL_STS_SAVE_BUSY = true ∧ t.flash.save = some (if s.newestSlot = some 0 then 1 else 0) ∧
       t = { s with regs := t.regs, flash := t.flash } ∧
       ∀ a, a < slotAddr (if s.newestSlot = some 0 then 1 else 0) → t.flashWord a = s.flashWord a) ∧
     (s.flag calPg F.CAL_STS_SAVE_BUSY = true → v.getLsbD 0 = false → Does (.load v) s
       ((s.put calPg F.CAL_STS_SAVE_ERR true).rise calPg X.CAL_SAVE_ERR)) ∧
     (s.flag calPg F.CAL_STS_SAVE_BUSY = false → v.getLsbD 0 = false → s.newestSlot = none → Does (.load v) s
       ((s.put calPg F.CAL_STS_LOAD_ERR true).rise calPg X.CAL_LOAD_ERR)) ∧
     (∀ k, s.flag calPg F.CAL_STS_SAVE_BUSY = false → v.getLsbD 0 = false → s.newestSlot = some k → ∃ t, Does (.load v) s t ∧
       t.get calPg F.CAL_STS_COPY = k ∧ (∀ i, i < 50176 → t.calShadow i = s.flashWord (slotAddr k + i)) ∧
       t = { s with regs := t.regs, calS := t.calS, calSFac := t.calSFac, upset := t.upset }) ∧
     (∃ t, Does (.clr v) s t ∧ (∀ b, b < 64 → t.rd calPg (0x200 + 4 * b) = 0) ∧
       t = { s with regs := t.regs, held := t.held } ∧
       ∀ q a, a < 0x1000 → q ≠ calPg → t.rd q a = s.rd q a)) ∧
   (∀ s : State, (s.flash.save = none → ∀ ok, Does (.saveDone ok) s s) ∧
     (∀ k, s.flash.save = some k → ∃ t, Does (.saveDone true) s t ∧ t.flash.save = none ∧
       t.flag calPg F.CAL_STS_SAVE_BUSY = false ∧ t.flashWord (slotAddr k + 8) = ~~~(s.flashWord (slotAddr k + 1)) ∧
       (∀ a, a ≠ slotAddr k + 8 → t.flashWord a = s.flashWord a) ∧ t = { s with regs := t.regs, flash := t.flash }) ∧
     (∀ k, s.flash.save = some k → ∃ t, Does (.saveDone false) s t ∧ t.flash.save = none ∧
       t.flag calPg F.CAL_STS_SAVE_BUSY = false ∧ t.flag calPg F.CAL_STS_SAVE_ERR = true ∧
       (∀ a, a < slotAddr k + 1024 ∨ slotAddr k + 50176 ≤ a → t.flashWord a = s.flashWord a) ∧
       t = { s with regs := t.regs, flash := t.flash, flt := t.flt, free := t.free })))
/-- R428 to R432: a sample of a sensor, which saturates at 0 and at 2,047. A stack's reading is shown and compared with the
stacks' limits. A sample of a die sensor that is reported invalid, or jumps by more than 80 from the last, is invalid: the
third in a row puts the sensor out of service with SENSOR_BAD; a valid one is shown with its maximum and compared with the
limits. A reading at STOP begins an orderly stop of its scope; a scope in heel has nothing to stop, and the source of a
stop in progress is joined (log entry 119). R431 to R434: what follows a limit or a power loss. 10 µs after a TRIP the PLL
outputs are gated and the timeline stands; 99 µs after a STOP the groups of its scope that still run park; at PWR_FAIL
every group parks with status 35, tickets end with it, flash work is abandoned, KILL_N is asserted, the device enters
heel, and the queue is flushed; its end clears PWR_FAIL. Without a trip or a stop the first two change nothing. -/
def Obligations.ThermalLimitsAndPowerLossStopTheDevice : Prop :=
  ((∀ (s : State) (n : Fin 26) (raw : Int) (odd : Bool),
     let v := min raw.toNat 2047
     let jump := ∃ w, (s.sensorOf n.val).last = some w ∧ (w + 80 < v ∨ v + 80 < w)
     (24 ≤ n.val →
       let u := (s.set (memPg (n.val - 24)) F.MEM_TEMP_TEMP v).setSensor n.val { s.sensorOf n.val with last := some v }
       Does (.thmSample n raw odd) s (u.compare n.val v (u.get thmPg F.THM_HBM_LIMITS_WARN) (u.get thmPg F.THM_HBM_LIMITS_STOP)
         X.THM_HBM_WARN X.THM_HBM_STOP)) ∧
     (n.val < 24 → odd = true ∨ jump →
       let d := s.sensorOf n.val
       let u := (s.setSensor n.val { d with invalid := d.invalid + 1, valid := 0 }).put thmPg (tempF F.THM_TEMP_VALID n.val) false
       (d.invalid < 2 ∨ u.sensorBad n.val = true → Does (.thmSample n raw odd) s u) ∧
       (2 ≤ d.invalid → u.sensorBad n.val = false → Does (.thmSample n raw odd) s
         ((((u.setSensor n.val { u.sensorOf n.val with warn := false, stop := false }).setBitAt thmPg 0x110 n.val true).rise
           thmPg X.THM_SENSOR_BAD).hotSync))) ∧
     (n.val < 24 → odd = false → ¬ jump → Does (.thmSample n raw odd) s (s.validSample n.val v))) ∧
   (∀ (s : State) (n v warn stop w r : Nat),
     let d := s.sensorOf n
     let u := s.setSensor n { d with
       warn := decide (warn ≤ v) || (d.warn && decide (warn ≤ v + s.hyst)),
       stop := decide (stop ≤ v) || (d.stop && decide (stop ≤ v + s.hyst)) }
     let x := if warn ≤ v then u.rise thmPg w else u
     (n < 24 → 920 ≤ v → s.compare n v warn stop w r = x.trip) ∧
     (24 ≤ n ∨ v < 920 → v < stop → s.compare n v warn stop w r = x) ∧
     (24 ≤ n ∨ v < 920 → stop ≤ v →
       s.compare n v warn stop w r = (x.stopBegin (if x.flag thmPg F.THM_CTL_SCOPE = true ∧ n < 16 then n else 31) r).stopCheck)) ∧
   (∀ (s : State) (scope src : Nat),
     (s.inHeel scope = true → s.stopBegin scope src = (s.enterHeel scope thmPg src 0x34).rise thmPg src) ∧
     (∀ x, s.inHeel scope = false → s.thm.stops.find? (fun x => x.2.1 == scope || x.2.1 == 31) = some x →
       (x.1, x.2.1, src) ∉ s.thm.stops →
       s.stopBegin scope src = { s with thm := { s.thm with stops := s.thm.stops ++ [(x.1, x.2.1, src)] } }))) ∧
  (∀ s : State,
     (s.thm.tripT = none → Does .tripPllGate s s) ∧
     (∀ t, s.thm.tripT = some t → Does .tripPllGate s
       { s.upToMono (t + 64000 * 1024) with thm := { s.thm with gated := true }, tlOn := false }) ∧
     (s.thm.stops = [] → Does .thermalParkDeadline s s) ∧
     (∀ t scope src r, s.thm.stops = (t, scope, src) :: r →
       let u := s.upToMono (t + 633600 * 1024)
       Does .thermalParkDeadline s (((u.scopeGroups scope).foldl (fun s g => s.parkGroup g 0x34) u).stopCheck)) ∧
     (let a := (s.put fltPg F.FLT_STS_PWR_FAIL true).killAssert
      let b := (a.flashAbandon.put secPg F.SEC_STS_FLASH_BUSY false).put calPg F.CAL_STS_SAVE_BUSY false
      let c := b.groups.foldl (fun s g => s.parkGroup g 0x35) b
      let d := ((c.settleTickets 0x35).enterHeel 31 fltPg X.FLT_PWR_FAIL 0x35).rise fltPg X.FLT_PWR_FAIL
      exec .pwrFail s = .next d.settle.pwrFlush) ∧
     Does .pwrFailEnd s (s.put fltPg F.FLT_STS_PWR_FAIL false))

/-- R390, R393 to R395, R455, R475: the resets. A power-on reset and RESET_N hold the device in reset; the first sets
GLB_RST_CAUSE to its value at power-on and resets the TAP, the second adds its bit; both return every register to its
reset value (but SVN_MIN and the cause), memory to its reset contents and the timeline to 0, and keep the flash. RESET_N
ends the hold, with PERST_N low recorded, unless TEST_EN read high: then the die holds itself in power-on reset. CHIP with
its key is a chip reset, which also keeps the endpoint, the SMBus address and HBM with KEEP_HBM; the management watchdog
keeps HBM, and does nothing while the die is held. R393, R407, R475: PERST_N low resets the endpoint and the PCI page and
is noted in GLB_RST_CAUSE; pending MSI-X bits and the subsystem identity stay. At its release the link trains, unless
RESET_N is low. -/
def Obligations.ResetsReturnRegisters : Prop :=
  (∀ s : State,
     let clean := fun (t : State) => t.now = 0 ∧ t.tlOn = false ∧ t.groups = [] ∧ t.flt = {} ∧ t.evq = {} ∧ t.sch = {} ∧
       t.pending = s.pending ∧ t.out = s.out ∧
       ∀ p o, o < 0x1000 → ¬ (p = glbPg ∧ o = 0x10C) → ¬ (p = secPg ∧ o = 0x100) → ¬ (p = pciPg ∧ o = 0x104) →
         t.rd p o = resetWord p o
     (∀ test, ∃ t, Does (.powerOnReset test) s t ∧ clean t ∧ t.rd glbPg 0x10C = 3 ∧ t.boot.held = true ∧ t.boot.test = test ∧
       t.hbm = {} ∧ t.pci = { perstLow := s.pci.perstLow } ∧
       t.jtag = {} ∧ t.smb = none ∧ t.flash.words = s.flashAbandon.flash.words ∧
       t.get secPg F.SEC_STS_SVN_MIN = s.get secPg F.SEC_STS_SVN_MIN) ∧
     (∃ t, Does .resetNAssert s t ∧ clean t ∧ t.rd glbPg 0x10C = BitVec.ofNat 32 (setBit s.rstCause 1) ∧ t.boot.held = true ∧
       t.boot.test = s.boot.test ∧ t.hbm = {} ∧ t.pci = { perstLow := s.pci.perstLow } ∧ t.jtag = s.jtag ∧ t.smb = none ∧
       t.flash.words = s.flashAbandon.flash.words) ∧
     (s.boot.test = true → Does .resetNRelease s s) ∧
     (let u : State := { s with boot := { s.boot with held := false } }
      (s.boot.test = false → s.pci.perstLow = false → Does .resetNRelease s u) ∧
      (s.boot.test = false → s.pci.perstLow = true → Does .resetNRelease s (u.put glbPg F.GLB_RST_CAUSE_PERST true))) ∧
     (s.boot.held = true → Does .mgmtWdogExpiry s s) ∧
     (s.boot.held = false → ∃ t, Does .mgmtWdogExpiry s t ∧ clean t ∧ t.rd glbPg 0x10C = BitVec.ofNat 32 (setBit s.rstCause 4) ∧
       t.hbm = s.hbm ∧ t.pci = s.pci ∧ t.jtag = s.jtag ∧ t.smb = s.smb ∧ t.rd pciPg 0x104 = s.rd pciPg 0x104 ∧
       t.boot.wdog = true) ∧
     (∀ v : W32, Reaches s glbPg → s.boot.held = false →
       let u := s.writeReg glbPg 0x108 ((v &&& ~~~0xFF00) ||| 0xA501) false
       ∃ t, Does (.chip v) s t ∧ clean t ∧ t.rd glbPg 0x10C = BitVec.ofNat 32 (setBit u.rstCause 2) ∧ t.pci = s.pci ∧
         t.jtag = s.jtag ∧ t.smb = s.smb ∧ t.rd pciPg 0x104 = s.rd pciPg 0x104 ∧
         t.hbm = (if u.flag glbPg F.GLB_RST_KEEP_HBM then s.hbm else {}))) ∧
  ((∀ s : State,
     (∃ t, Does .perstAssert s t ∧ t.pci.perstLow = true ∧ t.pci.linkUp = false ∧ t.pci.d3 = false ∧ t.pci.msix = [] ∧
       t.pci.pba = s.pci.pba ∧ tabGet 0 t.pci.cfg 11 = tabGet 0 s.pci.cfg 11 ∧
       (∀ o, o < 0x1000 → t.rd pciPg o = resetWord pciPg o) ∧
       (∀ q o, o < 0x1000 → q ≠ pciPg → ¬ (q = glbPg ∧ o = 0x10C) → t.rd q o = s.rd q o) ∧
       (s.boot.held = false → t.flag glbPg F.GLB_RST_CAUSE_PERST = true) ∧
       t = { s with regs := t.regs, held := t.held, pci := t.pci }) ∧
     (∀ (sp : Fin 6) (w : Fin 17),
       let u : State := { s with pci := { s.pci with perstLow := false } }
       (s.pci.perstLow = true → s.boot.held = false → Does (.perstRelease sp w) s (u.pciUp sp.val w.val)) ∧
       (s.pci.perstLow = false ∨ s.boot.held = true → Does (.perstRelease sp w) s u))))

/-- R403, R404: a step of GLB_STAGE. From 0 and from 1 it needs the PLLs locked, from 1 on HOLD_AT above the stage and no
recovery; at 4, in reset, at the test port, in device heel and at a power failure nothing steps. A fall happens with
every sequencer STOPPED: from 4 the factory image becomes live, from 3 to 2 HBM is held; a write to GLB_STAGE takes
its fields. -/
def Obligations.StagesStepAndFall : Prop :=
  (∀ (s : State) (b : Boot),
    let still := s.boot.held = true ∨ s.jtag.taken = true ∨ s.flag fltPg F.FLT_STS_PWR_FAIL = true ∨ s.devHeel = true
    (still → Does (.stageStep b) s s) ∧
    (¬ still → s.stage = 0 → s.pllsLocked = true → ∃ t, Does (.stageStep b) s t ∧ t.stage = 1) ∧
    (¬ still → s.stage = 0 → s.pllsLocked = false → Does (.stageStep b) s s) ∧
    (s.stage ≠ 0 → s.holdAt ≤ s.stage ∨ s.flag secPg F.SEC_STS_RECOVERY = true → Does (.stageStep b) s s) ∧
    (¬ still → s.stage < s.holdAt → s.flag secPg F.SEC_STS_RECOVERY = false →
      (s.stage = 1 → s.pllsLocked = true → Does (.stageStep b) s (s.stage2 b)) ∧
      (s.stage = 1 → s.pllsLocked = false → Does (.stageStep b) s s) ∧ (s.stage = 2 → Does (.stageStep b) s (s.stage3 b)) ∧
      (s.stage = 3 → s.flag calPg F.CAL_STS_USER_OK = true → Does (.stageStep b) s (s.set glbPg F.GLB_STAGE_STAGE 4)) ∧
      (s.stage = 3 → s.flag calPg F.CAL_STS_USER_OK = false → s.newestSlot = none → Does (.stageStep b) s
        ((s.put calPg F.CAL_STS_LOAD_ERR true).rise calPg X.CAL_LOAD_ERR)))) ∧
  (∀ s : State,
    let m := max 2 s.holdAt
    (s.groups ≠ [] → Does .stageFall s s) ∧
    (s.groups = [] → s.stage < 3 ∨ s.stage ≤ m → s.stage ≤ 4 → Does .stageFall s s) ∧
    (s.groups = [] → s.stage = 3 → m = 2 → Does .stageFall s s.fall2) ∧
    (s.groups = [] → s.stage = 4 → m = 3 → Does .stageFall s (s.calFactory.setStage 3)) ∧
    (s.groups = [] → s.stage = 4 → m = 2 → Does .stageFall s (s.calFactory.setStage 3).fall2)) ∧
  (∀ (s : State) (v : W32), Reaches s glbPg → Does (.holdAtWrite v) s (s.writeReg glbPg 0x104 v false))

/-- R401, R424: flash commands. A command is refused with FLASH_ERR while another runs, and for an erase or a
program of words that may not be changed; otherwise it runs with FLASH_BUSY. At its end ERASE erases its 64 KiB
block, PROGRAM clears the bits that the data have at 0, READ gives the word, and the address steps on but for ERASE;
a failed one sets FLASH_ERR. A write of 1 to GLB_KILL releases KILL_N, and is refused in heel, at a power failure
and after a trip. -/
def Obligations.FlashCommandsAndKillRelease : Prop :=
  (∀ s : State, Reaches s secPg →
    let a := s.get secPg F.SEC_FLASH_ADDR_ADDR
    let err := (s.put secPg F.SEC_STS_FLASH_ERR true).rise secPg X.SEC_FLASH_ERR
    let run := fun (op : Nat) =>
      ({ s with flash := { s.flash with op := some (op, a, s.rd secPg 0x144) } } : State).put secPg F.SEC_STS_FLASH_BUSY true
    let busy := s.flash.op ≠ none
    (busy → Does .erase s err ∧ Does .program s err ∧ Does .flashRead s err) ∧
    (¬ busy → Does .flashRead s (run 3)) ∧
    (¬ busy → s.flashAllowed a = false → Does .erase s err ∧ Does .program s err) ∧
    (¬ busy → s.flashAllowed a = true → Does .erase s (run 1) ∧ Does .program s (run 2))) ∧
  (∀ s : State,
    (s.flash.op = none → ∀ ok, Does (.flashOpDone ok) s s) ∧
    (∀ op a d, s.flash.op = some (op, a, d) → ∃ t, Does (.flashOpDone true) s t ∧ t.flash.op = none ∧
      t.flag secPg F.SEC_STS_FLASH_BUSY = false ∧ t = { s with regs := t.regs, flash := t.flash } ∧
      (op = 1 → t.get secPg F.SEC_FLASH_ADDR_ADDR = s.get secPg F.SEC_FLASH_ADDR_ADDR ∧ ∀ x, t.flashWord x =
        if a / 16384 * 16384 ≤ x ∧ x < a / 16384 * 16384 + 16384 then 0xFFFFFFFF else s.flashWord x) ∧
      (op = 2 → ∀ x, t.flashWord x = if x = a then s.flashWord a &&& d else s.flashWord x) ∧
      (op = 3 → t.rd secPg 0x144 = s.flashWord a ∧ ∀ x, t.flashWord x = s.flashWord x) ∧
      (op ≠ 1 → t.get secPg F.SEC_FLASH_ADDR_ADDR = (a + 1) % 2 ^ 22)) ∧
    (∀ op a d, s.flash.op = some (op, a, d) → ∃ t, Does (.flashOpDone false) s t ∧ t.flash.op = none ∧
      t.flag secPg F.SEC_STS_FLASH_BUSY = false ∧ t.flag secPg F.SEC_STS_FLASH_ERR = true)) ∧
  (∀ s : State, Reaches s glbPg →
    let bad := s.devHeel || s.flag fltPg F.FLT_STS_PWR_FAIL || s.flag thmPg F.THM_STS_TRIP
    let u := s.writeReg glbPg 0x110 1 bad
    Does .releaseKill s (u.put glbPg F.GLB_KILL_ASSERTED (!u.flag glbPg F.GLB_KILL_RELEASE)))

/-- R468, R469: an instruction of the test port takes effect. IDCODE, BYPASS and test-logic-reset leave the balls with
the die; SAMPLE/PRELOAD also captures the balls, whose layout the manual leaves open (a free value, log entry 8).
EXTEST, EXTEST_PULSE, EXTEST_TRAIN, HIGHZ and CLAMP take the balls, after a chip reset that sets no cause unless
RESET_N is low or the balls are taken already. R470: SMBus. ARP assigns an address, or is answered with the UDID.
With an address and from stage 1 on each read is answered: the stage, FLT_STS, the highest valid temperature (a free
value where no sensor has one, log entry 8), the higher of the stacks' temperatures, and the status byte. Otherwise
nothing answers. -/
def Obligations.TestPortTakesAndSmbusAnswers : Prop :=
  (∀ s : State,
     let plain := fun (u : State) (c : BitVec 8) => ({ u with jtag := { u.jtag with ir := c, taken := false } } : State)
     let take := fun (c : BitVec 8) =>
       let u := if s.jtag.taken = true ∨ s.boot.held = true then s else s.chipReset (s.flag glbPg F.GLB_RST_KEEP_HBM) 6
       ({ u with jtag := { u.jtag with ir := c, taken := true } } : State)
     Does .idcode s (plain s 1) ∧ Does .bypass s (plain s 0xFF) ∧ Does .testLogicReset s (plain s 1) ∧
     Does .samplePreload s { plain s 2 with jtag := { (plain s 2).jtag with bsr := Config.freeValue s.free },
                                            free := s.free + 1 } ∧
     Does .extest s (take 3) ∧ Does .extestPulse s (take 4) ∧ Does .extestTrain s (take 5) ∧ Does .highz s (take 6) ∧
     Does .clamp s (take 7) ∧
     (s.jtag.taken = false → s.boot.held = false → (take 3).rd glbPg 0x10C = s.rd glbPg 0x10C ∧ (take 3).pci = s.pci)) ∧
  ((∀ (s : State) (a : BitVec 7), Does (.smbArp (some a)) s { s with smb := some a }) ∧
   (∀ s : State, Does (.smbArp none) s
     (s.emit (.smb ((List.range 16).map (fun i => Config.udid.toNat / 2 ^ (8 * (15 - i)) % 256))))) ∧
   (∀ s : State, s.smb = none ∨ s.stage = 0 → Does .smbReadStage s s ∧ Does .smbReadFltSts s s ∧ Does .smbReadTemp s s ∧
     Does .smbReadHbmTemp s s ∧ Does .smbReadStatus s s) ∧
   (∀ s : State, s.smb ≠ none → s.stage ≠ 0 →
     let word := fun (n : Nat) => s.emit (.smb [n % 256, n / 256 % 256])
     Does .smbReadStage s (s.emit (.smb [(s.rd glbPg 0x104).toNat % 256])) ∧
     Does .smbReadFltSts s (word (s.rd fltPg 0x100).toNat) ∧
     (s.validTemps = [] → Does .smbReadTemp s (({ s with free := s.free + 1 } : State).emit
       (.smb [Config.freeValue s.free % 256, Config.freeValue s.free / 256 % 256]))) ∧
     (∀ t r, s.validTemps = t :: r → Does .smbReadTemp s (word (r.foldl max t))) ∧
     Does .smbReadHbmTemp s (word (max (s.get (memPg 0) F.MEM_TEMP_TEMP) (s.get (memPg 1) F.MEM_TEMP_TEMP))) ∧
     Does .smbReadStatus s (s.emit (.smb [b2n (s.flag glbPg F.GLB_KILL_ASSERTED) +
       2 * b2n (!s.flt.faultN.isEmpty || s.devHeel) + 4 * b2n (s.flag thmPg F.THM_STS_HOT)]))))

/-- R257 to R260, R263: the lane operation of the word in hand, once the word's load and store are carried out and no
register that it reads has a load of an earlier word pending (otherwise the command changes nothing). Every lane, or with PMASK every
lane with F at 1, computes exactly, and the result is narrowed to 40 bits: clamped with SAT, wrapped without, and
OVF set where it left the range. The results wait for the end of the word; with BUPD the detector takes the greatest
magnitude. -/
def Obligations.LaneOperationsGiveResults : Prop :=
  (∀ (s : State) (q : Quad),
    let d := s.aneOf q.val
    let w := s.ucur q.val 3
    let sat := w.getLsbD 19
    let regA := fget w 13 10
    let regB := fget w 17 14
    let a := fun (l : Nat) => tabGet (0 : BitVec 40) d.v (16 * l + regA)
    let b := fun (l : Nat) => if w.getLsbD 18 then BitVec.ofInt 40 (toSigned 16 (fget (s.ucur q.val 4) 15 0))
      else tabGet (0 : BitVec 40) d.v (16 * l + regB)
    let acc := fun (l : Nat) => tabGet (0 : BitVec 40) d.acc l
    let prod := fun (l : Nat) => toSigned 16 (a l).toNat * toSigned 16 (b l).toNat
    let lanes := (List.range 16).filter (fun l => !w.getLsbD 21 || d.f.testBit l)
    let turn := fun (op : Nat) (readsA readsB : Bool) =>
      s.aneState q.val = 2 ∧ fget w 5 0 = op ∧ d.parts.testBit 2 = false ∧
        (fget (s.ucur q.val 1) 2 0 = 0 ∨ d.parts.testBit 0 = true) ∧
        (fget (s.ucur q.val 2) 2 0 = 0 ∨ d.parts.testBit 1 = true) ∧
        (readsA = true → ∀ x ∈ d.loads, x.age ≠ 0 → x.dst ≠ regA) ∧
        (readsB = true → w.getLsbD 18 = false → ∀ x ∈ d.loads, x.age ≠ 0 → x.dst ≠ regB)
    let after := fun (wv wacc : List (Nat × BitVec 40)) (wf : Option Nat) (ovf : Nat) =>
      s.setAne q.val { d with
        parts := setBit d.parts 2, wv := wv, wacc := wacc, wf := wf, ovf := d.ovf ||| ovf,
        wb := if w.getLsbD 22 then (wv ++ wacc).foldl (fun m x => max m x.2.toInt.natAbs) 0 else 0 }
    let over_ := fun (f : Nat → Int) => (lanes.filter (fun l => (narrow40 sat (f l)).2)).foldl setBit 0
    let dst := fun (f : Nat → Int) =>
      after (lanes.map (fun l => (16 * l + fget w 9 6, (narrow40 sat (f l)).1))) [] none (over_ f)
    let rows : List (Instr × Nat × Bool × Bool × (Nat → Int)) := [
      (.aneAdd q, 6, true, true, fun l => (a l).toInt + (b l).toInt),
      (.aneSub q, 7, true, true, fun l => (a l).toInt - (b l).toInt),
      (.aneAbs q, 8, true, false, fun l => ((a l).toInt.natAbs : Int)),
      (.aneMin q, 9, true, true, fun l => min (a l).toInt (b l).toInt),
      (.aneMax q, 10, true, true, fun l => max (a l).toInt (b l).toInt),
      (.aneAnd q, 11, true, true, fun l => (a l &&& b l).toInt),
      (.aneOr q, 12, true, true, fun l => (a l ||| b l).toInt),
      (.aneXor q, 13, true, true, fun l => (a l ^^^ b l).toInt),
      (.aneShl q, 14, true, true, fun l => (a l).toInt * 2 ^ ((b l).toNat % 64)),
      (.aneShr q, 15, true, true, fun l => (a l).toInt / 2 ^ ((b l).toNat % 64)),
      (.aneMov q, 16, false, true, fun l => (b l).toInt),
      (.aneGetb q, 20, false, false, fun _ => (s.get (anePg q.val) F.ANE_BEXP_SUM : Int)),
      (.aneLane q, 21, false, false, fun l => (l : Int))]
    let accRows : List (Instr × Nat × Bool × (Nat → Int)) := [
      (.aneMul q, 1, true, prod), (.aneMac q, 2, true, fun l => (acc l).toInt + prod l),
      (.aneMsu q, 3, true, fun l => (acc l).toInt - prod l), (.aneClra q, 4, false, fun _ => 0)]
    (∀ r ∈ rows, (turn r.2.1 r.2.2.1 r.2.2.2.1 → Does r.1 s (dst r.2.2.2.2)) ∧
      (¬ turn r.2.1 r.2.2.1 r.2.2.2.1 → Does r.1 s s)) ∧
    (∀ r ∈ accRows, (turn r.2.1 r.2.2.1 r.2.2.1 → Does r.1 s
        (after [] (lanes.map (fun l => (l, (narrow40 sat (r.2.2.2 l)).1))) none (over_ r.2.2.2))) ∧
      (¬ turn r.2.1 r.2.2.1 r.2.2.1 → Does r.1 s s)) ∧
    (∀ r ∈ [((.aneCgt q : Instr), 0x11, fun l => decide ((b l).toInt < (a l).toInt)), (.aneCeq q, 0x12, fun l => a l == b l)],
      (turn r.2.1 true true → Does r.1 s
        (after [] [] (some (lanes.foldl (fun m l => if r.2.2 l then setBit m l else clearBit m l) d.f)) 0)) ∧
      (¬ turn r.2.1 true true → Does r.1 s s)) ∧
    (turn 0 false false → Does (.aneNop q) s (after [] [] none 0)) ∧
    (¬ turn 0 false false → Does (.aneNop q) s s)) ∧
  (∀ i : Int, (-(2 ^ 39) ≤ i → i ≤ 2 ^ 39 - 1 → ∀ sat, narrow40 sat i = (BitVec.ofInt 40 i, false)) ∧
    (i < -(2 ^ 39) → narrow40 true i = (BitVec.ofInt 40 (-(2 ^ 39)), true)) ∧
    (2 ^ 39 - 1 < i → narrow40 true i = (BitVec.ofInt 40 (2 ^ 39 - 1), true)) ∧
    (i < -(2 ^ 39) ∨ 2 ^ 39 - 1 < i → narrow40 false i = (BitVec.ofInt 40 i, true)))

/-- R258, R260: RSUM gives ACC of lane 0, where that lane executes, the sum of all lanes and takes three more cycles. MOVA shifts ACC right,
rounding halves up with RND, and with SAT clamps to 16 bits. -/
def Obligations.LaneSumsAndMoves : Prop :=
  ∀ (s : State) (q : Quad),
    let d := s.aneOf q.val
    let w := s.ucur q.val 3
    let im := s.ucur q.val 4
    let acc := fun (l : Nat) => (tabGet (0 : BitVec 40) d.acc l).toInt
    let lanes := (List.range 16).filter (fun l => !w.getLsbD 21 || d.f.testBit l)
    let turn := fun (op : Nat) =>
      s.aneState q.val = 2 ∧ fget w 5 0 = op ∧ d.parts.testBit 2 = false ∧
        (fget (s.ucur q.val 1) 2 0 = 0 ∨ d.parts.testBit 0 = true) ∧
        (fget (s.ucur q.val 2) 2 0 = 0 ∨ d.parts.testBit 1 = true)
    let sh := if im.getLsbD 22 then s.get (anePg q.val) F.ANE_BEXP_BSH else fget im 21 16
    let moved := fun (l : Nat) => (acc l + (if w.getLsbD 20 ∧ 0 < sh then 2 ^ (sh - 1) else 0)) / 2 ^ sh
    let out16 := fun (l : Nat) => w.getLsbD 19 = true ∧ (moved l < -32768 ∨ 32767 < moved l)
    (turn 0x13 → ∃ t : State, Does (.aneRsum q) s t ∧
      (t.aneOf q.val).wv = [] ∧ (t.aneOf q.val).parts = setBit d.parts 2 ∧
      (t.aneOf q.val).wacc = (if 0 ∈ lanes then
        [(0, (narrow40 (w.getLsbD 19) (((List.range 16).map acc).foldl (· + ·) 0)).1)] else []) ∧
      t = { s with regs := t.regs, ane := t.ane } ∧
      t.get (anePg q.val) F.ANE_JOB_CYC_CYC = min (2 ^ 24 - 1) (s.get (anePg q.val) F.ANE_JOB_CYC_CYC + 3)) ∧
    (¬ turn 0x13 → Does (.aneRsum q) s s) ∧
    (turn 5 → ∃ t : State, Does (.aneMova q) s t ∧ t = { s with ane := t.ane } ∧
      (t.aneOf q.val).wacc = [] ∧ (t.aneOf q.val).parts = setBit d.parts 2 ∧
      (t.aneOf q.val).wv = lanes.map (fun l => (16 * l + fget w 9 6, BitVec.ofInt 40
        (if out16 l then (if moved l < 0 then -32768 else 32767) else moved l))) ∧
      ∀ l, l < 16 → ((t.aneOf q.val).ovf.testBit l = true ↔ d.ovf.testBit l = true ∨ (l ∈ lanes ∧ out16 l))) ∧
    (¬ turn 5 → Does (.aneMova q) s s)

/-- R261 to R266, R278 to R280: the sequencer operation of the word in hand, after the rest of the word and once
no load's data are due (otherwise the command changes nothing): the word's results become readable, then the engine goes on as the operation says. -/
def Obligations.MicrocodeOperationsGoOn : Prop :=
  (∀ (s : State) (q : Quad),
    let d := s.aneOf q.val
    let w := s.ucur q.val 0
    let turn := fun (opc : Nat) =>
      s.aneState q.val = 2 ∧ fget w 3 0 = opc ∧ (∀ x ∈ d.loads, x.age < 3) ∧ (fget (s.ucur q.val 1) 2 0 = 0 ∨ d.parts.testBit 0 = true) ∧
        (fget (s.ucur q.val 2) 2 0 = 0 ∨ d.parts.testBit 1 = true) ∧
        (fget (s.ucur q.val 3) 5 0 = 0 ∨ d.parts.testBit 2 = true)
    let e := s.wordEnd q.val
    let g := e.aneOf q.val
    let pc := s.get (anePg q.val) F.ANE_PC_PC
    let target := fget w 17 4
    let arg := fget w 29 18
    let jumpTo := fun (u : State) => u.aneGo q.val target (State.keepBlocks (u.aneOf q.val).stack target)
    let calls := (g.stack.filter isCall).length
    let blocks := (g.stack.filter (fun f => !isCall f)).length
    let count := if fget w 31 30 = 0 then arg else tabGet 0 g.k (fget w 31 30)
    let nested := ∀ a b n r, g.stack = .block a b n :: r → target ≤ b
    let kDown := e.setAne q.val { g with k := tabPut 0 g.k (arg % 16) (tabGet 0 g.k (arg % 16) - 1) }
    let holds := (arg % 16 = 4 ∧ g.f ≠ 0) ∨ (arg % 16 = 5 ∧ g.f = 0xFFFF) ∨ (arg % 16 = 6 ∧ g.ovf ≠ 0)
    let busy := arg % 4 ∈ d.xfers
    (turn 0 → Does (.aneNext q) s (e.aneNext q.val pc)) ∧
    (turn 1 → Does (.aneJump q) s (jumpTo e)) ∧
    (turn 2 → 4 ≤ blocks ∨ target < pc + 1 ∨ ¬ nested → Does (.aneBlock q) s (e.aneEnd q.val 1)) ∧
    (turn 2 → blocks < 4 → pc < target → nested → Does (.aneBlock q) s
      (e.aneGo q.val (pc + 1) (.block (pc + 1) target count :: g.stack))) ∧
    (turn 3 → arg % 16 < 4 → tabGet 0 g.k (arg % 16) ≠ 0 → Does (.aneBranch q) s (jumpTo kDown)) ∧
    (turn 3 → arg % 16 < 4 → tabGet 0 g.k (arg % 16) = 0 → Does (.aneBranch q) s (e.aneNext q.val pc)) ∧
    (turn 3 → holds → Does (.aneBranch q) s (jumpTo e)) ∧
    (turn 3 → arg % 16 = 4 ∨ arg % 16 = 5 ∨ arg % 16 = 6 → ¬ holds → Does (.aneBranch q) s (e.aneNext q.val pc)) ∧
    (turn 4 → calls < 4 → Does (.aneCall q) s (e.aneGo q.val target (.call (pc + 1) :: g.stack))) ∧
    (turn 4 → 4 ≤ calls → Does (.aneCall q) s (e.aneEnd q.val 1)) ∧
    (turn 5 → ∀ r st, g.stack = .call (r + 1) :: st → Does (.aneRet q) s ((e.setAne q.val { g with stack := st }).aneNext q.val r)) ∧
    (turn 5 → (∀ r st, g.stack ≠ .call r :: st) → Does (.aneRet q) s (e.aneEnd q.val 1)) ∧
    (turn 6 → ∃ t : State, Does (.aneBexp q) s (t.aneNext q.val pc) ∧ (t.aneOf q.val).bmax = d.wb ∧
      t.get (anePg q.val) F.ANE_BEXP_BSH % 64 = (bitLen 41 d.bmax - d.bits) % 64) ∧
    (turn 7 →
      let x := tabGet (0 : W32) s.spad (spadKey q.val (8 * target))
      let y := tabGet (0 : W32) s.spad (spadKey q.val (8 * target + 4))
      ∃ t : State, (18 < fget x 24 20 → Does (.aneLdp q) s (t.aneEnd q.val 1) ∧ (t.aneOf q.val).ptrs = g.ptrs) ∧
        (fget x 24 20 ≤ 18 → Does (.aneLdp q) s (t.aneNext q.val pc) ∧ tabGet {} (t.aneOf q.val).ptrs (arg % 8) =
          ⟨fget x 19 0, fget x 24 20, toSigned 16 (fget y 15 0), toSigned 16 (fget y 31 16), 0⟩) ∧ t.spad = s.spad) ∧
    (turn 8 → ∀ j slot, g.job = some (j, slot) → (arg % 4 < 3 ∧ xferWhen j (arg % 4) = 3 →
        Does (.aneXfer q) s ((e.setAne q.val { g with xfers := g.xfers ++ [arg % 4] }).aneNext q.val pc)) ∧
      (arg % 4 = 3 ∨ xferWhen j (arg % 4) ≠ 3 → Does (.aneXfer q) s (e.aneNext q.val pc))) ∧
    (turn 9 → ¬ busy → Does (.aneWait q) s (e.aneNext q.val pc)) ∧
    (turn 9 → busy → Does (.aneWait q) s
      ((s.setAne q.val { d with stall := d.stall + 1 }).bump (anePg q.val) F.ANE_JOB_CYC_CYC 1)) ∧
    (turn 10 → ∀ j slot, g.job = some (j, slot) →
      (g.xfers = [] ∧ xfersAt j 2 = [] → Does (.aneDone q) s (e.aneEnd q.val 0)) ∧
      (¬ (g.xfers = [] ∧ xfersAt j 2 = []) → Does (.aneDone q) s
        ((e.setAne q.val { g with xfers := g.xfers ++ xfersAt j 2 }).setAneState q.val 3))) ∧
    (turn 11 → Does (.aneSetk q) s ((e.setAne q.val { g with k := tabPut 0 g.k (arg % 4) target }).aneNext q.val pc)) ∧
    (∀ r ∈ [((.aneNext q : Instr), 0), (.aneJump q, 1), (.aneBlock q, 2), (.aneBranch q, 3), (.aneCall q, 4), (.aneRet q, 5),
      (.aneBexp q, 6), (.aneLdp q, 7), (.aneXfer q, 8), (.aneWait q, 9), (.aneDone q, 10), (.aneSetk q, 11)],
      ¬ turn r.2 → Does r.1 s s) ∧
    g.v = d.wv.foldl (fun m x => tabPut 0 m x.1 x.2) d.v ∧ g.acc = d.wacc.foldl (fun m x => tabPut 0 m x.1 x.2) d.acc ∧
    g.f = d.wf.getD d.f ∧ g.bmax = max d.bmax d.wb ∧ g.parts = 0) ∧
  (∀ (s : State) (q : Quad) (n : Nat), 64 ≤ n → n < 8192 → s.aneFetch q.val n true = s.aneEnd q.val 2) ∧
  (∀ (a b n pc : Nat) (r : List Frame),
    State.blockNext (.block a b (n + 1) :: r) b = (a, .block a b n :: r) ∧
    State.blockNext (.block a b 0 :: r) b = State.blockNext r b ∧
    (pc ≠ b → State.blockNext (.block a b n :: r) pc = (pc + 1, .block a b n :: r)))

/-- R263, R265, R273 to R275: the load and the store of the word in hand, each once (otherwise the command changes
nothing). A load reads each lane's word and its data wait to arrive, after its own word; they then stand in the register,
and a poisoned word sets PSN. A store writes the scratchpad lane by lane: a half or a word; the registers of the lanes that
add to one word are summed and added to it once. -/
def Obligations.LaneLoadsAndStores : Prop :=
  (∀ (s : State) (q : Quad) (n : Nat),
    let d := s.aneOf q.val
    let w := s.ucur q.val 1
    let turn := fun (op : Nat) => s.aneState q.val = 2 ∧ fget w 2 0 = op ∧ d.parts.testBit 0 = false
    let half := fun (v : W32) (x : Nat) => if x % 4 < 2 then fget v 15 0 else fget v 31 16
    let rows : List (Instr × Nat × Bool × Nat × (W32 → Nat → Int)) := [
      (.aneLd16 q n, 1, false, 2, fun v x => toSigned 16 (half v x)), (.aneLd32 q n, 2, false, 4, fun v _ => v.toInt),
      (.aneLdb32 q n, 3, true, 4, fun v _ => v.toInt), (.aneLdu16 q n, 4, false, 2, fun v x => (half v x : Int))]
    ∀ r ∈ rows,
      let at_ := fun (l : Nat) =>
        laneAddr (tabGet {} d.ptrs (fget w 5 3)) (w.getLsbD 10) (if r.2.2.1 then 0 else l) / r.2.2.2.1 * r.2.2.2.1
      (turn r.2.1 → ∃ t : State, Does r.1 s t ∧ t.spad = s.spad ∧ t.hbm = s.hbm ∧
        (t.aneOf q.val).parts = setBit d.parts 0 ∧ (t.aneOf q.val).winc = d.winc ++ [fget w 5 3] ∧
        (t.aneOf q.val).v = d.v ∧
        (t.aneOf q.val).loads = d.loads ++ [⟨fget w 9 6, ((List.range 16).map at_).map (fun x =>
          (BitVec.ofInt 40 (r.2.2.2.2 (tabGet 0 s.spad (spadKey q.val x)) x), s.spadBad (spadKey q.val x))), 0⟩]) ∧
      (¬ turn r.2.1 → Does r.1 s s)) ∧
  (∀ (s : State) (q : Quad) (n : Nat),
    let d := s.aneOf q.val
    (d.loads = [] → Does (.aneLoadData q n) s s) ∧
    (∀ x r, d.loads = x :: r → x.age = 0 → Does (.aneLoadData q n) s s) ∧
    (∀ x r, d.loads = x :: r → x.age ≠ 0 → Does (.aneLoadData q n) s ((s.setAne q.val { d with
      loads := r, v := (x.vals.zipIdx).foldl (fun m y => tabPut 0 m (16 * y.2 + x.dst) y.1.1) d.v, stall := d.stall + n,
      psn := (x.vals.zipIdx).foldl (fun m y => if y.1.2 then setBit m y.2 else m) d.psn }).bump
        (anePg q.val) F.ANE_JOB_CYC_CYC n))) ∧
  (∀ (s : State) (q : Quad) (n : Nat),
    let d := s.aneOf q.val
    let w := s.ucur q.val 2
    let turn := fun (op : Nat) => s.aneState q.val = 2 ∧ fget w 2 0 = op ∧ d.parts.testBit 1 = false ∧
      (fget (s.ucur q.val 1) 2 0 = 0 ∨ d.parts.testBit 0 = true) ∧ ∀ x ∈ d.loads, x.age ≠ 0 → x.dst ≠ fget w 9 6
    let lanes := (List.range 16).filter (fun l => !(s.ucur q.val 3).getLsbD 21 || d.f.testBit l)
    let at_ := fun (l : Nat) => laneAddr (tabGet {} d.ptrs (fget w 5 3)) (w.getLsbD 10) l
    let reg := fun (l : Nat) => tabGet (0 : BitVec 40) d.v (16 * l + fget w 9 6)
    let put := fun (new : W32 → Nat → W32) => lanes.foldl (fun (m : Tab W32) l =>
      tabPut 0 m (spadKey q.val (at_ l)) (new (tabGet 0 m (spadKey q.val (at_ l))) l)) s.spad
    let halves := put (fun v l =>
      if at_ l % 4 < 2 then (v &&& 0xFFFF0000) ||| ((reg l).setWidth 16).setWidth 32
      else (v &&& 0xFFFF) ||| (((reg l).setWidth 16).setWidth 32 <<< 16))
    let sums := ((lanes.map (fun l => at_ l / 4)).eraseDups).foldl (fun (m : Tab W32) x =>
      tabPut 0 m (spadKey q.val (4 * x)) (tabGet 0 m (spadKey q.val (4 * x)) +
        (lanes.filter (fun l => at_ l / 4 == x)).foldl (fun y l => y + (reg l).setWidth 32) 0)) s.spad
    let rows : List (Instr × Nat × Tab W32) := [
      (.aneSt16 q n, 1, halves), (.aneSt32 q n, 2, put (fun _ l => (reg l).setWidth 32)), (.aneSta q n, 3, sums)]
    ∀ r ∈ rows,
      (turn r.2.1 → ∃ t : State, Does r.1 s t ∧ t.spad = r.2.2 ∧ t.hbm = s.hbm ∧
        (t.aneOf q.val).parts = setBit d.parts 1 ∧ (t.aneOf q.val).winc = d.winc ++ [fget w 5 3] ∧
        (t.aneOf q.val).v = d.v) ∧
      (¬ turn r.2.1 → Does r.1 s s))

/-- R276, R279 to R281: jobs. Word 15 of ANE_JOBQ submits a descriptor, or sets JOBQ_OVF at eight. An enabled idle
engine takes the oldest: the descriptor stands in the scratchpad's first words, those found corrupted in the queue
poisoned and holding values nothing fixes (log entry 169), and the checks end it with their codes, or the WHEN 1 transfers
start, or the sequencer does; an engine that is offline ends it with its code and touches nothing. A transfer that
completes starts what waits for it. A job past its budget and an aborted one end with their codes. R283, R284: a march
starts on a held or offline engine with a test that exists, otherwise MARCH_ERR; the target is that of the GO. At its end
the target is left at 0, the result is shown, and the engine is held again, or offline while a target has failed. -/
def Obligations.AnalysisJobsStartAndEnd : Prop :=
  (∀ (s : State) (q : Quad),
     let p := anePg q.val
     let d := s.aneOf q.val
     let st := s.aneState q.val
     let budget := 256 * fget (s.jobWord q.val 12) 23 0
     (∀ v : W32, Reaches s p →
       let u := s.setAne q.val { d with win := tabPut 0 d.win 15 v }
       (8 ≤ d.jobq.length → Does (.aneJobqSubmit q v) s (u.put p F.ANE_STS_JOBQ_OVF true)) ∧
       (d.jobq.length < 8 → Does (.aneJobqSubmit q v) s
         (u.jobPut q.val ((List.range 16).map (fun j => tabGet 0 (u.aneOf q.val).win j)) none))) ∧
     (∀ bad, d.jobq = [] ∨ s.enabled p = false ∨ (st ≠ 6 ∧ (st ≠ 0 ∨ s.flag p F.ANE_CTL_HOLD = true)) → Does (.aneJobTake q bad) s s) ∧
     (∀ ws bad, s.jobBlur q.val ws 0 = (s, ws) ∧ (s.jobBlur q.val ws bad).2.length = ws.length ∧
       ∀ i, i < 16 → bad.getLsbD i = false → (s.jobBlur q.val ws bad).2.getD i 0 = ws.getD i 0) ∧
     (∀ ws slot r bad, d.jobq = (ws, slot) :: r → s.enabled p = true → st = 6 → ∃ t : State, t.spad = s.spad ∧ t.hbm = s.hbm ∧
       (t.aneOf q.val).job = some ((s.jobBlur q.val ws bad).2, slot) ∧ (t.aneOf q.val).jobq = r ∧
       Does (.aneJobTake q bad) s (t.aneEnd q.val 8)) ∧
     (∀ ws slot r bad, d.jobq = (ws, slot) :: r → s.enabled p = true → st = 0 → s.flag p F.ANE_CTL_HOLD = false →
       let w := (s.jobBlur q.val ws bad).2
       ∃ t : State, (t.aneOf q.val).job = some (w, slot) ∧ (t.aneOf q.val).jobq = r ∧ (t.aneOf q.val).stack = [] ∧
         (t.aneOf q.val).bits = s.get p F.ANE_CTL_BITS ∧ t.hbm = s.hbm ∧
         t.spad = (w.zipIdx).foldl (fun m x => tabPut 0 m (spadKey q.val (4 * x.2)) x.1) s.spad ∧
         (∀ i, i < 16 → i < ws.length → decide (spadKey q.val (4 * i) ∈ t.spadPoison) = bad.getLsbD i) ∧
         let used := (List.range 3).any (fun x => xferWhen w x != 0)
         let early := s.stage < 2 ∨ (s.stage < 3 ∧ used = true)
         let noUc := fget (w.getD 0 0) 13 0 < 8192 ∧ s.flag p F.ANE_UC_STS_VENDOR_VALID = false
         (early → Does (.aneJobTake q bad) s (t.aneEnd q.val 6)) ∧
         (¬ early → xferErr w = true → Does (.aneJobTake q bad) s (t.aneEnd q.val 9)) ∧
         (¬ early → xferErr w = false → noUc → Does (.aneJobTake q bad) s (t.aneEnd q.val 7)) ∧
         (¬ early → xferErr w = false → ¬ noUc → xfersAt w 1 = [] → Does (.aneJobTake q bad) s (t.aneRun q.val)) ∧
         (¬ early → xferErr w = false → ¬ noUc → xfersAt w 1 ≠ [] → Does (.aneJobTake q bad) s
           ((t.setAne q.val { t.aneOf q.val with xfers := xfersAt w 1 }).setAneState q.val 1))) ∧
     (∀ n, d.xfers = [] ∨ d.job = none → Does (.aneXferDone q n) s s) ∧
     (∀ n x r w slot, d.xfers = x :: r → d.job = some (w, slot) →
       let u := ((List.range (xferLen w x)).foldl (fun s i =>
         s.xferUnit q.val (xferHbm w x + 32 * i) (xferSpad w x + 32 * i) (xferOut w x)) s).bump p
           (F.ANE_SPAD_CONFLICT_COUNT.off 8) n
       let t := u.setAne q.val { u.aneOf q.val with xfers := r }
       (r ≠ [] → Does (.aneXferDone q n) s t) ∧
       (r = [] → t.aneState q.val = 1 → Does (.aneXferDone q n) s (t.aneRun q.val)) ∧
       (r = [] → t.aneState q.val = 3 → Does (.aneXferDone q n) s (t.aneEnd q.val 0)) ∧
       (r = [] → t.aneState q.val = 2 → Does (.aneXferDone q n) s t)) ∧
     (st = 2 → budget ≠ 0 → Does (.aneBudget q) s ((s.set p F.ANE_JOB_CYC_CYC
       (min (2 ^ 24 - 1) (max (s.get p F.ANE_JOB_CYC_CYC) (budget + 1)))).aneEnd q.val 4)) ∧
     (st ≠ 2 ∨ budget = 0 → Does (.aneBudget q) s s) ∧
     (∀ v : W32, Reaches s p →
       let u := s.writeReg p 0x100 (v ||| 2) false
       (1 ≤ u.aneState q.val → u.aneState q.val ≤ 3 →
         Does (.aneAbort q v) s ((u.aneEnd q.val 5).aneRest q.val)) ∧
       (u.aneState q.val = 0 ∨ u.aneState q.val = 4 → Does (.aneAbort q v) s (u.aneRest q.val)) ∧
       (4 < u.aneState q.val → Does (.aneAbort q v) s u))) ∧
  (∀ (s : State) (q : Quad),
     let p := anePg q.val
     (∀ v : W32, Reaches s p →
       let u := s.writeReg p 0x140 (v ||| 1) false
       let may := (u.aneState q.val = 4 ∨ u.aneState q.val = 6) ∧ u.get p F.ANE_MARCH_CTL_ALG ≠ 3
       (may → Does (.marchGo q v) s (((u.setAne q.val { u.aneOf q.val with tgt := u.get p F.ANE_MARCH_CTL_TGT }).setAneState q.val 5).put p F.ANE_MARCH_STS_BUSY true)) ∧
       (¬ may → Does (.marchGo q v) s (u.put p F.ANE_MARCH_STS_MARCH_ERR true))) ∧
     (∀ (banks : W32) (uc : Bool) (a : BitVec 20) (x : W32),
       let tgt := (s.aneOf q.val).tgt
       let fail := (tgt = 0 ∧ banks ≠ 0) ∨ (tgt ≠ 0 ∧ uc = true)
       (s.aneState q.val ≠ 5 → Does (.marchDone q banks uc a x) s s) ∧
       (s.aneState q.val = 5 → ∃ t : State, Does (.marchDone q banks uc a x) s t ∧
         t.flag p F.ANE_MARCH_STS_BUSY = false ∧ t.hbm = s.hbm ∧
         (fail → t.aneState q.val = 6 ∧ t.get p F.ANE_MARCH_ADDR_ADDR = a.toNat ∧ t.get p F.ANE_MARCH_XOR_XOR = x.toNat) ∧
         (¬ fail → t.aneState q.val = (if (s.aneOf q.val).badTgt.filter (· != tgt) = [] then 4 else 6)) ∧
         (tgt = 0 → t.get p F.ANE_MARCH_BAD_BANKS = banks.toNat ∧ t.ucode = s.ucode ∧
           (∀ n, n < 2 ^ 18 → tabGet 0 t.spad (q.val * 2 ^ 18 + n) = 0)) ∧
         (tgt ≠ 0 → t.flag p F.ANE_MARCH_STS_UC_BAD = uc ∧ t.spad = s.spad ∧
           (∀ n, n < 2 ^ 17 → tabGet 0 t.ucode (q.val * 2 ^ 17 + n) = 0)))))

/-- R272, R274, R342, R343, R450: the scratchpad from outside. An atomic on an aligned scratchpad word through BAR4 adds or
swaps and completes with the old value; a poisoned one sets POISON_RX and leaves the word poisoned; any other is an
Unsupported Request, and one while the engine marches completes with 0 and changes nothing. A last core's atomic is the same
and gives the core the old value. A write through BAR4 changes its bytes one by one; a read completes with the words. The
cycles that a host access waited for its bank are counted. -/
def Obligations.ScratchpadAccessesFromOutside : Prop :=
  (∀ (s : State) (a : BitVec 24) (v : W32) (ep : Bool) (w : Nat), s.offLink = false →
    let q := a.toNat / 0x400000
    let o := a.toNat % 0x400000
    let k := spadKey q o
    let old := tabGet (0 : W32) s.spad k
    let no := a.toNat % 4 ≠ 0 ∨ 0x100000 ≤ o
    ∀ r ∈ [((.spadFetchadd a v ep w : Instr), old + v), (.spadSwap a v ep w, v)],
      (no → Does r.1 s ((s.bar4Wait a.toNat w).emit .ur)) ∧
      (¬ no → s.aneState q = 5 → Does r.1 s ((s.bar4Wait a.toNat w).emit (.cpl [0] false))) ∧
      (¬ no → s.aneState q ≠ 5 → ∃ t : State, Does r.1 s t ∧ t.out = s.out ++ [.cpl [old] (s.spadBad k)] ∧
        t.hbm = s.hbm ∧ tabGet 0 t.spad k = r.2 ∧
        (ep = true → k ∈ t.spadPoison ∧ t.flag pciPg F.PCI_STS_POISON_RX = true) ∧ ∀ k', k' ≠ k → tabGet 0 t.spad k' = tabGet 0 s.spad k')) ∧
  (∀ s : State, Does .unsupportedAtomic s (s.emit .ur)) ∧
  (∀ (s : State) (n : Fin 32) (q : Quad) (w : BitVec 18) (swap : Bool) (v : W32) (m : Nat),
    let k := q.val * 2 ^ 18 + w.toNat
    let old := tabGet (0 : W32) s.spad k
    ∃ t : State, Does (.lastSpadAtomic n q w swap v m) s t ∧ (t.coreOf n.val).got = old ∧
      tabGet 0 t.spad k = (if swap then v else old + v) ∧ ∀ k', k' ≠ k → tabGet 0 t.spad k' = tabGet 0 s.spad k') ∧
  (∀ (s : State) (a : BitVec 24) (bs : List (Option Byte)) (ep : Bool) (w : Nat), s.offLink = false →
    let g := s.bar4Wait a.toNat w
    let u := (bs.zipIdx).foldl (fun s x => s.bar4Byte (a.toNat + x.2) x.1 ep) (if ep then g.poisonRx else g)
    (u.aneState (a.toNat / 0x400000) = 5 → Does (.bar4Write a bs ep w) s u) ∧
    (u.aneState (a.toNat / 0x400000) ≠ 5 → Does (.bar4Write a bs ep w) s (u.bar4Clear a.toNat bs ep)) ∧
    (∀ (q o : Nat) (v : Byte), q < 4 → o < 0x100000 → s.aneState q ≠ 5 →
      let k := spadKey q o
      let t := s.bar4Byte (q * 0x400000 + o) (some v) false
      (∀ k', k' ≠ k → tabGet 0 t.spad k' = tabGet 0 s.spad k') ∧
      t.bar4Get (q * 0x400000 + o) = v ∧
      (∀ b, b < 4 → b ≠ o % 4 → t.bar4Get (q * 0x400000 + (o / 4 * 4 + b)) = s.bar4Get (q * 0x400000 + (o / 4 * 4 + b))))) ∧
  (∀ (s : State) (a n : Nat),
    (a % 0x400000 < 0x100000 → s.bar4Wait a n = s.bump (anePg (a / 0x400000)) (F.ANE_SPAD_CONFLICT_COUNT.off 16) n) ∧
    (0x100000 ≤ a % 0x400000 → s.bar4Wait a n = s)) ∧
  (∀ (s : State) (a : BitVec 24) (n w : Nat), s.offLink = false →
    ∃ t : State, Does (.bar4Read a n w) s t ∧ t.spad = s.spad ∧ t.hbm = s.hbm ∧ ∃ bad,
      t.out = s.out ++ [.cpl ((List.range n).map (fun i =>
        wordOf (s.bar4Get (a.toNat / 4 * 4 + 4 * i)) (s.bar4Get (a.toNat / 4 * 4 + 4 * i + 1))
          (s.bar4Get (a.toNat / 4 * 4 + 4 * i + 2)) (s.bar4Get (a.toNat / 4 * 4 + 4 * i + 3)))) bad])
end

