-- ==== Sys2Proof/Laws/State.lean ====
section
/-!
SUPPORT. What the operations on registers leave of every field of State: one lemma per field, each true by unfolding.
-/
namespace Sys2Proof.Machine

open Sys2Proof

namespace State

@[simp] theorem wr_pending (s : State) (p o : Nat) (v : W32) : (s.wr p o v).pending = s.pending := rfl
@[simp] theorem wr_now (s : State) (p o : Nat) (v : W32) : (s.wr p o v).now = s.now := rfl
@[simp] theorem wr_tlOn (s : State) (p o : Nat) (v : W32) : (s.wr p o v).tlOn = s.tlOn := rfl
@[simp] theorem wr_era (s : State) (p o : Nat) (v : W32) : (s.wr p o v).era = s.era := rfl
@[simp] theorem wr_held (s : State) (p o : Nat) (v : W32) : (s.wr p o v).held = s.held := rfl
@[simp] theorem wr_caps (s : State) (p o : Nat) (v : W32) : (s.wr p o v).caps = s.caps := rfl
@[simp] theorem wr_out (s : State) (p o : Nat) (v : W32) : (s.wr p o v).out = s.out := rfl
@[simp] theorem wr_resetting (s : State) (p o : Nat) (v : W32) : (s.wr p o v).resetting = s.resetting := rfl
@[simp] theorem wr_free (s : State) (p o : Nat) (v : W32) : (s.wr p o v).free = s.free := rfl
@[simp] theorem wr_flt (s : State) (p o : Nat) (v : W32) : (s.wr p o v).flt = s.flt := rfl
@[simp] theorem wr_evq (s : State) (p o : Nat) (v : W32) : (s.wr p o v).evq = s.evq := rfl
@[simp] theorem wr_sch (s : State) (p o : Nat) (v : W32) : (s.wr p o v).sch = s.sch := rfl
@[simp] theorem wr_pci (s : State) (p o : Nat) (v : W32) : (s.wr p o v).pci = s.pci := rfl
@[simp] theorem wr_hbm (s : State) (p o : Nat) (v : W32) : (s.wr p o v).hbm = s.hbm := rfl
@[simp] theorem wr_groups (s : State) (p o : Nat) (v : W32) : (s.wr p o v).groups = s.groups := rfl
@[simp] theorem wr_chan (s : State) (p o : Nat) (v : W32) : (s.wr p o v).chan = s.chan := rfl
@[simp] theorem wr_spr (s : State) (p o : Nat) (v : W32) : (s.wr p o v).spr = s.spr := rfl
@[simp] theorem wr_eye (s : State) (p o : Nat) (v : W32) : (s.wr p o v).eye = s.eye := rfl
@[simp] theorem wr_site (s : State) (p o : Nat) (v : W32) : (s.wr p o v).site = s.site := rfl
@[simp] theorem wr_fails (s : State) (p o : Nat) (v : W32) : (s.wr p o v).fails = s.fails := rfl
@[simp] theorem wr_evtSrc (s : State) (p o : Nat) (v : W32) : (s.wr p o v).evtSrc = s.evtSrc := rfl
@[simp] theorem wr_evtIn (s : State) (p o : Nat) (v : W32) : (s.wr p o v).evtIn = s.evtIn := rfl
@[simp] theorem wr_dds (s : State) (p o : Nat) (v : W32) : (s.wr p o v).dds = s.dds := rfl
@[simp] theorem wr_stamps (s : State) (p o : Nat) (v : W32) : (s.wr p o v).stamps = s.stamps := rfl
@[simp] theorem wr_awl (s : State) (p o : Nat) (v : W32) : (s.wr p o v).awl = s.awl := rfl
@[simp] theorem wr_gate (s : State) (p o : Nat) (v : W32) : (s.wr p o v).gate = s.gate := rfl
@[simp] theorem wr_iu (s : State) (p o : Nat) (v : W32) : (s.wr p o v).iu = s.iu := rfl
@[simp] theorem wr_track (s : State) (p o : Nat) (v : W32) : (s.wr p o v).track = s.track := rfl
@[simp] theorem wr_lace (s : State) (p o : Nat) (v : W32) : (s.wr p o v).lace = s.lace := rfl
@[simp] theorem wr_ptp (s : State) (p o : Nat) (v : W32) : (s.wr p o v).ptp = s.ptp := rfl
@[simp] theorem wr_xbr (s : State) (p o : Nat) (v : W32) : (s.wr p o v).xbr = s.xbr := rfl
@[simp] theorem wr_slotL (s : State) (p o : Nat) (v : W32) : (s.wr p o v).slotL = s.slotL := rfl
@[simp] theorem wr_scrL (s : State) (p o : Nat) (v : W32) : (s.wr p o v).scrL = s.scrL := rfl
@[simp] theorem wr_memDly (s : State) (p o : Nat) (v : W32) : (s.wr p o v).memDly = s.memDly := rfl
@[simp] theorem wr_trg (s : State) (p o : Nat) (v : W32) : (s.wr p o v).trg = s.trg := rfl
@[simp] theorem wr_ane (s : State) (p o : Nat) (v : W32) : (s.wr p o v).ane = s.ane := rfl
@[simp] theorem wr_spad (s : State) (p o : Nat) (v : W32) : (s.wr p o v).spad = s.spad := rfl
@[simp] theorem wr_spadPoison (s : State) (p o : Nat) (v : W32) : (s.wr p o v).spadPoison = s.spadPoison := rfl
@[simp] theorem wr_ucBytes (s : State) (p o : Nat) (v : W32) : (s.wr p o v).ucBytes = s.ucBytes := rfl
@[simp] theorem wr_ucode (s : State) (p o : Nat) (v : W32) : (s.wr p o v).ucode = s.ucode := rfl
@[simp] theorem wr_wq (s : State) (p o : Nat) (v : W32) : (s.wr p o v).wq = s.wq := rfl
@[simp] theorem wr_wmid (s : State) (p o : Nat) (v : W32) : (s.wr p o v).wmid = s.wmid := rfl
@[simp] theorem wr_wlt (s : State) (p o : Nat) (v : W32) : (s.wr p o v).wlt = s.wlt := rfl
@[simp] theorem wr_wlast (s : State) (p o : Nat) (v : W32) : (s.wr p o v).wlast = s.wlast := rfl
@[simp] theorem wr_wquiet (s : State) (p o : Nat) (v : W32) : (s.wr p o v).wquiet = s.wquiet := rfl
@[simp] theorem wr_wftS (s : State) (p o : Nat) (v : W32) : (s.wr p o v).wftS = s.wftS := rfl
@[simp] theorem wr_wftL (s : State) (p o : Nat) (v : W32) : (s.wr p o v).wftL = s.wftL := rfl
@[simp] theorem wr_wftBad (s : State) (p o : Nat) (v : W32) : (s.wr p o v).wftBad = s.wftBad := rfl
@[simp] theorem wr_segS (s : State) (p o : Nat) (v : W32) : (s.wr p o v).segS = s.segS := rfl
@[simp] theorem wr_segL (s : State) (p o : Nat) (v : W32) : (s.wr p o v).segL = s.segL := rfl
@[simp] theorem wr_ddsS (s : State) (p o : Nat) (v : W32) : (s.wr p o v).ddsS = s.ddsS := rfl
@[simp] theorem wr_ddsL (s : State) (p o : Nat) (v : W32) : (s.wr p o v).ddsL = s.ddsL := rfl
@[simp] theorem wr_dmapL (s : State) (p o : Nat) (v : W32) : (s.wr p o v).dmapL = s.dmapL := rfl
@[simp] theorem wr_segPend (s : State) (p o : Nat) (v : W32) : (s.wr p o v).segPend = s.segPend := rfl
@[simp] theorem wr_segCopy (s : State) (p o : Nat) (v : W32) : (s.wr p o v).segCopy = s.segCopy := rfl
@[simp] theorem wr_res (s : State) (p o : Nat) (v : W32) : (s.wr p o v).res = s.res := rfl
@[simp] theorem wr_resPoison (s : State) (p o : Nat) (v : W32) : (s.wr p o v).resPoison = s.resPoison := rfl
@[simp] theorem wr_calS (s : State) (p o : Nat) (v : W32) : (s.wr p o v).calS = s.calS := rfl
@[simp] theorem wr_calL (s : State) (p o : Nat) (v : W32) : (s.wr p o v).calL = s.calL := rfl
@[simp] theorem wr_calT (s : State) (p o : Nat) (v : W32) : (s.wr p o v).calT = s.calT := rfl
@[simp] theorem wr_calF (s : State) (p o : Nat) (v : W32) : (s.wr p o v).calF = s.calF := rfl
@[simp] theorem wr_calA (s : State) (p o : Nat) (v : W32) : (s.wr p o v).calA = s.calA := rfl
@[simp] theorem wr_calFac (s : State) (p o : Nat) (v : W32) : (s.wr p o v).calFac = s.calFac := rfl
@[simp] theorem wr_calSFac (s : State) (p o : Nat) (v : W32) : (s.wr p o v).calSFac = s.calSFac := rfl
@[simp] theorem wr_dlyFac (s : State) (p o : Nat) (v : W32) : (s.wr p o v).dlyFac = s.dlyFac := rfl
@[simp] theorem wr_flash (s : State) (p o : Nat) (v : W32) : (s.wr p o v).flash = s.flash := rfl
@[simp] theorem wr_boot (s : State) (p o : Nat) (v : W32) : (s.wr p o v).boot = s.boot := rfl
@[simp] theorem wr_thm (s : State) (p o : Nat) (v : W32) : (s.wr p o v).thm = s.thm := rfl
@[simp] theorem wr_jtag (s : State) (p o : Nat) (v : W32) : (s.wr p o v).jtag = s.jtag := rfl
@[simp] theorem wr_smb (s : State) (p o : Nat) (v : W32) : (s.wr p o v).smb = s.smb := rfl
@[simp] theorem wr_upset (s : State) (p o : Nat) (v : W32) : (s.wr p o v).upset = s.upset := rfl
@[simp] theorem wr_parity (s : State) (p o : Nat) (v : W32) : (s.wr p o v).parity = s.parity := rfl

@[simp] theorem set_pending (s : State) (p : Nat) (f : Fld) (v : Nat) : (s.set p f v).pending = s.pending := rfl
@[simp] theorem set_now (s : State) (p : Nat) (f : Fld) (v : Nat) : (s.set p f v).now = s.now := rfl
@[simp] theorem set_tlOn (s : State) (p : Nat) (f : Fld) (v : Nat) : (s.set p f v).tlOn = s.tlOn := rfl
@[simp] theorem set_era (s : State) (p : Nat) (f : Fld) (v : Nat) : (s.set p f v).era = s.era := rfl
@[simp] theorem set_held (s : State) (p : Nat) (f : Fld) (v : Nat) : (s.set p f v).held = s.held := rfl
@[simp] theorem set_caps (s : State) (p : Nat) (f : Fld) (v : Nat) : (s.set p f v).caps = s.caps := rfl
@[simp] theorem set_out (s : State) (p : Nat) (f : Fld) (v : Nat) : (s.set p f v).out = s.out := rfl
@[simp] theorem set_resetting (s : State) (p : Nat) (f : Fld) (v : Nat) : (s.set p f v).resetting = s.resetting := rfl
@[simp] theorem set_free (s : State) (p : Nat) (f : Fld) (v : Nat) : (s.set p f v).free = s.free := rfl
@[simp] theorem set_flt (s : State) (p : Nat) (f : Fld) (v : Nat) : (s.set p f v).flt = s.flt := rfl
@[simp] theorem set_evq (s : State) (p : Nat) (f : Fld) (v : Nat) : (s.set p f v).evq = s.evq := rfl
@[simp] theorem set_sch (s : State) (p : Nat) (f : Fld) (v : Nat) : (s.set p f v).sch = s.sch := rfl
@[simp] theorem set_pci (s : State) (p : Nat) (f : Fld) (v : Nat) : (s.set p f v).pci = s.pci := rfl
@[simp] theorem set_hbm (s : State) (p : Nat) (f : Fld) (v : Nat) : (s.set p f v).hbm = s.hbm := rfl
@[simp] theorem set_groups (s : State) (p : Nat) (f : Fld) (v : Nat) : (s.set p f v).groups = s.groups := rfl
@[simp] theorem set_chan (s : State) (p : Nat) (f : Fld) (v : Nat) : (s.set p f v).chan = s.chan := rfl
@[simp] theorem set_spr (s : State) (p : Nat) (f : Fld) (v : Nat) : (s.set p f v).spr = s.spr := rfl
@[simp] theorem set_eye (s : State) (p : Nat) (f : Fld) (v : Nat) : (s.set p f v).eye = s.eye := rfl
@[simp] theorem set_site (s : State) (p : Nat) (f : Fld) (v : Nat) : (s.set p f v).site = s.site := rfl
@[simp] theorem set_fails (s : State) (p : Nat) (f : Fld) (v : Nat) : (s.set p f v).fails = s.fails := rfl
@[simp] theorem set_evtSrc (s : State) (p : Nat) (f : Fld) (v : Nat) : (s.set p f v).evtSrc = s.evtSrc := rfl
@[simp] theorem set_evtIn (s : State) (p : Nat) (f : Fld) (v : Nat) : (s.set p f v).evtIn = s.evtIn := rfl
@[simp] theorem set_dds (s : State) (p : Nat) (f : Fld) (v : Nat) : (s.set p f v).dds = s.dds := rfl
@[simp] theorem set_stamps (s : State) (p : Nat) (f : Fld) (v : Nat) : (s.set p f v).stamps = s.stamps := rfl
@[simp] theorem set_awl (s : State) (p : Nat) (f : Fld) (v : Nat) : (s.set p f v).awl = s.awl := rfl
@[simp] theorem set_gate (s : State) (p : Nat) (f : Fld) (v : Nat) : (s.set p f v).gate = s.gate := rfl
@[simp] theorem set_iu (s : State) (p : Nat) (f : Fld) (v : Nat) : (s.set p f v).iu = s.iu := rfl
@[simp] theorem set_track (s : State) (p : Nat) (f : Fld) (v : Nat) : (s.set p f v).track = s.track := rfl
@[simp] theorem set_lace (s : State) (p : Nat) (f : Fld) (v : Nat) : (s.set p f v).lace = s.lace := rfl
@[simp] theorem set_ptp (s : State) (p : Nat) (f : Fld) (v : Nat) : (s.set p f v).ptp = s.ptp := rfl
@[simp] theorem set_xbr (s : State) (p : Nat) (f : Fld) (v : Nat) : (s.set p f v).xbr = s.xbr := rfl
@[simp] theorem set_slotL (s : State) (p : Nat) (f : Fld) (v : Nat) : (s.set p f v).slotL = s.slotL := rfl
@[simp] theorem set_scrL (s : State) (p : Nat) (f : Fld) (v : Nat) : (s.set p f v).scrL = s.scrL := rfl
@[simp] theorem set_memDly (s : State) (p : Nat) (f : Fld) (v : Nat) : (s.set p f v).memDly = s.memDly := rfl
@[simp] theorem set_trg (s : State) (p : Nat) (f : Fld) (v : Nat) : (s.set p f v).trg = s.trg := rfl
@[simp] theorem set_ane (s : State) (p : Nat) (f : Fld) (v : Nat) : (s.set p f v).ane = s.ane := rfl
@[simp] theorem set_spad (s : State) (p : Nat) (f : Fld) (v : Nat) : (s.set p f v).spad = s.spad := rfl
@[simp] theorem set_spadPoison (s : State) (p : Nat) (f : Fld) (v : Nat) : (s.set p f v).spadPoison = s.spadPoison := rfl
@[simp] theorem set_ucBytes (s : State) (p : Nat) (f : Fld) (v : Nat) : (s.set p f v).ucBytes = s.ucBytes := rfl
@[simp] theorem set_ucode (s : State) (p : Nat) (f : Fld) (v : Nat) : (s.set p f v).ucode = s.ucode := rfl
@[simp] theorem set_wq (s : State) (p : Nat) (f : Fld) (v : Nat) : (s.set p f v).wq = s.wq := rfl
@[simp] theorem set_wmid (s : State) (p : Nat) (f : Fld) (v : Nat) : (s.set p f v).wmid = s.wmid := rfl
@[simp] theorem set_wlt (s : State) (p : Nat) (f : Fld) (v : Nat) : (s.set p f v).wlt = s.wlt := rfl
@[simp] theorem set_wlast (s : State) (p : Nat) (f : Fld) (v : Nat) : (s.set p f v).wlast = s.wlast := rfl
@[simp] theorem set_wquiet (s : State) (p : Nat) (f : Fld) (v : Nat) : (s.set p f v).wquiet = s.wquiet := rfl
@[simp] theorem set_wftS (s : State) (p : Nat) (f : Fld) (v : Nat) : (s.set p f v).wftS = s.wftS := rfl
@[simp] theorem set_wftL (s : State) (p : Nat) (f : Fld) (v : Nat) : (s.set p f v).wftL = s.wftL := rfl
@[simp] theorem set_wftBad (s : State) (p : Nat) (f : Fld) (v : Nat) : (s.set p f v).wftBad = s.wftBad := rfl
@[simp] theorem set_segS (s : State) (p : Nat) (f : Fld) (v : Nat) : (s.set p f v).segS = s.segS := rfl
@[simp] theorem set_segL (s : State) (p : Nat) (f : Fld) (v : Nat) : (s.set p f v).segL = s.segL := rfl
@[simp] theorem set_ddsS (s : State) (p : Nat) (f : Fld) (v : Nat) : (s.set p f v).ddsS = s.ddsS := rfl
@[simp] theorem set_ddsL (s : State) (p : Nat) (f : Fld) (v : Nat) : (s.set p f v).ddsL = s.ddsL := rfl
@[simp] theorem set_dmapL (s : State) (p : Nat) (f : Fld) (v : Nat) : (s.set p f v).dmapL = s.dmapL := rfl
@[simp] theorem set_segPend (s : State) (p : Nat) (f : Fld) (v : Nat) : (s.set p f v).segPend = s.segPend := rfl
@[simp] theorem set_segCopy (s : State) (p : Nat) (f : Fld) (v : Nat) : (s.set p f v).segCopy = s.segCopy := rfl
@[simp] theorem set_res (s : State) (p : Nat) (f : Fld) (v : Nat) : (s.set p f v).res = s.res := rfl
@[simp] theorem set_resPoison (s : State) (p : Nat) (f : Fld) (v : Nat) : (s.set p f v).resPoison = s.resPoison := rfl
@[simp] theorem set_calS (s : State) (p : Nat) (f : Fld) (v : Nat) : (s.set p f v).calS = s.calS := rfl
@[simp] theorem set_calL (s : State) (p : Nat) (f : Fld) (v : Nat) : (s.set p f v).calL = s.calL := rfl
@[simp] theorem set_calT (s : State) (p : Nat) (f : Fld) (v : Nat) : (s.set p f v).calT = s.calT := rfl
@[simp] theorem set_calF (s : State) (p : Nat) (f : Fld) (v : Nat) : (s.set p f v).calF = s.calF := rfl
@[simp] theorem set_calA (s : State) (p : Nat) (f : Fld) (v : Nat) : (s.set p f v).calA = s.calA := rfl
@[simp] theorem set_calFac (s : State) (p : Nat) (f : Fld) (v : Nat) : (s.set p f v).calFac = s.calFac := rfl
@[simp] theorem set_calSFac (s : State) (p : Nat) (f : Fld) (v : Nat) : (s.set p f v).calSFac = s.calSFac := rfl
@[simp] theorem set_dlyFac (s : State) (p : Nat) (f : Fld) (v : Nat) : (s.set p f v).dlyFac = s.dlyFac := rfl
@[simp] theorem set_flash (s : State) (p : Nat) (f : Fld) (v : Nat) : (s.set p f v).flash = s.flash := rfl
@[simp] theorem set_boot (s : State) (p : Nat) (f : Fld) (v : Nat) : (s.set p f v).boot = s.boot := rfl
@[simp] theorem set_thm (s : State) (p : Nat) (f : Fld) (v : Nat) : (s.set p f v).thm = s.thm := rfl
@[simp] theorem set_jtag (s : State) (p : Nat) (f : Fld) (v : Nat) : (s.set p f v).jtag = s.jtag := rfl
@[simp] theorem set_smb (s : State) (p : Nat) (f : Fld) (v : Nat) : (s.set p f v).smb = s.smb := rfl
@[simp] theorem set_upset (s : State) (p : Nat) (f : Fld) (v : Nat) : (s.set p f v).upset = s.upset := rfl
@[simp] theorem set_parity (s : State) (p : Nat) (f : Fld) (v : Nat) : (s.set p f v).parity = s.parity := rfl

@[simp] theorem put_pending (s : State) (p : Nat) (f : Fld) (b : Bool) : (s.put p f b).pending = s.pending := rfl
@[simp] theorem put_now (s : State) (p : Nat) (f : Fld) (b : Bool) : (s.put p f b).now = s.now := rfl
@[simp] theorem put_tlOn (s : State) (p : Nat) (f : Fld) (b : Bool) : (s.put p f b).tlOn = s.tlOn := rfl
@[simp] theorem put_era (s : State) (p : Nat) (f : Fld) (b : Bool) : (s.put p f b).era = s.era := rfl
@[simp] theorem put_held (s : State) (p : Nat) (f : Fld) (b : Bool) : (s.put p f b).held = s.held := rfl
@[simp] theorem put_caps (s : State) (p : Nat) (f : Fld) (b : Bool) : (s.put p f b).caps = s.caps := rfl
@[simp] theorem put_out (s : State) (p : Nat) (f : Fld) (b : Bool) : (s.put p f b).out = s.out := rfl
@[simp] theorem put_resetting (s : State) (p : Nat) (f : Fld) (b : Bool) : (s.put p f b).resetting = s.resetting := rfl
@[simp] theorem put_free (s : State) (p : Nat) (f : Fld) (b : Bool) : (s.put p f b).free = s.free := rfl
@[simp] theorem put_flt (s : State) (p : Nat) (f : Fld) (b : Bool) : (s.put p f b).flt = s.flt := rfl
@[simp] theorem put_evq (s : State) (p : Nat) (f : Fld) (b : Bool) : (s.put p f b).evq = s.evq := rfl
@[simp] theorem put_sch (s : State) (p : Nat) (f : Fld) (b : Bool) : (s.put p f b).sch = s.sch := rfl
@[simp] theorem put_pci (s : State) (p : Nat) (f : Fld) (b : Bool) : (s.put p f b).pci = s.pci := rfl
@[simp] theorem put_hbm (s : State) (p : Nat) (f : Fld) (b : Bool) : (s.put p f b).hbm = s.hbm := rfl
@[simp] theorem put_groups (s : State) (p : Nat) (f : Fld) (b : Bool) : (s.put p f b).groups = s.groups := rfl
@[simp] theorem put_chan (s : State) (p : Nat) (f : Fld) (b : Bool) : (s.put p f b).chan = s.chan := rfl
@[simp] theorem put_spr (s : State) (p : Nat) (f : Fld) (b : Bool) : (s.put p f b).spr = s.spr := rfl
@[simp] theorem put_eye (s : State) (p : Nat) (f : Fld) (b : Bool) : (s.put p f b).eye = s.eye := rfl
@[simp] theorem put_site (s : State) (p : Nat) (f : Fld) (b : Bool) : (s.put p f b).site = s.site := rfl
@[simp] theorem put_fails (s : State) (p : Nat) (f : Fld) (b : Bool) : (s.put p f b).fails = s.fails := rfl
@[simp] theorem put_evtSrc (s : State) (p : Nat) (f : Fld) (b : Bool) : (s.put p f b).evtSrc = s.evtSrc := rfl
@[simp] theorem put_evtIn (s : State) (p : Nat) (f : Fld) (b : Bool) : (s.put p f b).evtIn = s.evtIn := rfl
@[simp] theorem put_dds (s : State) (p : Nat) (f : Fld) (b : Bool) : (s.put p f b).dds = s.dds := rfl
@[simp] theorem put_stamps (s : State) (p : Nat) (f : Fld) (b : Bool) : (s.put p f b).stamps = s.stamps := rfl
@[simp] theorem put_awl (s : State) (p : Nat) (f : Fld) (b : Bool) : (s.put p f b).awl = s.awl := rfl
@[simp] theorem put_gate (s : State) (p : Nat) (f : Fld) (b : Bool) : (s.put p f b).gate = s.gate := rfl
@[simp] theorem put_iu (s : State) (p : Nat) (f : Fld) (b : Bool) : (s.put p f b).iu = s.iu := rfl
@[simp] theorem put_track (s : State) (p : Nat) (f : Fld) (b : Bool) : (s.put p f b).track = s.track := rfl
@[simp] theorem put_lace (s : State) (p : Nat) (f : Fld) (b : Bool) : (s.put p f b).lace = s.lace := rfl
@[simp] theorem put_ptp (s : State) (p : Nat) (f : Fld) (b : Bool) : (s.put p f b).ptp = s.ptp := rfl
@[simp] theorem put_xbr (s : State) (p : Nat) (f : Fld) (b : Bool) : (s.put p f b).xbr = s.xbr := rfl
@[simp] theorem put_slotL (s : State) (p : Nat) (f : Fld) (b : Bool) : (s.put p f b).slotL = s.slotL := rfl
@[simp] theorem put_scrL (s : State) (p : Nat) (f : Fld) (b : Bool) : (s.put p f b).scrL = s.scrL := rfl
@[simp] theorem put_memDly (s : State) (p : Nat) (f : Fld) (b : Bool) : (s.put p f b).memDly = s.memDly := rfl
@[simp] theorem put_trg (s : State) (p : Nat) (f : Fld) (b : Bool) : (s.put p f b).trg = s.trg := rfl
@[simp] theorem put_ane (s : State) (p : Nat) (f : Fld) (b : Bool) : (s.put p f b).ane = s.ane := rfl
@[simp] theorem put_spad (s : State) (p : Nat) (f : Fld) (b : Bool) : (s.put p f b).spad = s.spad := rfl
@[simp] theorem put_spadPoison (s : State) (p : Nat) (f : Fld) (b : Bool) : (s.put p f b).spadPoison = s.spadPoison := rfl
@[simp] theorem put_ucBytes (s : State) (p : Nat) (f : Fld) (b : Bool) : (s.put p f b).ucBytes = s.ucBytes := rfl
@[simp] theorem put_ucode (s : State) (p : Nat) (f : Fld) (b : Bool) : (s.put p f b).ucode = s.ucode := rfl
@[simp] theorem put_wq (s : State) (p : Nat) (f : Fld) (b : Bool) : (s.put p f b).wq = s.wq := rfl
@[simp] theorem put_wmid (s : State) (p : Nat) (f : Fld) (b : Bool) : (s.put p f b).wmid = s.wmid := rfl
@[simp] theorem put_wlt (s : State) (p : Nat) (f : Fld) (b : Bool) : (s.put p f b).wlt = s.wlt := rfl
@[simp] theorem put_wlast (s : State) (p : Nat) (f : Fld) (b : Bool) : (s.put p f b).wlast = s.wlast := rfl
@[simp] theorem put_wquiet (s : State) (p : Nat) (f : Fld) (b : Bool) : (s.put p f b).wquiet = s.wquiet := rfl
@[simp] theorem put_wftS (s : State) (p : Nat) (f : Fld) (b : Bool) : (s.put p f b).wftS = s.wftS := rfl
@[simp] theorem put_wftL (s : State) (p : Nat) (f : Fld) (b : Bool) : (s.put p f b).wftL = s.wftL := rfl
@[simp] theorem put_wftBad (s : State) (p : Nat) (f : Fld) (b : Bool) : (s.put p f b).wftBad = s.wftBad := rfl
@[simp] theorem put_segS (s : State) (p : Nat) (f : Fld) (b : Bool) : (s.put p f b).segS = s.segS := rfl
@[simp] theorem put_segL (s : State) (p : Nat) (f : Fld) (b : Bool) : (s.put p f b).segL = s.segL := rfl
@[simp] theorem put_ddsS (s : State) (p : Nat) (f : Fld) (b : Bool) : (s.put p f b).ddsS = s.ddsS := rfl
@[simp] theorem put_ddsL (s : State) (p : Nat) (f : Fld) (b : Bool) : (s.put p f b).ddsL = s.ddsL := rfl
@[simp] theorem put_dmapL (s : State) (p : Nat) (f : Fld) (b : Bool) : (s.put p f b).dmapL = s.dmapL := rfl
@[simp] theorem put_segPend (s : State) (p : Nat) (f : Fld) (b : Bool) : (s.put p f b).segPend = s.segPend := rfl
@[simp] theorem put_segCopy (s : State) (p : Nat) (f : Fld) (b : Bool) : (s.put p f b).segCopy = s.segCopy := rfl
@[simp] theorem put_res (s : State) (p : Nat) (f : Fld) (b : Bool) : (s.put p f b).res = s.res := rfl
@[simp] theorem put_resPoison (s : State) (p : Nat) (f : Fld) (b : Bool) : (s.put p f b).resPoison = s.resPoison := rfl
@[simp] theorem put_calS (s : State) (p : Nat) (f : Fld) (b : Bool) : (s.put p f b).calS = s.calS := rfl
@[simp] theorem put_calL (s : State) (p : Nat) (f : Fld) (b : Bool) : (s.put p f b).calL = s.calL := rfl
@[simp] theorem put_calT (s : State) (p : Nat) (f : Fld) (b : Bool) : (s.put p f b).calT = s.calT := rfl
@[simp] theorem put_calF (s : State) (p : Nat) (f : Fld) (b : Bool) : (s.put p f b).calF = s.calF := rfl
@[simp] theorem put_calA (s : State) (p : Nat) (f : Fld) (b : Bool) : (s.put p f b).calA = s.calA := rfl
@[simp] theorem put_calFac (s : State) (p : Nat) (f : Fld) (b : Bool) : (s.put p f b).calFac = s.calFac := rfl
@[simp] theorem put_calSFac (s : State) (p : Nat) (f : Fld) (b : Bool) : (s.put p f b).calSFac = s.calSFac := rfl
@[simp] theorem put_dlyFac (s : State) (p : Nat) (f : Fld) (b : Bool) : (s.put p f b).dlyFac = s.dlyFac := rfl
@[simp] theorem put_flash (s : State) (p : Nat) (f : Fld) (b : Bool) : (s.put p f b).flash = s.flash := rfl
@[simp] theorem put_boot (s : State) (p : Nat) (f : Fld) (b : Bool) : (s.put p f b).boot = s.boot := rfl
@[simp] theorem put_thm (s : State) (p : Nat) (f : Fld) (b : Bool) : (s.put p f b).thm = s.thm := rfl
@[simp] theorem put_jtag (s : State) (p : Nat) (f : Fld) (b : Bool) : (s.put p f b).jtag = s.jtag := rfl
@[simp] theorem put_smb (s : State) (p : Nat) (f : Fld) (b : Bool) : (s.put p f b).smb = s.smb := rfl
@[simp] theorem put_upset (s : State) (p : Nat) (f : Fld) (b : Bool) : (s.put p f b).upset = s.upset := rfl
@[simp] theorem put_parity (s : State) (p : Nat) (f : Fld) (b : Bool) : (s.put p f b).parity = s.parity := rfl

@[simp] theorem bump_pending (s : State) (p : Nat) (f : Fld) (n : Nat) : (s.bump p f n).pending = s.pending := rfl
@[simp] theorem bump_now (s : State) (p : Nat) (f : Fld) (n : Nat) : (s.bump p f n).now = s.now := rfl
@[simp] theorem bump_tlOn (s : State) (p : Nat) (f : Fld) (n : Nat) : (s.bump p f n).tlOn = s.tlOn := rfl
@[simp] theorem bump_era (s : State) (p : Nat) (f : Fld) (n : Nat) : (s.bump p f n).era = s.era := rfl
@[simp] theorem bump_held (s : State) (p : Nat) (f : Fld) (n : Nat) : (s.bump p f n).held = s.held := rfl
@[simp] theorem bump_caps (s : State) (p : Nat) (f : Fld) (n : Nat) : (s.bump p f n).caps = s.caps := rfl
@[simp] theorem bump_out (s : State) (p : Nat) (f : Fld) (n : Nat) : (s.bump p f n).out = s.out := rfl
@[simp] theorem bump_resetting (s : State) (p : Nat) (f : Fld) (n : Nat) : (s.bump p f n).resetting = s.resetting := rfl
@[simp] theorem bump_free (s : State) (p : Nat) (f : Fld) (n : Nat) : (s.bump p f n).free = s.free := rfl
@[simp] theorem bump_flt (s : State) (p : Nat) (f : Fld) (n : Nat) : (s.bump p f n).flt = s.flt := rfl
@[simp] theorem bump_evq (s : State) (p : Nat) (f : Fld) (n : Nat) : (s.bump p f n).evq = s.evq := rfl
@[simp] theorem bump_sch (s : State) (p : Nat) (f : Fld) (n : Nat) : (s.bump p f n).sch = s.sch := rfl
@[simp] theorem bump_pci (s : State) (p : Nat) (f : Fld) (n : Nat) : (s.bump p f n).pci = s.pci := rfl
@[simp] theorem bump_hbm (s : State) (p : Nat) (f : Fld) (n : Nat) : (s.bump p f n).hbm = s.hbm := rfl
@[simp] theorem bump_groups (s : State) (p : Nat) (f : Fld) (n : Nat) : (s.bump p f n).groups = s.groups := rfl
@[simp] theorem bump_chan (s : State) (p : Nat) (f : Fld) (n : Nat) : (s.bump p f n).chan = s.chan := rfl
@[simp] theorem bump_spr (s : State) (p : Nat) (f : Fld) (n : Nat) : (s.bump p f n).spr = s.spr := rfl
@[simp] theorem bump_eye (s : State) (p : Nat) (f : Fld) (n : Nat) : (s.bump p f n).eye = s.eye := rfl
@[simp] theorem bump_site (s : State) (p : Nat) (f : Fld) (n : Nat) : (s.bump p f n).site = s.site := rfl
@[simp] theorem bump_fails (s : State) (p : Nat) (f : Fld) (n : Nat) : (s.bump p f n).fails = s.fails := rfl
@[simp] theorem bump_evtSrc (s : State) (p : Nat) (f : Fld) (n : Nat) : (s.bump p f n).evtSrc = s.evtSrc := rfl
@[simp] theorem bump_evtIn (s : State) (p : Nat) (f : Fld) (n : Nat) : (s.bump p f n).evtIn = s.evtIn := rfl
@[simp] theorem bump_dds (s : State) (p : Nat) (f : Fld) (n : Nat) : (s.bump p f n).dds = s.dds := rfl
@[simp] theorem bump_stamps (s : State) (p : Nat) (f : Fld) (n : Nat) : (s.bump p f n).stamps = s.stamps := rfl
@[simp] theorem bump_awl (s : State) (p : Nat) (f : Fld) (n : Nat) : (s.bump p f n).awl = s.awl := rfl
@[simp] theorem bump_gate (s : State) (p : Nat) (f : Fld) (n : Nat) : (s.bump p f n).gate = s.gate := rfl
@[simp] theorem bump_iu (s : State) (p : Nat) (f : Fld) (n : Nat) : (s.bump p f n).iu = s.iu := rfl
@[simp] theorem bump_track (s : State) (p : Nat) (f : Fld) (n : Nat) : (s.bump p f n).track = s.track := rfl
@[simp] theorem bump_lace (s : State) (p : Nat) (f : Fld) (n : Nat) : (s.bump p f n).lace = s.lace := rfl
@[simp] theorem bump_ptp (s : State) (p : Nat) (f : Fld) (n : Nat) : (s.bump p f n).ptp = s.ptp := rfl
@[simp] theorem bump_xbr (s : State) (p : Nat) (f : Fld) (n : Nat) : (s.bump p f n).xbr = s.xbr := rfl
@[simp] theorem bump_slotL (s : State) (p : Nat) (f : Fld) (n : Nat) : (s.bump p f n).slotL = s.slotL := rfl
@[simp] theorem bump_scrL (s : State) (p : Nat) (f : Fld) (n : Nat) : (s.bump p f n).scrL = s.scrL := rfl
@[simp] theorem bump_memDly (s : State) (p : Nat) (f : Fld) (n : Nat) : (s.bump p f n).memDly = s.memDly := rfl
@[simp] theorem bump_trg (s : State) (p : Nat) (f : Fld) (n : Nat) : (s.bump p f n).trg = s.trg := rfl
@[simp] theorem bump_ane (s : State) (p : Nat) (f : Fld) (n : Nat) : (s.bump p f n).ane = s.ane := rfl
@[simp] theorem bump_spad (s : State) (p : Nat) (f : Fld) (n : Nat) : (s.bump p f n).spad = s.spad := rfl
@[simp] theorem bump_spadPoison (s : State) (p : Nat) (f : Fld) (n : Nat) : (s.bump p f n).spadPoison = s.spadPoison := rfl
@[simp] theorem bump_ucBytes (s : State) (p : Nat) (f : Fld) (n : Nat) : (s.bump p f n).ucBytes = s.ucBytes := rfl
@[simp] theorem bump_ucode (s : State) (p : Nat) (f : Fld) (n : Nat) : (s.bump p f n).ucode = s.ucode := rfl
@[simp] theorem bump_wq (s : State) (p : Nat) (f : Fld) (n : Nat) : (s.bump p f n).wq = s.wq := rfl
@[simp] theorem bump_wmid (s : State) (p : Nat) (f : Fld) (n : Nat) : (s.bump p f n).wmid = s.wmid := rfl
@[simp] theorem bump_wlt (s : State) (p : Nat) (f : Fld) (n : Nat) : (s.bump p f n).wlt = s.wlt := rfl
@[simp] theorem bump_wlast (s : State) (p : Nat) (f : Fld) (n : Nat) : (s.bump p f n).wlast = s.wlast := rfl
@[simp] theorem bump_wquiet (s : State) (p : Nat) (f : Fld) (n : Nat) : (s.bump p f n).wquiet = s.wquiet := rfl
@[simp] theorem bump_wftS (s : State) (p : Nat) (f : Fld) (n : Nat) : (s.bump p f n).wftS = s.wftS := rfl
@[simp] theorem bump_wftL (s : State) (p : Nat) (f : Fld) (n : Nat) : (s.bump p f n).wftL = s.wftL := rfl
@[simp] theorem bump_wftBad (s : State) (p : Nat) (f : Fld) (n : Nat) : (s.bump p f n).wftBad = s.wftBad := rfl
@[simp] theorem bump_segS (s : State) (p : Nat) (f : Fld) (n : Nat) : (s.bump p f n).segS = s.segS := rfl
@[simp] theorem bump_segL (s : State) (p : Nat) (f : Fld) (n : Nat) : (s.bump p f n).segL = s.segL := rfl
@[simp] theorem bump_ddsS (s : State) (p : Nat) (f : Fld) (n : Nat) : (s.bump p f n).ddsS = s.ddsS := rfl
@[simp] theorem bump_ddsL (s : State) (p : Nat) (f : Fld) (n : Nat) : (s.bump p f n).ddsL = s.ddsL := rfl
@[simp] theorem bump_dmapL (s : State) (p : Nat) (f : Fld) (n : Nat) : (s.bump p f n).dmapL = s.dmapL := rfl
@[simp] theorem bump_segPend (s : State) (p : Nat) (f : Fld) (n : Nat) : (s.bump p f n).segPend = s.segPend := rfl
@[simp] theorem bump_segCopy (s : State) (p : Nat) (f : Fld) (n : Nat) : (s.bump p f n).segCopy = s.segCopy := rfl
@[simp] theorem bump_res (s : State) (p : Nat) (f : Fld) (n : Nat) : (s.bump p f n).res = s.res := rfl
@[simp] theorem bump_resPoison (s : State) (p : Nat) (f : Fld) (n : Nat) : (s.bump p f n).resPoison = s.resPoison := rfl
@[simp] theorem bump_calS (s : State) (p : Nat) (f : Fld) (n : Nat) : (s.bump p f n).calS = s.calS := rfl
@[simp] theorem bump_calL (s : State) (p : Nat) (f : Fld) (n : Nat) : (s.bump p f n).calL = s.calL := rfl
@[simp] theorem bump_calT (s : State) (p : Nat) (f : Fld) (n : Nat) : (s.bump p f n).calT = s.calT := rfl
@[simp] theorem bump_calF (s : State) (p : Nat) (f : Fld) (n : Nat) : (s.bump p f n).calF = s.calF := rfl
@[simp] theorem bump_calA (s : State) (p : Nat) (f : Fld) (n : Nat) : (s.bump p f n).calA = s.calA := rfl
@[simp] theorem bump_calFac (s : State) (p : Nat) (f : Fld) (n : Nat) : (s.bump p f n).calFac = s.calFac := rfl
@[simp] theorem bump_calSFac (s : State) (p : Nat) (f : Fld) (n : Nat) : (s.bump p f n).calSFac = s.calSFac := rfl
@[simp] theorem bump_dlyFac (s : State) (p : Nat) (f : Fld) (n : Nat) : (s.bump p f n).dlyFac = s.dlyFac := rfl
@[simp] theorem bump_flash (s : State) (p : Nat) (f : Fld) (n : Nat) : (s.bump p f n).flash = s.flash := rfl
@[simp] theorem bump_boot (s : State) (p : Nat) (f : Fld) (n : Nat) : (s.bump p f n).boot = s.boot := rfl
@[simp] theorem bump_thm (s : State) (p : Nat) (f : Fld) (n : Nat) : (s.bump p f n).thm = s.thm := rfl
@[simp] theorem bump_jtag (s : State) (p : Nat) (f : Fld) (n : Nat) : (s.bump p f n).jtag = s.jtag := rfl
@[simp] theorem bump_smb (s : State) (p : Nat) (f : Fld) (n : Nat) : (s.bump p f n).smb = s.smb := rfl
@[simp] theorem bump_upset (s : State) (p : Nat) (f : Fld) (n : Nat) : (s.bump p f n).upset = s.upset := rfl
@[simp] theorem bump_parity (s : State) (p : Nat) (f : Fld) (n : Nat) : (s.bump p f n).parity = s.parity := rfl

@[simp] theorem emit_pending (s : State) (o : Out) : (s.emit o).pending = s.pending := rfl
@[simp] theorem emit_now (s : State) (o : Out) : (s.emit o).now = s.now := rfl
@[simp] theorem emit_tlOn (s : State) (o : Out) : (s.emit o).tlOn = s.tlOn := rfl
@[simp] theorem emit_era (s : State) (o : Out) : (s.emit o).era = s.era := rfl
@[simp] theorem emit_regs (s : State) (o : Out) : (s.emit o).regs = s.regs := rfl
@[simp] theorem emit_held (s : State) (o : Out) : (s.emit o).held = s.held := rfl
@[simp] theorem emit_caps (s : State) (o : Out) : (s.emit o).caps = s.caps := rfl
@[simp] theorem emit_resetting (s : State) (o : Out) : (s.emit o).resetting = s.resetting := rfl
@[simp] theorem emit_free (s : State) (o : Out) : (s.emit o).free = s.free := rfl
@[simp] theorem emit_flt (s : State) (o : Out) : (s.emit o).flt = s.flt := rfl
@[simp] theorem emit_evq (s : State) (o : Out) : (s.emit o).evq = s.evq := rfl
@[simp] theorem emit_sch (s : State) (o : Out) : (s.emit o).sch = s.sch := rfl
@[simp] theorem emit_pci (s : State) (o : Out) : (s.emit o).pci = s.pci := rfl
@[simp] theorem emit_hbm (s : State) (o : Out) : (s.emit o).hbm = s.hbm := rfl
@[simp] theorem emit_groups (s : State) (o : Out) : (s.emit o).groups = s.groups := rfl
@[simp] theorem emit_chan (s : State) (o : Out) : (s.emit o).chan = s.chan := rfl
@[simp] theorem emit_spr (s : State) (o : Out) : (s.emit o).spr = s.spr := rfl
@[simp] theorem emit_eye (s : State) (o : Out) : (s.emit o).eye = s.eye := rfl
@[simp] theorem emit_site (s : State) (o : Out) : (s.emit o).site = s.site := rfl
@[simp] theorem emit_fails (s : State) (o : Out) : (s.emit o).fails = s.fails := rfl
@[simp] theorem emit_evtSrc (s : State) (o : Out) : (s.emit o).evtSrc = s.evtSrc := rfl
@[simp] theorem emit_evtIn (s : State) (o : Out) : (s.emit o).evtIn = s.evtIn := rfl
@[simp] theorem emit_dds (s : State) (o : Out) : (s.emit o).dds = s.dds := rfl
@[simp] theorem emit_stamps (s : State) (o : Out) : (s.emit o).stamps = s.stamps := rfl
@[simp] theorem emit_awl (s : State) (o : Out) : (s.emit o).awl = s.awl := rfl
@[simp] theorem emit_gate (s : State) (o : Out) : (s.emit o).gate = s.gate := rfl
@[simp] theorem emit_iu (s : State) (o : Out) : (s.emit o).iu = s.iu := rfl
@[simp] theorem emit_track (s : State) (o : Out) : (s.emit o).track = s.track := rfl
@[simp] theorem emit_lace (s : State) (o : Out) : (s.emit o).lace = s.lace := rfl
@[simp] theorem emit_ptp (s : State) (o : Out) : (s.emit o).ptp = s.ptp := rfl
@[simp] theorem emit_xbr (s : State) (o : Out) : (s.emit o).xbr = s.xbr := rfl
@[simp] theorem emit_slotL (s : State) (o : Out) : (s.emit o).slotL = s.slotL := rfl
@[simp] theorem emit_scrL (s : State) (o : Out) : (s.emit o).scrL = s.scrL := rfl
@[simp] theorem emit_memDly (s : State) (o : Out) : (s.emit o).memDly = s.memDly := rfl
@[simp] theorem emit_trg (s : State) (o : Out) : (s.emit o).trg = s.trg := rfl
@[simp] theorem emit_ane (s : State) (o : Out) : (s.emit o).ane = s.ane := rfl
@[simp] theorem emit_spad (s : State) (o : Out) : (s.emit o).spad = s.spad := rfl
@[simp] theorem emit_spadPoison (s : State) (o : Out) : (s.emit o).spadPoison = s.spadPoison := rfl
@[simp] theorem emit_ucBytes (s : State) (o : Out) : (s.emit o).ucBytes = s.ucBytes := rfl
@[simp] theorem emit_ucode (s : State) (o : Out) : (s.emit o).ucode = s.ucode := rfl
@[simp] theorem emit_wq (s : State) (o : Out) : (s.emit o).wq = s.wq := rfl
@[simp] theorem emit_wmid (s : State) (o : Out) : (s.emit o).wmid = s.wmid := rfl
@[simp] theorem emit_wlt (s : State) (o : Out) : (s.emit o).wlt = s.wlt := rfl
@[simp] theorem emit_wlast (s : State) (o : Out) : (s.emit o).wlast = s.wlast := rfl
@[simp] theorem emit_wquiet (s : State) (o : Out) : (s.emit o).wquiet = s.wquiet := rfl
@[simp] theorem emit_wftS (s : State) (o : Out) : (s.emit o).wftS = s.wftS := rfl
@[simp] theorem emit_wftL (s : State) (o : Out) : (s.emit o).wftL = s.wftL := rfl
@[simp] theorem emit_wftBad (s : State) (o : Out) : (s.emit o).wftBad = s.wftBad := rfl
@[simp] theorem emit_segS (s : State) (o : Out) : (s.emit o).segS = s.segS := rfl
@[simp] theorem emit_segL (s : State) (o : Out) : (s.emit o).segL = s.segL := rfl
@[simp] theorem emit_ddsS (s : State) (o : Out) : (s.emit o).ddsS = s.ddsS := rfl
@[simp] theorem emit_ddsL (s : State) (o : Out) : (s.emit o).ddsL = s.ddsL := rfl
@[simp] theorem emit_dmapL (s : State) (o : Out) : (s.emit o).dmapL = s.dmapL := rfl
@[simp] theorem emit_segPend (s : State) (o : Out) : (s.emit o).segPend = s.segPend := rfl
@[simp] theorem emit_segCopy (s : State) (o : Out) : (s.emit o).segCopy = s.segCopy := rfl
@[simp] theorem emit_res (s : State) (o : Out) : (s.emit o).res = s.res := rfl
@[simp] theorem emit_resPoison (s : State) (o : Out) : (s.emit o).resPoison = s.resPoison := rfl
@[simp] theorem emit_calS (s : State) (o : Out) : (s.emit o).calS = s.calS := rfl
@[simp] theorem emit_calL (s : State) (o : Out) : (s.emit o).calL = s.calL := rfl
@[simp] theorem emit_calT (s : State) (o : Out) : (s.emit o).calT = s.calT := rfl
@[simp] theorem emit_calF (s : State) (o : Out) : (s.emit o).calF = s.calF := rfl
@[simp] theorem emit_calA (s : State) (o : Out) : (s.emit o).calA = s.calA := rfl
@[simp] theorem emit_calFac (s : State) (o : Out) : (s.emit o).calFac = s.calFac := rfl
@[simp] theorem emit_calSFac (s : State) (o : Out) : (s.emit o).calSFac = s.calSFac := rfl
@[simp] theorem emit_dlyFac (s : State) (o : Out) : (s.emit o).dlyFac = s.dlyFac := rfl
@[simp] theorem emit_flash (s : State) (o : Out) : (s.emit o).flash = s.flash := rfl
@[simp] theorem emit_boot (s : State) (o : Out) : (s.emit o).boot = s.boot := rfl
@[simp] theorem emit_thm (s : State) (o : Out) : (s.emit o).thm = s.thm := rfl
@[simp] theorem emit_jtag (s : State) (o : Out) : (s.emit o).jtag = s.jtag := rfl
@[simp] theorem emit_smb (s : State) (o : Out) : (s.emit o).smb = s.smb := rfl
@[simp] theorem emit_upset (s : State) (o : Out) : (s.emit o).upset = s.upset := rfl
@[simp] theorem emit_parity (s : State) (o : Out) : (s.emit o).parity = s.parity := rfl

@[simp] theorem inForce_pending (s : State) (p o : Nat) : (s.inForce p o).pending = s.pending := rfl
@[simp] theorem inForce_now (s : State) (p o : Nat) : (s.inForce p o).now = s.now := rfl
@[simp] theorem inForce_tlOn (s : State) (p o : Nat) : (s.inForce p o).tlOn = s.tlOn := rfl
@[simp] theorem inForce_era (s : State) (p o : Nat) : (s.inForce p o).era = s.era := rfl
@[simp] theorem inForce_regs (s : State) (p o : Nat) : (s.inForce p o).regs = s.regs := rfl
@[simp] theorem inForce_caps (s : State) (p o : Nat) : (s.inForce p o).caps = s.caps := rfl
@[simp] theorem inForce_out (s : State) (p o : Nat) : (s.inForce p o).out = s.out := rfl
@[simp] theorem inForce_resetting (s : State) (p o : Nat) : (s.inForce p o).resetting = s.resetting := rfl
@[simp] theorem inForce_free (s : State) (p o : Nat) : (s.inForce p o).free = s.free := rfl
@[simp] theorem inForce_flt (s : State) (p o : Nat) : (s.inForce p o).flt = s.flt := rfl
@[simp] theorem inForce_evq (s : State) (p o : Nat) : (s.inForce p o).evq = s.evq := rfl
@[simp] theorem inForce_sch (s : State) (p o : Nat) : (s.inForce p o).sch = s.sch := rfl
@[simp] theorem inForce_pci (s : State) (p o : Nat) : (s.inForce p o).pci = s.pci := rfl
@[simp] theorem inForce_hbm (s : State) (p o : Nat) : (s.inForce p o).hbm = s.hbm := rfl
@[simp] theorem inForce_groups (s : State) (p o : Nat) : (s.inForce p o).groups = s.groups := rfl
@[simp] theorem inForce_chan (s : State) (p o : Nat) : (s.inForce p o).chan = s.chan := rfl
@[simp] theorem inForce_spr (s : State) (p o : Nat) : (s.inForce p o).spr = s.spr := rfl
@[simp] theorem inForce_eye (s : State) (p o : Nat) : (s.inForce p o).eye = s.eye := rfl
@[simp] theorem inForce_site (s : State) (p o : Nat) : (s.inForce p o).site = s.site := rfl
@[simp] theorem inForce_fails (s : State) (p o : Nat) : (s.inForce p o).fails = s.fails := rfl
@[simp] theorem inForce_evtSrc (s : State) (p o : Nat) : (s.inForce p o).evtSrc = s.evtSrc := rfl
@[simp] theorem inForce_evtIn (s : State) (p o : Nat) : (s.inForce p o).evtIn = s.evtIn := rfl
@[simp] theorem inForce_dds (s : State) (p o : Nat) : (s.inForce p o).dds = s.dds := rfl
@[simp] theorem inForce_stamps (s : State) (p o : Nat) : (s.inForce p o).stamps = s.stamps := rfl
@[simp] theorem inForce_awl (s : State) (p o : Nat) : (s.inForce p o).awl = s.awl := rfl
@[simp] theorem inForce_gate (s : State) (p o : Nat) : (s.inForce p o).gate = s.gate := rfl
@[simp] theorem inForce_iu (s : State) (p o : Nat) : (s.inForce p o).iu = s.iu := rfl
@[simp] theorem inForce_track (s : State) (p o : Nat) : (s.inForce p o).track = s.track := rfl
@[simp] theorem inForce_lace (s : State) (p o : Nat) : (s.inForce p o).lace = s.lace := rfl
@[simp] theorem inForce_ptp (s : State) (p o : Nat) : (s.inForce p o).ptp = s.ptp := rfl
@[simp] theorem inForce_xbr (s : State) (p o : Nat) : (s.inForce p o).xbr = s.xbr := rfl
@[simp] theorem inForce_slotL (s : State) (p o : Nat) : (s.inForce p o).slotL = s.slotL := rfl
@[simp] theorem inForce_scrL (s : State) (p o : Nat) : (s.inForce p o).scrL = s.scrL := rfl
@[simp] theorem inForce_memDly (s : State) (p o : Nat) : (s.inForce p o).memDly = s.memDly := rfl
@[simp] theorem inForce_trg (s : State) (p o : Nat) : (s.inForce p o).trg = s.trg := rfl
@[simp] theorem inForce_ane (s : State) (p o : Nat) : (s.inForce p o).ane = s.ane := rfl
@[simp] theorem inForce_spad (s : State) (p o : Nat) : (s.inForce p o).spad = s.spad := rfl
@[simp] theorem inForce_spadPoison (s : State) (p o : Nat) : (s.inForce p o).spadPoison = s.spadPoison := rfl
@[simp] theorem inForce_ucBytes (s : State) (p o : Nat) : (s.inForce p o).ucBytes = s.ucBytes := rfl
@[simp] theorem inForce_ucode (s : State) (p o : Nat) : (s.inForce p o).ucode = s.ucode := rfl
@[simp] theorem inForce_wq (s : State) (p o : Nat) : (s.inForce p o).wq = s.wq := rfl
@[simp] theorem inForce_wmid (s : State) (p o : Nat) : (s.inForce p o).wmid = s.wmid := rfl
@[simp] theorem inForce_wlt (s : State) (p o : Nat) : (s.inForce p o).wlt = s.wlt := rfl
@[simp] theorem inForce_wlast (s : State) (p o : Nat) : (s.inForce p o).wlast = s.wlast := rfl
@[simp] theorem inForce_wquiet (s : State) (p o : Nat) : (s.inForce p o).wquiet = s.wquiet := rfl
@[simp] theorem inForce_wftS (s : State) (p o : Nat) : (s.inForce p o).wftS = s.wftS := rfl
@[simp] theorem inForce_wftL (s : State) (p o : Nat) : (s.inForce p o).wftL = s.wftL := rfl
@[simp] theorem inForce_wftBad (s : State) (p o : Nat) : (s.inForce p o).wftBad = s.wftBad := rfl
@[simp] theorem inForce_segS (s : State) (p o : Nat) : (s.inForce p o).segS = s.segS := rfl
@[simp] theorem inForce_segL (s : State) (p o : Nat) : (s.inForce p o).segL = s.segL := rfl
@[simp] theorem inForce_ddsS (s : State) (p o : Nat) : (s.inForce p o).ddsS = s.ddsS := rfl
@[simp] theorem inForce_ddsL (s : State) (p o : Nat) : (s.inForce p o).ddsL = s.ddsL := rfl
@[simp] theorem inForce_dmapL (s : State) (p o : Nat) : (s.inForce p o).dmapL = s.dmapL := rfl
@[simp] theorem inForce_segPend (s : State) (p o : Nat) : (s.inForce p o).segPend = s.segPend := rfl
@[simp] theorem inForce_segCopy (s : State) (p o : Nat) : (s.inForce p o).segCopy = s.segCopy := rfl
@[simp] theorem inForce_res (s : State) (p o : Nat) : (s.inForce p o).res = s.res := rfl
@[simp] theorem inForce_resPoison (s : State) (p o : Nat) : (s.inForce p o).resPoison = s.resPoison := rfl
@[simp] theorem inForce_calS (s : State) (p o : Nat) : (s.inForce p o).calS = s.calS := rfl
@[simp] theorem inForce_calL (s : State) (p o : Nat) : (s.inForce p o).calL = s.calL := rfl
@[simp] theorem inForce_calT (s : State) (p o : Nat) : (s.inForce p o).calT = s.calT := rfl
@[simp] theorem inForce_calF (s : State) (p o : Nat) : (s.inForce p o).calF = s.calF := rfl
@[simp] theorem inForce_calA (s : State) (p o : Nat) : (s.inForce p o).calA = s.calA := rfl
@[simp] theorem inForce_calFac (s : State) (p o : Nat) : (s.inForce p o).calFac = s.calFac := rfl
@[simp] theorem inForce_calSFac (s : State) (p o : Nat) : (s.inForce p o).calSFac = s.calSFac := rfl
@[simp] theorem inForce_dlyFac (s : State) (p o : Nat) : (s.inForce p o).dlyFac = s.dlyFac := rfl
@[simp] theorem inForce_flash (s : State) (p o : Nat) : (s.inForce p o).flash = s.flash := rfl
@[simp] theorem inForce_boot (s : State) (p o : Nat) : (s.inForce p o).boot = s.boot := rfl
@[simp] theorem inForce_thm (s : State) (p o : Nat) : (s.inForce p o).thm = s.thm := rfl
@[simp] theorem inForce_jtag (s : State) (p o : Nat) : (s.inForce p o).jtag = s.jtag := rfl
@[simp] theorem inForce_smb (s : State) (p o : Nat) : (s.inForce p o).smb = s.smb := rfl
@[simp] theorem inForce_upset (s : State) (p o : Nat) : (s.inForce p o).upset = s.upset := rfl
@[simp] theorem inForce_parity (s : State) (p o : Nat) : (s.inForce p o).parity = s.parity := rfl

@[simp] theorem refuse_pending (s : State) (p o : Nat) : (s.refuse p o).pending = s.pending := rfl
@[simp] theorem refuse_now (s : State) (p o : Nat) : (s.refuse p o).now = s.now := rfl
@[simp] theorem refuse_tlOn (s : State) (p o : Nat) : (s.refuse p o).tlOn = s.tlOn := rfl
@[simp] theorem refuse_era (s : State) (p o : Nat) : (s.refuse p o).era = s.era := rfl
@[simp] theorem refuse_held (s : State) (p o : Nat) : (s.refuse p o).held = s.held := rfl
@[simp] theorem refuse_caps (s : State) (p o : Nat) : (s.refuse p o).caps = s.caps := rfl
@[simp] theorem refuse_out (s : State) (p o : Nat) : (s.refuse p o).out = s.out := rfl
@[simp] theorem refuse_resetting (s : State) (p o : Nat) : (s.refuse p o).resetting = s.resetting := rfl
@[simp] theorem refuse_free (s : State) (p o : Nat) : (s.refuse p o).free = s.free := rfl
@[simp] theorem refuse_flt (s : State) (p o : Nat) : (s.refuse p o).flt = s.flt := rfl
@[simp] theorem refuse_evq (s : State) (p o : Nat) : (s.refuse p o).evq = s.evq := rfl
@[simp] theorem refuse_sch (s : State) (p o : Nat) : (s.refuse p o).sch = s.sch := rfl
@[simp] theorem refuse_pci (s : State) (p o : Nat) : (s.refuse p o).pci = s.pci := rfl
@[simp] theorem refuse_hbm (s : State) (p o : Nat) : (s.refuse p o).hbm = s.hbm := rfl
@[simp] theorem refuse_groups (s : State) (p o : Nat) : (s.refuse p o).groups = s.groups := rfl
@[simp] theorem refuse_chan (s : State) (p o : Nat) : (s.refuse p o).chan = s.chan := rfl
@[simp] theorem refuse_spr (s : State) (p o : Nat) : (s.refuse p o).spr = s.spr := rfl
@[simp] theorem refuse_eye (s : State) (p o : Nat) : (s.refuse p o).eye = s.eye := rfl
@[simp] theorem refuse_site (s : State) (p o : Nat) : (s.refuse p o).site = s.site := rfl
@[simp] theorem refuse_fails (s : State) (p o : Nat) : (s.refuse p o).fails = s.fails := rfl
@[simp] theorem refuse_evtSrc (s : State) (p o : Nat) : (s.refuse p o).evtSrc = s.evtSrc := rfl
@[simp] theorem refuse_evtIn (s : State) (p o : Nat) : (s.refuse p o).evtIn = s.evtIn := rfl
@[simp] theorem refuse_dds (s : State) (p o : Nat) : (s.refuse p o).dds = s.dds := rfl
@[simp] theorem refuse_stamps (s : State) (p o : Nat) : (s.refuse p o).stamps = s.stamps := rfl
@[simp] theorem refuse_awl (s : State) (p o : Nat) : (s.refuse p o).awl = s.awl := rfl
@[simp] theorem refuse_gate (s : State) (p o : Nat) : (s.refuse p o).gate = s.gate := rfl
@[simp] theorem refuse_iu (s : State) (p o : Nat) : (s.refuse p o).iu = s.iu := rfl
@[simp] theorem refuse_track (s : State) (p o : Nat) : (s.refuse p o).track = s.track := rfl
@[simp] theorem refuse_lace (s : State) (p o : Nat) : (s.refuse p o).lace = s.lace := rfl
@[simp] theorem refuse_ptp (s : State) (p o : Nat) : (s.refuse p o).ptp = s.ptp := rfl
@[simp] theorem refuse_xbr (s : State) (p o : Nat) : (s.refuse p o).xbr = s.xbr := rfl
@[simp] theorem refuse_slotL (s : State) (p o : Nat) : (s.refuse p o).slotL = s.slotL := rfl
@[simp] theorem refuse_scrL (s : State) (p o : Nat) : (s.refuse p o).scrL = s.scrL := rfl
@[simp] theorem refuse_memDly (s : State) (p o : Nat) : (s.refuse p o).memDly = s.memDly := rfl
@[simp] theorem refuse_trg (s : State) (p o : Nat) : (s.refuse p o).trg = s.trg := rfl
@[simp] theorem refuse_ane (s : State) (p o : Nat) : (s.refuse p o).ane = s.ane := rfl
@[simp] theorem refuse_spad (s : State) (p o : Nat) : (s.refuse p o).spad = s.spad := rfl
@[simp] theorem refuse_spadPoison (s : State) (p o : Nat) : (s.refuse p o).spadPoison = s.spadPoison := rfl
@[simp] theorem refuse_ucBytes (s : State) (p o : Nat) : (s.refuse p o).ucBytes = s.ucBytes := rfl
@[simp] theorem refuse_ucode (s : State) (p o : Nat) : (s.refuse p o).ucode = s.ucode := rfl
@[simp] theorem refuse_wq (s : State) (p o : Nat) : (s.refuse p o).wq = s.wq := rfl
@[simp] theorem refuse_wmid (s : State) (p o : Nat) : (s.refuse p o).wmid = s.wmid := rfl
@[simp] theorem refuse_wlt (s : State) (p o : Nat) : (s.refuse p o).wlt = s.wlt := rfl
@[simp] theorem refuse_wlast (s : State) (p o : Nat) : (s.refuse p o).wlast = s.wlast := rfl
@[simp] theorem refuse_wquiet (s : State) (p o : Nat) : (s.refuse p o).wquiet = s.wquiet := rfl
@[simp] theorem refuse_wftS (s : State) (p o : Nat) : (s.refuse p o).wftS = s.wftS := rfl
@[simp] theorem refuse_wftL (s : State) (p o : Nat) : (s.refuse p o).wftL = s.wftL := rfl
@[simp] theorem refuse_wftBad (s : State) (p o : Nat) : (s.refuse p o).wftBad = s.wftBad := rfl
@[simp] theorem refuse_segS (s : State) (p o : Nat) : (s.refuse p o).segS = s.segS := rfl
@[simp] theorem refuse_segL (s : State) (p o : Nat) : (s.refuse p o).segL = s.segL := rfl
@[simp] theorem refuse_ddsS (s : State) (p o : Nat) : (s.refuse p o).ddsS = s.ddsS := rfl
@[simp] theorem refuse_ddsL (s : State) (p o : Nat) : (s.refuse p o).ddsL = s.ddsL := rfl
@[simp] theorem refuse_dmapL (s : State) (p o : Nat) : (s.refuse p o).dmapL = s.dmapL := rfl
@[simp] theorem refuse_segPend (s : State) (p o : Nat) : (s.refuse p o).segPend = s.segPend := rfl
@[simp] theorem refuse_segCopy (s : State) (p o : Nat) : (s.refuse p o).segCopy = s.segCopy := rfl
@[simp] theorem refuse_res (s : State) (p o : Nat) : (s.refuse p o).res = s.res := rfl
@[simp] theorem refuse_resPoison (s : State) (p o : Nat) : (s.refuse p o).resPoison = s.resPoison := rfl
@[simp] theorem refuse_calS (s : State) (p o : Nat) : (s.refuse p o).calS = s.calS := rfl
@[simp] theorem refuse_calL (s : State) (p o : Nat) : (s.refuse p o).calL = s.calL := rfl
@[simp] theorem refuse_calT (s : State) (p o : Nat) : (s.refuse p o).calT = s.calT := rfl
@[simp] theorem refuse_calF (s : State) (p o : Nat) : (s.refuse p o).calF = s.calF := rfl
@[simp] theorem refuse_calA (s : State) (p o : Nat) : (s.refuse p o).calA = s.calA := rfl
@[simp] theorem refuse_calFac (s : State) (p o : Nat) : (s.refuse p o).calFac = s.calFac := rfl
@[simp] theorem refuse_calSFac (s : State) (p o : Nat) : (s.refuse p o).calSFac = s.calSFac := rfl
@[simp] theorem refuse_dlyFac (s : State) (p o : Nat) : (s.refuse p o).dlyFac = s.dlyFac := rfl
@[simp] theorem refuse_flash (s : State) (p o : Nat) : (s.refuse p o).flash = s.flash := rfl
@[simp] theorem refuse_boot (s : State) (p o : Nat) : (s.refuse p o).boot = s.boot := rfl
@[simp] theorem refuse_thm (s : State) (p o : Nat) : (s.refuse p o).thm = s.thm := rfl
@[simp] theorem refuse_jtag (s : State) (p o : Nat) : (s.refuse p o).jtag = s.jtag := rfl
@[simp] theorem refuse_smb (s : State) (p o : Nat) : (s.refuse p o).smb = s.smb := rfl
@[simp] theorem refuse_upset (s : State) (p o : Nat) : (s.refuse p o).upset = s.upset := rfl
@[simp] theorem refuse_parity (s : State) (p o : Nat) : (s.refuse p o).parity = s.parity := rfl

end State

end Sys2Proof.Machine
end

