-- ==== Sys2Proof/Laws/Table.lean ====
section
/-!
SUPPORT. Laws of the sparse tables: a read after a write, and the canonical form.
-/
namespace Sys2Proof.Machine

open Sys2Proof

variable {α : Type}

@[simp] theorem tabFind_nil (i : Nat) : tabFind ([] : Tab α) i = none := rfl
@[simp] theorem tabGet_nil (d : α) (i : Nat) : tabGet d [] i = d := rfl

theorem tabFind_erase (m : Tab α) (i j : Nat) : tabFind (tabErase m i) j = if i = j then none else tabFind m j := by
  induction m with
  | nil => simp [tabErase]
  | cons p m ih =>
    obtain ⟨k, v⟩ := p
    by_cases hk : k = i
    · subst hk
      simp only [tabErase, if_true, ih, tabFind]
      split <;> simp_all
    · simp only [tabErase, hk, if_false, tabFind, ih]
      split <;> split <;> simp_all

theorem tabFind_insert (m : Tab α) (i j : Nat) (v : α) (h : tabFind m i = none) :
    tabFind (tabInsert m i v) j = if i = j then some v else tabFind m j := by
  induction m with
  | nil => simp [tabInsert, tabFind]
  | cons p m ih =>
    obtain ⟨k, w⟩ := p
    simp only [tabFind] at h
    by_cases hk : k = i
    · simp [hk] at h
    · simp only [hk, if_false] at h
      simp only [tabInsert]
      split
      · simp [tabFind]
      · simp only [tabFind, ih h]
        split <;> split <;> simp_all

/-- A read after a write: the key written reads the value, every other key reads as before. -/
theorem tabGet_put [DecidableEq α] (d e : α) (m : Tab α) (i j : Nat) (v : α) (h : i = j → d = e) :
    tabGet e (tabPut d m i v) j = if i = j then v else tabGet e m j := by
  unfold tabGet tabPut
  by_cases hv : v = d
  · simp only [hv, if_true, tabFind_erase]
    split <;> simp_all
  · simp only [hv, if_false]
    rw [tabFind_insert _ _ _ _ (by simp [tabFind_erase])]
    simp only [tabFind_erase]
    split <;> simp

@[simp] theorem tabGet_put_same [DecidableEq α] (d : α) (m : Tab α) (i : Nat) (v : α) :
    tabGet d (tabPut d m i v) i = v := by simp [tabGet_put]

theorem tabGet_put_other [DecidableEq α] (d e : α) (m : Tab α) (i j : Nat) (v : α) (h : i ≠ j) :
    tabGet e (tabPut d m i v) j = tabGet e m j := by
  rw [tabGet_put _ _ _ _ _ _ (fun x => absurd x h), if_neg h]

/-! ## The canonical form -/

/-- Every key of a table lies above `k`. -/
theorem tabSorted_cons (k : Nat) (v : α) (m : Tab α) :
    tabSorted ((k, v) :: m) = true ↔ (∀ p ∈ m, k < p.1) ∧ tabSorted m = true := by
  induction m generalizing k v with
  | nil => simp [tabSorted]
  | cons p m ih =>
    obtain ⟨k', v'⟩ := p
    simp only [tabSorted, Bool.and_eq_true, decide_eq_true_eq, List.mem_cons, forall_eq_or_imp]
    constructor
    · rintro ⟨h1, h2⟩
      exact ⟨⟨h1, fun p hp => lt_trans h1 (((ih k' v').1 h2).1 p hp)⟩, h2⟩
    · rintro ⟨⟨h1, _⟩, h2⟩
      exact ⟨h1, h2⟩

theorem mem_tabErase (m : Tab α) (i : Nat) (p : Nat × α) : p ∈ tabErase m i ↔ p ∈ m ∧ p.1 ≠ i := by
  induction m with
  | nil => simp [tabErase]
  | cons q m ih =>
    obtain ⟨k, v⟩ := q
    simp only [tabErase]
    split
    · subst_vars; rw [ih]; constructor
      · rintro ⟨h1, h2⟩; exact ⟨List.mem_cons_of_mem _ h1, h2⟩
      · rintro ⟨h1, h2⟩
        rcases List.mem_cons.1 h1 with rfl | h
        · exact absurd rfl h2
        · exact ⟨h, h2⟩
    · rename_i hk
      simp only [List.mem_cons, ih]
      constructor
      · rintro (rfl | ⟨h1, h2⟩)
        · exact ⟨Or.inl rfl, hk⟩
        · exact ⟨Or.inr h1, h2⟩
      · rintro ⟨rfl | h1, h2⟩
        · exact Or.inl rfl
        · exact Or.inr ⟨h1, h2⟩

theorem tabErase_sorted (m : Tab α) (i : Nat) (h : tabSorted m = true) : tabSorted (tabErase m i) = true := by
  induction m with
  | nil => rfl
  | cons q m ih =>
    obtain ⟨k, v⟩ := q
    rw [tabSorted_cons] at h
    simp only [tabErase]
    split
    · exact ih h.2
    · exact (tabSorted_cons _ _ _).2 ⟨fun p hp => h.1 p ((mem_tabErase _ _ _).1 hp).1, ih h.2⟩

theorem mem_tabInsert (m : Tab α) (i : Nat) (v : α) (p : Nat × α) (h : p ∈ tabInsert m i v) : p = (i, v) ∨ p ∈ m := by
  induction m with
  | nil => simpa [tabInsert] using h
  | cons q m ih =>
    simp only [tabInsert] at h
    split at h
    · simpa using h
    · rcases List.mem_cons.1 h with rfl | h
      · exact Or.inr (List.mem_cons_self ..)
      · exact (ih h).imp id (List.mem_cons_of_mem _)

theorem tabInsert_sorted (m : Tab α) (i : Nat) (v : α) (h : tabSorted m = true) (hi : ∀ p ∈ m, p.1 ≠ i) :
    tabSorted (tabInsert m i v) = true := by
  induction m with
  | nil => rfl
  | cons q m ih =>
    obtain ⟨k, w⟩ := q
    have h' := (tabSorted_cons _ _ _).1 h
    simp only [tabInsert]
    split
    · rename_i hk
      refine (tabSorted_cons _ _ _).2 ⟨fun p hp => ?_, h⟩
      rcases List.mem_cons.1 hp with rfl | hp
      · exact hk
      · exact lt_trans hk (h'.1 p hp)
    · rename_i hk
      have hne := hi (k, w) (List.mem_cons_self ..)
      refine (tabSorted_cons _ _ _).2 ⟨fun p hp => ?_, ih h'.2 (fun p hp => hi p (List.mem_cons_of_mem _ hp))⟩
      rcases mem_tabInsert _ _ _ _ hp with rfl | hp
      · exact lt_of_le_of_ne (not_lt.1 hk) hne
      · exact h'.1 p hp

/-- A write keeps the canonical form. -/
theorem tabPut_wf [DecidableEq α] (d : Nat → α) (m : Tab α) (i : Nat) (v : α) (h : tabWf d m = true) :
    tabWf d (tabPut (d i) m i v) = true := by
  simp only [tabWf, Bool.and_eq_true, List.all_eq_true, decide_eq_true_eq] at *
  unfold tabPut
  split
  · exact ⟨tabErase_sorted _ _ h.1, fun p hp => h.2 p ((mem_tabErase _ _ _).1 hp).1⟩
  · rename_i hv
    refine ⟨tabInsert_sorted _ _ _ (tabErase_sorted _ _ h.1) (fun p hp => ((mem_tabErase _ _ _).1 hp).2), ?_⟩
    intro p hp
    rcases mem_tabInsert _ _ _ _ hp with rfl | hp
    · exact hv
    · exact h.2 p ((mem_tabErase _ _ _).1 hp).1

/-- Bytes written one after another keep the canonical form of memory. -/
theorem Memory.foldl_put_wf {β : Type} (f : β → Nat) (g : β → Byte) (l : List β) (m : List Host.Cell)
    (h : Memory.wf m = true) : Memory.wf (l.foldl (fun m x => tabPut 0 m (f x) (g x)) m) = true := by
  induction l generalizing m with
  | nil => exact h
  | cons a l ih => exact ih _ (tabPut_wf (fun _ => 0) _ _ _ h)

theorem Memory.copyAccess_wf (m : List Host.Cell) (a b : Nat) (h : Memory.wf m = true) :
    Memory.wf (Memory.copyAccess m a b) = true := Memory.foldl_put_wf _ _ _ _ h

end Sys2Proof.Machine
end

