-- ==== Sys2Proof/Laws/Regs.lean ====
section
/-!
SUPPORT. Laws of the register file: a read of a register or a field after a write of a register or a field.
-/
namespace Sys2Proof.Machine

open Sys2Proof

namespace State

theorem rd_wr (s : State) (p o q a : Nat) (v : W32) (h : rkey p o = rkey q a → resetWord p o = resetWord q a) :
    (s.wr p o v).rd q a = if rkey p o = rkey q a then v else s.rd q a := by
  unfold rd wr
  exact tabGet_put _ _ _ _ _ _ h

@[simp] theorem rd_wr_same (s : State) (p o : Nat) (v : W32) : (s.wr p o v).rd p o = v := by
  simp [rd, wr]

theorem rd_wr_other (s : State) (p o q a : Nat) (v : W32) (h : rkey p o ≠ rkey q a) : (s.wr p o v).rd q a = s.rd q a := by
  unfold rd wr
  exact tabGet_put_other _ _ _ _ _ _ h

theorem rkey_ofs {p o a : Nat} (h : o ≠ a) : rkey p o ≠ rkey p a := by unfold rkey; omega

theorem rkey_page {p q o a : Nat} (ho : o < 4096) (ha : a < 4096) (h : p ≠ q) : rkey p o ≠ rkey q a := by
  unfold rkey; omega

/-- Another register of the same page. -/
@[simp] theorem rd_wr_ofs (s : State) (p o a : Nat) (v : W32) (h : o ≠ a) : (s.wr p o v).rd p a = s.rd p a :=
  rd_wr_other _ _ _ _ _ _ (rkey_ofs h)

theorem rd_set_other (s : State) (p q a : Nat) (f : Fld) (v : Nat) (h : rkey p f.ofs ≠ rkey q a) :
    (s.set p f v).rd q a = s.rd q a := rd_wr_other _ _ _ _ _ _ h

@[simp] theorem rd_set_ofs (s : State) (p a : Nat) (f : Fld) (v : Nat) (h : f.ofs ≠ a) :
    (s.set p f v).rd p a = s.rd p a := rd_wr_ofs _ _ _ _ _ h

theorem rd_put_other (s : State) (p q a : Nat) (f : Fld) (b : Bool) (h : rkey p f.ofs ≠ rkey q a) :
    (s.put p f b).rd q a = s.rd q a := rd_wr_other _ _ _ _ _ _ h

@[simp] theorem rd_put_ofs (s : State) (p a : Nat) (f : Fld) (b : Bool) (h : f.ofs ≠ a) :
    (s.put p f b).rd p a = s.rd p a := rd_wr_ofs _ _ _ _ _ h

end State

theorem getLsbD_fieldMask (hi lo i : Nat) (h : hi < 32) (hl : lo ≤ hi) :
    (fieldMask hi lo).getLsbD i = (decide (lo ≤ i) && decide (i ≤ hi)) := by
  unfold fieldMask
  simp only [BitVec.getLsbD_shiftLeft, BitVec.getLsbD_ushiftRight, BitVec.getLsbD_allOnes]
  rw [Bool.eq_iff_iff]
  simp only [Bool.and_eq_true, Bool.not_eq_true', decide_eq_true_eq, decide_eq_false_iff_not]
  omega

/-- A field read after it is set: the value, cut to the field's width. -/
theorem fget_fset_same (w : W32) (hi lo v : Nat) (h : hi < 32) (hl : lo ≤ hi) :
    fget (fset w hi lo v) hi lo = v % 2 ^ (hi + 1 - lo) := by
  apply Nat.eq_of_testBit_eq
  intro i
  unfold fget fset
  rw [BitVec.testBit_toNat, Nat.testBit_mod_two_pow]
  simp only [BitVec.getLsbD_and, BitVec.getLsbD_or, BitVec.getLsbD_not, BitVec.getLsbD_ushiftRight,
    BitVec.getLsbD_shiftLeft, BitVec.getLsbD_allOnes, BitVec.getLsbD_ofNat, getLsbD_fieldMask _ _ _ h hl]
  by_cases h1 : i < hi + 1 - lo
  · have e1 : lo + i < 32 := by omega
    have e2 : lo ≤ lo + i := by omega
    have e3 : lo + i ≤ hi := by omega
    have e4 : 31 - (hi - lo) + i < 32 := by omega
    have e5 : i < 32 := by omega
    have e6 : ¬ lo + i < lo := by omega
    simp [h1, e1, e2, e3, e4, e5, e6]
  · have e4 : ¬ 31 - (hi - lo) + i < 32 := by omega
    simp [h1, e4]

/-- A field read after a field of other bits is set. -/
theorem fget_fset_other (w : W32) (hi lo hi' lo' v : Nat) (h : hi < 32) (hl : lo ≤ hi) (h' : hi' < 32) (hl' : lo' ≤ hi')
    (hd : hi < lo' ∨ hi' < lo) : fget (fset w hi lo v) hi' lo' = fget w hi' lo' := by
  apply Nat.eq_of_testBit_eq
  intro i
  unfold fget fset
  rw [BitVec.testBit_toNat, BitVec.testBit_toNat]
  simp only [BitVec.getLsbD_and, BitVec.getLsbD_or, BitVec.getLsbD_not, BitVec.getLsbD_ushiftRight,
    BitVec.getLsbD_shiftLeft, BitVec.getLsbD_allOnes, BitVec.getLsbD_ofNat, getLsbD_fieldMask _ _ _ h hl]
  by_cases h1 : i < hi' + 1 - lo'
  · have e3 : (decide (lo ≤ lo' + i) && decide (lo' + i ≤ hi)) = false := by
      rcases hd with hd | hd <;> simp <;> omega
    have e1 : lo' + i < 32 := by omega
    simp [e3, e1]
  · have e4 : ¬ 31 - (hi' - lo') + i < 32 := by omega
    simp [e4]

/-- Reserved and other bits of a word whose field is set keep their values. -/
theorem getLsbD_fset_other (w : W32) (hi lo v i : Nat) (h : hi < 32) (hl : lo ≤ hi) (hd : i < lo ∨ hi < i) :
    (fset w hi lo v).getLsbD i = w.getLsbD i := by
  unfold fset
  have e3 : (decide (lo ≤ i) && decide (i ≤ hi)) = false := by
    rcases hd with hd | hd <;> simp <;> omega
  simp only [BitVec.getLsbD_and, BitVec.getLsbD_or, BitVec.getLsbD_not, getLsbD_fieldMask _ _ _ h hl, e3]
  by_cases hi32 : i < 32
  · simp [hi32]
  · simp [BitVec.getLsbD_of_ge w i (by omega), hi32]

namespace State

theorem get_set_same (s : State) (p : Nat) (f : Fld) (v : Nat) (h : f.hi < 32) (hl : f.lo ≤ f.hi) :
    (s.set p f v).get p f = v % 2 ^ (f.hi + 1 - f.lo) := by
  unfold get set
  rw [rd_wr_same]
  exact fget_fset_same _ _ _ _ h hl

theorem flag_put_same (s : State) (p : Nat) (f : Fld) (b : Bool) (h : f.hi < 32) (hl : f.lo = f.hi) :
    (s.put p f b).flag p f = b := by
  unfold flag put
  rw [get_set_same _ _ _ _ h (by omega), hl]
  cases b <;> simp [b2n]

theorem get_wr_ofs (s : State) (p o : Nat) (f : Fld) (v : W32) (h : o ≠ f.ofs) : (s.wr p o v).get p f = s.get p f := by
  unfold get; rw [rd_wr_ofs _ _ _ _ _ h]

theorem get_set_ofs (s : State) (p : Nat) (f g : Fld) (v : Nat) (h : f.ofs ≠ g.ofs) :
    (s.set p f v).get p g = s.get p g := get_wr_ofs _ _ _ _ _ h

theorem get_set_other (s : State) (p q : Nat) (f g : Fld) (v : Nat) (h : rkey p f.ofs ≠ rkey q g.ofs) :
    (s.set p f v).get q g = s.get q g := by unfold get; rw [rd_set_other _ _ _ _ _ _ h]

theorem flag_put_ofs (s : State) (p : Nat) (f g : Fld) (b : Bool) (h : f.ofs ≠ g.ofs) :
    (s.put p f b).flag p g = s.flag p g := by unfold flag put; rw [get_set_ofs _ _ _ _ _ h]

/-- Another field of the same register. -/
theorem get_set_bits (s : State) (p : Nat) (f g : Fld) (v : Nat) (ho : f.ofs = g.ofs) (h : f.hi < 32) (hl : f.lo ≤ f.hi)
    (h' : g.hi < 32) (hl' : g.lo ≤ g.hi) (hd : f.hi < g.lo ∨ g.hi < f.lo) : (s.set p f v).get p g = s.get p g := by
  unfold get set
  rw [← ho, rd_wr_same]
  exact fget_fset_other _ _ _ _ _ _ h hl h' hl' hd

end State

end Sys2Proof.Machine
end

