-- ==== Sys2Proof/Laws/Does.lean ====
section
/-!
SUPPORT. How the effect of a command is shown: from the one call that its arm makes.
-/
namespace Sys2Proof

open Sys2Proof.Machine

/-- A command whose meaning is `done u` has the effect `u`. -/
theorem Does.of {c : Instr} {s u t : State} (h : exec c s = done u) (e : u = t) : Does c s t := by
  subst e; exact h

/-- The effect of a command is one state: its meaning is `done` of it. -/
theorem Does.next {c : Instr} {s t : State} (h : Does c s t) : exec c s = .next t.settle := h

namespace Machine.State

/-- A block reset that waits for no boundary leaves the state alone. -/
theorem resetsDue_none (s : State) (h : s.flt.resetDue = []) : s.resetsDue = s := by
  have e : { s with flt := { s.flt with resetDue := [] } } = s := by rw [← h]
  simp only [resetsDue, h, List.filter_nil, List.foldl_nil, e]

/-- Where nothing has risen, no orderly stop is in progress and no block reset waits, the collector changes nothing. -/
theorem settle_quiet (s : State) (hr : s.flt.rises = []) (hq : Quiet s) : s.settle = s := by
  simp [settle, stopCheck, hq.1, resetsDue_none s hq.2, riseRounds, hr]

@[simp] theorem onLink_on (s : State) (read : Bool) (f : State → State) (h : s.offLink = false) :
    s.onLink read f = f s := by simp [onLink, h]

@[simp] theorem offReset_out (s : State) (p : Nat) (f : State → State) (h : s.resetting.contains p = false) :
    s.offReset p f = f s := by unfold offReset; rw [h]; rfl

/-- A host write that reaches its page. -/
theorem onPage_reaches (s : State) (p : Nat) (f : State → State) (h : Reaches s p) : s.onPage p f = f s := by
  unfold onPage; rw [onLink_on _ _ _ h.1, if_pos h.2.2, offReset_out _ _ _ h.2.1]

/-- A host write to a page that does not answer is dropped. -/
theorem onPage_silent (s : State) (p : Nat) (f : State → State) (h : s.offLink = false) (ha : s.answers p = false) :
    s.onPage p f = s := by
  unfold onPage; rw [onLink_on _ _ _ h, if_neg (by simp [ha])]

/-- A host read that reaches its page. -/
theorem readPage_on (s : State) (p : Nat) (f : State → State × W32) (h : Readable s p) :
    s.readPage p f = (f s).1.answer (f s).2 := by
  unfold readPage hostRead; rw [onLink_on _ _ _ h.1]; simp only [h.2, if_true]

/-- A host read of a page that does not answer reads 0. -/
theorem readPage_silent (s : State) (p : Nat) (f : State → State × W32) (h : s.offLink = false) (ha : s.answers p = false) :
    s.readPage p f = s.answer 0 := by
  unfold readPage hostRead; rw [onLink_on _ _ _ h]; simp [ha]

theorem hostRead_on (s : State) (f : State → State × W32) (h : s.offLink = false) :
    s.hostRead f = (f s).1.answer (f s).2 := by unfold hostRead; rw [onLink_on _ _ _ h]

end Machine.State

end Sys2Proof
end

