-- ==== Sys2Proof/Laws/Keeps.lean ====
section
/-!
SUPPORT. What every operation of the model keeps: the queue of commands, the bound on the fault log (R418), and the
canonical form of HBM; operations that store nothing to HBM keep each of its bytes. The files Keeps1 to Keeps6 hold one
lemma per operation.
-/
namespace Sys2Proof.Machine

open Sys2Proof

/-- What every operation keeps of the state `r` it comes from: the queue of commands, the bound on the fault log, and
the canonical form of HBM; with `w` false, every byte of HBM. -/
def Keeps (w : Bool) (r s : State) : Prop :=
  s.pending = r.pending ∧ (r.flt.log.length ≤ 512 → s.flt.log.length ≤ 512) ∧
    (Memory.wf r.hbm.bytes → Memory.wf s.hbm.bytes) ∧ (w = false → s.hbm.bytes = r.hbm.bytes)

theorem keeps_refl (w : Bool) (s : State) : Keeps w s s := ⟨rfl, id, id, fun _ => rfl⟩

theorem keeps_mk {w : Bool} {r s : State} {hb : HbmDyn} {fl : FltDyn} {x_now x_tlOn x_era x_regs x_held x_caps x_out
    x_resetting x_free x_evq x_sch x_pci x_groups x_chan x_spr x_eye x_site x_fails x_evtSrc x_evtIn x_dds x_stamps
    x_awl x_gate x_iu x_track x_lace x_ptp x_xbr x_slotL x_scrL x_memDly x_trg x_ane x_spad x_spadPoison x_ucBytes
    x_ucode x_wq x_wmid x_wlt x_wlast x_wquiet x_wftS x_wftL x_wftBad x_segS x_segL x_ddsS x_ddsL x_dmapL x_segPend
    x_segCopy x_res x_resPoison x_calS x_calL x_calT x_calF x_calA x_calFac x_calSFac x_dlyFac x_flash x_boot x_thm
    x_jtag x_smb x_upset x_parity} (h : Keeps w r s) (hm : hb.bytes = s.hbm.bytes) (hl : fl.log = s.flt.log) : Keeps
    w r (State.mk s.pending x_now x_tlOn x_era x_regs x_held x_caps x_out x_resetting x_free fl x_evq x_sch x_pci hb
    x_groups x_chan x_spr x_eye x_site x_fails x_evtSrc x_evtIn x_dds x_stamps x_awl x_gate x_iu x_track x_lace
    x_ptp x_xbr x_slotL x_scrL x_memDly x_trg x_ane x_spad x_spadPoison x_ucBytes x_ucode x_wq x_wmid x_wlt x_wlast
    x_wquiet x_wftS x_wftL x_wftBad x_segS x_segL x_ddsS x_ddsL x_dmapL x_segPend x_segCopy x_res x_resPoison x_calS
    x_calL x_calT x_calF x_calA x_calFac x_calSFac x_dlyFac x_flash x_boot x_thm x_jtag x_smb x_upset x_parity) :=
    by
  unfold Keeps at *; simp only [hm, hl]; exact h

theorem keeps_mk_log {w : Bool} {r s : State} {hb : HbmDyn} {fl : FltDyn} {x_now x_tlOn x_era x_regs x_held x_caps
    x_out x_resetting x_free x_evq x_sch x_pci x_groups x_chan x_spr x_eye x_site x_fails x_evtSrc x_evtIn x_dds
    x_stamps x_awl x_gate x_iu x_track x_lace x_ptp x_xbr x_slotL x_scrL x_memDly x_trg x_ane x_spad x_spadPoison
    x_ucBytes x_ucode x_wq x_wmid x_wlt x_wlast x_wquiet x_wftS x_wftL x_wftBad x_segS x_segL x_ddsS x_ddsL x_dmapL
    x_segPend x_segCopy x_res x_resPoison x_calS x_calL x_calT x_calF x_calA x_calFac x_calSFac x_dlyFac x_flash
    x_boot x_thm x_jtag x_smb x_upset x_parity} (h : Keeps w r s) (hm : hb.bytes = s.hbm.bytes) (hl :
    s.flt.log.length ≤ 512 → fl.log.length ≤ 512) : Keeps w r (State.mk s.pending x_now x_tlOn x_era x_regs x_held
    x_caps x_out x_resetting x_free fl x_evq x_sch x_pci hb x_groups x_chan x_spr x_eye x_site x_fails x_evtSrc
    x_evtIn x_dds x_stamps x_awl x_gate x_iu x_track x_lace x_ptp x_xbr x_slotL x_scrL x_memDly x_trg x_ane x_spad
    x_spadPoison x_ucBytes x_ucode x_wq x_wmid x_wlt x_wlast x_wquiet x_wftS x_wftL x_wftBad x_segS x_segL x_ddsS
    x_ddsL x_dmapL x_segPend x_segCopy x_res x_resPoison x_calS x_calL x_calT x_calF x_calA x_calFac x_calSFac
    x_dlyFac x_flash x_boot x_thm x_jtag x_smb x_upset x_parity) := by
  unfold Keeps at *; simp only [hm]; exact ⟨h.1, fun x => hl (h.2.1 x), h.2.2⟩

theorem keeps_mk_wf {r s : State} {hb : HbmDyn} {fl : FltDyn} {x_now x_tlOn x_era x_regs x_held x_caps x_out
    x_resetting x_free x_evq x_sch x_pci x_groups x_chan x_spr x_eye x_site x_fails x_evtSrc x_evtIn x_dds x_stamps
    x_awl x_gate x_iu x_track x_lace x_ptp x_xbr x_slotL x_scrL x_memDly x_trg x_ane x_spad x_spadPoison x_ucBytes
    x_ucode x_wq x_wmid x_wlt x_wlast x_wquiet x_wftS x_wftL x_wftBad x_segS x_segL x_ddsS x_ddsL x_dmapL x_segPend
    x_segCopy x_res x_resPoison x_calS x_calL x_calT x_calF x_calA x_calFac x_calSFac x_dlyFac x_flash x_boot x_thm
    x_jtag x_smb x_upset x_parity} (h : Keeps true r s) (hm : Memory.wf s.hbm.bytes → Memory.wf hb.bytes) (hl :
    fl.log = s.flt.log) : Keeps true r (State.mk s.pending x_now x_tlOn x_era x_regs x_held x_caps x_out x_resetting
    x_free fl x_evq x_sch x_pci hb x_groups x_chan x_spr x_eye x_site x_fails x_evtSrc x_evtIn x_dds x_stamps x_awl
    x_gate x_iu x_track x_lace x_ptp x_xbr x_slotL x_scrL x_memDly x_trg x_ane x_spad x_spadPoison x_ucBytes x_ucode
    x_wq x_wmid x_wlt x_wlast x_wquiet x_wftS x_wftL x_wftBad x_segS x_segL x_ddsS x_ddsL x_dmapL x_segPend
    x_segCopy x_res x_resPoison x_calS x_calL x_calT x_calF x_calA x_calFac x_calSFac x_dlyFac x_flash x_boot x_thm
    x_jtag x_smb x_upset x_parity) := by
  unfold Keeps at *; simp only [hl]; exact ⟨h.1, h.2.1, fun x => hm (h.2.2.1 x), fun e => nomatch e⟩

theorem keeps_mk_new {r s : State} {hb : HbmDyn} {fl : FltDyn} {x_now x_tlOn x_era x_regs x_held x_caps x_out
    x_resetting x_free x_evq x_sch x_pci x_groups x_chan x_spr x_eye x_site x_fails x_evtSrc x_evtIn x_dds x_stamps
    x_awl x_gate x_iu x_track x_lace x_ptp x_xbr x_slotL x_scrL x_memDly x_trg x_ane x_spad x_spadPoison x_ucBytes
    x_ucode x_wq x_wmid x_wlt x_wlast x_wquiet x_wftS x_wftL x_wftBad x_segS x_segL x_ddsS x_ddsL x_dmapL x_segPend
    x_segCopy x_res x_resPoison x_calS x_calL x_calT x_calF x_calA x_calFac x_calSFac x_dlyFac x_flash x_boot x_thm
    x_jtag x_smb x_upset x_parity} (h : Keeps true r s) (hm : hb.bytes = []) (hl : fl.log = []) : Keeps true r
    (State.mk s.pending x_now x_tlOn x_era x_regs x_held x_caps x_out x_resetting x_free fl x_evq x_sch x_pci hb
    x_groups x_chan x_spr x_eye x_site x_fails x_evtSrc x_evtIn x_dds x_stamps x_awl x_gate x_iu x_track x_lace
    x_ptp x_xbr x_slotL x_scrL x_memDly x_trg x_ane x_spad x_spadPoison x_ucBytes x_ucode x_wq x_wmid x_wlt x_wlast
    x_wquiet x_wftS x_wftL x_wftBad x_segS x_segL x_ddsS x_ddsL x_dmapL x_segPend x_segCopy x_res x_resPoison x_calS
    x_calL x_calT x_calF x_calA x_calFac x_calSFac x_dlyFac x_flash x_boot x_thm x_jtag x_smb x_upset x_parity) :=
    by
  unfold Keeps at *; simp only [hl, hm]
  exact ⟨h.1, fun _ => Nat.zero_le _, fun _ => rfl, fun e => nomatch e⟩

theorem keeps_ite {w : Bool} {r a b : State} {c : Prop} [Decidable c] (h1 : Keeps w r a) (h2 : Keeps w r b) :
    Keeps w r (if c then a else b) := by
  split <;> assumption

theorem keeps_ite_fst {α : Type} {w : Bool} {r : State} {a b : State × α} {c : Prop} [Decidable c]
    (h1 : Keeps w r a.1) (h2 : Keeps w r b.1) : Keeps w r (if c then a else b).1 := by
  split <;> assumption

theorem keeps_ite_snd {α : Type} {w : Bool} {r : State} {a b : α × State} {c : Prop} [Decidable c]
    (h1 : Keeps w r a.2) (h2 : Keeps w r b.2) : Keeps w r (if c then a else b).2 := by
  split <;> assumption

theorem keeps_ite_mid {α β : Type} {w : Bool} {r : State} {a b : α × State × β} {c : Prop} [Decidable c]
    (h1 : Keeps w r a.2.1) (h2 : Keeps w r b.2.1) : Keeps w r (if c then a else b).2.1 := by
  split <;> assumption

theorem keeps_foldl {α : Type} {w : Bool} {r s : State} {f : State → α → State} {l : List α}
    (hf : ∀ t a, Keeps w r t → Keeps w r (f t a)) (h : Keeps w r s) : Keeps w r (l.foldl f s) := by
  induction l generalizing s with
  | nil => exact h
  | cons a l ih => exact ih (hf _ _ h)

theorem keeps_foldl_fst {α β : Type} {w : Bool} {r : State} {p : State × β} {f : State × β → α → State × β}
    {l : List α} (hf : ∀ t a, Keeps w r t.1 → Keeps w r (f t a).1) (h : Keeps w r p.1) :
    Keeps w r (l.foldl f p).1 := by
  induction l generalizing p with
  | nil => exact h
  | cons a l ih => exact ih (hf _ _ h)

end Sys2Proof.Machine
end

