-- ==== Sys2Proof/Laws/Keeps1.lean ====
section
/-!
SUPPORT. What each operation keeps (Laws/Keeps.lean), 1 of 6; operations come after those that they use.
-/
namespace Sys2Proof.Machine

open Sys2Proof

theorem keeps_wr {w : Bool} {r : State} : ∀ s a1 a2 a3, Keeps w r s → Keeps w r (State.wr s a1 a2 a3) := by
  intros; unfold State.wr; try dsimp only
  repeat' with_reducible
   (first
    | intro x | assumption | refine keeps_mk ?_ rfl rfl)

theorem keeps_set {w : Bool} {r : State} : ∀ s a1 a2 a3, Keeps w r s → Keeps w r (State.set s a1 a2 a3) := by
  intros; unfold State.set; try dsimp only
  repeat' with_reducible
   (first
    | intro x | assumption | apply keeps_wr)

theorem keeps_put {w : Bool} {r : State} : ∀ s a1 a2 a3, Keeps w r s → Keeps w r (State.put s a1 a2 a3) := by
  intros; unfold State.put; try dsimp only
  repeat' with_reducible
   (first
    | intro x | assumption | apply keeps_set)

theorem keeps_bump {w : Bool} {r : State} : ∀ s a1 a2 a3, Keeps w r s → Keeps w r (State.bump s a1 a2 a3) := by
  intros; unfold State.bump; try dsimp only
  repeat' with_reducible
   (first
    | intro x | assumption | apply keeps_set)

theorem keeps_set64 {w : Bool} {r : State} : ∀ s a1 a2 a3 a4, Keeps w r s → Keeps w r (State.set64 s a1 a2 a3 a4) :=
    by
  intros; unfold State.set64; try dsimp only
  repeat' with_reducible
   (first
    | intro x | assumption | apply keeps_set)

theorem keeps_refuse {w : Bool} {r : State} : ∀ s a1 a2, Keeps w r s → Keeps w r (State.refuse s a1 a2) := by
  intros; unfold State.refuse; try dsimp only
  repeat' with_reducible
   (first
    | intro x | assumption | apply keeps_put | apply keeps_set)

theorem keeps_inForce {w : Bool} {r : State} : ∀ s a1 a2, Keeps w r s → Keeps w r (State.inForce s a1 a2) := by
  intros; unfold State.inForce; try dsimp only
  repeat' with_reducible
   (first
    | intro x | assumption | refine keeps_mk ?_ rfl rfl)

theorem keeps_inForceRange {w : Bool} {r : State} : ∀ s a1 a2 a3, Keeps w r s → Keeps w r (State.inForceRange s a1
    a2 a3) := by
  intros; unfold State.inForceRange; try dsimp only
  repeat' with_reducible
   (first
    | intro x | assumption | refine keeps_mk ?_ rfl rfl)

theorem keeps_setRW {w : Bool} {r : State} : ∀ s a1 a2 a3, Keeps w r s → Keeps w r (State.setRW s a1 a2 a3) := by
  intros; unfold State.setRW; try dsimp only
  repeat' with_reducible
   (first
    | intro x | assumption | apply keeps_wr | apply keeps_inForce | apply keeps_ite | refine keeps_mk ?_ rfl rfl)

theorem keeps_regWrite {w : Bool} {r : State} : ∀ s a1 a2 a3 a4 a5 a6, Keeps w r s → Keeps w r (regWrite s a1 a2 a3
    a4 a5 a6).1 := by
  intros; unfold regWrite; try dsimp only
  repeat' with_reducible
   (first
    | intro x | assumption | apply keeps_wr | apply keeps_refuse | apply keeps_setRW | apply keeps_ite
    | apply keeps_ite_fst)

theorem keeps_writeAt {w : Bool} {r : State} : ∀ s a1 a2 a3 a4, Keeps w r s → Keeps w r (writeAt s a1 a2 a3 a4).1 :=
    by
  intros; unfold writeAt; try dsimp only
  repeat' with_reducible
   (first
    | intro x | assumption | apply keeps_regWrite | split)

theorem keeps_upTo {w : Bool} {r : State} : ∀ s a1, Keeps w r s → Keeps w r (State.upTo s a1) := by
  intros; unfold State.upTo; try dsimp only
  repeat' with_reducible
   (first
    | intro x | assumption | apply keeps_ite | refine keeps_mk ?_ rfl rfl)

theorem keeps_upToMono {w : Bool} {r : State} : ∀ s a1, Keeps w r s → Keeps w r (State.upToMono s a1) := by
  intros; unfold State.upToMono; try dsimp only
  repeat' with_reducible
   (first
    | intro x | assumption | apply keeps_upTo)

theorem keeps_upToQ {w : Bool} {r : State} : ∀ s a1 a2, Keeps w r s → Keeps w r (State.upToQ s a1 a2) := by
  intros; unfold State.upToQ; try dsimp only
  repeat' with_reducible
   (first
    | intro x | assumption | apply keeps_upTo)

theorem keeps_parityErr {w : Bool} {r : State} : ∀ s a1 a2, Keeps w r s → Keeps w r (State.parityErr s a1 a2) := by
  intros; unfold State.parityErr; try dsimp only
  repeat' with_reducible
   (first
    | intro x | assumption | refine keeps_mk ?_ rfl rfl)

theorem keeps_emit {w : Bool} {r : State} : ∀ s a1, Keeps w r s → Keeps w r (State.emit s a1) := by
  intros; unfold State.emit; try dsimp only
  repeat' with_reducible
   (first
    | intro x | assumption | refine keeps_mk ?_ rfl rfl)

theorem keeps_fresh {w : Bool} {r : State} : ∀ s, Keeps w r s → Keeps w r (State.fresh s).2 := by
  intros; unfold State.fresh; try dsimp only
  repeat' with_reducible
   (first
    | intro x | assumption | refine keeps_mk ?_ rfl rfl)

theorem keeps_msi {w : Bool} {r : State} : ∀ s a1, Keeps w r s → Keeps w r (State.msi s a1) := by
  intros; unfold State.msi; try dsimp only
  repeat' with_reducible
   (first
    | intro x | assumption | apply keeps_emit | apply keeps_ite | refine keeps_mk ?_ rfl rfl)

theorem keeps_msiFlush {w : Bool} {r : State} : ∀ s, Keeps w r s → Keeps w r (State.msiFlush s) := by
  intros; unfold State.msiFlush; try dsimp only
  repeat' with_reducible
   (first
    | intro x | assumption | apply keeps_ite | refine keeps_mk ?_ rfl rfl)

theorem keeps_rise {w : Bool} {r : State} : ∀ s a1 a2, Keeps w r s → Keeps w r (State.rise s a1 a2) := by
  intros; unfold State.rise; try dsimp only
  repeat' with_reducible
   (first
    | intro x | assumption | apply keeps_wr | apply keeps_ite | split | refine keeps_mk ?_ rfl rfl)

theorem keeps_logPush {w : Bool} {r : State} : ∀ s a1, Keeps w r s → Keeps w r (State.logPush s a1) := by
  intro s ws h; unfold State.logPush; dsimp only
  split
  · exact keeps_rise _ _ _ (keeps_put _ _ _ _ (keeps_bump _ _ _ _ (keeps_mk (keeps_mk h rfl rfl) rfl rfl)))
  · rename_i hf
    refine keeps_set _ _ _ _ (keeps_mk_log h rfl ?_)
    intro _
    simp only [Bool.or_eq_true, decide_eq_true_eq, not_or] at hf
    simp only [List.length_append, List.length_singleton]
    omega

theorem keeps_logRoom {w : Bool} {r : State} : ∀ s, Keeps w r s → Keeps w r (State.logRoom s) := by
  intro s h; unfold State.logRoom; dsimp only
  split
  · exact h
  · split
    · exact h
    · rename_i hf
      refine keeps_set _ _ _ _ (keeps_mk_log h rfl ?_)
      intro _
      rw [not_or] at hf
      simp only [List.length_append, List.length_singleton]
      omega

theorem keeps_evqMark {w : Bool} {r : State} : ∀ s a1, Keeps w r s → Keeps w r (State.evqMark s a1) := by
  intros; unfold State.evqMark; try dsimp only
  repeat' with_reducible
   (first
    | intro x | assumption | apply keeps_set | apply keeps_put | apply keeps_ite)

theorem keeps_evqSync {w : Bool} {r : State} : ∀ s, Keeps w r s → Keeps w r (State.evqSync s) := by
  intros; unfold State.evqSync; try dsimp only
  repeat' with_reducible
   (first
    | intro x | assumption | apply keeps_evqMark)

theorem keeps_evPush {w : Bool} {r : State} : ∀ s a1 a2, Keeps w r s → Keeps w r (State.evPush s a1 a2) := by
  intros; unfold State.evPush; try dsimp only
  repeat' with_reducible
   (first
    | intro x | assumption | apply keeps_inForce | apply keeps_evqMark | apply keeps_msi | apply keeps_bump
    | apply keeps_put | apply keeps_rise | apply keeps_ite | refine keeps_mk ?_ rfl rfl)

theorem keeps_evqRoom {w : Bool} {r : State} : ∀ s, Keeps w r s → Keeps w r (State.evqRoom s) := by
  intros; unfold State.evqRoom; try dsimp only
  repeat' with_reducible
   (first
    | intro x | assumption | apply keeps_evPush | apply keeps_ite | refine keeps_mk ?_ rfl rfl)

theorem keeps_evTake {w : Bool} {r : State} : ∀ s x t, Keeps w r s → State.evTake s = some (x, t) → Keeps w r t := by
  intro s x t h e; unfold State.evTake at e
  split at e
  · cases e
  · split at e
    · cases e
    · cases e; exact keeps_mk h rfl rfl

theorem keeps_hbmPutByte {r : State} : ∀ s a1 a2, Keeps true r s → Keeps true r (State.hbmPutByte s a1 a2) := by
  intro s a v h
  exact keeps_mk_wf h (fun hw => Memory.foldl_put_wf (fun x => x) (fun _ => v) _ _ hw) rfl

theorem keeps_hbmSetPoison {w : Bool} {r : State} : ∀ s a1 a2, Keeps w r s → Keeps w r (State.hbmSetPoison s a1 a2)
    := by
  intros; unfold State.hbmSetPoison; try dsimp only
  repeat' with_reducible
   (first
    | intro x | assumption | apply keeps_ite | refine keeps_mk ?_ rfl rfl)

theorem keeps_alias_ {w : Bool} {r : State} : ∀ s a1, Keeps w r s → Keeps w r (State.alias_ s a1) := by
  intros; unfold State.alias_; try dsimp only
  repeat' with_reducible
   (first
    | intro x | assumption | apply keeps_put | apply keeps_rise)

theorem keeps_candidate {w : Bool} {r : State} : ∀ s a1 a2, Keeps w r s → Keeps w r (State.candidate s a1 a2) := by
  intros; unfold State.candidate; try dsimp only
  repeat' with_reducible
   (first
    | intro x | assumption | apply keeps_put | apply keeps_rise | apply keeps_wr | apply keeps_set
    | apply keeps_ite | split)

theorem keeps_rmwRead {w : Bool} {r : State} : ∀ s a1, Keeps w r s → Keeps w r (State.rmwRead s a1) := by
  intros; unfold State.rmwRead; try dsimp only
  repeat' with_reducible
   (first
    | intro x | assumption | apply keeps_candidate | apply keeps_bump | apply keeps_set | apply keeps_rise
    | apply keeps_ite | apply keeps_foldl)

theorem keeps_hbmPutAccess {r : State} : ∀ s a1 a2 a3, Keeps true r s → Keeps true r (State.hbmPutAccess s a1 a2 a3)
    := by
  intros; unfold State.hbmPutAccess; try dsimp only
  repeat' with_reducible
   (first
    | intro x | assumption | apply keeps_alias_ | apply keeps_rmwRead | apply keeps_hbmPutByte
    | apply keeps_hbmSetPoison | apply keeps_ite | apply keeps_foldl)

theorem keeps_hbmPut {r : State} : ∀ s a1 a2 a3 a4, Keeps true r s → Keeps true r (State.hbmPut s a1 a2 a3 a4) := by
  intro s a bs ep n; induction n generalizing s a bs with
  | zero => exact id
  | succ n ih =>
    intro h; unfold State.hbmPut
    exact keeps_ite h (ih _ _ _ (keeps_hbmPutAccess _ _ _ _ h))

theorem keeps_hbmPutWords {r : State} : ∀ s a1 a2, Keeps true r s → Keeps true r (State.hbmPutWords s a1 a2) := by
  intros; unfold State.hbmPutWords; try dsimp only
  repeat' with_reducible
   (first
    | intro x | assumption | apply keeps_hbmPut)

theorem keeps_hbmTouch {w : Bool} {r : State} : ∀ s a1, Keeps w r s → Keeps w r (State.hbmTouch s a1) := by
  intros; unfold State.hbmTouch; try dsimp only
  repeat' with_reducible
   (first
    | intro x | assumption | apply keeps_alias_ | apply keeps_ite)

theorem keeps_setChan {w : Bool} {r : State} : ∀ s a1 a2, Keeps w r s → Keeps w r (State.setChan s a1 a2) := by
  intros; unfold State.setChan; try dsimp only
  repeat' with_reducible
   (first
    | intro x | assumption | refine keeps_mk ?_ rfl rfl)

theorem keeps_setEye {w : Bool} {r : State} : ∀ s a1 a2, Keeps w r s → Keeps w r (State.setEye s a1 a2) := by
  intros; unfold State.setEye; try dsimp only
  repeat' with_reducible
   (first
    | intro x | assumption | refine keeps_mk ?_ rfl rfl)

theorem keeps_setSite {w : Bool} {r : State} : ∀ s a1 a2, Keeps w r s → Keeps w r (State.setSite s a1 a2) := by
  intros; unfold State.setSite; try dsimp only
  repeat' with_reducible
   (first
    | intro x | assumption | refine keeps_mk ?_ rfl rfl)

theorem keeps_setDds {w : Bool} {r : State} : ∀ s a1 a2, Keeps w r s → Keeps w r (State.setDds s a1 a2) := by
  intros; unfold State.setDds; try dsimp only
  repeat' with_reducible
   (first
    | intro x | assumption | refine keeps_mk ?_ rfl rfl)

theorem keeps_setSpr {w : Bool} {r : State} : ∀ s a1 a2, Keeps w r s → Keeps w r (State.setSpr s a1 a2) := by
  intros; unfold State.setSpr; try dsimp only
  repeat' with_reducible
   (first
    | intro x | assumption | refine keeps_mk ?_ rfl rfl)

theorem keeps_setGroup {w : Bool} {r : State} : ∀ s a1, Keeps w r s → Keeps w r (State.setGroup s a1) := by
  intros; unfold State.setGroup; try dsimp only
  repeat' with_reducible
   (first
    | intro x | assumption | apply keeps_ite | refine keeps_mk ?_ rfl rfl)

theorem keeps_calVector {w : Bool} {r : State} : ∀ s a1, Keeps w r s → Keeps w r (State.calVector s a1) := by
  intros; unfold State.calVector; try dsimp only
  repeat' with_reducible
   (first
    | intro x | assumption | apply keeps_foldl | refine keeps_mk ?_ rfl rfl)

theorem keeps_evtDrive {w : Bool} {r : State} : ∀ s a1, Keeps w r s → Keeps w r (State.evtDrive s a1) := by
  intros; unfold State.evtDrive; try dsimp only
  repeat' with_reducible
   (first
    | intro x | assumption | apply keeps_ite | refine keeps_mk ?_ rfl rfl)

theorem keeps_evtRelease {w : Bool} {r : State} : ∀ s a1 a2 a3, Keeps w r s → Keeps w r (State.evtRelease s a1 a2
    a3) := by
  intros; unfold State.evtRelease; try dsimp only
  repeat' with_reducible
   (first
    | intro x | assumption | refine keeps_mk ?_ rfl rfl)

theorem keeps_evtPulse {w : Bool} {r : State} : ∀ s a1 a2 a3 a4 a5, Keeps w r s → Keeps w r (State.evtPulse s a1 a2
    a3 a4 a5) := by
  intros; unfold State.evtPulse; try dsimp only
  repeat' with_reducible
   (first
    | intro x | assumption | apply keeps_evtDrive)

theorem keeps_flogSeq {w : Bool} {r : State} : ∀ s a1 a2, Keeps w r s → Keeps w r (State.flogSeq s a1 a2).2 := by
  intros; unfold State.flogSeq; try dsimp only
  repeat' with_reducible
   (first
    | intro x | assumption | apply keeps_set)

theorem keeps_flogJoin {w : Bool} {r : State} : ∀ s a1 a2, Keeps w r s → Keeps w r (State.flogJoin s a1 a2) := by
  intros; unfold State.flogJoin; try dsimp only
  repeat' with_reducible
   (first
    | intro x | assumption | apply keeps_setEye)

theorem keeps_flogOffer {w : Bool} {r : State} : ∀ s a1 a2, Keeps w r s → Keeps w r (State.flogOffer s a1 a2) := by
  intros; unfold State.flogOffer; try dsimp only
  repeat' with_reducible
   (first
    | intro x | assumption | apply keeps_flogSeq | apply keeps_setEye | apply keeps_flogJoin | apply keeps_bump
    | apply keeps_put | apply keeps_rise | apply keeps_ite)

theorem keeps_setBitAt {w : Bool} {r : State} : ∀ s a1 a2 a3 a4, Keeps w r s → Keeps w r (State.setBitAt s a1 a2 a3
    a4) := by
  intros; unfold State.setBitAt; try dsimp only
  repeat' with_reducible
   (first
    | intro x | assumption | apply keeps_wr)

theorem keeps_accUncorr {w : Bool} {r : State} : ∀ s a1 a2, Keeps w r s → Keeps w r (State.accUncorr s a1 a2) := by
  intros; unfold State.accUncorr; try dsimp only
  repeat' with_reducible
   (first
    | intro x | assumption | apply keeps_rise | apply keeps_ite | refine keeps_mk ?_ rfl rfl)

theorem keeps_accChan {w : Bool} {r : State} : ∀ s a1, Keeps w r s → Keeps w r (State.accChan s a1) := by
  intros; unfold State.accChan; try dsimp only
  repeat' with_reducible
   (first
    | intro x | assumption | apply keeps_fresh | apply keeps_set | apply keeps_accUncorr | apply keeps_ite
    | apply keeps_ite_fst | refine keeps_mk ?_ rfl rfl)

theorem keeps_accSite {w : Bool} {r : State} : ∀ s a1, Keeps w r s → Keeps w r (State.accSite s a1) := by
  intros; unfold State.accSite; try dsimp only
  repeat' with_reducible
   (first
    | intro x | assumption | apply keeps_fresh | apply keeps_setSite | apply keeps_accUncorr | apply keeps_ite
    | apply keeps_ite_fst | refine keeps_mk ?_ rfl rfl)

theorem keeps_siteFail {w : Bool} {r : State} : ∀ s a1 a2 a3, Keeps w r s → Keeps w r (State.siteFail s a1 a2 a3) :=
    by
  intros; unfold State.siteFail; try dsimp only
  repeat' with_reducible
   (first
    | intro x | assumption | apply keeps_accSite | apply keeps_setSite | apply keeps_setBitAt)

theorem keeps_modVec {w : Bool} {r : State} : ∀ s a1 a2 a3, Keeps w r s → Keeps w r (State.modVec s a1 a2 a3) := by
  intros; unfold State.modVec; try dsimp only
  repeat' with_reducible
   (first
    | intro x | assumption | apply keeps_setEye)

theorem keeps_recordFail {w : Bool} {r : State} : ∀ s a1 a2 a3 a4 a5, Keeps w r s → Keeps w r (State.recordFail s a1
    a2 a3 a4 a5) := by
  intros; unfold State.recordFail; try dsimp only
  repeat' with_reducible
   (first
    | intro x | assumption | apply keeps_accChan | apply keeps_bump | apply keeps_setBitAt | apply keeps_siteFail
    | apply keeps_modVec | apply keeps_ite | refine keeps_mk ?_ rfl rfl)

theorem keeps_judge {w : Bool} {r : State} : ∀ s a1 a2 a3 a4, Keeps w r s → Keeps w r (State.judge s a1 a2 a3 a4) :=
    by
  intros; unfold State.judge; try dsimp only
  repeat' with_reducible
   (first
    | intro x | assumption | apply keeps_put | apply keeps_set | apply keeps_rise | apply keeps_modVec
    | apply keeps_recordFail | apply keeps_ite)

theorem keeps_setTrg {w : Bool} {r : State} : ∀ s a1 a2, Keeps w r s → Keeps w r (State.setTrg s a1 a2) := by
  intros; unfold State.setTrg; try dsimp only
  repeat' with_reducible
   (first
    | intro x | assumption | refine keeps_mk ?_ rfl rfl)

theorem keeps_trgFail {w : Bool} {r : State} : ∀ s a1 a2, Keeps w r s → Keeps w r (State.trgFail s a1 a2) := by
  intros; unfold State.trgFail; try dsimp only
  repeat' with_reducible
   (first
    | intro x | assumption | apply keeps_setTrg | apply keeps_ite)

theorem keeps_setMatch {w : Bool} {r : State} : ∀ s a1 a2 a3, Keeps w r s → Keeps w r (State.setMatch s a1 a2 a3) :=
    by
  intros; unfold State.setMatch; try dsimp only
  repeat' with_reducible
   (first
    | intro x | assumption | apply keeps_setBitAt | apply keeps_foldl)

theorem keeps_matchVec {w : Bool} {r : State} : ∀ s a1 a2, Keeps w r s → Keeps w r (State.matchVec s a1 a2) := by
  intros; unfold State.matchVec; try dsimp only
  repeat' with_reducible
   (first
    | intro x | assumption | apply keeps_setMatch | apply keeps_setGroup | apply keeps_setEye | apply keeps_foldl)

theorem keeps_closeVec {w : Bool} {r : State} : ∀ s a1 a2, Keeps w r s → Keeps w r (State.closeVec s a1 a2) := by
  intros; unfold State.closeVec; try dsimp only
  repeat' with_reducible
   (first
    | intro x | assumption | apply keeps_matchVec | apply keeps_setEye | apply keeps_trgFail
    | apply keeps_flogOffer | apply keeps_ite | split)

theorem keeps_closeWin {w : Bool} {r : State} : ∀ s a1, Keeps w r s → Keeps w r (State.closeWin s a1) := by
  intros; unfold State.closeWin; try dsimp only
  repeat' with_reducible
   (first
    | intro x | assumption | apply keeps_setChan | apply keeps_judge | apply keeps_closeVec | apply keeps_ite
    | split)

theorem keeps_seeWin {w : Bool} {r : State} : ∀ s a1, Keeps w r s → Keeps w r (State.seeWin s a1) := by
  intros; unfold State.seeWin; try dsimp only
  repeat' with_reducible
   (first
    | intro x | assumption | apply keeps_setChan | apply keeps_judge | apply keeps_ite | split)

theorem keeps_modTicket {w : Bool} {r : State} : ∀ s a1 a2, Keeps w r s → Keeps w r (State.modTicket s a1 a2) := by
  intros; unfold State.modTicket; try dsimp only
  repeat' with_reducible
   (first
    | intro x | assumption | apply keeps_ite | refine keeps_mk ?_ rfl rfl)

theorem keeps_schSync {w : Bool} {r : State} : ∀ s, Keeps w r s → Keeps w r (State.schSync s) := by
  intros; unfold State.schSync; try dsimp only
  repeat' with_reducible
   (first
    | intro x | assumption | apply keeps_set)

theorem keeps_traceIn {w : Bool} {r : State} : ∀ s a1, Keeps w r s → Keeps w r (State.traceIn s a1) := by
  intros; unfold State.traceIn; try dsimp only
  repeat' with_reducible
   (first
    | intro x | assumption | apply keeps_ite | refine keeps_mk ?_ rfl rfl)

theorem keeps_tracePut {w : Bool} {r : State} : ∀ s a1, Keeps w r s → Keeps w r (State.tracePut s a1) := by
  intros; unfold State.tracePut; try dsimp only
  repeat' with_reducible
   (first
    | intro x | assumption | apply keeps_traceIn | apply keeps_rise | apply keeps_ite | refine keeps_mk ?_ rfl rfl)

theorem keeps_traceEv {w : Bool} {r : State} : ∀ s a1 a2 a3, Keeps w r s → Keeps w r (State.traceEv s a1 a2 a3) :=
    by
  intros; unfold State.traceEv; try dsimp only
  repeat' with_reducible
   (first
    | intro x | assumption | apply keeps_tracePut | apply keeps_ite | refine keeps_mk ?_ rfl rfl)

theorem keeps_wakeup {w : Bool} {r : State} : ∀ s a1, Keeps w r s → Keeps w r (State.wakeup s a1) := by
  intros; unfold State.wakeup; try dsimp only
  repeat' with_reducible
   (first
    | intro x | assumption | apply keeps_traceEv | apply keeps_ite | apply keeps_foldl
    | refine keeps_mk ?_ rfl rfl)

theorem keeps_ctrPut {w : Bool} {r : State} : ∀ s a1 a2, Keeps w r s → Keeps w r (State.ctrPut s a1 a2) := by
  intros; unfold State.ctrPut; try dsimp only
  repeat' with_reducible
   (first
    | intro x | assumption | apply keeps_wakeup | refine keeps_mk ?_ rfl rfl)

theorem keeps_ctrDown {w : Bool} {r : State} : ∀ s a1, Keeps w r s → Keeps w r (State.ctrDown s a1) := by
  intros; unfold State.ctrDown; try dsimp only
  repeat' with_reducible
   (first
    | intro x | assumption | apply keeps_put | apply keeps_rise | apply keeps_ctrPut | apply keeps_ite)

theorem keeps_setCore {w : Bool} {r : State} : ∀ s a1 a2, Keeps w r s → Keeps w r (State.setCore s a1 a2) := by
  intros; unfold State.setCore; try dsimp only
  repeat' with_reducible
   (first
    | intro x | assumption | refine keeps_mk ?_ rfl rfl)

theorem keeps_coreTake {w : Bool} {r : State} : ∀ s a1 a2, Keeps w r s → Keeps w r (State.coreTake s a1 a2) := by
  intros; unfold State.coreTake; try dsimp only
  repeat' with_reducible
   (first
    | intro x | assumption | apply keeps_modTicket | apply keeps_bump | apply keeps_setCore | apply keeps_set
    | apply keeps_traceEv | apply keeps_ite | split | refine keeps_mk ?_ rfl rfl)

theorem keeps_coreFree {w : Bool} {r : State} : ∀ s a1, Keeps w r s → Keeps w r (State.coreFree s a1) := by
  intros; unfold State.coreFree; try dsimp only
  repeat' with_reducible
   (first
    | intro x | assumption | apply keeps_bump | apply keeps_put | apply keeps_coreTake | apply keeps_set
    | apply keeps_ite | split)

theorem keeps_siteAdd {w : Bool} {r : State} : ∀ s a1 a2 a3 a4, Keeps w r s → Keeps w r (State.siteAdd s a1 a2 a3
    a4) := by
  intros; unfold State.siteAdd; try dsimp only
  repeat' with_reducible
   (first
    | intro x | assumption | apply keeps_setSite)

theorem keeps_modOpen {w : Bool} {r : State} : ∀ s a1 a2, Keeps w r s → Keeps w r (State.modOpen s a1 a2) := by
  intros; unfold State.modOpen; try dsimp only
  repeat' with_reducible
   (first
    | intro x | assumption | apply keeps_modTicket)

theorem keeps_burstStatus {w : Bool} {r : State} : ∀ s a1 a2 a3, Keeps w r s → Keeps w r (State.burstStatus s a1 a2
    a3) := by
  intros; unfold State.burstStatus; try dsimp only
  repeat' with_reducible
   (first
    | intro x | assumption | apply keeps_modOpen)

theorem keeps_ticketFlag {w : Bool} {r : State} : ∀ s a1 a2, Keeps w r s → Keeps w r (State.ticketFlag s a1 a2) :=
    by
  intros; unfold State.ticketFlag; try dsimp only
  repeat' with_reducible
   (first
    | intro x | assumption | apply keeps_modOpen)

theorem keeps_rerunNext {w : Bool} {r : State} : ∀ s, Keeps w r s → Keeps w r (State.rerunNext s) := by
  intros; unfold State.rerunNext; try dsimp only
  repeat' with_reducible
   (first
    | intro x | assumption | apply keeps_modTicket | apply keeps_bump | apply keeps_traceEv | split)

theorem keeps_completeTicket {w : Bool} {r : State} : ∀ s a1 a2 a3, Keeps w r s → Keeps w r (State.completeTicket s
    a1 a2 a3) := by
  intros; unfold State.completeTicket; try dsimp only
  repeat' with_reducible
   (first
    | intro x | assumption | apply keeps_modTicket | apply keeps_siteAdd | apply keeps_bump | apply keeps_traceEv
    | apply keeps_ctrDown | apply keeps_rerunNext | apply keeps_coreFree | apply keeps_put | apply keeps_ite
    | apply keeps_foldl | apply keeps_foldl_fst | split)

theorem keeps_postPins {w : Bool} {r : State} : ∀ s a1, Keeps w r s → Keeps w r (State.postPins s a1) := by
  intros; unfold State.postPins; try dsimp only
  repeat' with_reducible
   (first
    | intro x | assumption | apply keeps_evtDrive | apply keeps_evtRelease | apply keeps_evtPulse
    | apply keeps_ite | apply keeps_foldl)

theorem keeps_releaseTicket {w : Bool} {r : State} : ∀ s a1, Keeps w r s → Keeps w r (State.releaseTicket s a1) :=
    by
  intros; unfold State.releaseTicket; try dsimp only
  repeat' with_reducible
   (first
    | intro x | assumption | apply keeps_traceEv | apply keeps_postPins | apply keeps_setSite | apply keeps_evPush
    | apply keeps_schSync | apply keeps_ite | split | refine keeps_mk ?_ rfl rfl)

theorem keeps_ackSlot {w : Bool} {r : State} : ∀ s a1, Keeps w r s → Keeps w r (State.ackSlot s a1) := by
  intros; unfold State.ackSlot; try dsimp only
  repeat' with_reducible
   (first
    | intro x | assumption | apply keeps_schSync | split | refine keeps_mk ?_ rfl rfl)

theorem keeps_parkTo {w : Bool} {r : State} : ∀ s a1 a2 a3, Keeps w r s → Keeps w r (State.parkTo s a1 a2 a3) := by
  intros; unfold State.parkTo; try dsimp only
  repeat' with_reducible
   (first
    | intro x | assumption | apply keeps_setChan | apply keeps_put | apply keeps_ite)

theorem keeps_parkNow {w : Bool} {r : State} : ∀ s a1 a2, Keeps w r s → Keeps w r (State.parkNow s a1 a2) := by
  intros; unfold State.parkNow; try dsimp only
  repeat' with_reducible
   (first
    | intro x | assumption | apply keeps_closeWin | apply keeps_setChan | apply keeps_parkTo)

theorem keeps_parkCh {w : Bool} {r : State} : ∀ s a1, Keeps w r s → Keeps w r (State.parkCh s a1) := by
  intros; unfold State.parkCh; try dsimp only
  repeat' with_reducible
   (first
    | intro x | assumption | apply keeps_parkNow)

theorem keeps_idleCh {w : Bool} {r : State} : ∀ s a1 a2, Keeps w r s → Keeps w r (State.idleCh s a1 a2) := by
  intros; unfold State.idleCh; try dsimp only
  repeat' with_reducible
   (first
    | intro x | assumption | apply keeps_closeWin | apply keeps_parkTo | apply keeps_ite)

theorem keeps_ddsErrShow {w : Bool} {r : State} : ∀ s a1 a2, Keeps w r s → Keeps w r (State.ddsErrShow s a1 a2) :=
    by
  intros; unfold State.ddsErrShow; try dsimp only
  repeat' with_reducible
   (first
    | intro x | assumption | apply keeps_set)

theorem keeps_ddsErrSync {w : Bool} {r : State} : ∀ s a1 a2, Keeps w r s → Keeps w r (State.ddsErrSync s a1 a2) :=
    by
  intros; unfold State.ddsErrSync; try dsimp only
  repeat' with_reducible
   (first
    | intro x | assumption | apply keeps_put | apply keeps_ddsErrShow | apply keeps_ite)

theorem keeps_upsetClear {w : Bool} {r : State} : ∀ s a1 a2 a3, Keeps w r s → Keeps w r (State.upsetClear s a1 a2
    a3) := by
  intros; unfold State.upsetClear; try dsimp only
  repeat' with_reducible
   (first
    | intro x | assumption | refine keeps_mk ?_ rfl rfl)

theorem keeps_copyStart {w : Bool} {r : State} : ∀ s a1, Keeps w r s → Keeps w r (State.copyStart s a1) := by
  intros; unfold State.copyStart; try dsimp only
  repeat' with_reducible
   (first
    | intro x | assumption | apply keeps_put)

theorem keeps_clockBursts {w : Bool} {r : State} : ∀ s a1 a2, Keeps w r s → Keeps w r (State.clockBursts s a1 a2) :=
    by
  intros; unfold State.clockBursts; try dsimp only
  repeat' with_reducible
   (first
    | intro x | assumption | apply keeps_burstStatus | apply keeps_ite | apply keeps_foldl)

theorem keeps_ddsReadErr {w : Bool} {r : State} : ∀ s a1 a2, Keeps w r s → Keeps w r (State.ddsReadErr s a1 a2) :=
    by
  intros; unfold State.ddsReadErr; try dsimp only
  repeat' with_reducible
   (first
    | intro x | assumption | apply keeps_rise | apply keeps_clockBursts | apply keeps_ite)

theorem keeps_ddsCommit {w : Bool} {r : State} : ∀ s a1, Keeps w r s → Keeps w r (State.ddsCommit s a1) := by
  intros; unfold State.ddsCommit; try dsimp only
  repeat' with_reducible
   (first
    | intro x | assumption | apply keeps_put | apply keeps_ddsReadErr | apply keeps_upsetClear
    | apply keeps_copyStart | apply keeps_ite | apply keeps_foldl | refine keeps_mk ?_ rfl rfl)

theorem keeps_ddsRise {w : Bool} {r : State} : ∀ s a1 a2 a3, Keeps w r s → Keeps w r (State.ddsRise s a1 a2 a3) :=
    by
  intros; unfold State.ddsRise; try dsimp only
  repeat' with_reducible
   (first
    | intro x | assumption | apply keeps_setDds | apply keeps_ite)

theorem keeps_clockPlace {w : Bool} {r : State} : ∀ s a1 a2 a3 a4, Keeps w r s → Keeps w r (State.clockPlace s a1 a2
    a3 a4) := by
  intros; unfold State.clockPlace; try dsimp only
  repeat' with_reducible
   (first
    | intro x | assumption | apply keeps_setChan | apply keeps_ite)

theorem keeps_ddsEdge {w : Bool} {r : State} : ∀ s a1 a2 a3, Keeps w r s → Keeps w r (State.ddsEdge s a1 a2 a3) :=
    by
  intros; unfold State.ddsEdge; try dsimp only
  repeat' with_reducible
   (first
    | intro x | assumption | apply keeps_upToQ | apply keeps_setDds | apply keeps_ddsRise | apply keeps_put
    | apply keeps_rise | apply keeps_clockBursts | apply keeps_clockPlace | apply keeps_ite | apply keeps_ite_fst
    | apply keeps_foldl)

theorem keeps_pelSync {w : Bool} {r : State} : ∀ s a1, Keeps w r s → Keeps w r (State.pelSync s a1) := by
  intros; unfold State.pelSync; try dsimp only
  repeat' with_reducible
   (first
    | intro x | assumption | apply keeps_put)

theorem keeps_ampKnown {w : Bool} {r : State} : ∀ s a1 a2 a3 a4, Keeps w r s → Keeps w r (State.ampKnown s a1 a2 a3
    a4) := by
  intros; unfold State.ampKnown; try dsimp only
  repeat' with_reducible
   (first
    | intro x | assumption | apply keeps_bump | apply keeps_setDds | apply keeps_pelSync | apply keeps_ite)

theorem keeps_ddsState {w : Bool} {r : State} : ∀ s a1 a2, Keeps w r s → Keeps w r (State.ddsState s a1 a2) := by
  intros; unfold State.ddsState; try dsimp only
  repeat' with_reducible
   (first
    | intro x | assumption | apply keeps_set)

theorem keeps_ddsLate {w : Bool} {r : State} : ∀ s a1, Keeps w r s → Keeps w r (State.ddsLate s a1) := by
  intros; unfold State.ddsLate; try dsimp only
  repeat' with_reducible
   (first
    | intro x | assumption | apply keeps_put | apply keeps_rise)

theorem keeps_ddsDue {w : Bool} {r : State} : ∀ s a1 a2, Keeps w r s → Keeps w r (State.ddsDue s a1 a2) := by
  intro s e t h; unfold State.ddsDue
  extract_lets d lo s1 t' d1 s2
  have h2 : Keeps w r s2 := keeps_setDds _ _ _ (keeps_ite (keeps_ddsLate _ _ h) h)
  split
  · exact keeps_ampKnown _ _ _ _ _ (keeps_ddsState _ _ _ h2)
  · exact keeps_ddsState _ _ _ h2

theorem keeps_ddsTime {w : Bool} {r : State} : ∀ s a1, Keeps w r s → Keeps w r (State.ddsTime s a1) := by
  intros; unfold State.ddsTime; try dsimp only
  repeat' with_reducible
   (first
    | intro x | assumption | apply keeps_ddsState | apply keeps_setDds | apply keeps_ddsDue | split)

theorem keeps_ddsFixSucc {w : Bool} {r : State} : ∀ s a1 a2, Keeps w r s → Keeps w r (State.ddsFixSucc s a1 a2) :=
    by
  intros; unfold State.ddsFixSucc; try dsimp only
  repeat' with_reducible
   (first
    | intro x | assumption | apply keeps_setDds | apply keeps_ddsState | apply keeps_ddsDue | apply keeps_ddsTime
    | apply keeps_ite | apply keeps_ite_fst | split)

theorem keeps_ddsCorr {w : Bool} {r : State} : ∀ s a1 a2, Keeps w r s → Keeps w r (State.ddsCorr s a1 a2) := by
  intros; unfold State.ddsCorr; try dsimp only
  repeat' with_reducible
   (first
    | intro x | assumption | apply keeps_rise | apply keeps_ite)

theorem keeps_ddsEnd {w : Bool} {r : State} : ∀ s a1, Keeps w r s → Keeps w r (State.ddsEnd s a1) := by
  intros; unfold State.ddsEnd; try dsimp only
  repeat' with_reducible
   (first
    | intro x | assumption | apply keeps_setDds | apply keeps_idleCh | apply keeps_ddsState | apply keeps_foldl)

theorem keeps_ddsHop {w : Bool} {r : State} : ∀ s a1 a2 a3 a4, Keeps w r s → Keeps w r (State.ddsHop s a1 a2 a3 a4)
    := by
  intros; unfold State.ddsHop; try dsimp only
  repeat' with_reducible
   (first
    | intro x | assumption | apply keeps_ddsCommit | apply keeps_setDds | apply keeps_rise
    | apply keeps_clockBursts | apply keeps_ddsCorr | apply keeps_set | apply keeps_ddsEdge | apply keeps_ddsEnd
    | apply keeps_ddsFixSucc | apply keeps_ite)

theorem keeps_ddsFixed {w : Bool} {r : State} : ∀ s a1 a2 a3 a4 a5, Keeps w r s → Keeps w r (State.ddsFixed s a1 a2
    a3 a4 a5) := by
  intros; unfold State.ddsFixed; try dsimp only
  repeat' with_reducible
   (first
    | intro x | assumption | apply keeps_setDds | apply keeps_ddsState | apply keeps_ampKnown | apply keeps_ite
    | split)

theorem keeps_ddsSegment {w : Bool} {r : State} : ∀ s a1 a2 a3, Keeps w r s → Keeps w r (State.ddsSegment s a1 a2
    a3) := by
  intros; unfold State.ddsSegment; try dsimp only
  repeat' with_reducible
   (first
    | intro x | assumption | apply keeps_ddsLate | apply keeps_setDds | apply keeps_ite)

theorem keeps_ddsUnfix {w : Bool} {r : State} : ∀ s a1, Keeps w r s → Keeps w r (State.ddsUnfix s a1) := by
  intros; unfold State.ddsUnfix; try dsimp only
  repeat' with_reducible
   (first
    | intro x | assumption | apply keeps_setDds | apply keeps_ddsState | apply keeps_ite)

theorem keeps_ddsStartAt {w : Bool} {r : State} : ∀ s a1 a2, Keeps w r s → Keeps w r (State.ddsStartAt s a1 a2) :=
    by
  intros; unfold State.ddsStartAt; try dsimp only
  repeat' with_reducible
   (first
    | intro x | assumption | apply keeps_setDds | apply keeps_ampKnown)

theorem keeps_ddsRefuse {w : Bool} {r : State} : ∀ s a1 a2, Keeps w r s → Keeps w r (State.ddsRefuse s a1 a2) := by
  intros; unfold State.ddsRefuse; try dsimp only
  repeat' with_reducible
   (first
    | intro x | assumption | apply keeps_put | apply keeps_set)

theorem keeps_ddsGroupStart {w : Bool} {r : State} : ∀ s a1 a2, Keeps w r s → Keeps w r (State.ddsGroupStart s a1
    a2) := by
  intros; unfold State.ddsGroupStart; try dsimp only
  repeat' with_reducible
   (first
    | intro x | assumption | apply keeps_ddsStartAt | apply keeps_ite)

theorem keeps_clockJoin {w : Bool} {r : State} : ∀ s a1 a2 a3, Keeps w r s → Keeps w r (State.clockJoin s a1 a2 a3)
    := by
  intros; unfold State.clockJoin; try dsimp only
  repeat' with_reducible
   (first
    | intro x | assumption | apply keeps_put | apply keeps_setChan)

theorem keeps_ddsBegin {w : Bool} {r : State} : ∀ s a1 a2, Keeps w r s → Keeps w r (State.ddsBegin s a1 a2) := by
  intros; unfold State.ddsBegin; try dsimp only
  repeat' with_reducible
   (first
    | intro x | assumption | apply keeps_inForce | apply keeps_setDds | apply keeps_rise | apply keeps_clockBursts
    | apply keeps_clockJoin | apply keeps_ddsHop | apply keeps_ite | apply keeps_foldl)

theorem keeps_segRead {w : Bool} {r : State} : ∀ s a1, Keeps w r s → Keeps w r (State.segRead s a1) := by
  intros; unfold State.segRead; try dsimp only
  repeat' with_reducible
   (first
    | intro x | assumption | apply keeps_bump | apply keeps_rise | apply keeps_ite)

theorem keeps_siteMaskForce {w : Bool} {r : State} : ∀ s a1, Keeps w r s → Keeps w r (State.siteMaskForce s a1) :=
    by
  intros; unfold State.siteMaskForce; try dsimp only
  repeat' with_reducible
   (first
    | intro x | assumption | split | refine keeps_mk ?_ rfl rfl)

theorem keeps_groupFlag {w : Bool} {r : State} : ∀ s a1 a2 a3, Keeps w r s → Keeps w r (State.groupFlag s a1 a2 a3)
    := by
  intros; unfold State.groupFlag; try dsimp only
  repeat' with_reducible
   (first
    | intro x | assumption | apply keeps_put)

theorem keeps_aheadSync {w : Bool} {r : State} : ∀ s a1 a2, Keeps w r s → Keeps w r (State.aheadSync s a1 a2) := by
  intros; unfold State.aheadSync; try dsimp only
  repeat' with_reducible
   (first
    | intro x | assumption | apply keeps_set)

theorem keeps_groupSync {w : Bool} {r : State} : ∀ s a1, Keeps w r s → Keeps w r (State.groupSync s a1) := by
  intros; unfold State.groupSync; try dsimp only
  repeat' with_reducible
   (first
    | intro x | assumption | apply keeps_set | apply keeps_put | apply keeps_aheadSync | apply keeps_ite
    | apply keeps_foldl)

theorem keeps_keep {w : Bool} {r : State} : ∀ s a1, Keeps w r s → Keeps w r (State.keep s a1) := by
  intros; unfold State.keep; try dsimp only
  repeat' with_reducible
   (first
    | intro x | assumption | apply keeps_setGroup | apply keeps_groupSync)

theorem keeps_burstFlags {w : Bool} {r : State} : ∀ s a1 a2, Keeps w r s → Keeps w r (State.burstFlags s a1 a2) :=
    by
  intros; unfold State.burstFlags; try dsimp only
  repeat' with_reducible
   (first
    | intro x | assumption | apply keeps_ticketFlag | apply keeps_foldl)

theorem keeps_burstFail {w : Bool} {r : State} : ∀ s a1 a2 a3, Keeps w r s → Keeps w r (State.burstFail s a1 a2 a3)
    := by
  intros; unfold State.burstFail; try dsimp only
  repeat' with_reducible
   (first
    | intro x | assumption | apply keeps_burstStatus | apply keeps_foldl)

theorem keeps_seqEvent {w : Bool} {r : State} : ∀ s a1 a2, Keeps w r s → Keeps w r (State.seqEvent s a1 a2) := by
  intros; unfold State.seqEvent; try dsimp only
  repeat' with_reducible
   (first
    | intro x | assumption | refine keeps_mk ?_ rfl rfl)

end Sys2Proof.Machine
end

