-- ==== Sys2Proof/Laws/Keeps2.lean ====
section
/-!
SUPPORT. What each operation keeps (Laws/Keeps.lean), 2 of 6; operations come after those that they use.
-/
namespace Sys2Proof.Machine

open Sys2Proof

theorem keeps_condTest {w : Bool} {r : State} : ∀ s a1 a2 a3 a4, Keeps w r s → Keeps w r (State.condTest s a1 a2 a3
    a4).2.1 := by
  intros; unfold State.condTest; try dsimp only
  repeat' with_reducible
   (first
    | intro x | assumption | apply keeps_set | apply keeps_ite | apply keeps_ite_mid)

theorem keeps_decideForce {w : Bool} {r : State} : ∀ s a1 a2, Keeps w r s → Keeps w r (State.decideForce s a1 a2).1
    := by
  intros; unfold State.decideForce; try dsimp only
  repeat' with_reducible
   (first
    | intro x | assumption | apply keeps_inForce | apply keeps_setEye | apply keeps_foldl)

theorem keeps_matchTimeout {w : Bool} {r : State} : ∀ s a1 a2, Keeps w r s → Keeps w r (State.matchTimeout s a1 a2)
    := by
  intros; unfold State.matchTimeout; try dsimp only
  repeat' with_reducible
   (first
    | intro x | assumption | apply keeps_put | apply keeps_rise | apply keeps_burstFlags | apply keeps_siteFail
    | apply keeps_flogOffer | apply keeps_ite | apply keeps_foldl | split | refine keeps_mk ?_ rfl rfl)

theorem keeps_fixPass {w : Bool} {r : State} : ∀ s a1 a2 a3, Keeps w r s → Keeps w r (State.fixPass s a1 a2 a3).1 :=
    by
  intros; unfold State.fixPass; try dsimp only
  repeat' with_reducible
   (first
    | intro x | assumption | apply keeps_fresh | apply keeps_wr | apply keeps_ddsFixed | apply keeps_ite
    | apply keeps_ite_fst | apply keeps_foldl)

theorem keeps_follow {w : Bool} {r : State} : ∀ s a1 a2 a3 a4, Keeps w r s → Keeps w r (State.follow s a1 a2 a3
    a4).1 := by
  intros; unfold State.follow; try dsimp only
  repeat' with_reducible
   (first
    | intro x | assumption | apply keeps_segRead | apply keeps_fixPass | apply keeps_ite | apply keeps_ite_fst)

theorem keeps_decideNext {w : Bool} {r : State} : ∀ s a1 a2, Keeps w r s → Keeps w r (State.decideNext s a1 a2).1 :=
    by
  intros; unfold State.decideNext; try dsimp only
  repeat' with_reducible
   (first
    | intro x | assumption | apply keeps_decideForce | apply keeps_condTest | apply keeps_follow
    | apply keeps_matchTimeout | apply keeps_ite | apply keeps_ite_fst)

theorem keeps_decideEarly {w : Bool} {r : State} : ∀ s a1 a2, Keeps w r s → Keeps w r (State.decideEarly s a1 a2).1
    := by
  intro s g n; induction n generalizing s g with
  | zero => exact id
  | succ n ih =>
    intro h; unfold State.decideEarly; dsimp only
    split
    · exact ih _ _ (keeps_decideNext _ _ _ h)
    · exact h

theorem keeps_request {w : Bool} {r : State} : ∀ s a1 a2, Keeps w r s → Keeps w r (State.request s a1 a2) := by
  intros; unfold State.request; try dsimp only
  repeat' with_reducible
   (first
    | intro x | assumption | apply keeps_setEye | apply keeps_aheadSync)

theorem keeps_requestAll {w : Bool} {r : State} : ∀ s a1, Keeps w r s → Keeps w r (State.requestAll s a1) := by
  intros; unfold State.requestAll; try dsimp only
  repeat' with_reducible
   (first
    | intro x | assumption | apply keeps_request | apply keeps_foldl)

theorem keeps_checkGran {w : Bool} {r : State} : ∀ s a1 a2 a3, Keeps w r s → Keeps w r (State.checkGran s a1 a2 a3)
    := by
  intros; unfold State.checkGran; try dsimp only
  repeat' with_reducible
   (first
    | intro x | assumption | apply keeps_setEye | apply keeps_set | apply keeps_ite)

theorem keeps_checkNext {w : Bool} {r : State} : ∀ s a1 a2 a3 a4, Keeps w r s → Keeps w r (State.checkNext s a1 a2
    a3 a4) := by
  intros; unfold State.checkNext; try dsimp only
  repeat' with_reducible
   (first
    | intro x | assumption | apply keeps_checkGran | apply keeps_ite | split)

theorem keeps_clash {w : Bool} {r : State} : ∀ s a1 a2, Keeps w r s → Keeps w r (State.clash s a1 a2) := by
  intros; unfold State.clash; try dsimp only
  repeat' with_reducible
   (first
    | intro x | assumption | apply keeps_put | apply keeps_bump | apply keeps_rise | apply keeps_burstFail)

theorem keeps_placeOne {w : Bool} {r : State} : ∀ s a1 a2 a3, Keeps w r s → Keeps w r (State.placeOne s a1 a2 a3) :=
    by
  intros; unfold State.placeOne; try dsimp only
  repeat' with_reducible
   (first
    | intro x | assumption | apply keeps_setChan | apply keeps_clash | apply keeps_ite)

theorem keeps_placeRecord {w : Bool} {r : State} : ∀ s a1 a2 a3 a4 a5 a6 a7 a8, Keeps w r s → Keeps w r
    (State.placeRecord s a1 a2 a3 a4 a5 a6 a7 a8) := by
  intros; unfold State.placeRecord; try dsimp only
  repeat' with_reducible
   (first
    | intro x | assumption | apply keeps_rise | apply keeps_burstFail | apply keeps_clash | apply keeps_placeOne
    | apply keeps_setChan | apply keeps_ite | apply keeps_ite_fst | apply keeps_foldl | apply keeps_foldl_fst)

theorem keeps_placeDrive {w : Bool} {r : State} : ∀ s a1 a2 a3, Keeps w r s → Keeps w r (State.placeDrive s a1 a2
    a3).1 := by
  intros; unfold State.placeDrive; try dsimp only
  repeat' with_reducible
   (first
    | intro x | assumption | apply keeps_setChan | apply keeps_ite | apply keeps_ite_fst | split)

theorem keeps_placeSymbol {w : Bool} {r : State} : ∀ s a1 a2 a3 a4 a5 a6 a7 a8 a9, Keeps w r s → Keeps w r
    (State.placeSymbol s a1 a2 a3 a4 a5 a6 a7 a8 a9) := by
  intros; unfold State.placeSymbol; try dsimp only
  repeat' with_reducible
   (first
    | intro x | assumption | apply keeps_setChan | apply keeps_placeDrive | apply keeps_clash | apply keeps_ite
    | apply keeps_ite_fst)

theorem keeps_placeChan {w : Bool} {r : State} : ∀ s a1 a2 a3 a4 a5, Keeps w r s → Keeps w r (State.placeChan s a1
    a2 a3 a4 a5) := by
  intros; unfold State.placeChan; try dsimp only
  repeat' with_reducible
   (first
    | intro x | assumption | apply keeps_placeRecord | apply keeps_setChan | apply keeps_placeSymbol
    | apply keeps_ite | apply keeps_foldl)

theorem keeps_placeHold {w : Bool} {r : State} : ∀ s a1 a2 a3, Keeps w r s → Keeps w r (State.placeHold s a1 a2 a3)
    := by
  intros; unfold State.placeHold; try dsimp only
  repeat' with_reducible
   (first
    | intro x | assumption | apply keeps_placeRecord | apply keeps_ite | apply keeps_foldl)

theorem keeps_heldBy {w : Bool} {r : State} : ∀ s a1, Keeps w r s → Keeps w r (State.heldBy s a1).1 := by
  intros; unfold State.heldBy; try dsimp only
  repeat' with_reducible
   (first
    | intro x | assumption | apply keeps_burstFlags)

theorem keeps_poisonVector {w : Bool} {r : State} : ∀ s a1 a2 a3, Keeps w r s → Keeps w r (State.poisonVector s a1
    a2 a3) := by
  intros; unfold State.poisonVector; try dsimp only
  repeat' with_reducible
   (first
    | intro x | assumption | apply keeps_setEye | apply keeps_bump | apply keeps_put | apply keeps_rise
    | apply keeps_burstFail)

theorem keeps_resCorr {w : Bool} {r : State} : ∀ s a1 a2, Keeps w r s → Keeps w r (State.resCorr s a1 a2) := by
  intros; unfold State.resCorr; try dsimp only
  repeat' with_reducible
   (first
    | intro x | assumption | apply keeps_bump | apply keeps_rise | apply keeps_ite)

theorem keeps_placeEye {w : Bool} {r : State} : ∀ s a1 a2 a3, Keeps w r s → Keeps w r (State.placeEye s a1 a2 a3).1
    := by
  intros; unfold State.placeEye; try dsimp only
  repeat' with_reducible
   (first
    | intro x | assumption | apply keeps_resCorr | apply keeps_poisonVector | apply keeps_heldBy
    | apply keeps_placeHold | apply keeps_setEye | apply keeps_placeChan | apply keeps_closeVec | apply keeps_ite
    | apply keeps_ite_fst | apply keeps_foldl | split)

theorem keeps_placeDue {w : Bool} {r : State} : ∀ s a1, Keeps w r s → Keeps w r (State.placeDue s a1) := by
  intros; unfold State.placeDue; try dsimp only
  repeat' with_reducible
   (first
    | intro x | assumption | apply keeps_upToQ | apply keeps_setChan | apply keeps_seeWin | apply keeps_closeWin
    | apply keeps_judge | apply keeps_closeVec | apply keeps_ite | split)

theorem keeps_placeTo {w : Bool} {r : State} : ∀ s a1 a2 a3, Keeps w r s → Keeps w r (State.placeTo s a1 a2 a3) := by
  intro s c t n; induction n generalizing s with
  | zero => exact id
  | succ n ih =>
    intro h; unfold State.placeTo
    split
    · exact h
    · exact keeps_ite (ih _ (keeps_placeDue _ _ h)) h

theorem keeps_markRec {w : Bool} {r : State} : ∀ s a1 a2 a3, Keeps w r s → Keeps w r (State.markRec s a1 a2 a3) :=
    by
  intros; unfold State.markRec; try dsimp only
  repeat' with_reducible
   (first
    | intro x | assumption | apply keeps_flogOffer)

theorem keeps_logStop {w : Bool} {r : State} : ∀ s a1, Keeps w r s → Keeps w r (State.logStop s a1) := by
  intros; unfold State.logStop; try dsimp only
  repeat' with_reducible
   (first
    | intro x | assumption | apply keeps_put)

theorem keeps_eyeInForce {w : Bool} {r : State} : ∀ s a1, Keeps w r s → Keeps w r (State.eyeInForce s a1) := by
  intros; unfold State.eyeInForce; try dsimp only
  repeat' with_reducible
   (first
    | intro x | assumption | apply keeps_inForceRange | apply keeps_inForce | apply keeps_foldl)

theorem keeps_unmask {w : Bool} {r : State} : ∀ s a1, Keeps w r s → Keeps w r (State.unmask s a1) := by
  intros; unfold State.unmask; try dsimp only
  repeat' with_reducible
   (first
    | intro x | assumption | apply keeps_setBitAt | apply keeps_siteMaskForce | apply keeps_foldl)

theorem keeps_burstsEnd {w : Bool} {r : State} : ∀ s a1 a2, Keeps w r s → Keeps w r (State.burstsEnd s a1 a2) := by
  intros; unfold State.burstsEnd; try dsimp only
  repeat' with_reducible
   (first
    | intro x | assumption | apply keeps_burstFail | apply keeps_modTicket | apply keeps_ite | apply keeps_foldl)

theorem keeps_closeAll {w : Bool} {r : State} : ∀ s a1, Keeps w r s → Keeps w r (State.closeAll s a1) := by
  intros; unfold State.closeAll; try dsimp only
  repeat' with_reducible
   (first
    | intro x | assumption | apply keeps_closeVec | apply keeps_foldl)

theorem keeps_eyeStopped {w : Bool} {r : State} : ∀ s a1, Keeps w r s → Keeps w r (State.eyeStopped s a1) := by
  intros; unfold State.eyeStopped; try dsimp only
  repeat' with_reducible
   (first
    | intro x | assumption | apply keeps_setEye | apply keeps_set | apply keeps_put | apply keeps_eyeInForce
    | apply keeps_ddsUnfix)

theorem keeps_stopChan {w : Bool} {r : State} : ∀ s a1 a2 a3, Keeps w r s → Keeps w r (State.stopChan s a1 a2 a3) :=
    by
  intros; unfold State.stopChan; try dsimp only
  repeat' with_reducible
   (first
    | intro x | assumption | apply keeps_parkCh | apply keeps_placeTo | apply keeps_idleCh | apply keeps_ite)

theorem keeps_stopGroup {w : Bool} {r : State} : ∀ s a1 a2 a3, Keeps w r s → Keeps w r (State.stopGroup s a1 a2 a3)
    := by
  intros; unfold State.stopGroup; try dsimp only
  repeat' with_reducible
   (first
    | intro x | assumption | apply keeps_stopChan | apply keeps_closeAll | apply keeps_markRec
    | apply keeps_logStop | apply keeps_unmask | apply keeps_eyeStopped | apply keeps_burstsEnd | apply keeps_ite
    | apply keeps_foldl | refine keeps_mk ?_ rfl rfl)

theorem keeps_slackZero {w : Bool} {r : State} : ∀ s a1, Keeps w r s → Keeps w r (State.slackZero s a1) := by
  intros; unfold State.slackZero; try dsimp only
  repeat' with_reducible
   (first
    | intro x | assumption | apply keeps_set)

theorem keeps_missNote {w : Bool} {r : State} : ∀ s a1 a2, Keeps w r s → Keeps w r (State.missNote s a1 a2) := by
  intros; unfold State.missNote; try dsimp only
  repeat' with_reducible
   (first
    | intro x | assumption | apply keeps_put | apply keeps_bump | apply keeps_slackZero)

theorem keeps_missMark {w : Bool} {r : State} : ∀ s a1, Keeps w r s → Keeps w r (State.missMark s a1) := by
  intros; unfold State.missMark; try dsimp only
  repeat' with_reducible
   (first
    | intro x | assumption | apply keeps_missNote | apply keeps_ite | apply keeps_foldl)

theorem keeps_parkGroup {w : Bool} {r : State} : ∀ s a1 a2, Keeps w r s → Keeps w r (State.parkGroup s a1 a2) := by
  intros; unfold State.parkGroup; try dsimp only
  repeat' with_reducible
   (first
    | intro x | assumption | apply keeps_missMark | apply keeps_stopGroup)

theorem keeps_stageUnderrun {w : Bool} {r : State} : ∀ s a1, Keeps w r s → Keeps w r (State.stageUnderrun s a1) :=
    by
  intros; unfold State.stageUnderrun; try dsimp only
  repeat' with_reducible
   (first
    | intro x | assumption | apply keeps_missNote | apply keeps_rise | apply keeps_stopGroup | apply keeps_foldl)

theorem keeps_stopFor {w : Bool} {r : State} : ∀ s a1 a2, Keeps w r s → Keeps w r (State.stopFor s a1 a2) := by
  intros; unfold State.stopFor; try dsimp only
  repeat' with_reducible
   (first
    | intro x | assumption | apply keeps_put | apply keeps_rise | apply keeps_stopGroup
    | apply keeps_stageUnderrun | apply keeps_ite)

theorem keeps_underrun {w : Bool} {r : State} : ∀ s a1, Keeps w r s → Keeps w r (State.underrun s a1) := by
  intros; unfold State.underrun; try dsimp only
  repeat' with_reducible
   (first
    | intro x | assumption | apply keeps_missNote | apply keeps_rise | apply keeps_stopGroup | apply keeps_ite
    | apply keeps_foldl)

theorem keeps_wftCommit {w : Bool} {r : State} : ∀ s a1, Keeps w r s → Keeps w r (State.wftCommit s a1) := by
  intros; unfold State.wftCommit; try dsimp only
  repeat' with_reducible
   (first
    | intro x | assumption | apply keeps_put | apply keeps_upsetClear | apply keeps_copyStart | apply keeps_ite
    | refine keeps_mk ?_ rfl rfl)

theorem keeps_dmapCommit {w : Bool} {r : State} : ∀ s a1, Keeps w r s → Keeps w r (State.dmapCommit s a1) := by
  intros; unfold State.dmapCommit; try dsimp only
  repeat' with_reducible
   (first
    | intro x | assumption | apply keeps_put | apply keeps_copyStart | apply keeps_foldl
    | refine keeps_mk ?_ rfl rfl)

theorem keeps_granForce {w : Bool} {r : State} : ∀ s a1, Keeps w r s → Keeps w r (State.granForce s a1).1 := by
  intros; unfold State.granForce; try dsimp only
  repeat' with_reducible
   (first
    | intro x | assumption | apply keeps_wftCommit | apply keeps_inForce | apply keeps_siteMaskForce
    | apply keeps_setBitAt | apply keeps_ite | apply keeps_ite_fst | apply keeps_foldl)

theorem keeps_advance {w : Bool} {r : State} : ∀ s a1 a2, Keeps w r s → Keeps w r (State.advance s a1 a2) := by
  intros; unfold State.advance; try dsimp only
  repeat' with_reducible
   (first
    | intro x | assumption | apply keeps_keep)

theorem keeps_holdVector {w : Bool} {r : State} : ∀ s a1, Keeps w r s → Keeps w r (State.holdVector s a1) := by
  intros; unfold State.holdVector; try dsimp only
  repeat' with_reducible
   (first
    | intro x | assumption | apply keeps_placeHold | apply keeps_heldBy | apply keeps_advance | apply keeps_foldl)

theorem keeps_siteClear {w : Bool} {r : State} : ∀ s a1, Keeps w r s → Keeps w r (State.siteClear s a1) := by
  intros; unfold State.siteClear; try dsimp only
  repeat' with_reducible
   (first
    | intro x | assumption | apply keeps_setSite | apply keeps_setBitAt | refine keeps_mk ?_ rfl rfl)

theorem keeps_chanClear {w : Bool} {r : State} : ∀ s a1, Keeps w r s → Keeps w r (State.chanClear s a1) := by
  intros; unfold State.chanClear; try dsimp only
  repeat' with_reducible
   (first
    | intro x | assumption | apply keeps_set | apply keeps_setBitAt | refine keeps_mk ?_ rfl rfl)

theorem keeps_chanBegin {w : Bool} {r : State} : ∀ s a1, Keeps w r s → Keeps w r (State.chanBegin s a1) := by
  intros; unfold State.chanBegin; try dsimp only
  repeat' with_reducible
   (first
    | intro x | assumption | apply keeps_setChan | apply keeps_put | apply keeps_ite)

theorem keeps_levelClear {w : Bool} {r : State} : ∀ s a1, Keeps w r s → Keeps w r (State.levelClear s a1) := by
  intros; unfold State.levelClear; try dsimp only
  repeat' with_reducible
   (first
    | intro x | assumption | apply keeps_evtRelease | apply keeps_ite)

theorem keeps_takeOver {w : Bool} {r : State} : ∀ s a1 a2, Keeps w r s → Keeps w r (State.takeOver s a1 a2) := by
  intros; unfold State.takeOver; try dsimp only
  repeat' with_reducible
   (first
    | intro x | assumption | apply keeps_setSpr | apply keeps_put | apply keeps_set | apply keeps_rise
    | apply keeps_set64 | apply keeps_ite | split | refine keeps_mk ?_ rfl rfl)

theorem keeps_takeDue {w : Bool} {r : State} : ∀ s a1 a2, Keeps w r s → Keeps w r (State.takeDue s a1 a2) := by
  intros; unfold State.takeDue; try dsimp only
  repeat' with_reducible
   (first
    | intro x | assumption | apply keeps_takeOver | apply keeps_ite | split)

theorem keeps_takeNow {w : Bool} {r : State} : ∀ s a1, Keeps w r s → Keeps w r (State.takeNow s a1) := by
  intros; unfold State.takeNow; try dsimp only
  repeat' with_reducible
   (first
    | intro x | assumption | apply keeps_takeOver | apply keeps_ite)

theorem keeps_trackOverlap {w : Bool} {r : State} : ∀ s a1 a2, Keeps w r s → Keeps w r (State.trackOverlap s a1 a2)
    := by
  intros; unfold State.trackOverlap; try dsimp only
  repeat' with_reducible
   (first
    | intro x | assumption | apply keeps_burstFail | apply keeps_ite)

theorem keeps_runBegin {w : Bool} {r : State} : ∀ s a1, Keeps w r s → Keeps w r (State.runBegin s a1) := by
  intros; unfold State.runBegin; try dsimp only
  repeat' with_reducible
   (first
    | intro x | assumption | apply keeps_takeNow | apply keeps_siteClear | apply keeps_chanClear
    | apply keeps_chanBegin | apply keeps_levelClear | apply keeps_markRec | apply keeps_modTicket
    | apply keeps_trackOverlap | apply keeps_foldl)

theorem keeps_segSeen {w : Bool} {r : State} : ∀ s a1, Keeps w r s → Keeps w r (State.segSeen s a1) := by
  intros; unfold State.segSeen; try dsimp only
  repeat' with_reducible
   (first
    | intro x | assumption | apply keeps_setTrg | apply keeps_ite | apply keeps_foldl)

theorem keeps_passBegin {w : Bool} {r : State} : ∀ s a1, Keeps w r s → Keeps w r (State.passBegin s a1) := by
  intros; unfold State.passBegin; try dsimp only
  repeat' with_reducible
   (first
    | intro x | assumption | apply keeps_dmapCommit | apply keeps_setEye | apply keeps_ddsSegment
    | apply keeps_segSeen | apply keeps_ite | apply keeps_foldl)

theorem keeps_playVector {w : Bool} {r : State} : ∀ s a1, Keeps w r s → Keeps w r (State.playVector s a1) := by
  intros; unfold State.playVector; try dsimp only
  repeat' with_reducible
   (first
    | intro x | assumption | apply keeps_decideNext | apply keeps_requestAll | apply keeps_runBegin
    | apply keeps_passBegin | apply keeps_placeEye | apply keeps_advance | apply keeps_ite | apply keeps_ite_fst
    | apply keeps_foldl | apply keeps_foldl_fst)

theorem keeps_granBoundary {w : Bool} {r : State} : ∀ s a1, Keeps w r s → Keeps w r (State.granBoundary s a1) := by
  intros; unfold State.granBoundary; try dsimp only
  repeat' with_reducible
   (first
    | intro x | assumption | apply keeps_granForce | apply keeps_checkNext | apply keeps_playVector
    | apply keeps_setEye | apply keeps_put | apply keeps_bump | apply keeps_rise | apply keeps_holdVector
    | apply keeps_underrun | apply keeps_ite | apply keeps_ite_fst | apply keeps_foldl)

theorem keeps_syncUsed {w : Bool} {r : State} : ∀ s a1, Keeps w r s → Keeps w r (State.syncUsed s a1) := by
  intros; unfold State.syncUsed; try dsimp only
  repeat' with_reducible
   (first
    | intro x | assumption | apply keeps_setEye | apply keeps_put)

theorem keeps_syncLate {w : Bool} {r : State} : ∀ s a1, Keeps w r s → Keeps w r (State.syncLate s a1) := by
  intros; unfold State.syncLate; try dsimp only
  repeat' with_reducible
   (first
    | intro x | assumption | apply keeps_put | apply keeps_rise | apply keeps_stopGroup | apply keeps_syncUsed
    | apply keeps_burstFlags | apply keeps_granBoundary | apply keeps_ite)

theorem keeps_syncBoundary {w : Bool} {r : State} : ∀ s a1, Keeps w r s → Keeps w r (State.syncBoundary s a1) := by
  intros; unfold State.syncBoundary; try dsimp only
  repeat' with_reducible
   (first
    | intro x | assumption | apply keeps_keep | apply keeps_syncUsed | apply keeps_granBoundary
    | apply keeps_syncLate | apply keeps_ite | split)

theorem keeps_segBoundary {w : Bool} {r : State} : ∀ s a1, Keeps w r s → Keeps w r (State.segBoundary s a1) := by
  intros; unfold State.segBoundary; try dsimp only
  repeat' with_reducible
   (first
    | intro x | assumption | apply keeps_stopFor | apply keeps_dmapCommit | apply keeps_syncBoundary
    | apply keeps_granBoundary | apply keeps_ite | apply keeps_foldl | split)

theorem keeps_groupVector {w : Bool} {r : State} : ∀ s a1, Keeps w r s → Keeps w r (State.groupVector s a1) := by
  intros; unfold State.groupVector; try dsimp only
  repeat' with_reducible
   (first
    | intro x | assumption | apply keeps_calVector | apply keeps_upToQ | apply keeps_takeDue
    | apply keeps_missMark | apply keeps_groupFlag | apply keeps_stopGroup | apply keeps_holdVector
    | apply keeps_segBoundary | apply keeps_granBoundary | apply keeps_playVector | apply keeps_ite
    | apply keeps_foldl)

theorem keeps_startRefused {w : Bool} {r : State} : ∀ s a1 a2, Keeps w r s → Keeps w r (State.startRefused s a1 a2)
    := by
  intros; unfold State.startRefused; try dsimp only
  repeat' with_reducible
   (first
    | intro x | assumption | apply keeps_put | apply keeps_set | apply keeps_rise)

theorem keeps_startGroup {w : Bool} {r : State} : ∀ s a1 a2 a3, Keeps w r s → Keeps w r (State.startGroup s a1 a2
    a3) := by
  intros; unfold State.startGroup; try dsimp only
  repeat' with_reducible
   (first
    | intro x | assumption | apply keeps_segRead | apply keeps_setEye | apply keeps_wr | apply keeps_inForce
    | apply keeps_set | apply keeps_ddsFixed | apply keeps_decideEarly | apply keeps_ddsGroupStart
    | apply keeps_requestAll | apply keeps_keep | apply keeps_ite | apply keeps_ite_fst | apply keeps_foldl
    | split | refine keeps_mk ?_ rfl rfl)

theorem keeps_goSeq {w : Bool} {r : State} : ∀ s a1 a2 a3, Keeps w r s → Keeps w r (State.goSeq s a1 a2 a3).1 := by
  intros; unfold State.goSeq; try dsimp only
  repeat' with_reducible
   (first
    | intro x | assumption | apply keeps_startGroup | apply keeps_segRead | apply keeps_startRefused
    | apply keeps_ite | apply keeps_ite_fst)

theorem keeps_ddsFixedAll {w : Bool} {r : State} : ∀ s a1, Keeps w r s → Keeps w r (State.ddsFixedAll s a1) := by
  intros; unfold State.ddsFixedAll; try dsimp only
  repeat' with_reducible
   (first
    | intro x | assumption | apply keeps_ddsFixed | apply keeps_foldl | apply keeps_foldl_fst)

theorem keeps_groupLace {w : Bool} {r : State} : ∀ s a1 a2, Keeps w r s → Keeps w r (State.groupLace s a1 a2) := by
  intros; unfold State.groupLace; try dsimp only
  repeat' with_reducible
   (first
    | intro x | assumption | apply keeps_keep | apply keeps_ddsFixedAll | apply keeps_ddsGroupStart
    | apply keeps_startRefused | apply keeps_stopGroup | apply keeps_ite | apply keeps_foldl)

theorem keeps_stopSeq {w : Bool} {r : State} : ∀ s a1, Keeps w r s → Keeps w r (State.stopSeq s a1) := by
  intros; unfold State.stopSeq; try dsimp only
  repeat' with_reducible
   (first
    | intro x | assumption | apply keeps_keep | apply keeps_stopGroup | split)

theorem keeps_abortSeq {w : Bool} {r : State} : ∀ s a1, Keeps w r s → Keeps w r (State.abortSeq s a1) := by
  intros; unfold State.abortSeq; try dsimp only
  repeat' with_reducible
   (first
    | intro x | assumption | apply keeps_keep | apply keeps_groupFlag | apply keeps_stopGroup | split)

theorem keeps_syncArm {w : Bool} {r : State} : ∀ s a1 a2, Keeps w r s → Keeps w r (State.syncArm s a1 a2) := by
  intros; unfold State.syncArm; try dsimp only
  repeat' with_reducible
   (first
    | intro x | assumption | apply keeps_setEye | apply keeps_put | apply keeps_syncLate | apply keeps_ite | split)

theorem keeps_syncReached {w : Bool} {r : State} : ∀ s a1, Keeps w r s → Keeps w r (State.syncReached s a1) := by
  intros; unfold State.syncReached; try dsimp only
  repeat' with_reducible
   (first
    | intro x | assumption | apply keeps_upToQ | apply keeps_syncUsed | apply keeps_granBoundary | apply keeps_ite
    | split)

theorem keeps_leadMoves {w : Bool} {r : State} : ∀ s a1 a2, Keeps w r s → Keeps w r (State.leadMoves s a1 a2) := by
  intros; unfold State.leadMoves; try dsimp only
  repeat' with_reducible
   (first
    | intro x | assumption | apply keeps_set | apply keeps_setEye | apply keeps_put | split)

theorem keeps_chanLeave {w : Bool} {r : State} : ∀ s a1, Keeps w r s → Keeps w r (State.chanLeave s a1) := by
  intros; unfold State.chanLeave; try dsimp only
  repeat' with_reducible
   (first
    | intro x | assumption | apply keeps_setGroup | apply keeps_ite | split)

theorem keeps_leaveGroup {w : Bool} {r : State} : ∀ s a1 a2, Keeps w r s → Keeps w r (State.leaveGroup s a1 a2) :=
    by
  intros; unfold State.leaveGroup; try dsimp only
  repeat' with_reducible
   (first
    | intro x | assumption | apply keeps_parkGroup | apply keeps_parkCh | apply keeps_missMark
    | apply keeps_burstFail | apply keeps_closeAll | apply keeps_markRec | apply keeps_logStop
    | apply keeps_leadMoves | apply keeps_eyeStopped | apply keeps_groupSync | apply keeps_ite | apply keeps_foldl
    | split | refine keeps_mk ?_ rfl rfl)

theorem keeps_offReset {w : Bool} {r : State} : ∀ s a1 f, (∀ t, Keeps w r t → Keeps w r (f t)) → Keeps w r s → Keeps
    w r (State.offReset s a1 f) := by
  intros; unfold State.offReset; try dsimp only
  repeat' with_reducible
   (first
    | intro x | assumption | apply keeps_ite | apply_assumption)

theorem keeps_onLink {w : Bool} {r : State} : ∀ s a1 f, (∀ t, Keeps w r t → Keeps w r (f t)) → Keeps w r s → Keeps w
    r (State.onLink s a1 f) := by
  intros; unfold State.onLink; try dsimp only
  repeat' with_reducible
   (first
    | intro x | assumption | apply keeps_emit | apply keeps_ite | apply_assumption)

theorem keeps_onPage {w : Bool} {r : State} : ∀ s a1 f, (∀ t, Keeps w r t → Keeps w r (f t)) → Keeps w r s → Keeps w
    r (State.onPage s a1 f) := by
  intros; unfold State.onPage; try dsimp only
  repeat' with_reducible
   (first
    | intro x | assumption | apply keeps_onLink | apply keeps_offReset | apply keeps_ite | apply_assumption)

theorem keeps_idleForce {w : Bool} {r : State} : ∀ s a1, Keeps w r s → Keeps w r (State.idleForce s a1) := by
  intros; unfold State.idleForce; try dsimp only
  repeat' with_reducible
   (first
    | intro x | assumption | apply keeps_siteMaskForce | apply keeps_inForce | apply keeps_inForceRange
    | apply keeps_ite | apply keeps_foldl)

theorem keeps_writeReg {w : Bool} {r : State} : ∀ s a1 a2 a3 a4, Keeps w r s → Keeps w r (State.writeReg s a1 a2 a3
    a4) := by
  intros; unfold State.writeReg; try dsimp only
  repeat' with_reducible
   (first
    | intro x | assumption | apply keeps_writeAt | apply keeps_idleForce)

theorem keeps_answer {w : Bool} {r : State} : ∀ s a1, Keeps w r s → Keeps w r (State.answer s a1) := by
  intros; unfold State.answer; try dsimp only
  repeat' with_reducible
   (first
    | intro x | assumption | apply keeps_emit)

theorem keeps_hostRead {w : Bool} {r : State} : ∀ s f, (∀ t, Keeps w r t → Keeps w r (f t).1) → Keeps w r s → Keeps
    w r (State.hostRead s f) := by
  intro s f hf h
  exact keeps_onLink _ _ _ (fun t ht => keeps_answer _ _ (hf t ht)) h

theorem keeps_readPage {w : Bool} {r : State} : ∀ s a1 f, (∀ t, Keeps w r t → Keeps w r (f t).1) → Keeps w r s →
    Keeps w r (State.readPage s a1 f) := by
  intro s p f hf h
  exact keeps_hostRead _ _ (fun t ht => keeps_ite_fst (hf t ht) ht) h

theorem keeps_autoInc {w : Bool} {r : State} : ∀ s a1 a2 a3, Keeps w r s → Keeps w r (State.autoInc s a1 a2 a3) :=
    by
  intros; unfold State.autoInc; try dsimp only
  repeat' with_reducible
   (first
    | intro x | assumption | apply keeps_wr | apply keeps_ite)

theorem keeps_segWrite {w : Bool} {r : State} : ∀ s a1 a2 a3, Keeps w r s → Keeps w r (State.segWrite s a1 a2 a3) :=
    by
  intros; unfold State.segWrite; try dsimp only
  repeat' with_reducible
   (first
    | intro x | assumption | apply keeps_put | apply keeps_set | apply keeps_ite | split
    | refine keeps_mk ?_ rfl rfl)

theorem keeps_segCommit {w : Bool} {r : State} : ∀ s, Keeps w r s → Keeps w r (State.segCommit s) := by
  intros; unfold State.segCommit; try dsimp only
  repeat' with_reducible
   (first
    | intro x | assumption | apply keeps_put | apply keeps_set | apply keeps_rise | apply keeps_upsetClear
    | apply keeps_copyStart | apply keeps_foldl | split | refine keeps_mk ?_ rfl rfl)

theorem keeps_setAne {w : Bool} {r : State} : ∀ s a1 a2, Keeps w r s → Keeps w r (State.setAne s a1 a2) := by
  intros; unfold State.setAne; try dsimp only
  repeat' with_reducible
   (first
    | intro x | assumption | refine keeps_mk ?_ rfl rfl)

theorem keeps_setAneState {w : Bool} {r : State} : ∀ s a1 a2, Keeps w r s → Keeps w r (State.setAneState s a1 a2) :=
    by
  intros; unfold State.setAneState; try dsimp only
  repeat' with_reducible
   (first
    | intro x | assumption | apply keeps_set)

theorem keeps_spadRead {w : Bool} {r : State} : ∀ s a1 a2, Keeps w r s → Keeps w r (State.spadRead s a1 a2).1 := by
  intros; unfold State.spadRead; try dsimp only
  repeat' with_reducible
   (first
    | intro x | assumption | apply keeps_bump | apply keeps_rise | apply keeps_ite)

theorem keeps_spadPut {w : Bool} {r : State} : ∀ s a1 a2 a3 a4, Keeps w r s → Keeps w r (State.spadPut s a1 a2 a3
    a4) := by
  intros; unfold State.spadPut; try dsimp only
  repeat' with_reducible
   (first
    | intro x | assumption | apply keeps_ite | refine keeps_mk ?_ rfl rfl)

theorem keeps_spadPart {w : Bool} {r : State} : ∀ s a1 a2 a3 a4 a5, Keeps w r s → Keeps w r (State.spadPart s a1 a2
    a3 a4 a5) := by
  intros; unfold State.spadPart; try dsimp only
  repeat' with_reducible
   (first
    | intro x | assumption | apply keeps_spadPut)

theorem keeps_spadAtomic {w : Bool} {r : State} : ∀ s a1 a2 a3 a4, Keeps w r s → Keeps w r (State.spadAtomic s a1 a2
    a3 a4).1 := by
  intros; unfold State.spadAtomic; try dsimp only
  repeat' with_reducible
   (first
    | intro x | assumption | apply keeps_spadRead | apply keeps_spadPut)

theorem keeps_aneSync {w : Bool} {r : State} : ∀ s a1, Keeps w r s → Keeps w r (State.aneSync s a1) := by
  intros; unfold State.aneSync; try dsimp only
  repeat' with_reducible
   (first
    | intro x | assumption | apply keeps_set)

theorem keeps_aneRest {w : Bool} {r : State} : ∀ s a1, Keeps w r s → Keeps w r (State.aneRest s a1) := by
  intros; unfold State.aneRest; try dsimp only
  repeat' with_reducible
   (first
    | intro x | assumption | apply keeps_setAneState)

theorem keeps_xferUnit {r : State} : ∀ s a1 a2 a3 a4, Keeps true r s → Keeps true r (State.xferUnit s a1 a2 a3 a4)
    := by
  intros; unfold State.xferUnit; try dsimp only
  repeat' with_reducible
   (first
    | intro x | assumption | apply keeps_spadRead | apply keeps_hbmPutAccess | apply keeps_hbmTouch
    | apply keeps_spadPut | apply keeps_ite | apply keeps_ite_fst | apply keeps_foldl | apply keeps_foldl_fst)

theorem keeps_xferSome {r : State} : ∀ s a1 a2 a3 a4, Keeps true r s → Keeps true r (State.xferSome s a1 a2 a3 a4)
    := by
  intros; unfold State.xferSome; try dsimp only
  repeat' with_reducible
   (first
    | intro x | assumption | apply keeps_xferUnit | apply keeps_foldl)

theorem keeps_xferStop {r : State} : ∀ s a1, Keeps true r s → Keeps true r (State.xferStop s a1) := by
  intros; unfold State.xferStop; try dsimp only
  repeat' with_reducible
   (first
    | intro x | assumption | apply keeps_fresh | apply keeps_xferSome | split)

theorem keeps_aneReport {w : Bool} {r : State} : ∀ s a1 a2 a3 a4 a5, Keeps w r s → Keeps w r (State.aneReport s a1
    a2 a3 a4 a5) := by
  intros; unfold State.aneReport; try dsimp only
  repeat' with_reducible
   (first
    | intro x | assumption | apply keeps_setCore | apply keeps_setSite | apply keeps_modOpen | apply keeps_ite
    | split)

theorem keeps_aneEnd {r : State} : ∀ s a1 a2, Keeps true r s → Keeps true r (State.aneEnd s a1 a2) := by
  intros; unfold State.aneEnd; try dsimp only
  repeat' with_reducible
   (first
    | intro x | assumption | apply keeps_xferStop | apply keeps_set | apply keeps_put | apply keeps_rise
    | apply keeps_aneRest | apply keeps_aneReport | apply keeps_setAne | apply keeps_ite | split)

theorem keeps_aneFetch {r : State} : ∀ s a1 a2 a3, Keeps true r s → Keeps true r (State.aneFetch s a1 a2 a3) := by
  intros; unfold State.aneFetch; try dsimp only
  repeat' with_reducible
   (first
    | intro x | assumption | apply keeps_aneEnd | apply keeps_set | apply keeps_rise | apply keeps_put
    | apply keeps_bump | apply keeps_ite)

theorem keeps_laneDone {w : Bool} {r : State} : ∀ s a1 a2 a3 a4 a5, Keeps w r s → Keeps w r (State.laneDone s a1 a2
    a3 a4 a5) := by
  intros; unfold State.laneDone; try dsimp only
  repeat' with_reducible
   (first
    | intro x | assumption | apply keeps_setAne)

theorem keeps_laneDst {w : Bool} {r : State} : ∀ s a1 a2 a3 a4 a5, Keeps w r s → Keeps w r (State.laneDst s a1 a2 a3
    a4 a5) := by
  intros; unfold State.laneDst; try dsimp only
  repeat' with_reducible
   (first
    | intro x | assumption | apply keeps_laneDone | apply keeps_ite)

theorem keeps_laneAcc {w : Bool} {r : State} : ∀ s a1 a2 a3 a4 a5, Keeps w r s → Keeps w r (State.laneAcc s a1 a2 a3
    a4 a5) := by
  intros; unfold State.laneAcc; try dsimp only
  repeat' with_reducible
   (first
    | intro x | assumption | apply keeps_laneDone | apply keeps_ite)

theorem keeps_laneCmp {w : Bool} {r : State} : ∀ s a1 a2 a3, Keeps w r s → Keeps w r (State.laneCmp s a1 a2 a3) :=
    by
  intros; unfold State.laneCmp; try dsimp only
  repeat' with_reducible
   (first
    | intro x | assumption | apply keeps_laneDone | apply keeps_ite)

theorem keeps_laneMova {w : Bool} {r : State} : ∀ s a1, Keeps w r s → Keeps w r (State.laneMova s a1) := by
  intros; unfold State.laneMova; try dsimp only
  repeat' with_reducible
   (first
    | intro x | assumption | apply keeps_laneDone | apply keeps_ite)

theorem keeps_laneRsum {w : Bool} {r : State} : ∀ s a1, Keeps w r s → Keeps w r (State.laneRsum s a1) := by
  intros; unfold State.laneRsum; try dsimp only
  repeat' with_reducible
   (first
    | intro x | assumption | apply keeps_bump | apply keeps_laneDone | apply keeps_ite)

theorem keeps_aneLoad {w : Bool} {r : State} : ∀ s a1 a2 a3 a4 a5 a6, Keeps w r s → Keeps w r (State.aneLoad s a1 a2
    a3 a4 a5 a6) := by
  intros; unfold State.aneLoad; try dsimp only
  repeat' with_reducible
   (first
    | intro x | assumption | apply keeps_spadRead | apply keeps_bump | apply keeps_setAne | apply keeps_ite
    | apply keeps_ite_fst | apply keeps_foldl | apply keeps_foldl_fst)

theorem keeps_aneArrive {w : Bool} {r : State} : ∀ s a1 a2, Keeps w r s → Keeps w r (State.aneArrive s a1 a2) := by
  intros; unfold State.aneArrive; try dsimp only
  repeat' with_reducible
   (first
    | intro x | assumption | apply keeps_setAne | apply keeps_bump | apply keeps_ite | apply keeps_foldl | split)

theorem keeps_aneStore {w : Bool} {r : State} : ∀ s a1 a2 f a3, (∀ t x0, Keeps w r t → Keeps w r (f t x0)) →
    Keeps w r s → Keeps w r (State.aneStore s a1 a2 f a3) := by
  intro s q o f k hf h; unfold State.aneStore
  extract_lets
  split
  · exact keeps_setAne _ _ _ (keeps_bump _ _ _ _ (keeps_bump _ _ _ _ (hf _ _ h)))
  · exact h

theorem keeps_putHalves {w : Bool} {r : State} : ∀ a1 s a2, Keeps w r s → Keeps w r (State.putHalves a1 s a2) := by
  intros; unfold State.putHalves; try dsimp only
  repeat' with_reducible
   (first
    | intro x | assumption | apply keeps_spadPart | apply keeps_ite | apply keeps_foldl)

theorem keeps_putWords {w : Bool} {r : State} : ∀ a1 s a2, Keeps w r s → Keeps w r (State.putWords a1 s a2) := by
  intros; unfold State.putWords; try dsimp only
  repeat' with_reducible
   (first
    | intro x | assumption | apply keeps_spadPut | apply keeps_foldl)

theorem keeps_putSums {w : Bool} {r : State} : ∀ a1 s a2, Keeps w r s → Keeps w r (State.putSums a1 s a2) := by
  intros; unfold State.putSums; try dsimp only
  repeat' with_reducible
   (first
    | intro x | assumption | apply keeps_spadRead | apply keeps_spadPut | apply keeps_foldl)

theorem keeps_wordEnd {w : Bool} {r : State} : ∀ s a1, Keeps w r s → Keeps w r (State.wordEnd s a1) := by
  intros; unfold State.wordEnd; try dsimp only
  repeat' with_reducible
   (first
    | intro x | assumption | apply keeps_bump | apply keeps_setAne)

theorem keeps_aneGo {r : State} : ∀ s a1 a2 a3, Keeps true r s → Keeps true r (State.aneGo s a1 a2 a3) := by
  intros; unfold State.aneGo; try dsimp only
  repeat' with_reducible
   (first
    | intro x | assumption | apply keeps_setAne | apply keeps_aneFetch)

theorem keeps_aneNext {r : State} : ∀ s a1 a2, Keeps true r s → Keeps true r (State.aneNext s a1 a2) := by
  intros; unfold State.aneNext; try dsimp only
  repeat' with_reducible
   (first
    | intro x | assumption | apply keeps_aneGo)

theorem keeps_aneSeq {w : Bool} {r : State} : ∀ s a1 a2 f, (∀ t x0 x1 x2, Keeps w r t → Keeps w r (f t x0 x1 x2)) →
    Keeps w r s → Keeps w r (State.aneSeq s a1 a2 f) := by
  intros; unfold State.aneSeq; try dsimp only
  repeat' with_reducible
   (first
    | intro x | assumption | apply keeps_wordEnd | apply keeps_ite | apply_assumption)

theorem keeps_aneBlock {r : State} : ∀ s a1 a2 a3 a4 a5, Keeps true r s → Keeps true r (State.aneBlock s a1 a2 a3 a4
    a5) := by
  intros; unfold State.aneBlock; try dsimp only
  repeat' with_reducible
   (first
    | intro x | assumption | apply keeps_aneEnd | apply keeps_aneGo | apply keeps_ite)

theorem keeps_aneCond {w : Bool} {r : State} : ∀ s a1 a2, Keeps w r s → Keeps w r (State.aneCond s a1 a2).1 := by
  intros; unfold State.aneCond; try dsimp only
  repeat' with_reducible
   (first
    | intro x | assumption | apply keeps_setAne | apply keeps_ite | apply keeps_ite_fst)

theorem keeps_aneRet {r : State} : ∀ s a1, Keeps true r s → Keeps true r (State.aneRet s a1) := by
  intros; unfold State.aneRet; try dsimp only
  repeat' with_reducible
   (first
    | intro x | assumption | apply keeps_setAne | apply keeps_aneNext | apply keeps_aneEnd | split)

theorem keeps_aneStall {w : Bool} {r : State} : ∀ s a1 a2, Keeps w r s → Keeps w r (State.aneStall s a1 a2) := by
  intros; unfold State.aneStall; try dsimp only
  repeat' with_reducible
   (first
    | intro x | assumption | apply keeps_setAne | apply keeps_bump)

theorem keeps_aneBexp {w : Bool} {r : State} : ∀ s a1 a2 a3, Keeps w r s → Keeps w r (State.aneBexp s a1 a2 a3) :=
    by
  intros; unfold State.aneBexp; try dsimp only
  repeat' with_reducible
   (first
    | intro x | assumption | apply keeps_fresh | apply keeps_aneStall | apply keeps_setAne | apply keeps_set)

theorem keeps_aneLdp {w : Bool} {r : State} : ∀ s a1 a2 a3, Keeps w r s → Keeps w r (State.aneLdp s a1 a2 a3).1 :=
    by
  intros; unfold State.aneLdp; try dsimp only
  repeat' with_reducible
   (first
    | intro x | assumption | apply keeps_spadRead | apply keeps_setAne | apply keeps_ite | apply keeps_ite_fst)

end Sys2Proof.Machine
end

