-- ==== Sys2Proof/Laws/Keeps3.lean ====
section
/-!
SUPPORT. What each operation keeps (Laws/Keeps.lean), 3 of 6; operations come after those that they use.
-/
namespace Sys2Proof.Machine

open Sys2Proof

theorem keeps_aneRun {r : State} : ∀ s a1, Keeps true r s → Keeps true r (State.aneRun s a1) := by
  intros; unfold State.aneRun; try dsimp only
  repeat' with_reducible
   (first
    | intro x | assumption | apply keeps_setAneState | apply keeps_aneFetch)

theorem keeps_bankWait {w : Bool} {r : State} : ∀ s a1 a2 a3, Keeps w r s → Keeps w r (State.bankWait s a1 a2 a3) :=
    by
  intros; unfold State.bankWait; try dsimp only
  repeat' with_reducible
   (first
    | intro x | assumption | apply keeps_bump)

theorem keeps_xferDone {r : State} : ∀ s a1 a2, Keeps true r s → Keeps true r (State.xferDone s a1 a2) := by
  intros; unfold State.xferDone; try dsimp only
  repeat' with_reducible
   (first
    | intro x | assumption | apply keeps_xferSome | apply keeps_bankWait | apply keeps_setAne | apply keeps_aneRun
    | apply keeps_aneEnd | apply keeps_ite | split)

theorem keeps_aneDone {r : State} : ∀ s a1, Keeps true r s → Keeps true r (State.aneDone s a1) := by
  intros; unfold State.aneDone; try dsimp only
  repeat' with_reducible
   (first
    | intro x | assumption | apply keeps_aneEnd | apply keeps_setAne | apply keeps_setAneState | apply keeps_ite
    | split)

theorem keeps_jobBlur {w : Bool} {r : State} : ∀ s a1 a2 a3, Keeps w r s → Keeps w r (State.jobBlur s a1 a2 a3).1 :=
    by
  intros; unfold State.jobBlur; try dsimp only
  repeat' with_reducible
   (first
    | intro x | assumption | apply keeps_fresh | apply keeps_parityErr | apply keeps_set | apply keeps_ite
    | apply keeps_ite_fst | apply keeps_foldl | apply keeps_foldl_fst)

theorem keeps_aneTake {r : State} : ∀ s a1 a2, Keeps true r s → Keeps true r (State.aneTake s a1 a2) := by
  intros; unfold State.aneTake; try dsimp only
  repeat' with_reducible
   (first
    | intro x | assumption | apply keeps_jobBlur | apply keeps_spadPut | apply keeps_setAne | apply keeps_set
    | apply keeps_wr | apply keeps_aneSync | apply keeps_aneEnd | apply keeps_aneRun | apply keeps_setAneState
    | apply keeps_ite | apply keeps_ite_fst | apply keeps_foldl | split)

theorem keeps_aneCtl {r : State} : ∀ s a1 a2, Keeps true r s → Keeps true r (State.aneCtl s a1 a2) := by
  intros; unfold State.aneCtl; try dsimp only
  repeat' with_reducible
   (first
    | intro x | assumption | apply keeps_writeReg | apply keeps_aneEnd | apply keeps_aneRest | apply keeps_ite)

theorem keeps_jobPut {w : Bool} {r : State} : ∀ s a1 a2 a3, Keeps w r s → Keeps w r (State.jobPut s a1 a2 a3) := by
  intros; unfold State.jobPut; try dsimp only
  repeat' with_reducible
   (first
    | intro x | assumption | apply keeps_setAne | apply keeps_aneSync)

theorem keeps_jobqWrite {w : Bool} {r : State} : ∀ s a1 a2 a3, Keeps w r s → Keeps w r (State.jobqWrite s a1 a2 a3)
    := by
  intros; unfold State.jobqWrite; try dsimp only
  repeat' with_reducible
   (first
    | intro x | assumption | apply keeps_setAne | apply keeps_put | apply keeps_jobPut | apply keeps_ite)

theorem keeps_marchCtl {w : Bool} {r : State} : ∀ s a1 a2, Keeps w r s → Keeps w r (State.marchCtl s a1 a2) := by
  intros; unfold State.marchCtl; try dsimp only
  repeat' with_reducible
   (first
    | intro x | assumption | apply keeps_writeReg | apply keeps_setAne | apply keeps_setAneState | apply keeps_put
    | apply keeps_ite)

theorem keeps_marchDone {w : Bool} {r : State} : ∀ s a1 a2 a3 a4 a5, Keeps w r s → Keeps w r (State.marchDone s a1
    a2 a3 a4 a5) := by
  intros; unfold State.marchDone; try dsimp only
  repeat' with_reducible
   (first
    | intro x | assumption | apply keeps_set | apply keeps_put | apply keeps_setAne | apply keeps_setAneState
    | apply keeps_rise | apply keeps_ite | refine keeps_mk ?_ rfl rfl)

theorem keeps_bar4Wait {w : Bool} {r : State} : ∀ s a1 a2, Keeps w r s → Keeps w r (State.bar4Wait s a1 a2) := by
  intros; unfold State.bar4Wait; try dsimp only
  repeat' with_reducible
   (first
    | intro x | assumption | apply keeps_bankWait | apply keeps_ite)

theorem keeps_poisonRx {w : Bool} {r : State} : ∀ s, Keeps w r s → Keeps w r (State.poisonRx s) := by
  intros; unfold State.poisonRx; try dsimp only
  repeat' with_reducible
   (first
    | intro x | assumption | apply keeps_put | apply keeps_rise)

theorem keeps_ucPut {w : Bool} {r : State} : ∀ s a1 a2 a3, Keeps w r s → Keeps w r (State.ucPut s a1 a2 a3) := by
  intros; unfold State.ucPut; try dsimp only
  repeat' with_reducible
   (first
    | intro x | assumption | apply keeps_put | apply keeps_ite | apply keeps_foldl | refine keeps_mk ?_ rfl rfl)

theorem keeps_bar4Byte {w : Bool} {r : State} : ∀ s a1 a2 a3, Keeps w r s → Keeps w r (State.bar4Byte s a1 a2 a3) :=
    by
  intros; unfold State.bar4Byte; try dsimp only
  repeat' with_reducible
   (first
    | intro x | assumption | apply keeps_spadPart | apply keeps_ucPut | apply keeps_ite | split)

theorem keeps_bar4Clear {w : Bool} {r : State} : ∀ s a1 a2 a3, Keeps w r s → Keeps w r (State.bar4Clear s a1 a2 a3)
    := by
  intros; unfold State.bar4Clear; try dsimp only
  repeat' with_reducible
   (first
    | intro x | assumption | apply keeps_ite | apply keeps_foldl | refine keeps_mk ?_ rfl rfl)

theorem keeps_bar4Write {w : Bool} {r : State} : ∀ s a1 a2 a3, Keeps w r s → Keeps w r (State.bar4Write s a1 a2 a3)
    := by
  intros; unfold State.bar4Write; try dsimp only
  repeat' with_reducible
   (first
    | intro x | assumption | apply keeps_poisonRx | apply keeps_bar4Byte | apply keeps_bar4Clear | apply keeps_ite
    | apply keeps_foldl)

theorem keeps_bar4Read {w : Bool} {r : State} : ∀ s a1 a2, Keeps w r s → Keeps w r (State.bar4Read s a1 a2) := by
  intros; unfold State.bar4Read; try dsimp only
  repeat' with_reducible
   (first
    | intro x | assumption | apply keeps_spadRead | apply keeps_emit | apply keeps_ite | apply keeps_foldl)

theorem keeps_bar4Atomic {w : Bool} {r : State} : ∀ s a1 a2 a3 a4, Keeps w r s → Keeps w r (State.bar4Atomic s a1 a2
    a3 a4) := by
  intros; unfold State.bar4Atomic; try dsimp only
  repeat' with_reducible
   (first
    | intro x | assumption | apply keeps_emit | apply keeps_poisonRx | apply keeps_spadAtomic
    | apply keeps_spadPut | apply keeps_ite)

theorem keeps_setAwl {w : Bool} {r : State} : ∀ s a1 a2, Keeps w r s → Keeps w r (State.setAwl s a1 a2) := by
  intros; unfold State.setAwl; try dsimp only
  repeat' with_reducible
   (first
    | intro x | assumption | refine keeps_mk ?_ rfl rfl)

theorem keeps_setIu {w : Bool} {r : State} : ∀ s a1 a2, Keeps w r s → Keeps w r (State.setIu s a1 a2) := by
  intros; unfold State.setIu; try dsimp only
  repeat' with_reducible
   (first
    | intro x | assumption | refine keeps_mk ?_ rfl rfl)

theorem keeps_streamLost {w : Bool} {r : State} : ∀ s a1 a2, Keeps w r s → Keeps w r (State.streamLost s a1 a2) :=
    by
  intros; unfold State.streamLost; try dsimp only
  repeat' with_reducible
   (first
    | intro x | assumption | apply keeps_bump | apply keeps_setBitAt | apply keeps_rise)

theorem keeps_streamJoin {w : Bool} {r : State} : ∀ s a1 a2, Keeps w r s → Keeps w r (State.streamJoin s a1 a2) :=
    by
  intros; unfold State.streamJoin; try dsimp only
  repeat' with_reducible
   (first
    | intro x | assumption | apply keeps_setAwl)

theorem keeps_streamPut {w : Bool} {r : State} : ∀ s a1 a2, Keeps w r s → Keeps w r (State.streamPut s a1 a2) := by
  intros; unfold State.streamPut; try dsimp only
  repeat' with_reducible
   (first
    | intro x | assumption | apply keeps_streamJoin | apply keeps_setAwl | apply keeps_streamLost
    | apply keeps_ite)

theorem keeps_streamRoom {w : Bool} {r : State} : ∀ s a1, Keeps w r s → Keeps w r (State.streamRoom s a1) := by
  intros; unfold State.streamRoom; try dsimp only
  repeat' with_reducible
   (first
    | intro x | assumption | apply keeps_setAwl | apply keeps_streamJoin | apply keeps_ite)

theorem keeps_streamEpoch {w : Bool} {r : State} : ∀ s a1 a2, Keeps w r s → Keeps w r (State.streamEpoch s a1 a2) :=
    by
  intros; unfold State.streamEpoch; try dsimp only
  repeat' with_reducible
   (first
    | intro x | assumption | apply keeps_streamPut | apply keeps_setAwl | apply keeps_ite)

theorem keeps_streamGate {w : Bool} {r : State} : ∀ s a1 a2 a3, Keeps w r s → Keeps w r (State.streamGate s a1 a2
    a3) := by
  intros; unfold State.streamGate; try dsimp only
  repeat' with_reducible
   (first
    | intro x | assumption | apply keeps_streamRoom | apply keeps_streamEpoch | apply keeps_streamPut
    | apply keeps_ite)

theorem keeps_streamWord {w : Bool} {r : State} : ∀ s a1, Keeps w r s → Keeps w r (State.streamWord s a1) := by
  intros; unfold State.streamWord; try dsimp only
  repeat' with_reducible
   (first
    | intro x | assumption | apply keeps_streamRoom | apply keeps_streamEpoch | apply keeps_streamPut
    | apply keeps_setAwl | apply keeps_ite)

theorem keeps_gateRelease {w : Bool} {r : State} : ∀ s a1, Keeps w r s → Keeps w r (State.gateRelease s a1) := by
  intros; unfold State.gateRelease; try dsimp only
  repeat' with_reducible
   (first
    | intro x | assumption | apply keeps_setAwl | apply keeps_streamWord | apply keeps_ite | apply keeps_foldl)

theorem keeps_streamStamp {w : Bool} {r : State} : ∀ s a1, Keeps w r s → Keeps w r (State.streamStamp s a1) := by
  intros; unfold State.streamStamp; try dsimp only
  repeat' with_reducible
   (first
    | intro x | assumption | apply keeps_setAwl | apply keeps_gateRelease | apply keeps_streamWord
    | apply keeps_ite)

theorem keeps_ringMark {w : Bool} {r : State} : ∀ s a1 a2, Keeps w r s → Keeps w r (State.ringMark s a1 a2) := by
  intros; unfold State.ringMark; try dsimp only
  repeat' with_reducible
   (first
    | intro x | assumption | apply keeps_setBitAt | apply keeps_ite)

theorem keeps_ringStore {r : State} : ∀ s a1 a2, Keeps true r s → Keeps true r (State.ringStore s a1 a2) := by
  intros; unfold State.ringStore; try dsimp only
  repeat' with_reducible
   (first
    | intro x | assumption | apply keeps_hbmPutWords | apply keeps_set | apply keeps_ringMark)

theorem keeps_ringPut {r : State} : ∀ s a1 a2, Keeps true r s → Keeps true r (State.ringPut s a1 a2) := by
  intros; unfold State.ringPut; try dsimp only
  repeat' with_reducible
   (first
    | intro x | assumption | apply keeps_setAwl | apply keeps_streamLost | apply keeps_rise
    | apply keeps_ringStore | apply keeps_ite)

theorem keeps_ringRoom {r : State} : ∀ s a1, Keeps true r s → Keeps true r (State.ringRoom s a1) := by
  intros; unfold State.ringRoom; try dsimp only
  repeat' with_reducible
   (first
    | intro x | assumption | apply keeps_ringStore | apply keeps_setAwl | apply keeps_ite)

theorem keeps_ringForce {w : Bool} {r : State} : ∀ s a1, Keeps w r s → Keeps w r (State.ringForce s a1) := by
  intros; unfold State.ringForce; try dsimp only
  repeat' with_reducible
   (first
    | intro x | assumption | apply keeps_inForce | apply keeps_ringMark | apply keeps_ite | apply keeps_foldl)

theorem keeps_ringWord {r : State} : ∀ s a1 a2, Keeps true r s → Keeps true r (State.ringWord s a1 a2) := by
  intros; unfold State.ringWord; try dsimp only
  repeat' with_reducible
   (first
    | intro x | assumption | apply keeps_ringForce | apply keeps_ringRoom | apply keeps_setAwl
    | apply keeps_ringPut | apply keeps_ite)

theorem keeps_streamDrain {r : State} : ∀ s a1 a2, Keeps true r s → Keeps true r (State.streamDrain s a1 a2) := by
  intros; unfold State.streamDrain; try dsimp only
  repeat' with_reducible
   (first
    | intro x | assumption | apply keeps_setAwl | apply keeps_ringWord | apply keeps_foldl)

theorem keeps_streamPoison {w : Bool} {r : State} : ∀ s a1 a2, Keeps w r s → Keeps w r (State.streamPoison s a1 a2)
    := by
  intros; unfold State.streamPoison; try dsimp only
  repeat' with_reducible
   (first
    | intro x | assumption | apply keeps_setAwl | apply keeps_parityErr | apply keeps_setBitAt | apply keeps_rise
    | apply keeps_ite)

theorem keeps_streamFlush {r : State} : ∀ s a1 a2, Keeps true r s → Keeps true r (State.streamFlush s a1 a2) := by
  intros; unfold State.streamFlush; try dsimp only
  repeat' with_reducible
   (first
    | intro x | assumption | apply keeps_gateRelease | apply keeps_streamPoison | apply keeps_streamDrain
    | apply keeps_foldl)

theorem keeps_setIuState {w : Bool} {r : State} : ∀ s a1 a2, Keeps w r s → Keeps w r (State.setIuState s a1 a2) :=
    by
  intros; unfold State.setIuState; try dsimp only
  repeat' with_reducible
   (first
    | intro x | assumption | apply keeps_set)

theorem keeps_iuDepth {w : Bool} {r : State} : ∀ s a1, Keeps w r s → Keeps w r (State.iuDepth s a1) := by
  intros; unfold State.iuDepth; try dsimp only
  repeat' with_reducible
   (first
    | intro x | assumption | apply keeps_set)

theorem keeps_iuResult {r : State} : ∀ s a1 a2 a3 a4 a5, Keeps true r s → Keeps true r (State.iuResult s a1 a2 a3 a4
    a5) := by
  intros; unfold State.iuResult; try dsimp only
  repeat' with_reducible
   (first
    | intro x | assumption | apply keeps_hbmPutWords | apply keeps_set | apply keeps_setIu | apply keeps_put
    | apply keeps_rise | apply keeps_iuDepth | apply keeps_setIuState | apply keeps_modTicket | apply keeps_ite
    | split)

theorem keeps_iuGroup {r : State} : ∀ s a1, Keeps true r s → Keeps true r (State.iuGroup s a1) := by
  intros; unfold State.iuGroup; try dsimp only
  repeat' with_reducible
   (first
    | intro x | assumption | apply keeps_setIu | apply keeps_iuResult | apply keeps_ite)

theorem keeps_iuPair {r : State} : ∀ s a1 a2 a3 a4 a5, Keeps true r s → Keeps true r (State.iuPair s a1 a2 a3 a4 a5)
    := by
  intros; unfold State.iuPair; try dsimp only
  repeat' with_reducible
   (first
    | intro x | assumption | apply keeps_setIu | apply keeps_iuGroup | apply keeps_iuResult | apply keeps_ite)

theorem keeps_iuTmo {r : State} : ∀ s a1, Keeps true r s → Keeps true r (State.iuTmo s a1) := by
  intros; unfold State.iuTmo; try dsimp only
  repeat' with_reducible
   (first
    | intro x | assumption | apply keeps_setIuState | apply keeps_setIu | apply keeps_iuGroup
    | apply keeps_iuResult | apply keeps_ite)

theorem keeps_iuStart {r : State} : ∀ s a1 a2, Keeps true r s → Keeps true r (State.iuStart s a1 a2) := by
  intros; unfold State.iuStart; try dsimp only
  repeat' with_reducible
   (first
    | intro x | assumption | apply keeps_setIu | apply keeps_iuPair | apply keeps_setIuState | apply keeps_ite
    | split)

theorem keeps_iuStop {r : State} : ∀ s a1 a2, Keeps true r s → Keeps true r (State.iuStop s a1 a2) := by
  intros; unfold State.iuStop; try dsimp only
  repeat' with_reducible
   (first
    | intro x | assumption | apply keeps_iuTmo | apply keeps_setIu | apply keeps_setIuState | apply keeps_iuPair
    | apply keeps_ite)

theorem keeps_iuGateEnd {r : State} : ∀ s a1, Keeps true r s → Keeps true r (State.iuGateEnd s a1) := by
  intros; unfold State.iuGateEnd; try dsimp only
  repeat' with_reducible
   (first
    | intro x | assumption | apply keeps_upToQ | apply keeps_setIu | apply keeps_setIuState | apply keeps_iuResult
    | apply keeps_ite | apply keeps_foldl | split)

theorem keeps_iuEdge {w : Bool} {r : State} : ∀ s a1 a2, Keeps w r s → Keeps w r (State.iuEdge s a1 a2) := by
  intros; unfold State.iuEdge; try dsimp only
  repeat' with_reducible
   (first
    | intro x | assumption | apply keeps_setIu)

theorem keeps_iuStamp {r : State} : ∀ s a1 a2, Keeps true r s → Keeps true r (State.iuStamp s a1 a2) := by
  intros; unfold State.iuStamp; try dsimp only
  repeat' with_reducible
   (first
    | intro x | assumption | apply keeps_iuEdge | apply keeps_iuTmo | apply keeps_iuStart | apply keeps_iuStop
    | apply keeps_ite)

theorem keeps_iuStamps {r : State} : ∀ s a1 a2, Keeps true r s → Keeps true r (State.iuStamps s a1 a2) := by
  intros; unfold State.iuStamps; try dsimp only
  repeat' with_reducible
   (first
    | intro x | assumption | apply keeps_iuStamp | apply keeps_foldl)

theorem keeps_iuMissed {w : Bool} {r : State} : ∀ s a1, Keeps w r s → Keeps w r (State.iuMissed s a1) := by
  intros; unfold State.iuMissed; try dsimp only
  repeat' with_reducible
   (first
    | intro x | assumption | apply keeps_setIu | apply keeps_ite | apply keeps_foldl)

theorem keeps_iuArm {w : Bool} {r : State} : ∀ s a1 a2, Keeps w r s → Keeps w r (State.iuArm s a1 a2).1 := by
  intros; unfold State.iuArm; try dsimp only
  repeat' with_reducible
   (first
    | intro x | assumption | apply keeps_setIu | apply keeps_setIuState | apply keeps_put | apply keeps_ite
    | apply keeps_ite_fst)

theorem keeps_iuDisarm {w : Bool} {r : State} : ∀ s a1, Keeps w r s → Keeps w r (State.iuDisarm s a1) := by
  intros; unfold State.iuDisarm; try dsimp only
  repeat' with_reducible
   (first
    | intro x | assumption | apply keeps_setIu | apply keeps_setIuState | apply keeps_ite)

theorem keeps_gateSettle {w : Bool} {r : State} : ∀ s a1, Keeps w r s → Keeps w r (State.gateSettle s a1) := by
  intros; unfold State.gateSettle; try dsimp only
  repeat' with_reducible
   (first
    | intro x | assumption | apply keeps_gateRelease | apply keeps_foldl)

theorem keeps_gateOpen {r : State} : ∀ s a1 a2, Keeps true r s → Keeps true r (State.gateOpen s a1 a2) := by
  intros; unfold State.gateOpen; try dsimp only
  repeat' with_reducible
   (first
    | intro x | assumption | apply keeps_upToQ | apply keeps_gateSettle | apply keeps_streamGate
    | apply keeps_iuGateEnd | apply keeps_setIu | apply keeps_setIuState | apply keeps_ite | apply keeps_foldl
    | split | refine keeps_mk ?_ rfl rfl)

theorem keeps_gateClose {w : Bool} {r : State} : ∀ s a1 a2, Keeps w r s → Keeps w r (State.gateClose s a1 a2) := by
  intros; unfold State.gateClose; try dsimp only
  repeat' with_reducible
   (first
    | intro x | assumption | apply keeps_upToQ | apply keeps_gateSettle | apply keeps_streamGate
    | apply keeps_setIu | apply keeps_ite | apply keeps_foldl | split | refine keeps_mk ?_ rfl rfl)

theorem keeps_tdcCtl {r : State} : ∀ s a1 a2 a3, Keeps true r s → Keeps true r (State.tdcCtl s a1 a2 a3) := by
  intros; unfold State.tdcCtl; try dsimp only
  repeat' with_reducible
   (first
    | intro x | assumption | apply keeps_writeReg | apply keeps_setAwl | apply keeps_streamFlush | apply keeps_ite
    | apply keeps_foldl)

theorem keeps_tdcRing {w : Bool} {r : State} : ∀ s a1 a2 a3, Keeps w r s → Keeps w r (State.tdcRing s a1 a2 a3) :=
    by
  intros; unfold State.tdcRing; try dsimp only
  repeat' with_reducible
   (first
    | intro x | assumption | apply keeps_writeAt | apply keeps_writeReg)

theorem keeps_iuCtl {w : Bool} {r : State} : ∀ s a1 a2, Keeps w r s → Keeps w r (State.iuCtl s a1 a2) := by
  intros; unfold State.iuCtl; try dsimp only
  repeat' with_reducible
   (first
    | intro x | assumption | apply keeps_writeReg | apply keeps_iuDisarm | apply keeps_iuArm | apply keeps_ite)

theorem keeps_iuPop {w : Bool} {r : State} : ∀ s a1, Keeps w r s → Keeps w r (State.iuPop s a1).1 := by
  intros; unfold State.iuPop; try dsimp only
  repeat' with_reducible
   (first
    | intro x | assumption | apply keeps_setIu | apply keeps_set | apply keeps_iuDepth | split)

theorem keeps_weltPut {w : Bool} {r : State} : ∀ s a1, Keeps w r s → Keeps w r (State.weltPut s a1) := by
  intros; unfold State.weltPut; try dsimp only
  repeat' with_reducible
   (first
    | intro x | assumption | apply keeps_put | apply keeps_rise | apply keeps_ite | refine keeps_mk ?_ rfl rfl)

theorem keeps_weltOwn {w : Bool} {r : State} : ∀ s a1 a2 a3, Keeps w r s → Keeps w r (State.weltOwn s a1 a2 a3) :=
    by
  intros; unfold State.weltOwn; try dsimp only
  repeat' with_reducible
   (first
    | intro x | assumption | apply keeps_weltPut | apply keeps_ite | refine keeps_mk ?_ rfl rfl)

theorem keeps_acqLow {w : Bool} {r : State} : ∀ s a1, Keeps w r s → Keeps w r (State.acqLow s a1) := by
  intros; unfold State.acqLow; try dsimp only
  repeat' with_reducible
   (first
    | intro x | assumption | apply keeps_setTrg | apply keeps_ite)

theorem keeps_markIn {w : Bool} {r : State} : ∀ s a1 a2 a3 a4, Keeps w r s → Keeps w r (State.markIn s a1 a2 a3 a4)
    := by
  intros; unfold State.markIn; try dsimp only
  repeat' with_reducible
   (first
    | intro x | assumption | apply keeps_setTrg | apply keeps_put | apply keeps_rise | apply keeps_ite)

theorem keeps_markPut {w : Bool} {r : State} : ∀ s a1 a2 a3 a4 a5 a6 a7 a8, Keeps w r s → Keeps w r (State.markPut s
    a1 a2 a3 a4 a5 a6 a7 a8) := by
  intros; unfold State.markPut; try dsimp only
  repeat' with_reducible
   (first
    | intro x | assumption | apply keeps_markIn | apply keeps_ite)

theorem keeps_rawStamp {w : Bool} {r : State} : ∀ s a1 a2, Keeps w r s → Keeps w r (State.rawStamp s a1 a2) := by
  intros; unfold State.rawStamp; try dsimp only
  repeat' with_reducible
   (first
    | intro x | assumption | apply keeps_setTrg)

theorem keeps_rawTo {w : Bool} {r : State} : ∀ s a1 a2, Keeps w r s → Keeps w r (State.rawTo s a1 a2) := by
  intros; unfold State.rawTo; try dsimp only
  repeat' with_reducible
   (first
    | intro x | assumption | apply keeps_rawStamp | apply keeps_setTrg | apply keeps_foldl)

theorem keeps_rawAll {w : Bool} {r : State} : ∀ s a1, Keeps w r s → Keeps w r (State.rawAll s a1) := by
  intros; unfold State.rawAll; try dsimp only
  repeat' with_reducible
   (first
    | intro x | assumption | apply keeps_rawTo)

theorem keeps_infoPost {w : Bool} {r : State} : ∀ s a1, Keeps w r s → Keeps w r (State.infoPost s a1) := by
  intros; unfold State.infoPost; try dsimp only
  repeat' with_reducible
   (first
    | intro x | assumption | apply keeps_setTrg | apply keeps_evPush | apply keeps_ite | split)

theorem keeps_trgDone {w : Bool} {r : State} : ∀ s a1 a2, Keeps w r s → Keeps w r (State.trgDone s a1 a2) := by
  intros; unfold State.trgDone; try dsimp only
  repeat' with_reducible
   (first
    | intro x | assumption | apply keeps_rawAll | apply keeps_setTrg | apply keeps_set | apply keeps_infoPost)

theorem keeps_trgEnd {w : Bool} {r : State} : ∀ s a1 a2 a3, Keeps w r s → Keeps w r (State.trgEnd s a1 a2 a3) := by
  intros; unfold State.trgEnd; try dsimp only
  repeat' with_reducible
   (first
    | intro x | assumption | apply keeps_markPut | apply keeps_trgDone)

theorem keeps_decimCheck {w : Bool} {r : State} : ∀ s a1, Keeps w r s → Keeps w r (State.decimCheck s a1) := by
  intros; unfold State.decimCheck; try dsimp only
  repeat' with_reducible
   (first
    | intro x | assumption | apply keeps_setTrg | apply keeps_ite)

theorem keeps_decimTake {w : Bool} {r : State} : ∀ s a1 a2, Keeps w r s → Keeps w r (State.decimTake s a1 a2) := by
  intros; unfold State.decimTake; try dsimp only
  repeat' with_reducible
   (first
    | intro x | assumption | apply keeps_setTrg | apply keeps_set | apply keeps_rise | apply keeps_markPut
    | apply keeps_ite | split)

theorem keeps_postCount {w : Bool} {r : State} : ∀ s a1 a2 a3, Keeps w r s → Keeps w r (State.postCount s a1 a2 a3)
    := by
  intros; unfold State.postCount; try dsimp only
  repeat' with_reducible
   (first
    | intro x | assumption | apply keeps_setTrg | apply keeps_set | apply keeps_put | apply keeps_trgEnd
    | apply keeps_ite | split)

theorem keeps_recPut {w : Bool} {r : State} : ∀ s a1 a2 a3 a4, Keeps w r s → Keeps w r (State.recPut s a1 a2 a3 a4)
    := by
  intros; unfold State.recPut; try dsimp only
  repeat' with_reducible
   (first
    | intro x | assumption | apply keeps_setTrg | apply keeps_put | apply keeps_rise | apply keeps_decimCheck
    | apply keeps_markPut | apply keeps_set | apply keeps_acqLow | apply keeps_postCount | apply keeps_ite | split)

theorem keeps_rawFlush {w : Bool} {r : State} : ∀ s a1, Keeps w r s → Keeps w r (State.rawFlush s a1) := by
  intros; unfold State.rawFlush; try dsimp only
  repeat' with_reducible
   (first
    | intro x | assumption | apply keeps_setTrg | apply keeps_recPut | apply keeps_ite)

theorem keeps_rawPoint {w : Bool} {r : State} : ∀ s a1 a2 a3, Keeps w r s → Keeps w r (State.rawPoint s a1 a2 a3) :=
    by
  intros; unfold State.rawPoint; try dsimp only
  repeat' with_reducible
   (first
    | intro x | assumption | apply keeps_decimTake | apply keeps_setTrg | apply keeps_rawFlush
    | apply keeps_recPut | apply keeps_ite | apply keeps_foldl)

theorem keeps_runKeep {w : Bool} {r : State} : ∀ s a1 a2, Keeps w r s → Keeps w r (State.runKeep s a1 a2).1 := by
  intros; unfold State.runKeep; try dsimp only
  repeat' with_reducible
   (first
    | intro x | assumption | apply keeps_setTrg)

theorem keeps_acqStamp {w : Bool} {r : State} : ∀ s a1 a2, Keeps w r s → Keeps w r (State.acqStamp s a1 a2) := by
  intros; unfold State.acqStamp; try dsimp only
  repeat' with_reducible
   (first
    | intro x | assumption | apply keeps_decimTake | apply keeps_keep | apply keeps_runKeep | apply keeps_recPut
    | apply keeps_setTrg | apply keeps_ite | apply keeps_ite_fst | split)

theorem keeps_avgFlush {w : Bool} {r : State} : ∀ s a1, Keeps w r s → Keeps w r (State.avgFlush s a1) := by
  intros; unfold State.avgFlush; try dsimp only
  repeat' with_reducible
   (first
    | intro x | assumption | apply keeps_setTrg | apply keeps_fresh | apply keeps_recPut | apply keeps_ite
    | apply keeps_ite_fst | apply keeps_foldl | split)

theorem keeps_acqFails {w : Bool} {r : State} : ∀ s a1, Keeps w r s → Keeps w r (State.acqFails s a1) := by
  intros; unfold State.acqFails; try dsimp only
  repeat' with_reducible
   (first
    | intro x | assumption | apply keeps_decimTake | apply keeps_keep | apply keeps_runKeep | apply keeps_recPut
    | apply keeps_setTrg | apply keeps_ite | apply keeps_ite_fst | apply keeps_foldl)

theorem keeps_trgGive {w : Bool} {r : State} : ∀ s a1 a2 a3, Keeps w r s → Keeps w r (State.trgGive s a1 a2 a3) :=
    by
  intros; unfold State.trgGive; try dsimp only
  repeat' with_reducible
   (first
    | intro x | assumption | apply keeps_setTrg | apply keeps_ite)

theorem keeps_trgInput {w : Bool} {r : State} : ∀ s a1, Keeps w r s → Keeps w r (State.trgInput s a1) := by
  intros; unfold State.trgInput; try dsimp only
  repeat' with_reducible
   (first
    | intro x | assumption | apply keeps_trgGive | apply keeps_foldl)

theorem keeps_trigger {w : Bool} {r : State} : ∀ s a1 a2 a3 a4 a5, Keeps w r s → Keeps w r (State.trigger s a1 a2 a3
    a4 a5) := by
  intros; unfold State.trigger; try dsimp only
  repeat' with_reducible
   (first
    | intro x | assumption | apply keeps_put | apply keeps_set64 | apply keeps_setTrg | apply keeps_set
    | apply keeps_ite)

theorem keeps_actions {w : Bool} {r : State} : ∀ s a1 a2 a3 a4, Keeps w r s → Keeps w r (State.actions s a1 a2 a3
    a4).1 := by
  intros; unfold State.actions; try dsimp only
  repeat' with_reducible
   (first
    | intro x | assumption | apply keeps_trigger | apply keeps_seqEvent | apply keeps_evtPulse
    | apply keeps_trgGive | apply keeps_weltOwn | apply keeps_set | apply keeps_bump | apply keeps_markPut
    | apply keeps_setTrg | apply keeps_ite | apply keeps_ite_fst | apply keeps_foldl)

theorem keeps_sampleRaw {w : Bool} {r : State} : ∀ s a1 a2, Keeps w r s → Keeps w r (State.sampleRaw s a1 a2).1 :=
    by
  intros; unfold State.sampleRaw; try dsimp only
  repeat' with_reducible
   (first
    | intro x | assumption | apply keeps_rawTo | apply keeps_foldl | apply keeps_foldl_fst)

theorem keeps_levelStep {w : Bool} {r : State} : ∀ s a1 a2 a3, Keeps w r s → Keeps w r (State.levelStep s a1 a2
    a3).1 := by
  intros; unfold State.levelStep; try dsimp only
  repeat' with_reducible
   (first
    | intro x | assumption | apply keeps_setBitAt | apply keeps_setTrg | apply keeps_actions | apply keeps_trigger
    | apply keeps_ite | apply keeps_ite_fst | apply keeps_foldl | split)

theorem keeps_sampleDone {w : Bool} {r : State} : ∀ s a1 a2 a3, Keeps w r s → Keeps w r (State.sampleDone s a1 a2
    a3) := by
  intros; unfold State.sampleDone; try dsimp only
  repeat' with_reducible
   (first
    | intro x | assumption | apply keeps_setTrg)

theorem keeps_trgFinish {w : Bool} {r : State} : ∀ s a1 a2 a3, Keeps w r s → Keeps w r (State.trgFinish s a1 a2 a3)
    := by
  intros; unfold State.trgFinish; try dsimp only
  repeat' with_reducible
   (first
    | intro x | assumption | apply keeps_rawFlush | apply keeps_avgFlush | apply keeps_trgEnd | apply keeps_ite)

theorem keeps_trgSample {w : Bool} {r : State} : ∀ s a1, Keeps w r s → Keeps w r (State.trgSample s a1) := by
  intros; unfold State.trgSample; try dsimp only
  repeat' with_reducible
   (first
    | intro x | assumption | apply keeps_upToQ | apply keeps_trgFinish | apply keeps_sampleRaw
    | apply keeps_levelStep | apply keeps_sampleDone | apply keeps_rawPoint | apply keeps_acqStamp
    | apply keeps_acqFails | apply keeps_avgFlush | apply keeps_decimTake | apply keeps_setTrg | apply keeps_ite
    | apply keeps_ite_fst | apply keeps_foldl)

theorem keeps_trgStamp {w : Bool} {r : State} : ∀ s a1, Keeps w r s → Keeps w r (State.trgStamp s a1) := by
  intros; unfold State.trgStamp; try dsimp only
  repeat' with_reducible
   (first
    | intro x | assumption | apply keeps_setTrg | apply keeps_rawStamp | apply keeps_ite)

theorem keeps_trgArm {w : Bool} {r : State} : ∀ s a1 a2, Keeps w r s → Keeps w r (State.trgArm s a1 a2) := by
  intros; unfold State.trgArm; try dsimp only
  repeat' with_reducible
   (first
    | intro x | assumption | apply keeps_put | apply keeps_setTrg | apply keeps_ite)

theorem keeps_trgDisarm {w : Bool} {r : State} : ∀ s a1 a2, Keeps w r s → Keeps w r (State.trgDisarm s a1 a2) := by
  intros; unfold State.trgDisarm; try dsimp only
  repeat' with_reducible
   (first
    | intro x | assumption | apply keeps_setTrg | apply keeps_ite)

theorem keeps_trgForce {w : Bool} {r : State} : ∀ s a1 a2, Keeps w r s → Keeps w r (State.trgForce s a1 a2) := by
  intros; unfold State.trgForce; try dsimp only
  repeat' with_reducible
   (first
    | intro x | assumption | apply keeps_setTrg | apply keeps_ite)

theorem keeps_trgCode {w : Bool} {r : State} : ∀ s a1 a2, Keeps w r s → Keeps w r (State.trgCode s a1 a2) := by
  intros; unfold State.trgCode; try dsimp only
  repeat' with_reducible
   (first
    | intro x | assumption | apply keeps_trgArm | apply keeps_trgDisarm | apply keeps_trgForce
    | apply keeps_trgInput | apply keeps_ite | apply keeps_foldl)

theorem keeps_trgBegin {w : Bool} {r : State} : ∀ s a1 a2, Keeps w r s → Keeps w r (State.trgBegin s a1 a2) := by
  intros; unfold State.trgBegin; try dsimp only
  repeat' with_reducible
   (first
    | intro x | assumption | apply keeps_inForceRange | apply keeps_set | apply keeps_wr | apply keeps_put
    | apply keeps_setTrg | apply keeps_rawTo | apply keeps_markPut | apply keeps_acqLow | apply keeps_foldl)

theorem keeps_trgStart {w : Bool} {r : State} : ∀ s a1, Keeps w r s → Keeps w r (State.trgStart s a1) := by
  intros; unfold State.trgStart; try dsimp only
  repeat' with_reducible
   (first
    | intro x | assumption | apply keeps_upToQ | apply keeps_rawAll | apply keeps_setTrg | apply keeps_trgBegin
    | apply keeps_ite | split)

theorem keeps_trgCtl {w : Bool} {r : State} : ∀ s a1 a2, Keeps w r s → Keeps w r (State.trgCtl s a1 a2) := by
  intros; unfold State.trgCtl; try dsimp only
  repeat' with_reducible
   (first
    | intro x | assumption | apply keeps_writeReg | apply keeps_trgForce | apply keeps_trgDisarm
    | apply keeps_trgArm | apply keeps_ite)

theorem keeps_trgKill {w : Bool} {r : State} : ∀ s a1, Keeps w r s → Keeps w r (State.trgKill s a1) := by
  intros; unfold State.trgKill; try dsimp only
  repeat' with_reducible
   (first
    | intro x | assumption | apply keeps_setTrg | apply keeps_trgDone | apply keeps_ite)

theorem keeps_acqStore {r : State} : ∀ s a1 a2, Keeps true r s → Keeps true r (State.acqStore s a1 a2) := by
  intros; unfold State.acqStore; try dsimp only
  repeat' with_reducible
   (first
    | intro x | assumption | apply keeps_hbmPutWords)

theorem keeps_markStore {r : State} : ∀ s a1 a2, Keeps true r s → Keeps true r (State.markStore s a1 a2) := by
  intros; unfold State.markStore; try dsimp only
  repeat' with_reducible
   (first
    | intro x | assumption | apply keeps_setTrg | apply keeps_hbmPutWords | apply keeps_put | apply keeps_set
    | apply keeps_ite)

theorem keeps_blurWords {w : Bool} {r : State} : ∀ s a1 a2, Keeps w r s → Keeps w r (State.blurWords s a1 a2).1 :=
    by
  intros; unfold State.blurWords; try dsimp only
  repeat' with_reducible
   (first
    | intro x | assumption | apply keeps_fresh | apply keeps_set | apply keeps_foldl | apply keeps_foldl_fst)

theorem keeps_poisonMark {w : Bool} {r : State} : ∀ s a1 a2 a3 a4 a5, Keeps w r s → Keeps w r (State.poisonMark s a1
    a2 a3 a4 a5) := by
  intros; unfold State.poisonMark; try dsimp only
  repeat' with_reducible
   (first
    | intro x | assumption | apply keeps_put | apply keeps_parityErr | apply keeps_rise | apply keeps_markIn)

theorem keeps_recLeave {r : State} : ∀ s a1 a2 a3, Keeps true r s → Keeps true r (State.recLeave s a1 a2 a3) := by
  intros; unfold State.recLeave; try dsimp only
  repeat' with_reducible
   (first
    | intro x | assumption | apply keeps_blurWords | apply keeps_poisonMark | apply keeps_acqStore
    | apply keeps_foldl)

theorem keeps_markLeave {r : State} : ∀ s a1 a2 a3, Keeps true r s → Keeps true r (State.markLeave s a1 a2 a3) := by
  intros; unfold State.markLeave; try dsimp only
  repeat' with_reducible
   (first
    | intro x | assumption | apply keeps_blurWords | apply keeps_poisonMark | apply keeps_markStore
    | apply keeps_foldl)

theorem keeps_acqDrain {r : State} : ∀ s a1 a2 a3 a4, Keeps true r s → Keeps true r (State.acqDrain s a1 a2 a3 a4)
    := by
  intros; unfold State.acqDrain; try dsimp only
  repeat' with_reducible
   (first
    | intro x | assumption | apply keeps_setTrg | apply keeps_recLeave | apply keeps_markLeave
    | apply keeps_acqLow | apply keeps_infoPost | apply keeps_foldl)

theorem keeps_acqTail {r : State} : ∀ s a1 a2, Keeps true r s → Keeps true r (State.acqTail s a1 a2) := by
  intros; unfold State.acqTail; try dsimp only
  repeat' with_reducible
   (first
    | intro x | assumption | apply keeps_upToMono | apply keeps_acqDrain | apply keeps_ite)

theorem keeps_trgHeel {r : State} : ∀ s a1, Keeps true r s → Keeps true r (State.trgHeel s a1) := by
  intros; unfold State.trgHeel; try dsimp only
  repeat' with_reducible
   (first
    | intro x | assumption | apply keeps_trgFinish | apply keeps_acqDrain | apply keeps_setTrg | apply keeps_ite)

theorem keeps_decimDown {w : Bool} {r : State} : ∀ s a1, Keeps w r s → Keeps w r (State.decimDown s a1) := by
  intros; unfold State.decimDown; try dsimp only
  repeat' with_reducible
   (first
    | intro x | assumption | apply keeps_upToMono | apply keeps_setTrg | apply keeps_ite | split)

theorem keeps_failSeq {w : Bool} {r : State} : ∀ s a1, Keeps w r s → Keeps w r (State.failSeq s a1) := by
  intros; unfold State.failSeq; try dsimp only
  repeat' with_reducible
   (first
    | intro x | assumption | apply keeps_seqEvent | apply keeps_ite | split | refine keeps_mk ?_ rfl rfl)

theorem keeps_failEvt {w : Bool} {r : State} : ∀ s a1, Keeps w r s → Keeps w r (State.failEvt s a1) := by
  intros; unfold State.failEvt; try dsimp only
  repeat' with_reducible
   (first
    | intro x | assumption | apply keeps_evtDrive | apply keeps_evtPulse | apply keeps_ite | apply keeps_foldl)

theorem keeps_failArrive {w : Bool} {r : State} : ∀ s, Keeps w r s → Keeps w r (State.failArrive s) := by
  intros; unfold State.failArrive; try dsimp only
  repeat' with_reducible
   (first
    | intro x | assumption | apply keeps_failSeq | apply keeps_failEvt | apply keeps_trgInput | split
    | refine keeps_mk ?_ rfl rfl)

theorem keeps_siteFinal {w : Bool} {r : State} : ∀ s a1, Keeps w r s → Keeps w r (State.siteFinal s a1) := by
  intros; unfold State.siteFinal; try dsimp only
  repeat' with_reducible
   (first
    | intro x | assumption | apply keeps_setSite | apply keeps_ite)

theorem keeps_flogMark {w : Bool} {r : State} : ∀ s a1 a2, Keeps w r s → Keeps w r (State.flogMark s a1 a2) := by
  intros; unfold State.flogMark; try dsimp only
  repeat' with_reducible
   (first
    | intro x | assumption | apply keeps_put | apply keeps_ite)

theorem keeps_flogForce {w : Bool} {r : State} : ∀ s a1, Keeps w r s → Keeps w r (State.flogForce s a1) := by
  intros; unfold State.flogForce; try dsimp only
  repeat' with_reducible
   (first
    | intro x | assumption | apply keeps_inForce | apply keeps_flogMark | apply keeps_ite)

theorem keeps_flogStore {r : State} : ∀ s a1 a2, Keeps true r s → Keeps true r (State.flogStore s a1 a2) := by
  intros; unfold State.flogStore; try dsimp only
  repeat' with_reducible
   (first
    | intro x | assumption | apply keeps_put | apply keeps_hbmPutWords | apply keeps_setEye | apply keeps_set
    | apply keeps_flogMark | apply keeps_ite)

theorem keeps_flogRecord {r : State} : ∀ s a1 a2, Keeps true r s → Keeps true r (State.flogRecord s a1 a2) := by
  intros; unfold State.flogRecord; try dsimp only
  repeat' with_reducible
   (first
    | intro x | assumption | apply keeps_flogForce | apply keeps_flogSeq | apply keeps_setEye
    | apply keeps_flogStore | apply keeps_bump | apply keeps_put | apply keeps_rise | apply keeps_ite)

theorem keeps_flogPoison {w : Bool} {r : State} : ∀ s a1 a2, Keeps w r s → Keeps w r (State.flogPoison s a1 a2).1 :=
    by
  intros; unfold State.flogPoison; try dsimp only
  repeat' with_reducible
   (first
    | intro x | assumption | apply keeps_parityErr | apply keeps_put | apply keeps_rise)

theorem keeps_flogDrain {r : State} : ∀ s a1 a2 a3, Keeps true r s → Keeps true r (State.flogDrain s a1 a2 a3) := by
  intros; unfold State.flogDrain; try dsimp only
  repeat' with_reducible
   (first
    | intro x | assumption | apply keeps_setEye | apply keeps_flogPoison | apply keeps_flogRecord
    | apply keeps_ite | apply keeps_ite_fst | apply keeps_foldl)

theorem keeps_flogWrite {r : State} : ∀ s a1 a2, Keeps true r s → Keeps true r (State.flogWrite s a1 a2) := by
  intros; unfold State.flogWrite; try dsimp only
  repeat' with_reducible
   (first
    | intro x | assumption | apply keeps_flogDrain | apply keeps_ite)

theorem keeps_flogDone {w : Bool} {r : State} : ∀ s a1, Keeps w r s → Keeps w r (State.flogDone s a1) := by
  intros; unfold State.flogDone; try dsimp only
  repeat' with_reducible
   (first
    | intro x | assumption | apply keeps_put | apply keeps_ite)

theorem keeps_evtPulseEnd {w : Bool} {r : State} : ∀ s a1, Keeps w r s → Keeps w r (State.evtPulseEnd s a1) := by
  intros; unfold State.evtPulseEnd; try dsimp only
  repeat' with_reducible
   (first
    | intro x | assumption | apply keeps_upTo | apply keeps_ite | apply keeps_foldl | split
    | refine keeps_mk ?_ rfl rfl)

end Sys2Proof.Machine
end

