-- ==== Sys2Proof/Laws/Keeps4.lean ====
section
/-!
SUPPORT. What each operation keeps (Laws/Keeps.lean), 4 of 6; operations come after those that they use.
-/
namespace Sys2Proof.Machine

open Sys2Proof

theorem keeps_flogCfg {w : Bool} {r : State} : ∀ s a1 a2 a3, Keeps w r s → Keeps w r (State.flogCfg s a1 a2 a3) :=
    by
  intros; unfold State.flogCfg; try dsimp only
  repeat' with_reducible
   (first
    | intro x | assumption | apply keeps_writeAt | apply keeps_writeReg | apply keeps_set | apply keeps_inForce
    | apply keeps_setEye | apply keeps_flogMark | apply keeps_ite)

theorem keeps_cmpWrite {w : Bool} {r : State} : ∀ s a1 a2 a3, Keeps w r s → Keeps w r (State.cmpWrite s a1 a2 a3) :=
    by
  intros; unfold State.cmpWrite; try dsimp only
  repeat' with_reducible
   (first
    | intro x | assumption | apply keeps_flogCfg | apply keeps_writeReg | apply keeps_ite
    | refine keeps_mk ?_ rfl rfl)

theorem keeps_endTicket {w : Bool} {r : State} : ∀ s a1 a2, Keeps w r s → Keeps w r (State.endTicket s a1 a2) := by
  intros; unfold State.endTicket; try dsimp only
  repeat' with_reducible
   (first
    | intro x | assumption | apply keeps_modTicket | apply keeps_siteAdd | apply keeps_ctrDown
    | apply keeps_completeTicket | apply keeps_ite | apply keeps_foldl | split)

theorem keeps_submit {w : Bool} {r : State} : ∀ s a1, Keeps w r s → Keeps w r (State.submit s a1) := by
  intros; unfold State.submit; try dsimp only
  repeat' with_reducible
   (first
    | intro x | assumption | apply keeps_put | apply keeps_rise | apply keeps_schSync | apply keeps_traceEv
    | apply keeps_endTicket | apply keeps_siteAdd | apply keeps_ctrDown | apply keeps_ite | split
    | refine keeps_mk ?_ rfl rfl)

theorem keeps_place {w : Bool} {r : State} : ∀ s a1 a2, Keeps w r s → Keeps w r (State.place s a1 a2) := by
  intros; unfold State.place; try dsimp only
  repeat' with_reducible
   (first
    | intro x | assumption | apply keeps_traceEv | apply keeps_coreTake | apply keeps_modTicket | apply keeps_put
    | apply keeps_ite)

theorem keeps_dispatch {w : Bool} {r : State} : ∀ s, Keeps w r s → Keeps w r (State.dispatch s) := by
  intros; unfold State.dispatch; try dsimp only
  repeat' with_reducible
   (first
    | intro x | assumption | apply keeps_place | split)

theorem keeps_affExpire {w : Bool} {r : State} : ∀ s a1, Keeps w r s → Keeps w r (State.affExpire s a1) := by
  intros; unfold State.affExpire; try dsimp only
  repeat' with_reducible
   (first
    | intro x | assumption | apply keeps_upToMono | apply keeps_modTicket | apply keeps_place | apply keeps_ite
    | split)

theorem keeps_dispatchSwitch {w : Bool} {r : State} : ∀ s, Keeps w r s → Keeps w r (State.dispatchSwitch s) := by
  intros; unfold State.dispatchSwitch; try dsimp only
  repeat' with_reducible
   (first
    | intro x | assumption | apply keeps_put | apply keeps_set | apply keeps_ite | apply keeps_foldl | split
    | refine keeps_mk ?_ rfl rfl)

theorem keeps_modeWrite {w : Bool} {r : State} : ∀ s a1, Keeps w r s → Keeps w r (State.modeWrite s a1) := by
  intros; unfold State.modeWrite; try dsimp only
  repeat' with_reducible
   (first
    | intro x | assumption | apply keeps_writeReg | apply keeps_set | apply keeps_ite | apply keeps_foldl)

theorem keeps_begin_ {w : Bool} {r : State} : ∀ s a1, Keeps w r s → Keeps w r (State.begin_ s a1) := by
  intros; unfold State.begin_; try dsimp only
  repeat' with_reducible
   (first
    | intro x | assumption | apply keeps_modTicket)

theorem keeps_finish {w : Bool} {r : State} : ∀ s a1 a2 a3, Keeps w r s → Keeps w r (State.finish s a1 a2 a3) := by
  intros; unfold State.finish; try dsimp only
  repeat' with_reducible
   (first
    | intro x | assumption | apply keeps_modOpen)

theorem keeps_burstSetup {w : Bool} {r : State} : ∀ s a1 a2, Keeps w r s → Keeps w r (State.burstSetup s a1 a2) :=
    by
  intros; unfold State.burstSetup; try dsimp only
  repeat' with_reducible
   (first
    | intro x | assumption | apply keeps_writeReg | apply keeps_ite | apply keeps_foldl)

theorem keeps_burst {w : Bool} {r : State} : ∀ s a1, Keeps w r s → Keeps w r (State.burst s a1) := by
  intros; unfold State.burst; try dsimp only
  repeat' with_reducible
   (first
    | intro x | assumption | apply keeps_burstSetup | apply keeps_modTicket | apply keeps_goSeq
    | apply keeps_begin_ | apply keeps_burstStatus | apply keeps_finish | apply keeps_ite | apply keeps_ite_fst
    | split)

theorem keeps_measure {w : Bool} {r : State} : ∀ s a1, Keeps w r s → Keeps w r (State.measure s a1) := by
  intros; unfold State.measure; try dsimp only
  repeat' with_reducible
   (first
    | intro x | assumption | apply keeps_writeReg | apply keeps_iuArm | apply keeps_begin_ | apply keeps_modTicket
    | apply keeps_finish | apply keeps_ite | apply keeps_ite_fst | split)

theorem keeps_analyze {w : Bool} {r : State} : ∀ s a1, Keeps w r s → Keeps w r (State.analyze s a1) := by
  intros; unfold State.analyze; try dsimp only
  repeat' with_reducible
   (first
    | intro x | assumption | apply keeps_hbmTouch | apply keeps_jobPut | apply keeps_begin_ | apply keeps_ite
    | split)

theorem keeps_waitTicket {w : Bool} {r : State} : ∀ s a1, Keeps w r s → Keeps w r (State.waitTicket s a1) := by
  intros; unfold State.waitTicket; try dsimp only
  repeat' with_reducible
   (first
    | intro x | assumption | apply keeps_begin_ | apply keeps_finish | apply keeps_ite | split)

theorem keeps_waitReached {w : Bool} {r : State} : ∀ s a1, Keeps w r s → Keeps w r (State.waitReached s a1) := by
  intros; unfold State.waitReached; try dsimp only
  repeat' with_reducible
   (first
    | intro x | assumption | apply keeps_upTo | apply keeps_finish | apply keeps_ite | split)

theorem keeps_post {w : Bool} {r : State} : ∀ s a1, Keeps w r s → Keeps w r (State.post s a1) := by
  intros; unfold State.post; try dsimp only
  repeat' with_reducible
   (first
    | intro x | assumption | apply keeps_begin_ | apply keeps_modTicket | apply keeps_finish | split)

theorem keeps_measPoison {r : State} : ∀ s a1 a2, Keeps true r s → Keeps true r (State.measPoison s a1 a2) := by
  intros; unfold State.measPoison; try dsimp only
  repeat' with_reducible
   (first
    | intro x | assumption | apply keeps_hbmPutWords | apply keeps_rise | apply keeps_finish | apply keeps_ite
    | apply keeps_foldl)

theorem keeps_ticketComplete {r : State} : ∀ s a1 a2, Keeps true r s → Keeps true r (State.ticketComplete s a1 a2)
    := by
  intros; unfold State.ticketComplete; try dsimp only
  repeat' with_reducible
   (first
    | intro x | assumption | apply keeps_measPoison | apply keeps_completeTicket | apply keeps_ite | split)

theorem keeps_callBack {r : State} : ∀ s a1, Keeps true r s → Keeps true r (State.callBack s a1) := by
  intros; unfold State.callBack; try dsimp only
  repeat' with_reducible
   (first
    | intro x | assumption | apply keeps_iuDisarm | apply keeps_setAne | apply keeps_aneSync | apply keeps_aneEnd
    | apply keeps_ite | apply keeps_foldl)

theorem keeps_ticketTimeout {r : State} : ∀ s a1, Keeps true r s → Keeps true r (State.ticketTimeout s a1) := by
  intros; unfold State.ticketTimeout; try dsimp only
  repeat' with_reducible
   (first
    | intro x | assumption | apply keeps_upToMono | apply keeps_begin_ | apply keeps_burstStatus
    | apply keeps_abortSeq | apply keeps_finish | apply keeps_callBack | apply keeps_ite | split)

theorem keeps_release {w : Bool} {r : State} : ∀ s a1, Keeps w r s → Keeps w r (State.release s a1) := by
  intros; unfold State.release; try dsimp only
  repeat' with_reducible
   (first
    | intro x | assumption | apply keeps_releaseTicket | apply keeps_ite | split)

theorem keeps_rerunRecord {w : Bool} {r : State} : ∀ s, Keeps w r s → Keeps w r (State.rerunRecord s) := by
  intros; unfold State.rerunRecord; try dsimp only
  repeat' with_reducible
   (first
    | intro x | assumption | apply keeps_evPush | apply keeps_set | apply keeps_rerunNext | apply keeps_ite
    | apply keeps_foldl | apply keeps_foldl_fst | split | refine keeps_mk ?_ rfl rfl)

theorem keeps_coreLost {r : State} : ∀ a1 s a2, Keeps true r s → Keeps true r (State.coreLost a1 s a2) := by
  intros; unfold State.coreLost; try dsimp only
  repeat' with_reducible
   (first
    | intro x | assumption | apply keeps_traceEv | apply keeps_modTicket | apply keeps_callBack
    | apply keeps_completeTicket | apply keeps_rerunNext | apply keeps_place | apply keeps_ite | split)

theorem keeps_coreFail {r : State} : ∀ s a1, Keeps true r s → Keeps true r (State.coreFail s a1) := by
  intros; unfold State.coreFail; try dsimp only
  repeat' with_reducible
   (first
    | intro x | assumption | apply keeps_set | apply keeps_put | apply keeps_bump | apply keeps_rise
    | apply keeps_coreLost | apply keeps_ite | apply keeps_foldl)

theorem keeps_ctrSet {w : Bool} {r : State} : ∀ s a1, Keeps w r s → Keeps w r (State.ctrSet s a1) := by
  intros; unfold State.ctrSet; try dsimp only
  repeat' with_reducible
   (first
    | intro x | assumption | apply keeps_writeAt | apply keeps_ctrPut | apply keeps_ite)

theorem keeps_evtEdge {w : Bool} {r : State} : ∀ s a1 a2, Keeps w r s → Keeps w r (State.evtEdge s a1 a2) := by
  intros; unfold State.evtEdge; try dsimp only
  repeat' with_reducible
   (first
    | intro x | assumption | apply keeps_ctrDown | apply keeps_seqEvent | apply keeps_trgInput | apply keeps_ite
    | split | refine keeps_mk ?_ rfl rfl)

theorem keeps_evtCtl {w : Bool} {r : State} : ∀ s a1 a2, Keeps w r s → Keeps w r (State.evtCtl s a1 a2) := by
  intros; unfold State.evtCtl; try dsimp only
  repeat' with_reducible
   (first
    | intro x | assumption | apply keeps_writeReg | apply keeps_ite | refine keeps_mk ?_ rfl rfl)

theorem keeps_evPoison {w : Bool} {r : State} : ∀ s a1 a2, Keeps w r s → Keeps w r (State.evPoison s a1 a2).1 := by
  intros; unfold State.evPoison; try dsimp only
  repeat' with_reducible
   (first
    | intro x | assumption | apply keeps_put | apply keeps_parityErr | apply keeps_rise | apply keeps_set
    | apply keeps_ite | apply keeps_ite_fst)

theorem keeps_evPop {w : Bool} {r : State} : ∀ s a1, Keeps w r s → Keeps w r (State.evPop s a1).1 := by
  intro s bad h; unfold State.evPop
  refine keeps_ite_fst h ?_
  split
  · exact keeps_mk h rfl rfl
  · next e t he =>
    exact keeps_evqRoom _ (keeps_ackSlot _ _ (keeps_evqSync _ (keeps_mk (keeps_evPoison _ _ _ (keeps_evTake _ _ _ h he)) rfl rfl)))

theorem keeps_evRingOne {w : Bool} {r : State} : ∀ s a1, Keeps w r s → Keeps w r (State.evRingOne s a1) := by
  intro s bad h; unfold State.evRingOne
  refine keeps_ite h ?_
  split
  · exact h
  · next e t he =>
    exact keeps_evqRoom _ (keeps_evqSync _ (keeps_msi _ _ (keeps_set _ _ _ _ (keeps_emit _ _ (keeps_evPoison _ _ _
      (keeps_mk (keeps_evTake _ _ _ h he) rfl rfl))))))

theorem keeps_evLone {w : Bool} {r : State} : ∀ s a1, Keeps w r s → Keeps w r (State.evLone s a1) := by
  intros; unfold State.evLone; try dsimp only
  repeat' with_reducible
   (first
    | intro x | assumption | apply keeps_upToMono | apply keeps_evRingOne | apply keeps_ite)

theorem keeps_evRing {w : Bool} {r : State} : ∀ s a1, Keeps w r s → Keeps w r (State.evRing s a1) := by
  intros; unfold State.evRing; try dsimp only
  repeat' with_reducible
   (first
    | intro x | assumption | apply keeps_evRingOne | apply keeps_ite)

theorem keeps_evRpWrite {w : Bool} {r : State} : ∀ s a1, Keeps w r s → Keeps w r (State.evRpWrite s a1) := by
  intros; unfold State.evRpWrite; try dsimp only
  repeat' with_reducible
   (first
    | intro x | assumption | apply keeps_writeReg | apply keeps_ackSlot | apply keeps_foldl
    | refine keeps_mk ?_ rfl rfl)

theorem keeps_traceDrain {r : State} : ∀ s a1, Keeps true r s → Keeps true r (State.traceDrain s a1) := by
  intros; unfold State.traceDrain; try dsimp only
  repeat' with_reducible
   (first
    | intro x | assumption | apply keeps_hbmPutWords | apply keeps_set | apply keeps_ite | apply keeps_foldl
    | refine keeps_mk ?_ rfl rfl)

theorem keeps_traceTail {r : State} : ∀ s, Keeps true r s → Keeps true r (State.traceTail s) := by
  intros; unfold State.traceTail; try dsimp only
  repeat' with_reducible
   (first
    | intro x | assumption | apply keeps_upToMono | apply keeps_traceDrain | apply keeps_ite)

theorem keeps_traceWrite {r : State} : ∀ s, Keeps true r s → Keeps true r (State.traceWrite s) := by
  intros; unfold State.traceWrite; try dsimp only
  repeat' with_reducible
   (first
    | intro x | assumption | apply keeps_traceDrain | apply keeps_ite)

theorem keeps_linCount {w : Bool} {r : State} : ∀ s a1 a2 a3, Keeps w r s → Keeps w r (State.linCount s a1 a2 a3) :=
    by
  intros; unfold State.linCount; try dsimp only
  repeat' with_reducible
   (first
    | intro x | assumption | apply keeps_bump | apply keeps_ite)

theorem keeps_trackEdge {w : Bool} {r : State} : ∀ s a1 a2 a3 a4, Keeps w r s → Keeps w r (State.trackEdge s a1 a2
    a3 a4) := by
  intros; unfold State.trackEdge; try dsimp only
  repeat' with_reducible
   (first
    | intro x | assumption | apply keeps_ite | apply keeps_foldl | refine keeps_mk ?_ rfl rfl)

theorem keeps_convert {w : Bool} {r : State} : ∀ s a1 a2 a3, Keeps w r s → Keeps w r (State.convert s a1 a2 a3) :=
    by
  intros; unfold State.convert; try dsimp only
  repeat' with_reducible
   (first
    | intro x | assumption | apply keeps_bump | apply keeps_setAwl | apply keeps_iuMissed | apply keeps_linCount
    | apply keeps_trackEdge | apply keeps_ite | split | refine keeps_mk ?_ rfl rfl)

theorem keeps_cmpChange {w : Bool} {r : State} : ∀ s a1 a2 a3 a4, Keeps w r s → Keeps w r (State.cmpChange s a1 a2
    a3 a4) := by
  intros; unfold State.cmpChange; try dsimp only
  repeat' with_reducible
   (first
    | intro x | assumption | apply keeps_upTo | apply keeps_setChan | apply keeps_seeWin | apply keeps_convert
    | apply keeps_ite)

theorem keeps_stampArrive {r : State} : ∀ s, Keeps true r s → Keeps true r (State.stampArrive s) := by
  intros; unfold State.stampArrive; try dsimp only
  repeat' with_reducible
   (first
    | intro x | assumption | apply keeps_upToQ | apply keeps_gateRelease | apply keeps_streamStamp
    | apply keeps_iuStamps | apply keeps_trgStamp | apply keeps_foldl | split | refine keeps_mk ?_ rfl rfl)

theorem keeps_streamBurst {r : State} : ∀ s a1 a2, Keeps true r s → Keeps true r (State.streamBurst s a1 a2) := by
  intros; unfold State.streamBurst; try dsimp only
  repeat' with_reducible
   (first
    | intro x | assumption | apply keeps_gateRelease | apply keeps_streamPoison | apply keeps_streamDrain
    | apply keeps_ite)

theorem keeps_iuTimeout {r : State} : ∀ s a1, Keeps true r s → Keeps true r (State.iuTimeout s a1) := by
  intros; unfold State.iuTimeout; try dsimp only
  repeat' with_reducible
   (first
    | intro x | assumption | apply keeps_upToQ | apply keeps_iuTmo | apply keeps_ite)

theorem keeps_iuPoison {w : Bool} {r : State} : ∀ s a1, Keeps w r s → Keeps w r (State.iuPoison s a1) := by
  intros; unfold State.iuPoison; try dsimp only
  repeat' with_reducible
   (first
    | intro x | assumption | apply keeps_setIu | apply keeps_set | apply keeps_parityErr | apply keeps_rise
    | split)

theorem keeps_ddsGo {w : Bool} {r : State} : ∀ s a1, Keeps w r s → Keeps w r (State.ddsGo s a1) := by
  intros; unfold State.ddsGo; try dsimp only
  repeat' with_reducible
   (first
    | intro x | assumption | apply keeps_ddsRefuse | apply keeps_setDds | apply keeps_set | apply keeps_ddsState
    | apply keeps_ddsStartAt | apply keeps_ite | split)

theorem keeps_ddsStop {w : Bool} {r : State} : ∀ s a1, Keeps w r s → Keeps w r (State.ddsStop s a1) := by
  intros; unfold State.ddsStop; try dsimp only
  repeat' with_reducible
   (first
    | intro x | assumption | apply keeps_setDds | apply keeps_ddsEnd | apply keeps_ite)

theorem keeps_ddsCtl {w : Bool} {r : State} : ∀ s a1 a2, Keeps w r s → Keeps w r (State.ddsCtl s a1 a2) := by
  intros; unfold State.ddsCtl; try dsimp only
  repeat' with_reducible
   (first
    | intro x | assumption | apply keeps_writeReg | apply keeps_ddsStop | apply keeps_ddsGo | apply keeps_ite)

theorem keeps_ddsLace {w : Bool} {r : State} : ∀ s a1 a2, Keeps w r s → Keeps w r (State.ddsLace s a1 a2) := by
  intros; unfold State.ddsLace; try dsimp only
  repeat' with_reducible
   (first
    | intro x | assumption | apply keeps_ddsRefuse | apply keeps_ddsState | apply keeps_ddsStartAt
    | apply keeps_ite | apply keeps_foldl)

theorem keeps_ddsStart {w : Bool} {r : State} : ∀ s a1, Keeps w r s → Keeps w r (State.ddsStart s a1) := by
  intros; unfold State.ddsStart; try dsimp only
  repeat' with_reducible
   (first
    | intro x | assumption | apply keeps_upToQ | apply keeps_takeNow | apply keeps_ddsBegin | split)

theorem keeps_clockEdge {w : Bool} {r : State} : ∀ s a1, Keeps w r s → Keeps w r (State.clockEdge s a1) := by
  intros; unfold State.clockEdge; try dsimp only
  repeat' with_reducible
   (first
    | intro x | assumption | apply keeps_setDds | apply keeps_ddsEdge | apply keeps_ddsEnd | apply keeps_ite
    | split)

theorem keeps_hop {w : Bool} {r : State} : ∀ s a1, Keeps w r s → Keeps w r (State.hop s a1) := by
  intros; unfold State.hop; try dsimp only
  repeat' with_reducible
   (first
    | intro x | assumption | apply keeps_clockEdge | apply keeps_upToQ | apply keeps_ddsHop | apply keeps_ite
    | split)

theorem keeps_hopPush {w : Bool} {r : State} : ∀ s a1 a2, Keeps w r s → Keeps w r (State.hopPush s a1 a2) := by
  intros; unfold State.hopPush; try dsimp only
  repeat' with_reducible
   (first
    | intro x | assumption | apply keeps_put | apply keeps_setDds | apply keeps_set | apply keeps_ddsDue
    | apply keeps_ite)

theorem keeps_ddsIdxInc {w : Bool} {r : State} : ∀ s a1, Keeps w r s → Keeps w r (State.ddsIdxInc s a1) := by
  intros; unfold State.ddsIdxInc; try dsimp only
  repeat' with_reducible
   (first
    | intro x | assumption | apply keeps_set | apply keeps_ite)

theorem keeps_ddsListWrite {w : Bool} {r : State} : ∀ s a1 a2, Keeps w r s → Keeps w r (State.ddsListWrite s a1 a2)
    := by
  intros; unfold State.ddsListWrite; try dsimp only
  repeat' with_reducible
   (first
    | intro x | assumption | apply keeps_refuse | apply keeps_ddsErrSync | apply keeps_ddsIdxInc | apply keeps_ite
    | split | refine keeps_mk ?_ rfl rfl)

theorem keeps_ddsListRead {w : Bool} {r : State} : ∀ s a1, Keeps w r s → Keeps w r (State.ddsListRead s a1).1 := by
  intros; unfold State.ddsListRead; try dsimp only
  repeat' with_reducible
   (first
    | intro x | assumption | apply keeps_ddsReadErr | apply keeps_ddsIdxInc)

theorem keeps_pelTx {w : Bool} {r : State} : ∀ s a1 a2, Keeps w r s → Keeps w r (State.pelTx s a1 a2) := by
  intros; unfold State.pelTx; try dsimp only
  repeat' with_reducible
   (first
    | intro x | assumption | apply keeps_writeReg | apply keeps_put | apply keeps_setDds | apply keeps_pelSync
    | apply keeps_ite)

theorem keeps_pelBegin {w : Bool} {r : State} : ∀ s a1 a2 a3 a4, Keeps w r s → Keeps w r (State.pelBegin s a1 a2 a3
    a4) := by
  intros; unfold State.pelBegin; try dsimp only
  repeat' with_reducible
   (first
    | intro x | assumption | apply keeps_upTo | apply keeps_setDds | apply keeps_emit)

theorem keeps_pelStart {w : Bool} {r : State} : ∀ s a1, Keeps w r s → Keeps w r (State.pelStart s a1) := by
  intros; unfold State.pelStart; try dsimp only
  repeat' with_reducible
   (first
    | intro x | assumption | apply keeps_pelBegin | apply keeps_ite | split)

theorem keeps_pelDone {w : Bool} {r : State} : ∀ s a1 a2, Keeps w r s → Keeps w r (State.pelDone s a1 a2) := by
  intros; unfold State.pelDone; try dsimp only
  repeat' with_reducible
   (first
    | intro x | assumption | apply keeps_upTo | apply keeps_setDds | apply keeps_set | apply keeps_put
    | apply keeps_hop | apply keeps_rise | apply keeps_pelSync | apply keeps_ite | split)

theorem keeps_setPg {w : Bool} {r : State} : ∀ s a1 a2, Keeps w r s → Keeps w r (State.setPg s a1 a2) := by
  intros; unfold State.setPg; try dsimp only
  repeat' with_reducible
   (first
    | intro x | assumption | refine keeps_mk ?_ rfl rfl)

theorem keeps_ptpShow {w : Bool} {r : State} : ∀ s, Keeps w r s → Keeps w r (State.ptpShow s) := by
  intros; unfold State.ptpShow; try dsimp only
  repeat' with_reducible
   (first
    | intro x | assumption | apply keeps_set | apply keeps_put)

theorem keeps_ptpSync {w : Bool} {r : State} : ∀ s, Keeps w r s → Keeps w r (State.ptpSync s) := by
  intros; unfold State.ptpSync; try dsimp only
  repeat' with_reducible
   (first
    | intro x | assumption | apply keeps_ptpShow | refine keeps_mk ?_ rfl rfl)

theorem keeps_ptpCapture {w : Bool} {r : State} : ∀ s, Keeps w r s → Keeps w r (State.ptpCapture s) := by
  intros; unfold State.ptpCapture; try dsimp only
  repeat' with_reducible
   (first
    | intro x | assumption | apply keeps_set)

theorem keeps_ptpStep {w : Bool} {r : State} : ∀ s a1, Keeps w r s → Keeps w r (State.ptpStep s a1) := by
  intros; unfold State.ptpStep; try dsimp only
  repeat' with_reducible
   (first
    | intro x | assumption | apply keeps_ptpSync | apply keeps_ptpShow | apply keeps_put | apply keeps_rise
    | apply keeps_msi | apply keeps_ite | refine keeps_mk ?_ rfl rfl)

theorem keeps_ptpCtl {w : Bool} {r : State} : ∀ s a1, Keeps w r s → Keeps w r (State.ptpCtl s a1) := by
  intros; unfold State.ptpCtl; try dsimp only
  repeat' with_reducible
   (first
    | intro x | assumption | apply keeps_writeAt | apply keeps_put | apply keeps_ptpStep | apply keeps_ptpSync
    | apply keeps_ptpShow | apply keeps_ite | refine keeps_mk ?_ rfl rfl)

theorem keeps_ptpSlewDone {w : Bool} {r : State} : ∀ s, Keeps w r s → Keeps w r (State.ptpSlewDone s) := by
  intros; unfold State.ptpSlewDone; try dsimp only
  repeat' with_reducible
   (first
    | intro x | assumption | apply keeps_upTo | apply keeps_ptpSync | apply keeps_ite)

theorem keeps_ptpRateWrite {w : Bool} {r : State} : ∀ s a1 a2, Keeps w r s → Keeps w r (State.ptpRateWrite s a1 a2)
    := by
  intros; unfold State.ptpRateWrite; try dsimp only
  repeat' with_reducible
   (first
    | intro x | assumption | apply keeps_ptpSync | apply keeps_writeReg)

theorem keeps_pgGo {w : Bool} {r : State} : ∀ s a1, Keeps w r s → Keeps w r (State.pgGo s a1) := by
  intros; unfold State.pgGo; try dsimp only
  repeat' with_reducible
   (first
    | intro x | assumption | apply keeps_setPg | apply keeps_put | apply keeps_rise | apply keeps_msi
    | apply keeps_ite)

theorem keeps_pgStop {w : Bool} {r : State} : ∀ s a1, Keeps w r s → Keeps w r (State.pgStop s a1) := by
  intros; unfold State.pgStop; try dsimp only
  repeat' with_reducible
   (first
    | intro x | assumption | apply keeps_setPg | apply keeps_put | apply keeps_evtRelease)

theorem keeps_pgCtl {w : Bool} {r : State} : ∀ s a1 a2, Keeps w r s → Keeps w r (State.pgCtl s a1 a2) := by
  intros; unfold State.pgCtl; try dsimp only
  repeat' with_reducible
   (first
    | intro x | assumption | apply keeps_writeAt | apply keeps_pgStop | apply keeps_pgGo | apply keeps_ite)

theorem keeps_pgPulse {w : Bool} {r : State} : ∀ s a1, Keeps w r s → Keeps w r (State.pgPulse s a1) := by
  intros; unfold State.pgPulse; try dsimp only
  repeat' with_reducible
   (first
    | intro x | assumption | apply keeps_upTo | apply keeps_evtPulse | apply keeps_setPg | apply keeps_put
    | apply keeps_ite)

theorem keeps_setXbr {w : Bool} {r : State} : ∀ s a1 a2, Keeps w r s → Keeps w r (State.setXbr s a1 a2) := by
  intros; unfold State.setXbr; try dsimp only
  repeat' with_reducible
   (first
    | intro x | assumption | refine keeps_mk ?_ rfl rfl)

theorem keeps_slotCommit {w : Bool} {r : State} : ∀ s a1, Keeps w r s → Keeps w r (State.slotCommit s a1) := by
  intros; unfold State.slotCommit; try dsimp only
  repeat' with_reducible
   (first
    | intro x | assumption | apply keeps_put | apply keeps_refuse | apply keeps_set | apply keeps_rise
    | apply keeps_fresh | apply keeps_copyStart | apply keeps_ite | apply keeps_ite_fst | apply keeps_foldl
    | split | refine keeps_mk ?_ rfl rfl)

theorem keeps_slotWrap {w : Bool} {r : State} : ∀ s, Keeps w r s → Keeps w r (State.slotWrap s) := by
  intros; unfold State.slotWrap; try dsimp only
  repeat' with_reducible
   (first
    | intro x | assumption | apply keeps_slotCommit | apply keeps_ite | apply keeps_foldl)

theorem keeps_scrCommit {w : Bool} {r : State} : ∀ s a1, Keeps w r s → Keeps w r (State.scrCommit s a1) := by
  intros; unfold State.scrCommit; try dsimp only
  repeat' with_reducible
   (first
    | intro x | assumption | apply keeps_put | apply keeps_rise | apply keeps_copyStart | apply keeps_ite
    | apply keeps_foldl | split | refine keeps_mk ?_ rfl rfl)

theorem keeps_nbrRefresh {w : Bool} {r : State} : ∀ s a1, Keeps w r s → Keeps w r (State.nbrRefresh s a1) := by
  intros; unfold State.nbrRefresh; try dsimp only
  repeat' with_reducible
   (first
    | intro x | assumption | apply keeps_setXbr | apply keeps_bump | split)

theorem keeps_countWait {w : Bool} {r : State} : ∀ s a1 a2 a3, Keeps w r s → Keeps w r (State.countWait s a1 a2 a3)
    := by
  intros; unfold State.countWait; try dsimp only
  repeat' with_reducible
   (first
    | intro x | assumption | apply keeps_setXbr | apply keeps_set | apply keeps_ite)

theorem keeps_slot {w : Bool} {r : State} : ∀ s a1 a2, Keeps w r s → Keeps w r (State.slot s a1 a2) := by
  intros; unfold State.slot; try dsimp only
  repeat' with_reducible
   (first
    | intro x | assumption | apply keeps_setXbr | apply keeps_countWait | apply keeps_rise | apply keeps_ite
    | apply keeps_ite_fst | apply keeps_foldl)

theorem keeps_waitForced {w : Bool} {r : State} : ∀ s a1 a2, Keeps w r s → Keeps w r (State.waitForced s a1 a2) :=
    by
  intros; unfold State.waitForced; try dsimp only
  repeat' with_reducible
   (first
    | intro x | assumption | apply keeps_setXbr | apply keeps_ite)

theorem keeps_dropGrant {w : Bool} {r : State} : ∀ s a1 a2 a3, Keeps w r s → Keeps w r (State.dropGrant s a1 a2 a3)
    := by
  intros; unfold State.dropGrant; try dsimp only
  repeat' with_reducible
   (first
    | intro x | assumption | apply keeps_setXbr | apply keeps_bump)

theorem keeps_urgency {w : Bool} {r : State} : ∀ s a1 a2, Keeps w r s → Keeps w r (State.urgency s a1 a2) := by
  intros; unfold State.urgency; try dsimp only
  repeat' with_reducible
   (first
    | intro x | assumption | apply keeps_upToMono | apply keeps_setXbr | apply keeps_set | apply keeps_dropGrant
    | apply keeps_bump | apply keeps_rise | apply keeps_ite | apply keeps_foldl | split)

theorem keeps_issue {w : Bool} {r : State} : ∀ s a1 a2 a3 a4, Keeps w r s → Keeps w r (State.issue s a1 a2 a3 a4) :=
    by
  intros; unfold State.issue; try dsimp only
  repeat' with_reducible
   (first
    | intro x | assumption | apply keeps_setXbr | apply keeps_wr | apply keeps_ite | apply keeps_foldl
    | apply keeps_foldl_fst | split)

theorem keeps_eccCorr {w : Bool} {r : State} : ∀ s a1 a2, Keeps w r s → Keeps w r (State.eccCorr s a1 a2) := by
  intros; unfold State.eccCorr; try dsimp only
  repeat' with_reducible
   (first
    | intro x | assumption | apply keeps_bump | apply keeps_rise | apply keeps_setXbr | apply keeps_candidate
    | apply keeps_ite)

theorem keeps_copyRead {w : Bool} {r : State} : ∀ s a1 a2 a3, Keeps w r s → Keeps w r (State.copyRead s a1 a2 a3).1
    := by
  intros; unfold State.copyRead; try dsimp only
  repeat' with_reducible
   (first
    | intro x | assumption | apply keeps_bump | apply keeps_candidate | apply keeps_eccCorr | apply keeps_ite
    | apply keeps_ite_fst | split | refine keeps_mk ?_ rfl rfl)

theorem keeps_readLost {w : Bool} {r : State} : ∀ s a1 a2, Keeps w r s → Keeps w r (State.readLost s a1 a2) := by
  intros; unfold State.readLost; try dsimp only
  repeat' with_reducible
   (first
    | intro x | assumption | apply keeps_set | apply keeps_rise)

theorem keeps_copyBack {r : State} : ∀ s a1 a2, Keeps true r s → Keeps true r (State.copyBack s a1 a2) := by
  intro s a b h
  exact keeps_mk_wf h (Memory.copyAccess_wf _ _ _) rfl

theorem keeps_readOther {r : State} : ∀ s a1 a2 a3 a4, Keeps true r s → Keeps true r (State.readOther s a1 a2 a3 a4)
    := by
  intros; unfold State.readOther; try dsimp only
  repeat' with_reducible
   (first
    | intro x | assumption | apply keeps_readLost | apply keeps_copyRead | apply keeps_copyBack | apply keeps_ite
    | apply keeps_ite_fst | split)

theorem keeps_readReturn {r : State} : ∀ s a1 a2 a3 a4, Keeps true r s → Keeps true r (State.readReturn s a1 a2 a3
    a4) := by
  intros; unfold State.readReturn; try dsimp only
  repeat' with_reducible
   (first
    | intro x | assumption | apply keeps_setXbr | apply keeps_copyRead | apply keeps_readOther | apply keeps_ite
    | apply keeps_ite_fst | split)

theorem keeps_repairRow {r : State} : ∀ s a1 a2, Keeps true r s → Keeps true r (State.repairRow s a1 a2) := by
  intros; unfold State.repairRow; try dsimp only
  repeat' with_reducible
   (first
    | intro x | assumption | apply keeps_copyBack | apply keeps_ite | apply keeps_foldl)

theorem keeps_repairStore {w : Bool} {r : State} : ∀ s a1 a2, Keeps w r s → Keeps w r (State.repairStore s a1 a2) :=
    by
  intros; unfold State.repairStore; try dsimp only
  repeat' with_reducible
   (first
    | intro x | assumption | apply keeps_put | apply keeps_rise | apply keeps_ite | refine keeps_mk ?_ rfl rfl)

theorem keeps_repairStart {w : Bool} {r : State} : ∀ s a1, Keeps w r s → Keeps w r (State.repairStart s a1) := by
  intros; unfold State.repairStart; try dsimp only
  repeat' with_reducible
   (first
    | intro x | assumption | apply keeps_setXbr | apply keeps_ite | split)

theorem keeps_repairEnd {r : State} : ∀ s a1 a2, Keeps true r s → Keeps true r (State.repairEnd s a1 a2) := by
  intros; unfold State.repairEnd; try dsimp only
  repeat' with_reducible
   (first
    | intro x | assumption | apply keeps_put | apply keeps_repairRow | apply keeps_repairStore)

theorem keeps_repairDone {r : State} : ∀ s a1, Keeps true r s → Keeps true r (State.repairDone s a1) := by
  intros; unfold State.repairDone; try dsimp only
  repeat' with_reducible
   (first
    | intro x | assumption | apply keeps_setXbr | apply keeps_repairEnd | split)

theorem keeps_fillRepair {r : State} : ∀ s a1 a2, Keeps true r s → Keeps true r (State.fillRepair s a1 a2) := by
  intros; unfold State.fillRepair; try dsimp only
  repeat' with_reducible
   (first
    | intro x | assumption | apply keeps_candidate | apply keeps_repairEnd | apply keeps_repairStore
    | apply keeps_ite | split)

theorem keeps_refresh {w : Bool} {r : State} : ∀ s a1 a2 a3, Keeps w r s → Keeps w r (State.refresh s a1 a2 a3) :=
    by
  intros; unfold State.refresh; try dsimp only
  repeat' with_reducible
   (first
    | intro x | assumption | apply keeps_fresh | apply keeps_setXbr | apply keeps_set | apply keeps_bump
    | apply keeps_rise | apply keeps_ite)

theorem keeps_srEntry {w : Bool} {r : State} : ∀ s a1, Keeps w r s → Keeps w r (State.srEntry s a1) := by
  intros; unfold State.srEntry; try dsimp only
  repeat' with_reducible
   (first
    | intro x | assumption | apply keeps_upToMono | apply keeps_set | apply keeps_ite)

theorem keeps_srExit {w : Bool} {r : State} : ∀ s a1, Keeps w r s → Keeps w r (State.srExit s a1) := by
  intros; unfold State.srExit; try dsimp only
  repeat' with_reducible
   (first
    | intro x | assumption | apply keeps_setXbr | apply keeps_set | apply keeps_ite)

theorem keeps_stackFail {w : Bool} {r : State} : ∀ s a1, Keeps w r s → Keeps w r (State.stackFail s a1) := by
  intros; unfold State.stackFail; try dsimp only
  repeat' with_reducible
   (first
    | intro x | assumption | apply keeps_setXbr | apply keeps_rise)

theorem keeps_holdSync {w : Bool} {r : State} : ∀ s, Keeps w r s → Keeps w r (State.holdSync s) := by
  intros; unfold State.holdSync; try dsimp only
  repeat' with_reducible
   (first
    | intro x | assumption | apply keeps_set | apply keeps_ite)

theorem keeps_refLoss {w : Bool} {r : State} : ∀ s, Keeps w r s → Keeps w r (State.refLoss s) := by
  intros; unfold State.refLoss; try dsimp only
  repeat' with_reducible
   (first
    | intro x | assumption | apply keeps_put | apply keeps_holdSync | apply keeps_rise | apply keeps_ite
    | refine keeps_mk ?_ rfl rfl)

theorem keeps_refReturn {w : Bool} {r : State} : ∀ s a1, Keeps w r s → Keeps w r (State.refReturn s a1) := by
  intros; unfold State.refReturn; try dsimp only
  repeat' with_reducible
   (first
    | intro x | assumption | apply keeps_holdSync | apply keeps_put | apply keeps_ite | refine keeps_mk ?_ rfl rfl)

theorem keeps_refLong {w : Bool} {r : State} : ∀ s, Keeps w r s → Keeps w r (State.refLong s) := by
  intros; unfold State.refLong; try dsimp only
  repeat' with_reducible
   (first
    | intro x | assumption | apply keeps_upToMono | apply keeps_holdSync | apply keeps_rise | apply keeps_ite)

theorem keeps_fmonWindow {w : Bool} {r : State} : ∀ s a1, Keeps w r s → Keeps w r (State.fmonWindow s a1) := by
  intros; unfold State.fmonWindow; try dsimp only
  repeat' with_reducible
   (first
    | intro x | assumption | apply keeps_rise | apply keeps_inForce | apply keeps_ite)

theorem keeps_pllLock {w : Bool} {r : State} : ∀ s, Keeps w r s → Keeps w r (State.pllLock s) := by
  intros; unfold State.pllLock; try dsimp only
  repeat' with_reducible
   (first
    | intro x | assumption | apply keeps_set | apply keeps_put | apply keeps_ite)

theorem keeps_pllUnlock {w : Bool} {r : State} : ∀ s a1, Keeps w r s → Keeps w r (State.pllUnlock s a1) := by
  intros; unfold State.pllUnlock; try dsimp only
  repeat' with_reducible
   (first
    | intro x | assumption | apply keeps_set | apply keeps_rise)

theorem keeps_timelineStart {w : Bool} {r : State} : ∀ s, Keeps w r s → Keeps w r (State.timelineStart s) := by
  intros; unfold State.timelineStart; try dsimp only
  repeat' with_reducible
   (first
    | intro x | assumption | apply keeps_ite | refine keeps_mk ?_ rfl rfl)

theorem keeps_rebase {w : Bool} {r : State} : ∀ s a1, Keeps w r s → Keeps w r (State.rebase s a1) := by
  intros; unfold State.rebase; try dsimp only
  repeat' with_reducible
   (first
    | intro x | assumption | apply keeps_hop | apply keeps_rawAll | apply keeps_setTrg | apply keeps_foldl
    | apply keeps_foldl_fst | refine keeps_mk ?_ rfl rfl)

theorem keeps_zero {w : Bool} {r : State} : ∀ s a1, Keeps w r s → Keeps w r (State.zero s a1) := by
  intros; unfold State.zero; try dsimp only
  repeat' with_reducible
   (first
    | intro x | assumption | apply keeps_ptpSync | apply keeps_rebase | apply keeps_put | apply keeps_set
    | apply keeps_inForce | apply keeps_slotWrap | refine keeps_mk ?_ rfl rfl)

theorem keeps_alignCheck {w : Bool} {r : State} : ∀ s a1, Keeps w r s → Keeps w r (State.alignCheck s a1) := by
  intros; unfold State.alignCheck; try dsimp only
  repeat' with_reducible
   (first
    | intro x | assumption | apply keeps_set | apply keeps_rise | apply keeps_ite)

theorem keeps_alignRefused {w : Bool} {r : State} : ∀ s a1, Keeps w r s → Keeps w r (State.alignRefused s a1) := by
  intros; unfold State.alignRefused; try dsimp only
  repeat' with_reducible
   (first
    | intro x | assumption | apply keeps_put | apply keeps_set)

theorem keeps_align {w : Bool} {r : State} : ∀ s a1, Keeps w r s → Keeps w r (State.align s a1) := by
  intros; unfold State.align; try dsimp only
  repeat' with_reducible
   (first
    | intro x | assumption | apply keeps_alignRefused | apply keeps_ite | refine keeps_mk ?_ rfl rfl)

theorem keeps_zeroingEdge {w : Bool} {r : State} : ∀ s, Keeps w r s → Keeps w r (State.zeroingEdge s) := by
  intros; unfold State.zeroingEdge; try dsimp only
  repeat' with_reducible
   (first
    | intro x | assumption | apply keeps_align | apply keeps_upTo | apply keeps_alignCheck | apply keeps_zero
    | apply keeps_alignRefused | apply keeps_ite | split | refine keeps_mk ?_ rfl rfl)

theorem keeps_checkEdge {w : Bool} {r : State} : ∀ s, Keeps w r s → Keeps w r (State.checkEdge s) := by
  intros; unfold State.checkEdge; try dsimp only
  repeat' with_reducible
   (first
    | intro x | assumption | apply keeps_align | apply keeps_upTo | apply keeps_alignCheck | split
    | refine keeps_mk ?_ rfl rfl)

theorem keeps_laceStart {w : Bool} {r : State} : ∀ s a1 a2, Keeps w r s → Keeps w r (State.laceStart s a1 a2) := by
  intros; unfold State.laceStart; try dsimp only
  repeat' with_reducible
   (first
    | intro x | assumption | apply keeps_groupLace | apply keeps_ddsLace | apply keeps_syncArm
    | apply keeps_seqEvent | apply keeps_ite | apply keeps_foldl)

theorem keeps_laceFrame {w : Bool} {r : State} : ∀ s a1 a2, Keeps w r s → Keeps w r (State.laceFrame s a1 a2) := by
  intros; unfold State.laceFrame; try dsimp only
  repeat' with_reducible
   (first
    | intro x | assumption | apply keeps_laceStart | apply keeps_ctrDown | apply keeps_trgCode | apply keeps_ite)

theorem keeps_laceDone {w : Bool} {r : State} : ∀ s a1, Keeps w r s → Keeps w r (State.laceDone s a1) := by
  intros; unfold State.laceDone; try dsimp only
  repeat' with_reducible
   (first
    | intro x | assumption | apply keeps_bump | apply keeps_rise | apply keeps_align | apply keeps_laceFrame
    | apply keeps_put | apply keeps_ite)

theorem keeps_laceBit {w : Bool} {r : State} : ∀ s a1, Keeps w r s → Keeps w r (State.laceBit s a1) := by
  intros; unfold State.laceBit; try dsimp only
  repeat' with_reducible
   (first
    | intro x | assumption | apply keeps_keep | apply keeps_laceDone | apply keeps_ite
    | refine keeps_mk ?_ rfl rfl)

theorem keeps_laceBits {w : Bool} {r : State} : ∀ s a1 a2, Keeps w r s → Keeps w r (State.laceBits s a1 a2) := by
  intro s t l; induction l generalizing s with
  | nil => exact id
  | cons b l ih => exact fun h => ih _ (keeps_laceBit _ _ (keeps_upTo _ _ h))

theorem keeps_laceIn {w : Bool} {r : State} : ∀ s a1 a2, Keeps w r s → Keeps w r (State.laceIn s a1 a2) := by
  intros; unfold State.laceIn; try dsimp only
  repeat' with_reducible
   (first
    | intro x | assumption | apply keeps_emit | apply keeps_laceBits | apply keeps_ite
    | refine keeps_mk ?_ rfl rfl)

theorem keeps_laceSent {w : Bool} {r : State} : ∀ s, Keeps w r s → Keeps w r (State.laceSent s) := by
  intros; unfold State.laceSent; try dsimp only
  repeat' with_reducible
   (first
    | intro x | assumption | apply keeps_upTo | apply keeps_emit | apply keeps_put | split
    | refine keeps_mk ?_ rfl rfl)

theorem keeps_laceStop {w : Bool} {r : State} : ∀ s, Keeps w r s → Keeps w r (State.laceStop s) := by
  intros; unfold State.laceStop; try dsimp only
  repeat' with_reducible
   (first
    | intro x | assumption | apply keeps_emit | apply keeps_ite | split | refine keeps_mk ?_ rfl rfl)

theorem keeps_laceTx {w : Bool} {r : State} : ∀ s a1, Keeps w r s → Keeps w r (State.laceTx s a1) := by
  intros; unfold State.laceTx; try dsimp only
  repeat' with_reducible
   (first
    | intro x | assumption | apply keeps_writeReg | apply keeps_put | apply keeps_weltOwn | apply keeps_ite
    | split | refine keeps_mk ?_ rfl rfl)

theorem keeps_laceCtl {w : Bool} {r : State} : ∀ s a1, Keeps w r s → Keeps w r (State.laceCtl s a1) := by
  intros; unfold State.laceCtl; try dsimp only
  repeat' with_reducible
   (first
    | intro x | assumption | apply keeps_writeReg | apply keeps_put | apply keeps_ite)

end Sys2Proof.Machine
end

