-- ==== Sys2Proof/Laws/Keeps5.lean ====
section
/-!
SUPPORT. What each operation keeps (Laws/Keeps.lean), 5 of 6; operations come after those that they use.
-/
namespace Sys2Proof.Machine

open Sys2Proof

theorem keeps_refcalCtl {w : Bool} {r : State} : ∀ s a1, Keeps w r s → Keeps w r (State.refcalCtl s a1) := by
  intros; unfold State.refcalCtl; try dsimp only
  repeat' with_reducible
   (first
    | intro x | assumption | apply keeps_writeReg | apply keeps_put | apply keeps_ite)

theorem keeps_refcalEdge {w : Bool} {r : State} : ∀ s a1, Keeps w r s → Keeps w r (State.refcalEdge s a1) := by
  intros; unfold State.refcalEdge; try dsimp only
  repeat' with_reducible
   (first
    | intro x | assumption | apply keeps_upTo | apply keeps_set | apply keeps_put | apply keeps_ite)

theorem keeps_setTrack {w : Bool} {r : State} : ∀ s a1 a2, Keeps w r s → Keeps w r (State.setTrack s a1 a2) := by
  intros; unfold State.setTrack; try dsimp only
  repeat' with_reducible
   (first
    | intro x | assumption | refine keeps_mk ?_ rfl rfl)

theorem keeps_trackFail {w : Bool} {r : State} : ∀ s a1, Keeps w r s → Keeps w r (State.trackFail s a1) := by
  intros; unfold State.trackFail; try dsimp only
  repeat' with_reducible
   (first
    | intro x | assumption | apply keeps_trackOverlap | apply keeps_foldl)

theorem keeps_setTrackState {w : Bool} {r : State} : ∀ s a1 a2, Keeps w r s → Keeps w r (State.setTrackState s a1
    a2) := by
  intros; unfold State.setTrackState; try dsimp only
  repeat' with_reducible
   (first
    | intro x | assumption | apply keeps_seqEvent | apply keeps_set | apply keeps_trackFail | apply keeps_ite)

theorem keeps_qofsShow {w : Bool} {r : State} : ∀ s a1, Keeps w r s → Keeps w r (State.qofsShow s a1) := by
  intros; unfold State.qofsShow; try dsimp only
  repeat' with_reducible
   (first
    | intro x | assumption | apply keeps_set)

theorem keeps_steer {w : Bool} {r : State} : ∀ s a1 a2, Keeps w r s → Keeps w r (State.steer s a1 a2) := by
  intros; unfold State.steer; try dsimp only
  repeat' with_reducible
   (first
    | intro x | assumption | apply keeps_setTrack | apply keeps_qofsShow | apply keeps_put | apply keeps_rise
    | apply keeps_ite)

theorem keeps_acquire {w : Bool} {r : State} : ∀ s a1 a2, Keeps w r s → Keeps w r (State.acquire s a1 a2) := by
  intros; unfold State.acquire; try dsimp only
  repeat' with_reducible
   (first
    | intro x | assumption | apply keeps_setTrack | apply keeps_setTrackState)

theorem keeps_trackSample {w : Bool} {r : State} : ∀ s a1 a2, Keeps w r s → Keeps w r (State.trackSample s a1 a2) :=
    by
  intros; unfold State.trackSample; try dsimp only
  repeat' with_reducible
   (first
    | intro x | assumption | apply keeps_set | apply keeps_setTrack | apply keeps_steer | apply keeps_ite)

theorem keeps_trackWindow {w : Bool} {r : State} : ∀ s a1, Keeps w r s → Keeps w r (State.trackWindow s a1) := by
  intros; unfold State.trackWindow; try dsimp only
  repeat' with_reducible
   (first
    | intro x | assumption | apply keeps_upTo | apply keeps_setTrack | apply keeps_trackSample | apply keeps_steer
    | apply keeps_inForceRange | apply keeps_put | apply keeps_acquire | apply keeps_setTrackState
    | apply keeps_ite | split)

theorem keeps_trackLocked {w : Bool} {r : State} : ∀ s a1, Keeps w r s → Keeps w r (State.trackLocked s a1) := by
  intros; unfold State.trackLocked; try dsimp only
  repeat' with_reducible
   (first
    | intro x | assumption | apply keeps_setTrackState | apply keeps_ite)

theorem keeps_trackLost {w : Bool} {r : State} : ∀ s a1, Keeps w r s → Keeps w r (State.trackLost s a1) := by
  intros; unfold State.trackLost; try dsimp only
  repeat' with_reducible
   (first
    | intro x | assumption | apply keeps_setTrackState | apply keeps_put | apply keeps_rise | apply keeps_ite)

theorem keeps_trackDone {w : Bool} {r : State} : ∀ s a1, Keeps w r s → Keeps w r (State.trackDone s a1) := by
  intros; unfold State.trackDone; try dsimp only
  repeat' with_reducible
   (first
    | intro x | assumption | apply keeps_setTrackState | apply keeps_ite)

theorem keeps_trackWrite {w : Bool} {r : State} : ∀ s a1 a2, Keeps w r s → Keeps w r (State.trackWrite s a1 a2) :=
    by
  intros; unfold State.trackWrite; try dsimp only
  repeat' with_reducible
   (first
    | intro x | assumption | apply keeps_regWrite | apply keeps_set | apply keeps_ite | split)

theorem keeps_killAssert {w : Bool} {r : State} : ∀ s, Keeps w r s → Keeps w r (State.killAssert s) := by
  intros; unfold State.killAssert; try dsimp only
  repeat' with_reducible
   (first
    | intro x | assumption | apply keeps_put)

theorem keeps_faultSync {w : Bool} {r : State} : ∀ s, Keeps w r s → Keeps w r (State.faultSync s) := by
  intros; unfold State.faultSync; try dsimp only
  repeat' with_reducible
   (first
    | intro x | assumption | apply keeps_put)

theorem keeps_abortTicket {r : State} : ∀ s a1 a2, Keeps true r s → Keeps true r (State.abortTicket s a1 a2) := by
  intros; unfold State.abortTicket; try dsimp only
  repeat' with_reducible
   (first
    | intro x | assumption | apply keeps_callBack | apply keeps_slot | apply keeps_endTicket)

theorem keeps_settleTickets {r : State} : ∀ s a1, Keeps true r s → Keeps true r (State.settleTickets s a1) := by
  intros; unfold State.settleTickets; try dsimp only
  repeat' with_reducible
   (first
    | intro x | assumption | apply keeps_slot | apply keeps_abortTicket | apply keeps_foldl)

theorem keeps_settleEyeTicket {r : State} : ∀ a1 s a2, Keeps true r s → Keeps true r (State.settleEyeTicket a1 s a2)
    := by
  intros; unfold State.settleEyeTicket; try dsimp only
  repeat' with_reducible
   (first
    | intro x | assumption | apply keeps_slot | apply keeps_abortTicket | apply keeps_endTicket
    | apply keeps_modTicket | apply keeps_ite | split)

theorem keeps_settleEye {r : State} : ∀ s a1, Keeps true r s → Keeps true r (State.settleEye s a1) := by
  intros; unfold State.settleEye; try dsimp only
  repeat' with_reducible
   (first
    | intro x | assumption | apply keeps_slot | apply keeps_settleEyeTicket | apply keeps_foldl)

theorem keeps_eyeFlush {r : State} : ∀ s a1, Keeps true r s → Keeps true r (State.eyeFlush s a1) := by
  intros; unfold State.eyeFlush; try dsimp only
  repeat' with_reducible
   (first
    | intro x | assumption | apply keeps_flogDrain | apply keeps_flogDone | apply keeps_streamFlush
    | apply keeps_set | apply keeps_iuDisarm | apply keeps_ite | apply keeps_foldl)

theorem keeps_eyeHeelPins {w : Bool} {r : State} : ∀ s a1, Keeps w r s → Keeps w r (State.eyeHeelPins s a1) := by
  intros; unfold State.eyeHeelPins; try dsimp only
  repeat' with_reducible
   (first
    | intro x | assumption | apply keeps_ddsEnd | apply keeps_parkCh | apply keeps_set | apply keeps_setSpr
    | apply keeps_ite | apply keeps_foldl)

theorem keeps_eyeHeelEnter {r : State} : ∀ s a1, Keeps true r s → Keeps true r (State.eyeHeelEnter s a1) := by
  intros; unfold State.eyeHeelEnter; try dsimp only
  repeat' with_reducible
   (first
    | intro x | assumption | apply keeps_settleEye | apply keeps_leaveGroup | apply keeps_killAssert
    | apply keeps_eyeFlush | apply keeps_eyeHeelPins | apply keeps_ite)

theorem keeps_enginesHeel {r : State} : ∀ s, Keeps true r s → Keeps true r (State.enginesHeel s) := by
  intros; unfold State.enginesHeel; try dsimp only
  repeat' with_reducible
   (first
    | intro x | assumption | apply keeps_trgHeel | apply keeps_aneEnd | apply keeps_setAne | apply keeps_aneSync
    | apply keeps_ite | apply keeps_foldl)

theorem keeps_stacksHeld {w : Bool} {r : State} : ∀ s, Keeps w r s → Keeps w r (State.stacksHeld s) := by
  intros; unfold State.stacksHeld; try dsimp only
  repeat' with_reducible
   (first
    | intro x | assumption | apply keeps_set)

theorem keeps_devHeelEnter {r : State} : ∀ s a1, Keeps true r s → Keeps true r (State.devHeelEnter s a1) := by
  intros; unfold State.devHeelEnter; try dsimp only
  repeat' with_reducible
   (first
    | intro x | assumption | apply keeps_parkGroup | apply keeps_settleTickets | apply keeps_killAssert
    | apply keeps_eyeFlush | apply keeps_eyeHeelPins | apply keeps_enginesHeel | apply keeps_stacksHeld
    | apply keeps_ite | apply keeps_foldl)

theorem keeps_heelRec {w : Bool} {r : State} : ∀ s a1 a2, Keeps w r s → Keeps w r (State.heelRec s a1 a2) := by
  intros; unfold State.heelRec; try dsimp only
  repeat' with_reducible
   (first
    | intro x | assumption | apply keeps_logPush)

theorem keeps_enterHeel {r : State} : ∀ s a1 a2 a3 a4, Keeps true r s → Keeps true r (State.enterHeel s a1 a2 a3 a4)
    := by
  intros; unfold State.enterHeel; try dsimp only
  repeat' with_reducible
   (first
    | intro x | assumption | apply keeps_set | apply keeps_put | apply keeps_heelRec | apply keeps_devHeelEnter
    | apply keeps_faultSync | apply keeps_eyeHeelEnter | apply keeps_ite | refine keeps_mk ?_ rfl rfl)

theorem keeps_cleanStart {w : Bool} {r : State} : ∀ s a1, Keeps w r s → Keeps w r (State.cleanStart s a1) := by
  intros; unfold State.cleanStart; try dsimp only
  repeat' with_reducible
   (first
    | intro x | assumption | apply keeps_setChan | apply keeps_foldl)

theorem keeps_eyeHeelLeave {w : Bool} {r : State} : ∀ s a1, Keeps w r s → Keeps w r (State.eyeHeelLeave s a1) := by
  intros; unfold State.eyeHeelLeave; try dsimp only
  repeat' with_reducible
   (first
    | intro x | assumption | apply keeps_takeNow | apply keeps_set | apply keeps_setSpr | apply keeps_cleanStart)

theorem keeps_flashPut {w : Bool} {r : State} : ∀ s a1 a2, Keeps w r s → Keeps w r (State.flashPut s a1 a2) := by
  intros; unfold State.flashPut; try dsimp only
  repeat' with_reducible
   (first
    | intro x | assumption | refine keeps_mk ?_ rfl rfl)

theorem keeps_flashErase {w : Bool} {r : State} : ∀ s a1 a2, Keeps w r s → Keeps w r (State.flashErase s a1 a2) :=
    by
  intros; unfold State.flashErase; try dsimp only
  repeat' with_reducible
   (first
    | intro x | assumption | refine keeps_mk ?_ rfl rfl)

theorem keeps_flashBlur {w : Bool} {r : State} : ∀ s a1 a2, Keeps w r s → Keeps w r (State.flashBlur s a1 a2) := by
  intros; unfold State.flashBlur; try dsimp only
  repeat' with_reducible
   (first
    | intro x | assumption | apply keeps_fresh | apply keeps_flashPut | apply keeps_foldl)

theorem keeps_setSensor {w : Bool} {r : State} : ∀ s a1 a2, Keeps w r s → Keeps w r (State.setSensor s a1 a2) := by
  intros; unfold State.setSensor; try dsimp only
  repeat' with_reducible
   (first
    | intro x | assumption | refine keeps_mk ?_ rfl rfl)

theorem keeps_evFlush {w : Bool} {r : State} : ∀ s a1, Keeps w r s → Keeps w r (State.evFlush s a1) := by
  intro s n; induction n generalizing s with
  | zero => exact id
  | succ n ih =>
    intro h; unfold State.evFlush
    exact keeps_ite h (ih _ (keeps_evRingOne _ _ h))

theorem keeps_thermalFlush {r : State} : ∀ s a1, Keeps true r s → Keeps true r (State.thermalFlush s a1) := by
  intros; unfold State.thermalFlush; try dsimp only
  repeat' with_reducible
   (first
    | intro x | assumption | apply keeps_flogDrain | apply keeps_streamFlush | apply keeps_acqDrain
    | apply keeps_evFlush | apply keeps_foldl)

theorem keeps_stopBegin {r : State} : ∀ s a1 a2, Keeps true r s → Keeps true r (State.stopBegin s a1 a2) := by
  intros; unfold State.stopBegin; try dsimp only
  repeat' with_reducible
   (first
    | intro x | assumption | apply keeps_enterHeel | apply keeps_rise | apply keeps_put | apply keeps_keep
    | apply keeps_stopGroup | apply keeps_slot | apply keeps_abortTicket | apply keeps_ite | apply keeps_foldl
    | split | refine keeps_mk ?_ rfl rfl)

theorem keeps_stopEnd {r : State} : ∀ s a1, Keeps true r s → Keeps true r (State.stopEnd s a1) := by
  intros; unfold State.stopEnd; try dsimp only
  repeat' with_reducible
   (first
    | intro x | assumption | apply keeps_put | apply keeps_thermalFlush | apply keeps_enterHeel | apply keeps_rise
    | apply keeps_ite | refine keeps_mk ?_ rfl rfl)

theorem keeps_stopCheck {r : State} : ∀ s, Keeps true r s → Keeps true r (State.stopCheck s) := by
  intros; unfold State.stopCheck; try dsimp only
  repeat' with_reducible
   (first
    | intro x | assumption | apply keeps_stopEnd | apply keeps_foldl)

theorem keeps_parkDeadline {r : State} : ∀ s, Keeps true r s → Keeps true r (State.parkDeadline s) := by
  intros; unfold State.parkDeadline; try dsimp only
  repeat' with_reducible
   (first
    | intro x | assumption | apply keeps_upToMono | apply keeps_parkGroup | apply keeps_stopCheck
    | apply keeps_foldl | split)

theorem keeps_trip {r : State} : ∀ s, Keeps true r s → Keeps true r (State.trip s) := by
  intros; unfold State.trip; try dsimp only
  repeat' with_reducible
   (first
    | intro x | assumption | apply keeps_put | apply keeps_enterHeel | apply keeps_rise | apply keeps_ite
    | refine keeps_mk ?_ rfl rfl)

theorem keeps_pllGate {w : Bool} {r : State} : ∀ s, Keeps w r s → Keeps w r (State.pllGate s) := by
  intros; unfold State.pllGate; try dsimp only
  repeat' with_reducible
   (first
    | intro x | assumption | apply keeps_upToMono | split | refine keeps_mk ?_ rfl rfl)

theorem keeps_hotSync {w : Bool} {r : State} : ∀ s, Keeps w r s → Keeps w r (State.hotSync s) := by
  intros; unfold State.hotSync; try dsimp only
  repeat' with_reducible
   (first
    | intro x | assumption | apply keeps_put)

theorem keeps_fastSync {w : Bool} {r : State} : ∀ s a1 a2, Keeps w r s → Keeps w r (State.fastSync s a1 a2) := by
  intros; unfold State.fastSync; try dsimp only
  repeat' with_reducible
   (first
    | intro x | assumption | apply keeps_setSensor | apply keeps_setBitAt | apply keeps_ite)

theorem keeps_compare {r : State} : ∀ s a1 a2 a3 a4 a5 a6, Keeps true r s → Keeps true r (State.compare s a1 a2 a3
    a4 a5 a6) := by
  intros; unfold State.compare; try dsimp only
  repeat' with_reducible
   (first
    | intro x | assumption | apply keeps_setSensor | apply keeps_rise | apply keeps_trip | apply keeps_stopBegin
    | apply keeps_stopCheck | apply keeps_ite)

theorem keeps_invalidSample {w : Bool} {r : State} : ∀ s a1, Keeps w r s → Keeps w r (State.invalidSample s a1) :=
    by
  intros; unfold State.invalidSample; try dsimp only
  repeat' with_reducible
   (first
    | intro x | assumption | apply keeps_setSensor | apply keeps_put | apply keeps_setBitAt | apply keeps_rise
    | apply keeps_hotSync | apply keeps_ite)

theorem keeps_validSample {r : State} : ∀ s a1 a2, Keeps true r s → Keeps true r (State.validSample s a1 a2) := by
  intros; unfold State.validSample; try dsimp only
  repeat' with_reducible
   (first
    | intro x | assumption | apply keeps_setSensor | apply keeps_set | apply keeps_put | apply keeps_fastSync
    | apply keeps_setBitAt | apply keeps_compare | apply keeps_hotSync | apply keeps_ite)

theorem keeps_thmSample {r : State} : ∀ s a1 a2 a3, Keeps true r s → Keeps true r (State.thmSample s a1 a2 a3) := by
  intros; unfold State.thmSample; try dsimp only
  repeat' with_reducible
   (first
    | intro x | assumption | apply keeps_set | apply keeps_setSensor | apply keeps_compare
    | apply keeps_invalidSample | apply keeps_validSample | apply keeps_ite)

theorem keeps_limitsWrite {w : Bool} {r : State} : ∀ s a1 a2, Keeps w r s → Keeps w r (State.limitsWrite s a1 a2) :=
    by
  intros; unfold State.limitsWrite; try dsimp only
  repeat' with_reducible
   (first
    | intro x | assumption | apply keeps_writeReg)

theorem keeps_flashAbandon {w : Bool} {r : State} : ∀ s, Keeps w r s → Keeps w r (State.flashAbandon s) := by
  intros; unfold State.flashAbandon; try dsimp only
  repeat' with_reducible
   (first
    | intro x | assumption | apply keeps_flashBlur | split | refine keeps_mk ?_ rfl rfl)

theorem keeps_pwrFail {r : State} : ∀ s, Keeps true r s → Keeps true r (State.pwrFail s) := by
  intros; unfold State.pwrFail; try dsimp only
  repeat' with_reducible
   (first
    | intro x | assumption | apply keeps_put | apply keeps_killAssert | apply keeps_flashAbandon
    | apply keeps_parkGroup | apply keeps_settleTickets | apply keeps_enterHeel | apply keeps_rise
    | apply keeps_foldl)

theorem keeps_pwrFlush {w : Bool} {r : State} : ∀ s, Keeps w r s → Keeps w r (State.pwrFlush s) := by
  intros; unfold State.pwrFlush; try dsimp only
  repeat' with_reducible
   (first
    | intro x | assumption | apply keeps_slot | apply keeps_release | apply keeps_evFlush | apply keeps_ite
    | apply keeps_foldl)

theorem keeps_calSync {w : Bool} {r : State} : ∀ s, Keeps w r s → Keeps w r (State.calSync s) := by
  intros; unfold State.calSync; try dsimp only
  repeat' with_reducible
   (first
    | intro x | assumption | apply keeps_put)

theorem keeps_calPut {w : Bool} {r : State} : ∀ s a1 a2, Keeps w r s → Keeps w r (State.calPut s a1 a2) := by
  intros; unfold State.calPut; try dsimp only
  repeat' with_reducible
   (first
    | intro x | assumption | refine keeps_mk ?_ rfl rfl)

theorem keeps_calRead {w : Bool} {r : State} : ∀ s a1 f, (∀ t, Keeps w r t → Keeps w r (f t)) → Keeps w r s → Keeps
    w r (State.calRead s a1 f) := by
  intros; unfold State.calRead; try dsimp only
  repeat' with_reducible
   (first
    | intro x | assumption | apply keeps_rise | apply keeps_put | split | apply_assumption)

theorem keeps_calTargets {w : Bool} {r : State} : ∀ s a1 a2, Keeps w r s → Keeps w r (State.calTargets s a1 a2) :=
    by
  intros; unfold State.calTargets; try dsimp only
  repeat' with_reducible
   (first
    | intro x | assumption | apply keeps_calRead | apply keeps_calPut | apply keeps_foldl)

theorem keeps_calTake {w : Bool} {r : State} : ∀ s a1, Keeps w r s → Keeps w r (State.calTake s a1) := by
  intros; unfold State.calTake; try dsimp only
  repeat' with_reducible
   (first
    | intro x | assumption | apply keeps_ite | apply keeps_foldl | refine keeps_mk ?_ rfl rfl)

theorem keeps_targetUpdate {w : Bool} {r : State} : ∀ s a1, Keeps w r s → Keeps w r (State.targetUpdate s a1) := by
  intros; unfold State.targetUpdate; try dsimp only
  repeat' with_reducible
   (first
    | intro x | assumption | apply keeps_setBitAt | apply keeps_rise | apply keeps_calTargets
    | apply keeps_calTake | apply keeps_calSync | apply keeps_ite)

theorem keeps_slewPeriod {w : Bool} {r : State} : ∀ s, Keeps w r s → Keeps w r (State.slewPeriod s) := by
  intros; unfold State.slewPeriod; try dsimp only
  repeat' with_reducible
   (first
    | intro x | assumption | apply keeps_upTo | apply keeps_calSync | apply keeps_ite | apply keeps_foldl
    | refine keeps_mk ?_ rfl rfl)

theorem keeps_calShadowPut {w : Bool} {r : State} : ∀ s a1 a2, Keeps w r s → Keeps w r (State.calShadowPut s a1 a2)
    := by
  intros; unfold State.calShadowPut; try dsimp only
  repeat' with_reducible
   (first
    | intro x | assumption | apply keeps_ite | refine keeps_mk ?_ rfl rfl)

theorem keeps_calCommit {w : Bool} {r : State} : ∀ s, Keeps w r s → Keeps w r (State.calCommit s) := by
  intros; unfold State.calCommit; try dsimp only
  repeat' with_reducible
   (first
    | intro x | assumption | apply keeps_put | apply keeps_set | apply keeps_copyStart | split
    | refine keeps_mk ?_ rfl rfl)

theorem keeps_calFactory {w : Bool} {r : State} : ∀ s, Keeps w r s → Keeps w r (State.calFactory s) := by
  intros; unfold State.calFactory; try dsimp only
  repeat' with_reducible
   (first
    | intro x | assumption | apply keeps_upsetClear | apply keeps_put | refine keeps_mk ?_ rfl rfl)

theorem keeps_calInc {w : Bool} {r : State} : ∀ s, Keeps w r s → Keeps w r (State.calInc s) := by
  intros; unfold State.calInc; try dsimp only
  repeat' with_reducible
   (first
    | intro x | assumption | apply keeps_set | apply keeps_ite)

theorem keeps_calWinWrite {w : Bool} {r : State} : ∀ s a1, Keeps w r s → Keeps w r (State.calWinWrite s a1) := by
  intros; unfold State.calWinWrite; try dsimp only
  repeat' with_reducible
   (first
    | intro x | assumption | apply keeps_refuse | apply keeps_calShadowPut | apply keeps_calInc | apply keeps_ite)

theorem keeps_calWinRead {w : Bool} {r : State} : ∀ s, Keeps w r s → Keeps w r (State.calWinRead s).1 := by
  intros; unfold State.calWinRead; try dsimp only
  repeat' with_reducible
   (first
    | intro x | assumption | apply keeps_calInc | apply keeps_rise | apply keeps_fresh | apply keeps_put
    | apply keeps_ite | apply keeps_ite_fst | split)

theorem keeps_calIgnored {w : Bool} {r : State} : ∀ s, Keeps w r s → Keeps w r (State.calIgnored s) := by
  intros; unfold State.calIgnored; try dsimp only
  repeat' with_reducible
   (first
    | intro x | assumption | apply keeps_put | apply keeps_rise)

theorem keeps_calSave {w : Bool} {r : State} : ∀ s, Keeps w r s → Keeps w r (State.calSave s) := by
  intros; unfold State.calSave; try dsimp only
  repeat' with_reducible
   (first
    | intro x | assumption | apply keeps_calIgnored | apply keeps_flashErase | apply keeps_flashPut
    | apply keeps_put | apply keeps_ite | apply keeps_foldl | apply keeps_foldl_fst | split
    | refine keeps_mk ?_ rfl rfl)

theorem keeps_calSaveDone {w : Bool} {r : State} : ∀ s a1, Keeps w r s → Keeps w r (State.calSaveDone s a1) := by
  intros; unfold State.calSaveDone; try dsimp only
  repeat' with_reducible
   (first
    | intro x | assumption | apply keeps_flashPut | apply keeps_flashBlur | apply keeps_calIgnored
    | apply keeps_put | apply keeps_ite | split | refine keeps_mk ?_ rfl rfl)

theorem keeps_calLoad {w : Bool} {r : State} : ∀ s, Keeps w r s → Keeps w r (State.calLoad s) := by
  intros; unfold State.calLoad; try dsimp only
  repeat' with_reducible
   (first
    | intro x | assumption | apply keeps_calIgnored | apply keeps_put | apply keeps_rise | apply keeps_upsetClear
    | apply keeps_set | apply keeps_ite | apply keeps_foldl | split | refine keeps_mk ?_ rfl rfl)

theorem keeps_calFlashCtl {w : Bool} {r : State} : ∀ s a1, Keeps w r s → Keeps w r (State.calFlashCtl s a1) := by
  intros; unfold State.calFlashCtl; try dsimp only
  repeat' with_reducible
   (first
    | intro x | assumption | apply keeps_calSave | apply keeps_calLoad | apply keeps_ite)

theorem keeps_calLin {w : Bool} {r : State} : ∀ s a1, Keeps w r s → Keeps w r (State.calLin s a1) := by
  intros; unfold State.calLin; try dsimp only
  repeat' with_reducible
   (first
    | intro x | assumption | apply keeps_writeReg | apply keeps_wr | apply keeps_ite | apply keeps_foldl)

theorem keeps_calRoute {w : Bool} {r : State} : ∀ s a1, Keeps w r s → Keeps w r (State.calRoute s a1) := by
  intros; unfold State.calRoute; try dsimp only
  repeat' with_reducible
   (first
    | intro x | assumption | apply keeps_writeReg)

theorem keeps_ethBack {w : Bool} {r : State} : ∀ s a1 a2 a3, Keeps w r s → Keeps w r (State.ethBack s a1 a2 a3) :=
    by
  intros; unfold State.ethBack; try dsimp only
  repeat' with_reducible
   (first
    | intro x | assumption | apply keeps_emit | apply keeps_set | apply keeps_msi)

theorem keeps_ethRx {w : Bool} {r : State} : ∀ s a1 a2 a3 a4, Keeps w r s → Keeps w r (State.ethRx s a1 a2 a3 a4) :=
    by
  intros; unfold State.ethRx; try dsimp only
  repeat' with_reducible
   (first
    | intro x | assumption | apply keeps_put | apply keeps_rise | apply keeps_bump | apply keeps_emit
    | apply keeps_ethBack | apply keeps_ite)

theorem keeps_ethErr {w : Bool} {r : State} : ∀ s a1 a2 a3, Keeps w r s → Keeps w r (State.ethErr s a1 a2 a3) := by
  intros; unfold State.ethErr; try dsimp only
  repeat' with_reducible
   (first
    | intro x | assumption | apply keeps_ethBack)

theorem keeps_ethTx {w : Bool} {r : State} : ∀ s a1 a2 a3 a4, Keeps w r s → Keeps w r (State.ethTx s a1 a2 a3 a4) :=
    by
  intros; unfold State.ethTx; try dsimp only
  repeat' with_reducible
   (first
    | intro x | assumption | apply keeps_ethErr | apply keeps_emit | apply keeps_ethBack | apply keeps_ite)

theorem keeps_cplTmo {w : Bool} {r : State} : ∀ s a1 a2 a3, Keeps w r s → Keeps w r (State.cplTmo s a1 a2 a3) := by
  intros; unfold State.cplTmo; try dsimp only
  repeat' with_reducible
   (first
    | intro x | assumption | apply keeps_put | apply keeps_rise | apply keeps_ethErr | apply keeps_ite)

theorem keeps_bar2Read {w : Bool} {r : State} : ∀ s a1 a2, Keeps w r s → Keeps w r (State.bar2Read s a1 a2) := by
  intros; unfold State.bar2Read; try dsimp only
  repeat' with_reducible
   (first
    | intro x | assumption | apply keeps_emit | apply keeps_hbmTouch | apply keeps_ite | apply keeps_foldl)

theorem keeps_bar2Access {r : State} : ∀ s a1 a2 a3, Keeps true r s → Keeps true r (State.bar2Access s a1 a2 a3) :=
    by
  intros; unfold State.bar2Access; try dsimp only
  repeat' with_reducible
   (first
    | intro x | assumption | apply keeps_alias_ | apply keeps_rmwRead | apply keeps_hbmPutByte
    | apply keeps_hbmSetPoison | apply keeps_ite | apply keeps_foldl)

theorem keeps_bar2Write {r : State} : ∀ s a1 a2 a3, Keeps true r s → Keeps true r (State.bar2Write s a1 a2 a3) := by
  intros; unfold State.bar2Write; try dsimp only
  repeat' with_reducible
   (first
    | intro x | assumption | apply keeps_poisonRx | apply keeps_bar2Access | apply keeps_ite | apply keeps_foldl)

theorem keeps_aptWrite {w : Bool} {r : State} : ∀ s a1, Keeps w r s → Keeps w r (State.aptWrite s a1) := by
  intros; unfold State.aptWrite; try dsimp only
  repeat' with_reducible
   (first
    | intro x | assumption | apply keeps_writeReg)

theorem keeps_cfgRequest {w : Bool} {r : State} : ∀ s a1 a2, Keeps w r s → Keeps w r (State.cfgRequest s a1 a2) :=
    by
  intros; unfold State.cfgRequest; try dsimp only
  repeat' with_reducible
   (first
    | intro x | assumption | apply keeps_emit | apply keeps_ite | split | refine keeps_mk ?_ rfl rfl)

theorem keeps_pciUp {w : Bool} {r : State} : ∀ s a1 a2, Keeps w r s → Keeps w r (State.pciUp s a1 a2) := by
  intros; unfold State.pciUp; try dsimp only
  repeat' with_reducible
   (first
    | intro x | assumption | apply keeps_set | apply keeps_msiFlush | apply keeps_ite | split
    | refine keeps_mk ?_ rfl rfl)

theorem keeps_pciDown {w : Bool} {r : State} : ∀ s, Keeps w r s → Keeps w r (State.pciDown s) := by
  intros; unfold State.pciDown; try dsimp only
  repeat' with_reducible
   (first
    | intro x | assumption | apply keeps_set | apply keeps_rise | refine keeps_mk ?_ rfl rfl)

theorem keeps_d3Entry {w : Bool} {r : State} : ∀ s, Keeps w r s → Keeps w r (State.d3Entry s) := by
  intros; unfold State.d3Entry; try dsimp only
  repeat' with_reducible
   (first
    | intro x | assumption | apply keeps_set | refine keeps_mk ?_ rfl rfl)

theorem keeps_d0Return {w : Bool} {r : State} : ∀ s, Keeps w r s → Keeps w r (State.d0Return s) := by
  intros; unfold State.d0Return; try dsimp only
  repeat' with_reducible
   (first
    | intro x | assumption | apply keeps_set | apply keeps_msiFlush | apply keeps_ite | refine keeps_mk ?_ rfl rfl)

theorem keeps_setWlt {w : Bool} {r : State} : ∀ s a1 a2, Keeps w r s → Keeps w r (State.setWlt s a1 a2) := by
  intros; unfold State.setWlt; try dsimp only
  repeat' with_reducible
   (first
    | intro x | assumption | refine keeps_mk ?_ rfl rfl)

theorem keeps_setWltState {w : Bool} {r : State} : ∀ s a1 a2, Keeps w r s → Keeps w r (State.setWltState s a1 a2) :=
    by
  intros; unfold State.setWltState; try dsimp only
  repeat' with_reducible
   (first
    | intro x | assumption | apply keeps_set | apply keeps_msi | apply keeps_ite)

theorem keeps_wltSend {w : Bool} {r : State} : ∀ s a1 a2 a3 a4, Keeps w r s → Keeps w r (State.wltSend s a1 a2 a3
    a4) := by
  intros; unfold State.wltSend; try dsimp only
  repeat' with_reducible
   (first
    | intro x | assumption | apply keeps_setWlt | apply keeps_emit)

theorem keeps_wltAck {w : Bool} {r : State} : ∀ s a1 a2, Keeps w r s → Keeps w r (State.wltAck s a1 a2) := by
  intros; unfold State.wltAck; try dsimp only
  repeat' with_reducible
   (first
    | intro x | assumption | apply keeps_setWlt | apply keeps_emit)

theorem keeps_wltBad {w : Bool} {r : State} : ∀ s a1, Keeps w r s → Keeps w r (State.wltBad s a1) := by
  intros; unfold State.wltBad; try dsimp only
  repeat' with_reducible
   (first
    | intro x | assumption | apply keeps_bump | apply keeps_wltAck | apply keeps_ite)

theorem keeps_wltRx {w : Bool} {r : State} : ∀ s a1 a2 f, (∀ t, Keeps w r t → Keeps w r (f t)) → Keeps w r s →
    Keeps w r (State.wltRx s a1 a2 f) := by
  intro s n q f hf h; unfold State.wltRx
  extract_lets d
  refine keeps_ite h (keeps_ite (keeps_wltBad _ _ h) ?_)
  exact keeps_ite (keeps_wltAck _ _ _ (hf _ (keeps_setWlt _ _ _ h))) (hf _ (keeps_setWlt _ _ _ h))

theorem keeps_wltReplay {w : Bool} {r : State} : ∀ s a1, Keeps w r s → Keeps w r (State.wltReplay s a1) := by
  intros; unfold State.wltReplay; try dsimp only
  repeat' with_reducible
   (first
    | intro x | assumption | apply keeps_setWlt | apply keeps_setWltState | apply keeps_bump | apply keeps_emit
    | apply keeps_ite | apply keeps_foldl)

theorem keeps_capsPump {w : Bool} {r : State} : ∀ s a1 a2, Keeps w r s → Keeps w r (State.capsPump s a1 a2) := by
  intro s n k; induction k generalizing s with
  | zero => exact id
  | succ k ih =>
    intro h; unfold State.capsPump; dsimp only
    split
    · exact h
    · exact keeps_ite h (ih _ (keeps_wltSend _ _ _ _ _ (keeps_setWlt _ _ _
        (keeps_foldl (fun _ _ => keeps_hbmTouch _ _) h))))

theorem keeps_capsDone {w : Bool} {r : State} : ∀ s a1, Keeps w r s → Keeps w r (State.capsDone s a1) := by
  intros; unfold State.capsDone; try dsimp only
  repeat' with_reducible
   (first
    | intro x | assumption | apply keeps_setWlt | apply keeps_put | apply keeps_ite | split)

theorem keeps_wltWake {w : Bool} {r : State} : ∀ s a1, Keeps w r s → Keeps w r (State.wltWake s a1) := by
  intros; unfold State.wltWake; try dsimp only
  repeat' with_reducible
   (first
    | intro x | assumption | apply keeps_setWltState | apply keeps_ite)

theorem keeps_capsCtl {w : Bool} {r : State} : ∀ s a1 a2, Keeps w r s → Keeps w r (State.capsCtl s a1 a2) := by
  intros; unfold State.capsCtl; try dsimp only
  repeat' with_reducible
   (first
    | intro x | assumption | apply keeps_writeReg | apply keeps_setWlt | apply keeps_put | apply keeps_wltWake
    | apply keeps_capsPump | apply keeps_ite)

theorem keeps_capsRx {r : State} : ∀ s a1 a2 a3 a4, Keeps true r s → Keeps true r (State.capsRx s a1 a2 a3 a4) := by
  intros; unfold State.capsRx; try dsimp only
  repeat' with_reducible
   (first
    | intro x | assumption | apply keeps_put | apply keeps_rise | apply keeps_hbmPutAccess | apply keeps_ite
    | apply keeps_foldl)

theorem keeps_wltAcked {w : Bool} {r : State} : ∀ s a1 a2, Keeps w r s → Keeps w r (State.wltAcked s a1 a2) := by
  intros; unfold State.wltAcked; try dsimp only
  repeat' with_reducible
   (first
    | intro x | assumption | apply keeps_setWlt | apply keeps_capsPump | apply keeps_capsDone | split)

theorem keeps_weltSend {w : Bool} {r : State} : ∀ s, Keeps w r s → Keeps w r (State.weltSend s) := by
  intros; unfold State.weltSend; try dsimp only
  repeat' with_reducible
   (first
    | intro x | assumption | apply keeps_upToMono | apply keeps_wltSend | apply keeps_setWlt | apply keeps_wltWake
    | apply keeps_ite | apply keeps_foldl | split | refine keeps_mk ?_ rfl rfl)

theorem keeps_weltMsg {w : Bool} {r : State} : ∀ s a1, Keeps w r s → Keeps w r (State.weltMsg s a1) := by
  intros; unfold State.weltMsg; try dsimp only
  repeat' with_reducible
   (first
    | intro x | assumption | apply keeps_keep | apply keeps_weltPut | apply keeps_laceFrame | apply keeps_trgCode
    | apply keeps_seqEvent | apply keeps_ite | split | refine keeps_mk ?_ rfl rfl)

theorem keeps_lastExpiry {w : Bool} {r : State} : ∀ s a1, Keeps w r s → Keeps w r (State.lastExpiry s a1) := by
  intros; unfold State.lastExpiry; try dsimp only
  repeat' with_reducible
   (first
    | intro x | assumption | apply keeps_upToMono | split | refine keeps_mk ?_ rfl rfl)

theorem keeps_msgCtl {w : Bool} {r : State} : ∀ s a1, Keeps w r s → Keeps w r (State.msgCtl s a1) := by
  intros; unfold State.msgCtl; try dsimp only
  repeat' with_reducible
   (first
    | intro x | assumption | apply keeps_writeReg | apply keeps_weltOwn | apply keeps_ite)

theorem keeps_trainDone {w : Bool} {r : State} : ∀ s a1 a2 a3, Keeps w r s → Keeps w r (State.trainDone s a1 a2 a3)
    := by
  intros; unfold State.trainDone; try dsimp only
  repeat' with_reducible
   (first
    | intro x | assumption | apply keeps_setWltState | apply keeps_set | apply keeps_rise | apply keeps_setWlt
    | apply keeps_emit | apply keeps_capsPump | apply keeps_ite | apply keeps_foldl)

theorem keeps_wltDrop {w : Bool} {r : State} : ∀ s a1, Keeps w r s → Keeps w r (State.wltDrop s a1) := by
  intros; unfold State.wltDrop; try dsimp only
  repeat' with_reducible
   (first
    | intro x | assumption | apply keeps_setWlt | apply keeps_put | apply keeps_rise | apply keeps_ite)

theorem keeps_wltDown {w : Bool} {r : State} : ∀ s a1, Keeps w r s → Keeps w r (State.wltDown s a1) := by
  intros; unfold State.wltDown; try dsimp only
  repeat' with_reducible
   (first
    | intro x | assumption | apply keeps_setWltState | apply keeps_set | apply keeps_put | apply keeps_wltDrop
    | apply keeps_rise)

theorem keeps_scanAbort {w : Bool} {r : State} : ∀ s a1, Keeps w r s → Keeps w r (State.scanAbort s a1) := by
  intros; unfold State.scanAbort; try dsimp only
  repeat' with_reducible
   (first
    | intro x | assumption | apply keeps_setWlt | apply keeps_put)

theorem keeps_laneFail {w : Bool} {r : State} : ∀ s a1 a2, Keeps w r s → Keeps w r (State.laneFail s a1 a2) := by
  intros; unfold State.laneFail; try dsimp only
  repeat' with_reducible
   (first
    | intro x | assumption | apply keeps_set | apply keeps_rise | apply keeps_scanAbort | apply keeps_wltDown
    | apply keeps_setWltState | apply keeps_emit | apply keeps_bump | apply keeps_ite | apply keeps_foldl)

theorem keeps_wltCtl {w : Bool} {r : State} : ∀ s a1 a2, Keeps w r s → Keeps w r (State.wltCtl s a1 a2) := by
  intros; unfold State.wltCtl; try dsimp only
  repeat' with_reducible
   (first
    | intro x | assumption | apply keeps_writeReg | apply keeps_set | apply keeps_put | apply keeps_setWltState
    | apply keeps_wltWake | apply keeps_ite)

theorem keeps_wltEnable {w : Bool} {r : State} : ∀ s a1 a2, Keeps w r s → Keeps w r (State.wltEnable s a1 a2) := by
  intros; unfold State.wltEnable; try dsimp only
  repeat' with_reducible
   (first
    | intro x | assumption | apply keeps_setWltState | apply keeps_set | apply keeps_wltDrop | apply keeps_ite)

theorem keeps_sleepEntry {w : Bool} {r : State} : ∀ s a1 a2, Keeps w r s → Keeps w r (State.sleepEntry s a1 a2) :=
    by
  intros; unfold State.sleepEntry; try dsimp only
  repeat' with_reducible
   (first
    | intro x | assumption | apply keeps_put | apply keeps_setWltState | apply keeps_ite)

theorem keeps_wakeDone {w : Bool} {r : State} : ∀ s a1 a2, Keeps w r s → Keeps w r (State.wakeDone s a1 a2) := by
  intros; unfold State.wakeDone; try dsimp only
  repeat' with_reducible
   (first
    | intro x | assumption | apply keeps_put | apply keeps_setWltState | apply keeps_setWlt | apply keeps_wltSend
    | apply keeps_capsPump | apply keeps_ite | apply keeps_foldl)

theorem keeps_scanCtl {w : Bool} {r : State} : ∀ s a1 a2, Keeps w r s → Keeps w r (State.scanCtl s a1 a2) := by
  intros; unfold State.scanCtl; try dsimp only
  repeat' with_reducible
   (first
    | intro x | assumption | apply keeps_writeReg | apply keeps_setWlt | apply keeps_put | apply keeps_ite)

theorem keeps_scanDone {w : Bool} {r : State} : ∀ s a1 a2, Keeps w r s → Keeps w r (State.scanDone s a1 a2) := by
  intros; unfold State.scanDone; try dsimp only
  repeat' with_reducible
   (first
    | intro x | assumption | apply keeps_setWlt | apply keeps_put | apply keeps_set | split)

theorem keeps_wftErrSync {w : Bool} {r : State} : ∀ s a1, Keeps w r s → Keeps w r (State.wftErrSync s a1) := by
  intros; unfold State.wftErrSync; try dsimp only
  repeat' with_reducible
   (first
    | intro x | assumption | apply keeps_set | apply keeps_wr | split)

theorem keeps_wftWrite {w : Bool} {r : State} : ∀ s a1 a2, Keeps w r s → Keeps w r (State.wftWrite s a1 a2) := by
  intros; unfold State.wftWrite; try dsimp only
  repeat' with_reducible
   (first
    | intro x | assumption | apply keeps_refuse | apply keeps_put | apply keeps_wftErrSync | apply keeps_autoInc
    | apply keeps_ite | split | refine keeps_mk ?_ rfl rfl)

theorem keeps_wftRead {w : Bool} {r : State} : ∀ s a1, Keeps w r s → Keeps w r (State.wftRead s a1).1 := by
  intros; unfold State.wftRead; try dsimp only
  repeat' with_reducible
   (first
    | intro x | assumption | apply keeps_autoInc)

theorem keeps_dwellStart {w : Bool} {r : State} : ∀ s a1, Keeps w r s → Keeps w r (State.dwellStart s a1) := by
  intros; unfold State.dwellStart; try dsimp only
  repeat' with_reducible
   (first
    | intro x | assumption | apply keeps_setSpr | apply keeps_set | apply keeps_upToMono | apply keeps_inForce
    | apply keeps_setDds | apply keeps_set64 | apply keeps_ite | split)

theorem keeps_playAhead {r : State} : ∀ s a1 a2 a3, Keeps true r s → Keeps true r (State.playAhead s a1 a2 a3) := by
  intro s e t n; induction n generalizing s with
  | zero => exact id
  | succ n ih =>
    intro h; unfold State.playAhead
    split
    · exact keeps_ite (ih _ (keeps_groupVector _ _ h)) h
    · exact h

theorem keeps_checkStitch {w : Bool} {r : State} : ∀ s a1, Keeps w r s → Keeps w r (State.checkStitch s a1) := by
  intros; unfold State.checkStitch; try dsimp only
  repeat' with_reducible
   (first
    | intro x | assumption | apply keeps_upToQ | apply keeps_setSpr | apply keeps_ite)

theorem keeps_cleanTo {w : Bool} {r : State} : ∀ s a1 a2, Keeps w r s → Keeps w r (State.cleanTo s a1 a2) := by
  intros; unfold State.cleanTo; try dsimp only
  repeat' with_reducible
   (first
    | intro x | assumption | apply keeps_setChan)

theorem keeps_spareBad {w : Bool} {r : State} : ∀ s a1 a2, Keeps w r s → Keeps w r (State.spareBad s a1 a2) := by
  intros; unfold State.spareBad; try dsimp only
  repeat' with_reducible
   (first
    | intro x | assumption | apply keeps_setSpr | apply keeps_set | apply keeps_put | apply keeps_rise
    | apply keeps_ite)

theorem keeps_mismatch {w : Bool} {r : State} : ∀ s a1 a2 a3 a4 a5 a6, Keeps w r s → Keeps w r (State.mismatch s a1
    a2 a3 a4 a5 a6) := by
  intros; unfold State.mismatch; try dsimp only
  repeat' with_reducible
   (first
    | intro x | assumption | apply keeps_cleanTo | apply keeps_set | apply keeps_setSpr | apply keeps_spareBad
    | apply keeps_rise | apply keeps_ite)

theorem keeps_takeover {w : Bool} {r : State} : ∀ s a1, Keeps w r s → Keeps w r (State.takeover s a1) := by
  intros; unfold State.takeover; try dsimp only
  repeat' with_reducible
   (first
    | intro x | assumption | apply keeps_upToQ | apply keeps_takeOver | apply keeps_ite | split)

theorem keeps_vampLoad {w : Bool} {r : State} : ∀ s a1 a2, Keeps w r s → Keeps w r (State.vampLoad s a1 a2) := by
  intros; unfold State.vampLoad; try dsimp only
  repeat' with_reducible
   (first
    | intro x | assumption | apply keeps_writeReg | apply keeps_setEye | apply keeps_put | apply keeps_ite)

end Sys2Proof.Machine
end

