-- ==== Sys2Proof/Laws/Keeps6.lean ====
section
/-!
SUPPORT. What each operation keeps (Laws/Keeps.lean), 6 of 6; operations come after those that they use.
-/
namespace Sys2Proof.Machine

open Sys2Proof

theorem keeps_loadLine {w : Bool} {r : State} : ∀ s a1 a2 a3, Keeps w r s → Keeps w r (State.loadLine s a1 a2 a3) :=
    by
  intros; unfold State.loadLine; try dsimp only
  repeat' with_reducible
   (first
    | intro x | assumption | apply keeps_ite | apply keeps_foldl | refine keeps_mk ?_ rfl rfl)

theorem keeps_loadDone {w : Bool} {r : State} : ∀ s a1, Keeps w r s → Keeps w r (State.loadDone s a1) := by
  intros; unfold State.loadDone; try dsimp only
  repeat' with_reducible
   (first
    | intro x | assumption | apply keeps_loadLine | apply keeps_setEye | apply keeps_put | apply keeps_foldl
    | split)

theorem keeps_wdataWrite {w : Bool} {r : State} : ∀ s a1 a2, Keeps w r s → Keeps w r (State.wdataWrite s a1 a2) :=
    by
  intros; unfold State.wdataWrite; try dsimp only
  repeat' with_reducible
   (first
    | intro x | assumption | apply keeps_refuse | apply keeps_autoInc | apply keeps_ite | split
    | refine keeps_mk ?_ rfl rfl)

theorem keeps_wdataRead {w : Bool} {r : State} : ∀ s a1, Keeps w r s → Keeps w r (State.wdataRead s a1).1 := by
  intros; unfold State.wdataRead; try dsimp only
  repeat' with_reducible
   (first
    | intro x | assumption | apply keeps_bump | apply keeps_rise | apply keeps_autoInc | apply keeps_ite)

theorem keeps_granComplete {w : Bool} {r : State} : ∀ s a1 a2, Keeps w r s → Keeps w r (State.granComplete s a1 a2)
    := by
  intros; unfold State.granComplete; try dsimp only
  repeat' with_reducible
   (first
    | intro x | assumption | apply keeps_hbmTouch | apply keeps_setEye | apply keeps_aheadSync | apply keeps_ite
    | apply keeps_foldl | split)

theorem keeps_presence {w : Bool} {r : State} : ∀ s a1, Keeps w r s → Keeps w r (State.presence s a1) := by
  intros; unfold State.presence; try dsimp only
  repeat' with_reducible
   (first
    | intro x | assumption | apply keeps_upToQ | apply keeps_checkNext | apply keeps_ite | split)

theorem keeps_seqCtl {w : Bool} {r : State} : ∀ s a1 a2, Keeps w r s → Keeps w r (State.seqCtl s a1 a2) := by
  intros; unfold State.seqCtl; try dsimp only
  repeat' with_reducible
   (first
    | intro x | assumption | apply keeps_writeReg | apply keeps_abortSeq | apply keeps_stopSeq | apply keeps_goSeq
    | apply keeps_ite)

theorem keeps_seqFlag {w : Bool} {r : State} : ∀ s a1 a2, Keeps w r s → Keeps w r (State.seqFlag s a1 a2) := by
  intros; unfold State.seqFlag; try dsimp only
  repeat' with_reducible
   (first
    | intro x | assumption | apply keeps_setGroup | split)

theorem keeps_syncWrite {w : Bool} {r : State} : ∀ s a1 a2, Keeps w r s → Keeps w r (State.syncWrite s a1 a2) := by
  intros; unfold State.syncWrite; try dsimp only
  repeat' with_reducible
   (first
    | intro x | assumption | apply keeps_writeAt | apply keeps_idleForce | apply keeps_syncArm | apply keeps_ite)

theorem keeps_condArgWrite {w : Bool} {r : State} : ∀ s a1 a2 a3, Keeps w r s → Keeps w r (State.condArgWrite s a1
    a2 a3) := by
  intros; unfold State.condArgWrite; try dsimp only
  repeat' with_reducible
   (first
    | intro x | assumption | apply keeps_writeAt | apply keeps_idleForce | apply keeps_setEye | apply keeps_ite
    | apply keeps_ite_fst | split)

theorem keeps_deviceReset {r : State} : ∀ s a1, Keeps true r s → Keeps true r (State.deviceReset s a1) := by
  intro s c h; unfold State.deviceReset; dsimp only
  refine keeps_set _ _ _ _ (keeps_wr _ _ _ _ ?_)
  with_reducible refine keeps_mk_new ?_ rfl rfl
  exact keeps_flashAbandon _ h

theorem keeps_powerOn {r : State} : ∀ s a1, Keeps true r s → Keeps true r (State.powerOn s a1) := by
  intros; unfold State.powerOn; try dsimp only
  repeat' with_reducible
   (first
    | intro x | assumption | apply keeps_deviceReset | refine keeps_mk ?_ rfl rfl)

theorem keeps_pinReset {r : State} : ∀ s, Keeps true r s → Keeps true r (State.pinReset s) := by
  intros; unfold State.pinReset; try dsimp only
  repeat' with_reducible
   (first
    | intro x | assumption | apply keeps_deviceReset | refine keeps_mk ?_ rfl rfl)

theorem keeps_pinRelease {w : Bool} {r : State} : ∀ s, Keeps w r s → Keeps w r (State.pinRelease s) := by
  intros; unfold State.pinRelease; try dsimp only
  repeat' with_reducible
   (first
    | intro x | assumption | apply keeps_put | apply keeps_ite | refine keeps_mk ?_ rfl rfl)

theorem keeps_chipReset {r : State} : ∀ s a1 a2, Keeps true r s → Keeps true r (State.chipReset s a1 a2) := by
  intro s keep bit h; unfold State.chipReset; dsimp only
  refine keeps_ite h (keeps_wr _ _ _ _ ?_)
  have hd := keeps_deviceReset s (if bit < 6 then setBit s.rstCause bit else s.rstCause) h
  generalize s.deviceReset (if bit < 6 then setBit s.rstCause bit else s.rstCause) = d at hd ⊢
  cases keep
  · exact keeps_mk_wf hd (fun _ => rfl) rfl
  · exact ⟨hd.1, hd.2.1, h.2.2.1, fun e => nomatch e⟩

theorem keeps_rstWrite {r : State} : ∀ s a1, Keeps true r s → Keeps true r (State.rstWrite s a1) := by
  intros; unfold State.rstWrite; try dsimp only
  repeat' with_reducible
   (first
    | intro x | assumption | apply keeps_writeReg | apply keeps_chipReset | apply keeps_ite)

theorem keeps_wdogReset {r : State} : ∀ s, Keeps true r s → Keeps true r (State.wdogReset s) := by
  intros; unfold State.wdogReset; try dsimp only
  repeat' with_reducible
   (first
    | intro x | assumption | apply keeps_chipReset)

theorem keeps_perst {w : Bool} {r : State} : ∀ s, Keeps w r s → Keeps w r (State.perst s) := by
  intros; unfold State.perst; try dsimp only
  repeat' with_reducible
   (first
    | intro x | assumption | apply keeps_put | apply keeps_ite | refine keeps_mk ?_ rfl rfl)

theorem keeps_perstRelease {w : Bool} {r : State} : ∀ s a1 a2, Keeps w r s → Keeps w r (State.perstRelease s a1 a2)
    := by
  intros; unfold State.perstRelease; try dsimp only
  repeat' with_reducible
   (first
    | intro x | assumption | apply keeps_pciUp | apply keeps_ite | refine keeps_mk ?_ rfl rfl)

theorem keeps_fwBad {w : Bool} {r : State} : ∀ s a1 a2, Keeps w r s → Keeps w r (State.fwBad s a1 a2) := by
  intros; unfold State.fwBad; try dsimp only
  repeat' with_reducible
   (first
    | intro x | assumption | apply keeps_put | apply keeps_set)

theorem keeps_fwLoad {w : Bool} {r : State} : ∀ s a1 a2 a3, Keeps w r s → Keeps w r (State.fwLoad s a1 a2 a3) := by
  intros; unfold State.fwLoad; try dsimp only
  repeat' with_reducible
   (first
    | intro x | assumption | apply keeps_set | apply keeps_put | apply keeps_ite | apply keeps_foldl)

theorem keeps_fwBoot {w : Bool} {r : State} : ∀ s a1, Keeps w r s → Keeps w r (State.fwBoot s a1) := by
  intros; unfold State.fwBoot; try dsimp only
  repeat' with_reducible
   (first
    | intro x | assumption | apply keeps_fwLoad | apply keeps_fwBad | apply keeps_rise | apply keeps_put
    | apply keeps_ite)

theorem keeps_integrate {w : Bool} {r : State} : ∀ s, Keeps w r s → Keeps w r (State.integrate s) := by
  intros; unfold State.integrate; try dsimp only
  repeat' with_reducible
   (first
    | intro x | assumption | apply keeps_set | apply keeps_put | apply keeps_rise | apply keeps_ite
    | refine keeps_mk ?_ rfl rfl)

theorem keeps_setStage {w : Bool} {r : State} : ∀ s a1, Keeps w r s → Keeps w r (State.setStage s a1) := by
  intros; unfold State.setStage; try dsimp only
  repeat' with_reducible
   (first
    | intro x | assumption | apply keeps_set)

theorem keeps_stage1 {w : Bool} {r : State} : ∀ s a1, Keeps w r s → Keeps w r (State.stage1 s a1) := by
  intros; unfold State.stage1; try dsimp only
  repeat' with_reducible
   (first
    | intro x | assumption | apply keeps_fwBoot | apply keeps_integrate | apply keeps_setStage | apply keeps_rise
    | apply keeps_ite)

theorem keeps_bootMarch {w : Bool} {r : State} : ∀ s a1 a2 a3, Keeps w r s → Keeps w r (State.bootMarch s a1 a2 a3)
    := by
  intros; unfold State.bootMarch; try dsimp only
  repeat' with_reducible
   (first
    | intro x | assumption | apply keeps_setAne | apply keeps_setAneState | apply keeps_fresh
    | apply keeps_marchDone | apply keeps_ite | refine keeps_mk ?_ rfl rfl)

theorem keeps_bootAne {w : Bool} {r : State} : ∀ s a1 a2, Keeps w r s → Keeps w r (State.bootAne s a1 a2) := by
  intros; unfold State.bootAne; try dsimp only
  repeat' with_reducible
   (first
    | intro x | assumption | apply keeps_bootMarch | apply keeps_setBitAt | apply keeps_ite)

theorem keeps_stage2 {r : State} : ∀ s a1, Keeps true r s → Keeps true r (State.stage2 s a1) := by
  intros; unfold State.stage2; try dsimp only
  repeat' with_reducible
   (first
    | intro x | assumption | apply keeps_set | apply keeps_enterHeel | apply keeps_rise | apply keeps_coreFail
    | apply keeps_bootAne | apply keeps_put | apply keeps_aneRest | apply keeps_setStage | apply keeps_ite
    | apply keeps_foldl | split | refine keeps_mk ?_ rfl rfl)

theorem keeps_sliceFail {w : Bool} {r : State} : ∀ s a1, Keeps w r s → Keeps w r (State.sliceFail s a1) := by
  intros; unfold State.sliceFail; try dsimp only
  repeat' with_reducible
   (first
    | intro x | assumption | apply keeps_put | apply keeps_set | apply keeps_rise | apply keeps_ite)

theorem keeps_dispatchOff {w : Bool} {r : State} : ∀ s, Keeps w r s → Keeps w r (State.dispatchOff s) := by
  intros; unfold State.dispatchOff; try dsimp only
  repeat' with_reducible
   (first
    | intro x | assumption | apply keeps_put | apply keeps_set | apply keeps_ite | apply keeps_foldl)

theorem keeps_slotReset {w : Bool} {r : State} : ∀ s a1, Keeps w r s → Keeps w r (State.slotReset s a1) := by
  intros; unfold State.slotReset; try dsimp only
  repeat' with_reducible
   (first
    | intro x | assumption | refine keeps_mk ?_ rfl rfl)

theorem keeps_bringUp {r : State} : ∀ s a1, Keeps true r s → Keeps true r (State.bringUp s a1) := by
  intro s resume h; unfold State.bringUp; dsimp only
  refine keeps_foldl (fun t x ht => keeps_put _ _ _ _ (keeps_slotReset _ _ (keeps_set _ _ _ _ (keeps_put _ _ _ _
    ht)))) ?_
  cases resume
  · exact keeps_mk_wf (keeps_wr _ _ _ _ h) (fun _ => rfl) rfl
  · exact keeps_mk_wf (keeps_wr _ _ _ _ h) id rfl

theorem keeps_stage3 {r : State} : ∀ s a1, Keeps true r s → Keeps true r (State.stage3 s a1) := by
  intros; unfold State.stage3; try dsimp only
  repeat' with_reducible
   (first
    | intro x | assumption | apply keeps_stackFail | apply keeps_set | apply keeps_bringUp
    | apply keeps_fillRepair | apply keeps_calFactory | apply keeps_setStage | apply keeps_put
    | apply keeps_cleanStart | apply keeps_sliceFail | apply keeps_dispatchOff | apply keeps_ite
    | apply keeps_foldl)

theorem keeps_stage4 {w : Bool} {r : State} : ∀ s, Keeps w r s → Keeps w r (State.stage4 s) := by
  intros; unfold State.stage4; try dsimp only
  repeat' with_reducible
   (first
    | intro x | assumption | apply keeps_put | apply keeps_rise | apply keeps_calLoad | apply keeps_calCommit
    | apply keeps_setStage | apply keeps_ite | split)

theorem keeps_stageStep {r : State} : ∀ s a1, Keeps true r s → Keeps true r (State.stageStep s a1) := by
  intros; unfold State.stageStep; try dsimp only
  repeat' with_reducible
   (first
    | intro x | assumption | apply keeps_stage1 | apply keeps_stage2 | apply keeps_stage3 | apply keeps_stage4
    | apply keeps_ite)

theorem keeps_fall2 {r : State} : ∀ s, Keeps true r s → Keeps true r (State.fall2 s) := by
  intros; unfold State.fall2; try dsimp only
  repeat' with_reducible
   (first
    | intro x | assumption | apply keeps_set | apply keeps_trgKill | apply keeps_aneEnd | apply keeps_put
    | apply keeps_stacksHeld | apply keeps_setSpr | apply keeps_setStage | apply keeps_ite | apply keeps_foldl
    | split | refine keeps_mk ?_ rfl rfl)

theorem keeps_fallTo {r : State} : ∀ s a1, Keeps true r s → Keeps true r (State.fallTo s a1) := by
  intros; unfold State.fallTo; try dsimp only
  repeat' with_reducible
   (first
    | intro x | assumption | apply keeps_calFactory | apply keeps_setStage | apply keeps_fall2 | apply keeps_ite)

theorem keeps_stageFall {r : State} : ∀ s, Keeps true r s → Keeps true r (State.stageFall s) := by
  intros; unfold State.stageFall; try dsimp only
  repeat' with_reducible
   (first
    | intro x | assumption | apply keeps_fallTo | apply keeps_ite)

theorem keeps_killWrite {w : Bool} {r : State} : ∀ s a1, Keeps w r s → Keeps w r (State.killWrite s a1) := by
  intros; unfold State.killWrite; try dsimp only
  repeat' with_reducible
   (first
    | intro x | assumption | apply keeps_writeReg | apply keeps_put | apply keeps_ite)

theorem keeps_flashErr {w : Bool} {r : State} : ∀ s, Keeps w r s → Keeps w r (State.flashErr s) := by
  intros; unfold State.flashErr; try dsimp only
  repeat' with_reducible
   (first
    | intro x | assumption | apply keeps_put | apply keeps_rise)

theorem keeps_flashCmd {w : Bool} {r : State} : ∀ s a1, Keeps w r s → Keeps w r (State.flashCmd s a1) := by
  intros; unfold State.flashCmd; try dsimp only
  repeat' with_reducible
   (first
    | intro x | assumption | apply keeps_flashErr | apply keeps_put | apply keeps_ite | split
    | refine keeps_mk ?_ rfl rfl)

theorem keeps_flashDone {w : Bool} {r : State} : ∀ s a1, Keeps w r s → Keeps w r (State.flashDone s a1) := by
  intros; unfold State.flashDone; try dsimp only
  repeat' with_reducible
   (first
    | intro x | assumption | apply keeps_flashAbandon | apply keeps_flashErr | apply keeps_flashErase
    | apply keeps_flashPut | apply keeps_wr | apply keeps_set | apply keeps_put | apply keeps_ite | split
    | refine keeps_mk ?_ rfl rfl)

theorem keeps_regsReset {w : Bool} {r : State} : ∀ s a1 a2, Keeps w r s → Keeps w r (State.regsReset s a1 a2) := by
  intros; unfold State.regsReset; try dsimp only
  repeat' with_reducible
   (first
    | intro x | assumption | split | refine keeps_mk ?_ rfl rfl)

theorem keeps_keepFields {w : Bool} {r : State} : ∀ s a1 a2 f, (∀ t, Keeps w r t → Keeps w r (f t)) → Keeps w r s →
    Keeps w r (State.keepFields s a1 a2 f) := by
  intros; unfold State.keepFields; try dsimp only
  repeat' with_reducible
   (first
    | intro x | assumption | apply keeps_set | apply keeps_foldl | apply keeps_foldl_fst | apply_assumption)

theorem keeps_pairSync {w : Bool} {r : State} : ∀ s a1, Keeps w r s → Keeps w r (State.pairSync s a1) := by
  intros; unfold State.pairSync; try dsimp only
  repeat' with_reducible
   (first
    | intro x | assumption | apply keeps_set | apply keeps_put | apply keeps_ite)

theorem keeps_chanOff {w : Bool} {r : State} : ∀ s a1, Keeps w r s → Keeps w r (State.chanOff s a1) := by
  intros; unfold State.chanOff; try dsimp only
  repeat' with_reducible
   (first
    | intro x | assumption | apply keeps_parkNow | apply keeps_chanLeave)

theorem keeps_burstsAbort {w : Bool} {r : State} : ∀ s a1 a2, Keeps w r s → Keeps w r (State.burstsAbort s a1 a2) :=
    by
  intros; unfold State.burstsAbort; try dsimp only
  repeat' with_reducible
   (first
    | intro x | assumption | apply keeps_burstFail | split)

theorem keeps_marchBlur {w : Bool} {r : State} : ∀ s a1, Keeps w r s → Keeps w r (State.marchBlur s a1) := by
  intros; unfold State.marchBlur; try dsimp only
  repeat' with_reducible
   (first
    | intro x | assumption | apply keeps_fresh | apply keeps_ite | apply keeps_ite_fst | apply keeps_foldl
    | refine keeps_mk ?_ rfl rfl)

theorem keeps_aneReset {r : State} : ∀ s a1, Keeps true r s → Keeps true r (State.aneReset s a1) := by
  intros; unfold State.aneReset; try dsimp only
  repeat' with_reducible
   (first
    | intro x | assumption | apply keeps_aneEnd | apply keeps_finish | apply keeps_marchBlur | apply keeps_setAne
    | apply keeps_setAneState | apply keeps_ite | apply keeps_foldl)

theorem keeps_schReset {r : State} : ∀ s, Keeps true r s → Keeps true r (State.schReset s) := by
  intros; unfold State.schReset; try dsimp only
  repeat' with_reducible
   (first
    | intro x | assumption | apply keeps_slot | apply keeps_abortTicket | apply keeps_submit | apply keeps_ite
    | apply keeps_foldl | split | refine keeps_mk ?_ rfl rfl)

theorem keeps_blockEnd {r : State} : ∀ s a1, Keeps true r s → Keeps true r (State.blockEnd s a1) := by
  intros; unfold State.blockEnd; try dsimp only
  repeat' with_reducible
   (first
    | intro x | assumption | apply keeps_laceStop | apply keeps_burstsAbort | apply keeps_chanOff
    | apply keeps_setSpr | apply keeps_set | apply keeps_leaveGroup | apply keeps_parkCh | apply keeps_setEye
    | apply keeps_ddsEnd | apply keeps_setDds | apply keeps_setChan | apply keeps_setSite | apply keeps_slot
    | apply keeps_finish | apply keeps_setIu | apply keeps_setAwl | apply keeps_setTrg | apply keeps_rawAll
    | apply keeps_aneReset | apply keeps_schReset | apply keeps_coreFail | apply keeps_setXbr
    | apply keeps_wltDrop | apply keeps_setWlt | apply keeps_pgStop | apply keeps_ptpSync | apply keeps_ackSlot
    | apply keeps_ite | apply keeps_foldl | refine keeps_mk ?_ rfl rfl)

theorem keeps_blockAfter {w : Bool} {r : State} : ∀ s a1 a2, Keeps w r s → Keeps w r (State.blockAfter s a1 a2) :=
    by
  intros; unfold State.blockAfter; try dsimp only
  repeat' with_reducible
   (first
    | intro x | assumption | apply keeps_pairSync | apply keeps_evqSync | apply keeps_schSync | apply keeps_ite
    | refine keeps_mk ?_ rfl rfl)

theorem keeps_blockReset {r : State} : ∀ s a1, Keeps true r s → Keeps true r (State.blockReset s a1) := by
  intros; unfold State.blockReset; try dsimp only
  repeat' with_reducible
   (first
    | intro x | assumption | apply keeps_blockEnd | apply keeps_keepFields | apply keeps_regsReset
    | apply keeps_blockAfter | apply keeps_put | apply keeps_ite | split | refine keeps_mk ?_ rfl rfl)

theorem keeps_blockResetDone {w : Bool} {r : State} : ∀ s a1 a2, Keeps w r s → Keeps w r (State.blockResetDone s a1
    a2) := by
  intros; unfold State.blockResetDone; try dsimp only
  repeat' with_reducible
   (first
    | intro x | assumption | apply keeps_put | apply keeps_set | apply keeps_ite | refine keeps_mk ?_ rfl rfl)

theorem keeps_chanOn {w : Bool} {r : State} : ∀ s a1, Keeps w r s → Keeps w r (State.chanOn s a1) := by
  intros; unfold State.chanOn; try dsimp only
  repeat' with_reducible
   (first
    | intro x | assumption | apply keeps_setChan | apply keeps_clockJoin | apply keeps_ite)

theorem keeps_streamsOn {w : Bool} {r : State} : ∀ s a1, Keeps w r s → Keeps w r (State.streamsOn s a1) := by
  intros; unfold State.streamsOn; try dsimp only
  repeat' with_reducible
   (first
    | intro x | assumption | apply keeps_wr | apply keeps_inForceRange | apply keeps_ringMark | apply keeps_foldl)

theorem keeps_pageEnable {w : Bool} {r : State} : ∀ s a1 a2, Keeps w r s → Keeps w r (State.pageEnable s a1 a2) :=
    by
  intros; unfold State.pageEnable; try dsimp only
  repeat' with_reducible
   (first
    | intro x | assumption | apply keeps_chanOn | apply keeps_chanOff | apply keeps_setSpr
    | apply keeps_cleanStart | apply keeps_set | apply keeps_streamsOn | apply keeps_wltEnable | apply keeps_ite)

theorem keeps_pgCtlWrite {r : State} : ∀ s a1 a2, Keeps true r s → Keeps true r (State.pgCtlWrite s a1 a2) := by
  intros; unfold State.pgCtlWrite; try dsimp only
  repeat' with_reducible
   (first
    | intro x | assumption | apply keeps_blockReset | apply keeps_writeAt | apply keeps_pageEnable
    | apply keeps_idleForce | apply keeps_ite)

theorem keeps_pgCommit {w : Bool} {r : State} : ∀ s a1 a2, Keeps w r s → Keeps w r (State.pgCommit s a1 a2) := by
  intros; unfold State.pgCommit; try dsimp only
  repeat' with_reducible
   (first
    | intro x | assumption | apply keeps_refuse | apply keeps_put | apply keeps_ite | split
    | refine keeps_mk ?_ rfl rfl)

theorem keeps_tableCommit {w : Bool} {r : State} : ∀ s a1, Keeps w r s → Keeps w r (State.tableCommit s a1) := by
  intros; unfold State.tableCommit; try dsimp only
  repeat' with_reducible
   (first
    | intro x | assumption | apply keeps_segCommit | apply keeps_wftCommit | apply keeps_dmapCommit
    | apply keeps_ddsCommit | apply keeps_scrCommit | apply keeps_upTo | apply keeps_slotCommit
    | apply keeps_calCommit | apply keeps_ite)

theorem keeps_copyDone {w : Bool} {r : State} : ∀ s a1, Keeps w r s → Keeps w r (State.copyDone s a1) := by
  intros; unfold State.copyDone; try dsimp only
  repeat' with_reducible
   (first
    | intro x | assumption | apply keeps_put | apply keeps_ite | split | refine keeps_mk ?_ rfl rfl)

theorem keeps_rxnHeel {r : State} : ∀ a1 a2 s a3, Keeps true r s → Keeps true r (State.rxnHeel a1 a2 s a3) := by
  intros; unfold State.rxnHeel; try dsimp only
  repeat' with_reducible
   (first
    | intro x | assumption | apply keeps_enterHeel | apply keeps_ite)

theorem keeps_rxnFault {w : Bool} {r : State} : ∀ a1 s a2, Keeps w r s → Keeps w r (State.rxnFault a1 s a2) := by
  intros; unfold State.rxnFault; try dsimp only
  repeat' with_reducible
   (first
    | intro x | assumption | apply keeps_faultSync | apply keeps_ite | refine keeps_mk ?_ rfl rfl)

theorem keeps_rxnLog {w : Bool} {r : State} : ∀ a1 s a2, Keeps w r s → Keeps w r (State.rxnLog a1 s a2) := by
  intros; unfold State.rxnLog; try dsimp only
  repeat' with_reducible
   (first
    | intro x | assumption | apply keeps_logPush | apply keeps_ite | refine keeps_mk ?_ rfl rfl)

theorem keeps_rxnEntry {w : Bool} {r : State} : ∀ a1 a2 s, Keeps w r s → Keeps w r (State.rxnEntry a1 a2 s) := by
  intros; unfold State.rxnEntry; try dsimp only
  repeat' with_reducible
   (first
    | intro x | assumption | apply keeps_evPush | apply keeps_msi | apply keeps_ite)

theorem keeps_rxnReset {r : State} : ∀ s a1, Keeps true r s → Keeps true r (State.rxnReset s a1) := by
  intros; unfold State.rxnReset; try dsimp only
  repeat' with_reducible
   (first
    | intro x | assumption | apply keeps_blockReset | apply keeps_parkCh | apply keeps_ite | apply keeps_foldl
    | split | refine keeps_mk ?_ rfl rfl)

theorem keeps_resetsDue {r : State} : ∀ s, Keeps true r s → Keeps true r (State.resetsDue s) := by
  intros; unfold State.resetsDue; try dsimp only
  repeat' with_reducible
   (first
    | intro x | assumption | apply keeps_blockReset | apply keeps_foldl | split | refine keeps_mk ?_ rfl rfl)

theorem keeps_pageRise {r : State} : ∀ a1 a2 s a3, Keeps true r s → Keeps true r (State.pageRise a1 a2 s a3) := by
  intros; unfold State.pageRise; try dsimp only
  repeat' with_reducible
   (first
    | intro x | assumption | apply keeps_rxnHeel | apply keeps_rxnFault | apply keeps_rxnLog | apply keeps_logRoom
    | apply keeps_rxnEntry | apply keeps_rxnReset | apply keeps_ite | apply keeps_foldl
    | refine keeps_mk ?_ rfl rfl)

theorem keeps_riseRound {r : State} : ∀ s, Keeps true r s → Keeps true r (State.riseRound s) := by
  intros; unfold State.riseRound; try dsimp only
  repeat' with_reducible
   (first
    | intro x | assumption | apply keeps_pageRise | apply keeps_foldl | refine keeps_mk ?_ rfl rfl)

theorem keeps_riseRounds {r : State} : ∀ s a1, Keeps true r s → Keeps true r (State.riseRounds s a1) := by
  intro s n; induction n generalizing s with
  | zero => exact id
  | succ n ih =>
    intro h; unfold State.riseRounds
    exact keeps_ite h (ih _ (keeps_riseRound _ h))

theorem keeps_settle {r : State} : ∀ s, Keeps true r s → Keeps true r (State.settle s) := by
  intros; unfold State.settle; try dsimp only
  repeat' with_reducible
   (first
    | intro x | assumption | apply keeps_stopCheck | apply keeps_resetsDue | apply keeps_riseRounds)

theorem keeps_clearOne {w : Bool} {r : State} : ∀ a1 s a2, Keeps w r s → Keeps w r (State.clearOne a1 s a2) := by
  intros; unfold State.clearOne; try dsimp only
  repeat' with_reducible
   (first
    | intro x | assumption | apply keeps_put | apply keeps_set | apply keeps_logPush | apply keeps_wr
    | apply keeps_faultSync | apply keeps_ite | refine keeps_mk ?_ rfl rfl)

theorem keeps_fltClear {w : Bool} {r : State} : ∀ s a1 a2, Keeps w r s → Keeps w r (State.fltClear s a1 a2) := by
  intros; unfold State.fltClear; try dsimp only
  repeat' with_reducible
   (first
    | intro x | assumption | apply keeps_clearOne | apply keeps_ite | apply keeps_foldl)

theorem keeps_clsWrite {w : Bool} {r : State} : ∀ s a1 a2, Keeps w r s → Keeps w r (State.clsWrite s a1 a2) := by
  intros; unfold State.clsWrite; try dsimp only
  repeat' with_reducible
   (first
    | intro x | assumption | apply keeps_refuse | apply keeps_set | apply keeps_ite | split
    | refine keeps_mk ?_ rfl rfl)

theorem keeps_rxnWrite {w : Bool} {r : State} : ∀ s a1 a2, Keeps w r s → Keeps w r (State.rxnWrite s a1 a2) := by
  intros; unfold State.rxnWrite; try dsimp only
  repeat' with_reducible
   (first
    | intro x | assumption | apply keeps_refuse | apply keeps_set | apply keeps_ite | split
    | refine keeps_mk ?_ rfl rfl)

theorem keeps_logPop {w : Bool} {r : State} : ∀ s a1, Keeps w r s → Keeps w r (State.logPop s a1).1 := by
  intro s bad h; unfold State.logPop
  split
  · exact keeps_mk h rfl rfl
  · next d l heq =>
    refine keeps_logRoom _ (keeps_set _ _ _ _ ?_)
    have hp : Keeps w r (if bad then s.parityErr State.fltPg 1 else s) := keeps_ite (keeps_parityErr _ _ _ h) h
    refine keeps_mk_log hp rfl (fun hl => ?_)
    have e : (if bad then s.parityErr State.fltPg 1 else s).flt.log = s.flt.log := by split <;> rfl
    rw [e, heq] at hl; exact Nat.le_of_succ_le hl

theorem keeps_trapDone {w : Bool} {r : State} : ∀ s a1 a2, Keeps w r s → Keeps w r (State.trapDone s a1 a2) := by
  intro s d0 d1 h; unfold State.trapDone
  split
  · exact h
  · exact keeps_mk_log h rfl (by simp)

theorem keeps_faultChipReset {r : State} : ∀ s, Keeps true r s → Keeps true r (State.faultChipReset s) := by
  intros; unfold State.faultChipReset; try dsimp only
  repeat' with_reducible
   (first
    | intro x | assumption | apply keeps_chipReset | apply keeps_ite)

theorem keeps_leaveRefused {w : Bool} {r : State} : ∀ s, Keeps w r s → Keeps w r (State.leaveRefused s) := by
  intros; unfold State.leaveRefused; try dsimp only
  repeat' with_reducible
   (first
    | intro x | assumption | apply keeps_put)

theorem keeps_leaveEye {w : Bool} {r : State} : ∀ s a1, Keeps w r s → Keeps w r (State.leaveEye s a1) := by
  intros; unfold State.leaveEye; try dsimp only
  repeat' with_reducible
   (first
    | intro x | assumption | apply keeps_leaveRefused | apply keeps_set | apply keeps_heelRec
    | apply keeps_eyeHeelLeave | apply keeps_ite | split | refine keeps_mk ?_ rfl rfl)

theorem keeps_leaveDev {w : Bool} {r : State} : ∀ s, Keeps w r s → Keeps w r (State.leaveDev s) := by
  intros; unfold State.leaveDev; try dsimp only
  repeat' with_reducible
   (first
    | intro x | assumption | apply keeps_leaveRefused | apply keeps_put | apply keeps_dispatchSwitch
    | apply keeps_ite | split | refine keeps_mk ?_ rfl rfl)

theorem keeps_heelCtl {w : Bool} {r : State} : ∀ s a1, Keeps w r s → Keeps w r (State.heelCtl s a1) := by
  intros; unfold State.heelCtl; try dsimp only
  repeat' with_reducible
   (first
    | intro x | assumption | apply keeps_leaveDev | apply keeps_leaveEye | apply keeps_ite | apply keeps_foldl)

theorem keeps_heelLeaveDone {r : State} : ∀ s a1, Keeps true r s → Keeps true r (State.heelLeaveDone s a1) := by
  intros; unfold State.heelLeaveDone; try dsimp only
  repeat' with_reducible
   (first
    | intro x | assumption | apply keeps_leaveRefused | apply keeps_dispatchOff | apply keeps_coreFail
    | apply keeps_put | apply keeps_set | apply keeps_fallTo | apply keeps_eyeHeelLeave | apply keeps_heelRec
    | apply keeps_faultSync | apply keeps_ite | apply keeps_foldl | split | refine keeps_mk ?_ rfl rfl)

theorem keeps_hdrWrite {r : State} : ∀ s a1 a2 a3, Keeps true r s → Keeps true r (State.hdrWrite s a1 a2 a3) := by
  intros; unfold State.hdrWrite; try dsimp only
  repeat' with_reducible
   (first
    | intro x | assumption | apply keeps_pgCtlWrite | apply keeps_writeAt | apply keeps_set | apply keeps_fltClear
    | apply keeps_clsWrite | apply keeps_rxnWrite | apply keeps_pgCommit | apply keeps_ite)

theorem keeps_glbWrite {r : State} : ∀ s a1 a2, Keeps true r s → Keeps true r (State.glbWrite s a1 a2) := by
  intros; unfold State.glbWrite; try dsimp only
  repeat' with_reducible
   (first
    | intro x | assumption | apply keeps_rstWrite | apply keeps_killWrite | apply keeps_writeReg | apply keeps_ite)

theorem keeps_tbsWrite {w : Bool} {r : State} : ∀ s a1 a2, Keeps w r s → Keeps w r (State.tbsWrite s a1 a2) := by
  intros; unfold State.tbsWrite; try dsimp only
  repeat' with_reducible
   (first
    | intro x | assumption | apply keeps_writeReg | apply keeps_laceCtl | apply keeps_laceTx
    | apply keeps_refcalCtl | apply keeps_trackWrite | apply keeps_ite)

theorem keeps_chnCtl {w : Bool} {r : State} : ∀ s a1 a2, Keeps w r s → Keeps w r (State.chnCtl s a1 a2) := by
  intros; unfold State.chnCtl; try dsimp only
  repeat' with_reducible
   (first
    | intro x | assumption | apply keeps_writeReg | apply keeps_pairSync | apply keeps_set | apply keeps_inForce
    | apply keeps_ite)

theorem keeps_chnWrite {w : Bool} {r : State} : ∀ s a1 a2 a3, Keeps w r s → Keeps w r (State.chnWrite s a1 a2 a3) :=
    by
  intros; unfold State.chnWrite; try dsimp only
  repeat' with_reducible
   (first
    | intro x | assumption | apply keeps_chnCtl | apply keeps_wftWrite | apply keeps_writeReg | apply keeps_ite)

theorem keeps_eyeWrite {w : Bool} {r : State} : ∀ s a1 a2 a3, Keeps w r s → Keeps w r (State.eyeWrite s a1 a2 a3) :=
    by
  intros; unfold State.eyeWrite; try dsimp only
  repeat' with_reducible
   (first
    | intro x | assumption | apply keeps_seqCtl | apply keeps_syncWrite | apply keeps_condArgWrite
    | apply keeps_seqFlag | apply keeps_writeReg | apply keeps_vampLoad | apply keeps_wdataWrite | apply keeps_ite)

theorem keeps_ddsWrite {w : Bool} {r : State} : ∀ s a1 a2 a3, Keeps w r s → Keeps w r (State.ddsWrite s a1 a2 a3) :=
    by
  intros; unfold State.ddsWrite; try dsimp only
  repeat' with_reducible
   (first
    | intro x | assumption | apply keeps_ddsCtl | apply keeps_hopPush | apply keeps_ddsListWrite
    | apply keeps_pelTx | apply keeps_writeReg | apply keeps_ite)

theorem keeps_tdcWrite {r : State} : ∀ s a1 a2 a3, Keeps true r s → Keeps true r (State.tdcWrite s a1 a2 a3) := by
  intros; unfold State.tdcWrite; try dsimp only
  repeat' with_reducible
   (first
    | intro x | assumption | apply keeps_tdcCtl | apply keeps_tdcRing | apply keeps_iuCtl | apply keeps_writeReg
    | apply keeps_ite)

theorem keeps_trgWrite {w : Bool} {r : State} : ∀ s a1 a2 a3, Keeps w r s → Keeps w r (State.trgWrite s a1 a2 a3) :=
    by
  intros; unfold State.trgWrite; try dsimp only
  repeat' with_reducible
   (first
    | intro x | assumption | apply keeps_trgCtl | apply keeps_writeReg | apply keeps_inForce | apply keeps_ite)

theorem keeps_aneWrite {r : State} : ∀ s a1 a2 a3, Keeps true r s → Keeps true r (State.aneWrite s a1 a2 a3) := by
  intros; unfold State.aneWrite; try dsimp only
  repeat' with_reducible
   (first
    | intro x | assumption | apply keeps_aneCtl | apply keeps_marchCtl | apply keeps_jobqWrite
    | apply keeps_writeReg | apply keeps_ite)

theorem keeps_schWrite {w : Bool} {r : State} : ∀ s a1 a2, Keeps w r s → Keeps w r (State.schWrite s a1 a2) := by
  intros; unfold State.schWrite; try dsimp only
  repeat' with_reducible
   (first
    | intro x | assumption | apply keeps_modeWrite | apply keeps_ctrSet | apply keeps_ctrDown | apply keeps_evtCtl
    | apply keeps_submit | apply keeps_writeReg | apply keeps_ite | refine keeps_mk ?_ rfl rfl)

theorem keeps_dlyWrite {w : Bool} {r : State} : ∀ s a1 a2, Keeps w r s → Keeps w r (State.dlyWrite s a1 a2) := by
  intros; unfold State.dlyWrite; try dsimp only
  repeat' with_reducible
   (first
    | intro x | assumption | apply keeps_writeAt | apply keeps_wr | apply keeps_ite | apply keeps_ite_fst | split
    | refine keeps_mk ?_ rfl rfl)

theorem keeps_mirrorWrite {w : Bool} {r : State} : ∀ s a1, Keeps w r s → Keeps w r (State.mirrorWrite s a1) := by
  intros; unfold State.mirrorWrite; try dsimp only
  repeat' with_reducible
   (first
    | intro x | assumption | apply keeps_writeAt | apply keeps_ite | apply keeps_ite_fst | split
    | refine keeps_mk ?_ rfl rfl)

theorem keeps_memWrite {w : Bool} {r : State} : ∀ s a1 a2 a3, Keeps w r s → Keeps w r (State.memWrite s a1 a2 a3) :=
    by
  intros; unfold State.memWrite; try dsimp only
  repeat' with_reducible
   (first
    | intro x | assumption | apply keeps_dlyWrite | apply keeps_mirrorWrite | apply keeps_writeReg
    | apply keeps_ite)

theorem keeps_xbrWrite {w : Bool} {r : State} : ∀ s a1 a2 a3, Keeps w r s → Keeps w r (State.xbrWrite s a1 a2 a3) :=
    by
  intros; unfold State.xbrWrite; try dsimp only
  repeat' with_reducible
   (first
    | intro x | assumption | apply keeps_refuse | apply keeps_writeReg | apply keeps_ite)

theorem keeps_wltWrite {w : Bool} {r : State} : ∀ s a1 a2 a3, Keeps w r s → Keeps w r (State.wltWrite s a1 a2 a3) :=
    by
  intros; unfold State.wltWrite; try dsimp only
  repeat' with_reducible
   (first
    | intro x | assumption | apply keeps_wltCtl | apply keeps_capsCtl | apply keeps_scanCtl | apply keeps_msgCtl
    | apply keeps_writeReg | apply keeps_ite)

theorem keeps_ptpWrite {w : Bool} {r : State} : ∀ s a1 a2, Keeps w r s → Keeps w r (State.ptpWrite s a1 a2) := by
  intros; unfold State.ptpWrite; try dsimp only
  repeat' with_reducible
   (first
    | intro x | assumption | apply keeps_ptpCtl | apply keeps_ptpRateWrite | apply keeps_pgCtl
    | apply keeps_writeReg | apply keeps_ite)

theorem keeps_calWrite {w : Bool} {r : State} : ∀ s a1 a2, Keeps w r s → Keeps w r (State.calWrite s a1 a2) := by
  intros; unfold State.calWrite; try dsimp only
  repeat' with_reducible
   (first
    | intro x | assumption | apply keeps_writeReg | apply keeps_calWinWrite | apply keeps_calFlashCtl
    | apply keeps_calRoute | apply keeps_calLin | apply keeps_ite)

theorem keeps_evqWrite {w : Bool} {r : State} : ∀ s a1 a2, Keeps w r s → Keeps w r (State.evqWrite s a1 a2) := by
  intros; unfold State.evqWrite; try dsimp only
  repeat' with_reducible
   (first
    | intro x | assumption | apply keeps_writeReg | apply keeps_evRpWrite | apply keeps_ite)

theorem keeps_pageWrite {r : State} : ∀ s a1 a2 a3, Keeps true r s → Keeps true r (State.pageWrite s a1 a2 a3) := by
  intros; unfold State.pageWrite; try dsimp only
  repeat' with_reducible
   (first
    | intro x | assumption | apply keeps_hdrWrite | apply keeps_glbWrite | apply keeps_tbsWrite
    | apply keeps_chnWrite | apply keeps_eyeWrite | apply keeps_ddsWrite | apply keeps_cmpWrite
    | apply keeps_tdcWrite | apply keeps_trgWrite | apply keeps_aneWrite | apply keeps_schWrite
    | apply keeps_memWrite | apply keeps_xbrWrite | apply keeps_aptWrite | apply keeps_writeReg
    | apply keeps_wltWrite | apply keeps_ptpWrite | apply keeps_heelCtl | apply keeps_limitsWrite
    | apply keeps_calWrite | apply keeps_flashCmd | apply keeps_evqWrite | apply keeps_ite)

theorem keeps_msixWrite {w : Bool} {r : State} : ∀ s a1 a2, Keeps w r s → Keeps w r (State.msixWrite s a1 a2) := by
  intros; unfold State.msixWrite; try dsimp only
  repeat' with_reducible
   (first
    | intro x | assumption | apply keeps_msiFlush | apply keeps_ite | refine keeps_mk ?_ rfl rfl)

theorem keeps_bar0Write {r : State} : ∀ s a1 a2, Keeps true r s → Keeps true r (State.bar0Write s a1 a2) := by
  intros; unfold State.bar0Write; try dsimp only
  repeat' with_reducible
   (first
    | intro x | assumption | apply keeps_segWrite | apply keeps_msixWrite | apply keeps_fltClear
    | apply keeps_offReset | apply keeps_pageWrite | apply keeps_ite)

theorem keeps_hostWrite {r : State} : ∀ s a1 a2 a3 a4, Keeps true r s → Keeps true r (State.hostWrite s a1 a2 a3 a4)
    := by
  intros; unfold State.hostWrite; try dsimp only
  repeat' with_reducible
   (first
    | intro x | assumption | apply keeps_poisonRx | apply keeps_put | apply keeps_rise | apply keeps_bar0Write
    | apply keeps_ite)

theorem keeps_busySync {w : Bool} {r : State} : ∀ s a1, Keeps w r s → Keeps w r (State.busySync s a1) := by
  intros; unfold State.busySync; try dsimp only
  repeat' with_reducible
   (first
    | intro x | assumption | apply keeps_bump | apply keeps_setCore | apply keeps_ite)

theorem keeps_regRead {w : Bool} {r : State} : ∀ s a1 a2, Keeps w r s → Keeps w r (State.regRead s a1 a2).1 := by
  intros; unfold State.regRead; try dsimp only
  repeat' with_reducible
   (first
    | intro x | assumption | apply keeps_wr | apply keeps_ite | apply keeps_ite_fst | split
    | refine keeps_mk ?_ rfl rfl)

theorem keeps_pageRead {w : Bool} {r : State} : ∀ s a1 a2, Keeps w r s → Keeps w r (State.pageRead s a1 a2).1 := by
  intros; unfold State.pageRead; try dsimp only
  repeat' with_reducible
   (first
    | intro x | assumption | apply keeps_wftRead | apply keeps_wdataRead | apply keeps_ddsListRead
    | apply keeps_iuPop | apply keeps_accChan | apply keeps_regRead | apply keeps_accSite | apply keeps_ptpCapture
    | apply keeps_logPop | apply keeps_calWinRead | apply keeps_evPop | apply keeps_busySync | apply keeps_ite
    | apply keeps_ite_fst)

theorem keeps_bar0Read {w : Bool} {r : State} : ∀ s a1, Keeps w r s → Keeps w r (State.bar0Read s a1).1 := by
  intros; unfold State.bar0Read; try dsimp only
  repeat' with_reducible
   (first
    | intro x | assumption | apply keeps_pageRead | apply keeps_ite | apply keeps_ite_fst)

theorem keeps_writeOne {r : State} : ∀ s a1 a2, Keeps true r s → Keeps true r (State.writeOne s a1 a2).1 := by
  intros; unfold State.writeOne; try dsimp only
  repeat' with_reducible
   (first
    | intro x | assumption | apply keeps_bar0Write)

theorem keeps_writeAll {r : State} : ∀ s a1 a2, Keeps true r s → Keeps true r (State.writeAll s a1 a2).1 := by
  intro s k l; induction l generalizing s with
  | nil => exact id
  | cons i l ih =>
    intro h; unfold State.writeAll; dsimp only
    split
    · exact keeps_writeOne _ _ _ h
    · exact ih _ (keeps_writeOne _ _ _ h)

theorem keeps_writeTicket {r : State} : ∀ s a1, Keeps true r s → Keeps true r (State.writeTicket s a1) := by
  intros; unfold State.writeTicket; try dsimp only
  repeat' with_reducible
   (first
    | intro x | assumption | apply keeps_slot | apply keeps_begin_ | apply keeps_writeAll | apply keeps_finish
    | apply keeps_ite | split)

theorem keeps_tapPlain {w : Bool} {r : State} : ∀ s a1, Keeps w r s → Keeps w r (State.tapPlain s a1) := by
  intros; unfold State.tapPlain; try dsimp only
  repeat' with_reducible
   (first
    | intro x | assumption | refine keeps_mk ?_ rfl rfl)

theorem keeps_tapTake {r : State} : ∀ s a1, Keeps true r s → Keeps true r (State.tapTake s a1) := by
  intros; unfold State.tapTake; try dsimp only
  repeat' with_reducible
   (first
    | intro x | assumption | apply keeps_chipReset | apply keeps_ite | split | refine keeps_mk ?_ rfl rfl)

theorem keeps_tapSample {w : Bool} {r : State} : ∀ s, Keeps w r s → Keeps w r (State.tapSample s) := by
  intros; unfold State.tapSample; try dsimp only
  repeat' with_reducible
   (first
    | intro x | assumption | apply keeps_fresh | apply keeps_tapPlain | refine keeps_mk ?_ rfl rfl)

theorem keeps_smbRead {w : Bool} {r : State} : ∀ s f, (∀ t, Keeps w r t → Keeps w r (f t).1) → Keeps w r s → Keeps w
    r (State.smbRead s f) := by
  intro s f hf h; unfold State.smbRead
  exact keeps_ite (keeps_emit _ _ (hf _ h)) h

theorem keeps_smbArp {w : Bool} {r : State} : ∀ s a1, Keeps w r s → Keeps w r (State.smbArp s a1) := by
  intros; unfold State.smbArp; try dsimp only
  repeat' with_reducible
   (first
    | intro x | assumption | apply keeps_emit | split | refine keeps_mk ?_ rfl rfl)

theorem keeps_hottest {w : Bool} {r : State} : ∀ s, Keeps w r s → Keeps w r (State.hottest s).2 := by
  intros; unfold State.hottest; try dsimp only
  repeat' with_reducible
   (first
    | intro x | assumption | apply keeps_fresh | apply keeps_foldl | split)

theorem keeps_lingerTail {r : State} : ∀ s a1 a2, Keeps true r s → Keeps true r (State.lingerTail s a1 a2) := by
  intros; unfold State.lingerTail; try dsimp only
  repeat' with_reducible
   (first
    | intro x | assumption | apply keeps_gateRelease | apply keeps_upToMono | apply keeps_streamPoison
    | apply keeps_streamDrain | apply keeps_flogDrain | apply keeps_acqTail | apply keeps_evLone
    | apply keeps_traceTail | apply keeps_ite | split)

end Sys2Proof.Machine
end

