-- ==== Sys2Proof/WellFormed.lean ====
section
/-!
DEFINITION. Well-formed commands: what the operands' types leave to be said. A BAR0 access is an aligned word (R339),
a command on a register page names a page that exists (R439).
-/
namespace Sys2Proof

/-- A BAR0 word offset is a multiple of 4 (R339). -/
def alignedOfs (o : Ofs) : Bool := decide (o.toNat % 4 = 0)

/-- The page exists: its type is not reserved and its instance number lies below the block's count (R439). -/
def pageExists (p : PageNo) : Bool := decide (p.toNat % 256 < Machine.instances (p.toNat / 256))

/-- A well-formed command. -/
def Instr.wellFormed : Instr → Bool
  | .registerWrite o .. => alignedOfs o
  | .rcRead o => alignedOfs o
  | .wideRegisterLoRead o => alignedOfs o
  | .pgEnableWrite p _ => pageExists p
  | .blockReset p => pageExists p
  | .blockResetDone p _ => pageExists p
  | .cfgLock p => pageExists p
  | .pgCommit p => pageExists p
  | .tableCommit p => pageExists p
  | .shadowCopyDone p => pageExists p
  | .faultClear p _ => pageExists p
  | .fltClassWrite p _ => pageExists p
  | .fltRxnWrite p _ => pageExists p
  | _ => true

end Sys2Proof
end

