-- ==== Sys2Proof/Tests/Slice0.lean ====
section
/-!
SUPPORT. Tests. The first part: well-formedness refuses one ill-formed term for each of its checks, and single steps on
small states do what the spec says. The second part: for every obligation with hypotheses, one theorem shows, clause by
clause, a state and operands that meet all the hypotheses of the clause together.
-/
namespace Sys2Proof.Tests

set_option Elab.async false
set_option maxRecDepth 20000
set_option linter.unusedVariables false

open Sys2Proof Sys2Proof.Machine Sys2Proof.Machine.State

/-- The state after reset. -/
def rS : State := State.reset

/-! ## Well-formedness -/

theorem test_wf_registerWrite : (Instr.registerWrite 0x102 0 15 false).wellFormed = false := by decide
theorem test_wf_rcRead : (Instr.rcRead 0x102).wellFormed = false := by decide
theorem test_wf_wideRegisterLoRead : (Instr.wideRegisterLoRead 0x101).wellFormed = false := by decide
theorem test_wf_pgEnableWrite : (Instr.pgEnableWrite 0x1700 1).wellFormed = false := by decide
theorem test_wf_blockReset : (Instr.blockReset 0x1700).wellFormed = false := by decide
theorem test_wf_cfgLock : (Instr.cfgLock 0x1700).wellFormed = false := by decide
theorem test_wf_pgCommit : (Instr.pgCommit 0x1700).wellFormed = false := by decide
theorem test_wf_tableCommit : (Instr.tableCommit 0x1700).wellFormed = false := by decide
theorem test_wf_shadowCopyDone : (Instr.shadowCopyDone 0x1700).wellFormed = false := by decide
theorem test_wf_faultClear : (Instr.faultClear 0x1700 1).wellFormed = false := by decide
theorem test_wf_fltClassWrite : (Instr.fltClassWrite 0x1700 1).wellFormed = false := by decide
theorem test_wf_fltRxnWrite : (Instr.fltRxnWrite 0x1700 1).wellFormed = false := by decide
theorem test_wf_blockResetDone : (Instr.blockResetDone 0x1700 true).wellFormed = false := by decide
theorem test_wf_page : (Instr.cfgLock 0x02FF).wellFormed = true := by decide

/-! ## The states of the tests -/

/-- A last running pass of `n` vectors. -/
def aPass (n : Nat) : Pass := ⟨0, 1, 0, BitVec.ofNat 32 n, 0, 0, 0, true, 0⟩

/-- The first pass of a SYNC entry. -/
def syncPass : Pass := { aPass 64 with entry := 2, w2 := 0x20000000 }

/-- A lock group of eyelet 0 alone. -/
def aGroup (st : GState) : Group := { leader := 0, members := [0], st := st, cur := aPass 1000 }

/-- A ticket of a type in a phase. -/
def aTicket (typ : Nat) (ph : TPhase) : Ticket :=
  { words := BitVec.ofNat 32 typ :: List.replicate 15 0, slot := 0, age := 0, phase := ph }

/-- A queued access of one urgency. -/
def aQAcc (urg : Nat) : QAcc := ⟨⟨40, 0, false, false, false, 0⟩, some 0, 4, 0, urg, 0, true, false⟩

/-- A due strobe or edge of one type. -/
def aDue (typ : Nat) : Due :=
  { t := 5, typ := typ, exp := 0, own := 0, vb := 0, ve := 100, vid := 0, mloop := false, excl := false, gate := true }

/-- A state with a page enabled. -/
def on (s : State) (p : Nat) : State := s.put p F.PG_CTL_ENABLE true

/-- After reset, at a service stage, with SEC_STS (whose SVN_MIN is the fuse's) written as 0. -/
def atStage (n : Nat) : State :=
  let s := rS.set glbPg F.GLB_STAGE_STAGE n
  { s with regs := (rkey secPg 0x100, 0) :: s.regs }

/-- After reset, at stage 1: the host reaches its pages. -/
def uS : State := atStage 1

/-- A state with one lock group. -/
def inGroup (g : Group) : State := { (atStage 3) with groups := [g], tlOn := true }

/-- Channel 0 with one event due. -/
def withDue (typ : Nat) : State := rS.setChan 0 { due := [aDue typ] }

/-- Interval unit 0 in a state. -/
def withIu (st : Nat) (d : IuDyn) : State := ((on (atStage 2) (pg T.tdc 0)).setIu 0 d).setIuState 0 st

/-- A scheduler that holds one ticket. -/
def withTicket (k : Ticket) : State := { (atStage 3) with sch := { tickets := [k] } }

/-- A crossbar of stack 0. -/
def withQ (d : XbrDyn) : State := (on (on (atStage 3) (memPg 0)) (xbrPg 0)).setXbr 0 d

/-- Welt link 0 in a state. -/
def withWlt (st : Nat) (d : WltDyn) : State := ((on (atStage 2) (wltPg 0)).setWlt 0 d).setWltState 0 st

/-- Trigger engine 0, running. -/
def withTrg (d : TrgDyn) : State := ((on (atStage 2) (trgPg 0)).setTrg 0 d).set (trgPg 0) F.TRG_STS_STATE 1

/-- DDS unit 0 in a state. -/
def withDds (st : Nat) (d : DdsDyn) : State :=
  ((on (atStage 2) (pg T.dds 0)).setDds 0 d).set (pg T.dds 0) F.DDS_STS_STATE st

/-- Analysis engine 0 in a state, at a microcode word. -/
def withAne (st : Nat) (d : AneDyn) (w0 w1 w2 w3 w4 : Nat) : State :=
  { ((((on (atStage 3) (anePg 0)).setAne 0 d).set (anePg 0) F.ANE_STS_STATE st).set (anePg 0) F.ANE_PC_PC 8192) with
    ucode := (([w0, w1, w2, w3, w4].zipIdx).filter (fun x => x.1 != 0)).map (fun x => (65536 + x.2, BitVec.ofNat 32 x.1)) }

/-- An event queue of `n` entries. -/
def withEvq (n : Nat) : State :=
  { (on uS evqPg) with evq := { q := List.replicate n ([0, 1, 0, 0, 0, 0, 0, 0], none) } }

/-- A flash command in progress. -/
def withFlash (op : Nat) : State := { (atStage 1) with flash := { op := some (op, 5, 7) } }

/-- Eyelet 0 in a state. -/
def withEye (d : EyeDyn) : State := (atStage 3).setEye 0 d

/-- The spare check of eyelet 0 in a state. -/
def sprIn (st : Nat) (d : SprDyn) : State := ((on (atStage 3) (pg T.spr 0)).setSpr 0 d).set (pg T.spr 0) F.SPR_STS_STATE st

/-- Eyelet 0 ready to start at table entry 1. -/
def aStart : State :=
  { ((atStage 3).set (eyePg 0) F.EYE_SEQ_FIRST_ENTRY 1).put (eyePg 0) F.EYE_SEQ_CTL_START_MODE true with segL := [(5, 64)] }

/-- A running ticket with a run-time limit. -/
def limTicket (typ : Nat) : Ticket :=
  { words := BitVec.ofNat 32 typ :: 0 :: 0 :: 1 :: List.replicate 12 0, slot := 0, age := 0, phase := .running 0 }

/-- A running BURST of eyelet 0. -/
def burstTicket : Ticket :=
  { words := [1, 0, 0, 0, 0x100001, 1] ++ List.replicate 10 0, slot := 0, age := 0, phase := .running 0 }

/-- A BURST that can start. -/
def aBurst : State := { aStart with sch := { tickets := [burstTicket] } }

/-- Every core busy, one ticket ready. -/
def busyCores : State :=
  { ((List.range 32).foldl (fun s n => s.set (lst n) F.LST_STS_STATE 1) (rS.put schPg F.SCH_MODE_DISPATCH false)) with
    sch := { tickets := [aTicket 4 .ready] } }

/-! ## Single steps -/

/-- The state after a command. -/
def after (c : Instr) (s : State) : State :=
  match exec c s with
  | .next t => t
  | _ => s

/-- An empty queue before the timeline starts: nothing happens. -/
theorem test_step_idle : step rS = .next rS := rfl

/-- CRC-32 of IEEE 802.3 of four zero bytes is 0x2144DF1C. -/
theorem test_crc32 : crc32 [0] = 0x2144DF1C := by decide

/-- CTR_DEC of a counter at 0 sets CTR_UFL and leaves the counter at 0. -/
theorem test_ctrDec_underflow :
    (after (.ctrDec 7) uS).flag schPg F.SCH_STS_CTR_UFL = true ∧ (after (.ctrDec 7) uS).ctr 7 = 0 := by decide +kernel

/-- DISARM clears ALIGN_ARM. -/
theorem test_disarm :
    (after (.disarm 0) ((on uS tbsPg).put tbsPg F.TBS_LACE_CTL_ALIGN_ARM true)).flag tbsPg F.TBS_LACE_CTL_ALIGN_ARM =
      false := by decide +kernel

/-- A locked page refuses a change of an RW field of type L. -/
theorem test_lock_refuses :
    (after (.ctrSet 1) ((on uS schPg).put schPg F.PG_CTL_CFG_LOCK true)).ctr 0 = 0 := by decide +kernel

/-- An interval unit armed in single mode waits for its start edge. -/
theorem test_iuArm :
    (after (.iuArm 0 0 0) (on (atStage 2) (pg T.tdc 0))).iuState 0 = 1 := by decide +kernel

/-- REFIN lost for four periods: REF_PRESENT falls and HOLDOVER rises. -/
theorem test_refinLoss :
    (after .refinLoss (rS.put tbsPg F.TBS_REF_STS_REF_PRESENT true)).flag tbsPg F.TBS_REF_STS_REF_PRESENT = false ∧
      (after .refinLoss (rS.put tbsPg F.TBS_REF_STS_REF_PRESENT true)).flag tbsPg F.TBS_REF_STS_HOLDOVER = true := by
  decide +kernel

/-! ## Witnesses of the obligations' hypotheses -/

/-- A flash whose slot 0 holds a calibration copy with CRCs `c1` and `c2`, all other words erased. -/
def slotState (c1 c2 : W32) : State :=
  { uS with flash := { words := [(slotAddr 0, 0x43414C31), (slotAddr 0 + 3, c1), (slotAddr 0 + 8, 0), (slotAddr 0 + 1023, c2)] } }

theorem crcBits_lt (n : Nat) : ∀ c, c < 2 ^ 32 → crcBits c n < 2 ^ 32 := by
  induction n with
  | zero => intro c h; simpa only [crcBits] using h
  | succ n ih =>
    intro c h
    rw [crcBits]
    have h2 : c / 2 < 2 ^ 32 := by omega
    by_cases hc : c % 2 = 1
    · rw [if_pos hc]
      exact ih _ (Nat.xor_lt_two_pow h2 (by norm_num))
    · rw [if_neg hc]
      exact ih _ h2

theorem crc32_lt (ws : List W32) : crc32 ws < 2 ^ 32 := by
  have h : ∀ c, c < 2 ^ 32 → ws.foldl (fun c w => crcBits (c ^^^ w.toNat) 32) c < 2 ^ 32 := by
    induction ws with
    | nil => intro c h; simpa only [List.foldl_nil] using h
    | cons w ws ih =>
      intro c h
      rw [List.foldl_cons]
      have hx := crcBits_lt 32 _ (Nat.xor_lt_two_pow h w.isLt)
      exact ih _ hx
  unfold crc32
  exact Nat.xor_lt_two_pow (h _ (by norm_num)) (by norm_num)

theorem four_words (b j : Nat) (m c1 z c2 : W32) (h : j ≠ 1023) (h3 : j ≠ 3) :
    tabFind [(b, m), (b + 3, c1), (b + 8, z), (b + 1023, c2)] (b + j) =
      if j = 0 then some m else if j = 8 then some z else none := by
  have e (n : Nat) : (b + n = b + j) = (j = n) := propext (by omega)
  have e0 : (b = b + j) = (j = 0) := propext (by omega)
  simp only [tabFind, e, e0, h, h3, if_false]

theorem slot_word (c1 c2 d1 d2 : W32) (j : Nat) (h : j ≠ 1023) (h3 : c1 = d1 ∨ j ≠ 3) :
    (slotState c1 c2).flashWord (slotAddr 0 + j) = (slotState d1 d2).flashWord (slotAddr 0 + j) := by
  have f (a1 a2 : W32) : (slotState a1 a2).flashWord (slotAddr 0 + j) = (tabFind [(slotAddr 0, 0x43414C31),
    (slotAddr 0 + 3, a1), (slotAddr 0 + 8, 0), (slotAddr 0 + 1023, a2)] (slotAddr 0 + j)).getD 0xFFFFFFFF := rfl
  rw [f, f]
  by_cases hj : j = 3
  · obtain rfl := h3.resolve_right (by omega)
    subst hj
    rfl
  · rw [four_words _ _ _ _ _ _ h hj, four_words _ _ _ _ _ _ h hj]

theorem slot_words (c1 c2 d1 d2 : W32) (b n : Nat) (h : b + n ≤ 1023 ∨ 1024 ≤ b) (h3 : c1 = d1 ∨ 4 ≤ b) :
    (slotState c1 c2).flashWords (slotAddr 0 + b) n = (slotState d1 d2).flashWords (slotAddr 0 + b) n := by
  refine List.map_congr_left fun i hi => ?_
  have hi := List.mem_range.mp hi
  have e : slotAddr 0 + b + i = slotAddr 0 + (b + i) := by omega
  rw [e]
  exact slot_word _ _ _ _ _ (by omega) (h3.imp_right (by omega))

theorem slot_valid (c1 c2 : W32) (h1 : c1.toNat = crc32 ((slotState c1 c2).flashWords (slotAddr 0 + 1024) 49152))
    (h2 : c2.toNat = crc32 ((slotState c1 c2).flashWords (slotAddr 0 + 0) 8 ++
      (slotState c1 c2).flashWords (slotAddr 0 + 9) 1014)) : (slotState c1 c2).newestSlot = some 0 := by
  have e1 : (slotState c1 c2).flashWord (slotAddr 0 + 3) = c1 := rfl
  have e2 : (slotState c1 c2).flashWord (slotAddr 0 + 1023) = c2 := rfl
  have e3 : (slotState c1 c2).flashWord (slotAddr 0 + 0) = 0x43414C31 := rfl
  have e4 : (slotState c1 c2).flashWord (slotAddr 0 + 8) = ~~~ (slotState c1 c2).flashWord (slotAddr 0 + 1) := by
    rw [show (slotState c1 c2).flashWord (slotAddr 0 + 8) = 0 from rfl, show (slotState c1 c2).flashWord (slotAddr 0 + 1) = 0xFFFFFFFF from rfl]
    decide
  have e5 : (slotState c1 c2).flashWord (slotAddr 1 + 0) = 0xFFFFFFFF := rfl
  rw [Nat.add_zero] at h2
  have v0 : (slotState c1 c2).slotValid 0 = true := by
    simp only [slotValid, e1, e2, e3, e4, ← h1, ← h2, beq_self_eq_true, Bool.and_self]
  have v1 : (slotState c1 c2).slotValid 1 = false := by
    simp only [slotValid, e5]
    rfl
  simp only [newestSlot, v0, v1]

theorem slot_found : ∃ c1 c2, (slotState c1 c2).newestSlot = some 0 := by
  obtain ⟨n1, hn1⟩ : ∃ n, n = crc32 ((slotState 0 0).flashWords (slotAddr 0 + 1024) 49152) := ⟨_, rfl⟩
  have l1 : n1 < 2 ^ 32 := hn1 ▸ crc32_lt _
  obtain ⟨n2, hn2⟩ : ∃ n, n = crc32 ((slotState (BitVec.ofNat 32 n1) 0).flashWords (slotAddr 0 + 0) 8 ++
    (slotState (BitVec.ofNat 32 n1) 0).flashWords (slotAddr 0 + 9) 1014) := ⟨_, rfl⟩
  have l2 : n2 < 2 ^ 32 := hn2 ▸ crc32_lt _
  refine ⟨BitVec.ofNat 32 n1, BitVec.ofNat 32 n2, slot_valid _ _ ?_ ?_⟩
  · rw [slot_words _ _ 0 0 1024 49152 (.inr (by omega)) (.inr (by omega)), ← hn1, BitVec.toNat_ofNat, Nat.mod_eq_of_lt l1]
  · rw [slot_words _ _ (BitVec.ofNat 32 n1) 0 0 8 (.inl (by omega)) (.inl rfl),
      slot_words _ _ (BitVec.ofNat 32 n1) 0 9 1014 (.inl (by omega)) (.inl rfl), ← hn2, BitVec.toNat_ofNat,
      Nat.mod_eq_of_lt l2]

/-- The first `n` calibration tables, each of one point and with its CRC. -/
def calTables : Nat → Tab W32
  | 0 => []
  | n + 1 => (calBase n, 0x101) :: (calBase n + (calLen n - 1),
      BitVec.ofNat 32 (crc32 (0x101 :: List.replicate (calLen n - 2) 0))) :: calTables n

theorem calTables_word (n r i : Nat) (hi : i < calLen r) :
    tabGet 0 (calTables n) (calBase r + i) = if r < n then
      (if i = 0 then 0x101 else if i = calLen r - 1 then
        BitVec.ofNat 32 (crc32 (0x101 :: List.replicate (calLen r - 2) 0)) else 0) else 0 := by
  induction n with
  | zero => rfl
  | succ n ih =>
    by_cases h : r = n
    · subst h
      have hl : 2 ≤ calLen r := by unfold calLen; split <;> omega
      simp only [calTables, tabGet, tabFind] at ih ⊢
      by_cases h0 : i = 0
      · simp [h0]
      · by_cases h1 : i = calLen r - 1
        · subst h1
          simp [h0]
        · have a : calBase r ≠ calBase r + i := by omega
          have b : calBase r + (calLen r - 1) ≠ calBase r + i := by omega
          have := ih
          simp only [Nat.lt_irrefl, if_false] at this
          rw [if_neg a, if_neg b, if_pos (Nat.lt_succ_self _), if_neg h0, if_neg h1]
          exact this
    · have d : calBase n + calLen n ≤ calBase r ∨ calBase r + calLen r ≤ calBase n := by
        unfold calBase calLen
        rcases Nat.lt_or_ge n 256 with h1 | h1 <;> rcases Nat.lt_or_ge r 256 with h2 | h2 <;>
          simp only [h1, h2, if_true, Nat.not_lt.mpr, if_false] <;> omega
      have hl : 2 ≤ calLen n := by unfold calLen; split <;> omega
      have a : calBase n ≠ calBase r + i := by omega
      have b : calBase n + (calLen n - 1) ≠ calBase r + i := by omega
      have c : r < n + 1 ↔ r < n := by omega
      simp only [calTables, tabGet, tabFind] at ih ⊢
      simp only [a, b, if_false, c]
      exact ih

theorem calTables_good (r : Nat) (h : r < 272) :
    calReason (fun i => tabGet 0 (calTables 272) (calBase r + i)) (calLen r) = 0 := by
  have hl : 2 ≤ calLen r := by unfold calLen; split <;> omega
  have w0 : tabGet 0 (calTables 272) (calBase r + 0) = 0x101 := by rw [calTables_word _ _ _ (by omega)]; simp [h]
  have wl : (List.range (calLen r - 1)).map (fun i => tabGet 0 (calTables 272) (calBase r + i)) =
      0x101 :: List.replicate (calLen r - 2) 0 := by
    apply List.ext_getElem
    · simp; omega
    · intro i h1 h2
      simp at h1
      rw [List.getElem_map, List.getElem_range, calTables_word _ _ _ (by omega), if_pos h]
      cases i with
      | zero => rfl
      | succ i => rw [if_neg (by omega), if_neg (by omega)]; simp
  have wn : (tabGet 0 (calTables 272) (calBase r + (calLen r - 1))).toNat = crc32 (0x101 :: List.replicate (calLen r - 2) 0) := by
    rw [calTables_word _ _ _ (by omega), if_pos h, if_neg (by omega), if_pos rfl, BitVec.toNat_ofNat]
    exact Nat.mod_eq_of_lt (crc32_lt _)
  unfold calReason
  rw [Nat.add_zero] at w0
  simp only [wl, wn, Nat.add_zero, w0, ne_eq, not_true, if_false,
    show fget (257 : W32) 3 0 = 1 from by decide, show fget (257 : W32) 15 8 = 1 from by decide]
  simp

theorem calTables_commit (s : State) (h : s.calS = calTables 272) (hf : s.calSFac = false) : s.calBad = none := by
  refine List.findSome?_eq_none_iff.mpr fun r hr => ?_
  have e : (fun i => s.calShadow (calBase r + i)) = fun i => tabGet 0 (calTables 272) (calBase r + i) := by
    funext i
    simp [calShadow, h, hf]
  simp only [e, calTables_good r (List.mem_range.mp hr), if_true]

theorem slot_witness : ∃ (s : State) (v : W32) (k : ℕ), Reaches s calPg ∧ s.flag calPg F.CAL_STS_SAVE_BUSY = false ∧
    BitVec.getLsbD v 0 = false ∧ s.newestSlot = some k := by
  obtain ⟨c1, c2, h⟩ := slot_found
  have f : (slotState c1 c2).flag calPg F.CAL_STS_SAVE_BUSY = uS.flag calPg F.CAL_STS_SAVE_BUSY := rfl
  have a : (slotState c1 c2).offLink = uS.offLink := rfl
  have b : (slotState c1 c2).answers calPg = uS.answers calPg := rfl
  exact ⟨slotState c1 c2, 0, 0, ⟨a.trans (by decide +kernel), rfl, b.trans (by decide +kernel)⟩, f.trans (by decide +kernel), rfl, h⟩

/-- The one queued access is the best one. -/
theorem issue_best (k' : ℕ) (y' : QAcc) (a' : ℕ) (h : ((withQ { queue := [aQAcc 0] }).xbrOf 0).queue[k']? = some y' ∧
    hbmPch y'.a.addr = 0 ∧ (withQ { queue := [aQAcc 0] }).issueAddr 0 0 y' = some a') : k' = 0 ∧ y' = aQAcc 0 ∧ a' = 0 := by
  have h1 : ([aQAcc 0])[k']? = some y' := h.1
  cases k' with
  | succ k => cases h1
  | zero =>
    cases h1
    have h2 : some 0 = some a' := h.2.2
    cases h2
    exact ⟨rfl, rfl, rfl⟩

theorem witness_FaultBitsClearAndClassesApply :
    (∃ (s : State) (p : PageNo) (b : ℕ), b < 32 ∧ Readable s (BitVec.toNat p) ∧ s.fltBit (BitVec.toNat p) b = false) ∧
    (∃ (s : State) (p : PageNo) (b : ℕ), b < 32 ∧ Readable s (BitVec.toNat p) ∧ s.fltBit (BitVec.toNat p) b = true ∧
        s.causeHolds (BitVec.toNat p) b = false) ∧
    (∃ (s : State) (p : PageNo) (b : ℕ), b < 32 ∧ Readable s (BitVec.toNat p) ∧ s.fltBit (BitVec.toNat p) b = true ∧
        s.causeHolds (BitVec.toNat p) b = true) ∧
    (∃ (s : State) (p : PageNo) (v : W32),
      let b : ℕ := fget v 4 0
      let c : ℕ := fget v 9 8
      pagePresent (BitVec.toNat p) = true ∧ Reaches s (BitVec.toNat p) ∧ (c = 3 ∨ s.locked (BitVec.toNat p) = true ∧
          (s.cls (BitVec.toNat p) b ≠ c ∨ s.get (BitVec.toNat p) F.PG_FLT_CLASS_SRC ≠ b))) ∧
    (∃ (s : State) (p : PageNo) (v : W32),
      let b : ℕ := fget v 4 0
      let c : ℕ := fget v 9 8
      pagePresent (BitVec.toNat p) = true ∧ Reaches s (BitVec.toNat p) ∧
          (¬(c = 3 ∨ s.locked (BitVec.toNat p) = true ∧
          (s.cls (BitVec.toNat p) b ≠ c ∨ s.get (BitVec.toNat p) F.PG_FLT_CLASS_SRC ≠ b)))) ∧
    (∃ (s : State), s.flt.traps = []) ∧
    (∃ (s : State) (n : W32) (r : List W32), s.flt.traps = n :: r) ∧
    (∃ (s : State), s.offLink = false ∧ s.flt.log = []) ∧
    (∃ (s : State) (r : List W32) (l : List (List W32)), s.offLink = false ∧ s.flt.log = r :: l ∧
        s.flt.logLost = 0) :=
  ⟨⟨uS, 0, 0, by decide +kernel⟩,
   ⟨uS.rise 256 0, 256, 0, by decide +kernel⟩,
   ⟨uS.rise 256 6, 256, 6, by decide +kernel⟩,
   ⟨uS, 0, 0xffffffff, by decide +kernel⟩,
   ⟨uS, 0, 0x0, by decide +kernel⟩,
   ⟨rS, by decide +kernel⟩,
   ⟨{ rS with flt := { traps := [3], log := [[0, 0, 0, 0x4000, 3, 0, 0, 0]] } }, _, _, rfl⟩,
   ⟨uS, by decide +kernel⟩,
   ⟨{ uS with flt := { log := [[]] } }, [], [], by decide +kernel⟩⟩

theorem witness_LevelPortFramesComplete :
    (∃ (s : State) (e : Eye) (v : W32),
      let p : ℕ := pg T.dds e.val
      let u : State := s.writeReg p 320 (v ||| 2147483648) false
      let op : ℕ := u.get p F.DDS_PEL_TX_OP
      Reaches s (pg T.dds e.val) ∧ op ≠ 1 ∧ op ≠ 2) ∧
    (∃ (s : State) (e : Eye) (v : W32),
      let p : ℕ := pg T.dds e.val
      let u : State := s.writeReg p 320 (v ||| 2147483648) false
      let op : ℕ := u.get p F.DDS_PEL_TX_OP
      Reaches s (pg T.dds e.val) ∧ (op = 1 ∨ op = 2) ∧ (u.ddsOf e.val).sw ≠ none) ∧
    (∃ (s : State) (e : Eye) (v : W32),
      let p : ℕ := pg T.dds e.val
      let u : State := s.writeReg p 320 (v ||| 2147483648) false
      let op : ℕ := u.get p F.DDS_PEL_TX_OP
      Reaches s (pg T.dds e.val) ∧ (op = 1 ∨ op = 2) ∧ (u.ddsOf e.val).sw = none) ∧
    (∃ (s : State) (e : Eye),
      let d : DdsDyn := s.ddsOf e.val
      d.frame ≠ none ∨ ampNext d = none ∧ d.sw = none) ∧
    (∃ (s : State) (e : Eye) (g : PelFrame) (t : ℕ),
      let d : DdsDyn := s.ddsOf e.val
      let ts : ℕ := (max d.free t + 127) / 128 * 128
      d.frame = none ∧ d.sw = some (g, t) ∧ (∀ (f : PelFrame) (ta : ℕ), ampNext d = some (f, ta) → ts < ta)) ∧
    (∃ (s : State) (e : Eye) (f : PelFrame) (ta : ℕ),
      let d : DdsDyn := s.ddsOf e.val
      d.frame = none ∧ ampNext d = some (f, ta) ∧
          (∀ (g : PelFrame) (t : ℕ), d.sw = some (g, t) → ta ≤ (max d.free t + 127) / 128 * 128)) ∧
    (∃ (s : State) (e : Eye) (f : PelFrame) (r : List PelFrame),
      let d : DdsDyn := s.ddsOf e.val
      d.ampCur = f :: r) ∧
    (∃ (s : State) (e : Eye) (f : PelFrame) (r : List PelFrame),
      let d : DdsDyn := s.ddsOf e.val
      d.ampCur = [] ∧ d.amp = f :: r) ∧
    (∃ (s : State) (e : Eye),
      let d : DdsDyn := s.ddsOf e.val
      d.frame = none) ∧
    (∃ (s : State) (e : Eye) (f : PelFrame) (up : ℕ),
      let d : DdsDyn := s.ddsOf e.val
      d.frame = some (f, up) ∧ f.sw = true ∧ f.word / 2 ^ 28 = 2) ∧
    (∃ (s : State) (e : Eye) (f : PelFrame) (up : ℕ),
      let d : DdsDyn := s.ddsOf e.val
      d.frame = some (f, up) ∧ f.sw = true ∧ f.word / 2 ^ 28 ≠ 2) ∧
    (∃ (s : State) (e : Eye) (f : PelFrame) (up : ℕ),
      let d : DdsDyn := s.ddsOf e.val
      let u : State := (s.upTo (up * 1024)).setDds e.val { d with frame := none, free := up + 256 }
      d.frame = some (f, up) ∧ f.sw = false ∧ (f.seg = none ∧ u.hopDev (e.val) f.hop < up * 1024)) ∧
    (∃ (s : State) (e : Eye) (f : PelFrame) (up : ℕ),
      let d : DdsDyn := s.ddsOf e.val
      let u : State := (s.upTo (up * 1024)).setDds e.val { d with frame := none, free := up + 256 }
      d.frame = some (f, up) ∧ f.sw = false ∧ (¬(f.seg = none ∧ u.hopDev (e.val) f.hop < up * 1024))) :=
  ⟨⟨uS, 0, 0x0, by decide +kernel⟩,
   ⟨withDds 0 { sw := some (⟨0, true, 0, none⟩, 3) }, 0, 0x10000000, by decide +kernel⟩,
   ⟨uS, 0, 0x10000000, by decide +kernel⟩,
   ⟨rS, 0, by decide +kernel⟩,
   ⟨withDds 0 { sw := some (⟨0, true, 0, none⟩, 3) }, 0, _, _, rfl, rfl,
       fun f t h => by have h1 : (none : Option (PelFrame × Nat)) = some (f, t) := h; cases h1⟩,
   ⟨withDds 0 { amp := [⟨0, false, 9, none⟩] }, 0, _, _, rfl, rfl,
       fun g t h => by have h1 : (none : Option (PelFrame × Nat)) = some (g, t) := h; cases h1⟩,
   ⟨withDds 0 { ampCur := [⟨0, false, 9, none⟩] }, 0, _, _, rfl⟩,
   ⟨withDds 0 { amp := [⟨0, false, 9, none⟩] }, 0, _, _, rfl, rfl⟩,
   ⟨rS, 0, by decide +kernel⟩,
   ⟨withDds 0 { frame := some (⟨2 ^ 29, true, 0, none⟩, 3) }, 0, _, _, rfl, by decide +kernel⟩,
   ⟨withDds 0 { frame := some (⟨2 ^ 28, true, 0, none⟩, 3) }, 0, _, _, rfl, by decide +kernel⟩,
   ⟨withDds 0 { frame := some (⟨0, false, 0, none⟩, 3) }, 0, ⟨0, false, 0, none⟩, 3, by decide +kernel⟩,
   ⟨withDds 0 { frame := some (⟨0, false, 5, none⟩, 3) }, 0, ⟨0, false, 5, none⟩, 3, by decide +kernel⟩⟩

theorem witness_HostApertureReachesHbm :
    (∃ (s : State), s.offLink = true) ∧
    (∃ (s : State), s.offLink = false ∧ s.bar2On = false) ∧
    (∃ (s : State), s.offLink = false ∧ s.bar2On = true) ∧
    (∃ (s : State) (ep : Bool),
      let w : State := if ep = true then s.poisonRx else s
      s.offLink = false ∧ w.bar2On = false) ∧
    (∃ (s : State) (ep : Bool),
      let w : State := if ep = true then s.poisonRx else s
      s.offLink = false ∧ w.bar2On = true) ∧
    (∃ (s : State), s.offLink = false) :=
  ⟨⟨{ uS with pci := { d3 := true } }, by decide +kernel⟩,
   ⟨uS, by decide +kernel⟩,
   ⟨on (on (atStage 3) (memPg 0)) (memPg 1), by decide +kernel⟩,
   ⟨uS, false, by decide +kernel⟩,
   ⟨on (on (atStage 3) (memPg 0)) (memPg 1), false, by decide +kernel⟩,
   ⟨uS, by decide +kernel⟩⟩

theorem witness_StepRunsFrontCommand :
    (∃ (s : State), s.pending = [] ∧ s.tlOn = true) ∧
    (∃ (s : State), s.pending = [] ∧ s.tlOn = false) :=
  ⟨⟨{ rS with tlOn := true }, by decide +kernel⟩,
   ⟨rS, by decide +kernel⟩⟩

theorem witness_ThermalLimitsAndPowerLossStopTheDevice :
    (∃ (n : Fin 26), 24 ≤ n.val) ∧
    (∃ (s : State) (n : Fin 26) (raw : ℤ) (odd : Bool),
      let v : ℕ := min raw.toNat 2047
      let d : Sensor := s.sensorOf n.val
      let u : State :=
          (s.setSensor n.val { d with invalid := d.invalid + 1, valid := 0 }).put thmPg (tempF F.THM_TEMP_VALID n.val) false
      n.val < 24 ∧ (odd = true ∨ ∃ w, (s.sensorOf n.val).last = some w ∧ (w + 80 < v ∨ v + 80 < w)) ∧
          (d.invalid < 2 ∨ u.sensorBad n.val = true)) ∧
    (∃ (s : State) (n : Fin 26) (raw : ℤ) (odd : Bool),
      let v : ℕ := min raw.toNat 2047
      let d : Sensor := s.sensorOf n.val
      let u : State :=
          (s.setSensor n.val { d with invalid := d.invalid + 1, valid := 0 }).put thmPg (tempF F.THM_TEMP_VALID n.val) false
      n.val < 24 ∧ (odd = true ∨ ∃ w, (s.sensorOf n.val).last = some w ∧ (w + 80 < v ∨ v + 80 < w)) ∧ 2 ≤ d.invalid ∧
          u.sensorBad n.val = false) ∧
    (∃ (s : State) (n : Fin 26) (raw : ℤ) (odd : Bool),
      let v : ℕ := min raw.toNat 2047
      n.val < 24 ∧ odd = false ∧ (¬∃ w, (s.sensorOf n.val).last = some w ∧ (w + 80 < v ∨ v + 80 < w))) ∧
    (∃ (n : ℕ) (v : ℕ), n < 24 ∧ 920 ≤ v) ∧
    (∃ (n : ℕ) (v : ℕ) (stop : ℕ), (24 ≤ n ∨ v < 920) ∧ v < stop) ∧
    (∃ (n : ℕ) (v : ℕ) (stop : ℕ), (24 ≤ n ∨ v < 920) ∧ stop ≤ v) ∧
    (∃ (s : State) (scope : ℕ), s.inHeel scope = true) ∧
    (∃ (s : State) (scope : ℕ) (src : ℕ) (x : ℕ × ℕ × ℕ), s.inHeel scope = false ∧
        List.find? (fun x ↦ x.2.1 == scope || x.2.1 == 31) s.thm.stops = some x ∧ (x.1, x.2.1, src) ∉ s.thm.stops) ∧
    (∃ (s : State), s.thm.tripT = none) ∧
    (∃ (s : State) (t : ℕ), s.thm.tripT = some t) ∧
    (∃ (s : State), s.thm.stops = []) ∧
    (∃ (s : State) (t : ℕ) (scope : ℕ) (src : ℕ) (r : List (ℕ × ℕ × ℕ)), s.thm.stops = (t, scope, src) :: r) :=
  ⟨⟨25, by decide +kernel⟩,
   ⟨rS, 0, 0, true, by decide +kernel⟩,
   ⟨rS.setSensor 0 { invalid := 2 }, 0, 0, true, by decide +kernel⟩,
   ⟨rS, 0, 0, false, by decide +kernel⟩,
   ⟨0, 1000, by decide +kernel⟩,
   ⟨0, 0, 1, by decide +kernel⟩,
   ⟨0, 0, 0, by decide⟩,
   ⟨rS.put fltPg F.FLT_STS_DEV_HEEL true, 0, by decide +kernel⟩,
   ⟨{ rS with thm := { stops := [(3, 31, 0)] } }, 0, 1, (3, 31, 0), by decide +kernel⟩,
   ⟨rS, by decide +kernel⟩,
   ⟨{ rS with thm := { tripT := some 7 } }, _, rfl⟩,
   ⟨rS, by decide +kernel⟩,
   ⟨{ rS with thm := { stops := [(3, 31, 0)] } }, _, _, _, _, rfl⟩⟩

theorem witness_ResetsReturnRegisters :
    (∃ (s : State), s.boot.test = true) ∧
    (∃ (s : State), s.boot.test = false ∧ s.pci.perstLow = false) ∧
    (∃ (s : State), s.boot.test = false ∧ s.pci.perstLow = true) ∧
    (∃ (s : State), s.boot.held = true) ∧
    (∃ (s : State), s.boot.held = false) ∧
    (∃ (s : State), Reaches s glbPg ∧ s.boot.held = false) ∧
    (∃ (s : State), s.pci.perstLow = true ∧ s.boot.held = false) ∧
    (∃ (s : State), s.pci.perstLow = false ∨ s.boot.held = true) :=
  ⟨⟨{ rS with boot := { test := true } }, rfl⟩,
   ⟨rS, by decide⟩,
   ⟨{ rS with pci := { perstLow := true } }, by decide +kernel⟩,
   ⟨{ rS with boot := { held := true } }, rfl⟩,
   ⟨{ rS with pci := { perstLow := true } }, by decide +kernel⟩,
   ⟨uS, by decide +kernel⟩,
   ⟨{ rS with pci := { perstLow := true } }, by decide +kernel⟩,
   ⟨rS, by decide +kernel⟩⟩

theorem witness_CalibrationTargetsSlewAndSave :
    (∃ (s : State), s.stage < 3) ∧
    (∃ (s : State), 3 ≤ s.stage ∧ s.flag calPg F.CAL_CTL_HOLD = true) ∧
    (∃ (s : State) (e : Eye),
      let w : W32 := s.rd thmPg (320 + 4 * e.val)
      3 ≤ s.stage ∧ s.flag calPg F.CAL_CTL_HOLD = false ∧
          (fget w 11 11 = 0 ∨ BitVec.getLsbD (s.rd thmPg 272) e.val = true)) ∧
    (∃ (s : State) (e : Eye),
      let w : W32 := s.rd thmPg (320 + 4 * e.val)
      let t : ℕ := fget w 10 0
      3 ≤ s.stage ∧ s.flag calPg F.CAL_CTL_HOLD = false ∧
          (¬(fget w 11 11 = 0 ∨ BitVec.getLsbD (s.rd thmPg 272) e.val = true)) ∧
          (∃ k < 16,
          ((s.setBitAt calPg 272 (16 + e.val) false).calTargets (e.val) t).calOutside (16 * e.val + k) t = true)) ∧
    (∃ (s : State) (e : Eye),
      let w : W32 := s.rd thmPg (320 + 4 * e.val)
      let t : ℕ := fget w 10 0
      3 ≤ s.stage ∧ s.flag calPg F.CAL_CTL_HOLD = false ∧
          (¬(fget w 11 11 = 0 ∨ BitVec.getLsbD (s.rd thmPg 272) e.val = true)) ∧
          (¬∃ k < 16,
          ((s.setBitAt calPg 272 (16 + e.val) false).calTargets (e.val) t).calOutside (16 * e.val + k) t = true)) ∧
    (∃ (s : State), s.tlOn = false) ∧
    (∃ (s : State), s.tlOn = true) ∧
    (∃ (s : State) (v : W32),
      let i : ℕ := s.get calPg F.CAL_WIN_IDX_WORD
      Reaches s calPg ∧ (s.flag calPg F.CAL_STS_COPY_BUSY = true ∨ s.locked calPg = true ∧ s.calShadow i ≠ v)) ∧
    (∃ (s : State) (v : W32),
      let i : ℕ := s.get calPg F.CAL_WIN_IDX_WORD
      Reaches s calPg ∧ (¬(s.flag calPg F.CAL_STS_COPY_BUSY = true ∨ s.locked calPg = true ∧ s.calShadow i ≠ v)) ∧
          i < 50176) ∧
    (∃ (s : State) (v : W32),
      let i : ℕ := s.get calPg F.CAL_WIN_IDX_WORD
      Reaches s calPg ∧ (¬(s.flag calPg F.CAL_STS_COPY_BUSY = true ∨ s.locked calPg = true ∧ s.calShadow i ≠ v)) ∧
          50176 ≤ i) ∧
    (∃ (s : State),
      let i : ℕ := s.get calPg F.CAL_WIN_IDX_WORD
      Readable s calPg ∧ 50176 ≤ i) ∧
    (∃ (s : State),
      let i : ℕ := s.get calPg F.CAL_WIN_IDX_WORD
      let live : Bool := s.flag calPg F.CAL_WIN_IDX_LIVE
      let err : ℕ := s.eccOf (if live = true then 6 else 9) i
      Readable s calPg ∧ i < 50176 ∧ err = 0) ∧
    (∃ (s : State),
      let i : ℕ := s.get calPg F.CAL_WIN_IDX_WORD
      let live : Bool := s.flag calPg F.CAL_WIN_IDX_LIVE
      let err : ℕ := s.eccOf (if live = true then 6 else 9) i
      Readable s calPg ∧ i < 50176 ∧ err = 1) ∧
    (∃ (s : State),
      let i : ℕ := s.get calPg F.CAL_WIN_IDX_WORD
      let live : Bool := s.flag calPg F.CAL_WIN_IDX_LIVE
      let err : ℕ := s.eccOf (if live = true then 6 else 9) i
      Readable s calPg ∧ i < 50176 ∧ 2 ≤ err) ∧
    (∃ (i : ℕ) (k : ℕ), k ≠ i) ∧
    (∃ (s : State) (v : W32), Reaches s calPg ∧ s.flag calPg F.CAL_STS_SAVE_BUSY = true ∧
        BitVec.getLsbD v 1 = false) ∧
    (∃ (s : State) (v : W32), Reaches s calPg ∧ s.flag calPg F.CAL_STS_SAVE_BUSY = false ∧
        BitVec.getLsbD v 1 = false) ∧
    (∃ (s : State) (v : W32), Reaches s calPg ∧ s.flag calPg F.CAL_STS_SAVE_BUSY = true ∧
        BitVec.getLsbD v 0 = false) ∧
    (∃ (s : State) (v : W32), Reaches s calPg ∧ s.flag calPg F.CAL_STS_SAVE_BUSY = false ∧
        BitVec.getLsbD v 0 = false ∧ s.newestSlot = none) ∧
    (∃ (s : State) (v : W32) (k : ℕ), Reaches s calPg ∧ s.flag calPg F.CAL_STS_SAVE_BUSY = false ∧
        BitVec.getLsbD v 0 = false ∧ s.newestSlot = some k) ∧
    (∃ (s : State), Reaches s calPg) ∧
    (∃ (s : State), s.flash.save = none) ∧
    (∃ (s : State) (k : ℕ), s.flash.save = some k) :=
  ⟨⟨rS, by decide +kernel⟩,
   ⟨(atStage 3).put calPg F.CAL_CTL_HOLD true, by decide +kernel⟩,
   ⟨inGroup (aGroup .running), 0, by decide +kernel⟩,
   ⟨(atStage 3).wr thmPg 320 0xFFF, 0, by decide +kernel⟩,
   ⟨(atStage 3).wr thmPg 320 0x800, 0, by decide +kernel⟩,
   ⟨rS, by decide +kernel⟩,
   ⟨{ rS with tlOn := true }, by decide +kernel⟩,
   ⟨uS.put calPg F.CAL_STS_COPY_BUSY true, 0x0, by decide +kernel⟩,
   ⟨uS, 0, by decide +kernel⟩,
   ⟨uS.set calPg F.CAL_WIN_IDX_WORD 50176, 0, by decide +kernel⟩,
   ⟨uS.set calPg F.CAL_WIN_IDX_WORD 50176, by decide +kernel⟩,
   ⟨uS, by decide +kernel⟩,
   ⟨{ uS with upset := [(9 * 2 ^ 40, 1)] }, by decide +kernel⟩,
   ⟨{ uS with upset := [(9 * 2 ^ 40, 2)] }, by decide +kernel⟩,
   ⟨0, 1, by decide⟩,
   ⟨uS.put calPg F.CAL_STS_SAVE_BUSY true, 0x0, by decide +kernel⟩,
   ⟨uS, 0x0, by decide +kernel⟩,
   ⟨uS.put calPg F.CAL_STS_SAVE_BUSY true, 0x0, by decide +kernel⟩,
   ⟨uS, 0, by decide +kernel⟩,
   slot_witness,
   ⟨uS, by decide +kernel⟩,
   ⟨rS, by decide +kernel⟩,
   ⟨{ rS with flash := { save := some 0 } }, _, rfl⟩⟩

theorem witness_TestPortTakesAndSmbusAnswers :
    (∃ (s : State), s.jtag.taken = false ∧ s.boot.held = false) ∧
    (∃ (s : State), s.smb = none ∨ s.stage = 0) ∧
    (∃ (s : State), s.smb ≠ none ∧ s.stage ≠ 0) ∧
    (∃ (s : State), s.smb ≠ none ∧ s.stage ≠ 0 ∧ s.validTemps = []) ∧
    (∃ (s : State) (t : ℕ) (r : List ℕ), s.smb ≠ none ∧ s.stage ≠ 0 ∧ s.validTemps = t :: r) :=
  ⟨⟨rS, by decide +kernel⟩,
   ⟨rS, by decide +kernel⟩,
   ⟨{ (atStage 1) with smb := some 5 }, by decide +kernel⟩,
   ⟨{ (atStage 1) with smb := some 5 }, by decide +kernel⟩,
   ⟨{ (atStage 1).put thmPg (tempF F.THM_TEMP_VALID 0) true with smb := some 5 }, _, _, by decide +kernel,
       by decide +kernel, rfl⟩⟩

theorem witness_EventQueueFillsTheRing :
    (∃ (s : State), Readable s evqPg ∧ s.flag evqPg F.EVQ_CTL_MODE = true) ∧
    (∃ (s : State), Readable s evqPg ∧ s.flag evqPg F.EVQ_CTL_MODE = false ∧ s.evq.q = []) ∧
    (∃ (s : State) (bad : Bool) (ws : List W32) (slot : Option ℕ) (i : ℕ), Readable s evqPg ∧
        s.flag evqPg F.EVQ_CTL_MODE = false ∧ evNext s.evq.q = some i ∧ s.evq.q[i]? = some (ws, slot) ∧ bad = false) ∧
    (∃ (s : State) (bad : Bool) (ws : List W32) (slot : Option ℕ) (i : ℕ), Readable s evqPg ∧
        s.flag evqPg F.EVQ_CTL_MODE = false ∧ evNext s.evq.q = some i ∧ s.evq.q[i]? = some (ws, slot) ∧ bad = true) ∧
    (∃ (s : State), s.evq.q.length < 2) ∧
    (∃ (s : State), 2 ≤ s.evq.q.length) ∧
    (∃ (s : State) (ws : List W32) (o : Option ℕ) (i : ℕ),
      let n : ℕ := 64 * s.get evqPg F.EVQ_RING_SIZE_SIZE64
      let wp : ℕ := s.get evqPg F.EVQ_RING_WP_WP
      s.flag evqPg F.EVQ_CTL_MODE = true ∧ n ≠ 0 ∧ (wp + 1) % n ≠ s.get evqPg F.EVQ_RING_RP_RP % n ∧
          s.pci.linkUp = true ∧ s.pci.d3 = false ∧ evNext s.evq.q = some i ∧ s.evq.q[i]? = some (ws, o)) ∧
    (∃ (s : State), 4 ≤ s.sch.trace.length) ∧
    (∃ (s : State), s.sch.trace.length < 4) ∧
    (∃ (s : State), s.sch.trace.length % 4 ≠ 0) ∧
    (∃ (s : State), s.sch.trace.length % 4 = 0) ∧
    (∃ (s : State), s.evq.q.length = 1 ∧ s.evRingOpen = true) ∧
    (∃ (s : State), s.evq.q.length ≠ 1 ∨ s.evRingOpen = false) ∧
    (∃ (s : State) (c : Chan),
      let u : State := s.gateRelease c.val
      let n : ℕ := (u.awlOf c.val).q.length
      n % 16 = 0) ∧
    (∃ (s : State) (c : Chan),
      let u : State := s.gateRelease c.val
      let n : ℕ := (u.awlOf c.val).q.length
      n % 16 ≠ 0) ∧
    (∃ (s : State) (e : Eye), (s.eyeOf e.val).flogQ.length = 1) ∧
    (∃ (s : State) (e : Eye), (s.eyeOf e.val).flogQ.length ≠ 1) ∧
    (∃ (s : State) (q : Quad),
      let d : TrgDyn := s.trgOf q.val
      (¬s.acqBytes q.val % 64 ≠ 0) ∧ (¬d.marks.length % 4 ≠ 0)) ∧
    (∃ (s : State) (q : Quad),
      let d : TrgDyn := s.trgOf q.val
      s.acqBytes q.val % 64 ≠ 0 ∧ (¬d.marks.length % 4 ≠ 0)) ∧
    (∃ (s : State) (q : Quad),
      let d : TrgDyn := s.trgOf q.val
      (¬s.acqBytes q.val % 64 ≠ 0) ∧ d.marks.length % 4 ≠ 0) ∧
    (∃ (s : State) (q : Quad),
      let d : TrgDyn := s.trgOf q.val
      s.acqBytes q.val % 64 ≠ 0 ∧ d.marks.length % 4 ≠ 0) ∧
    (∃ (s : State), s.sch.trace = []) :=
  ⟨⟨(withEvq 1).put evqPg F.EVQ_CTL_MODE true, by decide +kernel⟩,
   ⟨uS, by decide +kernel⟩,
   ⟨withEvq 1, false, [0, 1, 0, 0, 0, 0, 0, 0], none, 0, by decide +kernel⟩,
   ⟨withEvq 1, true, [0, 1, 0, 0, 0, 0, 0, 0], none, 0, by decide +kernel⟩,
   ⟨rS, by decide +kernel⟩,
   ⟨withEvq 2, by decide +kernel⟩,
   ⟨{ (((withEvq 1).put evqPg F.EVQ_CTL_MODE true).set evqPg F.EVQ_RING_SIZE_SIZE64 1) with pci := { linkUp := true } }, [0, 1, 0, 0, 0, 0, 0, 0], none, 0, by decide +kernel⟩,
   ⟨{ rS with sch := { trace := List.replicate 4 [] } }, by decide +kernel⟩,
   ⟨rS, by decide +kernel⟩,
   ⟨{ rS with sch := { trace := [[]] } }, by decide +kernel⟩,
   ⟨rS, by decide +kernel⟩,
   ⟨{ (((withEvq 1).put evqPg F.EVQ_CTL_MODE true).set evqPg F.EVQ_RING_SIZE_SIZE64 1) with pci := { linkUp := true } }, by decide +kernel⟩,
   ⟨rS, by decide +kernel⟩,
   ⟨rS, 0, by decide +kernel⟩,
   ⟨rS.setAwl 0 { q := [0] }, 0, by decide +kernel⟩,
   ⟨withEye { flogQ := [[0]] }, 0, by decide +kernel⟩,
   ⟨rS, 0, by decide +kernel⟩,
   ⟨rS, 0, by decide +kernel⟩,
   ⟨rS.setTrg 0 { q := [⟨0, [0], 0, 0⟩] }, 0, by decide +kernel⟩,
   ⟨rS.setTrg 0 { marks := [[0]] }, 0, by decide +kernel⟩,
   ⟨rS.setTrg 0 { q := [⟨0, [0], 0, 0⟩], marks := [[0]] }, 0, by decide +kernel⟩,
   ⟨rS, by decide +kernel⟩⟩

theorem witness_IntervalUnitsGiveResults :
    (∃ (s : State) (e : Eye) (n : Fin 4) (v : W32),
      let p : ℕ := pg T.tdc e.val
      let i : ℕ := 4 * e.val + n.val
      let o : ℕ := 1024 + 64 * n.val
      let a : State := s.writeReg p o (v ||| 1) false
      let d : IuDyn :=
          { (a.iuOf i) with ctl := a.rd p o, src := a.rd p (o + 4), tmo := a.rd p (o + 8), ta := a.now + 65536, held := none, t0 := 0, deadline := 0, seq := 0, miss := false, members := [], excl := 0, gs := 0, ge := none, edges := [], owner := none }
      Reaches s (pg T.tdc e.val) ∧ BitVec.getLsbD v 1 = false ∧ (¬(a.enabled p = true ∧ 2 ≤ a.stage ∧
          (a.iuState i = 0 ∨ a.iuState i = 5) ∧ d.mode ≠ 3 ∧ ¬(d.mode = 1 ∧ d.gated = true ∧ d.startCh % 16 ≠ 0)))) ∧
    (∃ (s : State) (e : Eye) (n : Fin 4) (v : W32),
      let p : ℕ := pg T.tdc e.val
      let i : ℕ := 4 * e.val + n.val
      let o : ℕ := 1024 + 64 * n.val
      let a : State := s.writeReg p o (v ||| 1) false
      let d : IuDyn :=
          { (a.iuOf i) with ctl := a.rd p o, src := a.rd p (o + 4), tmo := a.rd p (o + 8), ta := a.now + 65536, held := none, t0 := 0, deadline := 0, seq := 0, miss := false, members := [], excl := 0, gs := 0, ge := none, edges := [], owner := none }
      Reaches s (pg T.tdc e.val) ∧ BitVec.getLsbD v 1 = false ∧ (a.enabled p = true ∧ 2 ≤ a.stage ∧
          (a.iuState i = 0 ∨ a.iuState i = 5) ∧ d.mode ≠ 3 ∧ ¬(d.mode = 1 ∧ d.gated = true ∧ d.startCh % 16 ≠ 0)) ∧
          d.mode ≠ 1) ∧
    (∃ (s : State) (e : Eye) (n : Fin 4) (v : W32),
      let p : ℕ := pg T.tdc e.val
      let i : ℕ := 4 * e.val + n.val
      let o : ℕ := 1024 + 64 * n.val
      let a : State := s.writeReg p o (v ||| 1) false
      let d : IuDyn :=
          { (a.iuOf i) with ctl := a.rd p o, src := a.rd p (o + 4), tmo := a.rd p (o + 8), ta := a.now + 65536, held := none, t0 := 0, deadline := 0, seq := 0, miss := false, members := [], excl := 0, gs := 0, ge := none, edges := [], owner := none }
      Reaches s (pg T.tdc e.val) ∧ BitVec.getLsbD v 1 = false ∧ (a.enabled p = true ∧ 2 ≤ a.stage ∧
          (a.iuState i = 0 ∨ a.iuState i = 5) ∧ d.mode ≠ 3 ∧ ¬(d.mode = 1 ∧ d.gated = true ∧ d.startCh % 16 ≠ 0)) ∧
          d.mode = 1 ∧ d.gated = true) ∧
    (∃ (s : State) (e : Eye) (n : Fin 4) (v : W32),
      let p : ℕ := pg T.tdc e.val
      let i : ℕ := 4 * e.val + n.val
      let o : ℕ := 1024 + 64 * n.val
      let a : State := s.writeReg p o (v ||| 1) false
      let d : IuDyn :=
          { (a.iuOf i) with ctl := a.rd p o, src := a.rd p (o + 4), tmo := a.rd p (o + 8), ta := a.now + 65536, held := none, t0 := 0, deadline := 0, seq := 0, miss := false, members := [], excl := 0, gs := 0, ge := none, edges := [], owner := none }
      Reaches s (pg T.tdc e.val) ∧ BitVec.getLsbD v 1 = false ∧ (a.enabled p = true ∧ 2 ≤ a.stage ∧
          (a.iuState i = 0 ∨ a.iuState i = 5) ∧ d.mode ≠ 3 ∧ ¬(d.mode = 1 ∧ d.gated = true ∧ d.startCh % 16 ≠ 0)) ∧
          d.mode = 1 ∧ d.gated = false) ∧
    (∃ (s : State) (e : Eye) (v : W32), Reaches s (pg T.tdc e.val) ∧ BitVec.getLsbD v 1 = true) ∧
    (∃ (s : State) (e : Eye) (n : Fin 4) (v : W32),
      let p : ℕ := pg T.tdc e.val
      let i : ℕ := 4 * e.val + n.val
      let o : ℕ := 1024 + 64 * n.val
      let w : State := s.writeReg p o (v ||| 2) false
      Reaches s (pg T.tdc e.val) ∧ w.iuState i = 0) ∧
    (∃ (s : State) (e : Eye) (n : Fin 4) (v : W32),
      let p : ℕ := pg T.tdc e.val
      let i : ℕ := 4 * e.val + n.val
      let o : ℕ := 1024 + 64 * n.val
      let w : State := s.writeReg p o (v ||| 2) false
      Reaches s (pg T.tdc e.val) ∧ w.iuState i ≠ 0) ∧
    (∃ (s : State) (e : Eye) (n : Fin 4),
      let i : ℕ := 4 * e.val + n.val
      let d : IuDyn := s.iuOf i
      s.iuState i ≠ 2 ∨ ∃ x ∈ s.stamps, x.ch = d.stopCh ∧ x.edge = d.stopEdge ∧ x.v ≤ d.deadline) ∧
    (∃ (s : State) (e : Eye) (n : Fin 4),
      let i : ℕ := 4 * e.val + n.val
      let d : IuDyn := s.iuOf i
      s.iuState i = 2 ∧ (¬∃ x ∈ s.stamps, x.ch = d.stopCh ∧ x.edge = d.stopEdge ∧ x.v ≤ d.deadline) ∧ d.mode = 2) ∧
    (∃ (s : State) (e : Eye) (n : Fin 4),
      let i : ℕ := 4 * e.val + n.val
      let d : IuDyn := s.iuOf i
      s.iuState i = 2 ∧ (¬∃ x ∈ s.stamps, x.ch = d.stopCh ∧ x.edge = d.stopEdge ∧ x.v ≤ d.deadline) ∧ d.mode ≠ 2) ∧
    (∃ (s : State) (e : Eye) (n : Fin 4),
      let i : ℕ := 4 * e.val + n.val
      let d : IuDyn := s.iuOf i
      d.ge = none ∨ s.iuState i ≠ 4) ∧
    (∃ (s : State) (e : Eye) (n : Fin 4) (ge : ℕ),
      let i : ℕ := 4 * e.val + n.val
      let d : IuDyn := s.iuOf i
      d.ge = some ge ∧ s.iuState i = 4 ∧ d.gated = true) ∧
    (∃ (s : State) (e : Eye) (n : Fin 4) (ge : ℕ),
      let i : ℕ := 4 * e.val + n.val
      let d : IuDyn := s.iuOf i
      d.ge = some ge ∧ s.iuState i = 4 ∧ d.gated = false) ∧
    (∃ (s : State) (e : Eye) (n : Fin 4),
      let i : ℕ := 4 * e.val + n.val
      let d : IuDyn := s.iuOf i
      Readable s (pg T.tdc e.val) ∧ d.results = []) ∧
    (∃ (s : State) (e : Eye) (n : Fin 4) (r : List W32) (rs : List (List W32)),
      let i : ℕ := 4 * e.val + n.val
      let d : IuDyn := s.iuOf i
      Readable s (pg T.tdc e.val) ∧ d.results = r :: rs) :=
  ⟨⟨uS, 0, 0, 0x0, by decide +kernel⟩,
   ⟨on (atStage 2) (pg T.tdc 0), 0, 0, 0x0, by decide +kernel⟩,
   ⟨on (atStage 2) (pg T.tdc 0), 0, 0, 0x1000014, by decide +kernel⟩,
   ⟨on (atStage 2) (pg T.tdc 0), 0, 0, 0x4, by decide +kernel⟩,
   ⟨uS, 0, 0x2, by decide +kernel⟩,
   ⟨uS, 0, 0, 0x0, by decide +kernel⟩,
   ⟨withIu 1 {}, 0, 0, 0x0, by decide +kernel⟩,
   ⟨withIu 0 {}, 0, 0, .inl (by decide +kernel)⟩,
   ⟨withIu 2 { ctl := 0x8 }, 0, 0, by decide +kernel⟩,
   ⟨withIu 2 {}, 0, 0, by decide +kernel⟩,
   ⟨rS, 0, 0, by decide +kernel⟩,
   ⟨withIu 4 { ge := some 100, ctl := 0xFFFFFFFF }, 0, 0, _, rfl, by decide +kernel⟩,
   ⟨withIu 4 { ge := some 100 }, 0, 0, _, rfl, by decide +kernel⟩,
   ⟨uS, 0, 0, by decide +kernel⟩,
   ⟨withIu 0 { results := [[1, 0, 0, 0]] }, 0, 0, [1, 0, 0, 0], [], by decide +kernel⟩⟩

theorem witness_TicketsEndAndAreReleased :
    (∃ (s : State) (i : Fin 1024), s.ticketAt i.val = none) ∧
    (∃ (s : State) (i : Fin 1024) (k : Ticket), s.ticketAt i.val = some k ∧ k.typ = 5 ∧ k.begun = true ∧
        k.core.isSome = true) ∧
    (∃ (s : State) (i : Fin 1024) (k : Ticket), s.ticketAt i.val = some k ∧
        (k.typ ≠ 5 ∨ k.begun = false ∨ k.core = none)) ∧
    (∃ (s : State) (i : Fin 1024) (k : Ticket), s.ticketAt i.val = some k ∧ (k.core.isSome = true ∧ k.begun = true ∧
        k.fin = true ∧
        (k.isBurst = false ∨ k.expStart = none ∨ (∀ e ∈ burstEyes k, s.flag (pg T.cmp e) F.CMP_STS_LOG_DONE = true) ∧
        ∀ j ∈ k.served, (s.siteOf j).final = true)) ∧ k.typ ≠ 2) ∧
    (∃ (s : State) (i : Fin 1024) (k : Ticket), s.ticketAt i.val = some k ∧ (k.core.isSome = true ∧ k.begun = true ∧
        k.fin = true ∧
        (k.isBurst = false ∨ k.expStart = none ∨ (∀ e ∈ burstEyes k, s.flag (pg T.cmp e) F.CMP_STS_LOG_DONE = true) ∧
        ∀ j ∈ k.served, (s.siteOf j).final = true)) ∧ k.typ = 2) ∧
    (∃ (s : State) (i : Fin 1024) (k : Ticket), s.ticketAt i.val = some k ∧ (¬(k.core.isSome = true ∧
        k.begun = true ∧ k.fin = true ∧
        (k.isBurst = false ∨ k.expStart = none ∨ (∀ e ∈ burstEyes k, s.flag (pg T.cmp e) F.CMP_STS_LOG_DONE = true) ∧
        ∀ j ∈ k.served, (s.siteOf j).final = true)))) ∧
    (∃ (s : State) (i : Fin 1024) (k : Ticket), s.ticketAt i.val = some k ∧ (k.core.isSome = true ∧ k.fin = false ∧
        k.limit ≠ 0) ∧ k.isBurst = false) ∧
    (∃ (s : State) (i : Fin 1024) (k : Ticket) (g : Group),
      let end_ : State := (s.upToMono (k.beginT + k.limit * 6400 * 1024)).begin_ i.val
      let u : State := end_.burstStatus (i.val) 48 fun x ↦ true
      s.ticketAt i.val = some k ∧ (k.core.isSome = true ∧ k.fin = false ∧ k.limit ≠ 0) ∧ k.isBurst = true ∧
          List.find? (fun g ↦ g.slots.contains i.val) u.groups = some g) ∧
    (∃ (s : State) (i : Fin 1024) (k : Ticket),
      let end_ : State := (s.upToMono (k.beginT + k.limit * 6400 * 1024)).begin_ i.val
      let u : State := end_.burstStatus (i.val) 48 fun x ↦ true
      s.ticketAt i.val = some k ∧ (k.core.isSome = true ∧ k.fin = false ∧ k.limit ≠ 0) ∧ k.isBurst = true ∧
          List.find? (fun g ↦ g.slots.contains i.val) u.groups = none) ∧
    (∃ (s : State) (i : Fin 1024) (k : Ticket), s.ticketAt i.val = some k ∧ (¬(k.core.isSome = true ∧ k.fin = false ∧
        k.limit ≠ 0))) ∧
    (∃ (s : State) (i : Fin 1024) (k : Ticket), s.ticketAt i.val = some k ∧ (k.isComplete = true ∧ k.rerun = false ∧
        s.releaseTurn k = true ∧ s.gateMet k = true)) ∧
    (∃ (s : State) (i : Fin 1024) (k : Ticket), s.ticketAt i.val = some k ∧ (¬(k.isComplete = true ∧
        k.rerun = false ∧ s.releaseTurn k = true ∧ s.gateMet k = true))) ∧
    (∃ (s : State), s.sch.reruns = []) ∧
    (∃ (s : State) (c : ℕ) (site : ℕ) (ws : ℕ) (we : ℕ) (r : List (ℕ × ℕ × ℕ × ℕ)), s.sch.reruns = (c, site, ws,
        we) :: r ∧ (∀ x ∈ s.sch.released, site ∉ x.2.1)) ∧
    (∃ (s : State) (n : Fin 32), s.coreState n.val = 3) ∧
    (∃ (s : State) (n : Fin 32),
      let hit : List Ticket := List.filter (fun k ↦ k.core == some n.val || k.slotCore == some n.val) s.sch.tickets
      let a : State :=
          ((s.set (lst n.val) F.LST_STS_STATE 3).put (lst n.val) F.LST_STS_SLOT_FULL false).bump (lst n.val) F.LST_CNT_FAULT_FAULTS 1
      let u : State := List.foldl (coreLost n.val) (a.rise (lst n.val) X.LST_LST_FAULT) hit
      s.coreState n.val ≠ 3 ∧ (∀ m < 32, u.coreState m = 3)) ∧
    (∃ (s : State) (n : Fin 32),
      let hit : List Ticket := List.filter (fun k ↦ k.core == some n.val || k.slotCore == some n.val) s.sch.tickets
      let a : State :=
          ((s.set (lst n.val) F.LST_STS_STATE 3).put (lst n.val) F.LST_STS_SLOT_FULL false).bump (lst n.val) F.LST_CNT_FAULT_FAULTS 1
      let u : State := List.foldl (coreLost n.val) (a.rise (lst n.val) X.LST_LST_FAULT) hit
      s.coreState n.val ≠ 3 ∧ (∃ m < 32, u.coreState m ≠ 3)) :=
  ⟨⟨rS, 0, by decide +kernel⟩,
   ⟨withTicket { aTicket 5 (.running 0) with begun := true }, 0, _, rfl, by decide +kernel⟩,
   ⟨withTicket (aTicket 1 .ready), 0, _, rfl, by decide +kernel⟩,
   ⟨withTicket { aTicket 4 (.running 0) with begun := true, fin := true }, 0, _, rfl, by decide +kernel⟩,
   ⟨withTicket { aTicket 2 (.running 0) with begun := true, fin := true }, 0, _, rfl, by decide +kernel⟩,
   ⟨withTicket (aTicket 1 .ready), 0, _, rfl, by decide +kernel⟩,
   ⟨withTicket { limTicket 5 with begun := true }, 0, _, rfl, by decide +kernel⟩,
   ⟨{ (inGroup { aGroup .running with slots := [0] }) with sch := { tickets := [{ limTicket 1 with begun := true }] } }, 0, _, _, rfl, by decide +kernel, by decide +kernel, rfl⟩,
   ⟨{ (inGroup { aGroup .running with slots := [1] }) with sch := { tickets := [{ limTicket 1 with begun := true }] } }, 0, _, rfl, by decide +kernel⟩,
   ⟨withTicket (aTicket 1 .ready), 0, _, rfl, by decide +kernel⟩,
   ⟨withTicket (aTicket 4 .complete), 0, _, rfl, by decide +kernel⟩,
   ⟨withTicket (aTicket 1 .ready), 0, _, rfl, by decide +kernel⟩,
   ⟨rS, by decide +kernel⟩,
   ⟨{ rS with sch := { reruns := [(0, 0, 5, 9)] } }, _, _, _, _, _, rfl, by decide +kernel⟩,
   ⟨(rS.set (lst 0) F.LST_STS_STATE 3), 0, by decide +kernel⟩,
   ⟨(List.range 31).foldl (fun s n => s.set (lst (n + 1)) F.LST_STS_STATE 3) rS, 0, by decide +kernel⟩,
   ⟨rS, 0, by decide +kernel⟩⟩

theorem witness_TableWindowsReadAndWrite :
    (∃ (s : State), s.offLink = false ∧ (s.flag glbPg F.GLB_SEG_STS_SEG_BUSY = true ∨ s.locked glbPg = true)) ∧
    (∃ (s : State) (i : Fin 131072) (w : Fin 4) (v : W32),
      let a : State := { s with segS := tabPut 0 s.segS (4 * i.val + w.val) v }
      s.offLink = false ∧ s.flag glbPg F.GLB_SEG_STS_SEG_BUSY = false ∧ s.locked glbPg = false ∧ a.segBad i.val = 0) ∧
    (∃ (s : State) (i : Fin 131072) (w : Fin 4) (v : W32),
      let a : State := { s with segS := tabPut 0 s.segS (4 * i.val + w.val) v }
      s.offLink = false ∧ s.flag glbPg F.GLB_SEG_STS_SEG_BUSY = false ∧ s.locked glbPg = false ∧ a.segBad i.val ≠ 0) ∧
    (∃ (s : State) (c : Chan) (v : W32),
      let p : ℕ := pg T.chn c.val
      let key : ℕ := c.val * 8192 + fget (s.rd p 272) 12 0
      Reaches s p ∧ (s.flag p F.CHN_STS_SHADOW_BUSY = true ∨ s.locked p = true ∧ tabGet 0 s.wftS key ≠ v)) ∧
    (∃ (s : State) (c : Chan) (v : W32),
      let p : ℕ := pg T.chn c.val
      let key : ℕ := c.val * 8192 + fget (s.rd p 272) 12 0
      Reaches s p ∧ (¬(s.flag p F.CHN_STS_SHADOW_BUSY = true ∨ s.locked p = true ∧ tabGet 0 s.wftS key ≠ v))) ∧
    (∃ (s : State) (c : Chan),
      let p : ℕ := pg T.chn c.val
      Readable s p) ∧
    (∃ (s : State) (e : Eye) (v : W32),
      let p : ℕ := eyePg e.val
      let w : ℕ := s.get p F.EYE_VAMP_WADDR_WADDR
      let n : ℕ := 4096 * s.get p F.EYE_VAMP_CFG_RES_BLK
      let key : ℕ := e.val * 491520 + w
      Reaches s p ∧ (s.resFree e.val = false ∨ n ≤ w ∨ s.locked p = true ∧ tabGet 0 s.res key ≠ v)) ∧
    (∃ (s : State) (e : Eye) (v : W32),
      let p : ℕ := eyePg e.val
      let w : ℕ := s.get p F.EYE_VAMP_WADDR_WADDR
      let n : ℕ := 4096 * s.get p F.EYE_VAMP_CFG_RES_BLK
      let key : ℕ := e.val * 491520 + w
      Reaches s p ∧ (¬(s.resFree e.val = false ∨ n ≤ w ∨ s.locked p = true ∧ tabGet 0 s.res key ≠ v))) ∧
    (∃ (s : State) (e : Eye),
      let p : ℕ := eyePg e.val
      Readable s p) :=
  ⟨⟨uS.put glbPg F.GLB_SEG_STS_SEG_BUSY true, by decide +kernel⟩,
   ⟨uS, 0, 0, 0x0, by decide +kernel⟩,
   ⟨uS, 1, 1, 0x1, by decide +kernel⟩,
   ⟨uS.put (pg T.chn 0) F.CHN_STS_SHADOW_BUSY true, 0, 0x0, by decide +kernel⟩,
   ⟨uS, 0, 0x0, by decide +kernel⟩,
   ⟨uS, by decide +kernel⟩,
   ⟨uS, 0, 0x0, by decide +kernel⟩,
   ⟨((uS.set (eyePg 0) F.EYE_VAMP_CFG_RES_BLK 1)), 0, 0x0, by decide +kernel⟩,
   ⟨uS, by decide +kernel⟩⟩

theorem witness_StitchesDriveSlices :
    (∃ (s : State) (c : Chan), (s.chanOf c.val).due = []) ∧
    (∃ (s : State) (c : Chan) (d : Due) (r : List Due), (s.chanOf c.val).due = d :: r ∧ d.typ = 1) ∧
    (∃ (s : State) (c : Chan) (d : Due) (r : List Due), (s.chanOf c.val).due = d :: r ∧ d.typ = 2) ∧
    (∃ (s : State) (c : Chan) (d : Due) (r : List Due), (s.chanOf c.val).due = d :: r ∧ d.typ = 3) ∧
    (∃ (s : State) (c : Chan) (d : Due) (r : List Due), (s.chanOf c.val).due = d :: r ∧ d.typ = 4) ∧
    (∃ (s : State) (c : Chan) (d : Due) (r : List Due), (s.chanOf c.val).due = d :: r ∧ d.typ = 5) ∧
    (∃ (s : State) (c : Chan) (d : Due) (r : List Due), (s.chanOf c.val).due = d :: r ∧ d.typ = 6) ∧
    (∃ (s : State) (c : Chan) (d : Due) (r : List Due), (s.chanOf c.val).due = d :: r ∧ d.typ = 7) ∧
    (∃ (s : State) (c : Chan) (d : Due) (r : List Due), (s.chanOf c.val).due = d :: r ∧ d.typ = 16) ∧
    (∃ (s : State) (c : Chan) (d : Due) (r : List Due), (s.chanOf c.val).due = d :: r ∧ d.typ = 17) ∧
    (∃ (s : State) (c : Chan) (d : Due) (r : List Due), (s.chanOf c.val).due = d :: r ∧ d.typ = 18) ∧
    (∃ (s : State) (c : Chan) (d : Due) (r : List Due), (s.chanOf c.val).due = d :: r ∧ d.typ = 19) ∧
    (∃ (s : State) (c : Chan) (d : Due) (r : List Due), (s.chanOf c.val).due = d :: r ∧ d.typ = 28) ∧
    (∃ (s : State) (c : Chan) (d : Due) (r : List Due), (s.chanOf c.val).due = d :: r ∧ d.typ = 29) ∧
    (∃ (s : State) (c : Chan) (d : Due) (r : List Due), (s.chanOf c.val).due = d :: r ∧ d.typ = 32) ∧
    (∃ (s : State) (c : Chan) (d : Due) (r : List Due), (s.chanOf c.val).due = d :: r ∧ d.typ = 33) ∧
    (∃ (s : State) (c : Chan) (d : Due) (r : List Due), (s.chanOf c.val).due = d :: r ∧ d.typ = 34) ∧
    (∃ (s : State) (c : Chan) (d : Due) (r : List Due), (s.chanOf c.val).due = d :: r ∧ d.typ = 35) ∧
    (∃ (s : State) (c : Chan) (d : Due) (r : List Due), (s.chanOf c.val).due = d :: r ∧ d.typ = 9) ∧
    (∃ (s : State) (c : Chan) (d : Due) (r : List Due), (s.chanOf c.val).due = d :: r ∧ d.typ = 10) ∧
    (∃ (s : State) (c : Chan) (d : Due) (r : List Due), (s.chanOf c.val).due = d :: r ∧ (d.typ = 8 ∨ 20 ≤ d.typ ∧
        d.typ < 28)) ∧
    (∃ (s : State) (e : Eye), s.spareRuns e.val = false) ∧
    (∃ (s : State) (e : Eye), s.spareRuns e.val = true ∧ s.positions e.val = []) ∧
    (∃ (s : State) (e : Eye) (lo : ℕ) (rest : List ℕ), s.spareRuns e.val = true ∧ s.positions e.val = lo :: rest) ∧
    (∃ (s : State) (e : Eye),
      let p : ℕ := pg T.spr e.val
      let d : SprDyn := s.sprOf e.val
      let q : ℕ := e.val / 4
      let c : ℕ := 16 * e.val + s.get p F.SPR_STS_POS
      let t0 : ℕ := max (s.lastStitch c + 262144) (↑d.start + s.qofs q).toNat
      let t : ℕ := (if d.checked = true then max t0 (d.lastChk + 262144) else t0) - s.era
      s.spareRuns e.val = true ∧ (d.on = true ∧ s.stitchSoon c (max t (s.nowQ q) + 65536) = false)) ∧
    (∃ (s : State) (e : Eye),
      let p : ℕ := pg T.spr e.val
      let d : SprDyn := s.sprOf e.val
      let q : ℕ := e.val / 4
      let c : ℕ := 16 * e.val + s.get p F.SPR_STS_POS
      let t0 : ℕ := max (s.lastStitch c + 262144) (↑d.start + s.qofs q).toNat
      let t : ℕ := (if d.checked = true then max t0 (d.lastChk + 262144) else t0) - s.era
      s.spareRuns e.val = true ∧ (¬(d.on = true ∧ s.stitchSoon c (max t (s.nowQ q) + 65536) = false))) :=
  ⟨⟨rS, 0, by decide +kernel⟩,
   ⟨withDue 1, 0, _, _, rfl, by decide +kernel⟩,
   ⟨withDue 2, 0, _, _, rfl, by decide +kernel⟩,
   ⟨withDue 3, 0, _, _, rfl, by decide +kernel⟩,
   ⟨withDue 4, 0, _, _, rfl, by decide +kernel⟩,
   ⟨withDue 5, 0, _, _, rfl, by decide +kernel⟩,
   ⟨withDue 6, 0, _, _, rfl, by decide +kernel⟩,
   ⟨withDue 7, 0, _, _, rfl, by decide +kernel⟩,
   ⟨withDue 16, 0, _, _, rfl, by decide +kernel⟩,
   ⟨withDue 17, 0, _, _, rfl, by decide +kernel⟩,
   ⟨withDue 18, 0, _, _, rfl, by decide +kernel⟩,
   ⟨withDue 19, 0, _, _, rfl, rfl⟩,
   ⟨withDue 28, 0, _, _, rfl, rfl⟩,
   ⟨withDue 29, 0, _, _, rfl, rfl⟩,
   ⟨withDue 32, 0, _, _, rfl, rfl⟩,
   ⟨withDue 33, 0, _, _, rfl, rfl⟩,
   ⟨withDue 34, 0, _, _, rfl, rfl⟩,
   ⟨withDue 35, 0, _, _, rfl, rfl⟩,
   ⟨withDue 9, 0, _, _, rfl, by decide +kernel⟩,
   ⟨withDue 10, 0, _, _, rfl, by decide +kernel⟩,
   ⟨withDue 8, 0, _, _, rfl, by decide +kernel⟩,
   ⟨rS, 0, by decide +kernel⟩,
   ⟨on (atStage 3) (pg T.spr 0), 0, by decide +kernel⟩,
   ⟨on (on (atStage 3) (pg T.spr 0)) (pg T.chn 0), 0, 0, [], by decide +kernel⟩,
   ⟨(on (atStage 3) (pg T.spr 0)).setSpr 0 { on := true }, 0, by decide +kernel⟩,
   ⟨on (atStage 3) (pg T.spr 0), 0, by decide +kernel⟩⟩

theorem witness_PrecisionTimeAdjustsAndPulses :
    (∃ (s : State), Readable s ptpPg) ∧
    (∃ (s : State), Reaches s ptpPg) ∧
    (∃ (s : State) (x : ℤ),
      let u : State := s.ptpSync
      x.natAbs ≤ u.get ptpPg F.PTP_ADJ_CTL_THR * 2 ^ 32) ∧
    (∃ (s : State) (x : ℤ),
      let u : State := s.ptpSync
      u.get ptpPg F.PTP_ADJ_CTL_THR * 2 ^ 32 < x.natAbs) ∧
    (∃ (s : State), s.ptp.rem = 0) ∧
    (∃ (s : State), s.ptp.rem ≠ 0) ∧
    (∃ (s : State) (v : W32), Reaches s ptpPg ∧ BitVec.getLsbD v 1 = false) ∧
    (∃ (s : State) (v : W32), Reaches s ptpPg ∧ BitVec.getLsbD v 1 = true) ∧
    (∃ (s : State) (v : W32), Reaches s ptpPg ∧ BitVec.getLsbD v 0 = false) ∧
    (∃ (s : State) (v : W32), Reaches s ptpPg ∧ BitVec.getLsbD v 0 = true) ∧
    (∃ (g : ℕ), g < 4) ∧
    (∃ (s : State) (g : ℕ),
      let f : Fld → ℕ := fun x ↦ s.get ptpPg (x.off (32 * g))
      let w : ℕ → ℕ := fun i ↦ BitVec.toNat (s.rd ptpPg (516 + 32 * g + 4 * i))
      let start : ℕ :=
          if f F.PTP_PG_CTL_SRC = 1 then (w 1 + w 2 % 2 ^ 16 * 2 ^ 32) * ptpSec + w 0 % 2 ^ 30 * 2 ^ 32 else w 0 + w 1 * 2 ^ 32
      let least : ℕ := if f F.PTP_PG_CTL_SRC = 1 then s.ptpAt (s.ptpCycles + 160) else s.ui + 640
      g < 4 ∧ least ≤ start) ∧
    (∃ (s : State) (g : ℕ),
      let f : Fld → ℕ := fun x ↦ s.get ptpPg (x.off (32 * g))
      let w : ℕ → ℕ := fun i ↦ BitVec.toNat (s.rd ptpPg (516 + 32 * g + 4 * i))
      let start : ℕ :=
          if f F.PTP_PG_CTL_SRC = 1 then (w 1 + w 2 % 2 ^ 16 * 2 ^ 32) * ptpSec + w 0 % 2 ^ 30 * 2 ^ 32 else w 0 + w 1 * 2 ^ 32
      let least : ℕ := if f F.PTP_PG_CTL_SRC = 1 then s.ptpAt (s.ptpCycles + 160) else s.ui + 640
      g < 4 ∧ start < least) ∧
    (∃ (s : State) (g : Fin 4),
      let d : PgDyn := s.pgOf g.val
      d.run = false) ∧
    (∃ (s : State) (g : Fin 4),
      let d : PgDyn := s.pgOf g.val
      d.run = true) :=
  ⟨⟨uS, by decide +kernel⟩,
   ⟨uS, by decide +kernel⟩,
   ⟨rS, 0, by decide +kernel⟩,
   ⟨rS, 10000000000000000000, by decide +kernel⟩,
   ⟨rS, by decide +kernel⟩,
   ⟨{ rS with ptp := { rem := 5 } }, by decide +kernel⟩,
   ⟨uS, 0x0, by decide +kernel⟩,
   ⟨uS, 0x2, by decide +kernel⟩,
   ⟨uS, 0x0, by decide +kernel⟩,
   ⟨uS, 0x1, by decide +kernel⟩,
   ⟨0, by decide⟩,
   ⟨(rS.wr ptpPg 516 0x10000), 0, by decide +kernel⟩,
   ⟨rS, 0, by decide +kernel⟩,
   ⟨rS, 0, by decide +kernel⟩,
   ⟨{ rS with ptp := { pgs := [(0, { run := true })] } }, 0, by decide +kernel⟩⟩

theorem witness_RegisterReadsCaptureAndClear :
    (∃ (s : State) (p : ℕ) (o : ℕ) (r : Reg) (h : Reg) (lo : Ofs) (hi : Ofs), pagePresent p = true ∧ o < 4092 ∧
        o % 4 = 0 ∧ wideLo (p / 256) o = true ∧ findReg p o = some r ∧ findReg p (o + 4) = some h ∧
        r.mask [Acc.rc] = 0 ∧ BitVec.toNat lo = rkey p o ∧ BitVec.toNat hi = rkey p (o + 4) ∧ Readable s p) ∧
    (∃ (s : State) (p : ℕ) (o : ℕ) (r : Reg) (ofs : Ofs), pagePresent p = true ∧ o < 4096 ∧ o % 4 = 0 ∧
        findReg p o = some r ∧ r.mask [Acc.rc] ≠ 0 ∧ BitVec.toNat ofs = rkey p o ∧ Readable s p) ∧
    (∃ (s : State), s.offLink = true) ∧
    (∃ (s : State) (ofs : Ofs), s.offLink = false ∧ BitVec.toNat ofs < 33554432 ∧
        s.answers (BitVec.toNat ofs / 4096) = false) :=
  ⟨⟨uS, 256, 264, _, _, BitVec.ofNat 26 (rkey 256 264), BitVec.ofNat 26 (rkey 256 268), rfl, by decide, rfl, rfl,
      rfl, rfl, by decide +kernel⟩,
   ⟨uS, 256, 280, _, BitVec.ofNat 26 (rkey 256 280), rfl, by decide, rfl, rfl, by decide +kernel⟩,
   ⟨{ uS with pci := { d3 := true } }, by decide +kernel⟩,
   ⟨uS, 0x1700000, by decide +kernel⟩⟩

theorem witness_LaceFramesActAndAreSent :
    (∃ (s : State) (w : ℕ), s.lace.rx = [] ∧ s.enabled tbsPg = true ∧ s.resetting.contains tbsPg = false ∧
        LineFrame w 3) ∧
    (∃ (s : State) (w : ℕ), s.lace.rx = [] ∧ s.enabled tbsPg = true ∧ s.resetting.contains tbsPg = false ∧
        LineFrame w 4) ∧
    (∃ (s : State) (w : ℕ), s.lace.rx = [] ∧ s.enabled tbsPg = true ∧ s.resetting.contains tbsPg = false ∧
        LineFrame w 2) ∧
    (∃ (s : State) (w : ℕ), s.lace.rx = [] ∧ s.enabled tbsPg = true ∧ s.resetting.contains tbsPg = false ∧
        w < 2 ^ 64 ∧ w % 16 = 11 ∧ crc8 (lineBits 52 (w / 16)) ≠ bits w 63 56) ∧
    (∃ (s : State) (w : ℕ) (k : ℕ), s.lace.rx = [] ∧ s.enabled tbsPg = true ∧ s.resetting.contains tbsPg = false ∧
        (k = 0 ∨ 5 ≤ k) ∧ LineFrame w k) ∧
    (∃ (s : State) (b : Bool) (t : ℕ) (c : Instr), s.enabled tbsPg = true ∧ s.resetting.contains tbsPg = false ∧
        s.lace.rx.length < 63 ∧ s.get tbsPg F.TBS_LACE_CTL_OUT_MODE ≠ 2 ∧
        c ∈ [Instr.align [b] t, Instr.start [b] t, Instr.count [b] t, Instr.trig [b] t, Instr.laceCrc [b] t,
        Instr.rsvdType [b] t]) ∧
    (∃ (s : State) (line : List Bool) (t : ℕ) (c : Instr),
        (s.enabled tbsPg = false ∨ s.resetting.contains tbsPg = true) ∧
        c ∈ [Instr.align line t, Instr.start line t, Instr.count line t, Instr.trig line t, Instr.laceCrc line t,
        Instr.rsvdType line t]) ∧
    (∃ (s : State) (v : W32),
      let u : State := s.writeReg tbsPg 284 (v ||| 2147483648) false
      Reaches s tbsPg ∧
          (u.flag tbsPg F.TBS_LACE_STS_TX_BUSY = true ∨ u.get tbsPg F.TBS_LACE_CTL_OUT_MODE ≠ 1 ∨ u.enabled tbsPg = false)) ∧
    (∃ (s : State) (v : W32),
      let u : State := s.writeReg tbsPg 284 (v ||| 2147483648) false
      Reaches s tbsPg ∧
          (¬(u.flag tbsPg F.TBS_LACE_STS_TX_BUSY = true ∨ u.get tbsPg F.TBS_LACE_CTL_OUT_MODE ≠ 1 ∨ u.enabled tbsPg = false)) ∧ u.flag (pg T.wlt 0) F.WLT_NODE_LACE_EXT = false) ∧
    (∃ (s : State) (v : W32),
      let u : State := s.writeReg tbsPg 284 (v ||| 2147483648) false
      Reaches s tbsPg ∧
          (¬(u.flag tbsPg F.TBS_LACE_STS_TX_BUSY = true ∨ u.get tbsPg F.TBS_LACE_CTL_OUT_MODE ≠ 1 ∨ u.enabled tbsPg = false)) ∧ u.flag (pg T.wlt 0) F.WLT_NODE_LACE_EXT = true) ∧
    (∃ (s : State) (b : List Bool) (t : ℕ), s.lace.tx = some (b, t)) ∧
    (∃ (s : State), s.lace.tx = none) :=
  ⟨⟨on rS tbsPg, laceWord 3 0, by decide +kernel⟩,
   ⟨on rS tbsPg, laceWord 4 0, by decide +kernel⟩,
   ⟨on rS tbsPg, laceWord 2 0, by decide +kernel⟩,
   ⟨on rS tbsPg, 0xB + 2 ^ 56 * ((crc8 (lineBits 52 0) + 1) % 256), by decide +kernel⟩,
   ⟨on rS tbsPg, laceWord 5 0, 5, by decide +kernel⟩,
   ⟨on rS tbsPg, true, 0, .align [true] 0, by decide +kernel⟩,
   ⟨rS, [], 0, .align [] 0, by decide +kernel⟩,
   ⟨uS, 0x0, by decide +kernel⟩,
   ⟨(on uS tbsPg).set tbsPg F.TBS_LACE_CTL_OUT_MODE 1, 0x0, by decide +kernel⟩,
   ⟨((on uS tbsPg).set tbsPg F.TBS_LACE_CTL_OUT_MODE 1).put (wltPg 0) F.WLT_NODE_LACE_EXT true, 0x0,
       by decide +kernel⟩,
   ⟨{ rS with lace := { tx := some ([], 0) } }, _, _, rfl⟩,
   ⟨on rS tbsPg, by decide +kernel⟩⟩

theorem witness_AnalysisJobsStartAndEnd :
    (∃ (s : State) (q : Quad),
      let p : ℕ := anePg q.val
      let d : AneDyn := s.aneOf q.val
      Reaches s p ∧ 8 ≤ d.jobq.length) ∧
    (∃ (s : State) (q : Quad),
      let p : ℕ := anePg q.val
      let d : AneDyn := s.aneOf q.val
      Reaches s p ∧ d.jobq.length < 8) ∧
    (∃ (s : State) (q : Quad),
      let p : ℕ := anePg q.val
      let d : AneDyn := s.aneOf q.val
      let st : ℕ := s.aneState q.val
      d.jobq = [] ∨ s.enabled p = false ∨ st ≠ 6 ∧ (st ≠ 0 ∨ s.flag p F.ANE_CTL_HOLD = true)) ∧
    (∃ (bad : BitVec 16) (i : ℕ), i < 16 ∧ bad.getLsbD i = false) ∧
    (∃ (s : State) (q : Quad) (ws : List W32) (slot : Option ℕ) (r : List (List W32 × Option ℕ)),
      let p : ℕ := anePg q.val
      let d : AneDyn := s.aneOf q.val
      let st : ℕ := s.aneState q.val
      d.jobq = (ws, slot) :: r ∧ s.enabled p = true ∧ st = 6) ∧
    (∃ (s : State) (q : Quad) (ws : List W32) (slot : Option ℕ) (r : List (List W32 × Option ℕ)),
      let p : ℕ := anePg q.val
      let d : AneDyn := s.aneOf q.val
      let st : ℕ := s.aneState q.val
      d.jobq = (ws, slot) :: r ∧ s.enabled p = true ∧ st = 0 ∧ s.flag p F.ANE_CTL_HOLD = false) ∧
    (∃ (s : State) (q : Quad),
      let d : AneDyn := s.aneOf q.val
      d.xfers = [] ∨ d.job = none) ∧
    (∃ (s : State) (q : Quad) (x : ℕ) (r : List ℕ) (w : List W32) (slot : Option ℕ),
      let d : AneDyn := s.aneOf q.val
      d.xfers = x :: r ∧ d.job = some (w, slot) ∧ r ≠ []) ∧
    (∃ (s : State) (q : Quad) (n : ℕ) (x : ℕ) (r : List ℕ) (w : List W32) (slot : Option ℕ),
      let p : ℕ := anePg q.val
      let d : AneDyn := s.aneOf q.val
      let u : State :=
          (List.foldl (fun s i ↦ s.xferUnit (q.val) (xferHbm w x + 32 * i) (xferSpad w x + 32 * i) (xferOut w x)) s (List.range (xferLen w x))).bump p (F.ANE_SPAD_CONFLICT_COUNT.off 8) n
      let t : State := u.setAne (q.val) ({ u.aneOf q.val with xfers := r })
      d.xfers = x :: r ∧ d.job = some (w, slot) ∧ r = [] ∧ t.aneState q.val = 1) ∧
    (∃ (s : State) (q : Quad) (n : ℕ) (x : ℕ) (r : List ℕ) (w : List W32) (slot : Option ℕ),
      let p : ℕ := anePg q.val
      let d : AneDyn := s.aneOf q.val
      let u : State :=
          (List.foldl (fun s i ↦ s.xferUnit (q.val) (xferHbm w x + 32 * i) (xferSpad w x + 32 * i) (xferOut w x)) s (List.range (xferLen w x))).bump p (F.ANE_SPAD_CONFLICT_COUNT.off 8) n
      let t : State := u.setAne (q.val) ({ u.aneOf q.val with xfers := r })
      d.xfers = x :: r ∧ d.job = some (w, slot) ∧ r = [] ∧ t.aneState q.val = 3) ∧
    (∃ (s : State) (q : Quad) (n : ℕ) (x : ℕ) (r : List ℕ) (w : List W32) (slot : Option ℕ),
      let p : ℕ := anePg q.val
      let d : AneDyn := s.aneOf q.val
      let u : State :=
          (List.foldl (fun s i ↦ s.xferUnit (q.val) (xferHbm w x + 32 * i) (xferSpad w x + 32 * i) (xferOut w x)) s (List.range (xferLen w x))).bump p (F.ANE_SPAD_CONFLICT_COUNT.off 8) n
      let t : State := u.setAne (q.val) ({ u.aneOf q.val with xfers := r })
      d.xfers = x :: r ∧ d.job = some (w, slot) ∧ r = [] ∧ t.aneState q.val = 2) ∧
    (∃ (s : State) (q : Quad),
      let st : ℕ := s.aneState q.val
      let budget : ℕ := 256 * fget (s.jobWord (q.val) 12) 23 0
      st = 2 ∧ budget ≠ 0) ∧
    (∃ (s : State) (q : Quad),
      let st : ℕ := s.aneState q.val
      let budget : ℕ := 256 * fget (s.jobWord (q.val) 12) 23 0
      st ≠ 2 ∨ budget = 0) ∧
    (∃ (s : State) (q : Quad) (v : W32),
      let p : ℕ := anePg q.val
      let u : State := s.writeReg p 256 (v ||| 2) false
      Reaches s p ∧ 1 ≤ u.aneState q.val ∧ u.aneState q.val ≤ 3) ∧
    (∃ (s : State) (q : Quad) (v : W32),
      let p : ℕ := anePg q.val
      let u : State := s.writeReg p 256 (v ||| 2) false
      Reaches s p ∧ (u.aneState q.val = 0 ∨ u.aneState q.val = 4)) ∧
    (∃ (s : State) (q : Quad) (v : W32),
      let p : ℕ := anePg q.val
      let u : State := s.writeReg p 256 (v ||| 2) false
      Reaches s p ∧ 4 < u.aneState q.val) ∧
    (∃ (s : State) (q : Quad) (v : W32),
      let p : ℕ := anePg q.val
      let u : State := s.writeReg p 320 (v ||| 1) false
      Reaches s p ∧ ((u.aneState q.val = 4 ∨ u.aneState q.val = 6) ∧ u.get p F.ANE_MARCH_CTL_ALG ≠ 3)) ∧
    (∃ (s : State) (q : Quad) (v : W32),
      let p : ℕ := anePg q.val
      let u : State := s.writeReg p 320 (v ||| 1) false
      Reaches s p ∧ (¬((u.aneState q.val = 4 ∨ u.aneState q.val = 6) ∧ u.get p F.ANE_MARCH_CTL_ALG ≠ 3))) ∧
    (∃ (s : State) (q : Quad), s.aneState q.val ≠ 5) ∧
    (∃ (s : State) (q : Quad), s.aneState q.val = 5) :=
  ⟨⟨withAne 0 { jobq := List.replicate 8 (List.replicate 16 0, none) } 0 0 0 0 0, 0, by decide +kernel⟩,
   ⟨uS, 0, by decide +kernel⟩,
   ⟨rS, 0, by decide +kernel⟩,
   ⟨0, 0, by decide⟩,
   ⟨((on (atStage 3) (anePg 0)).setAne 0 { jobq := [(List.replicate 16 0, none)] }).set (anePg 0) F.ANE_STS_STATE 6,
       0, _, _, _, rfl, by decide +kernel⟩,
   ⟨(((on (atStage 3) (anePg 0)).setAne 0 { jobq := [(List.replicate 16 0, none)] }).put (anePg 0) F.ANE_CTL_HOLD false).set (anePg 0) F.ANE_STS_STATE 0, 0, _, _, _, rfl, by decide +kernel⟩,
   ⟨rS, 0, by decide +kernel⟩,
   ⟨withAne 2 { job := some (List.replicate 16 0xFFFFFFFF, none), xfers := [0, 1] } 0 0 0 0 0, 0, _, _, _, _, rfl,
       rfl, by decide +kernel⟩,
   ⟨withAne 1 { job := some (List.replicate 16 0, none), xfers := [0] } 0 0 0 0 0, 0, 0, _, _, _, _, rfl, rfl,
       by decide +kernel⟩,
   ⟨withAne 3 { job := some (List.replicate 16 0, none), xfers := [0] } 0 0 0 0 0, 0, 0, _, _, _, _, rfl, rfl,
       by decide +kernel⟩,
   ⟨withAne 2 { job := some (List.replicate 16 0, none), xfers := [0] } 0 0 0 0 0, 0, 0, _, _, _, _, rfl, rfl,
       by decide +kernel⟩,
   ⟨withAne 2 { job := some (List.replicate 16 0xFFFFFFFF, none), xfers := [0, 1] } 0 0 0 0 0, 0, by decide +kernel⟩,
   ⟨rS, 0, by decide +kernel⟩,
   ⟨withAne 1 {} 0 0 0 0 0, 0, 0x0, by decide +kernel⟩,
   ⟨uS, 0, 0x0, by decide +kernel⟩,
   ⟨withAne 5 {} 0 0 0 0 0, 0, 0x0, by decide +kernel⟩,
   ⟨uS, 0, 0x0, by decide +kernel⟩,
   ⟨uS, 0, 0xffffffff, by decide +kernel⟩,
   ⟨rS, 0, by decide +kernel⟩,
   ⟨withAne 5 {} 0 0 0 0 0, 0, by decide +kernel⟩⟩

theorem witness_ScratchpadAccessesFromOutside :
    (∃ (s : State) (a : BitVec 24) (v : W32) (ep : Bool) (w : ℕ) (r : Instr × W32),
      let q : ℕ := a.toNat / 4194304
      let o : ℕ := a.toNat % 4194304
      let k : ℕ := spadKey q o
      let old : W32 := tabGet 0 s.spad k
      s.offLink = false ∧ r ∈ [(Instr.spadFetchadd a v ep w, old + v), (Instr.spadSwap a v ep w, v)] ∧
          (a.toNat % 4 ≠ 0 ∨ 1048576 ≤ o)) ∧
    (∃ (s : State) (a : BitVec 24) (v : W32) (ep : Bool) (w : ℕ) (r : Instr × W32),
      let q : ℕ := a.toNat / 4194304
      let o : ℕ := a.toNat % 4194304
      let k : ℕ := spadKey q o
      let old : W32 := tabGet 0 s.spad k
      s.offLink = false ∧ r ∈ [(Instr.spadFetchadd a v ep w, old + v), (Instr.spadSwap a v ep w, v)] ∧
          (¬(a.toNat % 4 ≠ 0 ∨ 1048576 ≤ o)) ∧ s.aneState q = 5) ∧
    (∃ (s : State) (a : BitVec 24) (v : W32) (ep : Bool) (w : ℕ) (r : Instr × W32),
      let q : ℕ := a.toNat / 4194304
      let o : ℕ := a.toNat % 4194304
      let k : ℕ := spadKey q o
      let old : W32 := tabGet 0 s.spad k
      s.offLink = false ∧ r ∈ [(Instr.spadFetchadd a v ep w, old + v), (Instr.spadSwap a v ep w, v)] ∧
          (¬(a.toNat % 4 ≠ 0 ∨ 1048576 ≤ o)) ∧ s.aneState q ≠ 5) ∧
    (∃ (s : State) (a : BitVec 24) (bs : List (Option Byte)) (ep : Bool) (w : ℕ),
      let g : State := s.bar4Wait a.toNat w
      let u : State :=
          List.foldl (fun s x ↦ s.bar4Byte (a.toNat + x.2) x.1 ep) (if ep = true then g.poisonRx else g) bs.zipIdx
      s.offLink = false ∧ u.aneState (a.toNat / 4194304) = 5) ∧
    (∃ (s : State) (a : BitVec 24) (bs : List (Option Byte)) (ep : Bool) (w : ℕ),
      let g : State := s.bar4Wait a.toNat w
      let u : State :=
          List.foldl (fun s x ↦ s.bar4Byte (a.toNat + x.2) x.1 ep) (if ep = true then g.poisonRx else g) bs.zipIdx
      s.offLink = false ∧ u.aneState (a.toNat / 4194304) ≠ 5) ∧
    (∃ (s : State) (q : ℕ) (o : ℕ) (k' : ℕ),
      let k : ℕ := spadKey q o
      s.offLink = false ∧ q < 4 ∧ o < 1048576 ∧ s.aneState q ≠ 5 ∧ k' ≠ k) ∧
    (∃ (s : State) (q : ℕ) (o : ℕ), s.offLink = false ∧ q < 4 ∧ o < 1048576 ∧ s.aneState q ≠ 5) ∧
    (∃ (s : State) (q : ℕ) (o : ℕ) (b : ℕ), s.offLink = false ∧ q < 4 ∧ o < 1048576 ∧ s.aneState q ≠ 5 ∧ b < 4 ∧
        b ≠ o % 4) ∧
    (∃ (a : ℕ), a % 4194304 < 1048576) ∧
    (∃ (a : ℕ), 1048576 ≤ a % 4194304) ∧
    (∃ (s : State), s.offLink = false) :=
  ⟨⟨uS, 1, 0, false, 0, _, by decide +kernel, List.mem_cons_self, by decide⟩,
   ⟨withAne 5 {} 0 0 0 0 0, 0, 0, false, 0, _, by decide +kernel, List.mem_cons_self, by decide +kernel⟩,
   ⟨uS, 0, 0, false, 0, _, by decide +kernel, List.mem_cons_self, by decide +kernel⟩,
   ⟨withAne 5 {} 0 0 0 0 0, 0, [], false, 0, by decide +kernel⟩,
   ⟨uS, 0, [], false, 0, by decide +kernel⟩,
   ⟨uS, 0, 0, 1, by decide +kernel⟩,
   ⟨uS, 0, 0, by decide +kernel⟩,
   ⟨uS, 0, 0, 1, by decide +kernel⟩,
   ⟨0, by decide⟩,
   ⟨1048576, by decide⟩,
   ⟨uS, by decide +kernel⟩⟩

theorem witness_HbmAccessesIssueAndReturn :
    (∃ (s : State) (x : Fin 2) (pch : Fin 32) (busy : BitVec 16),
      let d : XbrDyn := s.xbrOf x.val
      let w : ℕ → W32 := fun j ↦ s.rd (memPg x.val) (384 + 4 * j)
      let at_ : ℕ → ℕ :=
          fun j ↦ if fget (w j) 19 15 = pch.val then setBit busy.toNat (fget (w j) 23 20) else busy.toNat
      let off : ℕ := match d.repair with | some j => at_ j | none => busy.toNat
      s.memServes x.val = true ∧ (∀ (k : ℕ) (y : QAcc) (a : ℕ), ¬(d.queue[k]? = some y ∧ hbmPch y.a.addr = pch.val ∧
          s.issueAddr (x.val) off y = some a))) ∧
    (∃ (s : State) (x : Fin 2) (pch : Fin 32) (busy : BitVec 16) (k : ℕ) (y : QAcc) (a : ℕ),
      let d : XbrDyn := s.xbrOf x.val
      let w : ℕ → W32 := fun j ↦ s.rd (memPg x.val) (384 + 4 * j)
      let at_ : ℕ → ℕ :=
          fun j ↦ if fget (w j) 19 15 = pch.val then setBit busy.toNat (fget (w j) 23 20) else busy.toNat
      let off : ℕ := match d.repair with | some j => at_ j | none => busy.toNat
      let score : QAcc → ℕ → ℕ :=
          fun y a ↦ 2 * y.urg + if (fun a ↦ tabGet 0 d.rows (16 * hbmPch a + hbmBank a) = hbmRow a + 1) a then 1 else 0
      s.memServes x.val = true ∧ (d.queue[k]? = some y ∧ hbmPch y.a.addr = pch.val ∧
          s.issueAddr (x.val) off y = some a) ∧ (∀ (k' : ℕ) (y' : QAcc) (a' : ℕ), d.queue[k']? = some y' ∧
          hbmPch y'.a.addr = pch.val ∧ s.issueAddr (x.val) off y' = some a' → score y' a' ≤ score y a ∧
          (score y' a' = score y a → k ≤ k'))) ∧
    (∃ (s : State) (x : Fin 2), s.memServes x.val = false) ∧
    (∃ (s : State) (x : Fin 2) (k : ℕ), (s.xbrOf x.val).issued[k]? = none) ∧
    (∃ (s : State) (x : Fin 2) (k : ℕ) (y : QAcc),
      let a : ℕ := y.phys.getD y.a.addr
      (s.xbrOf x.val).issued[k]? = some y ∧ a / 32 ∈ s.hbm.poison) ∧
    (∃ (s : State) (x : Fin 2) (k : ℕ) (e0 : Fin 3) (y : QAcc),
      let a : ℕ := y.phys.getD y.a.addr
      (s.xbrOf x.val).issued[k]? = some y ∧ a / 32 ∉ s.hbm.poison ∧ a / 32 ∉ s.hbm.bad ∧ e0.val = 0) ∧
    (∃ (s : State) (x : Fin 2) (k : ℕ) (e0 : Fin 3) (y : QAcc),
      let a : ℕ := y.phys.getD y.a.addr
      (s.xbrOf x.val).issued[k]? = some y ∧ a / 32 ∉ s.hbm.poison ∧ a / 32 ∉ s.hbm.bad ∧ e0.val = 1) ∧
    (∃ (s : State) (x : Fin 2) (k : ℕ) (e0 : Fin 3) (y : QAcc),
      let a : ℕ := y.phys.getD y.a.addr
      (s.xbrOf x.val).issued[k]? = some y ∧ a / 32 ∉ s.hbm.poison ∧ (a / 32 ∈ s.hbm.bad ∨ e0.val = 2)) :=
  ⟨⟨withQ {}, 0, 0, 0, by decide +kernel, fun k y a h => by have h1 : ([] : List QAcc)[k]? = some y := h.1; cases h1⟩,
   ⟨withQ { queue := [aQAcc 0] }, 0, 0, 0, 0, aQAcc 0, 0, by decide +kernel, by decide +kernel,
       fun k' y' a' h => by obtain ⟨rfl, rfl, rfl⟩ := issue_best k' y' a' h; exact ⟨Nat.le_refl _,
       fun _ => Nat.le_refl _⟩⟩,
   ⟨rS, 0, by decide +kernel⟩,
   ⟨rS, 0, 0, by decide +kernel⟩,
   ⟨{ withQ { issued := [aQAcc 0] } with hbm := { poison := [0] } }, 0, 0, _, rfl, by decide +kernel⟩,
   ⟨withQ { issued := [aQAcc 0] }, 0, 0, 0, _, rfl, by decide +kernel⟩,
   ⟨withQ { issued := [aQAcc 0] }, 0, 0, 1, _, rfl, by decide +kernel⟩,
   ⟨withQ { issued := [aQAcc 0] }, 0, 0, 2, _, rfl, by decide +kernel⟩⟩

theorem witness_TableCommitsCopyShadows :
    (∃ (s : State) (p : PageNo),
        s.flag (BitVec.toNat p) F.PG_STS_COMMIT_PEND = false ∨ s.commitWaits (BitVec.toNat p) = true) ∧
    (∃ (s : State) (p : PageNo) (c : ℕ),
      let u : State := s.put (BitVec.toNat p) F.PG_STS_COMMIT_PEND false
      BitVec.toNat p = pg T.chn c ∧ c < 256 ∧ s.flag (BitVec.toNat p) F.PG_STS_COMMIT_PEND = true ∧
          s.commitWaits (BitVec.toNat p) = false ∧ u.wftValid c = true) ∧
    (∃ (s : State) (p : PageNo) (c : ℕ),
      let u : State := s.put (BitVec.toNat p) F.PG_STS_COMMIT_PEND false
      BitVec.toNat p = pg T.chn c ∧ c < 256 ∧ s.flag (BitVec.toNat p) F.PG_STS_COMMIT_PEND = true ∧
          s.commitWaits (BitVec.toNat p) = false ∧ u.wftValid c = false) ∧
    (∃ (s : State) (p : PageNo) (e : ℕ),
      let u : State := s.put (BitVec.toNat p) F.PG_STS_COMMIT_PEND false
      BitVec.toNat p = pg T.dds e ∧ e < 16 ∧ s.flag (BitVec.toNat p) F.PG_STS_COMMIT_PEND = true ∧
          s.commitWaits (BitVec.toNat p) = false ∧ (u.ddsInvalid e).isSome = false ∧ u.ddsShadowErrs e = []) ∧
    (∃ (s : State) (p : PageNo) (e : ℕ),
      let u : State := s.put (BitVec.toNat p) F.PG_STS_COMMIT_PEND false
      BitVec.toNat p = pg T.dds e ∧ e < 16 ∧ s.flag (BitVec.toNat p) F.PG_STS_COMMIT_PEND = true ∧
          s.commitWaits (BitVec.toNat p) = false ∧ (u.ddsInvalid e).isSome = false) ∧
    (∃ (s : State) (p : PageNo) (e : ℕ),
      let u : State := s.put (BitVec.toNat p) F.PG_STS_COMMIT_PEND false
      BitVec.toNat p = pg T.dds e ∧ e < 16 ∧ s.flag (BitVec.toNat p) F.PG_STS_COMMIT_PEND = true ∧
          s.commitWaits (BitVec.toNat p) = false ∧ (u.ddsInvalid e).isSome = true) ∧
    (∃ (s : State) (p : PageNo) (r : ℕ) (x : ℕ),
      let u : State := s.put (BitVec.toNat p) F.PG_STS_COMMIT_PEND false
      BitVec.toNat p = calPg ∧ s.flag (BitVec.toNat p) F.PG_STS_COMMIT_PEND = true ∧ u.calBad = some (r, x)) ∧
    (∃ (s : State) (p : PageNo),
      let u : State := s.put (BitVec.toNat p) F.PG_STS_COMMIT_PEND false
      BitVec.toNat p = calPg ∧ s.flag (BitVec.toNat p) F.PG_STS_COMMIT_PEND = true ∧ u.calBad = none) ∧
    (∃ (s : State) (p : PageNo), BitVec.toNat p = glbPg ∧ s.flag glbPg F.PG_STS_COMMIT_PEND = true ∧
        (∀ x ∈ s.segS, s.segPend.contains (x.1 / 4096) = true → s.segBad (x.1 / 4) = 0)) ∧
    (∃ (s : State) (p : PageNo), BitVec.toNat p = glbPg ∧ s.flag glbPg F.PG_STS_COMMIT_PEND = true ∧
        (∃ x ∈ s.segS, s.segPend.contains (x.1 / 4096) = true ∧ s.segBad (x.1 / 4) ≠ 0)) ∧
    (∃ (s : State) (p : PageNo) (x : ℕ),
      let w : State := if s.enabled (BitVec.toNat p) = true ∧
          s.tlOn = true then s.upTo ((s.now + 4194303) / 4194304 * 4194304) else s
      let u : State := w.put (BitVec.toNat p) F.PG_STS_COMMIT_PEND false
      BitVec.toNat p = xbrPg x ∧ x < 2 ∧ s.flag (BitVec.toNat p) F.PG_STS_COMMIT_PEND = true ∧
          (∀ n < 1024, u.slotBad x n = 0) ∧ u.openRule x = true) ∧
    (∃ (s : State) (p : PageNo) (x : ℕ) (n : ℕ),
      let w : State := if s.enabled (BitVec.toNat p) = true ∧
          s.tlOn = true then s.upTo ((s.now + 4194303) / 4194304 * 4194304) else s
      let u : State := w.put (BitVec.toNat p) F.PG_STS_COMMIT_PEND false
      BitVec.toNat p = xbrPg x ∧ x < 2 ∧ s.flag (BitVec.toNat p) F.PG_STS_COMMIT_PEND = true ∧ n < 1024 ∧
          u.slotBad x n ≠ 0 ∧ (∀ m < n, u.slotBad x m = 0)) ∧
    (∃ (s : State) (p : PageNo),
        s.resetting.contains (BitVec.toNat p) = true ∨ s.flag (BitVec.toNat p) F.PG_STS_BUSY = false) ∧
    (∃ (s : State) (p : PageNo), s.resetting.contains (BitVec.toNat p) = false ∧
        s.flag (BitVec.toNat p) F.PG_STS_BUSY = true) :=
  ⟨⟨rS, 0, by decide +kernel⟩,
   ⟨(rS.put 512 F.PG_STS_COMMIT_PEND true), 512, 0, by decide +kernel⟩,
   ⟨(rS.put 512 F.PG_STS_COMMIT_PEND true).set 512 F.CHN_WFT_ERR_REASON 1, 512, 0, by decide +kernel⟩,
   ⟨rS.put (pg T.dds 0) F.PG_STS_COMMIT_PEND true, BitVec.ofNat 13 (pg T.dds 0), 0, by decide +kernel⟩,
   ⟨rS.put (pg T.dds 0) F.PG_STS_COMMIT_PEND true, BitVec.ofNat 13 (pg T.dds 0), 0, by decide +kernel⟩,
   ⟨{ rS.put (pg T.dds 0) F.PG_STS_COMMIT_PEND true with ddsS := [(0, 0xFFFFFFFF), (1, 0xFFFFFFFF), (2, 0xFFFFFFFF), (3, 0xFFFFFFFF)] }, BitVec.ofNat 13 (pg T.dds 0), 0, by decide +kernel⟩,
   ⟨rS.put calPg F.PG_STS_COMMIT_PEND true, 5120, 0, 1, by decide +kernel⟩,
   ⟨{ rS.put calPg F.PG_STS_COMMIT_PEND true with calS := calTables 272 }, 5120, by decide +kernel,
       by decide +kernel, calTables_commit _ rfl rfl⟩,
   ⟨rS.put glbPg F.PG_STS_COMMIT_PEND true, BitVec.ofNat 13 glbPg, by decide +kernel⟩,
   ⟨{ rS.put glbPg F.PG_STS_COMMIT_PEND true with segS := [(4, 0xFFFFFFFF), (5, 0xFFFFFFFF), (7, 0xFFFFFFFF)], segPend := [0] }, BitVec.ofNat 13 glbPg, by decide +kernel⟩,
   ⟨rS.put (xbrPg 0) F.PG_STS_COMMIT_PEND true, BitVec.ofNat 13 (xbrPg 0), 0, by decide +kernel⟩,
   ⟨(rS.put (xbrPg 0) F.PG_STS_COMMIT_PEND true).wr (xbrPg 0) 0x800 0xFFFFFFFF, BitVec.ofNat 13 (xbrPg 0), 0, 0,
       by decide +kernel⟩,
   ⟨rS, 0, by decide +kernel⟩,
   ⟨rS.put 256 F.PG_STS_BUSY true, 256, by decide +kernel⟩⟩

theorem witness_LaneOperationsGiveResults :
    (∃ (s : State) (q : Quad) (r : Instr × ℕ × Bool × Bool × (ℕ → ℤ)),
      let d : AneDyn := s.aneOf q.val
      let w : W32 := s.ucur (q.val) 3
      let regA : ℕ := fget w 13 10
      let regB : ℕ := fget w 17 14
      let a : ℕ → BitVec 40 := fun l ↦ tabGet 0 d.v (16 * l + regA)
      let b : ℕ → BitVec 40 :=
          fun l ↦ if BitVec.getLsbD w 18 = true then BitVec.ofInt 40 (toSigned 16 (fget (s.ucur (q.val) 4) 15 0)) else tabGet 0 d.v (16 * l + regB)
      let rows : List (Instr × ℕ × Bool × Bool × (ℕ → ℤ)) := [(Instr.aneAdd q, 6, true, true,
          fun l ↦ (a l).toInt + (b l).toInt), (Instr.aneSub q, 7, true, true, fun l ↦ (a l).toInt - (b l).toInt),
          (Instr.aneAbs q, 8, true, false, fun l ↦ ↑(a l).toInt.natAbs), (Instr.aneMin q, 9, true, true,
          fun l ↦ min (a l).toInt (b l).toInt), (Instr.aneMax q, 10, true, true,
          fun l ↦ max (a l).toInt (b l).toInt), (Instr.aneAnd q, 11, true, true, fun l ↦ (a l &&& b l).toInt),
          (Instr.aneOr q, 12, true, true, fun l ↦ (a l ||| b l).toInt), (Instr.aneXor q, 13, true, true,
          fun l ↦ (a l ^^^ b l).toInt), (Instr.aneShl q, 14, true, true,
          fun l ↦ (a l).toInt * 2 ^ ((b l).toNat % 64)), (Instr.aneShr q, 15, true, true,
          fun l ↦ (a l).toInt / 2 ^ ((b l).toNat % 64)), (Instr.aneMov q, 16, false, true, fun l ↦ (b l).toInt),
          (Instr.aneGetb q, 20, false, false, fun x ↦ ↑(s.get (anePg q.val) F.ANE_BEXP_SUM)), (Instr.aneLane q, 21,
          false, false, fun l ↦ ↑l)]
      r ∈ rows ∧ (s.aneState q.val = 2 ∧ fget w 5 0 = r.2.1 ∧ d.parts.testBit 2 = false ∧
          (fget (s.ucur (q.val) 1) 2 0 = 0 ∨ d.parts.testBit 0 = true) ∧
          (fget (s.ucur (q.val) 2) 2 0 = 0 ∨ d.parts.testBit 1 = true) ∧
          (r.2.2.1 = true → ∀ x ∈ d.loads, x.age ≠ 0 → x.dst ≠ regA) ∧
          (r.2.2.2.1 = true → BitVec.getLsbD w 18 = false → ∀ x ∈ d.loads, x.age ≠ 0 → x.dst ≠ regB))) ∧
    (∃ (s : State) (q : Quad) (r : Instr × ℕ × Bool × Bool × (ℕ → ℤ)),
      let d : AneDyn := s.aneOf q.val
      let w : W32 := s.ucur (q.val) 3
      let regA : ℕ := fget w 13 10
      let regB : ℕ := fget w 17 14
      let a : ℕ → BitVec 40 := fun l ↦ tabGet 0 d.v (16 * l + regA)
      let b : ℕ → BitVec 40 :=
          fun l ↦ if BitVec.getLsbD w 18 = true then BitVec.ofInt 40 (toSigned 16 (fget (s.ucur (q.val) 4) 15 0)) else tabGet 0 d.v (16 * l + regB)
      let rows : List (Instr × ℕ × Bool × Bool × (ℕ → ℤ)) := [(Instr.aneAdd q, 6, true, true,
          fun l ↦ (a l).toInt + (b l).toInt), (Instr.aneSub q, 7, true, true, fun l ↦ (a l).toInt - (b l).toInt),
          (Instr.aneAbs q, 8, true, false, fun l ↦ ↑(a l).toInt.natAbs), (Instr.aneMin q, 9, true, true,
          fun l ↦ min (a l).toInt (b l).toInt), (Instr.aneMax q, 10, true, true,
          fun l ↦ max (a l).toInt (b l).toInt), (Instr.aneAnd q, 11, true, true, fun l ↦ (a l &&& b l).toInt),
          (Instr.aneOr q, 12, true, true, fun l ↦ (a l ||| b l).toInt), (Instr.aneXor q, 13, true, true,
          fun l ↦ (a l ^^^ b l).toInt), (Instr.aneShl q, 14, true, true,
          fun l ↦ (a l).toInt * 2 ^ ((b l).toNat % 64)), (Instr.aneShr q, 15, true, true,
          fun l ↦ (a l).toInt / 2 ^ ((b l).toNat % 64)), (Instr.aneMov q, 16, false, true, fun l ↦ (b l).toInt),
          (Instr.aneGetb q, 20, false, false, fun x ↦ ↑(s.get (anePg q.val) F.ANE_BEXP_SUM)), (Instr.aneLane q, 21,
          false, false, fun l ↦ ↑l)]
      r ∈ rows ∧ (¬(s.aneState q.val = 2 ∧ fget w 5 0 = r.2.1 ∧ d.parts.testBit 2 = false ∧
          (fget (s.ucur (q.val) 1) 2 0 = 0 ∨ d.parts.testBit 0 = true) ∧
          (fget (s.ucur (q.val) 2) 2 0 = 0 ∨ d.parts.testBit 1 = true) ∧
          (r.2.2.1 = true → ∀ x ∈ d.loads, x.age ≠ 0 → x.dst ≠ regA) ∧
          (r.2.2.2.1 = true → BitVec.getLsbD w 18 = false → ∀ x ∈ d.loads, x.age ≠ 0 → x.dst ≠ regB)))) ∧
    (∃ (s : State) (q : Quad) (r : Instr × ℕ × Bool × (ℕ → ℤ)),
      let d : AneDyn := s.aneOf q.val
      let w : W32 := s.ucur (q.val) 3
      let regA : ℕ := fget w 13 10
      let regB : ℕ := fget w 17 14
      let a : ℕ → BitVec 40 := fun l ↦ tabGet 0 d.v (16 * l + regA)
      let b : ℕ → BitVec 40 :=
          fun l ↦ if BitVec.getLsbD w 18 = true then BitVec.ofInt 40 (toSigned 16 (fget (s.ucur (q.val) 4) 15 0)) else tabGet 0 d.v (16 * l + regB)
      let acc : ℕ → BitVec 40 := fun l ↦ tabGet 0 d.acc l
      let prod : ℕ → ℤ := fun l ↦ toSigned 16 (a l).toNat * toSigned 16 (b l).toNat
      let accRows : List (Instr × ℕ × Bool × (ℕ → ℤ)) := [(Instr.aneMul q, 1, true, prod), (Instr.aneMac q, 2, true,
          fun l ↦ (acc l).toInt + prod l), (Instr.aneMsu q, 3, true, fun l ↦ (acc l).toInt - prod l),
          (Instr.aneClra q, 4, false, fun x ↦ 0)]
      r ∈ accRows ∧ (s.aneState q.val = 2 ∧ fget w 5 0 = r.2.1 ∧ d.parts.testBit 2 = false ∧
          (fget (s.ucur (q.val) 1) 2 0 = 0 ∨ d.parts.testBit 0 = true) ∧
          (fget (s.ucur (q.val) 2) 2 0 = 0 ∨ d.parts.testBit 1 = true) ∧
          (r.2.2.1 = true → ∀ x ∈ d.loads, x.age ≠ 0 → x.dst ≠ regA) ∧
          (r.2.2.1 = true → BitVec.getLsbD w 18 = false → ∀ x ∈ d.loads, x.age ≠ 0 → x.dst ≠ regB))) ∧
    (∃ (s : State) (q : Quad) (r : Instr × ℕ × Bool × (ℕ → ℤ)),
      let d : AneDyn := s.aneOf q.val
      let w : W32 := s.ucur (q.val) 3
      let regA : ℕ := fget w 13 10
      let regB : ℕ := fget w 17 14
      let a : ℕ → BitVec 40 := fun l ↦ tabGet 0 d.v (16 * l + regA)
      let b : ℕ → BitVec 40 :=
          fun l ↦ if BitVec.getLsbD w 18 = true then BitVec.ofInt 40 (toSigned 16 (fget (s.ucur (q.val) 4) 15 0)) else tabGet 0 d.v (16 * l + regB)
      let acc : ℕ → BitVec 40 := fun l ↦ tabGet 0 d.acc l
      let prod : ℕ → ℤ := fun l ↦ toSigned 16 (a l).toNat * toSigned 16 (b l).toNat
      let accRows : List (Instr × ℕ × Bool × (ℕ → ℤ)) := [(Instr.aneMul q, 1, true, prod), (Instr.aneMac q, 2, true,
          fun l ↦ (acc l).toInt + prod l), (Instr.aneMsu q, 3, true, fun l ↦ (acc l).toInt - prod l),
          (Instr.aneClra q, 4, false, fun x ↦ 0)]
      r ∈ accRows ∧ (¬(s.aneState q.val = 2 ∧ fget w 5 0 = r.2.1 ∧ d.parts.testBit 2 = false ∧
          (fget (s.ucur (q.val) 1) 2 0 = 0 ∨ d.parts.testBit 0 = true) ∧
          (fget (s.ucur (q.val) 2) 2 0 = 0 ∨ d.parts.testBit 1 = true) ∧
          (r.2.2.1 = true → ∀ x ∈ d.loads, x.age ≠ 0 → x.dst ≠ regA) ∧
          (r.2.2.1 = true → BitVec.getLsbD w 18 = false → ∀ x ∈ d.loads, x.age ≠ 0 → x.dst ≠ regB)))) ∧
    (∃ (s : State) (q : Quad) (r : Instr × ℕ × (ℕ → Bool)),
      let d : AneDyn := s.aneOf q.val
      let w : W32 := s.ucur (q.val) 3
      let regA : ℕ := fget w 13 10
      let regB : ℕ := fget w 17 14
      let a : ℕ → BitVec 40 := fun l ↦ tabGet 0 d.v (16 * l + regA)
      let b : ℕ → BitVec 40 :=
          fun l ↦ if BitVec.getLsbD w 18 = true then BitVec.ofInt 40 (toSigned 16 (fget (s.ucur (q.val) 4) 15 0)) else tabGet 0 d.v (16 * l + regB)
      r ∈ [(Instr.aneCgt q, 17, fun l ↦ decide ((b l).toInt < (a l).toInt)), (Instr.aneCeq q, 18,
          fun l ↦ a l == b l)] ∧ (s.aneState q.val = 2 ∧ fget w 5 0 = r.2.1 ∧ d.parts.testBit 2 = false ∧
          (fget (s.ucur (q.val) 1) 2 0 = 0 ∨ d.parts.testBit 0 = true) ∧
          (fget (s.ucur (q.val) 2) 2 0 = 0 ∨ d.parts.testBit 1 = true) ∧
          (true = true → ∀ x ∈ d.loads, x.age ≠ 0 → x.dst ≠ regA) ∧
          (true = true → BitVec.getLsbD w 18 = false → ∀ x ∈ d.loads, x.age ≠ 0 → x.dst ≠ regB))) ∧
    (∃ (s : State) (q : Quad) (r : Instr × ℕ × (ℕ → Bool)),
      let d : AneDyn := s.aneOf q.val
      let w : W32 := s.ucur (q.val) 3
      let regA : ℕ := fget w 13 10
      let regB : ℕ := fget w 17 14
      let a : ℕ → BitVec 40 := fun l ↦ tabGet 0 d.v (16 * l + regA)
      let b : ℕ → BitVec 40 :=
          fun l ↦ if BitVec.getLsbD w 18 = true then BitVec.ofInt 40 (toSigned 16 (fget (s.ucur (q.val) 4) 15 0)) else tabGet 0 d.v (16 * l + regB)
      r ∈ [(Instr.aneCgt q, 17, fun l ↦ decide ((b l).toInt < (a l).toInt)), (Instr.aneCeq q, 18,
          fun l ↦ a l == b l)] ∧ (¬(s.aneState q.val = 2 ∧ fget w 5 0 = r.2.1 ∧ d.parts.testBit 2 = false ∧
          (fget (s.ucur (q.val) 1) 2 0 = 0 ∨ d.parts.testBit 0 = true) ∧
          (fget (s.ucur (q.val) 2) 2 0 = 0 ∨ d.parts.testBit 1 = true) ∧
          (true = true → ∀ x ∈ d.loads, x.age ≠ 0 → x.dst ≠ regA) ∧
          (true = true → BitVec.getLsbD w 18 = false → ∀ x ∈ d.loads, x.age ≠ 0 → x.dst ≠ regB)))) ∧
    (∃ (s : State) (q : Quad),
      let d : AneDyn := s.aneOf q.val
      let w : W32 := s.ucur (q.val) 3
      let regA : ℕ := fget w 13 10
      let regB : ℕ := fget w 17 14
      s.aneState q.val = 2 ∧ fget w 5 0 = 0 ∧ d.parts.testBit 2 = false ∧
          (fget (s.ucur (q.val) 1) 2 0 = 0 ∨ d.parts.testBit 0 = true) ∧
          (fget (s.ucur (q.val) 2) 2 0 = 0 ∨ d.parts.testBit 1 = true) ∧
          (false = true → ∀ x ∈ d.loads, x.age ≠ 0 → x.dst ≠ regA) ∧
          (false = true → BitVec.getLsbD w 18 = false → ∀ x ∈ d.loads, x.age ≠ 0 → x.dst ≠ regB)) ∧
    (∃ (s : State) (q : Quad),
      let d : AneDyn := s.aneOf q.val
      let w : W32 := s.ucur (q.val) 3
      let regA : ℕ := fget w 13 10
      let regB : ℕ := fget w 17 14
      ¬(s.aneState q.val = 2 ∧ fget w 5 0 = 0 ∧ d.parts.testBit 2 = false ∧
          (fget (s.ucur (q.val) 1) 2 0 = 0 ∨ d.parts.testBit 0 = true) ∧
          (fget (s.ucur (q.val) 2) 2 0 = 0 ∨ d.parts.testBit 1 = true) ∧
          (false = true → ∀ x ∈ d.loads, x.age ≠ 0 → x.dst ≠ regA) ∧
          (false = true → BitVec.getLsbD w 18 = false → ∀ x ∈ d.loads, x.age ≠ 0 → x.dst ≠ regB))) ∧
    (∃ (i : ℤ), -2 ^ 39 ≤ i ∧ i ≤ 2 ^ 39 - 1) ∧
    (∃ (i : ℤ), i < -2 ^ 39) ∧
    (∃ (i : ℤ), 2 ^ 39 - 1 < i) ∧
    (∃ (i : ℤ), i < -2 ^ 39 ∨ 2 ^ 39 - 1 < i) :=
  ⟨⟨withAne 2 {} 0 0 0 6 0, 0, _, List.mem_cons_self, by decide +kernel⟩,
   ⟨rS, 0, _, List.mem_cons_self, by decide +kernel⟩,
   ⟨withAne 2 {} 0 0 0 1 0, 0, _, List.mem_cons_self, by decide +kernel⟩,
   ⟨rS, 0, _, List.mem_cons_self, by decide +kernel⟩,
   ⟨withAne 2 {} 0 0 0 17 0, 0, _, List.mem_cons_self, by decide +kernel⟩,
   ⟨rS, 0, _, List.mem_cons_self, by decide +kernel⟩,
   ⟨withAne 2 { job := some (List.replicate 16 0xFFFFFFFF, none), xfers := [0, 1] } 0 0 0 0 0, 0, by decide +kernel⟩,
   ⟨rS, 0, by decide +kernel⟩,
   ⟨0, by decide +kernel⟩,
   ⟨-549755813889, by decide +kernel⟩,
   ⟨549755813888, by decide +kernel⟩,
   ⟨549755813888, by decide +kernel⟩⟩

theorem witness_MicrocodeOperationsGoOn :
    (∃ (s : State) (q : Quad),
      let d : AneDyn := s.aneOf q.val
      let w : W32 := s.ucur (q.val) 0
      s.aneState q.val = 2 ∧ fget w 3 0 = 0 ∧ (∀ x ∈ d.loads, x.age < 3) ∧
          (fget (s.ucur (q.val) 1) 2 0 = 0 ∨ d.parts.testBit 0 = true) ∧
          (fget (s.ucur (q.val) 2) 2 0 = 0 ∨ d.parts.testBit 1 = true) ∧
          (fget (s.ucur (q.val) 3) 5 0 = 0 ∨ d.parts.testBit 2 = true)) ∧
    (∃ (s : State) (q : Quad),
      let d : AneDyn := s.aneOf q.val
      let w : W32 := s.ucur (q.val) 0
      s.aneState q.val = 2 ∧ fget w 3 0 = 1 ∧ (∀ x ∈ d.loads, x.age < 3) ∧
          (fget (s.ucur (q.val) 1) 2 0 = 0 ∨ d.parts.testBit 0 = true) ∧
          (fget (s.ucur (q.val) 2) 2 0 = 0 ∨ d.parts.testBit 1 = true) ∧
          (fget (s.ucur (q.val) 3) 5 0 = 0 ∨ d.parts.testBit 2 = true)) ∧
    (∃ (s : State) (q : Quad),
      let d : AneDyn := s.aneOf q.val
      let w : W32 := s.ucur (q.val) 0
      let e : State := s.wordEnd q.val
      let g : AneDyn := e.aneOf q.val
      let pc : ℕ := s.get (anePg q.val) F.ANE_PC_PC
      let target : ℕ := fget w 17 4
      let blocks : ℕ := (List.filter (fun f ↦ !isCall f) g.stack).length
      (s.aneState q.val = 2 ∧ fget w 3 0 = 2 ∧ (∀ x ∈ d.loads, x.age < 3) ∧
          (fget (s.ucur (q.val) 1) 2 0 = 0 ∨ d.parts.testBit 0 = true) ∧
          (fget (s.ucur (q.val) 2) 2 0 = 0 ∨ d.parts.testBit 1 = true) ∧
          (fget (s.ucur (q.val) 3) 5 0 = 0 ∨ d.parts.testBit 2 = true)) ∧
          (4 ≤ blocks ∨ target < pc + 1 ∨ ¬∀ (a b n : ℕ) (r : List Frame),
          g.stack = Frame.block a b n :: r → target ≤ b)) ∧
    (∃ (s : State) (q : Quad),
      let d : AneDyn := s.aneOf q.val
      let w : W32 := s.ucur (q.val) 0
      let e : State := s.wordEnd q.val
      let g : AneDyn := e.aneOf q.val
      let pc : ℕ := s.get (anePg q.val) F.ANE_PC_PC
      let target : ℕ := fget w 17 4
      let blocks : ℕ := (List.filter (fun f ↦ !isCall f) g.stack).length
      (s.aneState q.val = 2 ∧ fget w 3 0 = 2 ∧ (∀ x ∈ d.loads, x.age < 3) ∧
          (fget (s.ucur (q.val) 1) 2 0 = 0 ∨ d.parts.testBit 0 = true) ∧
          (fget (s.ucur (q.val) 2) 2 0 = 0 ∨ d.parts.testBit 1 = true) ∧
          (fget (s.ucur (q.val) 3) 5 0 = 0 ∨ d.parts.testBit 2 = true)) ∧ blocks < 4 ∧ pc < target ∧
          (∀ (a b n : ℕ) (r : List Frame), g.stack = Frame.block a b n :: r → target ≤ b)) ∧
    (∃ (s : State) (q : Quad),
      let d : AneDyn := s.aneOf q.val
      let w : W32 := s.ucur (q.val) 0
      let e : State := s.wordEnd q.val
      let g : AneDyn := e.aneOf q.val
      let arg : ℕ := fget w 29 18
      (s.aneState q.val = 2 ∧ fget w 3 0 = 3 ∧ (∀ x ∈ d.loads, x.age < 3) ∧
          (fget (s.ucur (q.val) 1) 2 0 = 0 ∨ d.parts.testBit 0 = true) ∧
          (fget (s.ucur (q.val) 2) 2 0 = 0 ∨ d.parts.testBit 1 = true) ∧
          (fget (s.ucur (q.val) 3) 5 0 = 0 ∨ d.parts.testBit 2 = true)) ∧ arg % 16 < 4 ∧
          tabGet 0 g.k (arg % 16) ≠ 0) ∧
    (∃ (s : State) (q : Quad),
      let d : AneDyn := s.aneOf q.val
      let w : W32 := s.ucur (q.val) 0
      let e : State := s.wordEnd q.val
      let g : AneDyn := e.aneOf q.val
      let arg : ℕ := fget w 29 18
      (s.aneState q.val = 2 ∧ fget w 3 0 = 3 ∧ (∀ x ∈ d.loads, x.age < 3) ∧
          (fget (s.ucur (q.val) 1) 2 0 = 0 ∨ d.parts.testBit 0 = true) ∧
          (fget (s.ucur (q.val) 2) 2 0 = 0 ∨ d.parts.testBit 1 = true) ∧
          (fget (s.ucur (q.val) 3) 5 0 = 0 ∨ d.parts.testBit 2 = true)) ∧ arg % 16 < 4 ∧
          tabGet 0 g.k (arg % 16) = 0) ∧
    (∃ (s : State) (q : Quad),
      let d : AneDyn := s.aneOf q.val
      let w : W32 := s.ucur (q.val) 0
      let e : State := s.wordEnd q.val
      let g : AneDyn := e.aneOf q.val
      let arg : ℕ := fget w 29 18
      (s.aneState q.val = 2 ∧ fget w 3 0 = 3 ∧ (∀ x ∈ d.loads, x.age < 3) ∧
          (fget (s.ucur (q.val) 1) 2 0 = 0 ∨ d.parts.testBit 0 = true) ∧
          (fget (s.ucur (q.val) 2) 2 0 = 0 ∨ d.parts.testBit 1 = true) ∧
          (fget (s.ucur (q.val) 3) 5 0 = 0 ∨ d.parts.testBit 2 = true)) ∧ (arg % 16 = 4 ∧ g.f ≠ 0 ∨ arg % 16 = 5 ∧
          g.f = 65535 ∨ arg % 16 = 6 ∧ g.ovf ≠ 0)) ∧
    (∃ (s : State) (q : Quad),
      let d : AneDyn := s.aneOf q.val
      let w : W32 := s.ucur (q.val) 0
      let e : State := s.wordEnd q.val
      let g : AneDyn := e.aneOf q.val
      let arg : ℕ := fget w 29 18
      (s.aneState q.val = 2 ∧ fget w 3 0 = 3 ∧ (∀ x ∈ d.loads, x.age < 3) ∧
          (fget (s.ucur (q.val) 1) 2 0 = 0 ∨ d.parts.testBit 0 = true) ∧
          (fget (s.ucur (q.val) 2) 2 0 = 0 ∨ d.parts.testBit 1 = true) ∧
          (fget (s.ucur (q.val) 3) 5 0 = 0 ∨ d.parts.testBit 2 = true)) ∧
          (arg % 16 = 4 ∨ arg % 16 = 5 ∨ arg % 16 = 6) ∧ (¬(arg % 16 = 4 ∧ g.f ≠ 0 ∨ arg % 16 = 5 ∧
          g.f = 65535 ∨ arg % 16 = 6 ∧ g.ovf ≠ 0))) ∧
    (∃ (s : State) (q : Quad),
      let d : AneDyn := s.aneOf q.val
      let w : W32 := s.ucur (q.val) 0
      let e : State := s.wordEnd q.val
      let g : AneDyn := e.aneOf q.val
      let calls : ℕ := (List.filter isCall g.stack).length
      (s.aneState q.val = 2 ∧ fget w 3 0 = 4 ∧ (∀ x ∈ d.loads, x.age < 3) ∧
          (fget (s.ucur (q.val) 1) 2 0 = 0 ∨ d.parts.testBit 0 = true) ∧
          (fget (s.ucur (q.val) 2) 2 0 = 0 ∨ d.parts.testBit 1 = true) ∧
          (fget (s.ucur (q.val) 3) 5 0 = 0 ∨ d.parts.testBit 2 = true)) ∧ calls < 4) ∧
    (∃ (s : State) (q : Quad),
      let d : AneDyn := s.aneOf q.val
      let w : W32 := s.ucur (q.val) 0
      let e : State := s.wordEnd q.val
      let g : AneDyn := e.aneOf q.val
      let calls : ℕ := (List.filter isCall g.stack).length
      (s.aneState q.val = 2 ∧ fget w 3 0 = 4 ∧ (∀ x ∈ d.loads, x.age < 3) ∧
          (fget (s.ucur (q.val) 1) 2 0 = 0 ∨ d.parts.testBit 0 = true) ∧
          (fget (s.ucur (q.val) 2) 2 0 = 0 ∨ d.parts.testBit 1 = true) ∧
          (fget (s.ucur (q.val) 3) 5 0 = 0 ∨ d.parts.testBit 2 = true)) ∧ 4 ≤ calls) ∧
    (∃ (s : State) (q : Quad) (r : ℕ) (st : List Frame),
      let d : AneDyn := s.aneOf q.val
      let w : W32 := s.ucur (q.val) 0
      let e : State := s.wordEnd q.val
      let g : AneDyn := e.aneOf q.val
      (s.aneState q.val = 2 ∧ fget w 3 0 = 5 ∧ (∀ x ∈ d.loads, x.age < 3) ∧
          (fget (s.ucur (q.val) 1) 2 0 = 0 ∨ d.parts.testBit 0 = true) ∧
          (fget (s.ucur (q.val) 2) 2 0 = 0 ∨ d.parts.testBit 1 = true) ∧
          (fget (s.ucur (q.val) 3) 5 0 = 0 ∨ d.parts.testBit 2 = true)) ∧ g.stack = Frame.call (r + 1) :: st) ∧
    (∃ (s : State) (q : Quad),
      let d : AneDyn := s.aneOf q.val
      let w : W32 := s.ucur (q.val) 0
      let e : State := s.wordEnd q.val
      let g : AneDyn := e.aneOf q.val
      (s.aneState q.val = 2 ∧ fget w 3 0 = 5 ∧ (∀ x ∈ d.loads, x.age < 3) ∧
          (fget (s.ucur (q.val) 1) 2 0 = 0 ∨ d.parts.testBit 0 = true) ∧
          (fget (s.ucur (q.val) 2) 2 0 = 0 ∨ d.parts.testBit 1 = true) ∧
          (fget (s.ucur (q.val) 3) 5 0 = 0 ∨ d.parts.testBit 2 = true)) ∧
          (∀ (r : ℕ) (st : List Frame), g.stack ≠ Frame.call r :: st)) ∧
    (∃ (s : State) (q : Quad),
      let d : AneDyn := s.aneOf q.val
      let w : W32 := s.ucur (q.val) 0
      s.aneState q.val = 2 ∧ fget w 3 0 = 6 ∧ (∀ x ∈ d.loads, x.age < 3) ∧
          (fget (s.ucur (q.val) 1) 2 0 = 0 ∨ d.parts.testBit 0 = true) ∧
          (fget (s.ucur (q.val) 2) 2 0 = 0 ∨ d.parts.testBit 1 = true) ∧
          (fget (s.ucur (q.val) 3) 5 0 = 0 ∨ d.parts.testBit 2 = true)) ∧
    (∃ (s : State) (q : Quad),
      let d : AneDyn := s.aneOf q.val
      let w : W32 := s.ucur (q.val) 0
      s.aneState q.val = 2 ∧ fget w 3 0 = 7 ∧ (∀ x ∈ d.loads, x.age < 3) ∧
          (fget (s.ucur (q.val) 1) 2 0 = 0 ∨ d.parts.testBit 0 = true) ∧
          (fget (s.ucur (q.val) 2) 2 0 = 0 ∨ d.parts.testBit 1 = true) ∧
          (fget (s.ucur (q.val) 3) 5 0 = 0 ∨ d.parts.testBit 2 = true)) ∧
    (∃ (s : State) (q : Quad) (j : List W32) (slot : Option ℕ),
      let d : AneDyn := s.aneOf q.val
      let w : W32 := s.ucur (q.val) 0
      let e : State := s.wordEnd q.val
      let g : AneDyn := e.aneOf q.val
      let arg : ℕ := fget w 29 18
      (s.aneState q.val = 2 ∧ fget w 3 0 = 8 ∧ (∀ x ∈ d.loads, x.age < 3) ∧
          (fget (s.ucur (q.val) 1) 2 0 = 0 ∨ d.parts.testBit 0 = true) ∧
          (fget (s.ucur (q.val) 2) 2 0 = 0 ∨ d.parts.testBit 1 = true) ∧
          (fget (s.ucur (q.val) 3) 5 0 = 0 ∨ d.parts.testBit 2 = true)) ∧ g.job = some (j, slot) ∧ (arg % 4 < 3 ∧
          xferWhen j (arg % 4) = 3)) ∧
    (∃ (s : State) (q : Quad) (j : List W32) (slot : Option ℕ),
      let d : AneDyn := s.aneOf q.val
      let w : W32 := s.ucur (q.val) 0
      let e : State := s.wordEnd q.val
      let g : AneDyn := e.aneOf q.val
      let arg : ℕ := fget w 29 18
      (s.aneState q.val = 2 ∧ fget w 3 0 = 8 ∧ (∀ x ∈ d.loads, x.age < 3) ∧
          (fget (s.ucur (q.val) 1) 2 0 = 0 ∨ d.parts.testBit 0 = true) ∧
          (fget (s.ucur (q.val) 2) 2 0 = 0 ∨ d.parts.testBit 1 = true) ∧
          (fget (s.ucur (q.val) 3) 5 0 = 0 ∨ d.parts.testBit 2 = true)) ∧ g.job = some (j, slot) ∧
          (arg % 4 = 3 ∨ xferWhen j (arg % 4) ≠ 3)) ∧
    (∃ (s : State) (q : Quad),
      let d : AneDyn := s.aneOf q.val
      let w : W32 := s.ucur (q.val) 0
      let arg : ℕ := fget w 29 18
      (s.aneState q.val = 2 ∧ fget w 3 0 = 9 ∧ (∀ x ∈ d.loads, x.age < 3) ∧
          (fget (s.ucur (q.val) 1) 2 0 = 0 ∨ d.parts.testBit 0 = true) ∧
          (fget (s.ucur (q.val) 2) 2 0 = 0 ∨ d.parts.testBit 1 = true) ∧
          (fget (s.ucur (q.val) 3) 5 0 = 0 ∨ d.parts.testBit 2 = true)) ∧ arg % 4 ∉ d.xfers) ∧
    (∃ (s : State) (q : Quad),
      let d : AneDyn := s.aneOf q.val
      let w : W32 := s.ucur (q.val) 0
      let arg : ℕ := fget w 29 18
      (s.aneState q.val = 2 ∧ fget w 3 0 = 9 ∧ (∀ x ∈ d.loads, x.age < 3) ∧
          (fget (s.ucur (q.val) 1) 2 0 = 0 ∨ d.parts.testBit 0 = true) ∧
          (fget (s.ucur (q.val) 2) 2 0 = 0 ∨ d.parts.testBit 1 = true) ∧
          (fget (s.ucur (q.val) 3) 5 0 = 0 ∨ d.parts.testBit 2 = true)) ∧ arg % 4 ∈ d.xfers) ∧
    (∃ (s : State) (q : Quad) (j : List W32) (slot : Option ℕ),
      let d : AneDyn := s.aneOf q.val
      let w : W32 := s.ucur (q.val) 0
      let e : State := s.wordEnd q.val
      let g : AneDyn := e.aneOf q.val
      (s.aneState q.val = 2 ∧ fget w 3 0 = 10 ∧ (∀ x ∈ d.loads, x.age < 3) ∧
          (fget (s.ucur (q.val) 1) 2 0 = 0 ∨ d.parts.testBit 0 = true) ∧
          (fget (s.ucur (q.val) 2) 2 0 = 0 ∨ d.parts.testBit 1 = true) ∧
          (fget (s.ucur (q.val) 3) 5 0 = 0 ∨ d.parts.testBit 2 = true)) ∧ g.job = some (j, slot) ∧ (g.xfers = [] ∧
          xfersAt j 2 = [])) ∧
    (∃ (s : State) (q : Quad) (j : List W32) (slot : Option ℕ),
      let d : AneDyn := s.aneOf q.val
      let w : W32 := s.ucur (q.val) 0
      let e : State := s.wordEnd q.val
      let g : AneDyn := e.aneOf q.val
      (s.aneState q.val = 2 ∧ fget w 3 0 = 10 ∧ (∀ x ∈ d.loads, x.age < 3) ∧
          (fget (s.ucur (q.val) 1) 2 0 = 0 ∨ d.parts.testBit 0 = true) ∧
          (fget (s.ucur (q.val) 2) 2 0 = 0 ∨ d.parts.testBit 1 = true) ∧
          (fget (s.ucur (q.val) 3) 5 0 = 0 ∨ d.parts.testBit 2 = true)) ∧ g.job = some (j, slot) ∧ (¬(g.xfers = [] ∧
          xfersAt j 2 = []))) ∧
    (∃ (s : State) (q : Quad),
      let d : AneDyn := s.aneOf q.val
      let w : W32 := s.ucur (q.val) 0
      s.aneState q.val = 2 ∧ fget w 3 0 = 11 ∧ (∀ x ∈ d.loads, x.age < 3) ∧
          (fget (s.ucur (q.val) 1) 2 0 = 0 ∨ d.parts.testBit 0 = true) ∧
          (fget (s.ucur (q.val) 2) 2 0 = 0 ∨ d.parts.testBit 1 = true) ∧
          (fget (s.ucur (q.val) 3) 5 0 = 0 ∨ d.parts.testBit 2 = true)) ∧
    (∃ (s : State) (q : Quad) (r : Instr × ℕ),
      let d : AneDyn := s.aneOf q.val
      let w : W32 := s.ucur (q.val) 0
      r ∈ [(Instr.aneNext q, 0), (Instr.aneJump q, 1), (Instr.aneBlock q, 2), (Instr.aneBranch q, 3),
          (Instr.aneCall q, 4), (Instr.aneRet q, 5), (Instr.aneBexp q, 6), (Instr.aneLdp q, 7), (Instr.aneXfer q, 8),
          (Instr.aneWait q, 9), (Instr.aneDone q, 10), (Instr.aneSetk q, 11)] ∧ (¬(s.aneState q.val = 2 ∧
          fget w 3 0 = r.2 ∧ (∀ x ∈ d.loads, x.age < 3) ∧
          (fget (s.ucur (q.val) 1) 2 0 = 0 ∨ d.parts.testBit 0 = true) ∧
          (fget (s.ucur (q.val) 2) 2 0 = 0 ∨ d.parts.testBit 1 = true) ∧
          (fget (s.ucur (q.val) 3) 5 0 = 0 ∨ d.parts.testBit 2 = true)))) ∧
    (∃ (n : ℕ), 64 ≤ n ∧ n < 8192) ∧
    (∃ (b : ℕ) (pc : ℕ), pc ≠ b) :=
  ⟨⟨withAne 2 { job := some (List.replicate 16 0xFFFFFFFF, none), xfers := [0, 1] } 0 0 0 0 0, 0, by decide +kernel⟩,
   ⟨withAne 2 {} 1 0 0 0 0, 0, by decide +kernel⟩,
   ⟨withAne 2 {} 2 0 0 0 0, 0, by decide +kernel, .inr (.inl (by decide +kernel))⟩,
   ⟨withAne 2 {} (2 + 16 * 8195) 0 0 0 0, 0, by decide +kernel, by decide +kernel, by decide +kernel,
       fun a b n r h => by have h1 : ([] : List Frame) = Frame.block a b n :: r := h; cases h1⟩,
   ⟨withAne 2 { k := [(0, 5)] } 3 0 0 0 0, 0, by decide +kernel⟩,
   ⟨withAne 2 {} 3 0 0 0 0, 0, by decide +kernel⟩,
   ⟨withAne 2 { f := 1 } (3 + 4 * 2 ^ 18) 0 0 0 0, 0, by decide +kernel⟩,
   ⟨withAne 2 {} (3 + 4 * 2 ^ 18) 0 0 0 0, 0, by decide +kernel⟩,
   ⟨withAne 2 {} 4 0 0 0 0, 0, by decide +kernel⟩,
   ⟨withAne 2 { stack := List.replicate 4 (.call 1) } 4 0 0 0 0, 0, by decide +kernel⟩,
   ⟨withAne 2 { stack := [.call 4] } 5 0 0 0 0, 0, 3, [], by decide +kernel⟩,
   ⟨withAne 2 {} 5 0 0 0 0, 0, by decide +kernel,
       fun r st h => by have h1 : ([] : List Frame) = Frame.call r :: st := h; cases h1⟩,
   ⟨withAne 2 {} 6 0 0 0 0, 0, by decide +kernel⟩,
   ⟨withAne 2 {} 7 0 0 0 0, 0, by decide +kernel⟩,
   ⟨withAne 2 { job := some ([0, 0, 0, 0, 0x180000], none) } 8 0 0 0 0, 0, [0, 0, 0, 0, 0x180000], none,
       by decide +kernel⟩,
   ⟨withAne 2 { job := some ([], none) } 8 0 0 0 0, 0, [], none, by decide +kernel⟩,
   ⟨withAne 2 {} 9 0 0 0 0, 0, by decide +kernel⟩,
   ⟨withAne 2 { xfers := [0] } 9 0 0 0 0, 0, by decide +kernel⟩,
   ⟨withAne 2 { job := some ([], none) } 10 0 0 0 0, 0, [], none, by decide +kernel⟩,
   ⟨withAne 2 { job := some ([0, 0, 0, 0, 0x100000], none) } 10 0 0 0 0, 0, [0, 0, 0, 0, 0x100000], none,
       by decide +kernel⟩,
   ⟨withAne 2 {} 11 0 0 0 0, 0, by decide +kernel⟩,
   ⟨rS, 0, _, List.mem_cons_self, by decide +kernel⟩,
   ⟨64, by decide +kernel⟩,
   ⟨1, 0, by decide +kernel⟩⟩

theorem witness_ReferenceAndLocksSetTheClocks :
    (∃ (s : State), s.flag tbsPg F.TBS_REF_STS_REF_PRESENT = true) ∧
    (∃ (s : State), s.flag tbsPg F.TBS_REF_STS_REF_PRESENT = false) ∧
    (∃ (s : State), s.holdover = true) ∧
    (∃ (s : State), s.holdover = false) ∧
    (∃ (s : State), s.tlOn = false ∧ s.get tbsPg F.TBS_REF_STS_QPLL_LOCK = 15 ∧
        s.flag tbsPg F.TBS_REF_STS_CPLL_LOCK = true) ∧
    (∃ (s : State), s.tlOn = true ∨ s.pllsLocked = false) ∧
    (∃ (s : State), Reaches s tbsPg) ∧
    (∃ (s : State), s.flag tbsPg F.TBS_REFCAL_CTL_CAP_ARM = false) ∧
    (∃ (s : State), s.flag tbsPg F.TBS_REFCAL_CTL_CAP_ARM = true) :=
  ⟨⟨rS.put tbsPg F.TBS_REF_STS_REF_PRESENT true, by decide +kernel⟩,
   ⟨rS, by decide +kernel⟩,
   ⟨(rS.put tbsPg F.TBS_REF_STS_HOLDOVER true).rise tbsPg X.TBS_REF_LOSS, by decide +kernel⟩,
   ⟨rS, by decide +kernel⟩,
   ⟨(rS.set tbsPg F.TBS_REF_STS_QPLL_LOCK 15).put tbsPg F.TBS_REF_STS_CPLL_LOCK true, by decide +kernel⟩,
   ⟨rS, by decide +kernel⟩,
   ⟨uS, by decide +kernel⟩,
   ⟨rS, by decide +kernel⟩,
   ⟨rS.put tbsPg F.TBS_REFCAL_CTL_CAP_ARM true, by decide +kernel⟩⟩

theorem witness_FlashCommandsAndKillRelease :
    (∃ (s : State), Reaches s secPg ∧ s.flash.op ≠ none) ∧
    (∃ (s : State), Reaches s secPg ∧ (¬s.flash.op ≠ none)) ∧
    (∃ (s : State),
      let a : ℕ := s.get secPg F.SEC_FLASH_ADDR_ADDR
      Reaches s secPg ∧ (¬s.flash.op ≠ none) ∧ s.flashAllowed a = false) ∧
    (∃ (s : State),
      let a : ℕ := s.get secPg F.SEC_FLASH_ADDR_ADDR
      Reaches s secPg ∧ (¬s.flash.op ≠ none) ∧ s.flashAllowed a = true) ∧
    (∃ (s : State), s.flash.op = none) ∧
    (∃ (s : State) (op : ℕ) (a : ℕ) (d : W32), s.flash.op = some (op, a, d)) ∧
    (∃ (s : State), Reaches s glbPg) :=
  ⟨⟨withFlash 1, by decide +kernel⟩,
   ⟨inGroup (aGroup .running), by decide +kernel⟩,
   ⟨inGroup (aGroup .running), by decide +kernel⟩,
   ⟨(atStage 1).set secPg F.SEC_FLASH_ADDR_ADDR 0x224000, by decide +kernel⟩,
   ⟨rS, by decide +kernel⟩,
   ⟨withFlash 2, _, _, _, rfl⟩,
   ⟨uS, by decide +kernel⟩⟩

theorem witness_TicketActionsStart :
    (∃ (s : State) (i : Fin 1024), s.ticketNew (i.val) 1 = none) ∧
    (∃ (s : State) (i : Fin 1024), s.ticketNew (i.val) 2 = none) ∧
    (∃ (s : State) (i : Fin 1024), s.ticketNew (i.val) 3 = none) ∧
    (∃ (s : State) (i : Fin 1024), s.ticketNew (i.val) 4 = none) ∧
    (∃ (s : State) (i : Fin 1024), s.ticketNew (i.val) 5 = none) ∧
    (∃ (s : State) (i : Fin 1024), s.ticketNew (i.val) 6 = none) ∧
    (∃ (s : State) (i : Fin 1024) (k : Ticket),
      let a : State := s.burstSetup k k.ranAgain
      let sites : List ℕ := a.sitesOf (burstEyes k)
      let g : State × ℕ :=
          (a.modTicket i.val fun k ↦ { k with siteSt := List.map (fun i ↦ (i, 0)) sites, served := sites }).goSeq (fget (k.word 4) 19 16) false [i.val]
      s.ticketNew (i.val) 1 = some k ∧ (k.ranAgain = true ∧ (g.2 = 2 ∨ g.2 = 9))) ∧
    (∃ (s : State) (i : Fin 1024) (k : Ticket),
      let a : State := s.burstSetup k k.ranAgain
      let sites : List ℕ := a.sitesOf (burstEyes k)
      let g : State × ℕ :=
          (a.modTicket i.val fun k ↦ { k with siteSt := List.map (fun i ↦ (i, 0)) sites, served := sites }).goSeq (fget (k.word 4) 19 16) false [i.val]
      s.ticketNew (i.val) 1 = some k ∧ g.2 = 0) ∧
    (∃ (s : State) (i : Fin 1024) (k : Ticket),
      let a : State := s.burstSetup k k.ranAgain
      let sites : List ℕ := a.sitesOf (burstEyes k)
      let g : State × ℕ :=
          (a.modTicket i.val fun k ↦ { k with siteSt := List.map (fun i ↦ (i, 0)) sites, served := sites }).goSeq (fget (k.word 4) 19 16) false [i.val]
      s.ticketNew (i.val) 1 = some k ∧ g.2 ≠ 0 ∧ (¬(k.ranAgain = true ∧ (g.2 = 2 ∨ g.2 = 9)))) ∧
    (∃ (s : State) (i : Fin 1024) (k : Ticket),
      let n : ℕ := fget (k.word 4) 5 0
      let p : ℕ := pg T.tdc (n / 4)
      let o : ℕ := 1024 + 64 * (n % 4)
      let a : State :=
          ((s.writeReg p o (k.word 5 &&& ~~~3) false).writeReg p (o + 4) (k.word 6) false).writeReg p (o + 8) (k.word 7) false
      let r : State × Bool := a.iuArm n (some (i.val, k.wide 8))
      s.ticketNew (i.val) 2 = some k ∧ r.2 = true) ∧
    (∃ (s : State) (i : Fin 1024) (k : Ticket),
      let n : ℕ := fget (k.word 4) 5 0
      let p : ℕ := pg T.tdc (n / 4)
      let o : ℕ := 1024 + 64 * (n % 4)
      let a : State :=
          ((s.writeReg p o (k.word 5 &&& ~~~3) false).writeReg p (o + 4) (k.word 6) false).writeReg p (o + 8) (k.word 7) false
      let r : State × Bool := a.iuArm n (some (i.val, k.wide 8))
      s.ticketNew (i.val) 2 = some k ∧ r.2 = false) ∧
    (∃ (s : State) (i : Fin 1024) (k : Ticket),
      let q : ℕ := fget (k.word 4) 1 0
      s.ticketNew (i.val) 3 = some k ∧ 8 ≤ (s.aneOf q).jobq.length) ∧
    (∃ (s : State) (i : Fin 1024) (k : Ticket),
      let q : ℕ := fget (k.word 4) 1 0
      s.ticketNew (i.val) 3 = some k ∧ (s.aneOf q).jobq.length < 8) ∧
    (∃ (s : State) (i : Fin 1024) (k : Ticket), s.ticketNew (i.val) 4 = some k) ∧
    (∃ (s : State) (i : Fin 1024) (k : Ticket), s.ticketNew (i.val) 5 = some k ∧ k.wide 4 < s.ui) ∧
    (∃ (s : State) (i : Fin 1024) (k : Ticket), s.ticketNew (i.val) 5 = some k ∧ s.ui ≤ k.wide 4) ∧
    (∃ (s : State) (i : Fin 1024) (k : Ticket), s.ticketNew (i.val) 6 = some k) :=
  ⟨⟨rS, 0, by decide +kernel⟩,
   ⟨rS, 0, by decide +kernel⟩,
   ⟨rS, 0, by decide +kernel⟩,
   ⟨rS, 0, by decide +kernel⟩,
   ⟨rS, 0, by decide +kernel⟩,
   ⟨rS, 0, by decide +kernel⟩,
   ⟨{ (inGroup (aGroup .running)) with sch := { tickets := [{ burstTicket with ranAgain := true }] } }, 0, _, rfl,
       by decide +kernel⟩,
   ⟨aBurst, 0, _, rfl, by decide +kernel⟩,
   ⟨withTicket (aTicket 1 (.running 0)), 0, _, rfl, by decide +kernel⟩,
   ⟨{ (on (atStage 3) (pg T.tdc 0)) with sch := { tickets := [aTicket 2 (.running 0)] } }, 0, _, rfl,
       by decide +kernel⟩,
   ⟨withTicket (aTicket 2 (.running 0)), 0, _, rfl, by decide +kernel⟩,
   ⟨{ (withTicket (aTicket 3 (.running 0))).setAne 0 { jobq := List.replicate 8 (List.replicate 16 0, none) } with now := 0 }, 0, _, rfl, by decide +kernel⟩,
   ⟨withTicket (aTicket 3 (.running 0)), 0, _, rfl, by decide +kernel⟩,
   ⟨withTicket (aTicket 4 (.running 0)), 0, _, rfl⟩,
   ⟨{ (withTicket (aTicket 5 (.running 0))) with now := 1000000 }, 0, _, rfl, by decide +kernel⟩,
   ⟨withTicket (aTicket 5 (.running 0)), 0, _, rfl, by decide +kernel⟩,
   ⟨withTicket (aTicket 6 (.running 0)), 0, _, rfl⟩⟩

theorem witness_EthernetFramesMoveThroughRings :
    (∃ (s : State) (e : Fin 2), s.ethOn e.val = false) ∧
    (∃ (s : State) (e : Fin 2) (st : Fin 3),
      let p : ℕ := ethPg e.val
      s.ethOn e.val = true ∧ st.val = 2 ∧ s.flag p F.ETH_CTL_FEC = true) ∧
    (∃ (s : State) (e : Fin 2) (st : Fin 3),
      let p : ℕ := ethPg e.val
      s.ethOn e.val = true ∧ (st.val = 1 ∨ st.val = 2 ∧ s.flag p F.ETH_CTL_FEC = false)) ∧
    (∃ (s : State) (e : Fin 2) (st : Fin 3) (d : List W32),
      let p : ℕ := ethPg e.val
      s.ethOn e.val = true ∧ st.val = 0 ∧ (¬(s.pci.linkUp = true ∧ s.pci.d3 = false ∧
          s.get p F.ETH_RXR_HEAD_HEAD ≠ s.get p F.ETH_RXR_TAIL_TAIL ∧ BitVec.getLsbD (d.getD 2 0) 14 = true))) ∧
    (∃ (s : State) (e : Fin 2) (st : Fin 3) (d : List W32),
      let p : ℕ := ethPg e.val
      s.ethOn e.val = true ∧ st.val = 0 ∧ (s.pci.linkUp = true ∧ s.pci.d3 = false ∧
          s.get p F.ETH_RXR_HEAD_HEAD ≠ s.get p F.ETH_RXR_TAIL_TAIL ∧ BitVec.getLsbD (d.getD 2 0) 14 = true)) ∧
    (∃ (s : State) (e : Fin 2) (d : List W32),
      let p : ℕ := ethPg e.val
      let w : W32 := d.getD 2 0
      ¬(s.ethOn e.val = true ∧ s.pci.linkUp = true ∧ s.pci.d3 = false ∧
          s.get p F.ETH_TXR_HEAD_HEAD ≠ s.get p F.ETH_TXR_TAIL_TAIL ∧ BitVec.getLsbD w 14 = true)) ∧
    (∃ (s : State) (e : Fin 2) (d : List W32) (bad : Bool),
      let p : ℕ := ethPg e.val
      let w : W32 := d.getD 2 0
      (s.ethOn e.val = true ∧ s.pci.linkUp = true ∧ s.pci.d3 = false ∧
          s.get p F.ETH_TXR_HEAD_HEAD ≠ s.get p F.ETH_TXR_TAIL_TAIL ∧ BitVec.getLsbD w 14 = true) ∧ bad = true) ∧
    (∃ (s : State) (e : Fin 2) (f : List Byte) (d : List W32) (bad : Bool) (o : Option (List Byte)),
      let p : ℕ := ethPg e.val
      let w : W32 := d.getD 2 0
      let g : List Byte := List.take (fget w 13 0) f
      let c : ℕ := s.ethStamp (e.val) true
      (s.ethOn e.val = true ∧ s.pci.linkUp = true ∧ s.pci.d3 = false ∧
          s.get p F.ETH_TXR_HEAD_HEAD ≠ s.get p F.ETH_TXR_TAIL_TAIL ∧ BitVec.getLsbD w 14 = true) ∧ bad = false ∧
          (o = if BitVec.getLsbD w 16 = true then (ptpEvent g).bind fun x ↦ oneStep g x c (s.flag p F.ETH_CTL_UDP4_ZERO) else none)) ∧
    (∃ (s : State) (e : Fin 2) (tx : Bool),
      let u : State := (s.put pciPg F.PCI_STS_CPL_TMO true).rise pciPg X.PCI_CPL_TMO
      u.ethHas (e.val) tx = true) ∧
    (∃ (s : State) (e : Fin 2) (tx : Bool),
      let u : State := (s.put pciPg F.PCI_STS_CPL_TMO true).rise pciPg X.PCI_CPL_TMO
      u.ethHas (e.val) tx = false) :=
  ⟨⟨rS, 0, by decide +kernel⟩,
   ⟨((on (atStage 2) (ethPg 0)).put (ethPg 0) F.ETH_STS_LINK true).put (ethPg 0) F.ETH_CTL_FEC true, 0, 2,
       by decide +kernel⟩,
   ⟨(((on (atStage 2) (ethPg 0)).set (ethPg 0) F.ETH_RXR_TAIL_TAIL 1).set (ethPg 0) F.ETH_TXR_TAIL_TAIL 1).put (ethPg 0) F.ETH_STS_LINK true, 0, 2, by decide +kernel⟩,
   ⟨(((on (atStage 2) (ethPg 0)).set (ethPg 0) F.ETH_RXR_TAIL_TAIL 1).set (ethPg 0) F.ETH_TXR_TAIL_TAIL 1).put (ethPg 0) F.ETH_STS_LINK true, 0, 0, [], by decide +kernel⟩,
   ⟨{ ((on (atStage 2) (ethPg 0)).set (ethPg 0) F.ETH_RXR_TAIL_TAIL 1).put (ethPg 0) F.ETH_STS_LINK true with pci := { linkUp := true } }, 0, 0, [0, 0, 0x4000, 0], by decide +kernel⟩,
   ⟨rS, 0, [], by decide +kernel⟩,
   ⟨{ ((on (atStage 2) (ethPg 0)).set (ethPg 0) F.ETH_TXR_TAIL_TAIL 1).put (ethPg 0) F.ETH_STS_LINK true with pci := { linkUp := true } }, 0, [0, 0, 0x4000, 0], true, by decide +kernel⟩,
   ⟨{ ((on (atStage 2) (ethPg 0)).set (ethPg 0) F.ETH_TXR_TAIL_TAIL 1).put (ethPg 0) F.ETH_STS_LINK true with pci := { linkUp := true } }, 0, [], [0, 0, 0x4000, 0], false, none, by decide +kernel⟩,
   ⟨((on (atStage 2) (ethPg 0)).set (ethPg 0) F.ETH_RXR_TAIL_TAIL 1).set (ethPg 0) F.ETH_TXR_TAIL_TAIL 1, 0, false,
       by decide +kernel⟩,
   ⟨rS, 0, false, by decide +kernel⟩⟩

theorem witness_SequencersPlayAndStop :
    (∃ (s : State) (e : Eye), s.groupOf e.val = none) ∧
    (∃ (s : State) (e : Eye) (g : Group), s.groupOf e.val = some g ∧ g.st ≠ GState.running) ∧
    (∃ (s : State) (e : Eye) (g : Group), s.groupOf e.val = some g ∧ g.st = GState.running ∧
        (g.begun = true ∨ g.holds ≠ 0)) ∧
    (∃ (s : State) (e : Eye) (g : Group), s.groupOf e.val = some g ∧ g.st = GState.running ∧ g.begun = false ∧
        g.holds = 0) ∧
    (∃ (s : State) (e : Eye),
      let p : ℕ := eyePg e.val
      Reaches s (eyePg e.val) ∧ s.flag p F.EYE_SEQ_STS_FOLLOWER = true) ∧
    (∃ (s : State) (e : Eye) (v : W32),
      let p : ℕ := eyePg e.val
      Reaches s (eyePg e.val) ∧ s.flag p F.EYE_SEQ_STS_FOLLOWER = false ∧ v &&& 6 ≠ 0) ∧
    (∃ (s : State) (e : Eye) (v : W32),
      let p : ℕ := eyePg e.val
      let put : W32 → State := fun w ↦ s.writeReg p 256 w false
      let held : W32 → State → State :=
          fun w u ↦ if BitVec.getLsbD w 2 = true then u.abortSeq e.val else if BitVec.getLsbD w 1 = true then u.stopSeq e.val else u
      let u : State := held (v ||| 1) (put (v ||| 1))
      let t : Option ℕ :=
          if u.flag p F.EYE_SEQ_CTL_START_MODE = true then none else some (u.get64 p F.EYE_SEQ_START_LO_T F.EYE_SEQ_START_HI_T)
      let r : ℕ := u.startReason (e.val) false t
      Reaches s (eyePg e.val) ∧ s.flag p F.EYE_SEQ_STS_FOLLOWER = false ∧ v &&& 6 = 0 ∧ r = 0) ∧
    (∃ (s : State) (e : Eye) (v : W32),
      let p : ℕ := eyePg e.val
      let put : W32 → State := fun w ↦ s.writeReg p 256 w false
      let held : W32 → State → State :=
          fun w u ↦ if BitVec.getLsbD w 2 = true then u.abortSeq e.val else if BitVec.getLsbD w 1 = true then u.stopSeq e.val else u
      let u : State := held (v ||| 1) (put (v ||| 1))
      let t : Option ℕ :=
          if u.flag p F.EYE_SEQ_CTL_START_MODE = true then none else some (u.get64 p F.EYE_SEQ_START_LO_T F.EYE_SEQ_START_HI_T)
      let r : ℕ := u.startReason (e.val) false t
      Reaches s (eyePg e.val) ∧ s.flag p F.EYE_SEQ_STS_FOLLOWER = false ∧ v &&& 6 = 0 ∧ r ≠ 0) ∧
    (∃ (s : State) (e : Eye) (v : W32),
      let p : ℕ := eyePg e.val
      Reaches s (eyePg e.val) ∧ s.flag p F.EYE_SEQ_STS_FOLLOWER = false ∧ BitVec.getLsbD v 0 = false) ∧
    (∃ (s : State) (e : Eye) (u : State) (g : Group), Reaches s (eyePg e.val) ∧ u.ledBy e.val = some g ∧
        g.st = GState.running) ∧
    (∃ (s : State) (e : Eye) (u : State) (g : Group), Reaches s (eyePg e.val) ∧ u.ledBy e.val = some g ∧
        g.st ≠ GState.running) ∧
    (∃ (s : State) (e : Eye), Reaches s (eyePg e.val) ∧ s.groupOf e.val = none) ∧
    (∃ (s : State) (e : Eye) (g : Group), Reaches s (eyePg e.val) ∧ s.groupOf e.val = some g) ∧
    (∃ (s : State) (e : Eye) (v : W32),
      let r : State × Bool := writeAt s (eyePg e.val) 288 v false
      Reaches s (eyePg e.val) ∧ r.2 = false) ∧
    (∃ (s : State) (e : Eye) (v : W32),
      let r : State × Bool := writeAt s (eyePg e.val) 288 v false
      let u : State := r.1.idleForce (eyePg e.val)
      Reaches s (eyePg e.val) ∧ r.2 = true ∧ u.ledBy e.val = none) ∧
    (∃ (s : State) (e : Eye) (v : W32) (g : Group),
      let r : State × Bool := writeAt s (eyePg e.val) 288 v false
      let u : State := r.1.idleForce (eyePg e.val)
      Reaches s (eyePg e.val) ∧ r.2 = true ∧ u.ledBy e.val = some g) ∧
    (∃ (s : State) (e : Eye) (g : Group) (t : ℕ) (arm : ℕ), s.ledBy e.val = some g ∧ g.st = GState.waiting ∧
        (s.eyeOf g.leader).sync = some (t, arm)) ∧
    (∃ (s : State) (e : Eye), ∀ (g : Group),
        s.ledBy e.val = some g → g.st ≠ GState.waiting ∨ (s.eyeOf g.leader).sync = none) :=
  ⟨⟨rS, 0, by decide +kernel⟩,
   ⟨inGroup (aGroup .armed), 0, _, rfl, by decide +kernel⟩,
   ⟨inGroup { aGroup .running with begun := true }, 0, _, rfl, by decide +kernel⟩,
   ⟨{ (on rS tbsPg).put tbsPg F.TBS_LACE_CTL_ALIGN_ARM true with groups := [aGroup .running] }, 0, _, rfl,
       by decide +kernel⟩,
   ⟨uS.put (eyePg 0) F.EYE_SEQ_STS_FOLLOWER true, 0, by decide +kernel⟩,
   ⟨uS, 0, 0x2, by decide +kernel⟩,
   ⟨aStart, 0, 0x10, by decide +kernel⟩,
   ⟨uS, 0, 0x0, by decide +kernel⟩,
   ⟨uS, 0, 0x0, by decide +kernel⟩,
   ⟨uS, 0, inGroup (aGroup .running), aGroup .running, by decide +kernel⟩,
   ⟨uS, 0, inGroup (aGroup .armed), aGroup .armed, by decide +kernel⟩,
   ⟨uS, 0, by decide +kernel⟩,
   ⟨inGroup (aGroup .running), 0, aGroup .running, by decide +kernel⟩,
   ⟨uS.put (eyePg 0) F.PG_CTL_CFG_LOCK true, 0, 0x1, by decide +kernel⟩,
   ⟨uS, 0, 0x0, by decide +kernel⟩,
   ⟨inGroup (aGroup .running), 0, 0, aGroup .running, by decide +kernel⟩,
   ⟨(inGroup (aGroup .waiting)).setEye 0 { sync := some (5, 0) }, 0, aGroup .waiting, 5, 0, by decide +kernel⟩,
   ⟨rS, 0, by decide +kernel⟩⟩

theorem witness_CrossbarSlotsGrantAndAge :
    (∃ (s : State) (x : Fin 2), s.memServes x.val = false) ∧
    (∃ (s : State) (x : Fin 2) (req : List MemReq),
      let rs : List MemAcc :=
          List.filter (fun a ↦ hbmStack a.addr == x.val && !s.aliased a.addr) (List.map (fun r ↦ { r with port := r.port.val, addr := r.addr.toNat / 32 * 32, drops := 0 }) req)
      let d : XbrDyn := s.xbrOf x.val
      let u : State :=
          s.setXbr x.val { d with ready := d.ready ++ rs, last := if rs.isEmpty = true then d.last else s.mono }
      let g : List MemAcc × Bool := u.slotPick x.val
      let w : XbrDyn := u.xbrOf x.val
      let r : List QAcc × List MemAcc := u.enqueue (x.val) w.grants g.1 w.queue []
      s.memServes x.val = true ∧ (g.2 = true ∧ r.2 ≠ [])) ∧
    (∃ (s : State) (x : Fin 2) (req : List MemReq),
      let rs : List MemAcc :=
          List.filter (fun a ↦ hbmStack a.addr == x.val && !s.aliased a.addr) (List.map (fun r ↦ { r with port := r.port.val, addr := r.addr.toNat / 32 * 32, drops := 0 }) req)
      let d : XbrDyn := s.xbrOf x.val
      let u : State :=
          s.setXbr x.val { d with ready := d.ready ++ rs, last := if rs.isEmpty = true then d.last else s.mono }
      let g : List MemAcc × Bool := u.slotPick x.val
      let w : XbrDyn := u.xbrOf x.val
      let r : List QAcc × List MemAcc := u.enqueue (x.val) w.grants g.1 w.queue []
      s.memServes x.val = true ∧ (g.2 = false ∨ r.2 = [])) ∧
    (∃ (s : State) (x : Fin 2) (p : Fin 48),
      let d : XbrDyn := s.xbrOf x.val
      let l : ℕ := s.get (xbrPg x.val) (F.XBR_WAIT_LIMIT_LIMIT.off (4 * p.val))
      l ≠ 0 ∧ l ≤ waitOf d p.val ∧ p.val ∉ d.forced) ∧
    (∃ (s : State) (x : Fin 2) (p : Fin 48),
      let d : XbrDyn := s.xbrOf x.val
      let l : ℕ := s.get (xbrPg x.val) (F.XBR_WAIT_LIMIT_LIMIT.off (4 * p.val))
      ¬(l ≠ 0 ∧ l ≤ waitOf d p.val ∧ p.val ∉ d.forced)) ∧
    (∃ (s : State) (x : Fin 2) (k : ℕ),
      let d : XbrDyn := s.xbrOf x.val
      d.queue[k]? = none) ∧
    (∃ (s : State) (x : Fin 2) (k : ℕ) (y : QAcc),
      let d : XbrDyn := s.xbrOf x.val
      d.queue[k]? = some y ∧ 3 ≤ y.urg) ∧
    (∃ (s : State) (x : Fin 2) (k : ℕ) (y : QAcc),
      let d : XbrDyn := s.xbrOf x.val
      d.queue[k]? = some y ∧ y.urg = 0) ∧
    (∃ (s : State) (x : Fin 2) (k : ℕ) (y : QAcc),
      let d : XbrDyn := s.xbrOf x.val
      let u : State :=
          (s.upToMono ((y.adm + urgAge y.tgt (y.urg + 1)) * 4096)).setXbr x.val { d with queue := d.queue.set k { y with urg := y.urg + 1 } }
      d.queue[k]? = some y ∧ y.urg = 1 ∧ u.rank (x.val) y.a.port ≤ u.get (xbrPg x.val) F.XBR_CTL_PRE_RANK) ∧
    (∃ (s : State) (x : Fin 2) (k : ℕ) (y : QAcc),
      let d : XbrDyn := s.xbrOf x.val
      let u : State :=
          (s.upToMono ((y.adm + urgAge y.tgt (y.urg + 1)) * 4096)).setXbr x.val { d with queue := d.queue.set k { y with urg := y.urg + 1 } }
      d.queue[k]? = some y ∧ y.urg = 1 ∧ u.get (xbrPg x.val) F.XBR_CTL_PRE_RANK < u.rank (x.val) y.a.port) ∧
    (∃ (s : State) (x : Fin 2) (k : ℕ) (y : QAcc),
      let d : XbrDyn := s.xbrOf x.val
      d.queue[k]? = some y ∧ y.urg = 2) :=
  ⟨⟨rS.set (memPg 0) F.MEM_STS_SR_STATE 1, 0, by decide +kernel⟩,
   ⟨withQ { ready := [⟨40, 0, false, false, false, 0⟩], forced := [40] }, 0, [], by decide +kernel⟩,
   ⟨withQ {}, 0, [], by decide +kernel⟩,
   ⟨(withQ { wait := [(0, 0x400)] }), 0, 0, by decide +kernel⟩,
   ⟨rS, 0, 0, by decide +kernel⟩,
   ⟨rS, 0, 0, by decide +kernel⟩,
   ⟨withQ { queue := [aQAcc 3] }, 0, 0, _, rfl, by decide +kernel⟩,
   ⟨withQ { queue := [aQAcc 0] }, 0, 0, _, rfl, by decide +kernel⟩,
   ⟨withQ { queue := [aQAcc 1] }, 0, 0, _, rfl, by decide +kernel⟩,
   ⟨(withQ { queue := [aQAcc 1] }).set (xbrPg 0) F.XBR_CTL_PRE_RANK 0, 0, 0, _, rfl, by decide +kernel⟩,
   ⟨withQ { queue := [aQAcc 2] }, 0, 0, _, rfl, by decide +kernel⟩⟩

theorem witness_WeltMessagesAndCapturesAreSent :
    (∃ (s : State), Reaches s (wltPg 0)) ∧
    (∃ (s : State), s.wq = []) ∧
    (∃ (s : State) (m : WMsg) (r : List WMsg),
      let outs : List ℕ :=
          List.filter (fun n ↦ s.wltUp n && s.flag (wltPg n) F.WLT_CTL_FWD && m.link != some n) (List.range 4)
      let k : ℕ := if m.lace = true then 1 else 0
      s.wq = m :: r ∧ (∃ n ∈ outs, 1024 < replayBlocks (s.wltOf n) + 1 + k)) ∧
    (∃ (s : State) (m : WMsg) (r : List WMsg),
      let outs : List ℕ :=
          List.filter (fun n ↦ s.wltUp n && s.flag (wltPg n) F.WLT_CTL_FWD && m.link != some n) (List.range 4)
      let k : ℕ := if m.lace = true then 1 else 0
      s.wq = m :: r ∧ (¬∃ n ∈ outs, 1024 < replayBlocks (s.wltOf n) + 1 + k)) ∧
    (∃ (s : State) (src : BitVec 6), ∀ x ∈ s.wlast, x.1 ≠ src.toNat) ∧
    (∃ (s : State) (src : BitVec 6) (x : ℕ × ℕ × ℕ), List.find? (fun x ↦ x.1 == src.toNat) s.wlast = some x) ∧
    (∃ (s : State) (n : Fin 4) (v : W32),
      let p : ℕ := wltPg n.val
      let u : State := s.writeReg p 300 (v ||| 268435456) false
      let len : ℕ := u.get p F.WLT_CAPS_CTL_LEN
      Reaches s p ∧ (u.flag p F.WLT_CAPS_CTL_BUSY = true ∨ len = 0)) ∧
    (∃ (s : State) (n : Fin 4) (v : W32),
      let p : ℕ := wltPg n.val
      let u : State := s.writeReg p 300 (v ||| 268435456) false
      let len : ℕ := u.get p F.WLT_CAPS_CTL_LEN
      Reaches s p ∧ u.flag p F.WLT_CAPS_CTL_BUSY = false ∧ len ≠ 0) ∧
    (∃ (s : State) (n : Fin 4) (v : W32),
      let p : ℕ := wltPg n.val
      let d : ℕ := fget (v ||| 2097152) 20 15
      let u : State := s.writeReg p 304 (v ||| 2097152) (decide (d < 20) || decide (40 < d))
      Reaches s p ∧ u.flag p F.WLT_ESCAN_CTL_BUSY = true) ∧
    (∃ (s : State) (n : Fin 4) (v : W32),
      let p : ℕ := wltPg n.val
      let d : ℕ := fget (v ||| 2097152) 20 15
      let u : State := s.writeReg p 304 (v ||| 2097152) (decide (d < 20) || decide (40 < d))
      Reaches s p ∧ u.flag p F.WLT_ESCAN_CTL_BUSY = false) ∧
    (∃ (s : State) (n : Fin 4), (s.wltOf n.val).scan = none) ∧
    (∃ (s : State) (n : Fin 4) (l : ℕ), (s.wltOf n.val).scan = some l) :=
  ⟨⟨uS, by decide +kernel⟩,
   ⟨rS, by decide +kernel⟩,
   ⟨{ (withWlt 2 { replay := List.replicate 2 ⟨0, 2, [], 600⟩ }).put (wltPg 0) F.WLT_CTL_FWD true with wq := [⟨false, 0, 0, 0, 0, 5, none⟩] }, _, _, rfl, by decide +kernel⟩,
   ⟨{ (withWlt 2 {}).put (wltPg 0) F.WLT_CTL_FWD true with wq := [⟨false, 0, 0, 0, 0, 5, none⟩] }, _, _, rfl,
       by decide +kernel⟩,
   ⟨rS, 0, by decide +kernel⟩,
   ⟨{ rS with wlast := [(0, 1, 5)] }, 0, _, rfl⟩,
   ⟨uS, 0, 0x0, by decide +kernel⟩,
   ⟨uS, 0, 0x1, by decide +kernel⟩,
   ⟨(withWlt 2 {}).put (wltPg 0) F.WLT_ESCAN_CTL_BUSY true, 0, 0x0, by decide +kernel⟩,
   ⟨uS, 0, 0x0, by decide +kernel⟩,
   ⟨rS, 0, by decide +kernel⟩,
   ⟨(withWlt 2 { scan := some 0 }).set (wltPg 0) F.WLT_STS_LANES 3, 0, _, rfl⟩⟩

theorem witness_TicketsAreSubmittedAndDispatched :
    (∃ (s : State), Reaches s schPg ∧ 1024 ≤ s.inflight) ∧
    (∃ (s : State) (v : W32),
      let a : State := { s with sch := { s.sch with submit := tabPut 0 s.sch.submit 15 v } }
      let k : Ticket :=
          { words := List.map (fun i ↦ tabGet 0 a.sch.submit i) (List.range 16), slot := a.freeSlot, age := a.sch.nextAge, phase := TPhase.waiting, readyAt := 0, fin := false, late := false, started := false, beginT := 0, begun := false, goIssued := false, status := 0, flags := 0, siteSt := [], served := [], expStart := none, expEnd := none, rerun := false, ranAgain := false, retries := 0, signalled := false, bin := 0, pay5 := 0, pay6 := 0, pay7 := 0, noGate := false }
      Reaches s schPg ∧ s.inflight < 1024 ∧ descBad k = true) ∧
    (∃ (s : State) (v : W32),
      let a : State := { s with sch := { s.sch with submit := tabPut 0 s.sch.submit 15 v } }
      let k : Ticket :=
          { words := List.map (fun i ↦ tabGet 0 a.sch.submit i) (List.range 16), slot := a.freeSlot, age := a.sch.nextAge, phase := TPhase.waiting, readyAt := 0, fin := false, late := false, started := false, beginT := 0, begun := false, goIssued := false, status := 0, flags := 0, siteSt := [], served := [], expStart := none, expEnd := none, rerun := false, ranAgain := false, retries := 0, signalled := false, bin := 0, pay5 := 0, pay6 := 0, pay7 := 0, noGate := false }
      let add : Ticket → State :=
          fun k ↦ { a with sch := { a.sch with tickets := a.sch.tickets ++ [k], nextAge := a.sch.nextAge + 1 } }.schSync.traceEv 1 0 k
      let j : Ticket :=
          { k with phase := if k.waitEn = false ∨ a.ctr k.waitCtr = 0 then TPhase.ready else TPhase.waiting, readyAt := a.mono }
      Reaches s schPg ∧ s.inflight < 1024 ∧ descBad k = false ∧ (add j).causeStatus = none ∧
          (k.waitEn = false ∨ a.ctr k.waitCtr = 0)) ∧
    (∃ (s : State) (v : W32),
      let a : State := { s with sch := { s.sch with submit := tabPut 0 s.sch.submit 15 v } }
      let k : Ticket :=
          { words := List.map (fun i ↦ tabGet 0 a.sch.submit i) (List.range 16), slot := a.freeSlot, age := a.sch.nextAge, phase := TPhase.waiting, readyAt := 0, fin := false, late := false, started := false, beginT := 0, begun := false, goIssued := false, status := 0, flags := 0, siteSt := [], served := [], expStart := none, expEnd := none, rerun := false, ranAgain := false, retries := 0, signalled := false, bin := 0, pay5 := 0, pay6 := 0, pay7 := 0, noGate := false }
      let add : Ticket → State :=
          fun k ↦ { a with sch := { a.sch with tickets := a.sch.tickets ++ [k], nextAge := a.sch.nextAge + 1 } }.schSync.traceEv 1 0 k
      let j : Ticket :=
          { k with phase := if k.waitEn = false ∨ a.ctr k.waitCtr = 0 then TPhase.ready else TPhase.waiting, readyAt := a.mono }
      Reaches s schPg ∧ s.inflight < 1024 ∧ descBad k = false ∧ (add j).causeStatus = none ∧
          (¬(k.waitEn = false ∨ a.ctr k.waitCtr = 0))) ∧
    (∃ (s : State) (v : W32) (c : ℕ),
      let a : State := { s with sch := { s.sch with submit := tabPut 0 s.sch.submit 15 v } }
      let k : Ticket :=
          { words := List.map (fun i ↦ tabGet 0 a.sch.submit i) (List.range 16), slot := a.freeSlot, age := a.sch.nextAge, phase := TPhase.waiting, readyAt := 0, fin := false, late := false, started := false, beginT := 0, begun := false, goIssued := false, status := 0, flags := 0, siteSt := [], served := [], expStart := none, expEnd := none, rerun := false, ranAgain := false, retries := 0, signalled := false, bin := 0, pay5 := 0, pay6 := 0, pay7 := 0, noGate := false }
      let add : Ticket → State :=
          fun k ↦ { a with sch := { a.sch with tickets := a.sch.tickets ++ [k], nextAge := a.sch.nextAge + 1 } }.schSync.traceEv 1 0 k
      let j : Ticket :=
          { k with phase := if k.waitEn = false ∨ a.ctr k.waitCtr = 0 then TPhase.ready else TPhase.waiting, readyAt := a.mono }
      Reaches s schPg ∧ s.inflight < 1024 ∧ descBad k = false ∧ (add j).causeStatus = some c) ∧
    (∃ (s : State) (v : W32),
      let n : ℕ := fget v 11 0
      Reaches s schPg ∧ s.ctr n = 0) ∧
    (∃ (s : State) (v : W32),
      let n : ℕ := fget v 11 0
      Reaches s schPg ∧ s.ctr n ≠ 0) ∧
    (∃ (s : State) (v : W32),
      let r : State × Bool := writeAt s schPg 276 v false
      Reaches s schPg ∧ r.2 = true) ∧
    (∃ (s : State) (v : W32),
      let r : State × Bool := writeAt s schPg 276 v false
      Reaches s schPg ∧ r.2 = false) ∧
    (∃ (s : State) (n : Fin 8) (rising : Bool),
        s.evtIsOut n.val = true ∨ s.flag schPg (F.SCH_EVT_CTL_EDGE.off (4 * n.val)) = rising) ∧
    (∃ (s : State) (n : Fin 8) (rising : Bool),
        ¬(s.evtIsOut n.val = true ∨ s.flag schPg (F.SCH_EVT_CTL_EDGE.off (4 * n.val)) = rising)) ∧
    (∃ (s : State), ∀ k ∈ s.readyList, s.chooseCore k (k.late || k.retries != 0) = none) ∧
    (∃ (s : State) (a : List Ticket) (b : List Ticket) (k : Ticket) (n : ℕ), s.readyList = a ++ k :: b ∧
        (∀ j ∈ a, s.chooseCore j (j.late || j.retries != 0) = none) ∧
        s.chooseCore k (k.late || k.retries != 0) = some n ∧ s.coreIdle n = true) ∧
    (∃ (s : State) (a : List Ticket) (b : List Ticket) (k : Ticket) (n : ℕ), s.readyList = a ++ k :: b ∧
        (∀ j ∈ a, s.chooseCore j (j.late || j.retries != 0) = none) ∧
        s.chooseCore k (k.late || k.retries != 0) = some n ∧ s.coreIdle n = false) ∧
    (∃ (s : State) (i : Fin 1024), ∀ (k : Ticket), s.ticketAt i.val = some k → k.phase ≠ TPhase.ready) ∧
    (∃ (s : State) (i : Fin 1024) (k : Ticket),
      let u : State :=
          (s.upToMono (k.readyAt + s.get schPg F.SCH_MODE_AFF_WAIT * 4096)).modTicket i.val fun k ↦ { k with late := true }
      s.ticketAt i.val = some k ∧ k.phase = TPhase.ready ∧ u.chooseCore k true = none) ∧
    (∃ (s : State) (i : Fin 1024) (k : Ticket) (n : ℕ),
      let u : State :=
          (s.upToMono (k.readyAt + s.get schPg F.SCH_MODE_AFF_WAIT * 4096)).modTicket i.val fun k ↦ { k with late := true }
      s.ticketAt i.val = some k ∧ k.phase = TPhase.ready ∧ u.chooseCore k true = some n) ∧
    (∃ (s : State), s.askMode = false) ∧
    (∃ (s : State), s.askMode = true) :=
  ⟨⟨{ uS with sch := { unacked := List.range 1024 } }, by decide +kernel⟩,
   ⟨uS, 0x0, by decide +kernel⟩,
   ⟨{ uS with sch := { submit := [(0, 5)] } }, 0x0, by decide +kernel⟩,
   ⟨{ uS with sch := { submit := [(0, 5), (1, 0x1000)], ctr := [(0, 5)] } }, 0x0, by decide +kernel⟩,
   ⟨{ uS.put fltPg F.FLT_STS_DEV_HEEL true with sch := { submit := [(0, 5)] } }, 0, 0x14, by decide +kernel⟩,
   ⟨uS, 0x0, by decide +kernel⟩,
   ⟨{ uS with sch := { ctr := [(0, 5), (1, 5)] } }, 0x0, by decide +kernel⟩,
   ⟨uS, 0x0, by decide +kernel⟩,
   ⟨(on uS schPg).put schPg F.PG_CTL_CFG_LOCK true, 0x1, by decide +kernel⟩,
   ⟨rS, 0, false, by decide +kernel⟩,
   ⟨rS, 0, true, by decide +kernel⟩,
   ⟨rS, by decide +kernel⟩,
   ⟨(withTicket (aTicket 4 .ready)).put schPg F.SCH_MODE_DISPATCH false, [], [], aTicket 4 .ready, 0,
       List.mergeSort_singleton _, by decide +kernel⟩,
   ⟨busyCores, [], [], aTicket 4 .ready, 0, List.mergeSort_singleton _, by decide +kernel⟩,
   ⟨rS, 0, by decide +kernel⟩,
   ⟨(List.range 32).foldl (fun s n => s.set (lst n) F.LST_STS_STATE 3) (withTicket (aTicket 4 .ready)), 0, _, rfl,
       by decide +kernel⟩,
   ⟨withTicket (aTicket 4 .ready), 0, aTicket 4 .ready, 0, by decide +kernel⟩,
   ⟨rS.put schPg F.SCH_MODE_DISPATCH false, by decide +kernel⟩,
   ⟨rS, by decide +kernel⟩⟩

theorem witness_WeltPacketsAreAcceptedInOrder :
    (∃ (s : State) (n : Fin 4), s.wltUp n.val = false) ∧
    (∃ (s : State) (n : Fin 4), s.wltUp n.val = true) ∧
    (∃ (s : State) (n : Fin 4) (seq : BitVec 12),
      let d : WltDyn := s.wltOf n.val
      s.wltUp n.val = true ∧ seq.toNat ≠ d.rxSeq) ∧
    (∃ (s : State) (n : Fin 4) (typ : BitVec 4), s.wltUp n.val = true ∧ (¬(2 ≤ typ.toNat ∧ typ.toNat ≤ 4))) ∧
    (∃ (s : State) (n : Fin 4) (seq : BitVec 12),
      let d : WltDyn := s.wltOf n.val
      s.wltUp n.val = true ∧ seq.toNat = d.rxSeq) ∧
    (∃ (s : State) (n : Fin 4) (seq : BitVec 12) (typ : BitVec 4),
      let d : WltDyn := s.wltOf n.val
      s.wltUp n.val = true ∧ seq.toNat = d.rxSeq ∧ (2 ≤ typ.toNat ∧ typ.toNat ≤ 4)) ∧
    (∃ (s : State) (n : Fin 4) (seq : BitVec 12),
      let d : WltDyn := s.wltOf n.val
      List.findIdx? (fun x ↦ x.seq == seq.toNat) d.replay = none) ∧
    (∃ (s : State) (n : Fin 4) (seq : BitVec 12) (i : ℕ),
      let d : WltDyn := s.wltOf n.val
      List.findIdx? (fun x ↦ x.seq == seq.toNat) d.replay = some i) ∧
    (∃ (s : State) (n : Fin 4),
      let d : WltDyn := s.wltOf n.val
      d.replay = [] ∨ s.wltUp n.val = false) ∧
    (∃ (s : State) (n : Fin 4),
      let d : WltDyn := s.wltOf n.val
      d.replay ≠ [] ∧ s.wltUp n.val = true ∧ max 1 (s.get (wltPg n.val) F.WLT_CTL_REPLAY_MAX) ≤ d.tries) ∧
    (∃ (s : State) (n : Fin 4),
      let d : WltDyn := s.wltOf n.val
      d.replay ≠ [] ∧ s.wltUp n.val = true ∧ d.tries < max 1 (s.get (wltPg n.val) F.WLT_CTL_REPLAY_MAX)) ∧
    (∃ (s : State) (n : Fin 4),
      let d : WltDyn := s.wltOf n.val
      d.due = 0) ∧
    (∃ (s : State) (n : Fin 4),
      let d : WltDyn := s.wltOf n.val
      d.due ≠ 0) :=
  ⟨⟨rS, 0, by decide +kernel⟩,
   ⟨withWlt 2 {}, 0, by decide +kernel⟩,
   ⟨withWlt 2 {}, 0, 1, by decide +kernel⟩,
   ⟨withWlt 2 {}, 0, 0, by decide +kernel⟩,
   ⟨withWlt 2 {}, 0, 0, by decide +kernel⟩,
   ⟨withWlt 2 {}, 0, 0, 2, by decide +kernel⟩,
   ⟨rS, 0, 0, by decide +kernel⟩,
   ⟨withWlt 2 { replay := [⟨0, 0, [], 1⟩] }, 0, 0, _, rfl⟩,
   ⟨rS, 0, by decide +kernel⟩,
   ⟨withWlt 2 { replay := [⟨0, 0, [], 1⟩], tries := 300 }, 0, by decide +kernel⟩,
   ⟨withWlt 2 { replay := [⟨0, 0, [], 1⟩] }, 0, by decide +kernel⟩,
   ⟨rS, 0, by decide +kernel⟩,
   ⟨withWlt 2 { due := 1 }, 0, by decide +kernel⟩⟩

theorem witness_PageControlsEnableLockCommit :
    (∃ (s : State) (p : PageNo) (v : W32), pagePresent (BitVec.toNat p) = true ∧ Reaches s (BitVec.toNat p) ∧
        resettable (BitVec.toNat p / 256) = true ∧
        (s.enableBad (BitVec.toNat p) v = true ∨ s.locked (BitVec.toNat p) = true ∧
        s.enabled (BitVec.toNat p) ≠ BitVec.getLsbD v 0)) ∧
    (∃ (s : State) (p : PageNo) (v : W32), pagePresent (BitVec.toNat p) = true ∧ Reaches s (BitVec.toNat p) ∧
        resettable (BitVec.toNat p / 256) = true ∧
        (¬(s.enableBad (BitVec.toNat p) v = true ∨ s.locked (BitVec.toNat p) = true ∧
        s.enabled (BitVec.toNat p) ≠ BitVec.getLsbD v 0)) ∧ s.enabled (BitVec.toNat p) = BitVec.getLsbD v 0) ∧
    (∃ (s : State) (p : PageNo) (v : W32), pagePresent (BitVec.toNat p) = true ∧ Reaches s (BitVec.toNat p) ∧
        resettable (BitVec.toNat p / 256) = true ∧
        (¬(s.enableBad (BitVec.toNat p) v = true ∨ s.locked (BitVec.toNat p) = true ∧
        s.enabled (BitVec.toNat p) ≠ BitVec.getLsbD v 0)) ∧ s.enabled (BitVec.toNat p) ≠ BitVec.getLsbD v 0) ∧
    (∃ (s : State) (p : PageNo), pagePresent (BitVec.toNat p) = true ∧ Reaches s (BitVec.toNat p) ∧
        resettable (BitVec.toNat p / 256) = false ∧ s.enabled (BitVec.toNat p) = true) ∧
    (∃ (s : State) (p : PageNo), pagePresent (BitVec.toNat p) = true ∧ Reaches s (BitVec.toNat p) ∧
        (resettable (BitVec.toNat p / 256) = true ∨ s.enabled (BitVec.toNat p) = true)) ∧
    (∃ (s : State) (p : PageNo), pagePresent (BitVec.toNat p) = true ∧ Reaches s (BitVec.toNat p) ∧
        hasShadow (BitVec.toNat p / 256) = false) ∧
    (∃ (s : State) (p : PageNo), pagePresent (BitVec.toNat p) = true ∧ Reaches s (BitVec.toNat p) ∧
        hasShadow (BitVec.toNat p / 256) = true ∧ s.locked (BitVec.toNat p) = true) ∧
    (∃ (s : State) (p : PageNo), pagePresent (BitVec.toNat p) = true ∧ Reaches s (BitVec.toNat p) ∧
        hasShadow (BitVec.toNat p / 256) = true ∧ s.locked (BitVec.toNat p) = false ∧ BitVec.toNat p ≠ glbPg) ∧
    (∃ (s : State) (p : PageNo), pagePresent (BitVec.toNat p) = true ∧ Reaches s (BitVec.toNat p) ∧
        BitVec.toNat p = glbPg ∧ s.locked glbPg = false) :=
  ⟨⟨uS, 4096, 0x1, by decide +kernel⟩,
   ⟨uS, 256, 0x0, by decide +kernel⟩,
   ⟨uS, 256, 0x1, by decide +kernel⟩,
   ⟨uS, 0, by decide +kernel⟩,
   ⟨uS, 0, by decide +kernel⟩,
   ⟨uS, 256, by decide +kernel⟩,
   ⟨uS.put 512 F.PG_CTL_CFG_LOCK true, 512, by decide +kernel⟩,
   ⟨uS, 512, by decide +kernel⟩,
   ⟨uS, BitVec.ofNat 13 glbPg, by decide +kernel⟩⟩

theorem witness_RegisterWritesSetFieldsOrAreRefused :
    (∃ (s : State) (p : ℕ) (o : ℕ) (r : Reg) (ofs : Ofs) (v : W32),
      let rw : W32 := r.mask [Acc.rwS, Acc.rwL]
      PlainPage (p / 256) ∧ pagePresent p = true ∧ 256 ≤ o ∧ o < 4096 ∧ o % 4 = 0 ∧ findReg p o = some r ∧
          BitVec.toNat ofs = rkey p o ∧ Reaches s p ∧ (s.enabled p = true ∧
          (s.rd p o ^^^ v) &&& r.mask [Acc.rwS] ≠ 0 ∨ s.locked p = true ∧ (s.rd p o ^^^ v) &&& rw ≠ 0)) ∧
    (∃ (s : State) (p : ℕ) (o : ℕ) (r : Reg) (ofs : Ofs) (v : W32),
      let rw : W32 := r.mask [Acc.rwS, Acc.rwL]
      PlainPage (p / 256) ∧ pagePresent p = true ∧ 256 ≤ o ∧ o < 4096 ∧ o % 4 = 0 ∧ findReg p o = some r ∧
          BitVec.toNat ofs = rkey p o ∧ Reaches s p ∧ (¬(s.enabled p = true ∧
          (s.rd p o ^^^ v) &&& r.mask [Acc.rwS] ≠ 0 ∨ s.locked p = true ∧ (s.rd p o ^^^ v) &&& rw ≠ 0))) ∧
    (∃ (s : State), s.offLink = true) ∧
    (∃ (s : State) (ep : Bool), s.offLink = false ∧ ep = true) ∧
    (∃ (s : State) (be : BitVec 4) (ep : Bool), s.offLink = false ∧ ep = false ∧ be ≠ 15) ∧
    (∃ (s : State) (ofs : Ofs) (be : BitVec 4) (ep : Bool), s.offLink = false ∧ ep = false ∧ be = 15 ∧
        BitVec.toNat ofs < 33554432 ∧ s.answers (BitVec.toNat ofs / 4096) = false) :=
  ⟨⟨on (atStage 2) (ethPg 0), 4096, 256, _, BitVec.ofNat 26 (rkey 4096 256), 0x1, by decide, rfl, by decide,
      by decide, rfl, rfl, by decide +kernel⟩,
   ⟨uS, 768, 256, _, BitVec.ofNat 26 (rkey 768 256), 0, by decide, rfl, by decide, by decide, rfl, rfl,
       by decide +kernel⟩,
   ⟨{ uS with pci := { d3 := true } }, by decide +kernel⟩,
   ⟨uS, true, by decide +kernel⟩,
   ⟨uS, 0, false, by decide +kernel⟩,
   ⟨uS, 0x1700000, 15, false, by decide +kernel⟩⟩

theorem witness_HeelEndsWhenItsCausesEnd :
    (∃ (s : State), Reaches s fltPg ∧ (s.devHeel = false ∨ s.flt.leaving = true)) ∧
    (∃ (s : State), Reaches s fltPg ∧ s.devHeel = true ∧ s.flt.leaving = false ∧ s.mayLeave 31 = false) ∧
    (∃ (s : State), Reaches s fltPg ∧ s.devHeel = true ∧ s.flt.leaving = false ∧ s.mayLeave 31 = true) ∧
    (∃ (s : State) (e : ℕ), e < 16 ∧ Reaches s fltPg ∧ s.eyeHeel e = false) ∧
    (∃ (s : State) (e : ℕ), e < 16 ∧ Reaches s fltPg ∧ s.eyeHeel e = true ∧
        (s.devHeel = true ∨ s.mayLeave e = false)) ∧
    (∃ (s : State) (e : ℕ), e < 16 ∧ Reaches s fltPg ∧ s.eyeHeel e = true ∧ s.devHeel = false ∧ s.mayLeave e = true) ∧
    (∃ (s : State), s.flt.leaving = false) ∧
    (∃ (s : State),
      let u : State := { s with flt := { s.flt with leaving := false } }
      s.flt.leaving = true ∧ (¬(s.flag tbsPg F.TBS_REF_STS_REF_PRESENT = true ∧ u.pllsLocked = true ∧
          u.holdover = false ∧ u.mayLeave 31 = true))) ∧
    (∃ (s : State),
      let u : State := { s with flt := { s.flt with leaving := false } }
      s.flt.leaving = true ∧ (s.flag tbsPg F.TBS_REF_STS_REF_PRESENT = true ∧ u.pllsLocked = true ∧
          u.holdover = false ∧ u.mayLeave 31 = true)) ∧
    (∃ (s : State), s.flt.chipDue = false ∨ s.boot.held = true) ∧
    (∃ (s : State), s.flt.chipDue = true ∧ s.boot.held = false) :=
  ⟨⟨uS, by decide +kernel⟩,
   ⟨{ uS.put fltPg F.FLT_STS_DEV_HEEL true with flt := { heels := [⟨31, glbPg, 32⟩] } }, by decide +kernel⟩,
   ⟨uS.put fltPg F.FLT_STS_DEV_HEEL true, by decide +kernel⟩,
   ⟨uS, 0, by decide +kernel⟩,
   ⟨{ uS.set fltPg F.FLT_STS_EYE_HEEL 1 with flt := { heels := [⟨0, glbPg, 32⟩] } }, 0, by decide +kernel⟩,
   ⟨uS.set (pg T.flt 0) F.FLT_STS_EYE_HEEL 1, 0, by decide +kernel⟩,
   ⟨rS, by decide +kernel⟩,
   ⟨{ rS with flt := { leaving := true } }, by decide +kernel⟩,
   ⟨{ ((rS.put tbsPg F.TBS_REF_STS_REF_PRESENT true).set tbsPg F.TBS_REF_STS_QPLL_LOCK 15).put tbsPg F.TBS_REF_STS_CPLL_LOCK true with flt := { leaving := true } }, by decide +kernel⟩,
   ⟨rS, by decide +kernel⟩,
   ⟨{ rS with flt := { chipDue := true }, boot := { held := false } }, by decide +kernel⟩⟩

theorem witness_LaneSumsAndMoves :
    (∃ (s : State) (q : Quad),
      let d : AneDyn := s.aneOf q.val
      let w : W32 := s.ucur (q.val) 3
      s.aneState q.val = 2 ∧ fget w 5 0 = 19 ∧ d.parts.testBit 2 = false ∧
          (fget (s.ucur (q.val) 1) 2 0 = 0 ∨ d.parts.testBit 0 = true) ∧
          (fget (s.ucur (q.val) 2) 2 0 = 0 ∨ d.parts.testBit 1 = true)) ∧
    (∃ (s : State) (q : Quad),
      let d : AneDyn := s.aneOf q.val
      let w : W32 := s.ucur (q.val) 3
      ¬(s.aneState q.val = 2 ∧ fget w 5 0 = 19 ∧ d.parts.testBit 2 = false ∧
          (fget (s.ucur (q.val) 1) 2 0 = 0 ∨ d.parts.testBit 0 = true) ∧
          (fget (s.ucur (q.val) 2) 2 0 = 0 ∨ d.parts.testBit 1 = true))) ∧
    (∃ (s : State) (q : Quad),
      let d : AneDyn := s.aneOf q.val
      let w : W32 := s.ucur (q.val) 3
      s.aneState q.val = 2 ∧ fget w 5 0 = 5 ∧ d.parts.testBit 2 = false ∧
          (fget (s.ucur (q.val) 1) 2 0 = 0 ∨ d.parts.testBit 0 = true) ∧
          (fget (s.ucur (q.val) 2) 2 0 = 0 ∨ d.parts.testBit 1 = true)) ∧
    (∃ (s : State) (q : Quad),
      let d : AneDyn := s.aneOf q.val
      let w : W32 := s.ucur (q.val) 3
      ¬(s.aneState q.val = 2 ∧ fget w 5 0 = 5 ∧ d.parts.testBit 2 = false ∧
          (fget (s.ucur (q.val) 1) 2 0 = 0 ∨ d.parts.testBit 0 = true) ∧
          (fget (s.ucur (q.val) 2) 2 0 = 0 ∨ d.parts.testBit 1 = true))) :=
  ⟨⟨withAne 2 {} 0 0 0 19 0, 0, by decide +kernel⟩,
   ⟨rS, 0, by decide +kernel⟩,
   ⟨withAne 2 {} 0 0 0 5 0, 0, by decide +kernel⟩,
   ⟨rS, 0, by decide +kernel⟩⟩

theorem witness_HbmByteReadsBack :
    (∃ (s : State) (a : ℕ), s.aliased a = false) ∧
    (∃ (s : State) (a : ℕ) (b : ℕ), b ≠ a ∧ s.aliased a = false ∧ s.aliased b = false) ∧
    (∃ (s : State) (a : ℕ), s.mirrored a = true) ∧
    (∃ (s : State) (a : ℕ), s.mirrored a = true ∧ s.hbm.bad.contains (s.physical a 0 / 32) = true ∧
        s.hbm.bad.contains (s.physical a 1 / 32) = false) ∧
    (∃ (s : State) (a : ℕ), s.aliased a = true) ∧
    (∃ (s : State), Memory.wf s.hbm.bytes = true) :=
  ⟨⟨rS, 0, by decide +kernel⟩,
   ⟨rS, 0, 1, by decide +kernel⟩,
   ⟨rS.set (memPg 0) F.MEM_MIRROR_SIZE 1, 0, by decide +kernel⟩,
   ⟨{ rS.set (memPg 0) F.MEM_MIRROR_SIZE 1 with hbm := { bad := [0] } }, 0, by decide +kernel⟩,
   ⟨rS.set (memPg 0) F.MEM_MIRROR_SIZE 1, 268435456, by decide +kernel⟩,
   ⟨rS, by decide +kernel⟩⟩

theorem witness_UnreachedAccessesChangeNothing :
    (∃ (s : State) (r : Instr × ℕ), r ∈ [((Instr.erase : Instr), secPg)] ∧ ¬ Reaches s r.2) ∧
    (∃ (s : State) (o : Ofs) (c : Chan) (e : Eye) (u : Fin 4) (a : BitVec 24) (n : ℕ) (k : ℕ) (w : W32) (v : W32) (b : Bool) (r : Instr), s.offLink = true ∧ r ∈ [Instr.rcRead o, Instr.wideRegisterLoRead o, Instr.fltLogPop b, Instr.wftRead c, Instr.vampWdataRead e, Instr.ddsListRead e, Instr.iuResultPop e u b, Instr.spadFetchadd a v b k, Instr.spadSwap a v b k, Instr.bar4Read a n k, Instr.evqPop b, Instr.bar2Read w n, Instr.ptpCapture, Instr.calWinRead]) ∧
    (∃ (s : State) (o : Ofs) (p : PageNo) (i : Fin 131072) (k : Fin 4) (a : BitVec 24) (bs : List (Option Byte)) (w : W32) (v : W32) (be : BitVec 4) (b : Bool) (m : ℕ) (r : Instr), s.offLink = true ∧ r ∈ [Instr.registerWrite o v be b, Instr.faultClear p v, Instr.segWindowWrite i k v, Instr.bar4Write a bs b m, Instr.bar2Write w bs b, Instr.aptBaseWrite v]) ∧
    (∃ (s : State) (c : Chan) (e : Eye) (u : Fin 4) (b : Bool) (r : Instr × ℕ), s.offLink = false ∧
        r ∈ [(Instr.wftRead c, pg T.chn c.val), (Instr.vampWdataRead e, eyePg e.val), (Instr.ddsListRead e,
        pg T.dds e.val), (Instr.iuResultPop e u b, pg T.tdc e.val), (Instr.evqPop b, evqPg), (Instr.ptpCapture,
        ptpPg), (Instr.calWinRead, calPg)] ∧ s.answers r.2 = false) :=
  ⟨⟨rS, (Instr.erase, secPg), List.mem_cons_self, by decide +kernel⟩,
   ⟨rS, 0, 0, 0, 0, 0, 0, 0, 0, 0, false, _, by decide +kernel, List.mem_cons_self⟩,
   ⟨rS, 0, 0, 0, 0, 0, [], 0, 0, 0, false, 0, _, by decide +kernel, List.mem_cons_self⟩,
   ⟨{ uS with regs := (rkey secPg 0x100, 8) :: uS.regs }, 0, 0, 0, false, (Instr.wftRead 0, pg T.chn 0),
       by decide +kernel, List.mem_cons_self, by decide +kernel⟩⟩

theorem witness_StateAtReset :
    (∃ (p : ℕ), resettable (p / 256) = true ∧ pagePresent p = true) ∧
    (∃ (p : ℕ), resettable (p / 256) = false ∧ pagePresent p = true) :=
  ⟨⟨256, by decide +kernel⟩,
   ⟨0, by decide +kernel⟩⟩

theorem witness_BlockResetActsOnResettablePages :
    (∃ (p : ℕ), pagePresent p = true) ∧
    (∃ (s : State) (p : PageNo), pagePresent (BitVec.toNat p) = true ∧ Reaches s (BitVec.toNat p) ∧
        resettable (BitVec.toNat p / 256) = true) ∧
    (∃ (s : State) (p : PageNo), pagePresent (BitVec.toNat p) = true ∧ resettable (BitVec.toNat p / 256) = false ∧
        s.enabled (BitVec.toNat p) = true) :=
  ⟨⟨0, by decide +kernel⟩,
   ⟨uS, 256, by decide +kernel⟩,
   ⟨rS, 0, by decide +kernel⟩⟩

theorem witness_AlignmentSetsTheTimeline :
    (∃ (s : State), Reaches s tbsPg) ∧
    (∃ (s : State) (w : ℕ), LineFrame w 1 ∧ s.lace.rx = [] ∧
        (s.enabled tbsPg = false ∨ s.resetting.contains tbsPg = true)) ∧
    (∃ (s : State) (w : ℕ), LineFrame w 1 ∧ s.lace.rx = [] ∧ s.enabled tbsPg = true ∧
        s.resetting.contains tbsPg = false ∧ s.flag tbsPg F.TBS_LACE_CTL_ALIGN_ARM = false) ∧
    (∃ (s : State) (w : ℕ) (t : ℕ),
      let u : State := heard s w t
      LineFrame w 1 ∧ s.lace.rx = [] ∧ s.enabled tbsPg = true ∧ s.resetting.contains tbsPg = false ∧
          s.flag tbsPg F.TBS_LACE_CTL_ALIGN_ARM = true ∧ u.refuseWhy = 0) ∧
    (∃ (s : State) (w : ℕ) (t : ℕ),
      let u : State := heard s w t
      LineFrame w 1 ∧ s.lace.rx = [] ∧ s.enabled tbsPg = true ∧ s.resetting.contains tbsPg = false ∧
          s.flag tbsPg F.TBS_LACE_CTL_ALIGN_ARM = true ∧ u.refuseWhy ≠ 0) ∧
    (∃ (s : State) (seq : ℕ) (edge : ℕ),
      let u : State := { s with lace := { s.lace with align := none } }.upTo edge
      s.lace.align = some (seq, true, edge) ∧ s.flag tbsPg F.TBS_LACE_CTL_ALIGN_ARM = true ∧ u.refuseWhy = 0) ∧
    (∃ (s : State) (seq : ℕ) (edge : ℕ),
      let u : State := { s with lace := { s.lace with align := none } }.upTo edge
      s.lace.align = some (seq, true, edge) ∧ s.flag tbsPg F.TBS_LACE_CTL_ALIGN_ARM = true ∧ u.refuseWhy ≠ 0) ∧
    (∃ (s : State) (seq : ℕ) (edge : ℕ), s.lace.align = some (seq, true, edge) ∧
        s.flag tbsPg F.TBS_LACE_CTL_ALIGN_ARM = false) ∧
    (∃ (s : State) (seq : ℕ) (edge : ℕ), s.lace.align = some (seq, true, edge)) ∧
    (∃ (s : State) (seq : ℕ) (edge : ℕ), s.lace.align = some (seq, false, edge)) ∧
    (∃ (s : State), s.lace.align = none) :=
  ⟨⟨uS, by decide +kernel⟩,
   ⟨rS, laceWord 1 0, by decide +kernel⟩,
   ⟨on rS tbsPg, laceWord 1 0, by decide +kernel⟩,
   ⟨(on rS tbsPg).put tbsPg F.TBS_LACE_CTL_ALIGN_ARM true, laceWord 1 0, 0, by decide +kernel⟩,
   ⟨{ (on rS tbsPg).put tbsPg F.TBS_LACE_CTL_ALIGN_ARM true with groups := [aGroup .running] }, laceWord 1 0, 0,
       by decide +kernel⟩,
   ⟨{ (on rS tbsPg).put tbsPg F.TBS_LACE_CTL_ALIGN_ARM true with lace := { align := some (3, true, 1000) } }, _, _,
       rfl, by decide +kernel⟩,
   ⟨{ (on rS tbsPg).put tbsPg F.TBS_LACE_CTL_ALIGN_ARM true with lace := { align := some (3, true, 1000) }, groups := [aGroup .running] }, _, _, rfl, by decide +kernel⟩,
   ⟨{ (on rS tbsPg) with lace := { align := some (3, true, 1000) } }, _, _, rfl, by decide +kernel⟩,
   ⟨{ (on rS tbsPg).put tbsPg F.TBS_LACE_CTL_ALIGN_ARM true with lace := { align := some (3, true, 1000) } }, _, _,
       rfl⟩,
   ⟨{ (on rS tbsPg) with lace := { align := some (3, false, 1000) } }, _, _, rfl⟩,
   ⟨rS, by decide +kernel⟩⟩

theorem witness_HbmKeptByOtherCommands :
    ∃ (c : Instr), mayStore c = false :=
  ⟨.pwrFailEnd, by decide +kernel⟩

theorem witness_TrackedTimingStates :
    (∃ (s : State) (q : Quad), s.trackState q.val = 1 ∧ 1024 ≤ (s.trackOf q.val).good) ∧
    (∃ (s : State) (q : Quad), s.trackState q.val ≠ 1 ∨ (s.trackOf q.val).good < 1024) ∧
    (∃ (s : State) (q : Quad),
      let n : ℕ := max 1 (s.get tbsPg (tf (q.val) F.TBS_TRACK_CTL_LOSS_WIN))
      ((s.trackState q.val = 1 ∨ s.trackState q.val = 2) ∧ s.holdover = false ∧ n ≤ (s.trackOf q.val).gone) ∧
          s.getEff tbsPg (tf (q.val) F.TBS_TRACK_CTL_LOSS_ACT) = 1) ∧
    (∃ (s : State) (q : Quad),
      let n : ℕ := max 1 (s.get tbsPg (tf (q.val) F.TBS_TRACK_CTL_LOSS_WIN))
      ((s.trackState q.val = 1 ∨ s.trackState q.val = 2) ∧ s.holdover = false ∧ n ≤ (s.trackOf q.val).gone) ∧
          s.getEff tbsPg (tf (q.val) F.TBS_TRACK_CTL_LOSS_ACT) ≠ 1) ∧
    (∃ (s : State) (q : Quad),
      let n : ℕ := max 1 (s.get tbsPg (tf (q.val) F.TBS_TRACK_CTL_LOSS_WIN))
      ¬((s.trackState q.val = 1 ∨ s.trackState q.val = 2) ∧ s.holdover = false ∧ n ≤ (s.trackOf q.val).gone)) ∧
    (∃ (s : State) (q : Quad), s.trackState q.val = 4 ∧ (s.trackOf q.val).ofs = 0) ∧
    (∃ (s : State) (q : Quad), s.trackState q.val ≠ 4 ∨ (s.trackOf q.val).ofs ≠ 0) ∧
    (∃ (s : State) (q : Quad),
      let en : ℕ := s.get tbsPg (tf (q.val) F.TBS_TRACK_CTL_EN)
      s.trackState q.val = 0 ∧ en = 0) ∧
    (∃ (s : State) (q : Quad),
      let en : ℕ := s.get tbsPg (tf (q.val) F.TBS_TRACK_CTL_EN)
      s.trackState q.val = 0 ∧ en = 1 ∧ s.getEff tbsPg (tf (q.val) F.TBS_TRACK_CTL_EN) = 0) ∧
    (∃ (s : State) (q : Quad) (x : ℕ × ℕ) (r : List (ℕ × ℕ)),
      let w0 : ℕ := (s.now + 65535) / 65536
      let w : ℕ := if (s.trackOf q.val).win = some w0 then w0 + 1 else w0
      let u : State := s.upTo (w * 65536)
      let here : List (ℕ × ℕ) :=
          List.filter (fun x ↦ decide ((w - 1) * 65536 ≤ x.1) && decide (x.1 < w * 65536)) (u.trackOf q.val).edges
      let en : ℕ := s.get tbsPg (tf (q.val) F.TBS_TRACK_CTL_EN)
      (s.trackState q.val = 1 ∨ s.trackState q.val = 2) ∧ s.holdover = false ∧ en = 1 ∧ here = x :: r) ∧
    (∃ (s : State) (q : Quad),
      let w0 : ℕ := (s.now + 65535) / 65536
      let w : ℕ := if (s.trackOf q.val).win = some w0 then w0 + 1 else w0
      let u : State := s.upTo (w * 65536)
      let here : List (ℕ × ℕ) :=
          List.filter (fun x ↦ decide ((w - 1) * 65536 ≤ x.1) && decide (x.1 < w * 65536)) (u.trackOf q.val).edges
      let en : ℕ := s.get tbsPg (tf (q.val) F.TBS_TRACK_CTL_EN)
      s.trackState q.val = 3 ∧ en = 1 ∧ here ≠ []) :=
  ⟨⟨{ rS.set tbsPg (tf 0 F.TBS_TRACK_STS_STATE) 1 with track := [(0, { good := 1024 })] }, 0, by decide +kernel⟩,
   ⟨rS, 0, by decide +kernel⟩,
   ⟨{ (rS.set tbsPg (tf 0 F.TBS_TRACK_STS_STATE) 1).set tbsPg (tf 0 F.TBS_TRACK_CTL_LOSS_ACT) 1 with track := [(0, { gone := 70000 })] }, 0, by decide +kernel⟩,
   ⟨{ (rS.set tbsPg (tf 0 F.TBS_TRACK_STS_STATE) 1).set tbsPg (tf 0 F.TBS_TRACK_CTL_LOSS_ACT) 0 with track := [(0, { gone := 70000 })] }, 0, by decide +kernel⟩,
   ⟨rS, 0, by decide +kernel⟩,
   ⟨rS.set tbsPg (tf 0 F.TBS_TRACK_STS_STATE) 4, 0, by decide +kernel⟩,
   ⟨rS, 0, by decide +kernel⟩,
   ⟨{ rS with tlOn := true }, 0, by decide +kernel⟩,
   ⟨{ rS.set tbsPg (tf 0 F.TBS_TRACK_CTL_EN) 1 with held := [(rkey tbsPg (tf 0 F.TBS_TRACK_CTL_EN).ofs, 0)], tlOn := true }, 0, by decide +kernel⟩,
   ⟨((rS.set tbsPg (tf 0 F.TBS_TRACK_STS_STATE) 1).set tbsPg (tf 0 F.TBS_TRACK_CTL_EN) 1).setTrack 0 { edges := [(10, 10)], win := some 0 }, 0, (10, 10), [], by decide +kernel⟩,
   ⟨((rS.set tbsPg (tf 0 F.TBS_TRACK_STS_STATE) 3).set tbsPg (tf 0 F.TBS_TRACK_CTL_EN) 1).setTrack 0 { edges := [(10, 10)], win := some 0 }, 0, by decide +kernel⟩⟩

theorem witness_EveryStepKeepsInvariant :
    ∃ (s : State) (t : State), (Memory.wf s.hbm.bytes = true ∧ s.flt.log.length ≤ 512) ∧
        step s = Host.Outcome.next t :=
  ⟨rS, rS, by decide +kernel, rfl⟩

theorem witness_RisesAreRecordedOnce :
    (∃ (s : State) (p : ℕ) (b : ℕ), b < 32 ∧ s.fltBit p b = true) ∧
    (∃ (s : State) (p : ℕ) (b : ℕ), b < 32 ∧ s.fltBit p b = false) ∧
    (∃ (s : State) (p : ℕ) (b : ℕ) (c : ℕ), b < 32 ∧ s.fltBit p b = false ∧ c < 32 ∧ c ≠ b) ∧
    (∃ (s : State) (p : ℕ) (b : ℕ) (q : ℕ) (a : ℕ), b < 32 ∧ s.fltBit p b = false ∧ rkey q a ≠ rkey p 16) ∧
    (∃ (b : ℕ), b < 32) ∧
    (∃ (s : State), s.flt.rises = [] ∧ Quiet s) ∧
    (∃ (s : State) (p : ℕ) (b : ℕ), b < 32 ∧ s.flt.rises = [(p, b)] ∧ Quiet s ∧ s.srcMasked p b = true ∧
        (srcOf p b).fixed = 0 ∧ s.flt.log.length < 480 ∧ s.flt.logLost = 0) ∧
    (∃ (s : State) (ws : List W32), 512 ≤ s.flt.log.length ∨ logOther ws = true ∧
        480 ≤ (List.filter logOther s.flt.log).length) ∧
    (∃ (s : State) (ws : List W32), ¬(512 ≤ s.flt.log.length ∨ logOther ws = true ∧
        480 ≤ (List.filter logOther s.flt.log).length)) ∧
    (∃ (s : State), s.flt.log.length ≤ 512) :=
  ⟨⟨rS.rise 256 6, 256, 6, by decide +kernel⟩,
   ⟨rS, 0, 0, by decide +kernel⟩,
   ⟨rS, 0, 0, 1, by decide +kernel⟩,
   ⟨rS, 0, 0, 0, 0, by decide +kernel⟩,
   ⟨0, by decide +kernel⟩,
   ⟨rS, by decide +kernel⟩,
   ⟨{ rS.wr 256 0x14 0xFFFFFFFF with flt := { rises := [(256, 6)] } }, 256, 6, by decide +kernel⟩,
   ⟨{ rS with flt := { log := List.replicate 512 [] } }, [], by decide +kernel⟩,
   ⟨rS, [], by decide +kernel⟩,
   ⟨rS, by decide +kernel⟩⟩

theorem witness_FailsReachSummariesAndLog :
    (∃ (s : State), s.fails = []) ∧
    (∃ (s : State) (m : FailMsg) (r : List FailMsg), s.fails = m :: r) ∧
    (∃ (s : State) (i : Fin 128), ∃ g ∈ s.groups, g.begun = true ∧ i.val ∈ g.sites) ∧
    (∃ (s : State) (i : Fin 128), ∀ g ∈ s.groups, g.begun = true → i.val ∉ g.sites) ∧
    (∃ (s : State) (n : Fin 8), ∀ x ∈ s.evtSrc, x.pin = n.val → x.until_ = none) ∧
    (∃ (s : State) (n : Fin 8) (t : ℕ), (∃ x ∈ s.evtSrc, x.pin = n.val ∧ x.until_ = some t) ∧
        (∀ x ∈ s.evtSrc, ∀ (a : ℕ), x.pin = n.val → x.until_ = some a → t ≤ a)) ∧
    (∃ (s : State) (e : Eye), 2 ≤ (s.eyeOf e.val).flogQ.length) ∧
    (∃ (s : State) (e : Eye), (s.eyeOf e.val).flogQ.length = 1 ∧ s.flag (pg T.cmp e.val) F.CMP_STS_LOG_DONE = false) ∧
    (∃ (s : State) (e : Eye), (s.eyeOf e.val).flogQ.length = 1 ∧ s.flag (pg T.cmp e.val) F.CMP_STS_LOG_DONE = true) ∧
    (∃ (s : State) (e : Eye), (s.eyeOf e.val).flogQ = []) ∧
    (∃ (s : State) (e : Eye), (s.eyeOf e.val).flogQ ≠ []) ∧
    (∃ (e : Eye) (u : State),
      let v : State := u.flogForce e.val
      v.flogFull e.val = false ∧ (v.eyeOf e.val).ringLost = 0) ∧
    (∃ (e : Eye) (u : State),
      let v : State := u.flogForce e.val
      v.flogFull e.val = true) :=
  ⟨⟨rS, by decide +kernel⟩,
   ⟨{ rS with fails := [⟨some 0, 0, 0, true⟩] }, _, _, rfl⟩,
   ⟨inGroup { aGroup .running with begun := true, sites := [0], slots := [0] }, 0, by decide +kernel⟩,
   ⟨rS, 0, by decide +kernel⟩,
   ⟨rS, 0, by decide +kernel⟩,
   ⟨{ rS with evtSrc := [⟨0, 0, 0, some 5, 0⟩] }, 0, 5, ⟨_, List.mem_cons_self, rfl, rfl⟩,
       fun x hx a _ h => by obtain rfl := List.mem_singleton.mp hx; cases h; exact Nat.le_refl _⟩,
   ⟨withEye { flogQ := [[0], [1]] }, 0, by decide +kernel⟩,
   ⟨(withEye { flogQ := [[0]] }).put (pg T.cmp 0) F.CMP_STS_LOG_DONE false, 0, by decide +kernel⟩,
   ⟨withEye { flogQ := [[0]] }, 0, by decide +kernel⟩,
   ⟨rS, 0, by decide +kernel⟩,
   ⟨withEye { flogQ := [[0], [1]] }, 0, by decide +kernel⟩,
   ⟨0, rS.put (pg T.cmp 0) F.CMP_FLOG_CTL_MODE true, by decide +kernel⟩,
   ⟨0, rS, by decide +kernel⟩⟩

theorem witness_ArmedAlignRefusedWhileRunning :
    ∃ (s : State) (w : ℕ), LineFrame w 1 ∧ s.lace.rx = [] ∧ s.enabled tbsPg = true ∧
        s.resetting.contains tbsPg = false ∧ s.flag tbsPg F.TBS_LACE_CTL_ALIGN_ARM = true ∧
        (∃ g ∈ s.groups, g.st = GState.running) :=
  ⟨{ (on rS tbsPg).put tbsPg F.TBS_LACE_CTL_ALIGN_ARM true with groups := [aGroup .running] }, laceWord 1 0,
      by decide +kernel⟩

theorem witness_BlockResetReturnsRegisters :
    (∃ (s : State) (p : PageNo), pagePresent (BitVec.toNat p) = true ∧ Reaches s (BitVec.toNat p) ∧
        resettable (BitVec.toNat p / 256) = true ∧ BitVec.toNat p / 256 ≠ T.evq ∧ BitVec.toNat p / 256 ≠ T.sch) ∧
    (∃ (s : State) (p : PageNo), s.resetting.contains (BitVec.toNat p) = true) ∧
    (∃ (s : State) (p : PageNo), s.resetting.contains (BitVec.toNat p) = false) ∧
    (∃ (s : State) (p : PageNo) (o : ℕ) (ofs : Ofs), pagePresent (BitVec.toNat p) = true ∧ o < 4096 ∧ o ≠ 16 ∧
        o % 4 = 0 ∧ BitVec.toNat ofs = rkey (BitVec.toNat p) o ∧ s.resetting.contains (BitVec.toNat p) = true ∧
        s.offLink = false) :=
  ⟨⟨uS, 256, by decide +kernel⟩,
   ⟨{ rS with resetting := [256] }, 256, by decide +kernel⟩,
   ⟨rS, 0, by decide +kernel⟩,
   ⟨{ uS with resetting := [256] }, 256, 0, 0x100000, by decide +kernel⟩⟩

theorem witness_VampLoadsFillGranules :
    (∃ (s : State) (e : Eye) (v : W32),
      let p : ℕ := eyePg e.val
      let u : State := s.writeReg p 568 (v ||| 2147483648) false
      let src : ℕ := u.get p F.EYE_VAMP_LD_SRC_LO_SRC_L * 64 + u.get p F.EYE_VAMP_LD_SRC_HI_SRC_H * 2 ^ 32
      let dst : ℕ := u.get p F.EYE_VAMP_LD_CTL_DST
      let n : ℕ := u.get p F.EYE_VAMP_LD_CTL_COUNT
      Reaches s (eyePg e.val) ∧ (¬(u.get p F.EYE_SEQ_STS_STATE = 0 ∧ u.flag p F.EYE_VAMP_STS_LOAD_BUSY = false ∧
          3 ≤ u.stage ∧ 16 * (dst + n) ≤ 4096 * u.get p F.EYE_VAMP_CFG_RES_BLK ∧ u.hbmReach src (64 * n) = true))) ∧
    (∃ (s : State) (e : Eye) (v : W32),
      let p : ℕ := eyePg e.val
      let u : State := s.writeReg p 568 (v ||| 2147483648) false
      let src : ℕ := u.get p F.EYE_VAMP_LD_SRC_LO_SRC_L * 64 + u.get p F.EYE_VAMP_LD_SRC_HI_SRC_H * 2 ^ 32
      let dst : ℕ := u.get p F.EYE_VAMP_LD_CTL_DST
      let n : ℕ := u.get p F.EYE_VAMP_LD_CTL_COUNT
      Reaches s (eyePg e.val) ∧ (u.get p F.EYE_SEQ_STS_STATE = 0 ∧ u.flag p F.EYE_VAMP_STS_LOAD_BUSY = false ∧
          3 ≤ u.stage ∧ 16 * (dst + n) ≤ 4096 * u.get p F.EYE_VAMP_CFG_RES_BLK ∧ u.hbmReach src (64 * n) = true) ∧
          n = 0) ∧
    (∃ (s : State) (e : Eye) (v : W32),
      let p : ℕ := eyePg e.val
      let u : State := s.writeReg p 568 (v ||| 2147483648) false
      let src : ℕ := u.get p F.EYE_VAMP_LD_SRC_LO_SRC_L * 64 + u.get p F.EYE_VAMP_LD_SRC_HI_SRC_H * 2 ^ 32
      let dst : ℕ := u.get p F.EYE_VAMP_LD_CTL_DST
      let n : ℕ := u.get p F.EYE_VAMP_LD_CTL_COUNT
      Reaches s (eyePg e.val) ∧ (u.get p F.EYE_SEQ_STS_STATE = 0 ∧ u.flag p F.EYE_VAMP_STS_LOAD_BUSY = false ∧
          3 ≤ u.stage ∧ 16 * (dst + n) ≤ 4096 * u.get p F.EYE_VAMP_CFG_RES_BLK ∧ u.hbmReach src (64 * n) = true) ∧
          n ≠ 0) ∧
    (∃ (s : State) (e : Eye), (s.eyeOf e.val).load = none) ∧
    (∃ (s : State) (e : Eye) (src : ℕ) (dst : ℕ) (n : ℕ), (s.eyeOf e.val).load = some (src, dst, n)) ∧
    (∃ (s : State) (e : Eye), Reaches s (eyePg e.val)) ∧
    (∃ (s : State) (e : Eye) (i : ℕ),
        (List.filter (fun x ↦ x.done.isNone && !x.range) (s.eyeOf e.val).gran).length ≤ i ∨ s.groupOf e.val = none) ∧
    (∃ (s : State) (e : Eye) (i : ℕ) (g : Group) (x : Gran) (q : Pass),
        (List.filter (fun x ↦ x.done.isNone && !x.range) (s.eyeOf e.val).gran)[i]? = some x ∧
        s.groupOf e.val = some g ∧ List.find? (fun p ↦ p.ord == x.pass) (g.cur :: g.queue) = some q) ∧
    (∃ (s : State) (e : Eye) (i : ℕ) (g : Group) (x : Gran),
        (List.filter (fun x ↦ x.done.isNone && !x.range) (s.eyeOf e.val).gran)[i]? = some x ∧
        s.groupOf e.val = some g ∧ List.find? (fun p ↦ p.ord == x.pass) (g.cur :: g.queue) = none) ∧
    (∃ (s : State) (e : Eye) (g : Group),
      let left : ℕ := if g.holdLeft ≠ 0 then g.holdLeft else min ((64 - g.vec % 64) % 64) (g.cur.length - g.vec)
      let v : ℕ := if g.holdLeft ≠ 0 then g.vec else g.vec + left
      s.groupOf e.val = some g ∧ g.st = GState.running ∧ v < g.cur.length) ∧
    (∃ (s : State) (e : Eye) (g : Group),
      let left : ℕ := if g.holdLeft ≠ 0 then g.holdLeft else min ((64 - g.vec % 64) % 64) (g.cur.length - g.vec)
      let v : ℕ := if g.holdLeft ≠ 0 then g.vec else g.vec + left
      s.groupOf e.val = some g ∧ g.st = GState.running ∧ g.cur.length ≤ v ∧ g.queue = []) ∧
    (∃ (s : State) (e : Eye) (g : Group) (p : Pass) (r : List Pass),
      let left : ℕ := if g.holdLeft ≠ 0 then g.holdLeft else min ((64 - g.vec % 64) % 64) (g.cur.length - g.vec)
      let v : ℕ := if g.holdLeft ≠ 0 then g.vec else g.vec + left
      s.groupOf e.val = some g ∧ g.st = GState.running ∧ g.cur.length ≤ v ∧ g.queue = p :: r ∧ (¬(p.sync = true ∧
          p.first = true ∧ p.entry ≠ g.cur.entry))) ∧
    (∃ (s : State) (e : Eye) (g : Group) (p : Pass) (r : List Pass) (t : ℕ),
      let left : ℕ := if g.holdLeft ≠ 0 then g.holdLeft else min ((64 - g.vec % 64) % 64) (g.cur.length - g.vec)
      let b : ℕ := g.at_ + left * s.period g.leader g.cur.tset
      let v : ℕ := if g.holdLeft ≠ 0 then g.vec else g.vec + left
      s.groupOf e.val = some g ∧ g.st = GState.running ∧ g.cur.length ≤ v ∧ g.queue = p :: r ∧ (p.sync = true ∧
          p.first = true ∧ p.entry ≠ g.cur.entry) ∧ s.syncBound g b = some t) ∧
    (∃ (s : State) (e : Eye) (g : Group) (p : Pass) (r : List Pass),
      let left : ℕ := if g.holdLeft ≠ 0 then g.holdLeft else min ((64 - g.vec % 64) % 64) (g.cur.length - g.vec)
      let b : ℕ := g.at_ + left * s.period g.leader g.cur.tset
      let v : ℕ := if g.holdLeft ≠ 0 then g.vec else g.vec + left
      s.groupOf e.val = some g ∧ g.st = GState.running ∧ g.cur.length ≤ v ∧ g.queue = p :: r ∧ (p.sync = true ∧
          p.first = true ∧ p.entry ≠ g.cur.entry) ∧ s.syncBound g b = none) ∧
    (∃ (s : State) (e : Eye) (g : Group) (t : ℕ), s.groupOf e.val = some g ∧ g.st = GState.waiting ∧
        s.syncBound g g.at_ = some t) ∧
    (∃ (s : State) (e : Eye) (g : Group), s.groupOf e.val = some g ∧ g.st = GState.waiting ∧
        s.syncBound g g.at_ = none) ∧
    (∃ (s : State) (e : Eye), ∀ (g : Group), s.groupOf e.val = some g → g.st = GState.armed) :=
  ⟨⟨uS, 0, 0x0, by decide +kernel⟩,
   ⟨inGroup (aGroup .running), 0, 0x0, by decide +kernel⟩,
   ⟨(on (atStage 3) (eyePg 0)).set (eyePg 0) F.EYE_VAMP_CFG_RES_BLK 1, 0, 0x8000, by decide +kernel⟩,
   ⟨rS, 0, by decide +kernel⟩,
   ⟨withEye { load := some (0, 0, 1) }, 0, _, _, _, rfl⟩,
   ⟨uS, 0, by decide +kernel⟩,
   ⟨rS, 0, 0, by decide +kernel⟩,
   ⟨(inGroup (aGroup .running)).setEye 0 { gran := [{ pass := 0, g := 0 }] }, 0, 0, _, _, _, rfl, rfl, rfl⟩,
   ⟨(inGroup (aGroup .running)).setEye 0 { gran := [{ pass := 7, g := 0 }] }, 0, 0, _, _, rfl, rfl,
       by decide +kernel⟩,
   ⟨{ (on rS tbsPg).put tbsPg F.TBS_LACE_CTL_ALIGN_ARM true with groups := [aGroup .running] }, 0, _, rfl,
       by decide +kernel⟩,
   ⟨inGroup { aGroup .running with cur := aPass 64, vec := 64 }, 0, _, rfl, by decide +kernel⟩,
   ⟨inGroup { aGroup .running with cur := aPass 64, vec := 64, queue := [aPass 5] }, 0, _, _, _, rfl,
       by decide +kernel, by decide +kernel, rfl, by decide +kernel⟩,
   ⟨(inGroup { aGroup .running with cur := aPass 64, vec := 64, queue := [syncPass] }).setEye 0 { sync := some (5, 0) }, 0, _, _, _, 5120, rfl, by decide +kernel, by decide +kernel, rfl, by decide +kernel, by decide +kernel⟩,
   ⟨inGroup { aGroup .running with cur := aPass 64, vec := 64, queue := [syncPass] }, 0, _, _, _, rfl,
       by decide +kernel, by decide +kernel, rfl, by decide +kernel, by decide +kernel⟩,
   ⟨(inGroup (aGroup .waiting)).setEye 0 { sync := some (5, 0) }, 0, aGroup .waiting, 5120, by decide +kernel⟩,
   ⟨inGroup (aGroup .waiting), 0, aGroup .waiting, by decide +kernel⟩,
   ⟨rS, 0, by decide +kernel⟩⟩

theorem witness_LaneLoadsAndStores :
    (∃ (s : State) (q : Quad) (n : ℕ) (r : Instr × ℕ × Bool × ℕ × (W32 → ℕ → ℤ)),
      let d : AneDyn := s.aneOf q.val
      let w : W32 := s.ucur (q.val) 1
      let half : W32 → ℕ → ℕ := fun v x ↦ if x % 4 < 2 then fget v 15 0 else fget v 31 16
      let rows : List (Instr × ℕ × Bool × ℕ × (W32 → ℕ → ℤ)) := [(Instr.aneLd16 q n, 1, false, 2,
          fun v x ↦ toSigned 16 (half v x)), (Instr.aneLd32 q n, 2, false, 4, fun v x ↦ BitVec.toInt v),
          (Instr.aneLdb32 q n, 3, true, 4, fun v x ↦ BitVec.toInt v), (Instr.aneLdu16 q n, 4, false, 2,
          fun v x ↦ ↑(half v x))]
      r ∈ rows ∧ (s.aneState q.val = 2 ∧ fget w 2 0 = r.2.1 ∧ d.parts.testBit 0 = false)) ∧
    (∃ (s : State) (q : Quad) (n : ℕ) (r : Instr × ℕ × Bool × ℕ × (W32 → ℕ → ℤ)),
      let d : AneDyn := s.aneOf q.val
      let w : W32 := s.ucur (q.val) 1
      let half : W32 → ℕ → ℕ := fun v x ↦ if x % 4 < 2 then fget v 15 0 else fget v 31 16
      let rows : List (Instr × ℕ × Bool × ℕ × (W32 → ℕ → ℤ)) := [(Instr.aneLd16 q n, 1, false, 2,
          fun v x ↦ toSigned 16 (half v x)), (Instr.aneLd32 q n, 2, false, 4, fun v x ↦ BitVec.toInt v),
          (Instr.aneLdb32 q n, 3, true, 4, fun v x ↦ BitVec.toInt v), (Instr.aneLdu16 q n, 4, false, 2,
          fun v x ↦ ↑(half v x))]
      r ∈ rows ∧ (¬(s.aneState q.val = 2 ∧ fget w 2 0 = r.2.1 ∧ d.parts.testBit 0 = false))) ∧
    (∃ (s : State) (q : Quad),
      let d : AneDyn := s.aneOf q.val
      d.loads = []) ∧
    (∃ (s : State) (q : Quad) (x : LaneLoad) (r : List LaneLoad),
      let d : AneDyn := s.aneOf q.val
      d.loads = x :: r ∧ x.age = 0) ∧
    (∃ (s : State) (q : Quad) (x : LaneLoad) (r : List LaneLoad),
      let d : AneDyn := s.aneOf q.val
      d.loads = x :: r ∧ x.age ≠ 0) ∧
    (∃ (s : State) (q : Quad) (n : ℕ) (r : Instr × ℕ × Tab W32),
      let d : AneDyn := s.aneOf q.val
      let w : W32 := s.ucur (q.val) 2
      let lanes : List ℕ :=
          List.filter (fun l ↦ !BitVec.getLsbD (s.ucur (q.val) 3) 21 || d.f.testBit l) (List.range 16)
      let at_ : ℕ → ℕ :=
          fun l ↦ laneAddr (tabGet { base := 0, w := 0, stride := 0, inc := 0, ofs := 0 } d.ptrs (fget w 5 3)) (BitVec.getLsbD w 10) l
      let reg : ℕ → BitVec 40 := fun l ↦ tabGet 0 d.v (16 * l + fget w 9 6)
      let put : (W32 → ℕ → W32) → Tab W32 :=
          fun new ↦ List.foldl (fun m l ↦ tabPut 0 m (spadKey (q.val) (at_ l)) (new (tabGet 0 m (spadKey (q.val) (at_ l))) l)) s.spad lanes
      let halves : Tab W32 :=
          put fun v l ↦ if at_ l % 4 < 2 then v &&& 4294901760 ||| BitVec.setWidth 32 (BitVec.setWidth 16 (reg l)) else v &&& ↑65535 ||| BitVec.setWidth 32 (BitVec.setWidth 16 (reg l)) <<< 16
      let sums : Tab W32 :=
          List.foldl (fun m x ↦ tabPut 0 m (spadKey (q.val) (4 * x)) (tabGet 0 m (spadKey (q.val) (4 * x)) + List.foldl (fun y l ↦ y + BitVec.setWidth 32 (reg l)) 0 (List.filter (fun l ↦ at_ l / 4 == x) lanes))) s.spad (List.map (fun l ↦ at_ l / 4) lanes).eraseDups
      let rows : List (Instr × ℕ × Tab W32) := [(Instr.aneSt16 q n, 1, halves), (Instr.aneSt32 q n, 2,
          put fun x l ↦ BitVec.setWidth 32 (reg l)), (Instr.aneSta q n, 3, sums)]
      r ∈ rows ∧ (s.aneState q.val = 2 ∧ fget w 2 0 = r.2.1 ∧ d.parts.testBit 1 = false ∧
          (fget (s.ucur (q.val) 1) 2 0 = 0 ∨ d.parts.testBit 0 = true) ∧
          ∀ x ∈ d.loads, x.age ≠ 0 → x.dst ≠ fget w 9 6)) ∧
    (∃ (s : State) (q : Quad) (n : ℕ) (r : Instr × ℕ × Tab W32),
      let d : AneDyn := s.aneOf q.val
      let w : W32 := s.ucur (q.val) 2
      let lanes : List ℕ :=
          List.filter (fun l ↦ !BitVec.getLsbD (s.ucur (q.val) 3) 21 || d.f.testBit l) (List.range 16)
      let at_ : ℕ → ℕ :=
          fun l ↦ laneAddr (tabGet { base := 0, w := 0, stride := 0, inc := 0, ofs := 0 } d.ptrs (fget w 5 3)) (BitVec.getLsbD w 10) l
      let reg : ℕ → BitVec 40 := fun l ↦ tabGet 0 d.v (16 * l + fget w 9 6)
      let put : (W32 → ℕ → W32) → Tab W32 :=
          fun new ↦ List.foldl (fun m l ↦ tabPut 0 m (spadKey (q.val) (at_ l)) (new (tabGet 0 m (spadKey (q.val) (at_ l))) l)) s.spad lanes
      let halves : Tab W32 :=
          put fun v l ↦ if at_ l % 4 < 2 then v &&& 4294901760 ||| BitVec.setWidth 32 (BitVec.setWidth 16 (reg l)) else v &&& ↑65535 ||| BitVec.setWidth 32 (BitVec.setWidth 16 (reg l)) <<< 16
      let sums : Tab W32 :=
          List.foldl (fun m x ↦ tabPut 0 m (spadKey (q.val) (4 * x)) (tabGet 0 m (spadKey (q.val) (4 * x)) + List.foldl (fun y l ↦ y + BitVec.setWidth 32 (reg l)) 0 (List.filter (fun l ↦ at_ l / 4 == x) lanes))) s.spad (List.map (fun l ↦ at_ l / 4) lanes).eraseDups
      let rows : List (Instr × ℕ × Tab W32) := [(Instr.aneSt16 q n, 1, halves), (Instr.aneSt32 q n, 2,
          put fun x l ↦ BitVec.setWidth 32 (reg l)), (Instr.aneSta q n, 3, sums)]
      r ∈ rows ∧ (¬(s.aneState q.val = 2 ∧ fget w 2 0 = r.2.1 ∧ d.parts.testBit 1 = false ∧
          (fget (s.ucur (q.val) 1) 2 0 = 0 ∨ d.parts.testBit 0 = true) ∧
          ∀ x ∈ d.loads, x.age ≠ 0 → x.dst ≠ fget w 9 6))) :=
  ⟨⟨withAne 2 {} 0 1 0 0 0, 0, 0, _, List.mem_cons_self, by decide +kernel⟩,
   ⟨rS, 0, 0, _, List.mem_cons_self, by decide +kernel⟩,
   ⟨rS, 0, by decide +kernel⟩,
   ⟨withAne 2 { loads := [⟨0, List.replicate 16 (1, false), 0⟩] } 0 0 0 0 0, 0, _, _, rfl, rfl⟩,
   ⟨withAne 2 { loads := [⟨0, List.replicate 16 (1, false), 1⟩] } 0 0 0 0 0, 0, _, _, rfl, by decide⟩,
   ⟨withAne 2 {} 0 0 1 0 0, 0, 0, _, List.mem_cons_self, by decide +kernel⟩,
   ⟨rS, 0, 0, _, List.mem_cons_self, by decide +kernel⟩⟩

theorem witness_MismatchesLeadToTakeovers :
    (∃ (s : State) (e : Eye) (t : ℕ),
      let p : ℕ := pg T.spr e.val
      let d : SprDyn := s.sprOf e.val
      let c : ℕ := 16 * e.val + s.get p F.SPR_STS_POS
      (¬((s.checking e.val = true ∧ s.compared (e.val) c t = true) ∧ d.on = true ∧ s.get p F.SPR_STS_STATE ≠ 4)) ∧
          (¬((s.checking e.val = true ∧ s.compared (e.val) c t = true) ∧ d.wasOn = true ∧ s.heelNow e.val = true ∧
          s.get p F.SPR_STS_STATE = 4))) ∧
    (∃ (s : State) (e : Eye) (l : BitVec 16) (r : BitVec 16) (nl : Bool) (nr : Bool) (t : ℕ),
      let p : ℕ := pg T.spr e.val
      let d : SprDyn := s.sprOf e.val
      let c : ℕ := 16 * e.val + s.get p F.SPR_STS_POS
      ((s.checking e.val = true ∧ s.compared (e.val) c t = true) ∧ d.on = true ∧ s.get p F.SPR_STS_STATE ≠ 4) ∧
          s.get p F.SPR_STS_STATE = 1 ∧ (nl = false ∧ nr = false ∧ (l.toInt - r.toInt).natAbs ≤ d.thr)) ∧
    (∃ (s : State) (e : Eye) (l : BitVec 16) (r : BitVec 16) (nl : Bool) (nr : Bool) (t : ℕ),
      let p : ℕ := pg T.spr e.val
      let d : SprDyn := s.sprOf e.val
      let c : ℕ := 16 * e.val + s.get p F.SPR_STS_POS
      ((s.checking e.val = true ∧ s.compared (e.val) c t = true) ∧ d.on = true ∧ s.get p F.SPR_STS_STATE ≠ 4) ∧
          s.get p F.SPR_STS_STATE = 1 ∧ (¬(nl = false ∧ nr = false ∧ (l.toInt - r.toInt).natAbs ≤ d.thr)) ∧
          d.take.isSome = true) ∧
    (∃ (s : State) (e : Eye) (l : BitVec 16) (r : BitVec 16) (nl : Bool) (nr : Bool) (t : ℕ),
      let p : ℕ := pg T.spr e.val
      let d : SprDyn := s.sprOf e.val
      let c : ℕ := 16 * e.val + s.get p F.SPR_STS_POS
      ((s.checking e.val = true ∧ s.compared (e.val) c t = true) ∧ d.on = true ∧ s.get p F.SPR_STS_STATE ≠ 4) ∧
          s.get p F.SPR_STS_STATE = 1 ∧ (¬(nl = false ∧ nr = false ∧ (l.toInt - r.toInt).natAbs ≤ d.thr)) ∧
          d.take = none ∧ (nl = true ∨ nr = false ∧ r.toInt.natAbs ≤ l.toInt.natAbs)) ∧
    (∃ (s : State) (e : Eye) (l : BitVec 16) (r : BitVec 16) (nl : Bool) (nr : Bool) (t : ℕ),
      let p : ℕ := pg T.spr e.val
      let d : SprDyn := s.sprOf e.val
      let c : ℕ := 16 * e.val + s.get p F.SPR_STS_POS
      ((s.checking e.val = true ∧ s.compared (e.val) c t = true) ∧ d.on = true ∧ s.get p F.SPR_STS_STATE ≠ 4) ∧
          s.get p F.SPR_STS_STATE = 1 ∧ (¬(nl = false ∧ nr = false ∧ (l.toInt - r.toInt).natAbs ≤ d.thr)) ∧
          d.take = none ∧ (¬(nl = true ∨ nr = false ∧ r.toInt.natAbs ≤ l.toInt.natAbs))) ∧
    (∃ (s : State) (e : Eye) (l : BitVec 16) (nl : Bool) (t : ℕ),
      let p : ℕ := pg T.spr e.val
      let d : SprDyn := s.sprOf e.val
      let c : ℕ := 16 * e.val + s.get p F.SPR_STS_POS
      ((s.checking e.val = true ∧ s.compared (e.val) c t = true) ∧ d.on = true ∧ s.get p F.SPR_STS_STATE ≠ 4) ∧
          (s.get p F.SPR_STS_STATE = 2 ∨ s.get p F.SPR_STS_STATE = 3) ∧ (nl = false ∧ l.toInt.natAbs ≤ d.refThr)) ∧
    (∃ (s : State) (e : Eye) (l : BitVec 16) (nl : Bool) (t : ℕ),
      let p : ℕ := pg T.spr e.val
      let d : SprDyn := s.sprOf e.val
      let c : ℕ := 16 * e.val + s.get p F.SPR_STS_POS
      ((s.checking e.val = true ∧ s.compared (e.val) c t = true) ∧ d.on = true ∧ s.get p F.SPR_STS_STATE ≠ 4) ∧
          (s.get p F.SPR_STS_STATE = 2 ∨ s.get p F.SPR_STS_STATE = 3) ∧ (¬(nl = false ∧ l.toInt.natAbs ≤ d.refThr))) ∧
    (∃ (s : State) (e : Eye) (t : ℕ),
      let p : ℕ := pg T.spr e.val
      let d : SprDyn := s.sprOf e.val
      let c : ℕ := 16 * e.val + s.get p F.SPR_STS_POS
      ((s.checking e.val = true ∧ s.compared (e.val) c t = true) ∧ d.on = true ∧ s.get p F.SPR_STS_STATE ≠ 4) ∧
          s.get p F.SPR_STS_STATE = 0) ∧
    (∃ (s : State) (e : Eye) (l : BitVec 16) (r : BitVec 16) (nl : Bool) (nr : Bool) (t : ℕ),
      let p : ℕ := pg T.spr e.val
      let d : SprDyn := s.sprOf e.val
      let c : ℕ := 16 * e.val + s.get p F.SPR_STS_POS
      ((s.checking e.val = true ∧ s.compared (e.val) c t = true) ∧ d.wasOn = true ∧ s.heelNow e.val = true ∧
          s.get p F.SPR_STS_STATE = 4) ∧ d.was = 1 ∧ (nl = false ∧ nr = false ∧
          (l.toInt - r.toInt).natAbs ≤ d.thr ∨ d.take.isSome = true)) ∧
    (∃ (s : State) (e : Eye) (l : BitVec 16) (r : BitVec 16) (nl : Bool) (nr : Bool) (t : ℕ),
      let p : ℕ := pg T.spr e.val
      let d : SprDyn := s.sprOf e.val
      let c : ℕ := 16 * e.val + s.get p F.SPR_STS_POS
      ((s.checking e.val = true ∧ s.compared (e.val) c t = true) ∧ d.wasOn = true ∧ s.heelNow e.val = true ∧
          s.get p F.SPR_STS_STATE = 4) ∧ d.was = 1 ∧ (¬(nl = false ∧ nr = false ∧
          (l.toInt - r.toInt).natAbs ≤ d.thr)) ∧ d.take = none ∧ (nl = true ∨ nr = false ∧
          r.toInt.natAbs ≤ l.toInt.natAbs)) ∧
    (∃ (s : State) (e : Eye) (l : BitVec 16) (r : BitVec 16) (nl : Bool) (nr : Bool) (t : ℕ),
      let p : ℕ := pg T.spr e.val
      let d : SprDyn := s.sprOf e.val
      let c : ℕ := 16 * e.val + s.get p F.SPR_STS_POS
      ((s.checking e.val = true ∧ s.compared (e.val) c t = true) ∧ d.wasOn = true ∧ s.heelNow e.val = true ∧
          s.get p F.SPR_STS_STATE = 4) ∧ d.was = 1 ∧ (¬(nl = false ∧ nr = false ∧
          (l.toInt - r.toInt).natAbs ≤ d.thr)) ∧ d.take = none ∧ (¬(nl = true ∨ nr = false ∧
          r.toInt.natAbs ≤ l.toInt.natAbs))) ∧
    (∃ (s : State) (e : Eye) (l : BitVec 16) (nl : Bool) (t : ℕ),
      let p : ℕ := pg T.spr e.val
      let d : SprDyn := s.sprOf e.val
      let c : ℕ := 16 * e.val + s.get p F.SPR_STS_POS
      ((s.checking e.val = true ∧ s.compared (e.val) c t = true) ∧ d.wasOn = true ∧ s.heelNow e.val = true ∧
          s.get p F.SPR_STS_STATE = 4) ∧ (d.was = 2 ∨ d.was = 3) ∧ (nl = false ∧ l.toInt.natAbs ≤ d.refThr)) ∧
    (∃ (s : State) (e : Eye) (l : BitVec 16) (nl : Bool) (t : ℕ),
      let p : ℕ := pg T.spr e.val
      let d : SprDyn := s.sprOf e.val
      let c : ℕ := 16 * e.val + s.get p F.SPR_STS_POS
      ((s.checking e.val = true ∧ s.compared (e.val) c t = true) ∧ d.wasOn = true ∧ s.heelNow e.val = true ∧
          s.get p F.SPR_STS_STATE = 4) ∧ (d.was = 2 ∨ d.was = 3) ∧ (¬(nl = false ∧ l.toInt.natAbs ≤ d.refThr))) ∧
    (∃ (s : State) (e : Eye), (s.sprOf e.val).take = none) ∧
    (∃ (s : State) (e : Eye) (c : ℕ) (t : ℕ), (s.sprOf e.val).take = some (c, t) ∧ c < 256 ∧ s.placing e.val = true) ∧
    (∃ (s : State) (e : Eye) (c : ℕ) (t : ℕ), (s.sprOf e.val).take = some (c, t) ∧ c < 256 ∧
        s.placing e.val = false) :=
  ⟨⟨on (atStage 3) (pg T.spr 0), 0, 0, by decide +kernel⟩,
   ⟨sprIn 1 { on := true }, 0, 0, 0, false, false, 0, by decide +kernel⟩,
   ⟨sprIn 1 { on := true, take := some (0, 0) }, 0, 0, 0, true, false, 0, by decide +kernel⟩,
   ⟨sprIn 1 { on := true }, 0, 0, 0, true, false, 0, by decide +kernel⟩,
   ⟨sprIn 1 { on := true }, 0, 0, 0, false, true, 0, by decide +kernel⟩,
   ⟨sprIn 2 { on := true }, 0, 0, false, 0, by decide +kernel⟩,
   ⟨sprIn 2 { on := true }, 0, 0, true, 0, by decide +kernel⟩,
   ⟨sprIn 0 { on := true }, 0, 0, by decide +kernel⟩,
   ⟨sprIn 4 { wasOn := true, was := 1, heelT := some 0 }, 0, 0, 0, false, false, 0, by decide +kernel⟩,
   ⟨sprIn 4 { wasOn := true, was := 1, heelT := some 0 }, 0, 0, 0, true, false, 0, by decide +kernel⟩,
   ⟨sprIn 4 { wasOn := true, was := 1, heelT := some 0 }, 0, 0, 0, false, true, 0, by decide +kernel⟩,
   ⟨sprIn 4 { wasOn := true, was := 2, heelT := some 0 }, 0, 0, false, 0, by decide +kernel⟩,
   ⟨sprIn 4 { wasOn := true, was := 2, heelT := some 0 }, 0, 0, true, 0, by decide +kernel⟩,
   ⟨rS, 0, by decide +kernel⟩,
   ⟨(inGroup { aGroup .running with begun := true }).setSpr 0 { take := some (3, 5) }, 0, _, _, rfl,
       by decide +kernel⟩,
   ⟨rS.setSpr 0 { take := some (3, 5) }, 0, _, _, rfl, by decide +kernel⟩⟩

theorem witness_StagesStepAndFall :
    (∃ (s : State),
        s.boot.held = true ∨ s.jtag.taken = true ∨ s.flag fltPg F.FLT_STS_PWR_FAIL = true ∨ s.devHeel = true) ∧
    (∃ (s : State),
        (¬(s.boot.held = true ∨ s.jtag.taken = true ∨ s.flag fltPg F.FLT_STS_PWR_FAIL = true ∨ s.devHeel = true)) ∧
        s.stage = 0 ∧ s.pllsLocked = true) ∧
    (∃ (s : State),
        (¬(s.boot.held = true ∨ s.jtag.taken = true ∨ s.flag fltPg F.FLT_STS_PWR_FAIL = true ∨ s.devHeel = true)) ∧
        s.stage = 0 ∧ s.pllsLocked = false) ∧
    (∃ (s : State), s.stage ≠ 0 ∧ (s.holdAt ≤ s.stage ∨ s.flag secPg F.SEC_STS_RECOVERY = true)) ∧
    (∃ (s : State),
        (¬(s.boot.held = true ∨ s.jtag.taken = true ∨ s.flag fltPg F.FLT_STS_PWR_FAIL = true ∨ s.devHeel = true)) ∧
        s.stage < s.holdAt ∧ s.flag secPg F.SEC_STS_RECOVERY = false ∧ s.stage = 1 ∧ s.pllsLocked = true) ∧
    (∃ (s : State),
        (¬(s.boot.held = true ∨ s.jtag.taken = true ∨ s.flag fltPg F.FLT_STS_PWR_FAIL = true ∨ s.devHeel = true)) ∧
        s.stage < s.holdAt ∧ s.flag secPg F.SEC_STS_RECOVERY = false ∧ s.stage = 1 ∧ s.pllsLocked = false) ∧
    (∃ (s : State),
        (¬(s.boot.held = true ∨ s.jtag.taken = true ∨ s.flag fltPg F.FLT_STS_PWR_FAIL = true ∨ s.devHeel = true)) ∧
        s.stage < s.holdAt ∧ s.flag secPg F.SEC_STS_RECOVERY = false ∧ s.stage = 2) ∧
    (∃ (s : State),
        (¬(s.boot.held = true ∨ s.jtag.taken = true ∨ s.flag fltPg F.FLT_STS_PWR_FAIL = true ∨ s.devHeel = true)) ∧
        s.stage < s.holdAt ∧ s.flag secPg F.SEC_STS_RECOVERY = false ∧ s.stage = 3 ∧
        s.flag calPg F.CAL_STS_USER_OK = true) ∧
    (∃ (s : State),
        (¬(s.boot.held = true ∨ s.jtag.taken = true ∨ s.flag fltPg F.FLT_STS_PWR_FAIL = true ∨ s.devHeel = true)) ∧
        s.stage < s.holdAt ∧ s.flag secPg F.SEC_STS_RECOVERY = false ∧ s.stage = 3 ∧
        s.flag calPg F.CAL_STS_USER_OK = false ∧ s.newestSlot = none) ∧
    (∃ (s : State), s.groups ≠ []) ∧
    (∃ (s : State),
      let m : ℕ := max 2 s.holdAt
      s.groups = [] ∧ (s.stage < 3 ∨ s.stage ≤ m) ∧ s.stage ≤ 4) ∧
    (∃ (s : State),
      let m : ℕ := max 2 s.holdAt
      s.groups = [] ∧ s.stage = 3 ∧ m = 2) ∧
    (∃ (s : State),
      let m : ℕ := max 2 s.holdAt
      s.groups = [] ∧ s.stage = 4 ∧ m = 3) ∧
    (∃ (s : State),
      let m : ℕ := max 2 s.holdAt
      s.groups = [] ∧ s.stage = 4 ∧ m = 2) ∧
    (∃ (s : State), Reaches s glbPg) :=
  ⟨⟨rS.put fltPg F.FLT_STS_DEV_HEEL true, by decide +kernel⟩,
   ⟨(rS.set tbsPg F.TBS_REF_STS_QPLL_LOCK 15).put tbsPg F.TBS_REF_STS_CPLL_LOCK true, by decide +kernel⟩,
   ⟨rS, by decide +kernel⟩,
   ⟨atStage 4, by decide +kernel⟩,
   ⟨((atStage 1).set tbsPg F.TBS_REF_STS_QPLL_LOCK 15).put tbsPg F.TBS_REF_STS_CPLL_LOCK true, by decide +kernel⟩,
   ⟨(atStage 1), by decide +kernel⟩,
   ⟨(atStage 2), by decide +kernel⟩,
   ⟨((atStage 3).put calPg F.CAL_STS_USER_OK true), by decide +kernel⟩,
   ⟨(atStage 3), by decide +kernel⟩,
   ⟨{ (on rS tbsPg).put tbsPg F.TBS_LACE_CTL_ALIGN_ARM true with groups := [aGroup .running] }, by decide +kernel⟩,
   ⟨rS, by decide +kernel⟩,
   ⟨(atStage 3).set glbPg F.GLB_STAGE_HOLD_AT 2, by decide +kernel⟩,
   ⟨(atStage 4).set glbPg F.GLB_STAGE_HOLD_AT 3, by decide +kernel⟩,
   ⟨(atStage 4).set glbPg F.GLB_STAGE_HOLD_AT 2, by decide +kernel⟩,
   ⟨uS, by decide +kernel⟩⟩

theorem witness_StacksRefreshSleepAndRepair :
    (∃ (s : State) (x : Fin 2), s.memServes x.val = false) ∧
    (∃ (s : State) (x : Fin 2) (pch : Fin 32) (b : Fin 16),
      let d : XbrDyn := s.xbrOf x.val
      s.memServes x.val = true ∧ (¬∃ y ∈ d.queue, hbmPch y.a.addr = pch.val ∧ (∃ a, y.phys = some a ∧
          hbmBank a = b.val) ∧ 1 ≤ y.urg)) ∧
    (∃ (s : State) (x : Fin 2) (pch : Fin 32) (b : Fin 16),
      let d : XbrDyn := s.xbrOf x.val
      let k : ℕ := 16 * pch.val + b.val
      let n : ℕ := tabGet 0 d.debt k
      s.memServes x.val = true ∧ (∃ y ∈ d.queue, hbmPch y.a.addr = pch.val ∧ (∃ a, y.phys = some a ∧
          hbmBank a = b.val) ∧ 1 ≤ y.urg) ∧ n < 7) ∧
    (∃ (s : State) (x : Fin 2) (pch : Fin 32) (b : Fin 16),
      let d : XbrDyn := s.xbrOf x.val
      let k : ℕ := 16 * pch.val + b.val
      let n : ℕ := tabGet 0 d.debt k
      s.memServes x.val = true ∧ (∃ y ∈ d.queue, hbmPch y.a.addr = pch.val ∧ (∃ a, y.phys = some a ∧
          hbmBank a = b.val) ∧ 1 ≤ y.urg) ∧ 7 ≤ n) ∧
    (∃ (s : State) (x : Fin 2),
      let d : XbrDyn := s.xbrOf x.val
      d.nbr = []) ∧
    (∃ (s : State) (x : Fin 2) (b : ℕ) (row : ℕ) (r : List (ℕ × ℕ)),
      let d : XbrDyn := s.xbrOf x.val
      d.nbr = (b, row) :: r) ∧
    (∃ (s : State) (x : Fin 2),
      let d : XbrDyn := s.xbrOf x.val
      let p : ℕ := memPg x.val
      s.flag p F.MEM_REF_CTL_SR_EN = true ∧ s.memServes x.val = true ∧ s.groups = [] ∧
          (∀ e < 16, s.get (pg T.tdc e) F.TDC_CTL_STREAM = 0) ∧ (∀ q < 4, s.trgRuns q = false) ∧ d.ready = [] ∧
          d.queue = [] ∧ d.issued = []) ∧
    (∃ (s : State) (x : Fin 2),
      let d : XbrDyn := s.xbrOf x.val
      let p : ℕ := memPg x.val
      ¬(s.flag p F.MEM_REF_CTL_SR_EN = true ∧ s.memServes x.val = true ∧ s.groups = [] ∧
          (∀ e < 16, s.get (pg T.tdc e) F.TDC_CTL_STREAM = 0) ∧ (∀ q < 4, s.trgRuns q = false) ∧ d.ready = [] ∧
          d.queue = [] ∧ d.issued = [])) ∧
    (∃ (s : State) (x : Fin 2),
      let p : ℕ := memPg x.val
      s.get p F.MEM_STS_SR_STATE = 0 ∨ s.enabled p = false ∨ s.flag fltPg F.FLT_STS_DEV_HEEL = true) ∧
    (∃ (s : State) (x : Fin 2),
      let p : ℕ := memPg x.val
      s.get p F.MEM_STS_SR_STATE ≠ 0 ∧ (¬(s.enabled p = false ∨ s.flag fltPg F.FLT_STS_DEV_HEEL = true))) ∧
    (∃ (s : State) (x : Fin 2) (j : ℕ),
      let d : XbrDyn := s.xbrOf x.val
      let p : ℕ := memPg x.val
      let c : Option ℕ := List.find? (fun j ↦ fget (s.rd p (384 + 4 * j)) 25 24 == 2) (List.range 16)
      c = some j ∧ (s.memServes x.val = true ∧ s.flag p F.MEM_REPAIR_EN = true ∧ s.groups = [] ∧ d.repair = none ∧
          ∀ (t : ℕ), d.repairT = some t → t + 6400000 * 1024 ≤ s.mono)) ∧
    (∃ (s : State) (x : Fin 2),
      let d : XbrDyn := s.xbrOf x.val
      let p : ℕ := memPg x.val
      let c : Option ℕ := List.find? (fun j ↦ fget (s.rd p (384 + 4 * j)) 25 24 == 2) (List.range 16)
      c = none ∨ ¬(s.memServes x.val = true ∧ s.flag p F.MEM_REPAIR_EN = true ∧ s.groups = [] ∧ d.repair = none ∧
          ∀ (t : ℕ), d.repairT = some t → t + 6400000 * 1024 ≤ s.mono)) ∧
    (∃ (s : State) (x : Fin 2),
      let d : XbrDyn := s.xbrOf x.val
      d.repair = none) ∧
    (∃ (s : State) (x : Fin 2) (j : ℕ),
      let d : XbrDyn := s.xbrOf x.val
      let p : ℕ := memPg x.val
      let key : ℕ := fget (s.rd p (384 + 4 * j)) 23 0
      let u : State :=
          ((s.setXbr x.val { d with repair := none }).put p (F.MEM_REPAIR_LOG_DONE.off (4 * j)) true).repairRow (x.val) key
      d.repair = some j ∧ 256 ≤ (List.filter (fun r ↦ r.1 == x.val) u.flash.rlist).length) ∧
    (∃ (s : State) (x : Fin 2) (j : ℕ),
      let d : XbrDyn := s.xbrOf x.val
      let p : ℕ := memPg x.val
      let key : ℕ := fget (s.rd p (384 + 4 * j)) 23 0
      let u : State :=
          ((s.setXbr x.val { d with repair := none }).put p (F.MEM_REPAIR_LOG_DONE.off (4 * j)) true).repairRow (x.val) key
      d.repair = some j ∧ (List.filter (fun r ↦ r.1 == x.val) u.flash.rlist).length < 256) ∧
    (∃ (s : State) (x : Fin 2) (key : ℕ) (b : ℕ),
      let o : ℕ := 32 * b ^^^ 2 ^ 19
      List.filter (fun b ↦ hbmStack (32 * b) == x.val && rowKey (32 * b) == key) s.hbm.bad = [b] ∧
          s.mirrorBase ≤ 32 * b ∧ 32 * b < s.mirrorBase + 2 * s.mirrorSize ∧ o / 32 ∉ s.hbm.bad) ∧
    (∃ (s : State) (x : Fin 2) (key : ℕ) (b : ℕ),
      let o : ℕ := 32 * b ^^^ 2 ^ 19
      List.filter (fun b ↦ hbmStack (32 * b) == x.val && rowKey (32 * b) == key) s.hbm.bad = [b] ∧
          (o / 32 ∈ s.hbm.bad ∨ 32 * b < s.mirrorBase)) :=
  ⟨⟨rS, 0, by decide +kernel⟩,
   ⟨withQ {}, 0, 0, 0, by decide +kernel, fun ⟨y, h, _⟩ => by have h1 : y ∈ ([] : List QAcc) := h; cases h1⟩,
   ⟨withQ { queue := [aQAcc 1] }, 0, 0, 0, by decide +kernel⟩,
   ⟨withQ { queue := [aQAcc 1], debt := [(0, 7)] }, 0, 0, 0, by decide +kernel⟩,
   ⟨rS, 0, by decide +kernel⟩,
   ⟨withQ { nbr := [(0, 5)] }, 0, _, _, _, rfl⟩,
   ⟨(withQ {}).put (memPg 0) F.MEM_REF_CTL_SR_EN true, 0, by decide +kernel⟩,
   ⟨rS.put (memPg 0) F.MEM_REF_CTL_SR_EN false, 0, by decide +kernel⟩,
   ⟨rS, 0, by decide +kernel⟩,
   ⟨(on rS (memPg 0)).set (memPg 0) F.MEM_STS_SR_STATE 1, 0, by decide +kernel⟩,
   ⟨((withQ {}).wr (memPg 0) 0x180 0x2000000).put (memPg 0) F.MEM_REPAIR_EN true, 0, 0, by decide +kernel,
       by decide +kernel, by decide +kernel, by decide +kernel, by decide +kernel,
       fun t h => by have h1 : (none : Option ℕ) = some t := h; cases h1⟩,
   ⟨rS, 0, by decide +kernel⟩,
   ⟨rS, 0, by decide +kernel⟩,
   ⟨{ withQ { repair := some 0 } with flash := { rlist := List.replicate 256 (0, 0) } }, 0, _, rfl,
       by decide +kernel⟩,
   ⟨withQ { repair := some 0 }, 0, _, rfl, by decide +kernel⟩,
   ⟨{ rS.set (memPg 0) F.MEM_MIRROR_SIZE 1 with hbm := { bad := [0] } }, 0, 0, 0, by decide +kernel⟩,
   ⟨{ rS.set (memPg 0) F.MEM_MIRROR_BASE 1 with hbm := { bad := [0] } }, 0, 0, 0, by decide +kernel⟩⟩

theorem witness_StampsReachTheirStreams :
    (∃ (s : State) (c : Chan) (high : Bool) (level : Bool),
      let k : ChanDyn := s.chanOf c.val
      let was : Bool := if high = true then k.cmpH else k.cmpL
      was = level) ∧
    (∃ (s : State) (c : Chan) (high : Bool) (level : Bool) (t : ℕ),
      let k : ChanDyn := s.chanOf c.val
      let was : Bool := if high = true then k.cmpH else k.cmpL
      let u : State :=
          ((s.upTo t).setChan (c.val) (if high = true then { k with cmpH := level } else { k with cmpL := level })).seeWin c.val
      was ≠ level ∧ u.stage < 2) ∧
    (∃ (s : State) (c : Chan) (high : Bool) (level : Bool) (t : ℕ),
      let k : ChanDyn := s.chanOf c.val
      let was : Bool := if high = true then k.cmpH else k.cmpL
      let u : State :=
          ((s.upTo t).setChan (c.val) (if high = true then { k with cmpH := level } else { k with cmpL := level })).seeWin c.val
      let a : AwlDyn := u.awlOf c.val
      let last : Option ℕ := if high = true then a.lastH else a.lastL
      was ≠ level ∧ 2 ≤ u.stage ∧ (∀ (x : ℕ), last = some x → x + 1024 ≤ u.era + t)) ∧
    (∃ (s : State) (c : Chan) (high : Bool) (level : Bool) (t : ℕ) (x : ℕ),
      let k : ChanDyn := s.chanOf c.val
      let was : Bool := if high = true then k.cmpH else k.cmpL
      let u : State :=
          ((s.upTo t).setChan (c.val) (if high = true then { k with cmpH := level } else { k with cmpL := level })).seeWin c.val
      let a : AwlDyn := u.awlOf c.val
      let last : Option ℕ := if high = true then a.lastH else a.lastL
      was ≠ level ∧ 2 ≤ u.stage ∧ last = some x ∧ u.era + t < x + 1024) ∧
    (∃ (s : State), s.stamps = [] ∧ (∀ e < 16, (s.awlOf (16 * e)).wait = [])) ∧
    (∃ (s : State) (v : ℕ), (∃ x ∈ s.stamps, x.v = v) ∧ (∀ x ∈ s.stamps, v ≤ x.v)) ∧
    (∃ (s : State) (c : Chan),
      let u : State := s.gateRelease c.val
      (u.awlOf c.val).q.length < 16) ∧
    (∃ (s : State) (c : Chan) (bad : BitVec 16),
      let u : State := s.gateRelease c.val
      16 ≤ (u.awlOf c.val).q.length ∧ bad = 0) ∧
    (∃ (s : State) (c : Chan) (bad : BitVec 16),
      let u : State := s.gateRelease c.val
      16 ≤ (u.awlOf c.val).q.length ∧ bad ≠ 0) ∧
    (∃ (s : State) (e : Eye), Reaches s (pg T.tdc e.val)) ∧
    (∃ (s : State) (q : Quad) (o : ℕ) (r : List (ℕ × Option ℕ)), s.gateOf q.val = (o, none) :: r) ∧
    (∃ (s : State) (q : Quad), ∀ (o : ℕ) (r : List (ℕ × Option ℕ)), s.gateOf q.val ≠ (o, none) :: r) :=
  ⟨⟨rS, 0, false, false, by decide +kernel⟩,
   ⟨rS, 0, false, true, 0, by decide +kernel⟩,
   ⟨inGroup (aGroup .running), 0, false, true, 0, by decide +kernel⟩,
   ⟨(atStage 2).setAwl 0 { lastH := some 0 }, 0, true, true, 0, 0, by decide +kernel⟩,
   ⟨rS, by decide +kernel⟩,
   ⟨{ rS with stamps := [⟨0, 0, 1000⟩] }, 1000, by decide +kernel⟩,
   ⟨rS, 0, by decide +kernel⟩,
   ⟨rS.setAwl 0 { q := List.replicate 16 0 }, 0, 0, by decide +kernel⟩,
   ⟨rS.setAwl 0 { q := List.replicate 16 0 }, 0, 1, by decide +kernel⟩,
   ⟨uS, 0, by decide +kernel⟩,
   ⟨{ rS with gate := [(0, [(5, none)])] }, 0, _, _, rfl⟩,
   ⟨rS, 0, fun o r h => by have h1 : ([] : List (Nat × Option Nat)) = (o, none) :: r := h; cases h1⟩⟩

theorem witness_TriggersStartAndAcquire :
    (∃ (s : State) (q : Quad), Reaches s (trgPg q.val)) ∧
    (∃ (s : State) (q : Quad),
      let d : TrgDyn := s.trgOf q.val
      d.armed = none) ∧
    (∃ (s : State) (q : Quad) (b : ℕ),
      let d : TrgDyn := s.trgOf q.val
      let u : State := s.upToQ (q.val) (b * 1024)
      d.armed = some b ∧ (∃ x, (u.trgOf q.val).disarm = some x ∧ x ≤ b * 1024)) ∧
    (∃ (s : State) (q : Quad) (b : ℕ),
      let d : TrgDyn := s.trgOf q.val
      let u : State := s.upToQ (q.val) (b * 1024)
      d.armed = some b ∧ (¬∃ x, (u.trgOf q.val).disarm = some x ∧ x ≤ b * 1024)) ∧
    (∃ (s : State) (q : Quad), s.trgRuns q.val = false) ∧
    (∃ (s : State) (q : Quad),
      let d : TrgDyn := s.trgOf q.val
      let u : State := s.upToQ (q.val) ((d.at_ + 96) * 1024)
      s.trgRuns q.val = true ∧ (∃ x, (u.trgOf q.val).disarm = some x ∧ x ≤ (d.at_ + 96) * 1024)) ∧
    (∃ (s : State) (q : Quad),
      let d : TrgDyn := s.trgOf q.val
      let u : State := s.upToQ (q.val) ((d.at_ + 96) * 1024)
      let xs : List Stamp := sampleStamps (u.trgOf q.val) q.val
      let r : State × List (List ℕ) × List (List W32) := u.sampleRaw (q.val) d.at_
      let l : State × Bool := r.1.levelStep (q.val) xs r.2.1
      let a : State :=
          List.foldl (fun s x ↦ s.rawPoint (q.val) (d.at_ + x.2) x.1) (l.1.sampleDone (q.val) xs r.2.1) r.2.2.zipIdx
      let b : State := (List.foldl (fun s x ↦ s.acqStamp (q.val) x) a xs).acqFails q.val
      let len : ℕ := 64 * 2 ^ (b.tcfg (q.val) F.TRG_AVG_AVG_LOG + b.dlog q.val)
      let c : State := if b.acqMode q.val = 4 ∧
          (d.at_ + 4) % len = 0 then (b.avgFlush q.val).decimTake (q.val) (d.at_ + 4) else b
      s.trgRuns q.val = true ∧ (¬∃ x, (u.trgOf q.val).disarm = some x ∧ x ≤ (d.at_ + 96) * 1024) ∧
          c.trgRuns q.val = false) ∧
    (∃ (s : State) (q : Quad),
      let d : TrgDyn := s.trgOf q.val
      let u : State := s.upToQ (q.val) ((d.at_ + 96) * 1024)
      let xs : List Stamp := sampleStamps (u.trgOf q.val) q.val
      let r : State × List (List ℕ) × List (List W32) := u.sampleRaw (q.val) d.at_
      let l : State × Bool := r.1.levelStep (q.val) xs r.2.1
      let a : State :=
          List.foldl (fun s x ↦ s.rawPoint (q.val) (d.at_ + x.2) x.1) (l.1.sampleDone (q.val) xs r.2.1) r.2.2.zipIdx
      let b : State := (List.foldl (fun s x ↦ s.acqStamp (q.val) x) a xs).acqFails q.val
      let len : ℕ := 64 * 2 ^ (b.tcfg (q.val) F.TRG_AVG_AVG_LOG + b.dlog q.val)
      let c : State := if b.acqMode q.val = 4 ∧
          (d.at_ + 4) % len = 0 then (b.avgFlush q.val).decimTake (q.val) (d.at_ + 4) else b
      s.trgRuns q.val = true ∧ (¬∃ x, (u.trgOf q.val).disarm = some x ∧ x ≤ (d.at_ + 96) * 1024) ∧
          c.trgRuns q.val = true ∧ l.2 = false) ∧
    (∃ (s : State) (q : Quad),
      let d : TrgDyn := s.trgOf q.val
      let u : State := s.upToQ (q.val) ((d.at_ + 96) * 1024)
      let xs : List Stamp := sampleStamps (u.trgOf q.val) q.val
      let r : State × List (List ℕ) × List (List W32) := u.sampleRaw (q.val) d.at_
      let l : State × Bool := r.1.levelStep (q.val) xs r.2.1
      let a : State :=
          List.foldl (fun s x ↦ s.rawPoint (q.val) (d.at_ + x.2) x.1) (l.1.sampleDone (q.val) xs r.2.1) r.2.2.zipIdx
      let b : State := (List.foldl (fun s x ↦ s.acqStamp (q.val) x) a xs).acqFails q.val
      let len : ℕ := 64 * 2 ^ (b.tcfg (q.val) F.TRG_AVG_AVG_LOG + b.dlog q.val)
      let c : State := if b.acqMode q.val = 4 ∧
          (d.at_ + 4) % len = 0 then (b.avgFlush q.val).decimTake (q.val) (d.at_ + 4) else b
      s.trgRuns q.val = true ∧ (¬∃ x, (u.trgOf q.val).disarm = some x ∧ x ≤ (d.at_ + 96) * 1024) ∧
          c.trgRuns q.val = true ∧ l.2 = true) ∧
    (∃ (s : State) (q : Quad) (x : ℕ),
      let d : TrgDyn := s.trgOf q.val
      d.lowSince = some x ∧ (s.trgRuns q.val = true ∧ d.want = none ∧ s.tcfg (q.val) F.TRG_DECIM_AUTO = 1 ∧
          s.tcfg (q.val) F.TRG_DECIM_MIN_LOG < s.dlog q.val)) ∧
    (∃ (s : State) (q : Quad),
      let d : TrgDyn := s.trgOf q.val
      d.lowSince = none ∨ ¬(s.trgRuns q.val = true ∧ d.want = none ∧ s.tcfg (q.val) F.TRG_DECIM_AUTO = 1 ∧
          s.tcfg (q.val) F.TRG_DECIM_MIN_LOG < s.dlog q.val)) :=
  ⟨⟨uS, 0, by decide +kernel⟩,
   ⟨rS, 0, by decide +kernel⟩,
   ⟨withTrg { armed := some 1, disarm := some 50 }, 0, 1, rfl, 50, by decide +kernel⟩,
   ⟨withTrg { armed := some 1 }, 0, 1, rfl, fun ⟨x, h, _⟩ => by have h1 : (none : Option ℕ) = some x := h; cases h1⟩,
   ⟨rS, 0, by decide +kernel⟩,
   ⟨withTrg { disarm := some 50 }, 0, by decide +kernel⟩,
   ⟨(withTrg { at_ := 1000, left := some 1, frecs := [(0, { vid := 0, vb := 1024000, entry := 0, pass := 0, vec := 0, nfail := 1 })] }).set (trgPg 0) F.TRG_CTL_ACQ_MODE 5, 0, by decide +kernel⟩,
   ⟨withTrg { armed := some 1000 }, 0, by decide +kernel⟩,
   ⟨(((withTrg {}).set (trgPg 0) F.TRG_CTL_ACQ_MODE 1).wr (trgPg 0) 0x200 0x40001), 0, by decide +kernel⟩,
   ⟨(withTrg { lowSince := some 10 }).set (trgPg 0) F.TRG_DECIM_CUR_LOG 3, 0, _, rfl, by decide +kernel⟩,
   ⟨rS, 0, by decide +kernel⟩⟩

theorem witness_DdsUnitsRunTheirQueues :
    (∃ (s : State) (e : Eye) (v : W32),
      let p : ℕ := pg T.dds e.val
      let put : W32 → State := fun w ↦ s.writeReg p 256 w (fget w 3 2 == 3 || fget w 14 13 == 3)
      let u : State := if BitVec.getLsbD v 1 = true then (put (v ||| 1)).ddsStop e.val else put (v ||| 1)
      let m : ℕ := u.get p F.DDS_CTL_START_MODE
      let t : Option ℕ :=
          if m = 0 then some (u.get64 p F.DDS_START_LO_T F.DDS_START_HI_T) else if m = 2 then u.groupT e.val else none
      Reaches s (pg T.dds e.val) ∧ u.ddsReasonAt (e.val) t ≠ 0) ∧
    (∃ (s : State) (e : Eye) (v : W32),
      let p : ℕ := pg T.dds e.val
      let put : W32 → State := fun w ↦ s.writeReg p 256 w (fget w 3 2 == 3 || fget w 14 13 == 3)
      let u : State := if BitVec.getLsbD v 1 = true then (put (v ||| 1)).ddsStop e.val else put (v ||| 1)
      let m : ℕ := u.get p F.DDS_CTL_START_MODE
      let t : Option ℕ :=
          if m = 0 then some (u.get64 p F.DDS_START_LO_T F.DDS_START_HI_T) else if m = 2 then u.groupT e.val else none
      Reaches s (pg T.dds e.val) ∧ u.ddsReasonAt (e.val) t = 0 ∧ t = none) ∧
    (∃ (s : State) (e : Eye) (v : W32) (x : ℕ),
      let p : ℕ := pg T.dds e.val
      let put : W32 → State := fun w ↦ s.writeReg p 256 w (fget w 3 2 == 3 || fget w 14 13 == 3)
      let u : State := if BitVec.getLsbD v 1 = true then (put (v ||| 1)).ddsStop e.val else put (v ||| 1)
      let m : ℕ := u.get p F.DDS_CTL_START_MODE
      let t : Option ℕ :=
          if m = 0 then some (u.get64 p F.DDS_START_LO_T F.DDS_START_HI_T) else if m = 2 then u.groupT e.val else none
      Reaches s (pg T.dds e.val) ∧ u.ddsReasonAt (e.val) t = 0 ∧ t = some x) ∧
    (∃ (s : State) (e : Eye) (v : W32),
      let p : ℕ := pg T.dds e.val
      let put : W32 → State := fun w ↦ s.writeReg p 256 w (fget w 3 2 == 3 || fget w 14 13 == 3)
      let w : State := put (v ||| 2)
      Reaches s (pg T.dds e.val) ∧ BitVec.getLsbD v 0 = false ∧ w.get p F.DDS_STS_STATE = 0) ∧
    (∃ (s : State) (e : Eye) (v : W32),
      let p : ℕ := pg T.dds e.val
      let put : W32 → State := fun w ↦ s.writeReg p 256 w (fget w 3 2 == 3 || fget w 14 13 == 3)
      let w : State := put (v ||| 2)
      Reaches s (pg T.dds e.val) ∧ BitVec.getLsbD v 0 = false ∧ w.get p F.DDS_STS_STATE = 2) ∧
    (∃ (s : State) (e : Eye) (v : W32),
      let p : ℕ := pg T.dds e.val
      let put : W32 → State := fun w ↦ s.writeReg p 256 w (fget w 3 2 == 3 || fget w 14 13 == 3)
      let w : State := put (v ||| 2)
      Reaches s (pg T.dds e.val) ∧ BitVec.getLsbD v 0 = false ∧ w.get p F.DDS_STS_STATE ≠ 0 ∧
          w.get p F.DDS_STS_STATE ≠ 2) ∧
    (∃ (s : State) (e : Eye) (v : W32), Reaches s (pg T.dds e.val) ∧ BitVec.getLsbD v 0 = true) ∧
    (∃ (s : State) (e : Eye),
      let d : DdsDyn := s.ddsOf e.val
      d.startT = none) ∧
    (∃ (s : State) (e : Eye) (t : ℕ),
      let d : DdsDyn := s.ddsOf e.val
      d.startT = some t) ∧
    (∃ (s : State) (e : Eye),
      let d : DdsDyn := s.ddsOf e.val
      ddsNextEdge d = none) ∧
    (∃ (s : State) (e : Eye) (t : ℕ) (up : Bool),
      let d : DdsDyn := s.ddsOf e.val
      ddsNextEdge d = some (t, up) ∧ (d.stop = true ∧ up = false)) ∧
    (∃ (s : State) (e : Eye) (t : ℕ) (up : Bool),
      let d : DdsDyn := s.ddsOf e.val
      ddsNextEdge d = some (t, up) ∧ (d.stop = false ∨ up = true)) ∧
    (∃ (s : State) (e : Eye) (h : ℕ) (i : ℕ),
      let d : DdsDyn := s.ddsOf e.val
      d.hopAt = some h ∧ d.succ = some i ∧ d.segOrd = none ∧ d.stuck = false ∧ d.on = true ∧ stopDue d h = false) ∧
    (∃ (s : State) (e : Eye) (h : ℕ) (i : ℕ),
      let d : DdsDyn := s.ddsOf e.val
      d.hopAt = some h ∧ d.succ = some i ∧ d.segOrd = none ∧ d.stuck = false ∧ d.on = true ∧ stopDue d h = true) ∧
    (∃ (s : State) (e : Eye),
      let d : DdsDyn := s.ddsOf e.val
      d.hopAt = none ∨ d.succ = none ∨ d.segOrd ≠ none ∨ d.stuck = true ∨ d.on = false) ∧
    (∃ (s : State) (e : Eye),
      let p : ℕ := pg T.dds e.val
      let d : DdsDyn := s.ddsOf e.val
      Reaches s p ∧ 16 ≤ d.hopQ.length) ∧
    (∃ (s : State) (e : Eye) (v : W32),
      let p : ℕ := pg T.dds e.val
      let d : DdsDyn := s.ddsOf e.val
      let t : ℕ := s.get p F.DDS_HOP_AT_LO_AT_L + BitVec.toNat v * 2 ^ 32
      let u : State :=
          (s.setDds e.val { d with hopQ := d.hopQ ++ [t] }).set p F.DDS_HOP_Q_STS_DEPTH (d.hopQ.length + 1)
      Reaches s p ∧ d.hopQ.length < 16 ∧ (u.get p F.DDS_STS_STATE = 3 ∧ d.stuck = false)) ∧
    (∃ (s : State) (e : Eye) (v : W32),
      let p : ℕ := pg T.dds e.val
      let d : DdsDyn := s.ddsOf e.val
      let t : ℕ := s.get p F.DDS_HOP_AT_LO_AT_L + BitVec.toNat v * 2 ^ 32
      let u : State :=
          (s.setDds e.val { d with hopQ := d.hopQ ++ [t] }).set p F.DDS_HOP_Q_STS_DEPTH (d.hopQ.length + 1)
      Reaches s p ∧ d.hopQ.length < 16 ∧ (u.get p F.DDS_STS_STATE ≠ 3 ∨ d.stuck = true)) ∧
    (∃ (s : State) (e : Eye) (v : W32),
      let p : ℕ := pg T.dds e.val
      let key : ℕ := e.val * 16384 + 4 * s.get p F.DDS_LIST_IDX_ENTRY + s.get p F.DDS_LIST_IDX_WORD
      Reaches s p ∧ (s.flag p F.PG_STS_BUSY = true ∨ s.locked p = true ∧ tabGet 0 s.ddsS key ≠ v)) ∧
    (∃ (s : State) (e : Eye) (v : W32),
      let p : ℕ := pg T.dds e.val
      let key : ℕ := e.val * 16384 + 4 * s.get p F.DDS_LIST_IDX_ENTRY + s.get p F.DDS_LIST_IDX_WORD
      Reaches s p ∧ (¬(s.flag p F.PG_STS_BUSY = true ∨ s.locked p = true ∧ tabGet 0 s.ddsS key ≠ v))) ∧
    (∃ (s : State) (e : Eye),
      let p : ℕ := pg T.dds e.val
      Readable s p) :=
  ⟨⟨uS, 0, 0x0, by decide +kernel⟩,
   ⟨withDds 0 {}, 0, 0x4, by decide +kernel⟩,
   ⟨(withDds 0 {}).set (pg T.dds 0) F.DDS_START_LO_T 10000, 0, 0, 10000, by decide +kernel⟩,
   ⟨uS, 0, 0x0, by decide +kernel⟩,
   ⟨withDds 2 {}, 0, 0x0, by decide +kernel⟩,
   ⟨withDds 1 {}, 0, 0x0, by decide +kernel⟩,
   ⟨uS, 0, 0x1, by decide +kernel⟩,
   ⟨rS, 0, by decide +kernel⟩,
   ⟨withDds 2 { startT := some 10 }, 0, _, rfl⟩,
   ⟨rS, 0, by decide +kernel⟩,
   ⟨withDds 2 { on := true, cur := [0xFFFFFFFF, 0xFFFFFFFF, 0xFFFFFFFF, 0], level := true, stop := true }, 0, _, _,
       rfl, by decide +kernel⟩,
   ⟨withDds 2 { on := true, cur := [0x10000000, 0, 0, 0], level := false }, 0, _, _, rfl, by decide +kernel⟩,
   ⟨withDds 2 { on := true, hopAt := some 5, succ := some 1, cur := [0, 0, 0, 0] }, 0, _, _, rfl, rfl,
       by decide +kernel⟩,
   ⟨withDds 2 { on := true, stop := true, hopAt := some 5, succ := some 1, cur := [0, 0x4000, 0, 0] }, 0, _, _, rfl,
       rfl, by decide +kernel⟩,
   ⟨rS, 0, by decide +kernel⟩,
   ⟨withDds 0 { hopQ := List.replicate 16 0 }, 0, by decide +kernel⟩,
   ⟨withDds 3 { hopQ := [] }, 0, 0x0, by decide +kernel⟩,
   ⟨uS, 0, 0x0, by decide +kernel⟩,
   ⟨(withDds 0 {}).put (pg T.dds 0) F.PG_STS_BUSY true, 0, 0x0, by decide +kernel⟩,
   ⟨uS, 0, 0x0, by decide +kernel⟩,
   ⟨uS, 0, by decide +kernel⟩⟩

theorem witness_WeltLinksTrainAndSleep :
    (∃ (s : State) (n : Fin 4),
      let p : ℕ := wltPg n.val
      ¬(s.enabled p = true ∧ s.wltState n.val ≤ 1)) ∧
    (∃ (s : State) (n : Fin 4) (good : BitVec 4),
      let p : ℕ := wltPg n.val
      let en : ℕ := s.get p F.WLT_CTL_LANE_EN
      let failed : ℕ := s.get p F.WLT_STS_FAILED
      let lanes : ℕ :=
          List.foldl (fun m i ↦ if (en.testBit i && good.toNat.testBit i && !failed.testBit i) = true then setBit m i else m) 0 (List.range 4)
      (s.enabled p = true ∧ s.wltState n.val ≤ 1) ∧ lanes = 0) ∧
    (∃ (s : State) (n : Fin 4) (good : BitVec 4),
      let p : ℕ := wltPg n.val
      let en : ℕ := s.get p F.WLT_CTL_LANE_EN
      let failed : ℕ := s.get p F.WLT_STS_FAILED
      let lanes : ℕ :=
          List.foldl (fun m i ↦ if (en.testBit i && good.toNat.testBit i && !failed.testBit i) = true then setBit m i else m) 0 (List.range 4)
      (s.enabled p = true ∧ s.wltState n.val ≤ 1) ∧ lanes ≠ 0) ∧
    (∃ (s : State) (n : Fin 4) (lane : Fin 4),
      let p : ℕ := wltPg n.val
      let lanes : ℕ := s.get p F.WLT_STS_LANES
      lanes.testBit lane.val = false) ∧
    (∃ (s : State) (n : Fin 4) (lane : Fin 4),
      let p : ℕ := wltPg n.val
      let lanes : ℕ := s.get p F.WLT_STS_LANES
      let a : State :=
          ((s.set p F.WLT_STS_LANES (clearBit lanes lane.val)).set p F.WLT_STS_FAILED (setBit (s.get p F.WLT_STS_FAILED) lane.val)).rise p X.WLT_LANE_FAIL
      let b : State := if (a.wltOf n.val).scan = some lane.val then a.scanAbort n.val else a
      lanes.testBit lane.val = true ∧ b.get p F.WLT_STS_LANES = 0) ∧
    (∃ (s : State) (n : Fin 4) (lane : Fin 4),
      let p : ℕ := wltPg n.val
      let lanes : ℕ := s.get p F.WLT_STS_LANES
      let a : State :=
          ((s.set p F.WLT_STS_LANES (clearBit lanes lane.val)).set p F.WLT_STS_FAILED (setBit (s.get p F.WLT_STS_FAILED) lane.val)).rise p X.WLT_LANE_FAIL
      let b : State := if (a.wltOf n.val).scan = some lane.val then a.scanAbort n.val else a
      let c : State := if b.wltState n.val = 2 then b.setWltState (n.val) 3 else b
      lanes.testBit lane.val = true ∧ b.get p F.WLT_STS_LANES ≠ 0 ∧ (c.wltOf n.val).replay = []) ∧
    (∃ (s : State) (n : Fin 4) (lane : Fin 4),
      let p : ℕ := wltPg n.val
      let lanes : ℕ := s.get p F.WLT_STS_LANES
      let a : State :=
          ((s.set p F.WLT_STS_LANES (clearBit lanes lane.val)).set p F.WLT_STS_FAILED (setBit (s.get p F.WLT_STS_FAILED) lane.val)).rise p X.WLT_LANE_FAIL
      let b : State := if (a.wltOf n.val).scan = some lane.val then a.scanAbort n.val else a
      let c : State := if b.wltState n.val = 2 then b.setWltState (n.val) 3 else b
      lanes.testBit lane.val = true ∧ b.get p F.WLT_STS_LANES ≠ 0 ∧ (c.wltOf n.val).replay ≠ []) ∧
    (∃ (s : State) (n : Fin 4), Reaches s (wltPg n.val)) ∧
    (∃ (s : State) (n : Fin 4), s.wltAwake n.val = false) ∧
    (∃ (s : State) (n : Fin 4), s.wltAwake n.val = true) ∧
    (∃ (s : State) (n : Fin 4), s.wltAwake n.val = true ∧ s.wltIdle n.val = false) ∧
    (∃ (s : State) (n : Fin 4),
      let p : ℕ := wltPg n.val
      let mode : ℕ := if s.get p F.WLT_CTL_SLEEP = 1 ∧
          s.flag p F.WLT_CTL_COMPAT = true then 2 else s.get p F.WLT_CTL_SLEEP
      s.wltAwake n.val = true ∧ s.wltIdle n.val = true ∧ mode = 1) ∧
    (∃ (s : State) (n : Fin 4),
      let p : ℕ := wltPg n.val
      let mode : ℕ := if s.get p F.WLT_CTL_SLEEP = 1 ∧
          s.flag p F.WLT_CTL_COMPAT = true then 2 else s.get p F.WLT_CTL_SLEEP
      s.wltAwake n.val = true ∧ s.wltIdle n.val = true ∧ mode = 2) ∧
    (∃ (s : State) (n : Fin 4),
      let p : ℕ := wltPg n.val
      let mode : ℕ := if s.get p F.WLT_CTL_SLEEP = 1 ∧
          s.flag p F.WLT_CTL_COMPAT = true then 2 else s.get p F.WLT_CTL_SLEEP
      s.wltAwake n.val = true ∧ s.wltIdle n.val = true ∧ mode ≠ 1 ∧ mode ≠ 2) ∧
    (∃ (s : State) (n : Fin 4) (v : W32),
      let p : ℕ := wltPg n.val
      let u : State := s.writeReg p 256 (v ||| 65536) (fget (v ||| 65536) 7 6 == 3)
      let r : State :=
          ((((u.set p F.WLT_STS_LANES 0).set p F.WLT_STS_FAILED 0).put p F.WLT_STS_TX_HALF false).put p F.WLT_STS_RX_HALF false).setWltState (n.val) 1
      let t : State := if BitVec.getLsbD v 17 = true ∧ u.enabled p = true then r else u
      Reaches s p ∧ t.wltState n.val = 5) ∧
    (∃ (s : State) (n : Fin 4) (v : W32),
      let p : ℕ := wltPg n.val
      let u : State := s.writeReg p 256 (v ||| 65536) (fget (v ||| 65536) 7 6 == 3)
      let r : State :=
          ((((u.set p F.WLT_STS_LANES 0).set p F.WLT_STS_FAILED 0).put p F.WLT_STS_TX_HALF false).put p F.WLT_STS_RX_HALF false).setWltState (n.val) 1
      let t : State := if BitVec.getLsbD v 17 = true ∧ u.enabled p = true then r else u
      Reaches s p ∧ t.wltState n.val ≠ 5) :=
  ⟨⟨rS, 0, by decide +kernel⟩,
   ⟨withWlt 0 {}, 0, 0, by decide +kernel⟩,
   ⟨withWlt 0 {}, 0, 1, by decide +kernel⟩,
   ⟨rS, 0, 0, by decide +kernel⟩,
   ⟨(withWlt 2 {}).set (wltPg 0) F.WLT_STS_LANES 1, 0, 0, by decide +kernel⟩,
   ⟨(withWlt 2 {}).set (wltPg 0) F.WLT_STS_LANES 15, 0, 0, by decide +kernel⟩,
   ⟨(withWlt 2 { replay := [⟨0, 0, [], 1⟩] }).set (wltPg 0) F.WLT_STS_LANES 15, 0, 0, by decide +kernel⟩,
   ⟨uS, 0, by decide +kernel⟩,
   ⟨rS, 0, by decide +kernel⟩,
   ⟨withWlt 2 {}, 0, by decide +kernel⟩,
   ⟨withWlt 2 { replay := [⟨0, 0, [], 1⟩] }, 0, by decide +kernel⟩,
   ⟨(withWlt 2 {}).set (wltPg 0) F.WLT_CTL_SLEEP 1, 0, by decide +kernel⟩,
   ⟨(withWlt 2 {}).set (wltPg 0) F.WLT_CTL_SLEEP 2, 0, by decide +kernel⟩,
   ⟨withWlt 2 {}, 0, by decide +kernel⟩,
   ⟨withWlt 5 {}, 0, 0x0, by decide +kernel⟩,
   ⟨uS, 0, 0x0, by decide +kernel⟩⟩

theorem witness_FixedReactionsStay :
    (∃ (s : State) (p : PageNo) (v : W32),
      let b : ℕ := fget v 4 0
      let c : ℕ := fget v 13 8 ||| (srcOf (BitVec.toNat p) b).fixed
      pagePresent (BitVec.toNat p) = true ∧ Reaches s (BitVec.toNat p) ∧ (s.locked (BitVec.toNat p) = true ∧
          (s.get (BitVec.toNat p) F.PG_FLT_RXN_SRC ≠ b ∨ s.rxn (BitVec.toNat p) b ||| (srcOf (BitVec.toNat p) b).fixed ≠ c))) ∧
    (∃ (s : State) (p : PageNo) (v : W32),
      let b : ℕ := fget v 4 0
      let c : ℕ := fget v 13 8 ||| (srcOf (BitVec.toNat p) b).fixed
      pagePresent (BitVec.toNat p) = true ∧ Reaches s (BitVec.toNat p) ∧ (¬(s.locked (BitVec.toNat p) = true ∧
          (s.get (BitVec.toNat p) F.PG_FLT_RXN_SRC ≠ b ∨ s.rxn (BitVec.toNat p) b ||| (srcOf (BitVec.toNat p) b).fixed ≠ c)))) ∧
    (∃ (p : ℕ), pagePresent p = true) :=
  ⟨⟨uS.put 256 F.PG_CTL_CFG_LOCK true, 256, 0x0, by decide +kernel⟩,
   ⟨uS, 0, 0x0, by decide +kernel⟩,
   ⟨0, by decide +kernel⟩⟩

theorem witness_EndpointAnswersAndChangesState :
    (∃ (s : State), s.pci.perstLow = true ∨ s.boot.held = true) ∧
    (∃ (s : State), s.pci.perstLow = false ∧ s.boot.held = false ∧ s.stage = 0) ∧
    (∃ (s : State), s.pci.perstLow = false ∧ s.boot.held = false ∧ s.stage ≠ 0) ∧
    (∃ (s : State), s.pci.perstLow = false ∧ s.boot.held = false) ∧
    (∃ (s : State), s.pci.d3 = false) ∧
    (∃ (s : State), s.pci.d3 = true) ∧
    (∃ (s : State) (v : ℕ), s.pci.linkUp = true ∧ s.pci.d3 = false ∧ s.msixMasked v = false) ∧
    (∃ (s : State) (v : ℕ), (s.pci.linkUp = false ∨ s.pci.d3 = true ∨ s.msixMasked v = true) ∧ v ∉ s.pci.pba) :=
  ⟨⟨{ rS with pci := { perstLow := true } }, by decide⟩,
   ⟨{ rS with boot := { held := false }, pci := { perstLow := false } }, by decide +kernel⟩,
   ⟨{ uS with boot := { held := false }, pci := { perstLow := false } }, by decide +kernel⟩,
   ⟨{ rS with boot := { held := false }, pci := { perstLow := false } }, by decide +kernel⟩,
   ⟨rS, by decide +kernel⟩,
   ⟨{ rS with pci := { d3 := true } }, by decide +kernel⟩,
   ⟨{ rS with pci := { linkUp := true, msix := [(3, 0)] } }, 0, by decide +kernel⟩,
   ⟨rS, 0, by decide +kernel⟩⟩

end Sys2Proof.Tests
end

/-!
Register accesses of BAR0 (R15 to R19, R339, R343, R438 to R446): where an offset leads, and what a write to a
register does.
-/
namespace Sys2Proof.Machine

open Sys2Proof

/-- The types above 0x16 are reserved (R439). -/
theorem pagePresent_lt {p : Nat} (h : pagePresent p = true) : p / 256 < 23 := by
  by_contra hp
  have hi : instances (p / 256) = 0 := by
    unfold instances
    split <;> simp <;> omega
  simp [pagePresent, hi] at h

namespace State

theorem answers_present {s : State} {p : Nat} (h : s.answers p = true) : pagePresent p = true := by
  simp only [answers, Bool.and_eq_true] at h
  exact h.1

/-! ## Where a BAR0 offset leads (R438, R439) -/

/-- The offset of a register of a present page lies below the segment table window. -/
theorem rkey_split {p o : Nat} (hp : pagePresent p = true) (ho : o < 0x1000) (h4 : o % 4 = 0) :
    rkey p o / 4 * 4 = rkey p o ∧ rkey p o / 4096 = p ∧ rkey p o % 4096 = o ∧ rkey p o < 0x2000000 := by
  have := pagePresent_lt hp
  unfold rkey
  omega

theorem bar0Write_page {s : State} {p o : Nat} (v : W32) (hR : Reaches s p) (ho : o < 0x1000) (h4 : o % 4 = 0)
    (hf : o ≠ 0x010) : s.bar0Write (rkey p o) v = s.pageWrite p o v := by
  obtain ⟨-, hreset, ha⟩ := hR
  obtain ⟨e4, ep, eo, hlt⟩ := rkey_split (answers_present ha) ho h4
  have h1 : ¬ (0x2000000 ≤ rkey p o ∧ rkey p o < 0x2200000) := by omega
  have h2 : ¬ (0x3F00000 ≤ rkey p o ∧ rkey p o < 0x3F08000) := by omega
  simp only [bar0Write, e4, ep, eo, if_neg h1, if_neg h2, ha, hf, Bool.not_true, Bool.false_eq_true, if_false,
    offReset_out _ _ _ hreset]

theorem bar0Write_silent {s : State} {a : Nat} (v : W32) (hlt : a < 0x2000000) (ha : s.answers (a / 4096) = false) :
    s.bar0Write a v = s := by
  have h1 : ¬ (0x2000000 ≤ a / 4 * 4 ∧ a / 4 * 4 < 0x2200000) := by omega
  have h2 : ¬ (0x3F00000 ≤ a / 4 * 4 ∧ a / 4 * 4 < 0x3F08000) := by omega
  have hp : a / 4 * 4 / 4096 = a / 4096 := by omega
  simp only [bar0Write, if_neg h1, if_neg h2, hp, ha, Bool.not_false, if_true]

/-! ## A write to a register (R19, R445, R446) -/

/-- What a write leaves of a register beside its RW fields: W1C bits written 1 clear, W1S bits written 1 set. -/
def w1Word (s : State) (p o : Nat) (r : Reg) (v : W32) : W32 :=
  (s.rd p o &&& ~~~(v &&& r.mask [.w1c])) ||| (v &&& r.mask [.w1s])

/-- A write changes an S field of an enabled block, or an RW field of a locked page (R445). -/
def forbidden (s : State) (p o : Nat) (r : Reg) (v : W32) : Prop :=
  (s.enabled p = true ∧ (s.rd p o ^^^ v) &&& r.mask [.rwS] ≠ 0) ∨
    (s.locked p = true ∧ (s.rd p o ^^^ v) &&& r.mask [.rwS, .rwL] ≠ 0)

/-- The test of the generic write, where the register has no rule of its own. -/
theorem forbidden_iff (s : State) (p o : Nat) (r : Reg) (v : W32) :
    (false || (decide ((s.rd p o ^^^ v) &&& r.mask [.rwS] ≠ 0) && s.enabled p) ||
      (decide ((s.rd p o ^^^ v) &&& r.mask [.rwS, .rwL] ≠ 0) && s.locked p)) = true ↔ forbidden s p o r v := by
  simp only [forbidden, Bool.false_or, Bool.or_eq_true, Bool.and_eq_true, decide_eq_true_eq, and_comm]

/-- A write that R445 refuses, on a register with no rule of its own. -/
theorem regWrite_forbidden {s : State} {p o : Nat} {r : Reg} {v : W32} (h : forbidden s p o r v) :
    (regWrite s p o r v false (s.enabled p)).1 = (s.wr p o (s.w1Word p o r v)).refuse p o := by
  unfold regWrite
  rw [if_pos ((forbidden_iff s p o r v).2 h)]
  rfl

/-- A write that R445 takes, on a register with no rule of its own. -/
theorem regWrite_allowed {s : State} {p o : Nat} {r : Reg} {v : W32} (h : ¬ forbidden s p o r v) :
    (regWrite s p o r v false (s.enabled p)).1 =
      (s.wr p o (s.w1Word p o r v)).setRW p o
        ((s.w1Word p o r v &&& ~~~r.mask [.rwS, .rwL]) ||| (v &&& r.mask [.rwS, .rwL])) := by
  unfold regWrite
  rw [if_neg (mt (forbidden_iff s p o r v).1 h)]
  rfl

/-- Values written on these pages wait for no group's boundary. -/
theorem idleForce_plain (s : State) {p : Nat} (hp : PlainPage (p / 256)) : s.idleForce p = s := by
  have h : ¬ (p / 256 = T.chn ∨ p / 256 = T.eye ∨ p / 256 = T.cmp) := by
    rcases hp with h | h | h <;> rw [h] <;> decide
  simp only [idleForce, if_neg h]

theorem pageWrite_plain (s : State) {p o : Nat} (v : W32) (hp : PlainPage (p / 256)) (ho : 0x100 ≤ o) :
    s.pageWrite p o v = s.writeReg p o v false := by
  have h : ¬ o < 0x100 := by omega
  rcases hp with hp | hp | hp <;> simp [pageWrite, h, hp, T.glb, T.tbs, T.chn, T.spr, T.eye, T.dds, T.cmp, T.tdc, T.trg,
    T.ane, T.sch, T.lst, T.mem, T.xbr, T.pci, T.wlt, T.eth, T.ptp, T.flt, T.thm, T.cal, T.sec, T.evq]

/-- A register write on a page whose registers have no action of their own is the generic one. -/
theorem pageWrite_plain_reg {s : State} {p o : Nat} {r : Reg} (v : W32) (hp : PlainPage (p / 256)) (ho : 0x100 ≤ o)
    (hr : findReg p o = some r) : s.pageWrite p o v = (regWrite s p o r v false (s.enabled p)).1 := by
  rw [pageWrite_plain s v hp ho, writeReg, idleForce_plain _ hp]
  simp only [writeAt, hr]

end State

end Sys2Proof.Machine

namespace Sys2Proof

open Sys2Proof.Machine Sys2Proof.Machine.State

theorem does_registerWrite_off {s : State} (ofs : Ofs) (v : W32) (be : BitVec 4) (ep : Bool) (h : s.offLink = true) :
    Does (.registerWrite ofs v be ep) s s :=
  Does.of rfl (by simp [onLink, h])

theorem does_registerWrite {s t : State} {ofs : Ofs} {v : W32} {be : BitVec 4} {ep : Bool} (h : s.offLink = false)
    (e : s.hostWrite ofs.toNat v be ep = t) : Does (.registerWrite ofs v be ep) s t :=
  Does.of rfl (by rw [onLink_on _ _ _ h, e])

/-- A whole word, not poisoned, written to a register that it reaches. -/
theorem does_registerWrite_page {s t : State} {p o : Nat} {ofs : Ofs} {v : W32} (ha : ofs.toNat = rkey p o)
    (hR : Reaches s p) (ho : o < 0x1000) (h4 : o % 4 = 0) (hf : o ≠ 0x010) (e : s.pageWrite p o v = t) :
    Does (.registerWrite ofs v 15 false) s t :=
  does_registerWrite hR.1 (by
    rw [ha, hostWrite, if_neg (by decide), if_neg (by decide), bar0Write_page v hR ho h4 hf, e])

/-- Settles O9: the write reaches the register, and R445 takes or refuses it; the other writes do not reach one. -/
theorem registerWritesSetFieldsOrAreRefused : Obligations.RegisterWritesSetFieldsOrAreRefused := by
  unfold Obligations.RegisterWritesSetFieldsOrAreRefused
  constructor
  · intro s p o r ofs v hp _ hlo ho h4 hr ha hR
    have hreg := pageWrite_plain_reg (s := s) v hp hlo hr
    have hf : o ≠ 0x010 := by omega
    exact ⟨fun h => does_registerWrite_page ha hR ho h4 hf (hreg.trans (regWrite_forbidden h)),
      fun h => does_registerWrite_page ha hR ho h4 hf (hreg.trans (regWrite_allowed h))⟩
  · intro s ofs v be ep
    refine ⟨does_registerWrite_off ofs v be ep, fun hl => ⟨?poisoned, ?partly, ?silent⟩⟩
    case poisoned => rintro rfl; exact does_registerWrite hl rfl
    case partly => rintro rfl hbe; exact does_registerWrite hl (if_pos hbe)
    case silent =>
      rintro rfl rfl hlt ha
      exact does_registerWrite hl (bar0Write_silent v hlt ha)

end Sys2Proof

/-!
What a read of a register returns and what it leaves behind (R15, R16, R205, R451).
-/
namespace Sys2Proof.Machine

open Sys2Proof

/-! ## The register table -/

/-- The offsets that a register group covers. -/
def Reg.offsets (r : Reg) : List Nat :=
  (List.range r.n0).flatMap fun i => (List.range r.n1).map fun j => r.ofs + i * r.s0 + j * r.s1

theorem Reg.mem_offsets_of_covers {r : Reg} {o : Nat} (h : r.covers o = true) : o ∈ r.offsets := by
  simp only [Reg.covers, Bool.and_eq_true, decide_eq_true_eq] at h
  obtain ⟨hlo, ⟨hi, hj⟩, hz⟩ := h
  simp only [Reg.offsets, List.mem_flatMap, List.mem_map, List.mem_range]
  refine ⟨_, hi, _, hj, ?_⟩
  have h0 := Nat.div_add_mod' (o - r.ofs) r.s0
  have h1 := Nat.div_add_mod' ((o - r.ofs) % r.s0) r.s1
  omega

/-- A register that is found is listed for its page, and covers the offset. -/
theorem findReg_some {p o : Nat} {r : Reg} (h : findReg p o = some r) :
    r ∈ (if o < 0x100 then regsHeader else regsOf (p / 256)) ∧ o ∈ r.offsets := by
  unfold findReg at h
  split at h
  · have hc := List.find?_some h
    simp only [Bool.and_eq_true] at hc
    exact ⟨List.mem_of_find?_eq_some h, Reg.mem_offsets_of_covers hc.1⟩
  · cases h

/-- Offsets whose read does more than the read of a register: windows, queues, captures, channel counts and site
summaries (R205), and LST_CNT_BUSY. -/
def ownRead (t i o : Nat) : Bool := decide <|
  (t = T.chn ∧ o = 0x114) ∨ (t = T.eye ∧ o = 0x244) ∨ (t = T.dds ∧ o = 0x134) ∨ (t = T.tdc ∧ 0x400 ≤ o) ∨
    (t = T.cmp ∧ 0x180 ≤ o ∧ o < 0x1C0) ∨ (t = T.cmp ∧ i = 0 ∧ 0x144 ≤ o ∧ o < 0x14C) ∨ (t = T.ptp ∧ o = 0x110) ∨
    (t = T.flt ∧ o = 0x140) ∨ (t = T.cal ∧ o = 0x118) ∨ (t = T.evq ∧ o = 0x140) ∨ (t = T.lst ∧ o = 0x110)

/-- Offsets whose read returns what the model computes at that moment, not what the register file holds. -/
def liveOfs (t o : Nat) : Bool := decide <|
  o < 0x100 ∨ (t = T.tbs ∧ (o = 0x100 ∨ o = 0x108 ∨ o = 0x10C)) ∨ (t = T.chn ∧ o = 0x134) ∨
    (t = T.spr ∧ (o = 0x114 ∨ o = 0x118)) ∨
    (t = T.cmp ∧ 0x144 ≤ o ∧ o < 0x150) ∨ (t = T.tdc ∧ 0x400 ≤ o) ∨ (t = T.sch ∧ o = 0x114) ∨
    (t = T.mem ∧ o = 0x10C) ∨ (t = T.xbr ∧ 0x400 ≤ o ∧ o < 0xC00) ∨ (t = T.ptp ∧ (o = 0x150 ∨ o = 0x154)) ∨
    (t = T.pci ∧ o = 0x100) ∨ (t = T.flt ∧ 0x144 ≤ o ∧ o < 0x160) ∨ (t = T.flt ∧ 0x200 ≤ o) ∨
    (t = T.evq ∧ 0x144 ≤ o ∧ o < 0x160)

namespace State

theorem pageRead_reg (s : State) {p o : Nat} (h : ownRead (p / 256) (p % 256) o = false) :
    s.pageRead p o = s.regRead p o := by
  simp only [ownRead, decide_eq_false_iff_not, not_or] at h
  obtain ⟨hchn, heye, hdds, htdc, hcnt, hsite, hptp, hflt, hcal, hevq, hlst⟩ := h
  have hiu : ¬ (p / 256 = T.tdc ∧ 0x400 ≤ o ∧ o < 0x500 ∧ (o - 0x400) % 0x40 = 0x10) := fun x => htdc ⟨x.1, x.2.1⟩
  simp only [pageRead, hchn, heye, hdds, hiu, hcnt, hsite, hptp, hflt, hcal, hevq, hlst, if_false]

theorem liveWord_stored (s : State) {p o : Nat} (h : liveOfs (p / 256) o = false) : s.liveWord p o = s.rd p o := by
  simp only [liveOfs, decide_eq_false_iff_not, not_or] at h
  obtain ⟨hhdr, htbs, hchn, hspr, hcmp, htdc, hsch, hmem, hxbr, hptp, hpci, hlog, hpend, hevq⟩ := h
  have hsum : ¬ (p / 256 = T.cmp ∧ p % 256 = 0 ∧ 0x144 ≤ o ∧ o < 0x150) := fun x => hcmp ⟨x.1, x.2.2⟩
  have hiu : ¬ (p / 256 = T.tdc ∧ 0x400 ≤ o ∧ 0x14 ≤ (o - 0x400) % 0x40 ∧ (o - 0x400) % 0x40 < 0x20) :=
    fun x => htdc ⟨x.1, x.2.1⟩
  simp only [liveWord, hhdr, hchn, hspr, hsum, hiu, hsch, hmem, hxbr, hptp, hpci, hlog, hpend, hevq, if_false]
  by_cases ht : p / 256 = T.tbs
  · simp only [ht, true_and, not_or] at htbs
    simp only [ht, htbs, if_false, ite_self]
  · simp only [ht, if_false]

/-! ## Which registers are which -/

/-- The first page of a type has every offset with an effect that another page of the type has. -/
theorem ownRead_first {t i o : Nat} (h : ownRead t i o = true) : ownRead t 0 o = true := by
  simp only [ownRead, decide_eq_true_eq, true_and] at h ⊢
  exact h.imp_right (.imp_right (.imp_right (.imp_right (.imp_right (.imp_left fun x => ⟨x.1, x.2.2⟩)))))

/-- The register table: no register with an RC field stands in the header, on an offset that is computed at the read, on
half of a wide register, or, but for LST_CNT_BUSY, on an offset whose read has an effect of its own. -/
theorem rc_registers_stored :
    (∀ r ∈ regsHeader, r.mask [.rc] = 0) ∧
    ∀ t < 23, ∀ r ∈ regsOf t, r.mask [.rc] ≠ 0 → ∀ o ∈ r.offsets,
      liveOfs t o = false ∧ wideLo t o = false ∧ wideLo t (o - 4) = false ∧
        (ownRead t 0 o = true → t = T.lst ∧ o = 0x110) := by
  decide +kernel

/-- `rc_registers_stored` for a register that is found. -/
theorem rc_register_stored {p o : Nat} {r : Reg} (hp : pagePresent p = true) (hr : findReg p o = some r)
    (hrc : r.mask [.rc] ≠ 0) :
    liveOfs (p / 256) o = false ∧ wideLo (p / 256) o = false ∧ wideLo (p / 256) (o - 4) = false ∧
      (ownRead (p / 256) (p % 256) o = true → p / 256 = T.lst ∧ o = 0x110) := by
  obtain ⟨hmem, ho⟩ := findReg_some hr
  split at hmem
  · exact absurd (rc_registers_stored.1 r hmem) hrc
  · obtain ⟨hlive, hlo, hhi, hown⟩ := rc_registers_stored.2 _ (pagePresent_lt hp) r hmem hrc o ho
    exact ⟨hlive, hlo, hhi, fun h => hown (ownRead_first h)⟩

/-- The block types with wide registers (R15). -/
theorem wideLo_type {t o : Nat} (h : wideLo t o = true) :
    t = T.tbs ∨ t = T.spr ∨ t = T.eye ∨ t = T.dds ∨ t = T.cmp ∨ t = T.tdc ∨ t = T.trg ∨ t = T.sch ∨ t = T.mem ∨
      t = T.wlt ∨ t = T.eth ∨ t = T.ptp ∨ t = T.evq := by
  by_contra hn
  simp only [not_or] at hn
  obtain ⟨htbs, hspr, heye, hdds, hcmp, htdc, htrg, hsch, hmem, hwlt, heth, hptp, hevq⟩ := hn
  simp only [wideLo, htbs, hspr, heye, hdds, hcmp, htdc, htrg, hsch, hmem, hwlt, heth, hptp, hevq, if_false,
    Bool.false_eq_true] at h

/-- Pairs do not overlap. -/
theorem wideLo_add_four {t o : Nat} (h : wideLo t o = true) : wideLo t (o + 4) = false := by
  rcases wideLo_type h with rfl | rfl | rfl | rfl | rfl | rfl | rfl | rfl | rfl | rfl | rfl | rfl | rfl
  all_goals simp +decide [wideLo, within] at h ⊢
  all_goals omega

/-- The read of a _HI half has no effect of its own. -/
theorem ownRead_hi {t i o : Nat} (h : wideLo t o = true) : ownRead t i (o + 4) = false := by
  simp only [ownRead, decide_eq_false_iff_not]
  rintro (⟨rfl, ho⟩ | ⟨rfl, ho⟩ | ⟨rfl, ho⟩ | ⟨rfl, ho⟩ | ⟨rfl, ho⟩ | ⟨rfl, ho⟩ | ⟨rfl, ho⟩ | ⟨rfl, ho⟩ | ⟨rfl, ho⟩ |
    ⟨rfl, ho⟩ | ⟨rfl, ho⟩)
  all_goals simp +decide [wideLo, within] at h
  all_goals omega

/-- The one _LO half whose read has an effect of its own is CMP_SITE_FIRST_LO (R205). -/
theorem ownRead_lo {t i o : Nat} (h : wideLo t o = true) (hown : ownRead t i o = true) :
    t = T.cmp ∧ i = 0 ∧ o = 0x148 := by
  simp only [ownRead, decide_eq_true_eq] at hown
  rcases hown with ⟨rfl, ho⟩ | ⟨rfl, ho⟩ | ⟨rfl, ho⟩ | ⟨rfl, ho⟩ | ⟨rfl, ho⟩ | ⟨rfl, ho⟩ | ⟨rfl, ho⟩ | ⟨rfl, ho⟩ |
    ⟨rfl, ho⟩ | ⟨rfl, ho⟩ | ⟨rfl, ho⟩
  all_goals simp +decide [wideLo, within] at h
  all_goals omega

/-! ## The read of a register (R15, R16) -/

/-- The upper half of a wide register is captured. -/
def captured (s : State) (p o : Nat) : State :=
  { s with caps := tabPut (resetWord p (o + 4)) s.caps (rkey p (o + 4)) (s.liveWord p (o + 4)) }

theorem regRead_lo (s : State) {p o : Nat} {r : Reg} (hr : findReg p o = some r) (hw : wideLo (p / 256) o = true)
    (hrc : r.mask [.rc] = 0) : s.regRead p o = (s.captured p o, s.liveWord p o) := by
  have hhi : ¬ (4 ≤ o ∧ wideLo (p / 256) (o - 4) = true) := fun ⟨h4, hl⟩ => by
    have := wideLo_add_four hl
    rw [Nat.sub_add_cancel h4, hw] at this
    cases this
  simp only [regRead, hr, if_neg hhi, hw, if_true, hrc, captured]

theorem regRead_hi (s : State) {p o : Nat} {r : Reg} (hr : findReg p (o + 4) = some r)
    (hw : wideLo (p / 256) o = true) :
    s.regRead p (o + 4) = (s, tabGet (resetWord p (o + 4)) s.caps (rkey p (o + 4))) := by
  have hlo : 4 ≤ o + 4 ∧ wideLo (p / 256) (o + 4 - 4) = true := ⟨by omega, hw⟩
  simp only [regRead, hr, if_pos hlo]

theorem regRead_rc (s : State) {p o : Nat} {r : Reg} (hp : pagePresent p = true) (hr : findReg p o = some r)
    (hrc : r.mask [.rc] ≠ 0) : s.regRead p o = (s.wr p o (s.rd p o &&& ~~~r.mask [.rc]), s.rd p o) := by
  obtain ⟨hlive, hlo, hhi, -⟩ := rc_register_stored hp hr hrc
  simp only [regRead, hr, hhi, hlo, Bool.false_eq_true, and_false, if_false, hrc, liveWord_stored s hlive]

/-! ## The read of a page (R451) -/

/-- A read of CMP_SITE_FIRST_LO finds the summary read from its memory (R205). -/
def siteRead (s : State) (p o : Nat) : State :=
  if p = pg T.cmp 0 ∧ o = 0x148 then s.accSite (s.get p F.CMP_SITE_SEL_SITE) else s

/-- A read of LST_CNT_BUSY finds the busy time counted as far as it has come. -/
def busyRead (s : State) (p o : Nat) : State := if p / 256 = T.lst ∧ o = 0x110 then s.busySync (p % 256) else s

theorem pageRead_lo (s : State) {p o : Nat} (hw : wideLo (p / 256) o = true) :
    s.pageRead p o = (s.siteRead p o).regRead p o := by
  by_cases hs : p = pg T.cmp 0 ∧ o = 0x148
  · obtain ⟨rfl, rfl⟩ := hs
    rfl
  · have hown : ownRead (p / 256) (p % 256) o = false := by
      by_contra h
      obtain ⟨ht, hi, ho⟩ := ownRead_lo hw (Bool.eq_true_of_not_eq_false h)
      have hp : p = pg T.cmp 0 := by unfold pg; omega
      exact hs ⟨hp, ho⟩
    rw [pageRead_reg s hown, siteRead, if_neg hs]

theorem pageRead_hi (s : State) {p o : Nat} (hw : wideLo (p / 256) o = true) :
    s.pageRead p (o + 4) = s.regRead p (o + 4) := pageRead_reg s (ownRead_hi hw)

theorem pageRead_busy (s : State) {p : Nat} (ht : p / 256 = T.lst) :
    s.pageRead p 0x110 = (s.busySync (p % 256)).regRead p 0x110 := by
  simp +decide only [pageRead, ht, and_false, false_and, and_self, if_true, if_false]

theorem pageRead_rc (s : State) {p o : Nat} {r : Reg} (hp : pagePresent p = true) (hr : findReg p o = some r)
    (hrc : r.mask [.rc] ≠ 0) : s.pageRead p o = (s.busyRead p o).regRead p o := by
  by_cases hb : p / 256 = T.lst ∧ o = 0x110
  · obtain ⟨ht, rfl⟩ := hb
    rw [pageRead_busy s ht, busyRead, if_pos ⟨ht, rfl⟩]
  · obtain ⟨-, -, -, hown⟩ := rc_register_stored hp hr hrc
    rw [pageRead_reg s (Bool.eq_false_of_not_eq_true (mt hown hb)), busyRead, if_neg hb]

theorem bar0Read_page {s : State} {p o : Nat} (ha : s.answers p = true) (ho : o < 0x1000) (h4 : o % 4 = 0) :
    s.bar0Read (rkey p o) = s.pageRead p o := by
  obtain ⟨e4, ep, eo, hlt⟩ := rkey_split (answers_present ha) ho h4
  have h1 : ¬ (0x2000000 ≤ rkey p o ∧ rkey p o < 0x2200000) := by omega
  have h2 : ¬ (0x3F00000 ≤ rkey p o ∧ rkey p o < 0x3F08000) := by omega
  have h3 : ¬ (0x3F08000 ≤ rkey p o ∧ rkey p o < 0x3F08100) := by omega
  simp only [bar0Read, e4, ep, eo, if_neg h1, if_neg h2, if_neg h3, ha, Bool.not_true, Bool.false_eq_true, if_false]

theorem bar0Read_silent {s : State} {a : Nat} (hlt : a < 0x2000000) (ha : s.answers (a / 4096) = false) :
    s.bar0Read a = (s, 0) := by
  have h1 : ¬ (0x2000000 ≤ a / 4 * 4 ∧ a / 4 * 4 < 0x2200000) := by omega
  have h2 : ¬ (0x3F00000 ≤ a / 4 * 4 ∧ a / 4 * 4 < 0x3F08000) := by omega
  have h3 : ¬ (0x3F08000 ≤ a / 4 * 4 ∧ a / 4 * 4 < 0x3F08100) := by omega
  have hp : a / 4 * 4 / 4096 = a / 4096 := by omega
  simp only [bar0Read, if_neg h1, if_neg h2, if_neg h3, hp, ha, Bool.not_false, if_true]

end State

end Sys2Proof.Machine

namespace Sys2Proof

open Sys2Proof.Machine Sys2Proof.Machine.State

/-- Both commands of a host read are the read at their BAR0 offset. -/
theorem does_bar0Read {s u : State} {ofs : Ofs} {v : W32} (h : s.offLink = false)
    (e : s.bar0Read ofs.toNat = (u, v)) :
    Does (.rcRead ofs) s (u.answer v) ∧ Does (.wideRegisterLoRead ofs) s (u.answer v) := by
  have hread : s.hostRead (·.bar0Read ofs.toNat) = u.answer v := by rw [hostRead_on _ _ h, e]
  exact ⟨Does.of rfl hread, Does.of rfl hread⟩

/-- Both commands of a host read that is not served. -/
theorem does_bar0Read_off {s : State} (ofs : Ofs) (h : s.offLink = true) :
    Does (.rcRead ofs) s (s.emit .ur) ∧ Does (.wideRegisterLoRead ofs) s (s.emit .ur) := by
  have hread : s.hostRead (·.bar0Read ofs.toNat) = s.emit .ur := by simp [hostRead, onLink, h]
  exact ⟨Does.of rfl hread, Does.of rfl hread⟩

/-- Settles O10: the read reaches a _LO or a _HI half, a register with RC fields, or no register. -/
theorem registerReadsCaptureAndClear : Obligations.RegisterReadsCaptureAndClear := by
  unfold Obligations.RegisterReadsCaptureAndClear
  refine ⟨?wide, ?clearing, ?unserved⟩
  case wide =>
    intro s p o r h lo hi _ ho h4 hw hr hh hrc hlo hhi hR
    obtain ⟨hlink, ha⟩ := hR
    have eLo : s.bar0Read lo.toNat = ((s.siteRead p o).captured p o, (s.siteRead p o).liveWord p o) := by
      rw [hlo, bar0Read_page ha (by omega) h4, pageRead_lo s hw, regRead_lo _ hr hw hrc]
    have eHi : s.bar0Read hi.toNat = (s, tabGet (resetWord p (o + 4)) s.caps (rkey p (o + 4))) := by
      rw [hhi, bar0Read_page ha (by omega) (by omega), pageRead_hi s hw, regRead_hi s hh hw]
    exact ⟨(does_bar0Read hlink eLo).2, (does_bar0Read hlink eHi).1⟩
  case clearing =>
    intro s p o r ofs hp ho h4 hr hrc hofs hR
    obtain ⟨hlink, ha⟩ := hR
    have e : s.bar0Read ofs.toNat =
        ((s.busyRead p o).wr p o ((s.busyRead p o).rd p o &&& ~~~r.mask [.rc]), (s.busyRead p o).rd p o) := by
      rw [hofs, bar0Read_page ha ho h4, pageRead_rc s hp hr hrc, regRead_rc _ hp hr hrc]
    exact (does_bar0Read hlink e).1
  case unserved =>
    exact fun s ofs => ⟨does_bar0Read_off ofs, fun hlink hlt ha => does_bar0Read hlink (bar0Read_silent hlt ha)⟩

end Sys2Proof

/-!
The timebase's alignment (R50 to R57): a write to TBS_LACE_CTL, the reception of a frame, and the edge of an ALIGN.
-/
namespace Sys2Proof.Machine

open Sys2Proof

namespace State

/-! ## A write to TBS_LACE_CTL (R19, R53) -/

/-- A field of one bit is that bit of its register. -/
theorem flag_eq_getLsbD (s : State) (p : Nat) (f : Fld) (hf : f.hi = f.lo) :
    s.flag p f = (s.rd p f.ofs).getLsbD f.lo := by
  have hbit : fget (s.rd p f.ofs) f.hi f.lo = ((s.rd p f.ofs).getLsbD f.lo).toNat := by
    simp only [fget, hf, Nat.sub_self, Nat.sub_zero, show (BitVec.allOnes 32 >>> 31 : W32) = 1#32 from rfl,
      BitVec.and_one_eq_setWidth_ofBool_getLsbD]
    cases h : (s.rd p f.ofs).getLsbD f.lo <;> simp [h]
  simp [flag, get, hbit]

/-- `t` differs from `s` in registers only. -/
def RegsOnly (s t : State) : Prop := ∃ rs hs, t = { s with regs := rs, held := hs }

theorem RegsOnly.eq {s t : State} (h : RegsOnly s t) : t = { s with regs := t.regs, held := t.held } := by
  obtain ⟨rs, hs, rfl⟩ := h
  rfl

theorem RegsOnly.put {s t : State} (h : RegsOnly s t) (p : Nat) (f : Fld) (b : Bool) : RegsOnly s (t.put p f b) := by
  obtain ⟨rs, hs, rfl⟩ := h
  exact ⟨_, _, rfl⟩

theorem rd_setRW (s : State) (p o q a : Nat) (v : W32) : (s.setRW p o v).rd q a = (s.wr p o v).rd q a := by
  unfold setRW
  dsimp only
  split <;> rfl

theorem regsOnly_setRW (s : State) (p o : Nat) (v w : W32) : RegsOnly s ((s.wr p o w).setRW p o v) := by
  unfold setRW
  dsimp only
  split <;> exact ⟨_, _, rfl⟩

theorem regsOnly_regWrite (s : State) (p o : Nat) (r : Reg) (v : W32) (bad gov : Bool) :
    RegsOnly s (regWrite s p o r v bad gov).1 := by
  unfold regWrite
  dsimp only
  split
  · exact ⟨_, _, rfl⟩
  · exact regsOnly_setRW _ _ _ _ _

/-- The generic write changes its own register and, where it is refused, those of a refusal. -/
theorem rd_regWrite_other (s : State) {p o q a : Nat} (r : Reg) (v : W32) (bad gov : Bool)
    (ho : rkey q a ≠ rkey p o) (hsts : rkey q a ≠ rkey p 0x00C) (hofs : rkey q a ≠ rkey p 0x024) :
    (regWrite s p o r v bad gov).1.rd q a = s.rd q a := by
  unfold regWrite
  dsimp only
  split
  · rw [refuse, rd_set_other _ _ _ _ _ _ hofs.symm, rd_put_other _ _ _ _ _ _ hsts.symm, rd_wr_other _ _ _ _ _ _ ho.symm]
  · rw [rd_setRW, rd_wr_other _ _ _ _ _ _ ho.symm, rd_wr_other _ _ _ _ _ _ ho.symm]

/-- A W1S bit written 1 reads 1, whether the write is refused or not. -/
theorem regWrite_w1s_bit (s : State) {p o i : Nat} {r : Reg} {v : W32} (bad gov : Bool) (hsts : 0x00C ≠ o)
    (hofs : 0x024 ≠ o) (hset : (r.mask [.w1s]).getLsbD i = true) (hv : v.getLsbD i = true) :
    ((regWrite s p o r v bad gov).1.rd p o).getLsbD i = true := by
  have hi : i < 32 := BitVec.lt_of_getLsbD hv
  unfold regWrite
  dsimp only
  split
  · rw [refuse, rd_set_ofs _ _ _ _ _ hofs, rd_put_ofs _ _ _ _ _ hsts, rd_wr_same]
    simp [hset, hv]
  · rw [rd_setRW, rd_wr_same]
    simp [hset, hv, hi]

/-- The register TBS_LACE_CTL. -/
def laceCtlReg : Reg := ⟨0x110, 1, 0x1000, 1, 4, false,
  [F.TBS_LACE_CTL_ALIGN_ARM, F.TBS_LACE_CTL_DISARM, F.TBS_LACE_CTL_OUT_MODE, F.TBS_LACE_CTL_SAMPLE_EDGE]⟩

/-- The fields of TBS_LACE_CTL written: subject to R19, OUT_MODE 3 refused. -/
def laceCtlFields (s : State) (v : W32) : State :=
  (regWrite s tbsPg 0x110 laceCtlReg v (fget v 3 2 == 3) (s.enabled tbsPg)).1

theorem laceCtl_eq (s : State) (v : W32) :
    s.laceCtl v = if v.getLsbD 1 then (s.laceCtlFields v).put tbsPg F.TBS_LACE_CTL_ALIGN_ARM false
      else s.laceCtlFields v := by
  have hr : findReg tbsPg 0x110 = some laceCtlReg := by decide
  have hidle (u : State) : u.idleForce tbsPg = u := rfl
  simp only [laceCtl, writeReg, writeAt, hr, hidle, laceCtlFields]

theorem regsOnly_laceCtl (s : State) (v : W32) : RegsOnly s (s.laceCtl v) := by
  have h : RegsOnly s (s.laceCtlFields v) := regsOnly_regWrite _ _ _ _ _ _ _
  rw [laceCtl_eq]
  split
  · exact h.put _ _ _
  · exact h

theorem rd_laceCtl_other (s : State) (v : W32) {q a : Nat} (ho : rkey q a ≠ rkey tbsPg 0x110)
    (hsts : rkey q a ≠ rkey tbsPg 0x00C) (hofs : rkey q a ≠ rkey tbsPg 0x024) : (s.laceCtl v).rd q a = s.rd q a := by
  have h : (s.laceCtlFields v).rd q a = s.rd q a := rd_regWrite_other s _ _ _ _ ho hsts hofs
  rw [laceCtl_eq]
  split
  · rw [rd_put_other _ _ _ _ _ _ ho.symm, h]
  · exact h

/-- DISARM written 1 leaves ALIGN_ARM 0. -/
theorem laceCtl_disarms (s : State) {v : W32} (hv : v.getLsbD 1 = true) :
    (s.laceCtl v).flag tbsPg F.TBS_LACE_CTL_ALIGN_ARM = false := by
  rw [laceCtl_eq, if_pos hv]
  exact flag_put_same _ _ _ _ (by decide) rfl

/-- ALIGN_ARM written 1 without DISARM arms, though the settings of the same write be refused. -/
theorem laceCtl_arms (s : State) {v : W32} (ha : v.getLsbD 0 = true) (hv : v.getLsbD 1 = false) :
    (s.laceCtl v).flag tbsPg F.TBS_LACE_CTL_ALIGN_ARM = true := by
  rw [laceCtl_eq, hv, flag_eq_getLsbD _ _ _ rfl]
  exact regWrite_w1s_bit s _ _ (by decide) (by decide) (by decide) ha

/-! ## The reception of a frame (R50, R51) -/

@[simp] theorem upTo_lace (s : State) (t : Nat) : (s.upTo t).lace = s.lace := by unfold upTo; split <;> rfl
@[simp] theorem upTo_regs (s : State) (t : Nat) : (s.upTo t).regs = s.regs := by unfold upTo; split <;> rfl
@[simp] theorem upTo_hbm (s : State) (t : Nat) : (s.upTo t).hbm = s.hbm := by unfold upTo; split <;> rfl
@[simp] theorem upTo_groups (s : State) (t : Nat) : (s.upTo t).groups = s.groups := by unfold upTo; split <;> rfl

/-- An instant passed on the way to a later one leaves no trace, whatever the receiver has taken in between. -/
theorem upTo_lace_upTo (s : State) {a t : Nat} (h : a ≤ t) (l : LaceDyn) :
    ({ s.upTo a with lace := l } : State).upTo t = { s.upTo t with lace := l } := by
  unfold upTo
  split
  · simp [max_assoc, Nat.max_eq_right h]
  · rfl

/-- The receiver with bits of a frame, the last of them on the line. -/
def rxBits (s : State) (r : List Bool) (b : Bool) : State := { s with lace := { s.lace with rx := r, line := b } }

/-- A bit that neither completes a frame nor breaks its SYNC joins it. -/
theorem laceBit_joins (s : State) (b : Bool) (hlen : s.lace.rx.length + 1 < 64)
    (hsync : s.lace.rx.length + 1 = 4 → s.lace.rx ++ [b] = [true, true, false, true]) :
    s.laceBit b = s.rxBits (s.lace.rx ++ [b]) b := by
  unfold laceBit
  simp only [List.length_append, List.length_singleton]
  split_ifs with h1 h2 h3
  · rfl
  · rfl
  · exact absurd (hsync h2) h3
  · rfl

theorem laceBit_completes (s : State) (b : Bool) (hlen : s.lace.rx.length = 63) :
    s.laceBit b = (s.rxBits [] b).laceDone (lineNat (s.lace.rx ++ [b])) := by
  simp [laceBit, hlen, rxBits]

/-- The bits that complete a frame begun with SYNC: the frame stands at the instant of the last. -/
theorem laceBits_frame (t : Nat) (b : Bool) (bs : List Bool) : ∀ s : State,
    s.lace.rx.length + bs.length = 63 → (s.lace.rx ++ bs).take 4 = [true, true, false, true] →
    s.laceBits t (bs ++ [b]) = ((s.upTo t).rxBits [] b).laceDone (lineNat (s.lace.rx ++ bs ++ [b])) := by
  induction bs with
  | nil =>
    intro s hlen _
    simp [laceBits, laceBit_completes _ _ (show (s.upTo t).lace.rx.length = 63 by simpa using hlen)]
  | cons c bs ih =>
    intro s hlen hsync
    simp only [List.length_cons] at hlen
    let u := s.upTo (t - (bs ++ [b]).length * 65536)
    have hu : u.lace = s.lace := upTo_lace _ _
    have hstep : u.laceBit c = u.rxBits (s.lace.rx ++ [c]) c := by
      rw [laceBit_joins u c (by rw [hu]; omega), hu]
      intro h4
      rw [hu] at h4 ⊢
      have h := hsync
      rwa [List.append_cons, List.take_left' (by simpa using h4)] at h
    have hback : (u.rxBits (s.lace.rx ++ [c]) c).upTo t = (s.upTo t).rxBits (s.lace.rx ++ [c]) c := by
      rw [rxBits, upTo_lace_upTo s (Nat.sub_le _ _), hu, rxBits, upTo_lace]
    rw [List.cons_append, laceBits, hstep, ih, hback]
    · simp [rxBits]
    · simp [rxBits]; omega
    · simpa [rxBits] using hsync

end State

theorem lineBits_succ (n v : Nat) : lineBits (n + 1) v = v.testBit 0 :: lineBits n (v / 2) := by
  simp [lineBits, List.range_succ_eq_map, Nat.testBit_succ, Function.comp_def]

theorem lineNat_lineBits (n : Nat) : ∀ v, lineNat (lineBits n v) = v % 2 ^ n := by
  induction n with
  | zero => intro v; simp [lineBits, lineNat, Nat.mod_one]
  | succ n ih =>
    intro v
    have hb : b2n (v.testBit 0) = v % 2 := by
      rw [Nat.testBit_zero]
      rcases Nat.mod_two_eq_zero_or_one v with h | h <;> simp [b2n, h]
    rw [lineBits_succ, lineNat, ih, hb, Nat.pow_succ', Nat.mod_mul]

/-- The line brings the SYNC of R50 first. -/
theorem take_lineBits_sync {w : Nat} (h : w % 16 = 0xB) : (lineBits 63 w).take 4 = [true, true, false, true] := by
  have hbit (i : Nat) (hi : i < 4) : w.testBit i = Nat.testBit 0xB i := by
    rw [← h, show 16 = 2 ^ 4 from rfl, Nat.testBit_mod_two_pow, decide_eq_true hi, Bool.true_and]
  simp [lineBits, List.range_succ, List.take, hbit]
  decide

namespace State

/-- A whole frame on the line of a receiver that is on and outside a frame. -/
theorem laceIn_frame (s : State) {w : Nat} (t : Nat) (hlt : w < 2 ^ 64) (hsync : w % 16 = 0xB) (hrx : s.lace.rx = [])
    (hon : s.enabled tbsPg = true) (hres : s.resetting.contains tbsPg = false) :
    s.laceIn (lineBits 64 w) t = (heard s w t).laceDone w := by
  let e := if s.get tbsPg F.TBS_LACE_CTL_OUT_MODE = 2 then s.emit (.lace (lineBits 64 w)) else s
  have he : e.lace.rx = [] := by
    simp only [e]
    split <;> simpa using hrx
  have hbits : lineBits 64 w = lineBits 63 w ++ [w.testBit 63] := by simp [lineBits, List.range_succ]
  have hdone := laceBits_frame (e.sampleEdge (max t e.now)) (w.testBit 63) (lineBits 63 w) e
    (by simp [he, lineBits]) (by rw [he]; exact take_lineBits_sync hsync)
  rw [he, List.nil_append, ← hbits, lineNat_lineBits, Nat.mod_eq_of_lt hlt] at hdone
  simp only [laceIn, hon, hres, Bool.not_false, Bool.and_self, if_true]
  exact hdone

/-- The receiver is off: the bits are lost. -/
theorem laceIn_off (s : State) (line : List Bool) (t : Nat)
    (h : s.enabled tbsPg = false ∨ s.resetting.contains tbsPg = true) : s.laceIn line t = unheard s := by
  unfold laceIn
  rw [if_neg (by rcases h with h | h <;> simp only [h] <;> simp), unheard]

theorem heard_flag (s : State) (w t p : Nat) (f : Fld) : (heard s w t).flag p f = s.flag p f := by
  have hregs : (heard s w t).regs = s.regs := by
    simp only [heard, upTo_regs]
    split <;> rfl
  have hrd : (heard s w t).rd p f.ofs = s.rd p f.ofs := by rw [rd, hregs, rd]
  rw [flag, get, hrd, flag, get]

theorem laceDone_align (s : State) {w : Nat} (h : LineFrame w 1) : s.laceDone w = s.align (bits w 23 8) := by
  obtain ⟨-, -, htyp, hcrc⟩ := h
  simp only [laceDone, hcrc, ne_eq, not_true_eq_false, if_false, htyp, if_true]

/-! ## An ALIGN at its reference instant (R53, R54, R55) -/

/-- The edge that an ALIGN names: 1,024 UI after its reference instant, or 1,056. -/
def alignEdge (s : State) : Nat := s.now + (if s.flag tbsPg F.TBS_LACE_CTL_SAMPLE_EDGE then 1056 else 1024) * 1024

/-- An ALIGN is held for its edge. -/
def holdAlign (s : State) (seq : Nat) (armed : Bool) (edge : Nat) : State :=
  { s with lace := { s.lace with align := some (seq, armed, edge) } }

theorem align_unarmed (s : State) (seq : Nat) (h : s.flag tbsPg F.TBS_LACE_CTL_ALIGN_ARM = false) :
    s.align seq = s.holdAlign seq false s.alignEdge := by
  simp [align, h, holdAlign, alignEdge]

theorem align_armed (s : State) (seq : Nat) (h : s.flag tbsPg F.TBS_LACE_CTL_ALIGN_ARM = true) (hr : s.refuseWhy = 0) :
    s.align seq = s.holdAlign seq true s.alignEdge := by
  simp [align, h, hr, holdAlign, alignEdge]

theorem align_refused (s : State) (seq : Nat) (h : s.flag tbsPg F.TBS_LACE_CTL_ALIGN_ARM = true)
    (hr : s.refuseWhy ≠ 0) :
    s.align seq = (s.alignRefused s.refuseWhy).holdAlign seq false s.alignEdge := by
  simp [align, h, hr, holdAlign, alignEdge]

/-! ## What a zeroing reaches (R56) -/

/-- `t` differs from `s` in the trigger engines only. -/
def TrgOnly (s t : State) : Prop := ∃ d, t = { s with trg := d }

theorem TrgOnly.trans {s t u : State} (h : TrgOnly s t) (h' : TrgOnly t u) : TrgOnly s u := by
  obtain ⟨_, rfl⟩ := h
  obtain ⟨_, rfl⟩ := h'
  exact ⟨_, rfl⟩

theorem trgOnly_setTrg (s : State) (q : Nat) (d : TrgDyn) : TrgOnly s (s.setTrg q d) := ⟨_, rfl⟩

theorem trgOnly_foldl {α : Type} {f : State → α → State} (hf : ∀ s a, TrgOnly s (f s a)) (l : List α) (s : State) :
    TrgOnly s (l.foldl f s) :=
  List.foldlRecOn l f ⟨_, rfl⟩ fun t ht a _ => ht.trans (hf t a)

theorem trgOnly_rawAll (s : State) (q : Nat) : TrgOnly s (s.rawAll q) :=
  (trgOnly_foldl (fun u _ => trgOnly_setTrg u q _) _ s).trans (trgOnly_setTrg _ q _)

theorem TrgOnly.hbm {s t : State} (h : TrgOnly s t) : t.hbm = s.hbm := by obtain ⟨_, rfl⟩ := h; rfl
theorem TrgOnly.groups {s t : State} (h : TrgOnly s t) : t.groups = s.groups := by obtain ⟨_, rfl⟩ := h; rfl

theorem rebase_hbm (s : State) (t : Nat) : (s.rebase t).hbm = s.hbm := by
  unfold rebase
  exact (trgOnly_foldl (fun u q => (trgOnly_rawAll u q).trans (trgOnly_setTrg _ q _)) _ s).hbm

theorem rebase_groups (s : State) (t : Nat) : (s.rebase t).groups = s.groups := by
  unfold rebase
  exact (trgOnly_foldl (fun u q => (trgOnly_rawAll u q).trans (trgOnly_setTrg _ q _)) _ s).groups

/-- `t` differs from `s` in what a commit of a slot table changes: registers of other pages than the timebase's, the
tables, free values and rises. -/
def SlotOnly (s t : State) : Prop :=
  (∃ rs sl fr fl, t = { s with regs := rs, slotL := sl, free := fr, flt := fl }) ∧
    ∀ a < 4096, t.rd tbsPg a = s.rd tbsPg a

section

variable {s t : State} (h : SlotOnly s t)
include h

theorem SlotOnly.now : t.now = s.now := by obtain ⟨⟨_, _, _, _, rfl⟩, -⟩ := h; rfl
theorem SlotOnly.mono : t.mono = s.mono := by obtain ⟨⟨_, _, _, _, rfl⟩, -⟩ := h; rfl
theorem SlotOnly.lace : t.lace = s.lace := by obtain ⟨⟨_, _, _, _, rfl⟩, -⟩ := h; rfl
theorem SlotOnly.hbm : t.hbm = s.hbm := by obtain ⟨⟨_, _, _, _, rfl⟩, -⟩ := h; rfl
theorem SlotOnly.groups : t.groups = s.groups := by obtain ⟨⟨_, _, _, _, rfl⟩, -⟩ := h; rfl

/-- A register of the timebase page is read as before. -/
theorem SlotOnly.rd_tbs {a : Nat} (ha : a < 4096) : t.rd tbsPg a = s.rd tbsPg a := h.2 a ha

end

theorem SlotOnly.refl (s : State) : SlotOnly s s := ⟨⟨_, _, _, _, rfl⟩, fun _ _ => rfl⟩

theorem SlotOnly.trans {s t u : State} (h : SlotOnly s t) (h' : SlotOnly t u) : SlotOnly s u := by
  obtain ⟨⟨_, _, _, _, rfl⟩, hrd⟩ := h
  obtain ⟨⟨_, _, _, _, rfl⟩, hrd'⟩ := h'
  exact ⟨⟨_, _, _, _, rfl⟩, fun a ha => (hrd' a ha).trans (hrd a ha)⟩

theorem SlotOnly.wr {s t : State} (h : SlotOnly s t) {x o : Nat} (v : W32) (ho : o < 4096) :
    SlotOnly s (t.wr (xbrPg x) o v) := by
  refine h.trans ⟨⟨_, _, _, _, rfl⟩, fun a ha => rd_wr_other _ _ _ _ _ _ (rkey_page ho ha ?_)⟩
  simp only [xbrPg, tbsPg, pg, T.xbr, T.tbs]
  omega

theorem SlotOnly.rise {s t : State} (h : SlotOnly s t) (x b : Nat) : SlotOnly s (t.rise (xbrPg x) b) := by
  unfold State.rise
  split
  · exact h
  · exact (h.wr _ (by decide)).trans ⟨⟨_, _, _, _, rfl⟩, fun _ _ => rfl⟩

theorem SlotOnly.foldl {α : Type} {f : State → α → State} (hf : ∀ s a, SlotOnly s (f s a)) (l : List α) {s t : State}
    (h : SlotOnly s t) : SlotOnly s (l.foldl f t) :=
  List.foldlRecOn l f h fun u hu a _ => hu.trans (hf u a)

/-- A commit refused for a slot. -/
theorem SlotOnly.refused {s t : State} (h : SlotOnly s t) (x n r : Nat) :
    SlotOnly s ((((t.set (xbrPg x) F.XBR_SLOT_ERR_SLOT n).set (xbrPg x) F.XBR_SLOT_ERR_REASON r).put (xbrPg x)
      F.XBR_STS_SLOT_ERR true).rise (xbrPg x) X.XBR_SLOT_ERR) :=
  (((h.wr _ (by decide)).wr _ (by decide)).wr _ (by decide)).rise x _

theorem slotOnly_slotCommit (s : State) (x : Nat) : SlotOnly s (s.slotCommit x) := by
  have hput : SlotOnly s (s.put (xbrPg x) F.PG_STS_COMMIT_PEND false) := (SlotOnly.refl s).wr _ (by decide)
  unfold slotCommit
  dsimp only
  split
  · exact hput.refused x _ _
  · split
    · have hfresh : SlotOnly s (s.put (xbrPg x) F.PG_STS_COMMIT_PEND false).fresh.2 :=
        hput.trans ⟨⟨_, _, _, _, rfl⟩, fun _ _ => rfl⟩
      exact hfresh.refused x _ _
    · refine ((hput.foldl (fun u k => ?_) _).wr _ (by decide)).wr _ (by decide)
      exact ⟨⟨_, _, _, _, rfl⟩, fun _ _ => rfl⟩

theorem slotOnly_slotWrap (s : State) : SlotOnly s s.slotWrap := by
  refine (SlotOnly.refl s).foldl (fun u x => ?_) _
  split
  · exact slotOnly_slotCommit u x
  · exact SlotOnly.refl u

/-- A new timeline begins at 0 at this instant. -/
def newTimeline (s : State) : State :=
  { s.rebase s.now with era := s.mono, now := 0, ptp := { s.ptp with at_ := 0 }, lace := { s.lace with phase := 0 } }

/-- The timebase page shows the ALIGN that has zeroed the timeline, and TRIM comes into force. -/
def showAligned (s : State) (seq : Nat) : State :=
  (((s.put tbsPg F.TBS_LACE_CTL_ALIGN_ARM false).put tbsPg F.TBS_REF_STS_ALIGNED true).set tbsPg
    F.TBS_LACE_STS_ALIGN_SEQ seq).inForce tbsPg 0x114

theorem zero_eq (s : State) (seq : Nat) : s.zero seq = (s.ptpSync.newTimeline.showAligned seq).slotWrap := rfl

@[simp] theorem get_inForce (s : State) (p o q : Nat) (f : Fld) : (s.inForce p o).get q f = s.get q f := rfl
@[simp] theorem flag_inForce (s : State) (p o q : Nat) (f : Fld) : (s.inForce p o).flag q f = s.flag q f := rfl

theorem flag_set_ofs (s : State) (p : Nat) (f g : Fld) (v : Nat) (h : f.ofs ≠ g.ofs) :
    (s.set p f v).flag p g = s.flag p g := by rw [flag, get_set_ofs _ _ _ _ _ h, flag]

theorem showAligned_arm (s : State) (seq : Nat) : (s.showAligned seq).flag tbsPg F.TBS_LACE_CTL_ALIGN_ARM = false := by
  rw [showAligned, flag_inForce, flag_set_ofs _ _ _ _ _ (by decide), flag_put_ofs _ _ _ _ _ (by decide),
    flag_put_same _ _ _ _ (by decide) rfl]

theorem showAligned_aligned (s : State) (seq : Nat) : (s.showAligned seq).flag tbsPg F.TBS_REF_STS_ALIGNED = true := by
  rw [showAligned, flag_inForce, flag_set_ofs _ _ _ _ _ (by decide), flag_put_same _ _ _ _ (by decide) rfl]

theorem showAligned_seq (s : State) (seq : Nat) :
    (s.showAligned seq).get tbsPg F.TBS_LACE_STS_ALIGN_SEQ = seq % 65536 := by
  rw [showAligned, get_inForce, get_set_same _ _ _ _ (by decide) (by decide)]
  rfl

@[simp] theorem mono_ptpSync (s : State) : s.ptpSync.mono = s.mono := rfl
@[simp] theorem hbm_ptpSync (s : State) : s.ptpSync.hbm = s.hbm := rfl
@[simp] theorem groups_ptpSync (s : State) : s.ptpSync.groups = s.groups := rfl
@[simp] theorem mono_newTimeline (s : State) : s.newTimeline.mono = s.mono := Nat.add_zero _
@[simp] theorem hbm_newTimeline (s : State) : s.newTimeline.hbm = s.hbm := by rw [newTimeline, rebase_hbm]
@[simp] theorem groups_newTimeline (s : State) : s.newTimeline.groups = s.groups := by rw [newTimeline, rebase_groups]
@[simp] theorem mono_showAligned (s : State) (seq : Nat) : (s.showAligned seq).mono = s.mono := rfl
@[simp] theorem hbm_showAligned (s : State) (seq : Nat) : (s.showAligned seq).hbm = s.hbm := rfl
@[simp] theorem groups_showAligned (s : State) (seq : Nat) : (s.showAligned seq).groups = s.groups := rfl

/-- The zeroing edge (R56) reaches neither the device's own time nor the frame being received, HBM or the groups. -/
theorem zero_frame (s : State) (seq : Nat) :
    (s.zero seq).now = 0 ∧ (s.zero seq).mono = s.mono ∧ (s.zero seq).lace = { s.lace with phase := 0 } ∧
      (s.zero seq).hbm = s.hbm ∧ (s.zero seq).groups = s.groups := by
  have h := slotOnly_slotWrap (s.ptpSync.newTimeline.showAligned seq)
  rw [zero_eq, h.now, h.mono, h.lace, h.hbm, h.groups]
  refine ⟨rfl, ?_, rfl, ?_, ?_⟩
  · rw [mono_showAligned, mono_newTimeline, mono_ptpSync]
  · rw [hbm_showAligned, hbm_newTimeline, hbm_ptpSync]
  · rw [groups_showAligned, groups_newTimeline, groups_ptpSync]

/-- The zeroing edge (R53, R56) shows on the timebase page. -/
theorem zero_shows (s : State) (seq : Nat) :
    (s.zero seq).flag tbsPg F.TBS_LACE_CTL_ALIGN_ARM = false ∧ (s.zero seq).flag tbsPg F.TBS_REF_STS_ALIGNED = true ∧
      (s.zero seq).get tbsPg F.TBS_LACE_STS_ALIGN_SEQ = seq % 65536 := by
  have hrd {f : Fld} (hf : f.ofs < 4096) :
      (s.zero seq).get tbsPg f = (s.ptpSync.newTimeline.showAligned seq).get tbsPg f := by
    rw [get, get, zero_eq, (slotOnly_slotWrap _).rd_tbs hf]
  refine ⟨?_, ?_, ?_⟩
  · rw [flag, hrd (by decide)]
    exact showAligned_arm _ _
  · rw [flag, hrd (by decide)]
    exact showAligned_aligned _ _
  · rw [hrd (by decide)]
    exact showAligned_seq _ _

/-! ## The edge of an ALIGN (R53, R55, R57) -/

/-- The edge of the ALIGN held has come. -/
def atEdge (s : State) (edge : Nat) : State := ({ s with lace := { s.lace with align := none } } : State).upTo edge

theorem atEdge_flag (s : State) (edge p : Nat) (f : Fld) : (s.atEdge edge).flag p f = s.flag p f := by
  have hrd : (s.atEdge edge).rd p f.ofs = s.rd p f.ofs := by rw [rd, atEdge, upTo_regs, rd]
  rw [flag, get, hrd, flag, get]

section

variable {s : State} {seq edge : Nat} (h : s.lace.align = some (seq, true, edge))
include h

theorem zeroingEdge_eq : s.zeroingEdge =
    if s.flag tbsPg F.TBS_LACE_CTL_ALIGN_ARM = true then
      if (s.atEdge edge).refuseWhy = 0 then (s.atEdge edge).zero seq
      else ((s.atEdge edge).alignRefused (s.atEdge edge).refuseWhy).alignCheck seq
    else (s.atEdge edge).alignCheck seq := by
  rw [← atEdge_flag s edge]
  unfold zeroingEdge
  rw [h]
  dsimp only
  rw [← atEdge]
  cases (s.atEdge edge).flag tbsPg F.TBS_LACE_CTL_ALIGN_ARM <;> rfl

theorem checkEdge_armed : s.checkEdge = s := by rw [checkEdge, h]

end

section

variable {s : State} {seq edge : Nat} (h : s.lace.align = some (seq, false, edge))
include h

theorem checkEdge_eq : s.checkEdge = (s.atEdge edge).alignCheck seq := by rw [checkEdge, h, atEdge]

theorem zeroingEdge_unarmed : s.zeroingEdge = s := by rw [zeroingEdge, h]

end

theorem edges_none {s : State} (h : s.lace.align = none) : s.zeroingEdge = s ∧ s.checkEdge = s := by
  rw [zeroingEdge, checkEdge, h]
  exact ⟨rfl, rfl⟩

/-- What a check shows (R57): the timeline at the edge, and the sequence number. -/
def checkShown (s : State) (seq : Nat) : State :=
  (s.set tbsPg F.TBS_ALIGN_CHK_CHK (s.ui % 2 ^ 32)).set tbsPg F.TBS_LACE_STS_ALIGN_SEQ seq

theorem alignCheck_eq (s : State) (seq : Nat) :
    s.alignCheck seq =
      if (s.checkShown seq).flag tbsPg F.TBS_REF_STS_ALIGNED = true ∧ (s.checkShown seq).ui % 64 ≠ 0 then
        (s.checkShown seq).rise tbsPg X.TBS_ALIGN_PHASE
      else s.checkShown seq :=
  if_congr (by rw [Bool.and_eq_true, bne_iff_ne]; rfl) rfl rfl

end State

end Sys2Proof.Machine

namespace Sys2Proof

open Sys2Proof.Machine Sys2Proof.Machine.State

/-- The write of TBS_LACE_CTL that either command makes. -/
theorem does_laceCtl {s : State} (hR : Reaches s tbsPg) (v : W32) :
    Does (.alignArm v) s (s.laceCtl (v ||| 1)) ∧ Does (.disarm v) s (s.laceCtl (v ||| 2)) :=
  ⟨Does.of rfl (onPage_reaches _ _ _ hR), Does.of rfl (onPage_reaches _ _ _ hR)⟩

/-- An ALIGN frame on the line of a receiver that is on acts at its reference instant. -/
theorem does_align {s t : State} {w i : Nat} (hw : LineFrame w 1) (hrx : s.lace.rx = []) (hon : s.enabled tbsPg = true)
    (hres : s.resetting.contains tbsPg = false) (e : (heard s w i).align (bits w 23 8) = t) :
    Does (.align (lineBits 64 w) i) s t := by
  obtain ⟨hlt, hsync, -⟩ := id hw
  exact Does.of rfl (by rw [laceIn_frame s i hlt hsync hrx hon hres, laceDone_align _ hw, e])

theorem does_zeroingEdge {s t : State} (e : s.zeroingEdge = t) : Does .zeroingEdge s t := Does.of rfl e
theorem does_alignCheck {s t : State} (e : s.checkEdge = t) : Does .alignCheck s t := Does.of rfl e

/-- Settles O21: the write of TBS_LACE_CTL, the ALIGN at its reference instant, and its edge. -/
theorem alignmentSetsTheTimeline : Obligations.AlignmentSetsTheTimeline := by
  unfold Obligations.AlignmentSetsTheTimeline
  refine ⟨?armed, ?received, ?armedEdge, ?unarmedEdge, ?noAlign⟩
  case armed =>
    intro s v hR
    have hv1 : (v ||| 1).getLsbD 1 = v.getLsbD 1 := by simp
    have hv2 : (v ||| 2).getLsbD 1 = true := by simp
    refine ⟨s.laceCtl (v ||| 1), s.laceCtl (v ||| 2), (does_laceCtl hR v).1, ?_, (does_laceCtl hR v).2,
      laceCtl_disarms s hv2, (regsOnly_laceCtl _ _).eq, (regsOnly_laceCtl _ _).eq, fun q a ho hsts hofs =>
        ⟨rd_laceCtl_other s _ ho hsts hofs, rd_laceCtl_other s _ ho hsts hofs⟩⟩
    cases hd : v.getLsbD 1 with
    | true => exact laceCtl_disarms s (hv1.trans hd)
    | false => exact laceCtl_arms s (by simp) (hv1.trans hd)
  case received =>
    intro s w i hw hrx
    refine ⟨fun hoff => Does.of rfl (laceIn_off s _ i hoff), fun hon hres =>
      ⟨fun ha => ?_, fun ha hr => ?_, fun ha hr => ?_⟩⟩
    all_goals rw [← heard_flag s w i] at ha
    · exact does_align hw hrx hon hres (align_unarmed _ _ ha)
    · exact does_align hw hrx hon hres (align_armed _ _ ha hr)
    · exact does_align hw hrx hon hres (align_refused _ _ ha hr)
  case armedEdge =>
    intro s seq edge h
    have he := zeroingEdge_eq h
    refine ⟨fun ha hr => ⟨_, does_zeroingEdge (he.trans ((if_pos ha).trans (if_pos hr))), ?_⟩,
      fun ha hr => does_zeroingEdge (he.trans ((if_pos ha).trans (if_neg hr))),
      fun ha => does_zeroingEdge (he.trans (if_neg (by simp [ha]))), does_alignCheck (checkEdge_armed h)⟩
    obtain ⟨hnow, hmono, hlace, hhbm, hgroups⟩ := zero_frame (s.atEdge edge) seq
    obtain ⟨harm, haligned, hseq⟩ := zero_shows (s.atEdge edge) seq
    refine ⟨hnow, hmono, ?_, harm, haligned, hseq, ?_, ?_, ?_⟩
    · rw [hlace]
    · rw [hlace, atEdge, upTo_lace]
    · rw [hhbm, atEdge, upTo_hbm]
    · rw [hgroups, atEdge, upTo_groups]
  case unarmedEdge =>
    intro s seq edge h
    exact ⟨does_alignCheck ((checkEdge_eq h).trans (alignCheck_eq _ _)), does_zeroingEdge (zeroingEdge_unarmed h)⟩
  case noAlign =>
    exact fun s h => ⟨does_zeroingEdge (edges_none h).1, does_alignCheck (edges_none h).2⟩

end Sys2Proof

/-!
A step of the block (R23): the command at the front of the queue, or one core cycle.
-/
namespace Sys2Proof.Machine

open Sys2Proof

/-- A step on an empty queue lets one core cycle pass. -/
theorem step_empty {s : State} (h : s.pending = []) : step s = .next (idle s) := by rw [step, h]

/-- A step carries out the command at the front with the queue's rest. -/
theorem step_front {s : State} {c : Instr} {rest : List Instr} (h : s.pending = c :: rest) :
    step s = exec c { s with pending := rest } := by rw [step, h]

theorem idle_running {s : State} (h : s.tlOn = true) : idle s = { s with now := s.now + 4096 } := if_pos h

theorem idle_stopped {s : State} (h : s.tlOn = false) : idle s = s := if_neg (by simp [h])

end Sys2Proof.Machine

namespace Sys2Proof

open Sys2Proof.Machine

/-- Settles O2: a queue with a front, and an empty one with the timeline running and stopped. -/
theorem stepRunsFrontCommand : Obligations.StepRunsFrontCommand := by
  unfold Obligations.StepRunsFrontCommand
  refine ⟨fun c s => step_front rfl, fun s hq ht => ?running, fun s hq ht => ?stopped,
    fun s nbits w => ⟨rfl, rfl⟩⟩
  case running => rw [step_empty hq, idle_running ht]
  case stopped => rw [step_empty hq, idle_stopped ht]

end Sys2Proof

/-!
Commits of the tables with a shadow copy, and the end of the copy back (R36, R82, R141, R172, R329, R330, R447).
-/
namespace Sys2Proof.Machine

open Sys2Proof

/-! ## Parts of a sparse table replaced -/

section

variable {α : Type}

theorem tabFind_filter (P : Nat → Bool) (m : Tab α) (j : Nat) :
    tabFind (m.filter (fun x => P x.1)) j = if P j then tabFind m j else none := by
  induction m with
  | nil => simp
  | cons x m ih =>
    obtain ⟨k, v⟩ := x
    by_cases hkj : k = j
    · subst hkj
      cases hk : P k <;> simp [hk, tabFind, ih]
    · cases hk : P k <;> simp [hk, tabFind, ih, hkj]

theorem tabFind_append (a b : Tab α) (j : Nat) : tabFind (a ++ b) j = (tabFind a j).or (tabFind b j) := by
  induction a with
  | nil => rfl
  | cons x a ih =>
    obtain ⟨k, v⟩ := x
    by_cases hkj : k = j
    · simp [tabFind, hkj]
    · simpa [tabFind, hkj] using ih

/-- The part replaced reads as the other table, the rest as before. -/
theorem tabGet_splice (d : α) (m src : Tab α) (n k j : Nat) :
    tabGet d (State.tabSplice m src n k) j = if j / n = k then tabGet d src j else tabGet d m j := by
  have hfind : tabFind (State.tabSplice m src n k) j = if j / n = k then tabFind src j else tabFind m j := by
    simp only [State.tabSplice, tabFind_append, tabFind_filter (fun i => decide (i / n < k)),
      tabFind_filter (fun i => decide (i / n = k)), tabFind_filter (fun i => decide (k < i / n)), decide_eq_true_eq]
    rcases Nat.lt_trichotomy (j / n) k with h | h | h
    · simp [h, h.ne, h.not_gt]
    · simp [h]
    · simp [h, h.ne', h.not_gt]
  rw [tabGet, hfind]
  split <;> rfl

/-- Several parts replaced one after another. -/
theorem tabGet_splices (d : α) (src : Tab α) (n j : Nat) (ks : List Nat) (m : Tab α) :
    tabGet d (ks.foldl (fun m k => State.tabSplice m src n k) m) j =
      if ks.contains (j / n) = true then tabGet d src j else tabGet d m j := by
  induction ks generalizing m with
  | nil => simp
  | cons k ks ih =>
    rw [List.foldl_cons, ih, tabGet_splice]
    by_cases hks : j / n ∈ ks
    · simp [hks]
    · by_cases hk : j / n = k <;> simp [hks, hk]

/-- A run of keys written one after another. -/
theorem tabGet_foldl_put_range [DecidableEq α] (d : α) (m : Tab α) (f : Nat → α) (b n j : Nat) :
    tabGet d ((List.range n).foldl (fun m k => tabPut d m (b + k) (f k)) m) (b + j) =
      if j < n then f j else tabGet d m (b + j) := by
  induction n with
  | zero => simp
  | succ n ih =>
    rw [List.range_succ, List.foldl_append, List.foldl_cons, List.foldl_nil, tabGet_put _ _ _ _ _ _ (fun _ => rfl), ih]
    rcases Nat.lt_trichotomy n j with h | h | h
    · simp [h.ne, h.not_gt, Nat.not_lt.2 (Nat.succ_le_of_lt h)]
    · simp [h]
    · simp [h.ne', h, Nat.lt_succ_of_lt h]

end

theorem pg_type {t i : Nat} (h : i < 256) : pg t i / 256 = t := by unfold pg; omega

theorem pg_index {t i : Nat} (h : i < 256) : pg t i % 256 = i := by unfold pg; omega

namespace State

/-! ## The boundary at which a commit takes place -/

theorem tableCommit_not_due {s : State} {p : Nat}
    (h : s.flag p F.PG_STS_COMMIT_PEND = false ∨ s.commitWaits p = true) : s.tableCommit p = s := by
  unfold tableCommit
  rw [if_pos]
  rcases h with h | h <;> simp [h]

/-- Only the boundaries of channels, eyelets and DDS units may be those of a running group or unit. -/
theorem commitWaits_table {s : State} {p : Nat} (h : p / 256 ≠ T.chn ∧ p / 256 ≠ T.eye ∧ p / 256 ≠ T.dds) :
    s.commitWaits p = false := by
  obtain ⟨hchn, heye, hdds⟩ := h
  simp only [commitWaits, if_neg hchn, if_neg heye, if_neg hdds]

/-- The time of a slot table's commit: the table wrap, where the slots turn (R36, R37). -/
def atWrap (s : State) (p : Nat) : State :=
  if s.enabled p = true ∧ s.tlOn = true then s.upTo ((s.now + 4194303) / 4194304 * 4194304) else s

section

variable {s : State} {p : Nat} (hp : s.flag p F.PG_STS_COMMIT_PEND = true)
include hp

theorem tableCommit_due (hw : s.commitWaits p = false) :
    s.tableCommit p =
      if p / 256 = T.glb then s.segCommit
      else if p / 256 = T.chn then s.wftCommit (p % 256)
      else if p / 256 = T.eye then s.dmapCommit (p % 256)
      else if p / 256 = T.dds then s.ddsCommit (p % 256)
      else if p / 256 = T.mem then s.scrCommit (p % 256)
      else if p / 256 = T.xbr then (s.atWrap p).slotCommit (p % 256)
      else if p / 256 = T.cal then s.calCommit
      else s := by
  simp only [tableCommit, hp, hw, atWrap, Bool.not_true, Bool.or_false, Bool.false_eq_true, if_false, Bool.and_eq_true]

theorem tableCommit_chn {c : Nat} (hc : p = pg T.chn c) (hlt : c < 256) (hw : s.commitWaits p = false) :
    s.tableCommit p = s.wftCommit c := by
  rw [tableCommit_due hp hw, hc, pg_type hlt, pg_index hlt]
  rfl

theorem tableCommit_dds {e : Nat} (he : p = pg T.dds e) (hlt : e < 16) (hw : s.commitWaits p = false) :
    s.tableCommit p = s.ddsCommit e := by
  have hlt' : e < 256 := by omega
  rw [tableCommit_due hp hw, he, pg_type hlt', pg_index hlt']
  rfl

theorem tableCommit_glb (hg : p = glbPg) : s.tableCommit p = s.segCommit := by
  subst hg
  exact tableCommit_due hp (commitWaits_table (by decide))

theorem tableCommit_cal (hc : p = calPg) : s.tableCommit p = s.calCommit := by
  subst hc
  exact tableCommit_due hp (commitWaits_table (by decide))

theorem tableCommit_xbr {x : Nat} (hx : p = xbrPg x) (hlt : x < 2) :
    s.tableCommit p = (s.atWrap (xbrPg x)).slotCommit x := by
  have hlt' : x < 256 := by omega
  have ht : xbrPg x / 256 = T.xbr := pg_type hlt'
  have hi : xbrPg x % 256 = x := pg_index hlt'
  subst hx
  rw [tableCommit_due hp (commitWaits_table (by rw [ht]; decide)), ht, hi]
  simp only [T.glb, T.chn, T.eye, T.dds, T.mem, T.xbr, Nat.reduceEqDiff, if_false, if_true]

end

/-! ## A fault source that rises (R414) -/

theorem rd_rise_other (s : State) (p b : Nat) {q a : Nat} (h : rkey p 0x010 ≠ rkey q a) :
    (s.rise p b).rd q a = s.rd q a := by
  unfold rise
  split
  · rfl
  · exact rd_wr_other _ _ _ _ _ _ h

theorem flag_rise_ofs (s : State) (p b : Nat) {f : Fld} (h : 0x010 ≠ f.ofs) : (s.rise p b).flag p f = s.flag p f := by
  rw [flag, get, rd_rise_other s p b (rkey_ofs h), flag, get]

theorem fltBit_rise (s : State) (p : Nat) {b : Nat} (hb : b < 32) : (s.rise p b).fltBit p b = true := by
  unfold rise
  split
  next h => exact h
  next =>
    have hset : (BitVec.ofNat 32 (1 <<< b)).getLsbD b = true := by
      rw [BitVec.getLsbD_ofNat, Nat.one_shiftLeft, Nat.testBit_two_pow_self, decide_eq_true hb, Bool.and_self]
    exact (congrArg (BitVec.getLsbD · b) (rd_wr_same _ _ _ _)).trans (by rw [BitVec.getLsbD_or, hset, Bool.or_true])

/-! ## The waveform table (R81, R82) -/

/-- A commit under way is no longer pending. -/
abbrev taken (s : State) (p : Nat) : State := s.put p F.PG_STS_COMMIT_PEND false

theorem wftCommit_valid {s : State} {c : Nat} (h : (s.taken (pg T.chn c)).wftValid c = true) :
    s.wftCommit c =
      (((({ s.taken (pg T.chn c) with
          wftL := tabSplice (s.taken (pg T.chn c)).wftL (s.taken (pg T.chn c)).wftS 8192 c } : State).upsetClear 1 8192
        c).put (pg T.chn c) F.CHN_STS_SHADOW_BUSY true).put (pg T.chn c) F.PG_STS_BUSY true) := if_pos h

theorem wftCommit_invalid {s : State} {c : Nat} (h : (s.taken (pg T.chn c)).wftValid c = false) :
    s.wftCommit c = (s.taken (pg T.chn c)).put (pg T.chn c) F.CHN_STS_WFT_ERR true := if_neg (ne_true_of_eq_false h)

/-! ## The DDS list (R172) -/

/-- `t` differs from `s` in what an error found in a list may set: registers, rises, and the status of tickets. -/
def ListErrOnly (s t : State) : Prop := ∃ rs fl sc, t = { s with regs := rs, flt := fl, sch := sc }

theorem ListErrOnly.refl (s : State) : ListErrOnly s s := ⟨_, _, _, rfl⟩

theorem ListErrOnly.trans {s t u : State} (h : ListErrOnly s t) (h' : ListErrOnly t u) : ListErrOnly s u := by
  obtain ⟨_, _, _, rfl⟩ := h
  obtain ⟨_, _, _, rfl⟩ := h'
  exact ⟨_, _, _, rfl⟩

theorem ListErrOnly.foldl {β : Type} {f : State → β → State} (hf : ∀ s a, ListErrOnly s (f s a)) (l : List β)
    (s : State) : ListErrOnly s (l.foldl f s) :=
  List.foldlRecOn l f (ListErrOnly.refl s) fun _ ht a _ => ht.trans (hf _ a)

theorem listErrOnly_rise (s : State) (p b : Nat) : ListErrOnly s (s.rise p b) := by
  unfold rise
  split
  · exact ListErrOnly.refl s
  · exact ⟨_, _, _, rfl⟩

theorem listErrOnly_clockBursts (s : State) (e st : Nat) : ListErrOnly s (s.clockBursts e st) := by
  refine ListErrOnly.foldl (fun u g => ?_) _ s
  split
  · exact ListErrOnly.foldl (fun v i => ⟨_, _, _, rfl⟩) _ u
  · exact ListErrOnly.refl u

theorem listErrOnly_ddsReadErr (s : State) (e v : Nat) : ListErrOnly s (s.ddsReadErr e v) := by
  unfold ddsReadErr
  split_ifs
  · exact ListErrOnly.refl s
  · exact listErrOnly_rise s _ _
  · exact (listErrOnly_rise s _ _).trans (listErrOnly_clockBursts _ _ _)

/-- The shadow list becomes live, its words written anew. -/
def ddsLive (s : State) (e : Nat) : State :=
  ({ s with ddsL := tabSplice s.ddsL s.ddsS 16384 e } : State).upsetClear 3 16384 e

/-- An uncorrectable error of a word of the shadow list is one of the live list too. -/
def ddsPassErr (s : State) (x : Nat × Nat) : State :=
  if x.2 = 2 then { s with upset := tabPut 0 s.upset (3 * 2 ^ 40 + x.1) 2 } else s

/-- The errors of the shadow list are met as it is read. -/
def ddsReadErrs (s : State) (e : Nat) : State :=
  ((s.ddsShadowErrs e).map (·.2)).foldl (fun s v => s.ddsReadErr e v) s

theorem ddsCommit_valid {s : State} {e : Nat} (h : ((s.taken (pg T.dds e)).ddsInvalid e).isSome = false) :
    s.ddsCommit e =
      (((s.taken (pg T.dds e)).ddsShadowErrs e).foldl ddsPassErr (((s.taken (pg T.dds e)).ddsReadErrs e).ddsLive e)).put
        (pg T.dds e) F.PG_STS_BUSY true := if_neg (ne_true_of_eq_false h)

theorem ddsCommit_invalid {s : State} {e : Nat} (h : ((s.taken (pg T.dds e)).ddsInvalid e).isSome = true) :
    s.ddsCommit e = (s.taken (pg T.dds e)).put (pg T.dds e) F.DDS_STS_LIST_ERR true := if_pos h

/-- A list without errors in its words. -/
theorem ddsCommit_clean {s : State} {e : Nat} (h : ((s.taken (pg T.dds e)).ddsInvalid e).isSome = false)
    (hno : (s.taken (pg T.dds e)).ddsShadowErrs e = []) :
    s.ddsCommit e = ((s.taken (pg T.dds e)).ddsLive e).put (pg T.dds e) F.PG_STS_BUSY true := by
  rw [ddsCommit_valid h, ddsReadErrs, hno]
  rfl

theorem ddsL_ddsReadErrs (s : State) (e : Nat) :
    ((s.ddsReadErrs e).ddsLive e).ddsL = tabSplice s.ddsL s.ddsS 16384 e := by
  obtain ⟨_, _, _, h⟩ : ListErrOnly s (s.ddsReadErrs e) :=
    ListErrOnly.foldl (fun u v => listErrOnly_ddsReadErr u e v) _ s
  rw [h]
  rfl

theorem ddsL_passErrs (s : State) (errs : List (Nat × Nat)) : (errs.foldl ddsPassErr s).ddsL = s.ddsL := by
  refine List.foldlRecOn errs _ (motive := fun t : State => t.ddsL = s.ddsL) rfl fun t ht x _ => ?_
  unfold ddsPassErr
  split <;> exact ht

theorem eccOf_ddsPassErr (s : State) (x : Nat × Nat) (k : Nat) :
    (s.ddsPassErr x).eccOf 3 k = if x.2 = 2 ∧ x.1 = k then 2 else s.eccOf 3 k := by
  unfold ddsPassErr
  split
  next h =>
    unfold eccOf
    rw [tabGet_put _ _ _ _ _ _ (fun _ => rfl)]
    exact if_congr (by simp [h]) rfl rfl
  next h => rw [if_neg fun h' => h h'.1]

/-- The errors passed on stand, whatever others are passed on after them. -/
theorem eccOf_passErrs {errs : List (Nat × Nat)} {x : Nat × Nat} (hx : x ∈ errs) (h2 : x.2 = 2) (s : State) :
    (errs.foldl ddsPassErr s).eccOf 3 x.1 = 2 := by
  obtain ⟨before, after, rfl⟩ := List.append_of_mem hx
  rw [List.foldl_append, List.foldl_cons]
  refine List.foldlRecOn after _ (motive := fun t : State => t.eccOf 3 x.1 = 2) ?_ fun t ht y _ => ?_
  · rw [eccOf_ddsPassErr, if_pos ⟨h2, rfl⟩]
  · rw [eccOf_ddsPassErr, ht, ite_self]

/-! ## The calibration image (R383) -/

theorem calCommit_valid {s : State} (h : (s.taken calPg).calBad = none) :
    s.calCommit =
      (((({ s.taken calPg with
          calL := (s.taken calPg).calS, calFac := (s.taken calPg).calSFac, upset := (s.taken calPg).calUpsets } :
          State).put calPg F.CAL_STS_USER_OK true).put calPg F.CAL_STS_COPY_BUSY true).put calPg F.PG_STS_BUSY
          true) := by
  simp only [calCommit, h]
  rfl

theorem calCommit_invalid {s : State} {r x : Nat} (h : (s.taken calPg).calBad = some (r, x)) :
    s.calCommit =
      (((s.taken calPg).put calPg F.CAL_STS_COMMIT_ERR true).set calPg F.CAL_ERR_REC r).set calPg F.CAL_ERR_REASON
        x := by
  simp only [calCommit, h]

/-! ## The segment table (R141) -/

theorem segPend_rise (s : State) (p b : Nat) : (s.rise p b).segPend = s.segPend := by
  obtain ⟨_, _, _, h⟩ := listErrOnly_rise s p b
  rw [h]

theorem segL_rise (s : State) (p b : Nat) : (s.rise p b).segL = s.segL := by
  obtain ⟨_, _, _, h⟩ := listErrOnly_rise s p b
  rw [h]

/-- The regions waiting for a commit are taken. -/
def segTaken (s : State) : State := { s.taken glbPg with segPend := [] }

/-- The first word of an invalid entry in the regions `rs` of the shadow table. -/
def segFirstBad (s : State) (rs : List Nat) : Option (Nat × W32) :=
  (s.segS.filter (fun x => rs.contains (x.1 / 4096))).find? (fun x => s.segBad (x.1 / 4) != 0)

theorem segFirstBad_none {s : State} {rs : List Nat}
    (h : ∀ x ∈ s.segS, rs.contains (x.1 / 4096) = true → s.segBad (x.1 / 4) = 0) : s.segFirstBad rs = none := by
  rw [segFirstBad, List.find?_eq_none]
  intro x hx
  obtain ⟨hmem, hsel⟩ := List.mem_filter.1 hx
  simp [h x hmem hsel]

theorem segFirstBad_some {s : State} {rs : List Nat}
    (h : ∃ x ∈ s.segS, rs.contains (x.1 / 4096) = true ∧ s.segBad (x.1 / 4) ≠ 0) :
    ∃ x, s.segFirstBad rs = some x := by
  obtain ⟨x, hmem, hsel, hbad⟩ := h
  rw [← Option.isSome_iff_exists, segFirstBad, List.find?_isSome]
  exact ⟨x, List.mem_filter.2 ⟨hmem, hsel⟩, bne_iff_ne.2 hbad⟩

/-- The regions `rs` of the shadow table become live, their words written anew. -/
def segLive (s : State) (rs : List Nat) : State :=
  rs.foldl (fun (s : State) r => ({ s with segL := tabSplice s.segL s.segS 4096 r } : State).upsetClear 0 4096 r) s

theorem segLive_eq (rs : List Nat) (s : State) :
    ∃ u, s.segLive rs = { s with segL := rs.foldl (fun m r => tabSplice m s.segS 4096 r) s.segL, upset := u } := by
  induction rs generalizing s with
  | nil => exact ⟨_, rfl⟩
  | cons r rs ih =>
    obtain ⟨u, h⟩ := ih (({ s with segL := tabSplice s.segL s.segS 4096 r } : State).upsetClear 0 4096 r)
    exact ⟨u, h⟩

/-- A commit refused for entry `i`. -/
def segRefused (s : State) (i : Nat) : State :=
  (((s.set glbPg F.GLB_SEG_ERR_ENTRY i).set glbPg F.GLB_SEG_ERR_REASON (s.segBad i)).put glbPg F.GLB_SEG_STS_SEG_ERR
    true).rise glbPg X.GLB_SEG_ERR

theorem segCommit_eq (s : State) :
    s.segCommit =
      match s.segTaken.segFirstBad s.segPend with
      | some x => s.segTaken.segRefused (x.1 / 4)
      | none => (({ s.segTaken.segLive s.segPend with segCopy := s.segPend } : State).put glbPg
          F.GLB_SEG_STS_SEG_BUSY true).put glbPg F.PG_STS_BUSY true := rfl

/-- Regions whose entries are all valid become live. -/
theorem segCommit_valid {s : State}
    (h : ∀ x ∈ s.segS, s.segPend.contains (x.1 / 4096) = true → s.segBad (x.1 / 4) = 0) :
    s.segCommit = (({ s.segTaken.segLive s.segPend with segCopy := s.segPend } : State).put glbPg
      F.GLB_SEG_STS_SEG_BUSY true).put glbPg F.PG_STS_BUSY true := by
  have hnone : s.segTaken.segFirstBad s.segPend = none := segFirstBad_none h
  rw [segCommit_eq, hnone]

/-- An invalid entry in a region of the commit refuses the whole. -/
theorem segCommit_invalid {s : State}
    (h : ∃ x ∈ s.segS, s.segPend.contains (x.1 / 4096) = true ∧ s.segBad (x.1 / 4) ≠ 0) :
    ∃ i, s.segCommit = s.segTaken.segRefused i := by
  obtain ⟨x, hx⟩ : ∃ x, s.segTaken.segFirstBad s.segPend = some x := segFirstBad_some h
  exact ⟨x.1 / 4, by rw [segCommit_eq, hx]⟩

/-- What a refused commit of the segment table shows. -/
theorem segRefused_shows (s : State) (i : Nat) :
    (s.segRefused i).segPend = s.segPend ∧ (s.segRefused i).segL = s.segL ∧
      (s.segRefused i).flag glbPg F.GLB_SEG_STS_SEG_ERR = true ∧ (s.segRefused i).fltBit glbPg X.GLB_SEG_ERR = true := by
  unfold segRefused
  refine ⟨segPend_rise _ _ _, segL_rise _ _ _, ?_, fltBit_rise _ _ (by decide)⟩
  rw [flag_rise_ofs _ _ _ (by decide), flag_put_same _ _ _ _ (by decide) rfl]

/-! ## The slot tables (R329, R330) -/

/-- The first `n` words of the shadow slot table become live. -/
def slotsLive (s : State) (x n : Nat) : State :=
  (List.range n).foldl (fun (s : State) k =>
    { s with slotL := tabPut 0 s.slotL (x * 512 + k) (s.slotShadow x (k / 256) (k % 256)) }) s

theorem slotsLive_eq (s : State) (x n : Nat) :
    s.slotsLive x n = { s with slotL := (List.range n).foldl (fun m k =>
      tabPut 0 m (x * 512 + k) (s.slotShadow x (k / 256) (k % 256))) s.slotL } :=
  List.foldl_hom (fun m => ({ s with slotL := m } : State)) (fun _ _ => rfl)

theorem slotsLive_word (s : State) (x : Nat) {n k : Nat} (hk : k < n) :
    tabGet 0 (s.slotsLive x n).slotL (x * 512 + k) = s.slotShadow x (k / 256) (k % 256) := by
  rw [slotsLive_eq]
  exact (tabGet_foldl_put_range 0 s.slotL (fun k => s.slotShadow x (k / 256) (k % 256)) (x * 512) n k).trans
    (if_pos hk)

theorem slotCommit_valid {s : State} {x : Nat} (h : ∀ n, n < 1024 → (s.taken (xbrPg x)).slotBad x n = 0)
    (ho : (s.taken (xbrPg x)).openRule x = true) :
    s.slotCommit x = (((s.taken (xbrPg x)).slotsLive x 512).put (xbrPg x) F.XBR_STS_SHADOW_BUSY true).put (xbrPg x)
      F.PG_STS_BUSY true := by
  have hnone : (List.range 1024).find? (fun n => (s.taken (xbrPg x)).slotBad x n != 0) = none := by
    rw [List.find?_range_eq_none]
    exact fun n hn => by simp [h n hn]
  unfold slotCommit
  dsimp only
  rw [hnone]
  dsimp only
  rw [ho]
  rfl

/-- The lowest slot that offends by itself refuses the table. -/
theorem slotCommit_invalid {s : State} {x n : Nat} (hn : n < 1024) (hbad : (s.taken (xbrPg x)).slotBad x n ≠ 0)
    (hlow : ∀ m, m < n → (s.taken (xbrPg x)).slotBad x m = 0) :
    s.slotCommit x =
      (((((s.taken (xbrPg x)).set (xbrPg x) F.XBR_SLOT_ERR_SLOT n).set (xbrPg x) F.XBR_SLOT_ERR_REASON
        ((s.taken (xbrPg x)).slotBad x n)).put (xbrPg x) F.XBR_STS_SLOT_ERR true).rise (xbrPg x) X.XBR_SLOT_ERR) := by
  have hsome : (List.range 1024).find? (fun n => (s.taken (xbrPg x)).slotBad x n != 0) = some n := by
    rw [List.find?_range_eq_some]
    exact ⟨by simp [hbad], List.mem_range.2 hn, fun m hm => by simp [hlow m hm]⟩
  unfold slotCommit
  dsimp only
  rw [hsome]

/-! ## The end of a copy (R82) -/

theorem copyDone_none {s : State} {p : Nat} (h : s.resetting.contains p = true ∨ s.flag p F.PG_STS_BUSY = false) :
    s.copyDone p = s := by
  unfold copyDone
  rw [if_pos]
  rcases h with h | h <;> simp only [h, Bool.not_false, Bool.true_or, Bool.or_true]

theorem copyDone_busy {s : State} {p : Nat} (hr : s.resetting.contains p = false) (hb : s.flag p F.PG_STS_BUSY = true) :
    s.copyDone p =
      let u := s.put p F.PG_STS_BUSY false
      if p / 256 = T.glb then ({ u with segCopy := [] } : State).put p F.GLB_SEG_STS_SEG_BUSY false
      else if p / 256 = T.chn then u.put p F.CHN_STS_SHADOW_BUSY false
      else if p / 256 = T.xbr then u.put p F.XBR_STS_SHADOW_BUSY false
      else if p / 256 = T.cal then u.put p F.CAL_STS_COPY_BUSY false
      else u := by
  unfold copyDone
  rw [if_neg (by rw [hr, hb]; decide)]

end State

end Sys2Proof.Machine

namespace Sys2Proof

open Sys2Proof.Machine Sys2Proof.Machine.State

theorem does_tableCommit {s t : State} {p : PageNo} (e : s.tableCommit p.toNat = t) : Does (.tableCommit p) s t :=
  Does.of rfl e

theorem does_shadowCopyDone {s t : State} {p : PageNo} (e : s.copyDone p.toNat = t) : Does (.shadowCopyDone p) s t :=
  Does.of rfl e

/-- Settles O14: table by table, the commit of a valid and of an invalid shadow copy, and the end of a copy. -/
theorem tableCommitsCopyShadows : Obligations.TableCommitsCopyShadows := by
  unfold Obligations.TableCommitsCopyShadows
  refine ⟨⟨?notDue, ?wft, ?dds, ?cal, ?seg, ?slot⟩, ?copy⟩
  case notDue => exact fun s p h => does_tableCommit (tableCommit_not_due h)
  case wft =>
    intro s p c hpg hc hp hw
    have he := tableCommit_chn hp hpg hc hw
    rw [hpg]
    exact ⟨fun h => does_tableCommit (he.trans (wftCommit_valid h)),
      fun h => does_tableCommit (he.trans (wftCommit_invalid h))⟩
  case dds =>
    intro s p e hpg hlt hp hw
    have he := tableCommit_dds hp hpg hlt hw
    rw [hpg]
    refine ⟨fun h hno => does_tableCommit (he.trans (ddsCommit_clean h hno)),
      fun h => ⟨_, does_tableCommit (he.trans (ddsCommit_valid h)), ?_, ?_, fun x hx h2 => ?_⟩,
      fun h => does_tableCommit (he.trans (ddsCommit_invalid h))⟩
    · rw [put_ddsL, ddsL_passErrs, ddsL_ddsReadErrs]
    · exact flag_put_same _ _ _ _ (by decide) rfl
    · exact eccOf_passErrs hx h2 _
  case cal =>
    intro s p hpg hp
    have he := tableCommit_cal hp hpg
    rw [hpg]
    exact ⟨fun r x h => does_tableCommit (he.trans (calCommit_invalid h)),
      fun h => does_tableCommit (he.trans (calCommit_valid h))⟩
  case seg =>
    intro s p hpg hp
    have he : s.tableCommit p.toNat = s.segCommit := tableCommit_glb (by rw [hpg]; exact hp) hpg
    refine ⟨fun h => ⟨_, does_tableCommit (he.trans (segCommit_valid h)), ?_⟩, fun h => ?_⟩
    · obtain ⟨u, hlive⟩ := segLive_eq s.segPend s.segTaken
      rw [hlive]
      refine ⟨rfl, rfl, flag_put_same _ _ _ _ (by decide) rfl, ?_,
        fun k => tabGet_splices 0 s.segS 4096 k s.segPend s.segL⟩
      rw [flag_put_ofs _ _ _ _ _ (by decide), flag_put_same _ _ _ _ (by decide) rfl]
    · obtain ⟨i, hi⟩ := segCommit_invalid h
      exact ⟨_, does_tableCommit (he.trans hi), segRefused_shows s.segTaken i⟩
  case slot =>
    intro s p x hpg hx hp
    have he := tableCommit_xbr hp hpg hx
    rw [hpg]
    refine ⟨fun h ho => ⟨_, does_tableCommit (he.trans (slotCommit_valid h ho)), ?_, ?_, ?_, fun k hk => ?_⟩,
      fun n hn hbad hlow => does_tableCommit (he.trans (slotCommit_invalid hn hbad hlow))⟩
    · rw [put_now, put_now, slotsLive_eq]
      rfl
    · exact flag_put_same _ _ _ _ (by decide) rfl
    · rw [flag_put_ofs _ _ _ _ _ (by decide), flag_put_same _ _ _ _ (by decide) rfl]
    · rw [put_slotL, put_slotL, slotsLive_word _ x hk]
      rfl
  case copy =>
    exact fun s p => ⟨fun h => does_shadowCopyDone (copyDone_none h),
      fun hr hb => does_shadowCopyDone (copyDone_busy hr hb)⟩

end Sys2Proof

/-!
The sequencers (R30 to R35, R107, R148, R154, R158 to R165): vector boundaries, writes of EYE_SEQ_CTL, the software
flags and the synchronisation time.
-/
namespace Sys2Proof.Machine

open Sys2Proof

/-! ## The bits of a written word -/

/-- A command bit written 1 shows in the three command bits of EYE_SEQ_CTL. -/
theorem seqBits_ne_zero {w : W32} {i : Nat} (hi : i < 3) (h : w.getLsbD i = true) : fget w 2 0 ≠ 0 := by
  intro h0
  have hbit : (fget w 2 0).testBit i = true := by
    have hmask : ∀ i < 3, (BitVec.allOnes 32 >>> (31 - (2 - 0)) : W32).getLsbD i = true := by decide
    rw [fget, BitVec.testBit_toNat, BitVec.getLsbD_and, hmask i hi, BitVec.ushiftRight_zero, h, Bool.and_self]
  simp [h0] at hbit

/-- STOP and ABORT are bits 1 and 2. -/
theorem and_six_eq_zero_iff (v : W32) : v &&& 6 = 0 ↔ v.getLsbD 1 = false ∧ v.getLsbD 2 = false := by
  constructor
  · intro h
    have hbit (i : Nat) : (v &&& 6).getLsbD i = false := by
      rw [h]
      exact BitVec.getLsbD_zero
    exact ⟨by simpa using hbit 1, by simpa using hbit 2⟩
  · rintro ⟨h1, h2⟩
    have hrest : ∀ i < 32, i ≠ 1 → i ≠ 2 → (6 : W32).getLsbD i = false := by decide
    refine BitVec.eq_of_getLsbD_eq fun i hi => ?_
    rw [BitVec.getLsbD_and, show (0 : W32).getLsbD i = false from BitVec.getLsbD_zero]
    by_cases e1 : i = 1
    · rw [e1, h1, Bool.false_and]
    · by_cases e2 : i = 2
      · rw [e2, h2, Bool.false_and]
      · rw [hrest i hi e1 e2, Bool.and_false]

/-- Whether STOP or ABORT stands beside the GO of a written word. -/
theorem go_alone_iff (v : W32) : ((v ||| 1).getLsbD 1 || (v ||| 1).getLsbD 2) = false ↔ v &&& 6 = 0 := by
  have h1 : (v ||| 1).getLsbD 1 = v.getLsbD 1 := by simp
  have h2 : (v ||| 1).getLsbD 2 = v.getLsbD 2 := by simp
  rw [h1, h2, Bool.or_eq_false_iff, and_six_eq_zero_iff]

namespace State

/-! ## The next vector boundary of a group (R30 to R35, R107, R162) -/

/-- The group's next boundary stands: corrections move, and takeovers decided 32 UI before are carried out. -/
def atBoundary (s : State) (g : Group) : State :=
  g.members.foldl (fun x m => x.takeDue g.at_ m) (g.members.foldl calVector (s.upToQ (g.leader / 4) g.at_))

/-- An ABORT has fallen due by the group's next boundary. -/
abbrev AbortDue (g : Group) : Prop := ∃ a, g.abortAt = some a ∧ a ≤ g.at_

/-- What a boundary without an ABORT plays. -/
def playOn (u : State) (g : Group) : State :=
  if g.holdLeft > 0 then u.holdVector g
  else if g.begun = true ∧ g.vec = g.cur.length then u.segBoundary g
  else if g.vec % 64 = 0 then u.granBoundary g
  else u.playVector g

theorem groupVector_aborted (s : State) {g : Group} (h : AbortDue g) :
    s.groupVector g =
      (((s.atBoundary g).missMark g).groupFlag g F.EYE_SEQ_STS_ABORTED true).stopGroup g 2 false := by
  obtain ⟨a, ha, hle⟩ := h
  unfold groupVector
  simp only [ha, hle, decide_true, if_true]
  rfl

theorem groupVector_plays (s : State) {g : Group} (h : ¬ AbortDue g) : s.groupVector g = (s.atBoundary g).playOn g := by
  unfold groupVector playOn
  cases ha : g.abortAt with
  | none => simp only [Bool.false_eq_true, if_false, Bool.and_eq_true, beq_iff_eq]; rfl
  | some a =>
    have hle : ¬ a ≤ g.at_ := fun hle => h ⟨a, ha, hle⟩
    simp only [hle, decide_false, Bool.false_eq_true, if_false, Bool.and_eq_true, beq_iff_eq]
    rfl

theorem groupVector_eq (s : State) (g : Group) [Decidable (AbortDue g)] :
    s.groupVector g =
      if AbortDue g then
        (((s.atBoundary g).missMark g).groupFlag g F.EYE_SEQ_STS_ABORTED true).stopGroup g 2 false
      else (s.atBoundary g).playOn g := by
  split
  next h => exact groupVector_aborted s h
  next h => exact groupVector_plays s h

/-! ## A write of EYE_SEQ_CTL (R154, R158 to R162) -/

/-- Site masks of sites in no group come into force at a write of the first comparator page. -/
def idleMasks (s : State) (p : Nat) : State :=
  if p = pg T.cmp 0 then
    (List.range 128).foldl (fun s i => if s.groups.any (fun g => g.sites.contains i) then s else s.siteMaskForce i) s
  else s

theorem idleForce_eq (s : State) (p : Nat) :
    s.idleForce p =
      if p / 256 = T.chn ∨ p / 256 = T.eye ∨ p / 256 = T.cmp then
        if ((s.idleMasks p).groupOf (pageEye p)).isSome then s.idleMasks p
        else if p / 256 = T.cmp then ((s.idleMasks p).inForce p 0x100).inForce p 0x108
        else (s.idleMasks p).inForceRange p 0 0x1000
      else s := rfl

theorem regs_idleMasks (s : State) (p : Nat) : (s.idleMasks p).regs = s.regs := by
  unfold idleMasks
  split
  · refine List.foldlRecOn _ _ (motive := fun t : State => t.regs = s.regs) rfl fun t ht i _ => ?_
    split <;> exact ht
  · rfl

/-- Values that come into force leave the registers as written. -/
theorem regs_idleForce (s : State) (p : Nat) : (s.idleForce p).regs = s.regs := by
  rw [idleForce_eq]
  split
  · split
    · exact regs_idleMasks s p
    · split <;> exact regs_idleMasks s p
  · rfl

theorem rd_idleForce (s : State) (p q a : Nat) : (s.idleForce p).rd q a = s.rd q a := by
  rw [rd, regs_idleForce, rd]

theorem flag_idleForce (s : State) (p q : Nat) (f : Fld) : (s.idleForce p).flag q f = s.flag q f := by
  rw [flag, get, rd_idleForce, flag, get]

/-- The register EYE_SEQ_CTL. -/
def seqCtlReg : Reg := ⟨0x100, 1, 0x1000, 1, 4, false,
  [F.EYE_SEQ_CTL_GO, F.EYE_SEQ_CTL_STOP, F.EYE_SEQ_CTL_ABORT, F.EYE_SEQ_CTL_START_MODE, F.EYE_SEQ_CTL_START_TAG,
    F.EYE_SEQ_CTL_AUTO_MASK, F.EYE_SEQ_CTL_MATCH_MODE, F.EYE_SEQ_CTL_MATCH_FAIL, F.EYE_SEQ_CTL_SYNC_LATE_ACT,
    F.EYE_SEQ_CTL_SYNC_TAG, F.EYE_SEQ_CTL_SYNC_LACE_EN]⟩

theorem findReg_seqCtl : ∀ e : Eye, findReg (eyePg e.val) 0x100 = some seqCtlReg := by decide

/-- EYE_SEQ_CTL has neither W1C nor W1S bits. -/
theorem w1Word_seqCtl (s : State) (p o : Nat) (v : W32) : s.w1Word p o seqCtlReg v = s.rd p o := by
  have hc : seqCtlReg.mask [.w1c] = 0#32 := by decide
  have hs : seqCtlReg.mask [.w1s] = 0#32 := by decide
  rw [w1Word, hc, hs, BitVec.and_zero, BitVec.or_zero, BitVec.not_zero, BitVec.and_allOnes]

/-- A write of EYE_SEQ_CTL that is refused. -/
theorem seqCtl_refusedWrite (s : State) (e : Eye) (w : W32) :
    s.writeReg (eyePg e.val) 0x100 w true =
      ((s.wr (eyePg e.val) 0x100 (s.rd (eyePg e.val) 0x100)).refuse (eyePg e.val) 0x100).idleForce (eyePg e.val) := by
  rw [writeReg, writeAt, findReg_seqCtl e, ← w1Word_seqCtl s _ _ w]
  rfl

theorem seqCtl_refused_keeps (s : State) (e : Eye) (w : W32) :
    (s.writeReg (eyePg e.val) 0x100 w true).rd (eyePg e.val) 0x100 = s.rd (eyePg e.val) 0x100 ∧
      (s.writeReg (eyePg e.val) 0x100 w true).flag (eyePg e.val) F.PG_STS_CFG_ERR = true := by
  rw [seqCtl_refusedWrite, rd_idleForce, flag_idleForce, refuse]
  constructor
  · rw [rd_set_ofs _ _ _ _ _ (by decide), rd_put_ofs _ _ _ _ _ (by decide), rd_wr_same]
  · rw [flag_set_ofs _ _ _ _ _ (by decide), flag_put_same _ _ _ _ (by decide) rfl]

/-- ABORT and STOP of a written word: ABORT goes before STOP. -/
def seqHeld (s : State) (e : Nat) (w : W32) : State :=
  if w.getLsbD 2 then s.abortSeq e else if w.getLsbD 1 then s.stopSeq e else s

theorem seqCtl_follower {s : State} {e : Nat} {w : W32} (hf : s.flag (eyePg e) F.EYE_SEQ_STS_FOLLOWER = true)
    (hw : fget w 2 0 ≠ 0) : s.seqCtl e w = s.writeReg (eyePg e) 0x100 w true := by
  simp [seqCtl, hf, hw]

section

variable {s : State} {e : Nat} {w : W32} (hf : s.flag (eyePg e) F.EYE_SEQ_STS_FOLLOWER = false)
include hf

theorem seqCtl_leader (hw : fget w 2 0 ≠ 0) :
    s.seqCtl e w =
      let u := (s.writeReg (eyePg e) 0x100 w false).seqHeld e w
      if w.getLsbD 0 then (u.goSeq e (w.getLsbD 0 && (w.getLsbD 1 || w.getLsbD 2)) []).1 else u := by
  simp only [seqCtl, hf, hw, Bool.and_false, Bool.or_false, decide_false, Bool.false_eq_true, if_false]
  rfl

/-- GO beside STOP or ABORT, or without them. -/
theorem seqCtl_go (hw : w.getLsbD 0 = true) :
    s.seqCtl e w =
      (((s.writeReg (eyePg e) 0x100 w false).seqHeld e w).goSeq e (w.getLsbD 1 || w.getLsbD 2) []).1 := by
  rw [seqCtl_leader hf (seqBits_ne_zero (by decide) hw)]
  simp only [hw, if_true, Bool.true_and]

theorem seqCtl_noGo {i : Nat} (hi : i < 3) (hi' : w.getLsbD i = true) (hw : w.getLsbD 0 = false) :
    s.seqCtl e w = (s.writeReg (eyePg e) 0x100 w false).seqHeld e w := by
  rw [seqCtl_leader hf (seqBits_ne_zero hi hi')]
  simp only [hw, Bool.false_eq_true, if_false]

end

/-- The start time that a GO names; in mode 1 the group waits for the lace. -/
def goTime (s : State) (e : Nat) : Option Nat :=
  if s.flag (eyePg e) F.EYE_SEQ_CTL_START_MODE then none
  else some (s.get64 (eyePg e) F.EYE_SEQ_START_LO_T F.EYE_SEQ_START_HI_T)

/-- STOP or ABORT in the same write refuses the start before any other situation. -/
theorem goSeq_both (s : State) (e : Nat) : (s.goSeq e true []).1 = s.startRefused e 10 := by
  simp [goSeq, startReason]

theorem goSeq_starts {s : State} {e : Nat} (h : s.startReason e false (s.goTime e) = 0) :
    (s.goSeq e false []).1 = s.startGroup e (s.goTime e) [] :=
  congrArg Prod.fst (if_pos h)

theorem goSeq_refused {s : State} {e : Nat} (h : s.startReason e false (s.goTime e) ≠ 0) :
    (s.goSeq e false []).1 =
      (if s.startReason e false (s.goTime e) = 4 ∧ s.get (eyePg e) F.EYE_SEQ_FIRST_ENTRY ≠ 0 then
        s.segRead (s.get (eyePg e) F.EYE_SEQ_FIRST_ENTRY) else s).startRefused e (s.startReason e false (s.goTime e)) :=
  congrArg Prod.fst (if_neg h)

section

variable {s : State} {e : Nat} {g : Group} (hg : s.ledBy e = some g)
include hg

theorem stopSeq_running (h : g.st = .running) : s.stopSeq e = s.keep { g with stopPend := true } := by
  simp only [stopSeq, hg, h]

theorem abortSeq_running (h : g.st = .running) :
    s.abortSeq e = s.keep { g with abortAt := some (g.abortAt.getD (s.nowQ (g.leader / 4) + 32 * 1024)) } := by
  simp only [abortSeq, hg, h]

theorem stopSeq_idle (h : g.st ≠ .running) : s.stopSeq e = s.stopGroup { g with latch := [] } 1 false := by
  rw [stopSeq, hg]
  dsimp only
  split
  next h' => exact absurd h' h
  next => rfl

theorem abortSeq_idle (h : g.st ≠ .running) :
    s.abortSeq e = (s.groupFlag g F.EYE_SEQ_STS_ABORTED true).stopGroup g 2 false := by
  rw [abortSeq, hg]
  dsimp only
  split
  next h' => exact absurd h' h
  next => rfl

end

/-! ## Software flags and the synchronisation time (R148, R163 to R165) -/

theorem seqFlag_none {s : State} {e : Nat} (v : W32) (h : s.groupOf e = none) : s.seqFlag e v = s := by
  rw [seqFlag, h]

theorem seqFlag_group {s : State} {e : Nat} {g : Group} (v : W32) (h : s.groupOf e = some g) :
    s.seqFlag e v = s.setGroup (s.latchIn g 9 v.toNat) := by
  rw [seqFlag, h]

/-- AT stands armed with the instant of its write. -/
def atArmed (s : State) (e at_ : Nat) : State :=
  (s.setEye e { s.eyeOf e with sync := some (at_, s.nowQ (e / 4)) }).put (eyePg e) F.EYE_SEQ_STS_AT_ARMED true

theorem syncArm_none {s : State} {e : Nat} (at_ : Nat) (h : s.ledBy e = none) : s.syncArm e at_ = s.atArmed e at_ := by
  have h' : (s.atArmed e at_).ledBy e = none := h
  unfold syncArm
  dsimp only
  rw [← atArmed, h']

theorem syncArm_group {s : State} {e : Nat} {g : Group} (at_ : Nat) (h : s.ledBy e = some g) :
    s.syncArm e at_ =
      if g.st = .waiting ∧ (at_ * 1024 < g.at_ ∨ at_ * 1024 < (s.atArmed e at_).nowQ (e / 4) + 32 * 1024) then
        (s.atArmed e at_).syncLate g
      else s.atArmed e at_ := by
  have h' : (s.atArmed e at_).ledBy e = some g := h
  unfold syncArm
  dsimp only
  rw [← atArmed, h']

/-- A refused write of EYE_SYNC_AT_HI arms nothing. -/
theorem syncWrite_dropped {s : State} {e : Nat} {v : W32} (h : (writeAt s (eyePg e) 0x120 v false).2 = false) :
    s.syncWrite e v = (writeAt s (eyePg e) 0x120 v false).1.idleForce (eyePg e) :=
  if_neg (ne_true_of_eq_false h)

theorem syncWrite_taken {s : State} {e : Nat} {v : W32} (h : (writeAt s (eyePg e) 0x120 v false).2 = true) :
    s.syncWrite e v =
      let u := (writeAt s (eyePg e) 0x120 v false).1.idleForce (eyePg e)
      u.syncArm e (u.get64 (eyePg e) F.EYE_SYNC_AT_LO_AT_L F.EYE_SYNC_AT_HI_AT_H) := if_pos h

theorem syncReached_waiting {s : State} {e : Nat} {g : Group} {t arm : Nat} (hg : s.ledBy e = some g)
    (hw : g.st = .waiting) (ht : (s.eyeOf g.leader).sync = some (t, arm)) :
    s.syncReached e =
      ((s.upToQ (g.leader / 4) (t * 1024)).syncUsed g).granBoundary { g with st := .running, at_ := t * 1024 } := by
  simp only [syncReached, hg, syncAt, ht, hw, if_true]

theorem syncReached_none {s : State} {e : Nat}
    (h : ∀ g, s.ledBy e = some g → g.st ≠ .waiting ∨ (s.eyeOf g.leader).sync = none) : s.syncReached e = s := by
  unfold syncReached syncAt
  split
  next => rfl
  next g hg =>
    split
    next => rfl
    next t arm ht =>
      refine if_neg ?_
      rcases h g hg with hst | hno
      · exact hst
      · rw [hno] at ht
        cases ht

end State

end Sys2Proof.Machine

namespace Sys2Proof

open Sys2Proof.Machine Sys2Proof.Machine.State

/-! ## The commands -/

section

variable {s : State} {e : Eye}

theorem does_boundary_none (hg : s.groupOf e.val = none) : Does (.vectorBoundary e) s s ∧ Does (.seqStartTime e) s s :=
  ⟨Does.of rfl (by rw [hg]), Does.of rfl (by rw [hg])⟩

variable {g : Group}

theorem does_vectorBoundary (hg : s.groupOf e.val = some g) :
    Does (.vectorBoundary e) s
      (if g.st = .running ∧ (g.begun = true ∨ g.holds ≠ 0) then s.groupVector g else s) :=
  Does.of rfl (by rw [hg])

theorem does_seqStartTime (hg : s.groupOf e.val = some g) :
    Does (.seqStartTime e) s (if g.st = .running ∧ ¬ g.begun = true ∧ g.holds = 0 then s.groupVector g else s) :=
  Does.of rfl (by rw [hg])

variable {v : W32} {t : State} (hR : Reaches s (eyePg e.val))
include hR

theorem does_go (h : s.seqCtl e.val (v ||| 1) = t) : Does (.go e v) s t :=
  Does.of rfl ((onPage_reaches _ _ _ hR).trans h)

theorem does_seqStop (h : s.seqCtl e.val (v ||| 2) = t) : Does (.seqStop e v) s t :=
  Does.of rfl ((onPage_reaches _ _ _ hR).trans h)

theorem does_abort (h : s.seqCtl e.val (v ||| 4) = t) : Does (.abort e v) s t :=
  Does.of rfl ((onPage_reaches _ _ _ hR).trans h)

theorem does_swflag (h : s.seqFlag e.val v = t) : Does (.swflag e v) s t :=
  Does.of rfl ((onPage_reaches _ _ _ hR).trans h)

theorem does_syncAtArm (h : s.syncWrite e.val v = t) : Does (.syncAtArm e v) s t :=
  Does.of rfl ((onPage_reaches _ _ _ hR).trans h)

end

theorem does_syncAtReached {s t : State} {e : Eye} (h : s.syncReached e.val = t) : Does (.syncAtReached e) s t :=
  Does.of rfl h

/-- Settles O24: the boundaries of a group, the writes of EYE_SEQ_CTL, and the flags and AT. -/
theorem sequencersPlayAndStop : Obligations.SequencersPlayAndStop := by
  unfold Obligations.SequencersPlayAndStop
  refine ⟨?boundaries, ?controls, ?syncs⟩
  case boundaries =>
    intro s e
    refine ⟨does_boundary_none, fun g hg => ?_⟩
    have hv := does_vectorBoundary hg
    have ht := does_seqStartTime hg
    rw [groupVector_eq] at hv ht
    refine ⟨fun hst => ⟨?_, ?_⟩, fun hst hon => ⟨?_, ?_⟩, fun hst hb hh => ⟨?_, ?_⟩⟩
    · rwa [if_neg fun h => hst h.1] at hv
    · rwa [if_neg fun h => hst h.1] at ht
    · rwa [if_pos ⟨hst, hon⟩] at hv
    · rwa [if_neg fun h => hon.elim h.2.1 fun h' => h' h.2.2] at ht
    · rwa [if_neg fun h => h.2.elim (by simp [hb]) fun h' => h' hh] at hv
    · rwa [if_pos ⟨hst, by simp [hb], hh⟩] at ht
  case controls =>
    intro s e v hR
    refine ⟨fun hf => ⟨?_, ?_, ?_, seqCtl_refused_keeps s e⟩,
      fun hf => ⟨fun hv => ?_, fun hv hr => ?_, fun hv hr => ?_⟩,
      fun hf hv => ?_, fun hf hv => ?_, fun u g hg => ⟨fun hst => ?_, fun hst => ?_⟩⟩
    · exact does_go hR (seqCtl_follower hf (seqBits_ne_zero (i := 0) (by decide) (by simp)))
    · exact does_seqStop hR (seqCtl_follower hf (seqBits_ne_zero (i := 1) (by decide) (by simp)))
    · exact does_abort hR (seqCtl_follower hf (seqBits_ne_zero (i := 2) (by decide) (by simp)))
    · have hboth := (Bool.not_eq_false _).mp (mt (go_alone_iff v).1 hv)
      exact does_go hR ((seqCtl_go hf (by simp)).trans (by rw [hboth]; exact goSeq_both _ _))
    · exact does_go hR ((seqCtl_go hf (by simp)).trans (by rw [(go_alone_iff v).2 hv]; exact goSeq_starts hr))
    · exact does_go hR ((seqCtl_go hf (by simp)).trans (by rw [(go_alone_iff v).2 hv]; exact goSeq_refused hr))
    · have h0 : (v ||| 2).getLsbD 0 = v.getLsbD 0 := by simp
      exact does_seqStop hR (seqCtl_noGo hf (i := 1) (by decide) (by simp) (h0.trans hv))
    · have h0 : (v ||| 4).getLsbD 0 = v.getLsbD 0 := by simp
      exact does_abort hR ((seqCtl_noGo hf (i := 2) (by decide) (by simp) (h0.trans hv)).trans (if_pos (by simp)))
    · exact ⟨stopSeq_running hg hst, abortSeq_running hg hst⟩
    · exact ⟨stopSeq_idle hg hst, abortSeq_idle hg hst⟩
  case syncs =>
    intro s e v
    refine ⟨fun hR h => does_swflag hR (seqFlag_none v h), fun hR g hg => does_swflag hR (seqFlag_group v hg),
      fun hR => ⟨fun h => does_syncAtArm hR (syncWrite_dropped h), fun h hu => ?_, fun h g hu => ?_⟩,
      fun g hg hw t arm ht => does_syncAtReached (syncReached_waiting hg hw ht),
      fun h => does_syncAtReached (syncReached_none h)⟩
    · exact does_syncAtArm hR ((syncWrite_taken h).trans (syncArm_none _ hu))
    · exact does_syncAtArm hR ((syncWrite_taken h).trans (syncArm_group _ hu))

end Sys2Proof

/-!
The reference, the PLLs and the start of the timeline (R43 to R47, R72), and the REFCAL capture (R371).
-/
namespace Sys2Proof.Machine

open Sys2Proof

namespace State

/-! ## What moving the timeline forward keeps -/

@[simp] theorem upTo_flag (s : State) (t p : Nat) (f : Fld) : (s.upTo t).flag p f = s.flag p f := by
  unfold upTo; split <;> rfl

@[simp] theorem upTo_trim (s : State) (t : Nat) : (s.upTo t).trim = s.trim := by unfold upTo; split <;> rfl

@[simp] theorem upTo_holdover (s : State) (t : Nat) : (s.upTo t).holdover = s.holdover := upTo_flag s t _ _

/-- Two fields of one register with no bit in common. -/
abbrev Beside (f g : Fld) : Prop :=
  f.ofs = g.ofs ∧ f.hi < 32 ∧ f.lo ≤ f.hi ∧ g.hi < 32 ∧ g.lo ≤ g.hi ∧ (f.hi < g.lo ∨ g.hi < f.lo)

theorem get_set_beside (s : State) (p : Nat) (f g : Fld) (v : Nat) (h : Beside f g) :
    (s.set p f v).get p g = s.get p g := by
  obtain ⟨hofs, hf, hfl, hg, hgl, hbits⟩ := h
  exact get_set_bits s p f g v hofs hf hfl hg hgl hbits

theorem flag_set_beside (s : State) (p : Nat) (f g : Fld) (v : Nat) (h : Beside f g) :
    (s.set p f v).flag p g = s.flag p g := by rw [flag, get_set_beside _ _ _ _ _ h, flag]

/-! ## The reference (R43, R45) -/

/-- Holdover begins: its length counts from here. -/
def holdBegun (s : State) : State :=
  let u := (s.put tbsPg F.TBS_REF_STS_REF_PRESENT false).put tbsPg F.TBS_REF_STS_HOLDOVER true
  { u with lace := { u.lace with holdT := s.mono } }

/-- HOLD_US shows how long the holdover in progress has lasted. -/
def holdShown (s : State) : State :=
  s.set tbsPg F.TBS_REF_STS_HOLD_US (min 65535 ((s.mono - s.lace.holdT) / 6553600))

theorem holdSync_holdover {s : State} (h : s.holdover = true) : s.holdSync = s.holdShown := if_pos h

theorem holdBegun_holdover (s : State) : s.holdBegun.holdover = true :=
  flag_put_same (s.put tbsPg F.TBS_REF_STS_REF_PRESENT false) tbsPg F.TBS_REF_STS_HOLDOVER true (by decide) rfl

/-- A holdover that has just begun has lasted 0 µs. -/
theorem holdBegun_shown (s : State) : s.holdBegun.holdShown = s.holdBegun.set tbsPg F.TBS_REF_STS_HOLD_US 0 := by
  have h0 : s.holdBegun.mono - s.holdBegun.lace.holdT = 0 := Nat.sub_self s.mono
  rw [holdShown, h0]
  rfl

theorem refLoss_present {s : State} (h : s.flag tbsPg F.TBS_REF_STS_REF_PRESENT = true) :
    s.refLoss = (s.holdBegun.set tbsPg F.TBS_REF_STS_HOLD_US 0).rise tbsPg X.TBS_REF_LOSS := by
  rw [← holdBegun_shown, ← holdSync_holdover s.holdBegun_holdover]
  exact if_pos h

theorem refLoss_absent {s : State} (h : s.flag tbsPg F.TBS_REF_STS_REF_PRESENT = false) : s.refLoss = s :=
  if_neg (by simp [h])

/-- The edges of the returned reference fall at a phase of the timeline (R48). -/
def atPhase (s : State) (ph : BitVec 16) : State := { s with lace := { s.lace with phase := ph.toNat } }

theorem refReturn_holdover {s : State} (ph : BitVec 16) (h : s.holdover = true) :
    s.refReturn ph.toNat =
      (((s.atPhase ph).holdShown.put tbsPg F.TBS_REF_STS_REF_PRESENT true).put tbsPg F.TBS_REF_STS_HOLDOVER false).put
        tbsPg F.TBS_REF_STS_ALIGNED false := by
  have hph : ph.toNat % 65536 = ph.toNat := Nat.mod_eq_of_lt ph.isLt
  have hhold : (s.atPhase ph).holdover = true := h
  rw [← holdSync_holdover hhold, refReturn, if_pos h, hph, atPhase]

theorem refLong_holdover {s : State} (h : s.holdover = true) :
    s.refLong = (s.upToMono (s.lace.holdT + 6400000 * 1024)).holdShown.rise tbsPg X.TBS_REF_LONG := by
  have hhold : (s.upToMono (s.lace.holdT + 6400000 * 1024)).holdover = true := by rw [upToMono, upTo_holdover, h]
  rw [← holdSync_holdover hhold]
  exact if_pos h

/-- Outside holdover the reference does not return, and no holdover grows long. -/
theorem refReturn_refLong_none {s : State} (ph : Nat) (h : s.holdover = false) :
    s.refReturn ph = s ∧ s.refLong = s :=
  ⟨if_neg (by simp [h]), if_neg (by simp [h])⟩

/-! ## The start of the timeline (R47) -/

theorem timelineStart_starts {s : State} (hoff : s.tlOn = false) (hq : s.get tbsPg F.TBS_REF_STS_QPLL_LOCK = 15)
    (hc : s.flag tbsPg F.TBS_REF_STS_CPLL_LOCK = true) :
    s.timelineStart = { s with tlOn := true, era := s.mono, now := 0, lace := { s.lace with phase := 0 } } :=
  if_pos (by simp [pllsLocked, hoff, hq, hc])

theorem timelineStart_none {s : State} (h : s.tlOn = true ∨ s.pllsLocked = false) : s.timelineStart = s :=
  if_neg (by rcases h with h | h <;> simp [h])

/-! ## The REFCAL capture (R371) -/

/-- The register TBS_REFCAL_CTL. -/
def refcalCtlReg : Reg := ⟨0x138, 1, 0x1000, 1, 4, false, [F.TBS_REFCAL_CTL_CAP_ARM, F.TBS_REFCAL_CTL_CAP_DONE]⟩

/-- A write with CAP_ARM 1 clears CAP_DONE beside the write of the register. -/
theorem refcalCtl_eq (s : State) {v : W32} (hv : v.getLsbD 0 = true) :
    s.refcalCtl v = (regWrite s tbsPg 0x138 refcalCtlReg v false (s.enabled tbsPg)).1.put tbsPg
      F.TBS_REFCAL_CTL_CAP_DONE false := by
  have hr : findReg tbsPg 0x138 = some refcalCtlReg := by decide
  have hidle (u : State) : u.idleForce tbsPg = u := rfl
  simp only [refcalCtl, writeReg, writeAt, hr, hidle, hv, if_true]

theorem refcalCtl_arms (s : State) {v : W32} (hv : v.getLsbD 0 = true) :
    (s.refcalCtl v).flag tbsPg F.TBS_REFCAL_CTL_CAP_ARM = true := by
  rw [refcalCtl_eq s hv, put, flag_set_beside _ _ _ _ _ (by decide),
    flag_eq_getLsbD _ _ _ rfl]
  exact regWrite_w1s_bit s _ _ (by decide) (by decide) (by decide) hv

theorem refcalCtl_clears (s : State) {v : W32} (hv : v.getLsbD 0 = true) :
    (s.refcalCtl v).flag tbsPg F.TBS_REFCAL_CTL_CAP_DONE = false := by
  rw [refcalCtl_eq s hv]
  exact flag_put_same _ _ _ _ (by decide) rfl

theorem regsOnly_refcalCtl (s : State) {v : W32} (hv : v.getLsbD 0 = true) : RegsOnly s (s.refcalCtl v) := by
  rw [refcalCtl_eq s hv]
  exact (regsOnly_regWrite _ _ _ _ _ _ _).put _ _ _

/-- The registers hold a captured instant `v`. -/
def refcalHeld (s : State) (v : Nat) : State :=
  ((s.set tbsPg F.TBS_REFCAL_LO_FRAC (v % 1024 / 2 * 2)).set tbsPg F.TBS_REFCAL_LO_UI_L (v / 1024 % 2 ^ 22)).set tbsPg
    F.TBS_REFCAL_HI_UI_H (v / 1024 / 2 ^ 22 % 2 ^ 32)

/-- The capture is done and no longer armed. -/
def refcalDone (s : State) : State :=
  (s.put tbsPg F.TBS_REFCAL_CTL_CAP_ARM false).put tbsPg F.TBS_REFCAL_CTL_CAP_DONE true

theorem refcalEdge_armed {s : State} (t : Nat) (h : s.flag tbsPg F.TBS_REFCAL_CTL_CAP_ARM = true) :
    s.refcalEdge t = ((s.upTo t).refcalHeld ((t : Int) - s.trim).toNat).refcalDone := by
  rw [← upTo_trim s t]
  exact if_pos ((upTo_flag s t _ _).trans h)

theorem refcalEdge_unarmed {s : State} (t : Nat) (h : s.flag tbsPg F.TBS_REFCAL_CTL_CAP_ARM = false) :
    s.refcalEdge t = s.upTo t := if_neg (by simp [h])

/-- The instant captured, fraction bit 0 at 0. -/
theorem refcalHeld_shows (s : State) (v : Nat) :
    (s.refcalHeld v).get tbsPg F.TBS_REFCAL_LO_FRAC = v % 1024 / 2 * 2 ∧
      (s.refcalHeld v).get tbsPg F.TBS_REFCAL_LO_UI_L = v / 1024 % 2 ^ 22 ∧
      (s.refcalHeld v).get tbsPg F.TBS_REFCAL_HI_UI_H = v / 1024 / 2 ^ 22 % 2 ^ 32 := by
  unfold refcalHeld
  refine ⟨?frac, ?low, ?high⟩
  case frac =>
    rw [get_set_ofs _ _ _ _ _ (by decide), get_set_beside _ _ _ _ _ (by decide),
      get_set_same _ _ _ _ (by decide) (by decide)]
    exact Nat.mod_eq_of_lt (show v % 1024 / 2 * 2 < 1024 by omega)
  case low =>
    rw [get_set_ofs _ _ _ _ _ (by decide), get_set_same _ _ _ _ (by decide) (by decide)]
    exact Nat.mod_mod _ _
  case high =>
    rw [get_set_same _ _ _ _ (by decide) (by decide)]
    exact Nat.mod_mod _ _

/-- TBS_REFCAL_CTL shows that the capture is done; the other registers stay. -/
theorem refcalDone_shows (s : State) :
    s.refcalDone.flag tbsPg F.TBS_REFCAL_CTL_CAP_ARM = false ∧ s.refcalDone.flag tbsPg F.TBS_REFCAL_CTL_CAP_DONE = true ∧
      ∀ f : Fld, 0x138 ≠ f.ofs → s.refcalDone.get tbsPg f = s.get tbsPg f := by
  unfold refcalDone
  refine ⟨?_, flag_put_same _ _ _ _ (by decide) rfl, fun f hf => ?_⟩
  · rw [put, flag_set_beside _ _ _ _ _ (by decide)]
    exact flag_put_same _ _ _ _ (by decide) rfl
  · rw [put, get_set_ofs _ _ _ _ _ hf, put, get_set_ofs _ _ _ _ _ hf]

/-- `t` differs from `s` in the register file only, not in what is held for a boundary. -/
def FileOnly (s t : State) : Prop := ∃ rs, t = { s with regs := rs }

theorem FileOnly.eq {s t : State} (h : FileOnly s t) : t = { s with regs := t.regs } := by
  obtain ⟨rs, rfl⟩ := h
  rfl

theorem FileOnly.set {s t : State} (h : FileOnly s t) (p : Nat) (f : Fld) (v : Nat) : FileOnly s (t.set p f v) := by
  obtain ⟨rs, rfl⟩ := h
  exact ⟨_, rfl⟩

/-- A capture changes registers only. -/
theorem fileOnly_refcal (s : State) (v : Nat) : FileOnly s (s.refcalHeld v).refcalDone := by
  have hsame : FileOnly s s := ⟨s.regs, rfl⟩
  have hheld : FileOnly s (s.refcalHeld v) := ((hsame.set _ _ _).set _ _ _).set _ _ _
  exact (hheld.set _ _ _).set _ _ _

end State

end Sys2Proof.Machine

namespace Sys2Proof

open Sys2Proof.Machine Sys2Proof.Machine.State

/-- Settles O19: the reference's loss and return, the monitor, the PLLs and the timeline's start, and the capture. -/
theorem referenceAndLocksSetTheClocks : Obligations.ReferenceAndLocksSetTheClocks := by
  unfold Obligations.ReferenceAndLocksSetTheClocks
  refine ⟨⟨?lost, ?absent, ?held, ?present⟩, ⟨?monitor, ?lock, ?unlock, ?starts, ?stays⟩, ?arm, ?unarmed, ?captured⟩
  case lost => exact fun s h => Does.of rfl (refLoss_present h)
  case absent => exact fun s h => Does.of rfl (refLoss_absent h)
  case held =>
    exact fun s ph h => ⟨Does.of rfl (refReturn_holdover ph h), Does.of rfl (refLong_holdover h), Does.of rfl (if_pos h)⟩
  case present =>
    intro s ph h
    obtain ⟨hreturn, hlong⟩ := refReturn_refLong_none ph.toNat h
    exact ⟨Does.of rfl hreturn, Does.of rfl hlong, Does.of rfl (if_neg (by simp [h]))⟩
  case monitor => exact fun s ppm => Does.of rfl rfl
  case lock => exact fun s => Does.of rfl rfl
  case unlock => exact fun s q => Does.of rfl rfl
  case starts => exact fun s hoff hq hc => Does.of rfl (timelineStart_starts hoff hq hc)
  case stays => exact fun s h => Does.of rfl (timelineStart_none h)
  case arm =>
    intro s v hR
    have hv : (v ||| 1).getLsbD 0 = true := by simp
    exact ⟨s.refcalCtl (v ||| 1), Does.of rfl (onPage_reaches _ _ _ hR), refcalCtl_arms s hv, refcalCtl_clears s hv,
      (regsOnly_refcalCtl s hv).eq⟩
  case unarmed => exact fun s t h => Does.of rfl (refcalEdge_unarmed t h)
  case captured =>
    intro s t h
    obtain ⟨hfrac, hlow, hhigh⟩ := refcalHeld_shows (s.upTo t) ((t : Int) - s.trim).toNat
    obtain ⟨harm, hdone, hother⟩ := refcalDone_shows ((s.upTo t).refcalHeld ((t : Int) - s.trim).toNat)
    exact ⟨_, Does.of rfl (refcalEdge_armed t h), (hother F.TBS_REFCAL_LO_FRAC (by decide)).trans hfrac,
      (hother F.TBS_REFCAL_LO_UI_L (by decide)).trans hlow, (hother F.TBS_REFCAL_HI_UI_H (by decide)).trans hhigh,
      harm, hdone, (fileOnly_refcal _ _).eq⟩

end Sys2Proof

/-!
Lace frames received (R50 to R52, R58) and sent (R60), and an armed ALIGN while a sequencer runs (R54).
-/
namespace Sys2Proof.Machine

open Sys2Proof

namespace State

/-! ## What a frame does at its reference instant (R51, R52) -/

theorem laceDone_badCrc (s : State) {w : Nat} (h : crc8 (lineBits 52 (w / 16)) ≠ bits w 63 56) :
    s.laceDone w = (s.bump tbsPg F.TBS_LACE_STS_CRC_ERRS 1).rise tbsPg X.TBS_LACE_CRC := if_pos h

/-- START, COUNT and TRIG carry their payload to `laceFrame`. -/
theorem laceDone_short (s : State) {w typ : Nat} (h : LineFrame w typ) (ht : 2 ≤ typ ∧ typ ≤ 4) :
    s.laceDone w = s.laceFrame typ (bits w 55 8) := by
  obtain ⟨-, -, htyp, hcrc⟩ := h
  have h1 : typ ≠ 1 := by omega
  simp only [laceDone, hcrc, ne_eq, not_true_eq_false, if_false, htyp, h1, ht, and_self, if_true]

theorem laceDone_reserved (s : State) {w k : Nat} (h : LineFrame w k) (hk : k = 0 ∨ 5 ≤ k) :
    s.laceDone w = s.put tbsPg F.TBS_LACE_STS_RSVD_TYPE true := by
  obtain ⟨-, -, htyp, hcrc⟩ := h
  have h1 : k ≠ 1 := by omega
  have ht : ¬ (2 ≤ k ∧ k ≤ 4) := by omega
  simp only [laceDone, hcrc, ne_eq, not_true_eq_false, if_false, htyp, h1, ht]

/-! ## A bit of an unfinished frame (R51) -/

/-- What the receiver holds once its bits are compared with SYNC: the oldest of four bits that are not SYNC is dropped. -/
def huntRx (r : List Bool) : List Bool := if r.length = 4 ∧ r ≠ [true, true, false, true] then r.drop 1 else r

theorem laceBit_unfinished (s : State) (b : Bool) (hlen : s.lace.rx.length < 63) :
    s.laceBit b = s.rxBits (huntRx (s.lace.rx ++ [b])) b := by
  by_cases h : (s.lace.rx ++ [b]).length = 4 ∧ s.lace.rx ++ [b] ≠ [true, true, false, true]
  case pos =>
    obtain ⟨h4, hsync⟩ := id h
    rw [huntRx, if_pos h]
    simp only [laceBit, h4, hsync, if_true, if_false]
    rfl
  case neg =>
    rw [huntRx, if_neg h]
    exact laceBit_joins s b (by omega) fun h4 => not_not.mp fun hsync => h ⟨by simpa using h4, hsync⟩

/-- One bit that does not complete a frame, on the line of a receiver that is on and does not repeat it. -/
theorem laceIn_bit (s : State) (b : Bool) (t : Nat) (hon : s.enabled tbsPg = true)
    (hres : s.resetting.contains tbsPg = false) (hlen : s.lace.rx.length < 63)
    (hout : s.get tbsPg F.TBS_LACE_CTL_OUT_MODE ≠ 2) :
    s.laceIn [b] t =
      (s.upTo (s.sampleEdge (max t s.now))).rxBits
        (huntRx ((s.upTo (s.sampleEdge (max t s.now))).lace.rx ++ [b])) b := by
  rw [← laceBit_unfinished _ b (by rw [upTo_lace]; exact hlen)]
  simp only [laceIn, hon, hres, Bool.not_false, Bool.and_self, if_true, hout, if_false]
  rfl

/-! ## The transmitter (R60) -/

/-- GO is ignored: a frame is in progress, LACE_OUT is not the transmitter's, or the page is not enabled. -/
abbrev TxIgnored (u : State) : Prop :=
  u.flag tbsPg F.TBS_LACE_STS_TX_BUSY = true ∨ u.get tbsPg F.TBS_LACE_CTL_OUT_MODE ≠ 1 ∨ u.enabled tbsPg = false

/-- The type and the payload in the transmitter's registers. -/
def txType (u : State) : Nat := u.get tbsPg F.TBS_LACE_TX_TYPE
def txData (u : State) : Nat :=
  u.get tbsPg F.TBS_LACE_TX_PL_LO_PL_LO + u.get tbsPg F.TBS_LACE_TX_PL_HI_PL_HI * 2 ^ 32

/-- A frame of the registers' type and payload is in progress from the next REFIN edge on. -/
def txBegun (u : State) : State :=
  ({ u with lace := { u.lace with tx := some (lineBits 64 (laceWord u.txType u.txData), u.refEdge u.now) } } : State).put
    tbsPg F.TBS_LACE_STS_TX_BUSY true

theorem txBegun_flag_wlt (u : State) (f : Fld) (hf : f.ofs < 4096) :
    u.txBegun.flag (pg T.wlt 0) f = u.flag (pg T.wlt 0) f := by
  rw [flag, txBegun, put, get_set_other _ _ _ _ _ _ (rkey_page (by decide) hf (by decide))]
  rfl

section

variable (s : State) {v : W32} (hv : v.getLsbD 31 = true)
include hv

theorem laceTx_ignored (h : TxIgnored (s.writeReg tbsPg 0x11C v false)) :
    s.laceTx v = (s.writeReg tbsPg 0x11C v false).put tbsPg F.TBS_LACE_STS_TX_OVR true := by
  have hno : (!v.getLsbD 31) = false := by rw [hv]; rfl
  simp only [laceTx, hno, Bool.false_eq_true, if_false]
  exact if_pos (by simpa [TxIgnored, or_assoc] using h)

/-- A frame sent; one of the short commands goes to Welt too where LACE_EXT is 1 (R352). -/
theorem laceTx_sends (h : ¬ TxIgnored (s.writeReg tbsPg 0x11C v false)) :
    let u := s.writeReg tbsPg 0x11C v false
    s.laceTx v = if u.flag (pg T.wlt 0) F.WLT_NODE_LACE_EXT = true ∧ 2 ≤ u.txType ∧ u.txType ≤ 4 then
      u.txBegun.weltOwn true u.txType u.txData else u.txBegun := by
  intro u
  have hno : (!v.getLsbD 31) = false := by rw [hv]; rfl
  rw [← txBegun_flag_wlt u _ (by decide)]
  simp only [laceTx, hno, Bool.false_eq_true, if_false]
  refine (if_neg (by simpa [TxIgnored, or_assoc] using h)).trans (if_congr ?_ rfl rfl)
  rw [Bool.and_eq_true, decide_eq_true_eq]
  rfl

end

theorem laceSent_busy {s : State} {b : List Bool} {t : Nat} (h : s.lace.tx = some (b, t)) :
    let u := (s.upTo (t + 64 * 65536)).emit (.lace b)
    s.laceSent = ({ u with lace := { u.lace with tx := none } } : State).put tbsPg F.TBS_LACE_STS_TX_BUSY false := by
  rw [laceSent, h]

theorem laceSent_idle {s : State} (h : s.lace.tx = none) : s.laceSent = s := by rw [laceSent, h]

/-! ## An armed ALIGN while a sequencer runs (R54, R55) -/

theorem heard_groups (s : State) (w t : Nat) : (heard s w t).groups = s.groups := by
  simp only [heard, upTo_groups]
  split <;> rfl

/-- A group at work is the first of the conditions of R55. -/
theorem refuseWhy_groups {s : State} (h : s.groups ≠ []) : s.refuseWhy = 1 :=
  if_pos (by simp [List.isEmpty_eq_false_iff.2 h])

/-- A refused ALIGN shows it and stays armed. -/
theorem alignRefused_shows (s : State) (r : Nat) :
    (s.alignRefused r).flag tbsPg F.TBS_LACE_STS_ALIGN_REFUSED = true ∧
      (s.alignRefused r).flag tbsPg F.TBS_LACE_CTL_ALIGN_ARM = s.flag tbsPg F.TBS_LACE_CTL_ALIGN_ARM := by
  unfold alignRefused
  constructor
  · rw [flag_set_beside _ _ _ _ _ (by decide)]
    exact flag_put_same _ _ _ _ (by decide) rfl
  · rw [flag_set_ofs _ _ _ _ _ (by decide), flag_put_ofs _ _ _ _ _ (by decide)]

end State

end Sys2Proof.Machine

namespace Sys2Proof

open Sys2Proof.Machine Sys2Proof.Machine.State

/-- The six commands that bring bits on LACE_IN have one meaning. -/
theorem exec_laceIn {c : Instr} {line : List Bool} {t : Nat}
    (hc : c ∈ [(.align line t : Instr), .start line t, .count line t, .trig line t, .laceCrc line t, .rsvdType line t])
    (s : State) : exec c s = done (s.laceIn line t) := by
  simp only [List.mem_cons, List.not_mem_nil, or_false] at hc
  rcases hc with rfl | rfl | rfl | rfl | rfl | rfl <;> rfl

theorem does_goLaceTx {s t : State} {v : W32} (hR : Reaches s tbsPg) (e : s.laceTx (v ||| 0x80000000) = t) :
    Does (.goLaceTx v) s t := Does.of rfl ((onPage_reaches _ _ _ hR).trans e)

/-- Settles O22: the whole frames, a single bit, a receiver that is off; GO and the end of a frame sent. -/
theorem laceFramesActAndAreSent : Obligations.LaceFramesActAndAreSent := by
  unfold Obligations.LaceFramesActAndAreSent
  refine ⟨⟨?frames, ?bit, ?off⟩, ?go, ?sent, ?idle⟩
  case frames =>
    intro s w t hrx hon hres
    have hheard {typ : Nat} (hw : LineFrame w typ) : s.laceIn (lineBits 64 w) t = (heard s w t).laceDone w := by
      obtain ⟨hlt, hsync, -⟩ := hw
      exact laceIn_frame s t hlt hsync hrx hon hres
    have hshort {typ : Nat} (hw : LineFrame w typ) (ht : 2 ≤ typ ∧ typ ≤ 4) :
        s.laceIn (lineBits 64 w) t = (heard s w t).laceFrame typ (bits w 55 8) :=
      (hheard hw).trans (laceDone_short _ hw ht)
    refine ⟨?count, ?trig, ?start, ?badCrc, ?reserved⟩
    case count => exact fun hw => Does.of rfl (hshort hw (by decide))
    case trig => exact fun hw => Does.of rfl (hshort hw (by decide))
    case start => exact fun hw => Does.of rfl (hshort hw (by decide))
    case badCrc =>
      exact fun hlt hsync hcrc =>
        Does.of rfl ((laceIn_frame s t hlt hsync hrx hon hres).trans (laceDone_badCrc _ hcrc))
    case reserved => exact fun k hk hw => Does.of rfl ((hheard hw).trans (laceDone_reserved _ hw hk))
  case bit =>
    exact fun s b t hon hres hlen hout c hc => Does.of (exec_laceIn hc s) (laceIn_bit s b t hon hres hlen hout)
  case off => exact fun s line t h c hc => Does.of (exec_laceIn hc s) (laceIn_off s line t h)
  case go =>
    intro s v hR
    have hv : (v ||| 0x80000000).getLsbD 31 = true := by simp
    refine ⟨fun h => does_goLaceTx hR (laceTx_ignored s hv h), fun h hext => ?alone, fun h hext => ?welt⟩
    case alone =>
      exact does_goLaceTx hR ((laceTx_sends s hv h).trans (if_neg fun hw => Bool.false_ne_true (hext.symm.trans hw.1)))
    case welt =>
      exact does_goLaceTx hR ((laceTx_sends s hv h).trans (if_congr (and_iff_right hext) rfl rfl))
  case sent => exact fun s b t h => Does.of rfl (laceSent_busy h)
  case idle => exact fun s h => Does.of rfl (laceSent_idle h)

/-- Settles O20: a running group is the first condition of R55, so the ALIGN is refused and held as unarmed. -/
theorem armedAlignRefusedWhileRunning : Obligations.ArmedAlignRefusedWhileRunning := by
  unfold Obligations.ArmedAlignRefusedWhileRunning
  intro s w t hw hrx hon hres ha hrun
  obtain ⟨g, hg, -⟩ := hrun
  have hwhy : (heard s w t).refuseWhy = 1 := refuseWhy_groups (by rw [heard_groups]; exact List.ne_nil_of_mem hg)
  rw [← heard_flag s w t] at ha
  obtain ⟨hrefused, harm⟩ := alignRefused_shows (heard s w t) (heard s w t).refuseWhy
  exact ⟨_, does_align hw hrx hon hres (align_refused _ _ ha (by rw [hwhy]; decide)), ⟨_, rfl⟩, hrefused, harm.trans ha,
    heard_groups s w t⟩

end Sys2Proof

/-!
The windows onto the segment, waveform and resident tables (R80, R82, R120, R130, R140, R141, R477).
-/
namespace Sys2Proof.Machine

open Sys2Proof

/-- Registers at different offsets, of whatever pages. -/
theorem rkey_offset {p q o a : Nat} (ho : o < 4096) (ha : a < 4096) (h : o ≠ a) : rkey p o ≠ rkey q a := by
  unfold rkey
  omega

namespace State

/-! ## What reads as before -/

/-- Registers read in `t` as in `s`, but for those of page `p` at the offsets `os`. -/
def ReadsBut (s t : State) (p : Nat) (os : List Nat) : Prop :=
  ∀ q a, a < 4096 → ¬ (q = p ∧ a ∈ os) → t.rd q a = s.rd q a

theorem ReadsBut.refl (s : State) (p : Nat) (os : List Nat) : ReadsBut s s p os := fun _ _ _ _ => rfl

section

variable {s t : State} {p : Nat} {os : List Nat} (h : ReadsBut s t p os)
include h

theorem ReadsBut.mono {os' : List Nat} (hsub : os ⊆ os') : ReadsBut s t p os' :=
  fun q a ha hqa => h q a ha fun hmem => hqa (hmem.imp_right (hsub ·))

theorem ReadsBut.wr {o : Nat} (v : W32) (ho : o < 4096) (hmem : o ∈ os) : ReadsBut s (t.wr p o v) p os := by
  intro q a ha hqa
  rw [← h q a ha hqa]
  refine rd_wr_other _ _ _ _ _ _ ?_
  by_cases hq : q = p
  · exact rkey_offset ho ha (by rintro rfl; exact hqa ⟨hq, hmem⟩)
  · exact rkey_page ho ha (Ne.symm hq)

theorem ReadsBut.set {f : Fld} (v : Nat) (ho : f.ofs < 4096) (hmem : f.ofs ∈ os) : ReadsBut s (t.set p f v) p os :=
  h.wr _ ho hmem

theorem ReadsBut.autoInc {auto : Fld} (n : Nat) (ho : auto.ofs < 4096) (hmem : auto.ofs ∈ os) :
    ReadsBut s (t.autoInc p auto n) p os := by
  unfold State.autoInc
  split
  · exact h.wr _ ho hmem
  · exact h

end

theorem FileOnly.wr {s t : State} (h : FileOnly s t) (p o : Nat) (v : W32) : FileOnly s (t.wr p o v) := by
  obtain ⟨rs, rfl⟩ := h
  exact ⟨_, rfl⟩

theorem FileOnly.autoInc {s t : State} (h : FileOnly s t) (p : Nat) (auto : Fld) (n : Nat) :
    FileOnly s (t.autoInc p auto n) := by
  unfold State.autoInc
  split
  · exact h.wr _ _ _
  · exact h

/-- The index advances from what its register reads. -/
theorem rd_autoInc_congr {s t : State} {p : Nat} {auto : Fld} (n : Nat) (h : t.rd p auto.ofs = s.rd p auto.ofs) :
    (t.autoInc p auto n).rd p auto.ofs = (s.autoInc p auto n).rd p auto.ofs := by
  have hflag : t.flag p auto = s.flag p auto := by rw [flag, get, h, flag, get]
  unfold autoInc
  rw [hflag]
  split
  · rw [rd_wr_same, rd_wr_same, h]
  · exact h

/-! ## The segment table (R140, R141, R445) -/

theorem segWrite_dropped {s : State} (i w : Nat) (v : W32)
    (h : s.flag glbPg F.GLB_SEG_STS_SEG_BUSY = true ∨ s.locked glbPg = true) :
    s.segWrite i w v = s.put glbPg F.GLB_SEG_STS_WR_DROP true := if_pos (Bool.or_eq_true _ _ ▸ h)

/-- A word enters the shadow table. -/
def segStored (s : State) (i w : Nat) (v : W32) : State := { s with segS := tabPut 0 s.segS (4 * i + w) v }

/-- INVALID counts entry `i` of the shadow table as it stands in `a`, no longer as it stood. -/
def segCounted (s a : State) (i : Nat) : State :=
  a.set glbPg F.GLB_SEG_STS_INVALID
    (a.get glbPg F.GLB_SEG_STS_INVALID + b2n (a.segBad i != 0) - b2n (s.segBad i != 0))

theorem segWrite_taken {s : State} (i w : Nat) (v : W32) (hb : s.flag glbPg F.GLB_SEG_STS_SEG_BUSY = false)
    (hl : s.locked glbPg = false) :
    s.segWrite i w v =
      let a := s.segStored i w v
      if a.segBad i = 0 then s.segCounted a i
      else ((s.segCounted a i).set glbPg F.GLB_SEG_ERR_ENTRY i).set glbPg F.GLB_SEG_ERR_REASON (a.segBad i) := by
  have hno : ¬ (s.flag glbPg F.GLB_SEG_STS_SEG_BUSY || s.locked glbPg) = true := by rw [hb, hl]; decide
  exact if_neg hno

/-! ## The waveform table (R80, R82, R477) -/

/-- A write to CHN_WFT is refused (R82, R445). -/
abbrev WftRefused (s : State) (c : Nat) (v : W32) : Prop :=
  s.flag (pg T.chn c) F.CHN_STS_SHADOW_BUSY = true ∨
    (s.locked (pg T.chn c) = true ∧ tabGet 0 s.wftS (s.wftKey c) ≠ v)

theorem wftRefused_iff (s : State) (c : Nat) (v : W32) :
    (s.flag (pg T.chn c) F.CHN_STS_SHADOW_BUSY ||
      (s.locked (pg T.chn c) && tabGet 0 s.wftS (s.wftKey c) != v)) = true ↔ s.WftRefused c v := by
  rw [Bool.or_eq_true, Bool.and_eq_true, bne_iff_ne]

/-- The word enters the shadow table, and its record is judged. -/
def wftStored (s : State) (c : Nat) (v : W32) : State :=
  { s with
    wftS := tabPut 0 s.wftS (s.wftKey c) v
    wftBad := tabPut 0 s.wftBad (s.wftKey c / 8) (wftReason (s.tsPer (c / 16) (s.wftKey c / 8 % 1024 / 16))
      fun w => tabGet 0 (tabPut 0 s.wftS (s.wftKey c) v) (s.wftKey c / 8 * 8 + w)) }

/-- WFT_ERR is set where the record just judged is invalid, and CHN_WFT_ERR shows the lowest invalid one. -/
def wftShown (s : State) (c k : Nat) : State :=
  (if tabGet 0 s.wftBad k = 0 then s else s.put (pg T.chn c) F.CHN_STS_WFT_ERR true).wftErrSync c

theorem wftWrite_refused {s : State} {c : Nat} {v : W32} (h : s.WftRefused c v) :
    s.wftWrite c v = (s.refuse (pg T.chn c) 0x114).autoInc (pg T.chn c) F.CHN_WFT_IDX_AUTO_INC 8192 := by
  unfold wftWrite
  dsimp only
  rw [if_pos ((wftRefused_iff s c v).2 h)]

theorem wftWrite_taken {s : State} {c : Nat} {v : W32} (h : ¬ s.WftRefused c v) :
    s.wftWrite c v =
      ((s.wftStored c v).wftShown c (s.wftKey c / 8)).autoInc (pg T.chn c) F.CHN_WFT_IDX_AUTO_INC 8192 := by
  unfold wftWrite
  dsimp only
  rw [if_neg (mt (wftRefused_iff s c v).1 h), wftShown, wftStored, tabGet_put_same]
  rfl

/-- The registers that show invalid records: CHN_WFT_ERR and CHN_STS. -/
abbrev wftShows : List Nat := [0x118, F.CHN_STS_WFT_ERR.ofs]

theorem wftErrSync_frame {s u : State} {c : Nat} (hf : FileOnly s u) (hr : ReadsBut s u (pg T.chn c) wftShows) :
    FileOnly s (u.wftErrSync c) ∧ ReadsBut s (u.wftErrSync c) (pg T.chn c) wftShows := by
  have herr : 0x118 ∈ wftShows := by decide
  unfold wftErrSync
  dsimp only
  split
  · exact ⟨(((hf.set _ _ _).set _ _ _).set _ _ _).set _ _ _,
      (((hr.set _ (by decide) herr).set _ (by decide) herr).set _ (by decide) herr).set _ (by decide) herr⟩
  · exact ⟨hf.wr _ _ _, hr.wr _ (by decide) herr⟩

theorem wftShown_frame (s : State) (c k : Nat) :
    FileOnly s (s.wftShown c k) ∧ ReadsBut s (s.wftShown c k) (pg T.chn c) wftShows := by
  have hfile : FileOnly s s := ⟨s.regs, rfl⟩
  have hreads : ReadsBut s s (pg T.chn c) wftShows := ReadsBut.refl s _ _
  unfold wftShown
  split
  · exact wftErrSync_frame hfile hreads
  · exact wftErrSync_frame (hfile.set _ _ _) (hreads.set _ (by decide) (by decide))

/-! ## The resident area (R120, R130, R477) -/

/-- A write to EYE_VAMP_WDATA is refused (R120, R445). -/
abbrev WdataRefused (s : State) (e : Nat) (v : W32) : Prop :=
  s.resFree e = false ∨ s.resWords e ≤ s.get (eyePg e) F.EYE_VAMP_WADDR_WADDR ∨
    (s.locked (eyePg e) = true ∧ tabGet 0 s.res (s.resKey e) ≠ v)

theorem wdataRefused_iff (s : State) (e : Nat) (v : W32) :
    (!s.resFree e || decide (s.resWords e ≤ s.get (eyePg e) F.EYE_VAMP_WADDR_WADDR) ||
      (s.locked (eyePg e) && tabGet 0 s.res (s.resKey e) != v)) = true ↔ s.WdataRefused e v := by
  rw [Bool.or_eq_true, Bool.or_eq_true, Bool.and_eq_true, bne_iff_ne, decide_eq_true_eq, Bool.not_eq_true', or_assoc]

theorem wdataWrite_refused {s : State} {e : Nat} {v : W32} (h : s.WdataRefused e v) :
    s.wdataWrite e v = (s.refuse (eyePg e) 0x244).autoInc (eyePg e) F.EYE_VAMP_WADDR_AUTO_INC (2 ^ 19) := by
  unfold wdataWrite
  dsimp only
  rw [if_pos ((wdataRefused_iff s e v).2 h)]

theorem wdataWrite_taken {s : State} {e : Nat} {v : W32} (h : ¬ s.WdataRefused e v) :
    s.wdataWrite e v =
      ({ s with res := tabPut 0 s.res (s.resKey e) v, upset := tabErase s.upset (2 * 2 ^ 40 + s.resKey e) } :
        State).autoInc (eyePg e) F.EYE_VAMP_WADDR_AUTO_INC (2 ^ 19) := by
  unfold wdataWrite
  dsimp only
  rw [if_neg (mt (wdataRefused_iff s e v).1 h)]

end State

end Sys2Proof.Machine

namespace Sys2Proof

open Sys2Proof.Machine Sys2Proof.Machine.State

theorem does_segWindowWrite {s t : State} {i : Fin 131072} {w : Fin 4} {v : W32} (h : s.offLink = false)
    (e : s.segWrite i.val w.val v = t) : Does (.segWindowWrite i w v) s t :=
  Does.of rfl ((onLink_on _ _ _ h).trans e)

theorem does_wftWrite {s t : State} {c : Chan} {v : W32} (hR : Reaches s (pg T.chn c.val))
    (e : s.wftWrite c.val v = t) : Does (.wftWrite c v) s t :=
  Does.of rfl ((onPage_reaches _ _ _ hR).trans e)

theorem does_vampWdataWrite {s t : State} {e : Eye} {v : W32} (hR : Reaches s (eyePg e.val))
    (h : s.wdataWrite e.val v = t) : Does (.vampWdataWrite e v) s t :=
  Does.of rfl ((onPage_reaches _ _ _ hR).trans h)

/-- Settles O25: a write taken and a write refused at each window, and the reads of the two that return words. -/
theorem tableWindowsReadAndWrite : Obligations.TableWindowsReadAndWrite := by
  unfold Obligations.TableWindowsReadAndWrite
  refine ⟨?segments, ?waveforms, ?residents⟩
  case segments =>
    intro s i w v hlink
    refine ⟨fun h => does_segWindowWrite hlink (segWrite_dropped _ _ v h), fun hb hl => ⟨fun hv => ?_, fun hv => ?_⟩⟩
    · exact does_segWindowWrite hlink ((segWrite_taken _ _ v hb hl).trans (if_pos hv))
    · exact does_segWindowWrite hlink ((segWrite_taken _ _ v hb hl).trans (if_neg hv))
  case waveforms =>
    intro s c v
    refine ⟨fun hR h => does_wftWrite hR (wftWrite_refused h),
      fun hR h => ⟨_, does_wftWrite hR (wftWrite_taken h), ?file, ?others, ?index⟩,
      fun hR => Does.of rfl (readPage_on _ _ _ hR)⟩
    all_goals obtain ⟨hfile, hreads⟩ := wftShown_frame (s.wftStored c.val v) c.val (s.wftKey c.val / 8)
    case file => exact (hfile.autoInc _ F.CHN_WFT_IDX_AUTO_INC 8192).eq
    case others =>
      have hindex := (hreads.mono (List.subset_cons_self 0x110 _)).autoInc (auto := F.CHN_WFT_IDX_AUTO_INC) 8192
        (by decide) (by decide)
      exact fun q a ha hqa => hindex q a ha (by simpa using hqa)
    case index => exact rd_autoInc_congr 8192 (hreads _ _ (by decide) fun h => absurd h.2 (by decide))
  case residents =>
    intro s e v
    exact ⟨fun hR h => does_vampWdataWrite hR (wdataWrite_refused h),
      fun hR h => does_vampWdataWrite hR (wdataWrite_taken h), fun hR => Does.of rfl (readPage_on _ _ _ hR)⟩

end Sys2Proof

/-!
The placements of a channel (R79, R84, R89, R90, R94, R168, R189) and the rotation that checks its slices (R99, R101).
-/
namespace Sys2Proof.Machine

open Sys2Proof

namespace State

/-! ## What moving the timeline forward keeps -/

@[simp] theorem upTo_get (s : State) (t p : Nat) (f : Fld) : (s.upTo t).get p f = s.get p f := by
  unfold upTo; split <;> rfl

@[simp] theorem upTo_chanOf (s : State) (t c : Nat) : (s.upTo t).chanOf c = s.chanOf c := by
  unfold upTo; split <;> rfl

@[simp] theorem upTo_era (s : State) (t : Nat) : (s.upTo t).era = s.era := by unfold upTo; split <;> rfl

theorem upTo_eq (s : State) (t : Nat) : s.upTo t = { s with now := (s.upTo t).now } := by unfold upTo; split <;> rfl

@[simp] theorem sprOf_setSpr (s : State) (e : Nat) (d : SprDyn) : (s.setSpr e d).sprOf e = d := tabGet_put_same _ _ _ _

@[simp] theorem sprOf_setDds (s : State) (e e' : Nat) (d : DdsDyn) : (s.setDds e' d).sprOf e = s.sprOf e := rfl

/-! ## What is placed for a channel (R79, R84, R90, R189) -/

/-- Kinds of placement that set outputs alone: none that judges, opens or closes a window. -/
abbrev Drives (n : Nat) : Prop := n ≠ 9 ∧ n ≠ 10 ∧ ¬ (n = 8 ∨ (20 ≤ n ∧ n < 28))

/-- A strobe leaves the outputs as they stand. -/
theorem outApply_strobe (k : ChanDyn) {n : Nat} (h : n = 8 ∨ (20 ≤ n ∧ n < 28)) : outApply k n = k := by
  rcases h with rfl | ⟨hlo, hhi⟩
  · rfl
  · interval_cases n <;> rfl

/-- At the time of the placement `d` the channel comes to stand at `k`, which an open window sees. -/
def placed (s : State) (c : Nat) (d : Due) (k : ChanDyn) : State :=
  ((s.upToQ (c / 64) d.t).setChan c k).seeWin c

theorem placeDue_nil {s : State} {c : Nat} (h : (s.chanOf c).due = []) : s.placeDue c = s := by rw [placeDue, h]

section

variable {s : State} {c : Nat} {d : Due} {r : List Due} (h : (s.chanOf c).due = d :: r)
include h

theorem placeDue_cons :
    s.placeDue c =
      let k := outApply { s.chanOf c with due := r } d.typ
      let w := s.placed c d (if d.typ = 9 then { k with win := some ⟨d, none, 0, k.den⟩ } else k)
      (if d.typ = 10 then w.closeWin c
       else if d.typ = 8 ∨ (20 ≤ d.typ ∧ d.typ < 28) then
         w.judge d (w.observed c) (w.chanOf c).den (w.nowQ (c / 64))
       else w).closeVec (d.own / 16) d.vid := by
  unfold placeDue
  rw [h]
  dsimp only
  rw [upToQ, upTo_chanOf]
  rfl

theorem placeDue_drives {n : Nat} (ht : d.typ = n) (hn : Drives n) :
    s.placeDue c = (s.placed c d (outApply { s.chanOf c with due := r } n)).closeVec (d.own / 16) d.vid := by
  obtain ⟨h9, h10, hj⟩ := hn
  rw [placeDue_cons h, ht]
  dsimp only
  rw [if_neg h9, if_neg h10, if_neg hj]

theorem placeDue_opens (ht : d.typ = 9) :
    s.placeDue c = (s.placed c d { s.chanOf c with due := r, win := some ⟨d, none, 0, (s.chanOf c).den⟩ }).closeVec
      (d.own / 16) d.vid := by
  rw [placeDue_cons h, ht]
  rfl

theorem placeDue_closes (ht : d.typ = 10) :
    s.placeDue c = ((s.placed c d { s.chanOf c with due := r }).closeWin c).closeVec (d.own / 16) d.vid := by
  rw [placeDue_cons h, ht]
  rfl

theorem placeDue_judges (ht : d.typ = 8 ∨ (20 ≤ d.typ ∧ d.typ < 28)) :
    s.placeDue c =
      let w := s.placed c d { s.chanOf c with due := r }
      (w.judge d (w.observed c) (w.chanOf c).den (w.nowQ (c / 64))).closeVec (d.own / 16) d.vid := by
  have h9 : d.typ ≠ 9 := by omega
  have h10 : d.typ ≠ 10 := by omega
  rw [placeDue_cons h, outApply_strobe _ ht]
  dsimp only
  rw [if_neg h9, if_neg h10, if_pos ht]

end

/-! ## The start of a dwell (R99) -/

theorem positions_length_le (s : State) (e : Nat) : (s.positions e).length ≤ 16 := List.length_filter_le _ _

/-- The start of the next dwell, in the device's own time. -/
def dwellTime (s : State) (e : Nat) : Nat :=
  if (s.sprOf e).on then (s.sprOf e).next else s.era + (s.ui / 64 * 64 + 64) * 1024

/-- The position of the next dwell, of the positions `ks` of which `lo` is the lowest, after the position `pos`. -/
def dwellPos (d : SprDyn) (pos lo : Nat) (ks : List Nat) : Nat :=
  if d.on then (ks.find? (fun k => decide (pos < k))).getD lo else lo

/-- A dwell of a rotation of `n` positions runs from `t` on, with the thresholds then written. -/
def dwellRuns (s : State) (e t n : Nat) (d : SprDyn) : SprDyn :=
  { d with
    on := true, start := t, next := t + 6400000 / n * 1024, checked := false
    thr := s.get (pg T.spr e) F.SPR_CTL_THR, refThr := s.get (pg T.spr e) F.SPR_CTL_REF_THR }

/-- The instant `t` at which a dwell starts has come. -/
def atDwell (s : State) (e t : Nat) : State := (s.upToMono t).inForce (pg T.spr e) 0x100

/-- A dwell of a rotation of `n` positions is in progress from `t` on. -/
def dwellBegun (s : State) (e t n : Nat) : State :=
  let u := (s.atDwell e t).setSpr e ((s.atDwell e t).dwellRuns e t n (s.sprOf e))
  u.setDds e { u.ddsOf e with rises := [] }

/-- SPR_STS and SPR_DWELL show a dwell on position `k` of `n`. -/
def dwellShown (s : State) (p k n : Nat) : State :=
  ((s.set p F.SPR_STS_POS k).set p F.SPR_STS_NPOS n).set p F.SPR_DWELL_DWELL (6400000 / n)

/-- SPR_DWELL_T shows the start of the dwell on the device timeline. -/
def dwellTimeShown (s : State) (p t : Nat) : State :=
  s.set64 p F.SPR_DWELL_T_LO_T F.SPR_DWELL_T_HI_T ((t - s.era) / 1024)

theorem dwellStart_stopped {s : State} {e : Nat} (h : s.spareRuns e = false) : s.dwellStart e = s :=
  if_pos (by rw [h]; rfl)

section

variable {s : State} {e : Nat} (hr : s.spareRuns e = true)
include hr

theorem dwellStart_off (hp : s.positions e = []) :
    s.dwellStart e = (((s.setSpr e { s.sprOf e with on := false }).set (pg T.spr e) F.SPR_STS_NPOS 0).set (pg T.spr e)
      F.SPR_DWELL_DWELL 0) := by
  simp only [dwellStart, hr, hp, Bool.not_true, Bool.false_eq_true, if_false]

theorem dwellStart_rotates {lo : Nat} {rest : List Nat} (hp : s.positions e = lo :: rest) :
    s.dwellStart e =
      ((s.dwellBegun e (s.dwellTime e) (lo :: rest).length).dwellShown (pg T.spr e)
        (dwellPos (s.sprOf e) (s.get (pg T.spr e) F.SPR_STS_POS) lo (lo :: rest)) (lo :: rest).length).dwellTimeShown
          (pg T.spr e) (s.dwellTime e) := by
  have hpos : (s.atDwell e (s.dwellTime e)).get (pg T.spr e) F.SPR_STS_POS = s.get (pg T.spr e) F.SPR_STS_POS :=
    upTo_get _ _ _ _
  rw [← hpos, dwellStart, hr, hp]
  rfl

end

theorem dwellShown_shows (s : State) (p k t : Nat) {n : Nat} (hn : n ≤ 16) :
    ((s.dwellShown p k n).dwellTimeShown p t).get p F.SPR_STS_POS = k % 16 ∧
      ((s.dwellShown p k n).dwellTimeShown p t).get p F.SPR_STS_NPOS = n ∧
      ((s.dwellShown p k n).dwellTimeShown p t).get p F.SPR_DWELL_DWELL = 6400000 / n := by
  have hdwell : 6400000 / n < 2 ^ 23 := by
    have := Nat.div_le_self 6400000 n
    omega
  unfold dwellTimeShown set64
  refine ⟨?pos, ?npos, ?dwell⟩
  all_goals rw [get_set_ofs _ _ _ _ _ (by decide), get_set_ofs _ _ _ _ _ (by decide), dwellShown]
  case pos =>
    rw [get_set_ofs _ _ _ _ _ (by decide), get_set_beside _ _ _ _ _ (by decide),
      get_set_same _ _ _ _ (by decide) (by decide)]
    rfl
  case npos =>
    rw [get_set_ofs _ _ _ _ _ (by decide), get_set_same _ _ _ _ (by decide) (by decide)]
    exact Nat.mod_eq_of_lt (show n < 32 by omega)
  case dwell =>
    rw [get_set_same _ _ _ _ (by decide) (by decide)]
    exact Nat.mod_eq_of_lt hdwell

/-- What shows a dwell changes registers alone. -/
theorem fileOnly_dwellShown (s : State) (p k n t : Nat) : FileOnly s ((s.dwellShown p k n).dwellTimeShown p t) := by
  have hsame : FileOnly s s := ⟨s.regs, rfl⟩
  have hshown : FileOnly s (s.dwellShown p k n) := ((hsame.set _ _ _).set _ _ _).set _ _ _
  exact (hshown.set _ _ _).set _ _ _

theorem FileOnly.sprOf {s t : State} (h : FileOnly s t) (e : Nat) : t.sprOf e = s.sprOf e := by
  obtain ⟨rs, rfl⟩ := h
  rfl

/-- What the start of a dwell changes beside registers. -/
theorem dwellBegun_eq (s : State) (e t n : Nat) :
    ∃ hs ds ss, s.dwellBegun e t n = { s with held := hs, dds := ds, spr := ss, now := (s.upToMono t).now } := by
  obtain ⟨m, hm⟩ : ∃ m, s.upToMono t = { s with now := m } := ⟨_, upTo_eq s (t - s.era)⟩
  rw [dwellBegun, atDwell, hm]
  exact ⟨_, _, _, rfl⟩

/-- What the start of a dwell leaves as it was. -/
theorem dwellBegun_frame {s u : State} {e t n : Nat} (h : FileOnly (s.dwellBegun e t n) u) :
    u.now = (s.upToMono t).now ∧
      u = { s with regs := u.regs, held := u.held, spr := u.spr, dds := u.dds, now := u.now } := by
  obtain ⟨rs, rfl⟩ := h
  obtain ⟨hs, ds, ss, hbegun⟩ := dwellBegun_eq s e t n
  rw [hbegun]
  exact ⟨rfl, rfl⟩

theorem sprOf_dwellBegun (s : State) (e t n : Nat) :
    (s.dwellBegun e t n).sprOf e = (s.atDwell e t).dwellRuns e t n (s.sprOf e) := by
  rw [dwellBegun, sprOf_setDds, sprOf_setSpr]

/-! ## Check stitches (R101) -/

/-- The channel of the position under check. -/
def checkCh (s : State) (e : Nat) : Nat := 16 * e + s.get (pg T.spr e) F.SPR_STS_POS

/-- The value of the quadrant's timeline at which the next check stitch may come. -/
def checkAt (s : State) (e : Nat) : Nat :=
  let d := s.sprOf e
  let t0 := max (s.lastStitch (s.checkCh e) + 262144) ((d.start : Int) + s.qofs (e / 4)).toNat
  (if d.checked then max t0 (d.lastChk + 262144) else t0) - s.era

/-- A dwell is in progress on a quiet position: no stitch is due within 64 UI of the check stitch. -/
abbrev CheckDue (s : State) (e : Nat) : Prop :=
  (s.sprOf e).on = true ∧ s.stitchSoon (s.checkCh e) (max (s.checkAt e) (s.nowQ (e / 4)) + 65536) = false

theorem checkStitch_eq (s : State) (e : Nat) :
    s.checkStitch e =
      if s.spareRuns e = true ∧ s.CheckDue e then
        let u := s.upToQ (e / 4) (s.checkAt e)
        u.setSpr e { s.sprOf e with lastChk := max (u.ownT (s.checkAt e)) (u.ownQ (e / 4)), checked := true }
      else s :=
  if_congr (by rw [Bool.and_eq_true, Bool.and_eq_true, Bool.not_eq_true', and_assoc]; rfl) rfl rfl

end State

end Sys2Proof.Machine

namespace Sys2Proof

open Sys2Proof.Machine Sys2Proof.Machine.State

theorem does_stitch {s t : State} {c : Chan} (e : s.placeDue c.val = t) : Does (.stitch c) s t := Does.of rfl e
theorem does_dwellStart {s t : State} {e : Eye} (h : s.dwellStart e.val = t) : Does (.dwellStart e) s t := Does.of rfl h
theorem does_checkStitch {s t : State} {e : Eye} (h : s.checkStitch e.val = t) : Does (.checkStitch e) s t :=
  Does.of rfl h

/-- Settles O26: the kinds of placement, the start of a dwell and the check stitch. -/
theorem stitchesDriveSlices : Obligations.StitchesDriveSlices := by
  unfold Obligations.StitchesDriveSlices
  refine ⟨⟨fun s c h => does_stitch (placeDue_nil h), ?placements⟩, fun s e => ⟨?stopped, ?off, ?rotates, ?checks⟩⟩
  case placements =>
    intro s c d r h
    have drives {n : Nat} (hn : Drives n) (ht : d.typ = n) := does_stitch (placeDue_drives h ht hn)
    exact ⟨drives (by decide), drives (by decide), drives (by decide), drives (by decide), drives (by decide),
      drives (by decide), drives (by decide), drives (by decide), drives (by decide), drives (by decide),
      drives (by decide), drives (by decide), drives (by decide), drives (by decide), drives (by decide),
      drives (by decide), drives (by decide), fun ht => does_stitch (placeDue_opens h ht),
      fun ht => does_stitch (placeDue_closes h ht), fun ht => does_stitch (placeDue_judges h ht)⟩
  case stopped =>
    intro h
    exact ⟨does_dwellStart (dwellStart_stopped h),
      does_checkStitch ((checkStitch_eq s e.val).trans (if_neg fun hc => by simp [h] at hc))⟩
  case off => exact fun hr hp => does_dwellStart (dwellStart_off hr hp)
  case rotates =>
    intro hr lo rest hp
    have hn : (lo :: rest).length ≤ 16 := hp ▸ positions_length_le s e.val
    let t := s.dwellTime e.val
    let n := (lo :: rest).length
    let k := dwellPos (s.sprOf e.val) (s.get (pg T.spr e.val) F.SPR_STS_POS) lo (lo :: rest)
    have hfile := fileOnly_dwellShown (s.dwellBegun e.val t n) (pg T.spr e.val) k n t
    have hspr := (hfile.sprOf e.val).trans (sprOf_dwellBegun s e.val t n)
    obtain ⟨hpos, hnpos, hdwell⟩ := dwellShown_shows (s.dwellBegun e.val t n) (pg T.spr e.val) k t hn
    obtain ⟨hnow, hframe⟩ := dwellBegun_frame hfile
    exact ⟨_, does_dwellStart (dwellStart_rotates hr hp), hpos, hnpos, hdwell, congrArg SprDyn.on hspr,
      congrArg SprDyn.start hspr, congrArg SprDyn.next hspr, congrArg SprDyn.checked hspr,
      (congrArg SprDyn.take hspr :), hnow, hframe⟩
  case checks =>
    intro hr
    exact ⟨fun ok => does_checkStitch ((checkStitch_eq s e.val).trans (if_pos ⟨hr, ok⟩)),
      fun no => does_checkStitch ((checkStitch_eq s e.val).trans (if_neg fun hc => no hc.2))⟩

end Sys2Proof

/-!
The decisions of the self-check awl (R102 to R106) and takeovers (R107, R108).
-/
namespace Sys2Proof.Machine

open Sys2Proof

namespace State

/-! ## A decision on a pair of stamps (R102 to R106) -/

/-- The channel of the position under check gives a pair that the self-check awl compares. -/
abbrev PairSeen (s : State) (e t : Nat) : Prop :=
  s.checking e = true ∧ s.compared e (s.checkCh e) t = true

/-- The pair is decided on in a dwell. -/
abbrev DecidesOn (s : State) (e t : Nat) : Prop :=
  s.PairSeen e t ∧ (s.sprOf e).on = true ∧ s.get (pg T.spr e) F.SPR_STS_STATE ≠ 4

/-- The pair is decided on in the core cycle in which heel parks the eyelet (R106). -/
abbrev DecidesHeel (s : State) (e t : Nat) : Prop :=
  s.PairSeen e t ∧ (s.sprOf e).wasOn = true ∧ s.heelNow e = true ∧ s.get (pg T.spr e) F.SPR_STS_STATE = 4

/-- The stamps of the two slices agree within THR. -/
abbrev Agree (d : SprDyn) (l r : Int) (nl nr : Bool) : Prop := nl = false ∧ nr = false ∧ (l - r).natAbs ≤ d.thr

/-- The live slice is within REF_THR of the target. -/
abbrev Near (d : SprDyn) (l : Int) (nl : Bool) : Prop := nl = false ∧ l.natAbs ≤ d.refThr

/-- The live slice is the faulty one: it has no stamp, or the spare has one no farther from the target. -/
abbrev LiveFaulty (l r : Int) (nl nr : Bool) : Prop := nl = true ∨ (nr = false ∧ r.natAbs ≤ l.natAbs)

/-- SPR_DEV shows the deviations of the two slices. -/
def devShown (s : State) (p : Nat) (l r : Int) : State :=
  (s.set p F.SPR_DEV_LIVE_DEV (ofSigned 16 l)).set p F.SPR_DEV_SPARE_DEV (ofSigned 16 r)

/-- What the two slices' disagreement leads to while the spare shadows. -/
def arbitrate (s : State) (e : Nat) (l r : Int) (nl nr heel : Bool) : State :=
  let u := s.devShown (pg T.spr e) l r
  if LiveFaulty l r nl nr then u.setSpr e { s.sprOf e with take := some (s.checkCh e, u.ownQ (e / 4)) }
  else u.spareBad e heel

/-- What a pair decided on leads to with the spare in state `st`. -/
def decided (s : State) (e : Nat) (l r : Int) (nl nr : Bool) (t st : Nat) (heel : Bool) : State :=
  let clean := if heel then s else s.cleanTo (s.checkCh e) t
  if st = 1 then
    if Agree (s.sprOf e) l r nl nr then clean
    else if (s.sprOf e).take.isSome = true then s
    else s.arbitrate e l r nl nr heel
  else if st = 2 ∨ st = 3 then
    if Near (s.sprOf e) l nl then clean else s.rise (pg T.spr e) X.SPR_SECOND_FAULT
  else s

theorem agree_iff (d : SprDyn) (l r : Int) (nl nr : Bool) :
    (!nl && !nr && decide ((l - r).natAbs ≤ d.thr)) = true ↔ Agree d l r nl nr := by
  simp only [Bool.and_eq_true, Bool.not_eq_true', decide_eq_true_eq, and_assoc]

theorem near_iff (d : SprDyn) (l : Int) (nl : Bool) : (!nl && decide (l.natAbs ≤ d.refThr)) = true ↔ Near d l nl := by
  simp only [Bool.and_eq_true, Bool.not_eq_true', decide_eq_true_eq]

theorem liveFaulty_iff (l r : Int) (nl nr : Bool) :
    (nl || (!nr && decide (r.natAbs ≤ l.natAbs))) = true ↔ LiveFaulty l r nl nr := by
  simp only [Bool.or_eq_true, Bool.and_eq_true, Bool.not_eq_true', decide_eq_true_eq]

/-- Pairs that nothing is decided on. -/
theorem not_decides_iff (s : State) (e t : Nat) :
    (!s.checking e || !(if s.get (pg T.spr e) F.SPR_STS_STATE == 4 then (s.sprOf e).wasOn && s.heelNow e else
      (s.sprOf e).on) || !s.compared e (s.checkCh e) t) = true ↔ ¬ (s.DecidesOn e t ∨ s.DecidesHeel e t) := by
  by_cases h4 : s.get (pg T.spr e) F.SPR_STS_STATE = 4
  · have hon : ¬ s.DecidesOn e t := fun h => h.2.2 h4
    simp only [hon, false_or, DecidesHeel, PairSeen, h4, beq_self_eq_true, if_true]
    grind
  · have hheel : ¬ s.DecidesHeel e t := fun h => h4 h.2.2.2
    have hne : (s.get (pg T.spr e) F.SPR_STS_STATE == 4) = false := beq_false_of_ne h4
    simp only [hheel, or_false, DecidesOn, PairSeen, hne]
    grind

theorem mismatch_eq (s : State) (e : Nat) (l r : Int) (nl nr : Bool) (t : Nat) :
    s.mismatch e l r nl nr t =
      let heel := s.get (pg T.spr e) F.SPR_STS_STATE == 4
      if s.DecidesOn e t ∨ s.DecidesHeel e t then
        s.decided e l r nl nr t (if heel then (s.sprOf e).was else s.get (pg T.spr e) F.SPR_STS_STATE) heel
      else s := by
  unfold mismatch
  dsimp only
  refine (if_congr (not_decides_iff s e t) rfl ?_).trans (ite_not _ _ _)
  unfold decided arbitrate
  simp only [agree_iff, near_iff, liveFaulty_iff]
  rfl

section

variable {s : State} {e t : Nat} (l r : Int) (nl nr : Bool)

theorem mismatch_unseen (hon : ¬ s.DecidesOn e t) (hheel : ¬ s.DecidesHeel e t) : s.mismatch e l r nl nr t = s :=
  (mismatch_eq s e l r nl nr t).trans (if_neg (not_or.2 ⟨hon, hheel⟩))

theorem mismatch_on (h : s.DecidesOn e t) :
    s.mismatch e l r nl nr t = s.decided e l r nl nr t (s.get (pg T.spr e) F.SPR_STS_STATE) false := by
  have h4 : (s.get (pg T.spr e) F.SPR_STS_STATE == 4) = false := beq_false_of_ne h.2.2
  rw [mismatch_eq, h4]
  exact if_pos (.inl h)

theorem mismatch_heel (h : s.DecidesHeel e t) :
    s.mismatch e l r nl nr t = s.decided e l r nl nr t (s.sprOf e).was true := by
  have h4 : (s.get (pg T.spr e) F.SPR_STS_STATE == 4) = true := beq_iff_eq.2 h.2.2.2
  rw [mismatch_eq, h4]
  exact if_pos (.inr h)

end

section

variable {s : State} {e t st : Nat} {l r : Int} {nl nr heel : Bool}

section

variable (hst : st = 1)
include hst

theorem decided_agree (h : Agree (s.sprOf e) l r nl nr) :
    s.decided e l r nl nr t st heel = if heel then s else s.cleanTo (s.checkCh e) t :=
  (if_pos hst).trans (if_pos h)

/-- A takeover decided and not carried out holds further decisions off (log entry 150). -/
theorem decided_waits (h : ¬ Agree (s.sprOf e) l r nl nr) (ht : (s.sprOf e).take.isSome = true) :
    s.decided e l r nl nr t st heel = s :=
  (if_pos hst).trans ((if_neg h).trans (if_pos ht))

theorem decided_arbitrates (h : ¬ Agree (s.sprOf e) l r nl nr) (ht : (s.sprOf e).take = none) :
    s.decided e l r nl nr t st heel = s.arbitrate e l r nl nr heel :=
  (if_pos hst).trans ((if_neg h).trans (if_neg (by simp [ht])))

end

section

variable (hst : st = 2 ∨ st = 3)
include hst

theorem decided_near (h : Near (s.sprOf e) l nl) :
    s.decided e l r nl nr t st heel = if heel then s else s.cleanTo (s.checkCh e) t :=
  (if_neg (by omega)).trans ((if_pos hst).trans (if_pos h))

theorem decided_far (h : ¬ Near (s.sprOf e) l nl) :
    s.decided e l r nl nr t st heel = s.rise (pg T.spr e) X.SPR_SECOND_FAULT :=
  (if_neg (by omega)).trans ((if_pos hst).trans (if_neg h))

end

theorem decided_off (hst : st = 0) : s.decided e l r nl nr t st heel = s :=
  (if_neg (by omega)).trans (if_neg (by omega))

theorem arbitrate_live (h : LiveFaulty l r nl nr) :
    s.arbitrate e l r nl nr heel =
      let u := s.devShown (pg T.spr e) l r
      u.setSpr e { s.sprOf e with take := some (s.checkCh e, u.ownQ (e / 4)) } := if_pos h

theorem arbitrate_spare (h : ¬ LiveFaulty l r nl nr) :
    s.arbitrate e l r nl nr heel = (s.devShown (pg T.spr e) l r).spareBad e heel := if_neg h

end

/-! ## Reads of registers and pairs after a write -/

theorem ReadsBut.get {s t : State} {p : Nat} {os : List Nat} (h : ReadsBut s t p os) {q : Nat} {f : Fld}
    (hf : f.ofs < 4096) (hq : q ≠ p) : t.get q f = s.get q f := by
  rw [State.get, h q f.ofs hf fun hqa => hq hqa.1, State.get]

theorem ReadsBut.rise {s t : State} {p : Nat} {os : List Nat} (h : ReadsBut s t p os) (b : Nat) (hmem : 0x010 ∈ os) :
    ReadsBut s (t.rise p b) p os := by
  unfold State.rise
  split
  · exact h
  · exact h.wr _ (by decide) hmem

theorem get_rise_ofs (s : State) (p b : Nat) {f : Fld} (h : 0x010 ≠ f.ofs) : (s.rise p b).get p f = s.get p f := by
  rw [get, rd_rise_other s p b (rkey_ofs h), get]

theorem get_set64_ofs (s : State) (p v : Nat) {lo hi f : Fld} (hlo : lo.ofs ≠ f.ofs) (hhi : hi.ofs ≠ f.ofs) :
    (s.set64 p lo hi v).get p f = s.get p f := by
  rw [set64, get_set_ofs _ _ _ _ _ hhi, get_set_ofs _ _ _ _ _ hlo]

/-- A field that is a whole register. -/
abbrev Whole (f : Fld) : Prop := f.hi = 31 ∧ f.lo = 0

theorem get64_set64_same (s : State) (p v : Nat) {lo hi : Fld} (hlo : Whole lo) (hhi : Whole hi) (hne : hi.ofs ≠ lo.ofs) :
    (s.set64 p lo hi v).get64 p lo hi = v % 2 ^ 64 := by
  obtain ⟨hlo31, hlo0⟩ := hlo
  obtain ⟨hhi31, hhi0⟩ := hhi
  rw [get64, set64, get_set_ofs _ _ _ _ _ hne, get_set_same _ _ _ _ (by omega) (by omega),
    get_set_same _ _ _ _ (by omega) (by omega), hlo31, hlo0, hhi31, hhi0]
  omega

theorem get64_set64_other (s : State) (p v : Nat) {lo hi lo' hi' : Fld}
    (h : lo.ofs ≠ lo'.ofs ∧ hi.ofs ≠ lo'.ofs ∧ lo.ofs ≠ hi'.ofs ∧ hi.ofs ≠ hi'.ofs) :
    (s.set64 p lo hi v).get64 p lo' hi' = s.get64 p lo' hi' := by
  obtain ⟨hlolo, hhilo, hlohi, hhihi⟩ := h
  rw [get64, get_set64_ofs _ _ _ hlolo hhilo, get_set64_ofs _ _ _ hlohi hhihi, get64]

/-- `t` differs from `s` in registers and rises only. -/
def RisesOnly (s t : State) : Prop := ∃ rs fl, t = { s with regs := rs, flt := fl }

theorem RisesOnly.set {s t : State} (h : RisesOnly s t) (p : Nat) (f : Fld) (v : Nat) : RisesOnly s (t.set p f v) := by
  obtain ⟨_, _, rfl⟩ := h
  exact ⟨_, _, rfl⟩

theorem RisesOnly.rise {s t : State} (h : RisesOnly s t) (p b : Nat) : RisesOnly s (t.rise p b) := by
  obtain ⟨_, _, rfl⟩ := h
  unfold State.rise
  split <;> exact ⟨_, _, rfl⟩

theorem RisesOnly.set64 {s t : State} (h : RisesOnly s t) (p : Nat) (lo hi : Fld) (v : Nat) :
    RisesOnly s (t.set64 p lo hi v) := (h.set _ _ _).set _ _ _

theorem ReadsBut.set64 {s t : State} {p : Nat} {os : List Nat} (h : ReadsBut s t p os) {lo hi : Fld} (v : Nat)
    (hlo : lo.ofs < 4096 ∧ lo.ofs ∈ os) (hhi : hi.ofs < 4096 ∧ hi.ofs ∈ os) : ReadsBut s (t.set64 p lo hi v) p os :=
  (h.set _ hlo.1 hlo.2).set _ hhi.1 hhi.2

/-! ## A takeover (R107, R108) -/

@[simp] theorem upTo_sch (s : State) (t : Nat) : (s.upTo t).sch = s.sch := by unfold upTo; split <;> rfl
@[simp] theorem upTo_sprOf (s : State) (t e : Nat) : (s.upTo t).sprOf e = s.sprOf e := by unfold upTo; split <;> rfl
@[simp] theorem upTo_siteOfCh (s : State) (t c : Nat) : (s.upTo t).siteOfCh c = s.siteOfCh c := by
  unfold upTo; split <;> rfl

/-- The spare slice serves channel `c`; in heel its STATE before heel is TAKEN. -/
def spareServes (s : State) (e c : Nat) (heel : Bool) : State :=
  (s.setSpr e { s.sprOf e with take := none, was := if heel then 2 else (s.sprOf e).was }).put (pg T.chn c)
    F.CHN_STS_TAKEN true

/-- SPR_STS shows the takeover of channel `c`; in heel STATE stays. -/
def stsTaken (s : State) (p c : Nat) (heel : Bool) : State :=
  ((if heel then s else s.set p F.SPR_STS_STATE 2).set p F.SPR_STS_FOR_CH (c % 16)).put p F.SPR_STS_TAKEOVER true

/-- The window of the takeover is shown. -/
def winShown (s : State) (p ws we : Nat) : State :=
  (s.set64 p F.SPR_WIN_START_LO_START F.SPR_WIN_START_HI_START ws).set64 p F.SPR_WIN_END_LO_END F.SPR_WIN_END_HI_END we

/-- The takeover shows on the spare's page `p`. -/
def takeShown (s : State) (p c ws we : Nat) (heel : Bool) : State :=
  ((s.stsTaken p c heel).rise p X.SPR_TAKEOVER).winShown p ws we

/-- The re-run record of channel `c` goes to the scheduler. -/
def rerunSent (s : State) (c ws we : Nat) : State :=
  { s with sch := { s.sch with reruns := s.sch.reruns ++ [(c, s.siteOfCh c, ws, we)] } }

@[simp] theorem get_rerunSent (s : State) (c ws we q : Nat) (f : Fld) : (s.rerunSent c ws we).get q f = s.get q f := rfl
@[simp] theorem flag_rerunSent (s : State) (c ws we q : Nat) (f : Fld) :
    (s.rerunSent c ws we).flag q f = s.flag q f := rfl
@[simp] theorem get64_rerunSent (s : State) (c ws we q : Nat) (lo hi : Fld) :
    (s.rerunSent c ws we).get64 q lo hi = s.get64 q lo hi := rfl
@[simp] theorem fltBit_rerunSent (s : State) (c ws we q b : Nat) : (s.rerunSent c ws we).fltBit q b = s.fltBit q b := rfl

/-- The spare is in heel. -/
def spareInHeel (s : State) (e : Nat) : Bool := s.get (pg T.spr e) F.SPR_STS_STATE == 4

theorem takeOver_decided {s : State} {e c d : Nat} (t : Nat) (h : (s.sprOf e).take = some (c, d)) :
    s.takeOver e t =
      ((s.spareServes e c (s.spareInHeel e)).takeShown (pg T.spr e) c (s.cleanT c / 1024) (t / 1024)
        (s.spareInHeel e)).rerunSent c (s.cleanT c / 1024) (t / 1024) := by
  unfold takeOver
  dsimp only
  rw [h]
  rfl

/-! What the takeover shows on the spare's page. -/

theorem stsTaken_shows (s : State) (p c : Nat) (heel : Bool) :
    (s.stsTaken p c heel).get p F.SPR_STS_STATE = (if heel then s.get p F.SPR_STS_STATE else 2) ∧
      (s.stsTaken p c heel).get p F.SPR_STS_FOR_CH = c % 16 ∧ (s.stsTaken p c heel).flag p F.SPR_STS_TAKEOVER = true := by
  unfold stsTaken
  refine ⟨?state, ?forCh, flag_put_same _ _ _ _ (by decide) rfl⟩
  case state =>
    rw [put, get_set_beside _ _ _ _ _ (by decide), get_set_beside _ _ _ _ _ (by decide)]
    cases heel
    · exact get_set_same s p F.SPR_STS_STATE 2 (by decide) (by decide)
    · rfl
  case forCh =>
    rw [put, get_set_beside _ _ _ _ _ (by decide), get_set_same _ _ _ _ (by decide) (by decide)]
    exact Nat.mod_mod _ _

theorem winShown_shows (s : State) (p ws we : Nat) :
    (s.winShown p ws we).get64 p F.SPR_WIN_START_LO_START F.SPR_WIN_START_HI_START = ws % 2 ^ 64 ∧
      (s.winShown p ws we).get64 p F.SPR_WIN_END_LO_END F.SPR_WIN_END_HI_END = we % 2 ^ 64 := by
  unfold winShown
  refine ⟨?_, get64_set64_same _ _ _ (by decide) (by decide) (by decide)⟩
  rw [get64_set64_other _ _ _ (by decide)]
  exact get64_set64_same _ _ _ (by decide) (by decide) (by decide)

/-- The window's registers are not those of SPR_STS. -/
theorem takeShown_sts (s : State) (p c ws we : Nat) (heel : Bool) {f : Fld} (hf : f.ofs = 0x104) :
    (s.takeShown p c ws we heel).get p f = (s.stsTaken p c heel).get p f := by
  have hofs (g : Fld) (hg : g.ofs ≠ 0x104) : g.ofs ≠ f.ofs := hf ▸ hg
  rw [takeShown, winShown, get_set64_ofs _ _ _ (hofs _ (by decide)) (hofs _ (by decide)),
    get_set64_ofs _ _ _ (hofs _ (by decide)) (hofs _ (by decide)), get_rise_ofs _ _ _ (by rw [hf]; decide)]

theorem takeShown_fltBit (s : State) (p c ws we : Nat) (heel : Bool) :
    (s.takeShown p c ws we heel).fltBit p X.SPR_TAKEOVER = true := by
  have h := fltBit_rise (s.stsTaken p c heel) p (b := X.SPR_TAKEOVER) (by decide)
  rw [fltBit] at h ⊢
  rw [takeShown, winShown, set64, set64, rd_set_ofs _ _ _ _ _ (by decide), rd_set_ofs _ _ _ _ _ (by decide),
    rd_set_ofs _ _ _ _ _ (by decide), rd_set_ofs _ _ _ _ _ (by decide)]
  exact h

/-- What the takeover shows changes registers of the spare's page, and rises. -/
theorem takeShown_frame (s : State) (p c ws we : Nat) (heel : Bool) :
    RisesOnly s (s.takeShown p c ws we heel) ∧
      ReadsBut s (s.takeShown p c ws we heel) p [0x010, 0x104, 0x120, 0x124, 0x128, 0x12C] := by
  have hstate : RisesOnly s (if heel then s else s.set p F.SPR_STS_STATE 2) ∧
      ReadsBut s (if heel then s else s.set p F.SPR_STS_STATE 2) p [0x010, 0x104, 0x120, 0x124, 0x128, 0x12C] := by
    cases heel
    · exact ⟨⟨_, _, rfl⟩, (ReadsBut.refl s _ _).set _ (by decide) (by decide)⟩
    · exact ⟨⟨s.regs, s.flt, rfl⟩, ReadsBut.refl s _ _⟩
  obtain ⟨honly, hreads⟩ := hstate
  exact ⟨((((honly.set _ _ _).set _ _ _).rise _ _).set64 _ _ _ _).set64 _ _ _ _,
    ((((hreads.set _ (by decide) (by decide)).set _ (by decide) (by decide)).rise _ (by decide)).set64 _ (by decide)
      (by decide)).set64 _ (by decide) (by decide)⟩

/-! What the takeover leaves of the spare's page and of the channel's. -/

theorem pg_chn_ne_spr {c e : Nat} (hc : c < 256) : pg T.chn c ≠ pg T.spr e := by
  simp only [pg, T.chn, T.spr]
  omega

theorem spareServes_get (s : State) {e c : Nat} (heel : Bool) {q : Nat} {f : Fld} (hf : f.ofs < 4096)
    (h : q ≠ pg T.chn c ∨ f.ofs ≠ F.CHN_STS_TAKEN.ofs) : (s.spareServes e c heel).get q f = s.get q f := by
  refine (get_set_other _ _ _ _ _ _ ?_).trans rfl
  rcases h with h | h
  · exact rkey_page (by decide) hf h.symm
  · exact rkey_offset (by decide) hf h.symm

theorem spareServes_taken (s : State) (e c : Nat) (heel : Bool) :
    (s.spareServes e c heel).flag (pg T.chn c) F.CHN_STS_TAKEN = true := flag_put_same _ _ _ _ (by decide) rfl

theorem spareServes_absorbed (s : State) (e c : Nat) (heel : Bool) : (s.spareServes e c heel).absorbed c = s.absorbed c :=
  flag_set_beside _ _ _ _ _ (by decide)

/-- A channel's site is as before the takeover. -/
theorem siteOfCh_takeShown (s : State) (e ws we : Nat) {c : Nat} (heel : Bool) (hc : c < 256) :
    ((s.spareServes e c heel).takeShown (pg T.spr e) c ws we heel).siteOfCh c = s.siteOfCh c := by
  obtain ⟨-, hreads⟩ := takeShown_frame (s.spareServes e c heel) (pg T.spr e) c ws we heel
  have habs : ((s.spareServes e c heel).takeShown (pg T.spr e) c ws we heel).absorbed c = s.absorbed c := by
    rw [← spareServes_absorbed s e c heel, absorbed, flag, hreads.get (by decide) (pg_chn_ne_spr hc), absorbed, flag]
  have hsite (k : Nat) (hk : k < 256) :
      ((s.spareServes e c heel).takeShown (pg T.spr e) c ws we heel).get (pg T.chn k) F.CHN_CTL_SITE =
        s.get (pg T.chn k) F.CHN_CTL_SITE :=
    (hreads.get (by decide) (pg_chn_ne_spr hk)).trans (spareServes_get s heel (by decide) (.inr (by decide)))
  rw [siteOfCh, siteOfCh, habs]
  exact hsite _ (by split <;> omega)

section

variable {s : State} {e c d : Nat} (t : Nat) (h : (s.sprOf e).take = some (c, d))
include h

/-- What a takeover changes beside registers and rises. -/
theorem takeOver_frame :
    (s.takeOver e t).now = s.now ∧ (s.takeOver e t).hbm = s.hbm ∧ (s.takeOver e t).groups = s.groups ∧
      (s.takeOver e t).sprOf e =
        { s.sprOf e with take := none, was := if s.spareInHeel e then 2 else (s.sprOf e).was } := by
  obtain ⟨⟨rs, fl, hshown⟩, -⟩ := takeShown_frame (s.spareServes e c (s.spareInHeel e)) (pg T.spr e) c
    (s.cleanT c / 1024) (t / 1024) (s.spareInHeel e)
  rw [takeOver_decided t h, hshown]
  exact ⟨rfl, rfl, rfl, sprOf_setSpr s e _⟩

/-- What a takeover shows on the spare's page. -/
theorem takeOver_shows (hc : c < 256) :
    let p := pg T.spr e
    let u := s.takeOver e t
    u.get p F.SPR_STS_STATE = (if s.spareInHeel e then s.get p F.SPR_STS_STATE else 2) ∧
      u.get p F.SPR_STS_FOR_CH = c % 16 ∧ u.flag p F.SPR_STS_TAKEOVER = true ∧ u.fltBit p X.SPR_TAKEOVER = true ∧
      u.get64 p F.SPR_WIN_START_LO_START F.SPR_WIN_START_HI_START = s.cleanT c / 1024 % 2 ^ 64 ∧
      u.get64 p F.SPR_WIN_END_LO_END F.SPR_WIN_END_HI_END = t / 1024 % 2 ^ 64 := by
  let x := s.spareServes e c (s.spareInHeel e)
  have hsts {f : Fld} (hf : f.ofs = 0x104) : (s.takeOver e t).get (pg T.spr e) f =
      (x.stsTaken (pg T.spr e) c (s.spareInHeel e)).get (pg T.spr e) f := by
    rw [takeOver_decided t h, get_rerunSent]
    exact takeShown_sts x _ _ _ _ _ hf
  obtain ⟨hstate, hfor, htake⟩ := stsTaken_shows x (pg T.spr e) c (s.spareInHeel e)
  have hx : x.get (pg T.spr e) F.SPR_STS_STATE = s.get (pg T.spr e) F.SPR_STS_STATE :=
    spareServes_get s _ (by decide) (.inl (pg_chn_ne_spr hc).symm)
  have hwin := winShown_shows ((x.stsTaken (pg T.spr e) c (s.spareInHeel e)).rise (pg T.spr e) X.SPR_TAKEOVER)
    (pg T.spr e) (s.cleanT c / 1024) (t / 1024)
  refine ⟨(hsts rfl).trans (hx ▸ hstate), (hsts rfl).trans hfor, ?_, ?_, ?_⟩
  · rw [flag, hsts rfl]
    exact htake
  · rw [takeOver_decided t h, fltBit_rerunSent]
    exact takeShown_fltBit x _ _ _ _ _
  · rw [takeOver_decided t h, get64_rerunSent, get64_rerunSent]
    exact hwin

variable (hc : c < 256)
include hc

/-- The re-run record of a takeover (R108). -/
theorem takeOver_reruns :
    (s.takeOver e t).sch.reruns = s.sch.reruns ++ [(c, s.siteOfCh c, s.cleanT c / 1024, t / 1024)] := by
  obtain ⟨⟨rs, fl, hshown⟩, -⟩ := takeShown_frame (s.spareServes e c (s.spareInHeel e)) (pg T.spr e) c
    (s.cleanT c / 1024) (t / 1024) (s.spareInHeel e)
  rw [takeOver_decided t h, rerunSent, siteOfCh_takeShown s e _ _ _ hc, hshown]
  rfl

theorem takeOver_taken : (s.takeOver e t).flag (pg T.chn c) F.CHN_STS_TAKEN = true := by
  obtain ⟨-, hreads⟩ := takeShown_frame (s.spareServes e c (s.spareInHeel e)) (pg T.spr e) c
    (s.cleanT c / 1024) (t / 1024) (s.spareInHeel e)
  rw [← spareServes_taken s e c (s.spareInHeel e), takeOver_decided t h, flag_rerunSent, flag, flag,
    hreads.get (by decide) (pg_chn_ne_spr hc)]

end

/-! Whether and when a takeover decided is carried out. -/

theorem takeover_none {s : State} {e : Nat} (h : (s.sprOf e).take = none) : s.takeover e = s := by rw [takeover, h]

section

variable {s : State} {e c d : Nat} (h : (s.sprOf e).take = some (c, d))
include h

theorem takeover_placing (hp : s.placing e = true) : s.takeover e = s := by
  rw [takeover, h]
  exact if_pos hp

theorem takeover_carried (hp : s.placing e = false) :
    s.takeover e =
      let v := s.upToQ (e / 4) (d + 32768 - s.era)
      v.takeOver e (v.nowQ (e / 4)) := by
  rw [takeover, h]
  exact if_neg (by simp [hp])

end

end State

end Sys2Proof.Machine

namespace Sys2Proof

open Sys2Proof.Machine Sys2Proof.Machine.State

theorem does_mismatch {s u : State} {e : Eye} {l r : BitVec 16} {nl nr : Bool} {t : Nat}
    (h : s.mismatch e.val l.toInt r.toInt nl nr t = u) : Does (.mismatchDecision e l r nl nr t) s u := Does.of rfl h

theorem does_takeover {s u : State} {e : Eye} (h : s.takeover e.val = u) : Does (.takeover e) s u := Does.of rfl h

/-- Settles O27: the decision by the spare's state, in a dwell and in heel, and the takeover. -/
theorem mismatchesLeadToTakeovers : Obligations.MismatchesLeadToTakeovers := by
  unfold Obligations.MismatchesLeadToTakeovers
  refine ⟨?decisions, ?takeovers⟩
  case decisions =>
    intro s e l r nl nr t
    refine ⟨fun hon hheel => does_mismatch (mismatch_unseen _ _ _ _ hon hheel),
      fun hon hst => ?shadow, fun hon hst => ?spent, fun hon hst => ?off, fun hheel hst => ?heelShadow,
      fun hheel hst => ?heelSpent⟩
    case shadow =>
      have he := mismatch_on l.toInt r.toInt nl nr hon
      exact ⟨fun ha => does_mismatch (he.trans (decided_agree hst ha)),
        fun ha ht => does_mismatch (he.trans (decided_waits hst ha ht)),
        fun ha ht hl => does_mismatch (he.trans ((decided_arbitrates hst ha ht).trans (arbitrate_live hl))),
        fun ha ht hl => does_mismatch (he.trans ((decided_arbitrates hst ha ht).trans (arbitrate_spare hl)))⟩
    case spent =>
      have he := mismatch_on l.toInt r.toInt nl nr hon
      exact ⟨fun hn => does_mismatch (he.trans (decided_near hst hn)),
        fun hn => does_mismatch (he.trans (decided_far hst hn))⟩
    case off => exact does_mismatch ((mismatch_on _ _ _ _ hon).trans (decided_off hst))
    case heelShadow =>
      have he := mismatch_heel l.toInt r.toInt nl nr hheel
      refine ⟨fun h => h.elim (fun ha => does_mismatch (he.trans (decided_agree hst ha))) fun ht => ?_,
        fun ha ht hl => does_mismatch (he.trans ((decided_arbitrates hst ha ht).trans (arbitrate_live hl))),
        fun ha ht hl => does_mismatch (he.trans ((decided_arbitrates hst ha ht).trans (arbitrate_spare hl)))⟩
      by_cases ha : Agree (s.sprOf e.val) l.toInt r.toInt nl nr
      · exact does_mismatch (he.trans (decided_agree hst ha))
      · exact does_mismatch (he.trans (decided_waits hst ha ht))
    case heelSpent =>
      have he := mismatch_heel l.toInt r.toInt nl nr hheel
      exact ⟨fun hn => does_mismatch (he.trans (decided_near hst hn)),
        fun hn => does_mismatch (he.trans (decided_far hst hn))⟩
  case takeovers =>
    intro s e
    refine ⟨fun h => does_takeover (takeover_none h), fun c d h hc =>
      ⟨fun hp => does_takeover (takeover_placing h hp), fun hp => ?carried⟩⟩
    let v := s.upToQ (e.val / 4) (d + 32768 - s.era)
    let t := v.nowQ (e.val / 4)
    have hv : (v.sprOf e.val).take = some (c, d) := (congrArg SprDyn.take (upTo_sprOf s _ _)).trans h
    have hst : v.get (pg T.spr e.val) F.SPR_STS_STATE = s.get (pg T.spr e.val) F.SPR_STS_STATE := upTo_get s _ _ _
    obtain ⟨hnow, hhbm, hgroups, hspr⟩ := takeOver_frame t hv
    obtain ⟨hstate, hfor, htake, hflt, hstart, hend⟩ := takeOver_shows t hv hc
    have hreruns := takeOver_reruns t hv hc
    rw [show v.sch = s.sch from upTo_sch s _, show v.siteOfCh c = s.siteOfCh c from upTo_siteOfCh s _ c] at hreruns
    refine ⟨_, does_takeover (takeover_carried h hp), congrArg SprDyn.take hspr, takeOver_taken t hv hc, fun h4 => ?_,
      fun h4 => ⟨?_, ?_⟩, hfor, htake, hflt, hstart, hend, hnow, hreruns, hhbm.trans (upTo_hbm s _),
      hgroups.trans (upTo_groups s _)⟩
    · have hheel : v.spareInHeel e.val = false := beq_false_of_ne (hst.trans_ne h4)
      rwa [hheel] at hstate
    · have hheel : v.spareInHeel e.val = true := beq_iff_eq.2 (hst.trans h4)
      rw [hheel] at hstate
      exact hstate.trans (hst.trans h4)
    · have hheel : v.spareInHeel e.val = true := beq_iff_eq.2 (hst.trans h4)
      rw [hheel] at hspr
      exact congrArg SprDyn.was hspr

end Sys2Proof

/-!
Loads of the resident area, the granules that arrive and the presence checks (R120, R122, R123, R125, R130, R164).
-/
namespace Sys2Proof.Machine

open Sys2Proof

/-! ## The next granule boundary of a running group (R123) -/

/-- Vectors until the group's next granule boundary: where the hold ends, in a hold. -/
def Group.toBoundary (g : Group) : Nat :=
  if g.holdLeft ≠ 0 then g.holdLeft else min ((64 - g.vec % 64) % 64) (g.cur.length - g.vec)

/-- The vector that begins at that boundary. -/
def Group.boundaryVec (g : Group) : Nat := if g.holdLeft ≠ 0 then g.vec else g.vec + g.toBoundary

/-- The pass after the one in play waits for AT (R164). -/
abbrev Group.WaitsFor (g : Group) (p : Pass) : Prop := p.sync = true ∧ p.first = true ∧ p.entry ≠ g.cur.entry

theorem Group.waitsFor_iff (g : Group) (p : Pass) :
    (p.sync && p.first && p.entry != g.cur.entry) = true ↔ g.WaitsFor p := by
  rw [Bool.and_eq_true, Bool.and_eq_true, bne_iff_ne, and_assoc]

namespace State

/-! ## GO of a vamp load (R120) -/

/-- Where the lines of a load begin in HBM, by the registers. -/
def loadSrc (s : State) (e : Nat) : Nat :=
  s.get (eyePg e) F.EYE_VAMP_LD_SRC_LO_SRC_L * 64 + s.get (eyePg e) F.EYE_VAMP_LD_SRC_HI_SRC_H * 2 ^ 32

/-- Lines of a load, by the register. -/
def loadCount (s : State) (e : Nat) : Nat := s.get (eyePg e) F.EYE_VAMP_LD_CTL_COUNT

/-- The load that the registers describe may run (R120). -/
abbrev LoadAllowed (s : State) (e : Nat) : Prop :=
  s.get (eyePg e) F.EYE_SEQ_STS_STATE = 0 ∧ s.flag (eyePg e) F.EYE_VAMP_STS_LOAD_BUSY = false ∧ 3 ≤ s.stage ∧
    16 * (s.get (eyePg e) F.EYE_VAMP_LD_CTL_DST + s.loadCount e) ≤ s.resWords e ∧
    s.hbmReach (s.loadSrc e) (64 * s.loadCount e) = true

theorem loadAllowed_iff (s : State) (e : Nat) :
    (s.resFree e && decide (3 ≤ s.stage) &&
      decide (16 * (s.get (eyePg e) F.EYE_VAMP_LD_CTL_DST + s.loadCount e) ≤ s.resWords e) &&
      s.hbmReach (s.loadSrc e) (64 * s.loadCount e)) = true ↔ s.LoadAllowed e := by
  simp only [resFree, Bool.and_eq_true, Bool.not_eq_true', beq_iff_eq, decide_eq_true_eq, and_assoc]

/-- What GO does once its word stands in the register. -/
def loadGo (s : State) (e : Nat) : State :=
  if s.LoadAllowed e then
    if s.loadCount e = 0 then s
    else (s.setEye e { s.eyeOf e with
      load := some (s.loadSrc e, s.get (eyePg e) F.EYE_VAMP_LD_CTL_DST, s.loadCount e) }).put (eyePg e)
        F.EYE_VAMP_STS_LOAD_BUSY true
  else s.put (eyePg e) F.EYE_VAMP_STS_LOAD_ERR true

theorem vampLoad_go (s : State) (e : Nat) {v : W32} (h : v.getLsbD 31 = true) :
    s.vampLoad e v = (s.writeReg (eyePg e) 0x238 v false).loadGo e := by
  have hgo : ¬ (!v.getLsbD 31) = true := by rw [h]; decide
  exact (if_neg hgo).trans (if_congr (loadAllowed_iff _ e) rfl rfl)

theorem loadGo_refused {s : State} {e : Nat} (h : ¬ s.LoadAllowed e) :
    s.loadGo e = s.put (eyePg e) F.EYE_VAMP_STS_LOAD_ERR true := if_neg h

section

variable {s : State} {e : Nat} (h : s.LoadAllowed e)
include h

theorem loadGo_empty (hn : s.loadCount e = 0) : s.loadGo e = s := (if_pos h).trans (if_pos hn)

theorem loadGo_starts (hn : s.loadCount e ≠ 0) :
    s.loadGo e = (s.setEye e { s.eyeOf e with
      load := some (s.loadSrc e, s.get (eyePg e) F.EYE_VAMP_LD_CTL_DST, s.loadCount e) }).put (eyePg e)
        F.EYE_VAMP_STS_LOAD_BUSY true := (if_pos h).trans (if_neg hn)

end

/-! ## The end of a load -/

theorem loadDone_none {s : State} {e : Nat} (h : (s.eyeOf e).load = none) : s.loadDone e = s := by rw [loadDone, h]

theorem loadDone_some {s : State} {e src dst n : Nat} (h : (s.eyeOf e).load = some (src, dst, n)) :
    s.loadDone e =
      let u := (List.range n).foldl (fun s i => s.loadLine e (src + 64 * i) (dst + i)) s
      (u.setEye e { u.eyeOf e with load := none }).put (eyePg e) F.EYE_VAMP_STS_LOAD_BUSY false := by
  rw [loadDone, h]

/-! ## A granule arrives (R122, R130) -/

/-- Granules requested that have not arrived. -/
def awaited (s : State) (e : Nat) : List Gran := (s.eyeOf e).gran.filter (fun x => x.done.isNone && !x.range)

/-- Address of the first line of granule `k` of a pass. -/
def granAddr (s : State) (e : Nat) (q : Pass) (k : Nat) : Nat := s.patBase e + 64 * s.granLine e q k

/-- The granule `x`, of `n` lines at `a`, is stored with the words and the poison of its lines. -/
def granStored (s : State) (g : Group) (e : Nat) (x : Gran) (n a : Nat) : State :=
  let u := (List.range (2 * n)).foldl (fun s h => s.hbmTouch (a + 32 * h)) s
  (u.setEye e { u.eyeOf e with gran := (s.eyeOf e).gran.map (fun y =>
    if y.pass = x.pass ∧ y.g = x.g then
      { y with done := some (u.nowQ (e / 4)), words := u.hbmWords a (16 * n),
               poison := (List.range (2 * n)).map (fun h => u.rdPoison (a + 32 * h)), err := [] }
    else y) }).aheadSync g e

theorem granComplete_unawaited {s : State} {e i : Nat} (h : (s.awaited e).length ≤ i) : s.granComplete e i = s := by
  have hx : ((s.eyeOf e).gran.filter (fun x => x.done.isNone && !x.range))[i]? = none := List.getElem?_eq_none h
  unfold granComplete
  dsimp only
  rw [hx]

theorem granComplete_ungrouped {s : State} {e : Nat} (i : Nat) (h : s.groupOf e = none) : s.granComplete e i = s := by
  cases hx : (s.awaited e)[i]? with
  | none => exact granComplete_unawaited (List.getElem?_eq_none_iff.1 hx)
  | some x =>
    rw [awaited] at hx
    unfold granComplete
    dsimp only
    rw [hx, h]

section

variable {s : State} {e i : Nat} {g : Group} {x : Gran} (hx : (s.awaited e)[i]? = some x)
  (hg : s.groupOf e = some g)
include hx hg

theorem granComplete_stored {q : Pass} (hq : (g.cur :: g.queue).find? (fun p => p.ord == x.pass) = some q) :
    s.granComplete e i = s.granStored g e x (64 / s.vpl e) (s.granAddr e q x.g) := by
  rw [awaited] at hx
  unfold granComplete
  dsimp only
  rw [hx, hg]
  dsimp only
  rw [hq]
  rfl

theorem granComplete_unplayed (hq : (g.cur :: g.queue).find? (fun p => p.ord == x.pass) = none) :
    s.granComplete e i = s := by
  rw [awaited] at hx
  unfold granComplete
  dsimp only
  rw [hx, hg]
  dsimp only
  rw [hq]

end

/-! ## Presence checks (R123, R164) -/

/-- The granule `k` of a pass is looked at 32 UI before its boundary, where that can be told. -/
def checkDue (s : State) (g : Group) (e : Nat) (p : Pass) (k : Nat) : Option Nat → State
  | some b => (s.upToQ (g.leader / 4) (b - 32768)).checkNext p k e b
  | none => s

/-- The instant of a running group's next granule boundary. -/
def boundaryAt (s : State) (g : Group) : Nat := g.at_ + g.toBoundary * s.period g.leader g.cur.tset

/-- Where the next pass of a running group begins: at that boundary, or at AT once it can be told. -/
def nextBegins (s : State) (g : Group) (p : Pass) : Option Nat :=
  if g.WaitsFor p then s.syncBound g (s.boundaryAt g) else some (s.boundaryAt g)

theorem presence_idle {s : State} {e : Nat} (h : ∀ g, s.groupOf e = some g → g.st = .armed) : s.presence e = s := by
  unfold presence
  cases hg : s.groupOf e with
  | none => rfl
  | some g =>
    dsimp only
    rw [h g hg]

section

variable {s : State} {e : Nat} {g : Group} (hg : s.groupOf e = some g)
include hg

theorem presence_waiting (hst : g.st = .waiting) :
    s.presence e = s.checkDue g e g.cur 0 (s.syncBound g g.at_) := by
  unfold presence
  rw [hg]
  dsimp only
  rw [hst]
  rfl

variable (hst : g.st = .running)
include hst

theorem presence_within (hv : g.boundaryVec < g.cur.length) :
    s.presence e = s.checkDue g e g.cur (g.boundaryVec / 64) (some (s.boundaryAt g)) := by
  unfold presence
  rw [hg]
  dsimp only
  rw [hst]
  exact if_pos hv

variable (hv : g.cur.length ≤ g.boundaryVec)
include hv

theorem presence_last (hq : g.queue = []) : s.presence e = s := by
  unfold presence
  rw [hg]
  dsimp only
  rw [hst, hq]
  exact if_neg hv.not_gt

theorem presence_next {p : Pass} {r : List Pass} (hq : g.queue = p :: r) :
    s.presence e = s.checkDue g e p 0 (s.nextBegins g p) := by
  have hbegins : (if p.sync && p.first && p.entry != g.cur.entry then s.syncBound g (s.boundaryAt g)
      else some (s.boundaryAt g)) = s.nextBegins g p := if_congr (g.waitsFor_iff p) rfl rfl
  rw [← hbegins]
  unfold presence
  rw [hg]
  dsimp only
  rw [hst, hq]
  exact if_neg hv.not_gt

end

end State

end Sys2Proof.Machine

namespace Sys2Proof

open Sys2Proof.Machine Sys2Proof.Machine.State

theorem does_goVampLoad {s t : State} {e : Eye} {v : W32} (hR : Reaches s (eyePg e.val))
    (h : (s.writeReg (eyePg e.val) 0x238 (v ||| 0x80000000) false).loadGo e.val = t) : Does (.goVampLoad e v) s t :=
  have hgo : (v ||| 0x80000000).getLsbD 31 = true := by simp
  Does.of rfl ((onPage_reaches _ _ _ hR).trans ((vampLoad_go s e.val hgo).trans h))

theorem does_vampLoadDone {s t : State} {e : Eye} (h : s.loadDone e.val = t) : Does (.vampLoadDone e) s t := Does.of rfl h

theorem does_granuleComplete {s t : State} {e : Eye} {i : Nat} (h : s.granComplete e.val i = t) :
    Does (.granuleComplete e i) s t := Does.of rfl h

theorem does_presenceCheck {s t : State} {e : Eye} (h : s.presence e.val = t) : Does (.presenceCheck e) s t :=
  Does.of rfl h

/-- Settles O28: GO of a load and its end, the restart of MIN_SLACK, a granule that arrives, and the presence checks of
a group by its state. -/
theorem vampLoadsFillGranules : Obligations.VampLoadsFillGranules := by
  unfold Obligations.VampLoadsFillGranules
  refine ⟨⟨?go, ?load⟩, fun s e i => ⟨?unawaited, ?stored, ?unplayed, ?running, ?waiting, ?idle⟩⟩
  case go =>
    exact fun s e v hR => ⟨fun h => does_goVampLoad hR (loadGo_refused h),
      fun h hn => does_goVampLoad hR (loadGo_empty h hn), fun h hn => does_goVampLoad hR (loadGo_starts h hn)⟩
  case load =>
    exact fun s e => ⟨fun h => does_vampLoadDone (loadDone_none h),
      fun src dst n h => does_vampLoadDone (loadDone_some h), fun hR => Does.of rfl (onPage_reaches _ _ _ hR)⟩
  case unawaited =>
    exact fun h => does_granuleComplete (h.elim granComplete_unawaited (granComplete_ungrouped i))
  case stored => exact fun g x q hx hg hq => does_granuleComplete (granComplete_stored hx hg hq)
  case unplayed => exact fun g x hx hg hq => does_granuleComplete (granComplete_unplayed hx hg hq)
  case running =>
    intro g hg hst
    refine ⟨fun hv => does_presenceCheck (presence_within hg hst hv),
      fun hv hq => does_presenceCheck (presence_last hg hst hv hq), fun hv p r hq => ?next⟩
    have hnext := presence_next hg hst hv hq
    refine ⟨fun hw => ?begins, fun hw t ht => ?told, fun hw ht => ?untold⟩
    case begins =>
      rw [nextBegins, if_neg hw] at hnext
      exact does_presenceCheck hnext
    case told => exact does_presenceCheck (hnext.trans (congrArg _ ((if_pos hw).trans ht)))
    case untold => exact does_presenceCheck (hnext.trans (congrArg _ ((if_pos hw).trans ht)))
  case waiting =>
    intro g hg hst
    have hwaits := presence_waiting hg hst
    exact ⟨fun t ht => does_presenceCheck (hwaits.trans (congrArg _ ht)),
      fun ht => does_presenceCheck (hwaits.trans (congrArg _ ht))⟩
  case idle => exact fun h => does_presenceCheck (presence_idle h)

end Sys2Proof

/-!
The DDS units: writes of DDS_CTL, starts, edges and hops, the hop-time queue and the list (R168, R172, R175, R177, R179
to R182).
-/
namespace Sys2Proof.Machine

open Sys2Proof

namespace State

/-! ## GO and STOP (R180 to R182) -/

/-- The fields of DDS_CTL written: subject to R19, the reserved START_MODE 3 and SEG_SEL 3 refused. -/
def ddsCtlFields (s : State) (e : Nat) (w : W32) : State :=
  s.writeReg (pg T.dds e) 0x100 w (fget w 3 2 == 3 || fget w 14 13 == 3)

/-- A write of GO: a STOP beside it acts first. -/
theorem ddsCtl_go (s : State) (e : Nat) (v : W32) :
    s.ddsCtl e (v ||| 1) =
      (if v.getLsbD 1 then (s.ddsCtlFields e (v ||| 1)).ddsStop e else s.ddsCtlFields e (v ||| 1)).ddsGo e := by
  have hgo : (v ||| 1).getLsbD 0 = true := by simp
  have hstop : (v ||| 1).getLsbD 1 = v.getLsbD 1 := by simp
  unfold ddsCtl
  rw [hgo, hstop]
  rfl

/-- A write of STOP: a GO beside it acts after it. -/
theorem ddsCtl_stop (s : State) (e : Nat) (v : W32) :
    s.ddsCtl e (v ||| 2) =
      if v.getLsbD 0 then ((s.ddsCtlFields e (v ||| 2)).ddsStop e).ddsGo e
      else (s.ddsCtlFields e (v ||| 2)).ddsStop e := by
  have hgo : (v ||| 2).getLsbD 0 = v.getLsbD 0 := by simp
  have hstop : (v ||| 2).getLsbD 1 = true := by simp
  unfold ddsCtl
  rw [hgo, hstop]
  rfl

/-- The unit armed by a GO: its hop-time queue is empty, and T is not known yet (R180). -/
def ddsArmed (s : State) (e : Nat) : State :=
  ((s.setDds e { s.ddsOf e with
      hopQ := [], startT := none, stuck := false, mode := s.get (pg T.dds e) F.DDS_CTL_START_MODE,
      tag := s.get (pg T.dds e) F.DDS_CTL_START_TAG }).set (pg T.dds e) F.DDS_HOP_Q_STS_DEPTH 0).ddsState e 1

theorem ddsGo_refused {s : State} {e : Nat} (h : s.ddsReasonAt e (s.ddsT e) ≠ 0) :
    s.ddsGo e = s.ddsRefuse e (s.ddsReasonAt e (s.ddsT e)) := if_pos h

section

variable {s : State} {e : Nat} (h : s.ddsReasonAt e (s.ddsT e) = 0)
include h

theorem ddsGo_waits (ht : s.ddsT e = none) : s.ddsGo e = s.ddsArmed e := by
  rw [ddsGo]
  exact (if_neg (not_not.2 h)).trans (by rw [ht]; rfl)

theorem ddsGo_starts {t : Nat} (ht : s.ddsT e = some t) : s.ddsGo e = (s.ddsArmed e).ddsStartAt e t := by
  rw [ddsGo]
  exact (if_neg (not_not.2 h)).trans (by rw [ht]; rfl)

end

section

variable {s : State} {e : Nat}

theorem ddsStop_stopped (h : s.get (pg T.dds e) F.DDS_STS_STATE = 0) : s.ddsStop e = s := if_pos h

theorem ddsStop_running (h : s.get (pg T.dds e) F.DDS_STS_STATE = 2) :
    s.ddsStop e = s.setDds e { s.ddsOf e with stop := true } :=
  (if_neg (by rw [h]; decide)).trans (if_pos h)

theorem ddsStop_waiting (h0 : s.get (pg T.dds e) F.DDS_STS_STATE ≠ 0) (h2 : s.get (pg T.dds e) F.DDS_STS_STATE ≠ 2) :
    s.ddsStop e = s.ddsEnd e := (if_neg h0).trans (if_neg h2)

/-! ## T, edges and hops (R168, R175, R179, R180) -/

theorem ddsStart_none (h : (s.ddsOf e).startT = none) : s.ddsStart e = s := by rw [ddsStart, h]

theorem ddsStart_some {t : Nat} (h : (s.ddsOf e).startT = some t) :
    s.ddsStart e = ((s.upToQ (e / 4) (t * 1024)).takeNow e).ddsBegin e t := by rw [ddsStart, h]

/-- The next half cycle has passed: the level is inverted where it differs from the one that follows. -/
def edgePlaced (s : State) (e t : Nat) (up : Bool) : State :=
  let a := s.setDds e { s.ddsOf e with half := (s.ddsOf e).half + 1 }
  if up = (s.ddsOf e).level then a else a.ddsEdge e t up

theorem clockEdge_none (h : ddsNextEdge (s.ddsOf e) = none) : s.clockEdge e = s := by
  rw [clockEdge, h]

section

variable {t : Nat} {up : Bool} (h : ddsNextEdge (s.ddsOf e) = some (t, up))
include h

theorem clockEdge_some : s.clockEdge e =
    if (s.ddsOf e).stop && !up then (s.edgePlaced e t up).ddsEnd e else s.edgePlaced e t up := by
  rw [clockEdge, h]
  rfl

/-- The falling edge at which a pending STOP acts (R182). -/
theorem clockEdge_ends (hstop : (s.ddsOf e).stop = true ∧ up = false) :
    s.clockEdge e = (s.edgePlaced e t up).ddsEnd e :=
  (clockEdge_some h).trans (if_pos (by simp [hstop]))

theorem clockEdge_goes_on (hgo : (s.ddsOf e).stop = false ∨ up = true) : s.clockEdge e = s.edgePlaced e t up :=
  (clockEdge_some h).trans (if_neg (by rcases hgo with h | h <;> simp [h]))

end

/-- A unit with no hop of which the instant and the entry stand. -/
theorem hop_idle (h : (s.ddsOf e).hopAt = none ∨ (s.ddsOf e).succ = none ∨ (s.ddsOf e).segOrd ≠ none ∨
    (s.ddsOf e).stuck = true ∨ (s.ddsOf e).on = false) : s.hop e = s := by
  rw [hop]
  cases hat : (s.ddsOf e).hopAt with
  | none => rfl
  | some t =>
    cases hsucc : (s.ddsOf e).succ with
    | none => rfl
    | some i =>
      rw [hat, hsucc] at h
      have hrest : ((s.ddsOf e).segOrd.isSome || (s.ddsOf e).stuck || !(s.ddsOf e).on) = true := by
        simpa [Option.isSome_iff_ne_none, or_assoc] using h
      exact if_pos hrest

/-- A hop that stands is made, unless a STOP acts in its core cycle (R179). -/
theorem hop_due {h i : Nat} (hat : (s.ddsOf e).hopAt = some h) (hsucc : (s.ddsOf e).succ = some i)
    (hseg : (s.ddsOf e).segOrd = none) (hstuck : (s.ddsOf e).stuck = false) (hon : (s.ddsOf e).on = true) :
    s.hop e =
      if stopDue (s.ddsOf e) h then s.clockEdge e else (s.upToQ (e / 4) (h * 1024)).ddsHop e i h false := by
  rw [hop, hat, hsucc]
  exact if_neg (by simp [hseg, hstuck, hon])

/-! ## The hop-time queue (R177) -/

/-- A hop time has joined the queue. -/
def hopQueued (s : State) (e : Nat) (v : W32) : State :=
  (s.setDds e { s.ddsOf e with
    hopQ := (s.ddsOf e).hopQ ++ [s.get (pg T.dds e) F.DDS_HOP_AT_LO_AT_L + v.toNat * 2 ^ 32] }).set (pg T.dds e)
      F.DDS_HOP_Q_STS_DEPTH ((s.ddsOf e).hopQ.length + 1)

variable {v : W32}

theorem hopPush_full (h : 16 ≤ (s.ddsOf e).hopQ.length) : s.hopPush e v = s.put (pg T.dds e) F.DDS_HOP_Q_STS_OVF true :=
  if_pos h

section

variable (h : (s.ddsOf e).hopQ.length < 16)
include h

/-- A unit in WAIT_TIME takes the hop time. -/
theorem hopPush_taken
    (hw : (s.hopQueued e v).get (pg T.dds e) F.DDS_STS_STATE = 3 ∧ (s.ddsOf e).stuck = false) :
    s.hopPush e v = ((s.hopQueued e v).setDds e { (s.hopQueued e v).ddsOf e with timed := true }).ddsDue e
      (s.get (pg T.dds e) F.DDS_HOP_AT_LO_AT_L + v.toNat * 2 ^ 32) :=
  (if_neg h.not_ge).trans (if_pos ⟨hw.1, by simp [hw.2]⟩)

theorem hopPush_waits
    (hw : (s.hopQueued e v).get (pg T.dds e) F.DDS_STS_STATE ≠ 3 ∨ (s.ddsOf e).stuck = true) :
    s.hopPush e v = s.hopQueued e v :=
  (if_neg h.not_ge).trans (if_neg fun hw' => hw.elim (· hw'.1) hw'.2)

end

/-! ## The list (R172, R477) -/

/-- A write to DDS_LIST is refused: a copy is in progress, or a locked page's list would change. -/
abbrev ListRefused (s : State) (e : Nat) (v : W32) : Prop :=
  s.flag (pg T.dds e) F.PG_STS_BUSY = true ∨ (s.locked (pg T.dds e) = true ∧ tabGet 0 s.ddsS (s.ddsKey e) ≠ v)

theorem listRefused_iff (s : State) (e : Nat) (v : W32) :
    (s.flag (pg T.dds e) F.PG_STS_BUSY || (s.locked (pg T.dds e) && tabGet 0 s.ddsS (s.ddsKey e) != v)) = true ↔
      s.ListRefused e v := by
  rw [Bool.or_eq_true, Bool.and_eq_true, bne_iff_ne]

theorem ddsListWrite_refused (h : s.ListRefused e v) :
    s.ddsListWrite e v = (s.refuse (pg T.dds e) 0x134).ddsIdxInc e :=
  congrArg (fun u : State => u.ddsIdxInc e) (if_pos ((listRefused_iff s e v).2 h))

theorem ddsListWrite_taken (h : ¬ s.ListRefused e v) :
    s.ddsListWrite e v = (({ s with
      ddsS := tabPut 0 s.ddsS (s.ddsKey e) v, upset := tabErase s.upset (8 * 2 ^ 40 + s.ddsKey e) } :
        State).ddsErrSync e (s.ddsKey e % 16384 / 4)).ddsIdxInc e :=
  congrArg (fun u : State => u.ddsIdxInc e) (if_neg (mt (listRefused_iff s e v).1 h))

end

end State

end Sys2Proof.Machine

namespace Sys2Proof

open Sys2Proof.Machine Sys2Proof.Machine.State

/-! ## The commands -/

section

variable {s t : State} {e : Eye}

theorem does_ddsStartTime (h : s.ddsStart e.val = t) : Does (.ddsStartTime e) s t := Does.of rfl h
theorem does_clockEdge (h : s.clockEdge e.val = t) : Does (.clockEdge e) s t := Does.of rfl h
theorem does_hop (h : s.hop e.val = t) : Does (.hop e) s t := Does.of rfl h

variable {v : W32} (hR : Reaches s (pg T.dds e.val))
include hR

theorem does_goDds (h : s.ddsCtl e.val (v ||| 1) = t) : Does (.goDds e v) s t :=
  Does.of rfl ((onPage_reaches _ _ _ hR).trans h)

theorem does_ddsStop (h : s.ddsCtl e.val (v ||| 2) = t) : Does (.ddsStop e v) s t :=
  Does.of rfl ((onPage_reaches _ _ _ hR).trans h)

theorem does_hopPush (h : s.hopPush e.val v = t) : Does (.hopPush e v) s t :=
  Does.of rfl ((onPage_reaches _ _ _ hR).trans h)

theorem does_ddsListWrite (h : s.ddsListWrite e.val v = t) : Does (.ddsListWrite e v) s t :=
  Does.of rfl ((onPage_reaches _ _ _ hR).trans h)

end

/-- Settles O30: GO and STOP by the state of the unit, the instants of a running unit, and the windows of the hop-time
queue and the list. -/
theorem ddsUnitsRunTheirQueues : Obligations.DdsUnitsRunTheirQueues := by
  unfold Obligations.DdsUnitsRunTheirQueues
  refine ⟨?controls, ?instants, ?windows⟩
  case controls =>
    intro s e v hR
    have hgo := ddsCtl_go s e.val v
    refine ⟨fun h => does_goDds hR (hgo.trans (ddsGo_refused h)),
      fun h ht => does_goDds hR (hgo.trans (ddsGo_waits h ht)),
      fun h x ht => does_goDds hR (hgo.trans (ddsGo_starts h ht)),
      fun hv => ?stop, fun hv => does_ddsStop hR ((ddsCtl_stop s e.val v).trans (if_pos hv))⟩
    have hstop := (ddsCtl_stop s e.val v).trans (if_neg (by rw [hv]; decide))
    exact ⟨fun h => does_ddsStop hR (hstop.trans (ddsStop_stopped h)),
      fun h => does_ddsStop hR (hstop.trans (ddsStop_running h)),
      fun h0 h2 => does_ddsStop hR (hstop.trans (ddsStop_waiting h0 h2))⟩
  case instants =>
    intro s e
    refine ⟨fun h => does_ddsStartTime (ddsStart_none h), fun t h => does_ddsStartTime (ddsStart_some h),
      fun h => does_clockEdge (clockEdge_none h),
      fun t up h => ⟨fun hs => does_clockEdge (clockEdge_ends h hs), fun hs => does_clockEdge (clockEdge_goes_on h hs)⟩,
      fun h i hat hsucc hseg hstuck hon => ?due, fun h => does_hop (hop_idle h)⟩
    have hdue := hop_due hat hsucc hseg hstuck hon
    exact ⟨fun hstop => does_hop (hdue.trans (if_neg (by simp [hstop]))),
      fun hstop => ⟨_, does_hop (hdue.trans (if_pos hstop)), does_clockEdge rfl⟩⟩
  case windows =>
    intro s e v
    exact ⟨fun hR h => does_hopPush hR (hopPush_full h),
      fun hR h => ⟨fun hw => does_hopPush hR (hopPush_taken h hw), fun hw => does_hopPush hR (hopPush_waits h hw)⟩,
      fun hR h => does_ddsListWrite hR (ddsListWrite_refused h),
      fun hR h => does_ddsListWrite hR (ddsListWrite_taken h),
      fun hR => Does.of rfl (readPage_on _ _ _ hR)⟩

end Sys2Proof

/-!
The pin-electronics level port: GO of a software frame, the frame that begins next, and the end of a frame (R184 to
R186).
-/
namespace Sys2Proof.Machine

open Sys2Proof

namespace State

/-! ## The amplitude frame that begins next (R185, R186) -/

section

variable {d : DdsDyn} {f : PelFrame} {r : List PelFrame}

/-- The frames left of a set that has begun go before those of a pending set. -/
theorem ampNext_begun (h : d.ampCur = f :: r) :
    ampNext d = some (f, up128 d.free) ∧ ampTake d = { d with ampCur := r } := by
  unfold ampNext ampTake
  rw [h]
  exact ⟨rfl, rfl⟩

theorem ampNext_pending (hcur : d.ampCur = []) (h : d.amp = f :: r) :
    ampNext d = some (f, up128 (max d.free d.ampFrom)) ∧ ampTake d = { d with ampCur := r, amp := [] } := by
  unfold ampNext ampTake
  rw [hcur, h]
  exact ⟨rfl, rfl⟩

end

/-! ## GO of a software frame (R186) -/

/-- The word of the software frame that DDS_PEL_TX describes: a read carries no data. -/
def pelWord (s : State) (e : Nat) : Nat :=
  let p := pg T.dds e
  let op := s.get p F.DDS_PEL_TX_OP
  op * 2 ^ 28 + s.get p F.DDS_PEL_TX_CH * 2 ^ 24 + s.get p F.DDS_PEL_TX_REG * 2 ^ 16 +
    (if op = 1 then s.get p F.DDS_PEL_TX_DATA else 0)

/-- What GO does once its word stands in the register. -/
def pelGo (s : State) (e : Nat) : State :=
  let op := s.get (pg T.dds e) F.DDS_PEL_TX_OP
  if op ≠ 1 ∧ op ≠ 2 then s
  else if (s.ddsOf e).sw.isSome then s.put (pg T.dds e) F.DDS_STS_PEL_OVR true
  else ((s.setDds e { s.ddsOf e with sw := some (⟨s.pelWord e, true, 0, none⟩, s.ui) }).put (pg T.dds e)
    F.DDS_PEL_RX_DONE false).pelSync e

theorem pelTx_go (s : State) (e : Nat) {v : W32} (h : v.getLsbD 31 = true) :
    s.pelTx e v = (s.writeReg (pg T.dds e) 0x140 v false).pelGo e := by
  have hgo : ¬ (!v.getLsbD 31) = true := by rw [h]; decide
  exact if_neg hgo

section

variable {s : State} {e : Nat}

theorem pelGo_other (h1 : s.get (pg T.dds e) F.DDS_PEL_TX_OP ≠ 1) (h2 : s.get (pg T.dds e) F.DDS_PEL_TX_OP ≠ 2) :
    s.pelGo e = s := if_pos ⟨h1, h2⟩

section

variable (hserved : s.get (pg T.dds e) F.DDS_PEL_TX_OP = 1 ∨ s.get (pg T.dds e) F.DDS_PEL_TX_OP = 2)
include hserved

theorem pelGo_overrun (h : (s.ddsOf e).sw ≠ none) : s.pelGo e = s.put (pg T.dds e) F.DDS_STS_PEL_OVR true :=
  (if_neg fun h => hserved.elim h.1 h.2).trans (if_pos (Option.isSome_iff_ne_none.2 h))

theorem pelGo_pending (h : (s.ddsOf e).sw = none) :
    s.pelGo e = ((s.setDds e { s.ddsOf e with sw := some (⟨s.pelWord e, true, 0, none⟩, s.ui) }).put (pg T.dds e)
      F.DDS_PEL_RX_DONE false).pelSync e :=
  (if_neg fun h => hserved.elim h.1 h.2).trans (if_neg (by simp [h]))

end

/-! ## The frame that begins (R184 to R186) -/

theorem pelStart_idle (h : (s.ddsOf e).frame ≠ none ∨ (ampNext (s.ddsOf e) = none ∧ (s.ddsOf e).sw = none)) :
    s.pelStart e = s := by
  rw [pelStart]
  rcases h with hbusy | ⟨hamp, hsw⟩
  · exact if_pos (Option.isSome_iff_ne_none.2 hbusy)
  · rw [hamp, hsw]
    exact ite_self _

section

variable (hfree : (s.ddsOf e).frame = none)
include hfree

/-- The software frame begins where no amplitude frame may begin as soon. -/
theorem pelStart_software {g : PelFrame} {t : Nat} (hsw : (s.ddsOf e).sw = some (g, t))
    (hfirst : ∀ f ta, ampNext (s.ddsOf e) = some (f, ta) → up128 (max (s.ddsOf e).free t) < ta) :
    s.pelStart e = s.pelBegin e { s.ddsOf e with sw := none } g (up128 (max (s.ddsOf e).free t)) := by
  rw [pelStart, if_neg (by simp [hfree])]
  dsimp only
  cases hamp : ampNext (s.ddsOf e) with
  | none =>
    rw [hsw]
    rfl
  | some x =>
    rw [hsw]
    exact if_pos (hfirst x.1 x.2 hamp)

/-- The amplitude frame begins where the software frame may not begin before it. -/
theorem pelStart_amplitude {f : PelFrame} {ta : Nat} (hamp : ampNext (s.ddsOf e) = some (f, ta))
    (hfirst : ∀ g t, (s.ddsOf e).sw = some (g, t) → ta ≤ up128 (max (s.ddsOf e).free t)) :
    s.pelStart e = s.pelBegin e (ampTake (s.ddsOf e)) f ta := by
  rw [pelStart, if_neg (by simp [hfree])]
  dsimp only
  rw [hamp]
  cases hsw : (s.ddsOf e).sw with
  | none => rfl
  | some x => exact if_neg (hfirst x.1 x.2 hsw).not_gt

end

/-! ## The end of a frame (R184 to R186) -/

/-- The frame that ends at `up` has left the port, which is free again 256 UI later. -/
def pelLeft (s : State) (e up : Nat) : State :=
  (s.upTo (up * 1024)).setDds e { s.ddsOf e with frame := none, free := up + 256 }

/-- An amplitude frame ends after its hop instant, where that stands. -/
abbrev AmpLate (s : State) (e : Nat) (f : PelFrame) (up : Nat) : Prop := f.seg = none ∧ s.hopDev e f.hop < up * 1024

theorem pelDone_none (sdi : BitVec 16) (h : (s.ddsOf e).frame = none) : s.pelDone e sdi = s := by rw [pelDone, h]

section

variable {f : PelFrame} {up : Nat} (h : (s.ddsOf e).frame = some (f, up))
include h

theorem pelDone_some (sdi : BitVec 16) : s.pelDone e sdi =
    (if f.sw then
      (if f.word / 2 ^ 28 = 2 then (s.pelLeft e up).set (pg T.dds e) F.DDS_PEL_RX_DATA sdi.toNat
        else s.pelLeft e up).put (pg T.dds e) F.DDS_PEL_RX_DONE true
    else if (s.pelLeft e up).AmpLate e f up then
      ((s.pelLeft e up).put (pg T.dds e) F.DDS_STS_AMP_LATE true).rise (pg T.dds e) X.DDS_AMP_LATE
    else s.pelLeft e up).pelSync e := by
  rw [pelDone]
  dsimp only
  rw [h]
  simp only [AmpLate, Option.isNone_iff_eq_none]
  rfl

section

variable (sdi : BitVec 16) (hsw : f.sw = true)
include hsw

theorem pelDone_read (hread : f.word / 2 ^ 28 = 2) : s.pelDone e sdi =
    (((s.pelLeft e up).set (pg T.dds e) F.DDS_PEL_RX_DATA sdi.toNat).put (pg T.dds e) F.DDS_PEL_RX_DONE true).pelSync
      e := by
  rw [pelDone_some h, if_pos hsw, if_pos hread]

theorem pelDone_write (hwrite : f.word / 2 ^ 28 ≠ 2) :
    s.pelDone e sdi = ((s.pelLeft e up).put (pg T.dds e) F.DDS_PEL_RX_DONE true).pelSync e := by
  rw [pelDone_some h, if_pos hsw, if_neg hwrite]

end

section

variable (sdi : BitVec 16) (hsw : f.sw = false)
include hsw

theorem pelDone_late (hlate : (s.pelLeft e up).AmpLate e f up) : s.pelDone e sdi =
    (((s.pelLeft e up).put (pg T.dds e) F.DDS_STS_AMP_LATE true).rise (pg T.dds e) X.DDS_AMP_LATE).pelSync e := by
  rw [pelDone_some h, if_neg (by simp [hsw]), if_pos hlate]

theorem pelDone_inTime (hlate : ¬ (s.pelLeft e up).AmpLate e f up) :
    s.pelDone e sdi = (s.pelLeft e up).pelSync e := by
  rw [pelDone_some h, if_neg (by simp [hsw]), if_neg hlate]

end

end

end

end State

end Sys2Proof.Machine

namespace Sys2Proof

open Sys2Proof.Machine Sys2Proof.Machine.State

section

variable {s t : State} {e : Eye}

theorem does_pelTxGo {v : W32} (hR : Reaches s (pg T.dds e.val))
    (h : (s.writeReg (pg T.dds e.val) 0x140 (v ||| 0x80000000) false).pelGo e.val = t) : Does (.pelTxGo e v) s t :=
  have hgo : (v ||| 0x80000000).getLsbD 31 = true := by simp
  Does.of rfl ((onPage_reaches _ _ _ hR).trans ((pelTx_go s e.val hgo).trans h))

theorem does_pelFrameStart (h : s.pelStart e.val = t) : Does (.pelFrameStart e) s t := Does.of rfl h

theorem does_pelFrameDone {sdi : BitVec 16} (h : s.pelDone e.val sdi = t) : Does (.pelFrameDone e sdi) s t :=
  Does.of rfl h

end

/-- Settles O31: GO of a software frame, the frame that begins next, and the end of a frame by its kind. -/
theorem levelPortFramesComplete : Obligations.LevelPortFramesComplete := by
  unfold Obligations.LevelPortFramesComplete
  refine ⟨?go, ?begins, ?ends⟩
  case go =>
    exact fun s e v hR => ⟨fun h1 h2 => does_pelTxGo hR (pelGo_other h1 h2),
      fun hop h => does_pelTxGo hR (pelGo_overrun hop h), fun hop h => does_pelTxGo hR (pelGo_pending hop h)⟩
  case begins =>
    exact fun s e => ⟨fun h => does_pelFrameStart (pelStart_idle h),
      fun g t hfree hsw hfirst => does_pelFrameStart (pelStart_software hfree hsw hfirst),
      fun f ta hfree hamp hfirst => does_pelFrameStart (pelStart_amplitude hfree hamp hfirst),
      fun f r h => ampNext_begun h, fun f r hcur h => ampNext_pending hcur h⟩
  case ends =>
    intro s e sdi
    exact ⟨fun h => does_pelFrameDone (pelDone_none sdi h),
      fun f up h => ⟨fun hsw hop => does_pelFrameDone (pelDone_read h sdi hsw hop),
        fun hsw hop => does_pelFrameDone (pelDone_write h sdi hsw hop),
        fun hsw hlate => does_pelFrameDone (pelDone_late h sdi hsw hlate),
        fun hsw hlate => does_pelFrameDone (pelDone_inTime h sdi hsw hlate)⟩⟩

end Sys2Proof

/-!
Fails on their way, final site summaries, the ends of EVT pulses, and the records that leave the fail log's queue for
its ring (R198, R201 to R206).
-/
namespace Sys2Proof.Machine

open Sys2Proof

namespace State

/-! ## Fails and site summaries (R198, R204) -/

theorem failArrive_none {s : State} (h : s.fails = []) : s.failArrive = s := by rw [failArrive, h]

theorem failArrive_some {s : State} {m : FailMsg} {r : List FailMsg} (h : s.fails = m :: r) :
    s.failArrive =
      ((({ s with fails := r } : State).failSeq m).failEvt m).trgInput
        (fun i d => { d with fails := d.fails ++ [(i, m)] }) := by
  rw [failArrive, h]

/-- A group that has begun serves site `i`. -/
abbrev SiteServed (s : State) (i : Nat) : Prop := ∃ g ∈ s.groups, g.begun = true ∧ i ∈ g.sites

theorem siteServed_iff (s : State) (i : Nat) :
    s.groups.any (fun g => g.begun && g.sites.contains i) = true ↔ s.SiteServed i := by
  simp only [SiteServed, List.any_eq_true, Bool.and_eq_true, List.contains_iff_mem]

theorem siteFinal_served {s : State} {i : Nat} (h : s.SiteServed i) : s.siteFinal i = s :=
  if_pos ((siteServed_iff s i).2 h)

theorem siteFinal_left {s : State} {i : Nat} (h : ¬ s.SiteServed i) :
    s.siteFinal i = s.setSite i { s.siteOf i with final := true } := if_neg (mt (siteServed_iff s i).1 h)

/-! ## The ends of EVT pulses (R206) -/

@[simp] theorem upTo_evtSrc (s : State) (t : Nat) : (s.upTo t).evtSrc = s.evtSrc := by unfold upTo; split <;> rfl

/-- The instants at which pulses on pin `n` end. -/
def pulseEnds (s : State) (n : Nat) : List Nat := s.evtSrc.filterMap (fun x => if x.pin = n then x.until_ else none)

theorem mem_pulseEnds {s : State} {n t : Nat} : t ∈ s.pulseEnds n ↔ ∃ x ∈ s.evtSrc, x.pin = n ∧ x.until_ = some t := by
  simp only [pulseEnds, List.mem_filterMap, Option.ite_none_right_eq_some]

section

variable {s : State} {n : Nat}

theorem evtPulseEnd_none (h : s.pulseEnds n = []) : s.evtPulseEnd n = s := by
  unfold pulseEnds at h
  rw [evtPulseEnd, h]

/-- At the earliest end of a pulse the sources of the pin that have come to their end are dropped. -/
theorem evtPulseEnd_earliest {t : Nat} (h : (s.pulseEnds n).min? = some t) :
    s.evtPulseEnd n = { s.upTo t with evtSrc := (s.evtPulseEnd n).evtSrc } ∧
      ∀ x, x ∈ (s.evtPulseEnd n).evtSrc ↔ x ∈ s.evtSrc ∧ ¬ (x.pin = n ∧ ∃ a ≤ t, x.until_ = some a) := by
  unfold pulseEnds at h
  unfold evtPulseEnd
  dsimp only
  generalize s.evtSrc.filterMap (fun x => if x.pin = n then x.until_ else none) = ends at h ⊢
  cases ends with
  | nil => cases h
  | cons a r =>
    obtain rfl : r.foldl min a = t := Option.some.inj h
    refine ⟨rfl, fun x => ?_⟩
    simp only [upTo_evtSrc, List.mem_filter]
    cases x.until_ <;> simp [imp_iff_not_or]

end

/-! ## Registers and rises leave the eyelets' records and HBM -/

theorem RegsOnly.eyeOf {s t : State} (h : RegsOnly s t) (e : Nat) : t.eyeOf e = s.eyeOf e := by
  obtain ⟨_, _, rfl⟩ := h
  rfl

theorem RegsOnly.hbm {s t : State} (h : RegsOnly s t) : t.hbm = s.hbm := by
  obtain ⟨_, _, rfl⟩ := h
  rfl

theorem RisesOnly.eyeOf {s t : State} (h : RisesOnly s t) (e : Nat) : t.eyeOf e = s.eyeOf e := by
  obtain ⟨_, _, rfl⟩ := h
  rfl

theorem RisesOnly.hbm {s t : State} (h : RisesOnly s t) : t.hbm = s.hbm := by
  obtain ⟨_, _, rfl⟩ := h
  rfl

@[simp] theorem eyeOf_setEye (s : State) (e : Nat) (d : EyeDyn) : (s.setEye e d).eyeOf e = d := tabGet_put_same _ _ _ _

/-! ## A record for the ring (R201, R202) -/

section

variable {s : State} {e : Nat}

theorem RegsOnly.flogMark {t : State} (h : RegsOnly s t) (e : Nat) (new : Bool) : RegsOnly s (t.flogMark e new) := by
  have hlive := h.put (pg T.cmp e) F.CMP_STS_WMARK_LIVE
  unfold State.flogMark
  dsimp only
  split
  · exact (hlive _).put _ _ _
  · exact hlive _

theorem regsOnly_flogForce (s : State) (e : Nat) : RegsOnly s (s.flogForce e) := by
  have hforced : RegsOnly s ((s.inForce (pg T.cmp e) 0x214).inForce (pg T.cmp e) 0x218) := ⟨_, _, rfl⟩
  unfold flogForce
  dsimp only
  split
  · exact hforced.flogMark e true
  · exact hforced

/-- The eyelet's record once one more record has been lost at its full ring: the first loss gives the position that the
LOST record will carry. -/
def ringLossCounted (d : EyeDyn) (ws : List W32) : EyeDyn :=
  { d with ringLost := d.ringLost + 1, ringLostPos := if d.ringLost = 0 then lostPos ws else d.ringLostPos }

/-- A record is lost at the full ring. -/
def ringLose (s : State) (e : Nat) (ws : List W32) : State :=
  let u := s.setEye e (ringLossCounted (s.eyeOf e) ws)
  let v := ((u.bump (pg T.cmp e) F.CMP_FLOG_LOST_COUNT 1).put (pg T.cmp e) F.CMP_STS_LOST true).put (pg T.cmp e)
    F.CMP_STS_FULL true
  (v.rise (pg T.cmp e) X.CMP_FLOG_LOST).rise (pg T.cmp e) X.CMP_FLOG_FULL

theorem flogRecord_full (ws : List W32) (h : (s.flogForce e).flogFull e = true) :
    s.flogRecord e ws = (s.flogForce e).ringLose e ws := by
  have howed : ¬ (((s.flogForce e).eyeOf e).ringLost ≠ 0 ∧ (!(s.flogForce e).flogFull e) = true) := by simp [h]
  unfold flogRecord
  dsimp only
  rw [if_neg howed, if_pos h]
  rfl

theorem flogRecord_room (ws : List W32) (h : (s.flogForce e).flogFull e = false)
    (hlost : ((s.flogForce e).eyeOf e).ringLost = 0) : s.flogRecord e ws = (s.flogForce e).flogStore e ws := by
  have howed : ¬ (((s.flogForce e).eyeOf e).ringLost ≠ 0 ∧ (!(s.flogForce e).flogFull e) = true) := by simp [hlost]
  unfold flogRecord
  dsimp only
  rw [if_neg howed, if_neg (by simp [h])]

theorem risesOnly_ringLose (s : State) (e : Nat) (ws : List W32) :
    RisesOnly (s.setEye e (ringLossCounted (s.eyeOf e) ws)) (s.ringLose e ws) :=
  have hset : RisesOnly (s.setEye e (ringLossCounted (s.eyeOf e) ws)) (s.setEye e (ringLossCounted (s.eyeOf e) ws)) :=
    ⟨_, _, rfl⟩
  ((((hset.set _ _ _).set _ _ _).set _ _ _).rise _ _).rise _ _

theorem ringLose_shows (s : State) (e : Nat) (ws : List W32) :
    (s.ringLose e ws).flag (pg T.cmp e) F.CMP_STS_LOST = true ∧
      (s.ringLose e ws).flag (pg T.cmp e) F.CMP_STS_FULL = true ∧
      (s.ringLose e ws).fltBit (pg T.cmp e) X.CMP_FLOG_FULL = true := by
  have hofs : ∀ f : Fld, 0x010 ≠ f.ofs → ∀ (u : State) (a b : Nat),
      ((u.rise (pg T.cmp e) a).rise (pg T.cmp e) b).flag (pg T.cmp e) f = u.flag (pg T.cmp e) f :=
    fun f hf u a b => (flag_rise_ofs _ _ _ hf).trans (flag_rise_ofs _ _ _ hf)
  refine ⟨?_, ?_, fltBit_rise _ _ (by decide)⟩
  · rw [ringLose, hofs _ (by decide), put, flag_set_beside _ _ _ _ _ (by decide)]
    exact flag_put_same _ _ _ _ (by decide) rfl
  · rw [ringLose, hofs _ (by decide)]
    exact flag_put_same _ _ _ _ (by decide) rfl

/-- A record that finds the ring full is counted and shown, and stores nothing. -/
theorem flogRecord_lost (ws : List W32) (h : (s.flogForce e).flogFull e = true) :
    (s.flogRecord e ws).hbm = s.hbm ∧
      ((s.flogRecord e ws).eyeOf e).ringLost = (s.eyeOf e).ringLost + 1 ∧
      (s.flogRecord e ws).flag (pg T.cmp e) F.CMP_STS_LOST = true ∧
      (s.flogRecord e ws).flag (pg T.cmp e) F.CMP_STS_FULL = true ∧
      (s.flogRecord e ws).fltBit (pg T.cmp e) X.CMP_FLOG_FULL = true := by
  have hlose := risesOnly_ringLose (s.flogForce e) e ws
  have hforce := regsOnly_flogForce s e
  rw [flogRecord_full ws h]
  refine ⟨hlose.hbm.trans hforce.hbm, ?_, ringLose_shows _ e ws⟩
  rw [hlose.eyeOf, eyeOf_setEye, hforce.eyeOf, ringLossCounted]

/-! ## Records that leave the queue (R202, R203) -/

theorem flogWrite_pair (bad : Nat) (h : 2 ≤ (s.eyeOf e).flogQ.length) : s.flogWrite e bad = s.flogDrain e 2 bad :=
  if_pos h

section

variable (bad : Nat) (h : (s.eyeOf e).flogQ.length = 1)
include h

theorem flogWrite_tail (hdone : s.flag (pg T.cmp e) F.CMP_STS_LOG_DONE = false) :
    s.flogWrite e bad = s.flogDrain e 1 bad := by
  rw [flogWrite, h]
  exact (if_neg (by decide)).trans (if_neg (by simp [hdone]))

theorem flogWrite_done (hdone : s.flag (pg T.cmp e) F.CMP_STS_LOG_DONE = true) : s.flogWrite e bad = s := by
  rw [flogWrite, h]
  exact (if_neg (by decide)).trans (if_pos hdone)

end

theorem flogDone_empty (h : (s.eyeOf e).flogQ = []) :
    s.flogDone e = s.put (pg T.cmp e) F.CMP_STS_LOG_DONE true := if_pos (List.isEmpty_iff.2 h)

theorem flogDone_waits (h : (s.eyeOf e).flogQ ≠ []) : s.flogDone e = s := if_neg (mt List.isEmpty_iff.1 h)

end

end State

end Sys2Proof.Machine

namespace Sys2Proof

open Sys2Proof.Machine Sys2Proof.Machine.State

section

variable {s t : State}

theorem does_failArrival (h : s.failArrive = t) : Does .failArrival s t := Does.of rfl h

theorem does_siteSummaryFinal {i : Fin 128} (h : s.siteFinal i.val = t) : Does (.siteSummaryFinal i) s t := Does.of rfl h

theorem does_evtPulseEnd {n : Fin 8} (h : s.evtPulseEnd n.val = t) : Does (.evtPulseEnd n) s t := Does.of rfl h

theorem does_flogWrite {e : Eye} {bad : BitVec 2} (h : s.flogWrite e.val bad.toNat = t) : Does (.flogWrite e bad) s t :=
  Does.of rfl h

theorem does_logDone {e : Eye} (h : s.flogDone e.val = t) : Does (.logDone e) s t := Does.of rfl h

end

/-- Settles O29: the fail that arrives, the summary that is final, the pulse ends that come first, and the records that
leave the queue with the one that is lost. -/
theorem failsReachSummariesAndLog : Obligations.FailsReachSummariesAndLog := by
  unfold Obligations.FailsReachSummariesAndLog
  refine ⟨⟨?idle, ?arrives, ?summary, ?pulses⟩, ?log⟩
  case idle => exact fun s h => does_failArrival (failArrive_none h)
  case arrives => exact fun s m r h => does_failArrival (failArrive_some h)
  case summary =>
    exact fun s i => ⟨fun h => does_siteSummaryFinal (siteFinal_served h),
      fun h => does_siteSummaryFinal (siteFinal_left fun ⟨g, hg, hbegun, hi⟩ => h g hg hbegun hi)⟩
  case pulses =>
    intro s n
    refine ⟨fun h => does_evtPulseEnd (evtPulseEnd_none ?_), fun t ht hfirst => ?_⟩
    · refine List.eq_nil_iff_forall_not_mem.2 fun t ht => ?_
      obtain ⟨x, hx, hpin, hend⟩ := mem_pulseEnds.1 ht
      exact absurd (h x hx hpin) (by simp [hend])
    · have hleast : ∀ a ∈ s.pulseEnds n.val, t ≤ a := fun a ha =>
        have ⟨x, hx, hpin, hend⟩ := mem_pulseEnds.1 ha
        hfirst x hx a hpin hend
      obtain ⟨hstate, hsrc⟩ := evtPulseEnd_earliest (List.min?_eq_some_iff.2 ⟨mem_pulseEnds.2 ht, hleast⟩)
      refine ⟨s.evtPulseEnd n.val, does_evtPulseEnd rfl, hstate, fun x => (hsrc x).trans ?_⟩
      refine and_congr_right fun hx => not_congr (and_congr_right fun hpin => ⟨?_, fun hend => ⟨t, le_rfl, hend⟩⟩)
      rintro ⟨a, hat, hend⟩
      rw [hend, hat.antisymm (hfirst x hx a hpin hend)]
  case log =>
    intro s e bad
    exact ⟨fun h => does_flogWrite (flogWrite_pair _ h), fun h hdone => does_flogWrite (flogWrite_tail _ h hdone),
      fun h hdone => does_flogWrite (flogWrite_done _ h hdone), fun h => does_logDone (flogDone_empty h),
      fun h => does_logDone (flogDone_waits h),
      fun u ws => ⟨flogRecord_room ws, flogRecord_lost ws⟩⟩

end Sys2Proof

/-!
Transitions at the comparators and their conversion, the stamps that arrive, bursts and flushes of the streams, and the
gates (R208 to R212, R215, R216, R222, R225).
-/
namespace Sys2Proof.Machine

open Sys2Proof

namespace State

/-! ## A change of a comparator's level (R62, R69, R208 to R211) -/

/-- The level of CMPH or CMPL. -/
def cmpLevel (k : ChanDyn) (high : Bool) : Bool := if high then k.cmpH else k.cmpL

/-- The last transition converted of CMPH or CMPL. -/
def lastOf (a : AwlDyn) (high : Bool) : Option Nat := if high then a.lastH else a.lastL

section

variable (s : State) (c : Nat) (high level : Bool) (t edge : Nat)

/-- The comparator has taken the new level, and a window that is open has seen it. -/
def levelTaken : State :=
  let k := s.chanOf c
  ((s.upTo t).setChan c (if high then { k with cmpH := level } else { k with cmpL := level })).seeWin c

/-- The edge code of a change to a level: inverted where the page inverts the input. -/
def edgeCode : Nat :=
  (if high then 0 else 2) +
    (if level = (s.rd (pg T.cmp (c / 16)) 0x104).getLsbD (c % 16 + (if high then 0 else 16)) then 1 else 0)

/-- A transition is converted: its raw stamp is counted, and its corrected stamp is on its way. -/
def converted : State :=
  let a := s.awlOf c
  let raw := s.atQ (c / 64) t / 2 * 2
  let own := some (s.era + t)
  let w := (s.setAwl c (if high then { a with lastH := own } else { a with lastL := own })).linCount c
    (if high then 0 else 1) raw
  let v := w.stampValue c edge raw
  ({ w with stamps := w.stamps ++ [{ ch := c, edge := edge, v := v }] } : State).trackEdge c edge t v

/-- A transition is missed: it is counted, also in the stream that selects its edge, and marks the interval units. -/
def missed : State :=
  let w := s.bump (pg T.tdc (c / 16)) F.TDC_MISS_CNT_COUNT 1
  (if w.streaming c = true ∧ w.edgeSel c edge = true then
    w.setAwl c { s.awlOf c with miss := satAdd 65535 (s.awlOf c).miss 1 } else w).iuMissed c

theorem edgeCode_input : s.edgeCode c high level / 2 = if high then 0 else 1 := by
  unfold edgeCode
  cases high <;> simp only [if_true, Bool.false_eq_true, if_false] <;> split <;> rfl

variable {s c high t edge}

theorem convert_eq (hedge : edge / 2 = if high then 0 else 1) :
    s.convert c edge t =
      if (lastOf (s.awlOf c) high).any (fun x => decide (s.era + t < x + 1024)) = true then s.missed c edge
      else s.converted c high t edge := by
  have hany : ∀ (o : Option Nat) (f : Nat → Bool), (match o with | some x => f x | none => false) = o.any f := by
    intro o f
    cases o <;> rfl
  unfold convert
  rw [hedge]
  cases high <;>
    exact if_congr (iff_of_eq (congrArg (· = true) (hany _ _)))
      (congrArg (iuMissed · c) (if_congr Bool.and_eq_true_iff rfl rfl)) rfl

variable (hedge : edge / 2 = if high then 0 else 1)
include hedge

theorem convert_far (h : ∀ x, lastOf (s.awlOf c) high = some x → x + 1024 ≤ s.era + t) :
    s.convert c edge t = s.converted c high t edge := by
  refine (convert_eq hedge).trans (if_neg ?_)
  rw [Option.any_eq_true]
  rintro ⟨x, hx, hnear⟩
  exact absurd (h x hx) (by simpa using hnear)

theorem convert_near {x : Nat} (hx : lastOf (s.awlOf c) high = some x) (hnear : s.era + t < x + 1024) :
    s.convert c edge t = s.missed c edge :=
  (convert_eq hedge).trans (if_pos (by simpa [hx] using hnear))

end

section

variable {s : State} {c : Nat} {high level : Bool} (t : Nat)

theorem cmpChange_same (h : cmpLevel (s.chanOf c) high = level) : s.cmpChange c high level t = s := if_pos h

theorem cmpChange_new (h : cmpLevel (s.chanOf c) high ≠ level) :
    s.cmpChange c high level t =
      let u := s.levelTaken c high level t
      if u.stage < 2 then u else u.convert c (u.edgeCode c high level) t := by
  have hbit : ∀ inv : Bool, (if (level ^^ inv) = true then 0 else 1) = if level = inv then 1 else 0 := by
    cases level <;> decide
  refine (if_neg h).trans ?_
  simp only [hbit]
  rfl

end

/-! ## Stamps arrive (R212, R222) -/

section

variable {s : State}

theorem stampArrive_none (h : s.stamps = []) (hwait : ∀ e, e < 16 → (s.awlOf (16 * e)).wait = []) :
    s.stampArrive = s := by
  rw [stampArrive, h]
  refine List.foldlRecOn (motive := (· = s)) _ _ rfl fun u hu e he => ?_
  rw [hu, hwait e (List.mem_range.1 he)]

/-- The least value of the stamps on their way. -/
theorem foldl_min_stamp {y : Stamp} {r : List Stamp} {v : Nat} (hmem : ∃ x ∈ y :: r, x.v = v)
    (hleast : ∀ x ∈ y :: r, v ≤ x.v) : r.foldl (fun m x => min m x.v) y.v = v := by
  have hmin : ((y :: r).map (·.v)).min? = some v :=
    List.min?_eq_some_iff.2 ⟨List.mem_map.2 hmem, List.forall_mem_map.2 hleast⟩
  rw [← List.foldl_map]
  exact Option.some.inj hmin

theorem stampArrive_least {v : Nat} (hmem : ∃ x ∈ s.stamps, x.v = v) (hleast : ∀ x ∈ s.stamps, v ≤ x.v) :
    s.stampArrive =
      let xs := s.stamps.filter (fun x => x.v == v)
      let a : State := { s with stamps := s.stamps.filter (fun x => x.v != v) }
      xs.foldl trgStamp ((List.range 64).foldl (fun s i => s.iuStamps xs i) (xs.foldl streamStamp a)) := by
  cases hs : s.stamps with
  | nil => simp [hs] at hmem
  | cons y r =>
    rw [hs] at hmem hleast
    rw [stampArrive, hs]
    dsimp only
    rw [foldl_min_stamp hmem hleast]

/-! ## Bursts of a stream (R216, R221) -/

variable {c : Nat}

theorem streamPoison_none (s : State) (c : Nat) : s.streamPoison c 0 = s := by
  unfold streamPoison
  simp only [Nat.zero_testBit, List.filter_false, List.length_nil, if_true]

theorem streamBurst_waits (bad : Nat) (h : ((s.gateRelease c).awlOf c).q.length < 16) :
    s.streamBurst c bad = s.gateRelease c := if_neg (by omega)

theorem streamBurst_leaves (bad : BitVec 16) (h : 16 ≤ ((s.gateRelease c).awlOf c).q.length) :
    s.streamBurst c bad.toNat = ((s.gateRelease c).streamPoison c bad.toNat).streamDrain c 16 :=
  (if_pos h).trans (by rw [Nat.mod_eq_of_lt bad.isLt])

end

/-! ## What the streams change (R213 to R215, R226) -/

/-- `t` differs from `s` in what the streams change: their queues, rises, and registers of other pages than the
timebase's. -/
def StreamsOnly (s t : State) : Prop :=
  (∃ rs fl aw, t = { s with regs := rs, flt := fl, awl := aw }) ∧ ∀ a < 4096, t.rd tbsPg a = s.rd tbsPg a

theorem StreamsOnly.refl (s : State) : StreamsOnly s s := ⟨⟨_, _, _, rfl⟩, fun _ _ => rfl⟩

section

variable {s t : State} (h : StreamsOnly s t)
include h

theorem StreamsOnly.trans {u : State} (h' : StreamsOnly t u) : StreamsOnly s u := by
  obtain ⟨⟨_, _, _, rfl⟩, hrd⟩ := h
  obtain ⟨⟨_, _, _, rfl⟩, hrd'⟩ := h'
  exact ⟨⟨_, _, _, rfl⟩, fun a ha => (hrd' a ha).trans (hrd a ha)⟩

theorem StreamsOnly.foldl {α : Type} {f : State → α → State} (hf : ∀ u a, StreamsOnly s u → StreamsOnly s (f u a))
    (l : List α) : StreamsOnly s (l.foldl f t) :=
  List.foldlRecOn l f h fun u hu a _ => hf u a hu

theorem StreamsOnly.ite {u : State} (h' : StreamsOnly s u) (p : Prop) [Decidable p] :
    StreamsOnly s (if p then t else u) := by
  split <;> assumption

theorem StreamsOnly.setAwl (c : Nat) (d : AwlDyn) : StreamsOnly s (t.setAwl c d) :=
  h.trans ⟨⟨_, _, _, rfl⟩, fun _ _ => rfl⟩

theorem StreamsOnly.wr {e o : Nat} (v : W32) (ho : o < 4096) : StreamsOnly s (t.wr (pg T.tdc e) o v) := by
  refine h.trans ⟨⟨_, _, _, rfl⟩, fun a ha => rd_wr_other _ _ _ _ _ _ (rkey_page ho ha ?_)⟩
  simp only [tbsPg, pg, T.tdc, T.tbs]
  omega

theorem StreamsOnly.rise (e b : Nat) : StreamsOnly s (t.rise (pg T.tdc e) b) := by
  unfold State.rise
  split
  · exact h
  · exact (h.wr (o := 0x010) _ (by decide)).trans ⟨⟨_, _, _, rfl⟩, fun _ _ => rfl⟩

theorem StreamsOnly.streamLost (c n : Nat) : StreamsOnly s (t.streamLost c n) :=
  ((h.wr _ (by decide)).wr _ (by decide)).rise _ _

theorem StreamsOnly.streamJoin (c : Nat) (w : W32) : StreamsOnly s (t.streamJoin c w) := h.setAwl _ _

theorem StreamsOnly.streamPut (c : Nat) (w : W32) : StreamsOnly s (t.streamPut c w) :=
  (h.streamJoin c w).ite ((h.setAwl _ _).streamLost _ _) _

theorem StreamsOnly.streamRoom (c : Nat) : StreamsOnly s (t.streamRoom c) :=
  ((h.setAwl _ _).streamJoin _ _).ite h _

theorem StreamsOnly.streamEpoch (c ui : Nat) : StreamsOnly s (t.streamEpoch c ui) := by
  have hhigh := fun p [Decidable p] w => h.ite (h.streamPut c w) p
  exact ((hhigh _ _).ite ((hhigh _ _).streamPut c _) _).setAwl _ _

theorem StreamsOnly.streamGate (c ui : Nat) (opens : Bool) : StreamsOnly s (t.streamGate c ui opens) :=
  (((h.streamRoom c).streamEpoch c ui).streamPut c _).ite h _

theorem StreamsOnly.streamWord (x : Stamp) : StreamsOnly s (t.streamWord x) := by
  have hepoch := (h.streamRoom x.ch).streamEpoch x.ch (x.v / 1024)
  exact (hepoch.ite ((hepoch.streamPut x.ch _).setAwl _ _) _).streamPut x.ch _

theorem StreamsOnly.gateRelease (c : Nat) : StreamsOnly s (t.gateRelease c) :=
  (h.setAwl _ _).foldl (fun _ x hu => (hu.streamWord x).ite hu _) _

theorem StreamsOnly.gateSettle (q : Nat) : StreamsOnly s (t.gateSettle q) :=
  h.foldl (fun _ _ hu => hu.gateRelease _) _

theorem StreamsOnly.gate : t.gate = s.gate := by obtain ⟨⟨_, _, _, rfl⟩, -⟩ := h; rfl
theorem StreamsOnly.hbm : t.hbm = s.hbm := by obtain ⟨⟨_, _, _, rfl⟩, -⟩ := h; rfl
theorem StreamsOnly.groups : t.groups = s.groups := by obtain ⟨⟨_, _, _, rfl⟩, -⟩ := h; rfl
theorem StreamsOnly.now : t.now = s.now := by obtain ⟨⟨_, _, _, rfl⟩, -⟩ := h; rfl
theorem StreamsOnly.tlOn : t.tlOn = s.tlOn := by obtain ⟨⟨_, _, _, rfl⟩, -⟩ := h; rfl

theorem StreamsOnly.ballShift {q : Nat} (hq : q < 4) : t.ballShift q = s.ballShift q := by
  obtain ⟨⟨_, _, _, rfl⟩, hrd⟩ := h
  have htrim := hrd F.TBS_LACE_TRIM_TRIM.ofs (by decide)
  have hqofs := hrd (F.TBS_QOFS_OFS.off (0x20 * q)).ofs (by simp only [Fld.off, F.TBS_QOFS_OFS]; omega)
  simp only [State.ballShift, trim, qofs, getEff, eff, get, htrim, hqofs]

end

/-! ## The instant at which a value of a quadrant's timeline meets the balls (R69) -/

@[simp] theorem upTo_gate (s : State) (t : Nat) : (s.upTo t).gate = s.gate := by unfold upTo; split <;> rfl

theorem upTo_now (s : State) (t : Nat) : (s.upTo t).now = if s.tlOn then max s.now t else s.now := apply_ite _ _ _ _

theorem le_upTo_now (s : State) (t : Nat) : s.now ≤ (s.upTo t).now := by
  rw [upTo_now]
  split
  · exact le_max_left _ _
  · exact le_rfl

theorem upToQ_now_congr {s t : State} {q : Nat} (hnow : t.now = s.now) (hon : t.tlOn = s.tlOn)
    (hball : t.ballShift q = s.ballShift q) (v : Nat) : (t.upToQ q v).now = (s.upToQ q v).now := by
  rw [upToQ, upToQ, upTo_now, upTo_now, hnow, hon, hball]

/-- An earlier value passed on the way to a later one leaves no trace in the timeline. -/
theorem upToQ_upToQ_now (s : State) (q : Nat) {a b : Nat} (h : a ≤ b) :
    ((s.upToQ q a).upToQ q b).now = (s.upToQ q b).now := by
  have hball : (s.upToQ q a).ballShift q = s.ballShift q := by simp only [upToQ, ballShift, qofs, upTo_trim, upTo_get]
  have hon : (s.upToQ q a).tlOn = s.tlOn := by
    unfold upToQ upTo
    split <;> rfl
  have hle : ((a : Int) + s.ballShift q).toNat ≤ ((b : Int) + s.ballShift q).toNat := by omega
  rw [upToQ, upTo_now, hball, hon, upToQ, upToQ, upTo_now, upTo_now]
  split
  · rw [max_assoc, max_eq_right hle]
  · rfl

/-! ## The gates (R225) -/

/-- The gates of a quadrant become `gs`. -/
def gatesPut (s : State) (q : Nat) (gs : GateDyn) : State := { s with gate := tabPut [] s.gate q gs }

/-- An edge of a gate in UI `t`, known 64 UI later: the gates are `gs` from the UI before on, and the streams they gate
have their GATE words. -/
def gateEdge (s : State) (q t : Nat) (opens : Bool) (gs : GateDyn) : State :=
  ((List.range 4).foldl (fun s j => s.streamGate (64 * q + 16 * j) t opens)
    (((s.upToQ q ((t + 63) * 1024)).gateSettle q).gatesPut q gs)).upToQ q ((t + 64) * 1024)

theorem gateEdge_frame (s : State) {q : Nat} (hq : q < 4) (t : Nat) (opens : Bool) (gs : GateDyn) :
    (s.gateEdge q t opens gs).gateOf q = gs ∧ (∀ q', q' ≠ q → (s.gateEdge q t opens gs).gateOf q' = s.gateOf q') ∧
      (s.gateEdge q t opens gs).hbm = s.hbm ∧
      (s.gateEdge q t opens gs).now = (s.upToQ q ((t + 64) * 1024)).now ∧
      (s.gateEdge q t opens gs).groups = s.groups := by
  have hsettle := (StreamsOnly.refl (s.upToQ q ((t + 63) * 1024))).gateSettle q
  rw [gateEdge]
  generalize (s.upToQ q ((t + 63) * 1024)).gateSettle q = u at hsettle
  have hwords := (StreamsOnly.refl (u.gatesPut q gs)).foldl
    (f := fun s j => s.streamGate (64 * q + 16 * j) t opens) (fun _ j h => h.streamGate (64 * q + 16 * j) t opens)
    (List.range 4)
  generalize List.foldl _ _ _ = w at hwords ⊢
  have hgate : (w.upToQ q ((t + 64) * 1024)).gate = tabPut [] u.gate q gs := by
    rw [upToQ, upTo_gate, hwords.gate, gatesPut]
  have hold : u.gate = s.gate := hsettle.gate.trans (upTo_gate _ _)
  refine ⟨?_, fun q' hne => ?_, ?_, ?_, ?_⟩
  · rw [gateOf, hgate, tabGet_put_same]
  · rw [gateOf, hgate, tabGet_put_other _ _ _ _ _ _ hne.symm, hold, gateOf]
  · rw [upToQ, upTo_hbm, hwords.hbm]
    exact hsettle.hbm.trans (upTo_hbm _ _)
  · calc (w.upToQ q ((t + 64) * 1024)).now
        = (u.upToQ q ((t + 64) * 1024)).now :=
          (upToQ_now_congr hwords.now hwords.tlOn (hwords.ballShift hq) _).trans
            (upToQ_now_congr (s := u) (t := u.gatesPut q gs) rfl rfl rfl _)
      _ = ((s.upToQ q ((t + 63) * 1024)).upToQ q ((t + 64) * 1024)).now :=
          upToQ_now_congr hsettle.now hsettle.tlOn (hsettle.ballShift hq) _
      _ = (s.upToQ q ((t + 64) * 1024)).now := upToQ_upToQ_now s q (by omega)
  · rw [upToQ, upTo_groups, hwords.groups]
    exact hsettle.groups.trans (upTo_groups _ _)

section

variable {s : State} {q : Nat} (t : Nat)

theorem gateOpen_open {o : Nat} {r : GateDyn} (h : s.gateOf q = (o, none) :: r) : s.gateOpen q t = s := by
  rw [gateOpen, h]

theorem gateClose_closed (h : ∀ o r, s.gateOf q ≠ (o, none) :: r) : s.gateClose q t = s := by
  unfold gateClose
  split
  · rename_i o r hopen
    exact absurd hopen (h o r)
  · rfl

/-- A gate that closes ends the gates of the frequency units that it gates. -/
theorem gateClose_edge {o : Nat} {r : GateDyn} (h : s.gateOf q = (o, none) :: r) :
    ∃ d : Tab IuDyn, s.gateClose q t = { s.gateEdge q t false ((o, some t) :: r) with iu := d } := by
  rw [gateClose, h]
  refine List.foldlRecOn
    (motive := fun u => ∃ d : Tab IuDyn, u = { s.gateEdge q t false ((o, some t) :: r) with iu := d }) _ _
    ⟨(s.gateEdge q t false ((o, some t) :: r)).iu, rfl⟩ fun u hu i _ => ?_
  obtain ⟨d, rfl⟩ := hu
  dsimp only
  split <;> exact ⟨_, rfl⟩

end

/-! ## What a frequency unit's gate end leaves (R232) -/

/-- `t` has the gates and groups of `s`, and its timeline has not gone back. -/
def GatesKept (s t : State) : Prop := t.gate = s.gate ∧ t.groups = s.groups ∧ s.now ≤ t.now

theorem GatesKept.refl (s : State) : GatesKept s s := ⟨rfl, rfl, le_rfl⟩

section

variable {s t : State} (h : GatesKept s t)
include h

theorem GatesKept.trans {u : State} (h' : GatesKept t u) : GatesKept s u := by
  obtain ⟨hgate, hgroups, hnow⟩ := h
  obtain ⟨hgate', hgroups', hnow'⟩ := h'
  exact ⟨hgate'.trans hgate, hgroups'.trans hgroups, hnow.trans hnow'⟩

theorem GatesKept.ite {u : State} (h' : GatesKept s u) (p : Prop) [Decidable p] : GatesKept s (if p then t else u) := by
  split <;> assumption

theorem GatesKept.same {u : State} (hgate : u.gate = t.gate) (hgroups : u.groups = t.groups) (hnow : u.now = t.now) :
    GatesKept s u := h.trans ⟨hgate, hgroups, hnow.ge⟩

theorem GatesKept.foldl {α : Type} {f : State → α → State} (hf : ∀ u a, GatesKept s u → GatesKept s (f u a))
    (l : List α) : GatesKept s (l.foldl f t) :=
  List.foldlRecOn l f h fun u hu a _ => hf u a hu

theorem GatesKept.upTo (a : Nat) : GatesKept s (t.upTo a) :=
  h.trans ⟨upTo_gate _ _, upTo_groups _ _, le_upTo_now _ _⟩

theorem GatesKept.wr (p o : Nat) (v : W32) : GatesKept s (t.wr p o v) := h.same rfl rfl rfl

theorem GatesKept.set (p : Nat) (f : Fld) (v : Nat) : GatesKept s (t.set p f v) := h.wr _ _ _

theorem GatesKept.setIu (i : Nat) (d : IuDyn) : GatesKept s (t.setIu i d) := h.same rfl rfl rfl

theorem GatesKept.rise (p b : Nat) : GatesKept s (t.rise p b) := by
  unfold State.rise
  split
  · exact h
  · exact h.same rfl rfl rfl

theorem GatesKept.candidate (x key : Nat) : GatesKept s (t.candidate x key) := by
  unfold State.candidate
  dsimp only
  split
  · exact h
  split
  · exact (h.set _ _ _).rise _ _
  · exact (h.wr _ _ _).set _ _ _

theorem GatesKept.rmwRead (a : Nat) : GatesKept s (t.rmwRead a) := by
  unfold State.rmwRead
  dsimp only
  split
  · exact h
  · have hrows := h.foldl (f := fun u x => u.candidate (hbmStack a) (rowKey x)) (fun _ x hu => hu.candidate _ _)
      (t.copies a)
    exact (((hrows.set _ _ _).set _ _ _).set _ _ _).rise _ _

theorem GatesKept.hbmPutAccess (a : Nat) (bs : List Byte) (ep : Bool) : GatesKept s (t.hbmPutAccess a bs ep) := by
  have hread := (h.rmwRead a).ite h (bs.length < 32)
  unfold State.hbmPutAccess
  dsimp only
  split
  · exact (h.set _ _ _).rise _ _
  split
  · exact h
  · have hbytes := hread.foldl (f := fun u b => u.hbmPutByte (a + b.2) b.1) (fun _ b hu => hu.same rfl rfl rfl)
      bs.zipIdx
    exact hbytes.same rfl rfl rfl

theorem GatesKept.hbmPut (ep : Bool) (n a : Nat) (bs : List Byte) : GatesKept s (t.hbmPut a bs ep n) := by
  induction n generalizing t a bs with
  | zero => exact h
  | succ n ih =>
    unfold State.hbmPut
    split
    · exact h
    · exact ih (h.hbmPutAccess _ _ _) _ _

theorem GatesKept.hbmPutWords (a : Nat) (ws : List W32) : GatesKept s (t.hbmPutWords a ws) := h.hbmPut _ _ _ _

theorem GatesKept.setIuState (i v : Nat) : GatesKept s (t.setIuState i v) := h.set _ _ _

theorem GatesKept.iuDepth (i : Nat) : GatesKept s (t.iuDepth i) := h.set _ _ _

theorem GatesKept.modTicket (slot : Nat) (f : Ticket → Ticket) : GatesKept s (t.modTicket slot f) := h.same rfl rfl rfl

/-- The result of an interval unit goes to its queue or to the destination of its ticket. -/
theorem GatesKept.iuResult (i : Nat) (v : Int) (flags w2 hi3 : Nat) :
    GatesKept s (t.iuResult i v flags w2 hi3) := by
  unfold State.iuResult
  extract_lets p d seq ws d' queued shown ended
  have hqueued : GatesKept s queued := by
    unfold queued
    split
    · exact (h.hbmPutWords _ _).setIu _ _
    split
    · exact h.setIu _ _
    · exact ((h.setIu _ _).set _ _ _).rise _ _
  have hshown : GatesKept s shown := hqueued.iuDepth _
  have hended : GatesKept s ended := hshown.setIuState _ _
  split
  · split
    · exact hended.modTicket _ _
    · exact hended
  · exact hshown

theorem GatesKept.iuGateEnd (i : Nat) : GatesKept s (t.iuGateEnd i) := by
  unfold State.iuGateEnd
  dsimp only
  split
  · exact h
  split
  · exact h
  · exact (((h.upTo _).setIu _ _).setIuState _ _).iuResult _ _ _ _ _

end

/-- A gate that opens begins the gates of the frequency units that it gates. -/
theorem gateOpen_edge {s : State} {q : Nat} (t : Nat) (h : ∀ o r, s.gateOf q ≠ (o, none) :: r) :
    GatesKept (s.gateEdge q t true ((t, none) :: (s.gateOf q).take 3)) (s.gateOpen q t) := by
  unfold gateOpen
  split
  · rename_i o r hopen
    exact absurd hopen (h o r)
  refine (GatesKept.refl _).foldl (fun u i hu => ?_) _
  have hend := fun p [Decidable p] => (hu.iuGateEnd i).ite hu p
  exact (((hend _).setIu _ _).setIuState _ _).ite (hend _) _

end State

end Sys2Proof.Machine

namespace Sys2Proof

open Sys2Proof.Machine Sys2Proof.Machine.State

section

variable {s t : State} {c : Chan} {q : Quad} {n : Nat}

theorem does_cmpTransition {high level : Bool} (h : s.cmpChange c.val high level n = t) :
    Does (.cmpTransition c high level n) s t := Does.of rfl h

theorem does_stampArrival (h : s.stampArrive = t) : Does .stampArrival s t := Does.of rfl h

theorem does_streamBurstWrite {bad : BitVec 16} (h : s.streamBurst c.val bad.toNat = t) :
    Does (.streamBurstWrite c bad) s t := Does.of rfl h

theorem does_flush {e : Eye} {v : W32} {z : BitVec 1024} (hR : Reaches s (pg T.tdc e.val))
    (h : s.tdcCtl e.val (v ||| 0x80000000) (fun k => z.toNat / 2 ^ (64 * k) % 2 ^ 64) = t) : Does (.flush e v z) s t :=
  Does.of rfl ((onPage_reaches _ _ _ hR).trans h)

theorem does_gateOpen (h : s.gateOpen q.val n = t) : Does (.gateOpen q n) s t := Does.of rfl h

theorem does_gateClose (h : s.gateClose q.val n = t) : Does (.gateClose q n) s t := Does.of rfl h

end

/-- Settles O32: the transition converted or missed, the stamps of the least value, bursts and flushes, and the gate
that opens or closes. -/
theorem stampsReachTheirStreams : Obligations.StampsReachTheirStreams := by
  unfold Obligations.StampsReachTheirStreams
  refine ⟨?change, ⟨?none, ?arrive, ?burst, ?flush⟩, ?gates⟩
  case change =>
    intro s c high level t
    refine ⟨fun h => does_cmpTransition (cmpChange_same t h), fun h => ?_⟩
    have hnew := cmpChange_new t h
    have hinput := edgeCode_input (s.levelTaken c.val high level t) c.val high level
    exact ⟨fun h2 => does_cmpTransition (hnew.trans (if_pos h2)),
      fun h2 hfar => does_cmpTransition
        ((hnew.trans (if_neg (Nat.not_lt.2 h2))).trans (convert_far hinput hfar)),
      fun h2 x hx hnear => does_cmpTransition
        ((hnew.trans (if_neg (Nat.not_lt.2 h2))).trans (convert_near hinput hx hnear))⟩
  case none => exact fun s h hwait => does_stampArrival (stampArrive_none h hwait)
  case arrive => exact fun s v hmem hleast => does_stampArrival (stampArrive_least hmem hleast)
  case burst =>
    intro s c bad
    refine ⟨fun h => does_streamBurstWrite (streamBurst_waits _ h), fun h h0 => does_streamBurstWrite ?_,
      fun h _ => does_streamBurstWrite (streamBurst_leaves bad h)⟩
    rw [streamBurst_leaves bad h, h0]
    exact congrArg (streamDrain · c.val 16) (streamPoison_none _ _)
  case flush => exact fun s e v z hR => does_flush hR (if_pos (by simp))
  case gates =>
    intro s q t
    refine ⟨fun o r hopen => ⟨does_gateOpen (gateOpen_open t hopen), s.gateClose q.val t, does_gateClose rfl, ?closed⟩,
      fun hclosed => ⟨does_gateClose (gateClose_closed t hclosed), s.gateOpen q.val t, does_gateOpen rfl, ?opened⟩⟩
    case closed =>
      obtain ⟨d, hw⟩ := gateClose_edge t hopen
      rw [hw]
      exact gateEdge_frame s q.isLt t false _
    case opened =>
      obtain ⟨hgate, hgroups, hnow⟩ := gateOpen_edge t hclosed
      obtain ⟨hown, hother, -, hedge, hgroups'⟩ :=
        gateEdge_frame s q.isLt t true ((t, none) :: (s.gateOf q.val).take 3)
      have hgateOf : ∀ q', (s.gateOpen q.val t).gateOf q' =
          (s.gateEdge q.val t true ((t, none) :: (s.gateOf q.val).take 3)).gateOf q' :=
        fun q' => congrArg (tabGet [] · q') hgate
      exact ⟨(hgateOf _).trans hown, fun q' hne => (hgateOf q').trans (hother q' hne), hedge ▸ hnow,
        hgroups.trans hgroups'⟩

end Sys2Proof

/-!
Interval units: ARM and DISARM, deadlines, the ends of frequency gates, and the results popped (R227, R228, R230, R232).
-/
namespace Sys2Proof.Machine

open Sys2Proof

/-- The eyelet of an interval unit, and its place on the eyelet's page. -/
theorem unit_place {e n : Nat} (hn : n < 4) : (4 * e + n) / 4 = e ∧ (4 * e + n) % 4 = n := by omega

namespace State

/-! ## ARM and DISARM (R227) -/

section

variable (s : State) (e n : Nat)

/-- What unit `n` of an eyelet takes at an ARM: the images of its registers; the results queued stay. -/
def iuTaken : IuDyn :=
  let p := pg T.tdc e
  let o := 0x400 + 0x40 * n
  { ctl := s.rd p o, src := s.rd p (o + 4), tmo := s.rd p (o + 8), ta := s.now + 65536,
    results := (s.iuOf (4 * e + n)).results, hold := (s.iuOf (4 * e + n)).hold, owner := none }

/-- An ARM is taken. -/
abbrev IuArmable : Prop :=
  s.enabled (pg T.tdc e) = true ∧ 2 ≤ s.stage ∧ (s.iuState (4 * e + n) = 0 ∨ s.iuState (4 * e + n) = 5) ∧
    (s.iuTaken e n).mode ≠ 3 ∧
    ¬ ((s.iuTaken e n).mode = 1 ∧ (s.iuTaken e n).gated = true ∧ (s.iuTaken e n).startCh % 16 ≠ 0)

/-- The first gate of a frequency unit that no gate input gates begins at TA. -/
def iuSelfGated (d : IuDyn) : IuDyn := { d with gs := d.ta, ge := some (d.ta + d.span * 1024) }

variable {s e n} (hn : n < 4)
include hn

theorem iuArm_eq :
    (s.iuArm (4 * e + n) none).1 =
      if s.IuArmable e n then
        let d := if (s.iuTaken e n).mode = 1 ∧ (!(s.iuTaken e n).gated) = true then iuSelfGated (s.iuTaken e n)
          else s.iuTaken e n
        (s.setIu (4 * e + n) d).setIuState (4 * e + n) (if d.mode = 1 then (if d.gated then 3 else 4) else 1)
      else s.put (pg T.tdc e) (iuFld F.TDC_IU_STS_ARM_ERR n) true := by
  obtain ⟨hdiv, hmod⟩ := unit_place (e := e) hn
  have h4 : 0x404 + 0x40 * n = 0x400 + 0x40 * n + 4 := by omega
  have h8 : 0x408 + 0x40 * n = 0x400 + 0x40 * n + 8 := by omega
  unfold iuArm
  simp only [hdiv, hmod, h4, h8, apply_ite Prod.fst]
  refine if_congr ?_ rfl rfl
  simp only [IuArmable, iuTaken, Bool.and_eq_true, Bool.or_eq_true, decide_eq_true_eq, beq_iff_eq, bne_iff_ne,
    Bool.not_eq_true', Bool.and_eq_false_imp, bne_eq_false_iff_eq, and_assoc, and_imp, not_and, not_not, ne_eq]

theorem iuArm_refused (h : ¬ s.IuArmable e n) :
    (s.iuArm (4 * e + n) none).1 = s.put (pg T.tdc e) (iuFld F.TDC_IU_STS_ARM_ERR n) true :=
  (iuArm_eq hn).trans (if_neg h)

section

variable (h : s.IuArmable e n)
include h

theorem iuArm_pairs (hmode : (s.iuTaken e n).mode ≠ 1) :
    (s.iuArm (4 * e + n) none).1 = (s.setIu (4 * e + n) (s.iuTaken e n)).setIuState (4 * e + n) 1 := by
  rw [iuArm_eq hn, if_pos h, if_neg (by simp [hmode])]
  exact congrArg (setIuState _ _) (if_neg hmode)

variable (hmode : (s.iuTaken e n).mode = 1)
include hmode

theorem iuArm_gated (hgated : (s.iuTaken e n).gated = true) :
    (s.iuArm (4 * e + n) none).1 = (s.setIu (4 * e + n) (s.iuTaken e n)).setIuState (4 * e + n) 3 := by
  rw [iuArm_eq hn, if_pos h, if_neg (by simp [hgated])]
  exact congrArg (setIuState _ _) ((if_pos hmode).trans (if_pos hgated))

theorem iuArm_selfGated (hgated : (s.iuTaken e n).gated = false) :
    (s.iuArm (4 * e + n) none).1 =
      (s.setIu (4 * e + n) (iuSelfGated (s.iuTaken e n))).setIuState (4 * e + n) 4 := by
  rw [iuArm_eq hn, if_pos h, if_pos ⟨hmode, by simp [hgated]⟩]
  exact congrArg (setIuState _ _) ((if_pos hmode).trans (if_neg (ne_true_of_eq_false hgated)))

end

/-- A write to TDC_IU_CTL: its settings, then DISARM, or ARM. -/
theorem iuCtl_eq (v : W32) :
    s.iuCtl (4 * e + n) v =
      let a := s.writeReg (pg T.tdc e) (0x400 + 0x40 * n) v false
      if v.getLsbD 1 then a.iuDisarm (4 * e + n) else if v.getLsbD 0 then (a.iuArm (4 * e + n) none).1 else a := by
  obtain ⟨hdiv, hmod⟩ := unit_place (e := e) hn
  rw [iuCtl, hdiv, hmod]

theorem iuCtl_disarm {v : W32} (hv : v.getLsbD 1 = true) :
    s.iuCtl (4 * e + n) v = (s.writeReg (pg T.tdc e) (0x400 + 0x40 * n) v false).iuDisarm (4 * e + n) :=
  (iuCtl_eq hn v).trans (if_pos hv)

theorem iuCtl_arm {v : W32} (hd : v.getLsbD 1 = false) (hv : v.getLsbD 0 = true) :
    s.iuCtl (4 * e + n) v = ((s.writeReg (pg T.tdc e) (0x400 + 0x40 * n) v false).iuArm (4 * e + n) none).1 :=
  (iuCtl_eq hn v).trans ((if_neg (ne_true_of_eq_false hd)).trans (if_pos hv))

end

section

variable {s : State} {i : Nat}

theorem iuDisarm_off (h : s.iuState i = 0) : s.iuDisarm i = s := if_pos h

theorem iuDisarm_on (h : s.iuState i ≠ 0) :
    s.iuDisarm i =
      (s.setIu i { s.iuOf i with members := [], excl := 0, ge := none, edges := [], held := none,
                                 owner := none }).setIuState i 0 := if_neg h

/-! ## Deadlines and gate ends (R228, R232) -/

@[simp] theorem upTo_iuOf (s : State) (t i : Nat) : (s.upTo t).iuOf i = s.iuOf i := by unfold upTo; split <;> rfl

/-- A stop of the unit at or before its deadline is on its way. -/
abbrev StopOnWay (s : State) (d : IuDyn) : Prop :=
  ∃ x ∈ s.stamps, x.ch = d.stopCh ∧ x.edge = d.stopEdge ∧ x.v ≤ d.deadline

theorem iuTimeout_eq (s : State) (i : Nat) :
    s.iuTimeout i =
      if s.iuState i = 2 ∧ ¬ s.StopOnWay (s.iuOf i) then
        (s.upToQ ((s.iuOf i).stopCh / 64) ((s.iuOf i).deadline + 1)).iuTmo i
      else s := by
  rw [iuTimeout]
  refine if_congr (and_congr_right fun _ => ?_) rfl rfl
  simp only [Bool.not_eq_true', ← Bool.not_eq_true, List.any_eq_true, Bool.and_eq_true, beq_iff_eq, decide_eq_true_eq,
    and_assoc]

theorem iuTimeout_none (h : s.iuState i ≠ 2 ∨ s.StopOnWay (s.iuOf i)) : s.iuTimeout i = s :=
  (iuTimeout_eq s i).trans (if_neg fun ⟨h2, hno⟩ => h.elim (· h2) hno)

theorem iuTmo_eq (s : State) (i : Nat) :
    s.iuTmo i =
      if (s.iuOf i).mode = 2 then
        ((s.setIuState i 1).setIu i { s.iuOf i with excl := (s.iuOf i).excl + 1 }).iuGroup i
      else (s.setIuState i 1).iuResult i 0 (2 ^ 14) 0 0 := rfl

/-- The unit at its deadline waits for a start again. -/
def iuAtDeadline (s : State) (i : Nat) : State :=
  (s.upToQ ((s.iuOf i).stopCh / 64) ((s.iuOf i).deadline + 1)).setIuState i 1

section

variable (h2 : s.iuState i = 2) (hno : ¬ s.StopOnWay (s.iuOf i))
include h2 hno

theorem iuTimeout_passed :
    s.iuTimeout i =
      if (s.iuOf i).mode = 2 then
        ((s.iuAtDeadline i).setIu i { s.iuOf i with excl := (s.iuOf i).excl + 1 }).iuGroup i
      else (s.iuAtDeadline i).iuResult i 0 (2 ^ 14) 0 0 := by
  rw [iuTimeout_eq, if_pos ⟨h2, hno⟩, iuTmo_eq, upToQ, upTo_iuOf, iuAtDeadline, upToQ]

theorem iuTimeout_averages (hmode : (s.iuOf i).mode = 2) :
    s.iuTimeout i = ((s.iuAtDeadline i).setIu i { s.iuOf i with excl := (s.iuOf i).excl + 1 }).iuGroup i :=
  (iuTimeout_passed h2 hno).trans (if_pos hmode)

theorem iuTimeout_gives (hmode : (s.iuOf i).mode ≠ 2) :
    s.iuTimeout i = (s.iuAtDeadline i).iuResult i 0 (2 ^ 14) 0 0 :=
  (iuTimeout_passed h2 hno).trans (if_neg hmode)

end

theorem iuGateEnd_none (h : (s.iuOf i).ge = none ∨ s.iuState i ≠ 4) : s.iuGateEnd i = s := by
  unfold iuGateEnd
  dsimp only
  split
  · rfl
  · rename_i ge hge
    exact if_pos (h.resolve_left (by simp [hge]))

/-- The edges of a frequency unit in the gate that ends at `ge`, those still on their way included. -/
def gateEdges (s : State) (d : IuDyn) (ge : Nat) : List Nat :=
  (d.edges ++ (s.stamps.filter (fun x => x.ch == d.startCh && x.edge == d.startEdge)).map (·.v)).filter
    (fun v => decide (d.gs ≤ v) && decide (v < ge))

/-- The span of a gate's edges, from the first to the last. -/
def edgeSpan (xs : List Nat) : Int :=
  match xs with
  | [] => 0
  | x :: r => ((r.foldl max x : Nat) : Int) - (r.foldl min x : Nat)

/-- The result of a gate's edges enters the queue, flagged TMO below two of them. -/
def gateResult (s : State) (i : Nat) (xs : List Nat) : State :=
  s.iuResult i (edgeSpan xs) (b2n (decide (xs.length < 2)) * 2 ^ 14) xs.length 0

section

variable {ge : Nat} (hge : (s.iuOf i).ge = some ge) (h4 : s.iuState i = 4)
include hge h4

theorem iuGateEnd_some :
    s.iuGateEnd i =
      let d := s.iuOf i
      let u := s.upToQ (d.startCh / 64) ge
      let rest := d.edges.filter (fun v => decide (ge ≤ v))
      ((u.setIu i (if d.gated then { d with edges := rest, ge := none }
        else { d with edges := rest, gs := ge, ge := some (ge + d.span * 1024) })).setIuState i
          (if d.gated then 3 else 4)).gateResult i (u.gateEdges d ge) := by
  unfold iuGateEnd
  dsimp only
  rw [hge]
  dsimp only
  rw [if_neg (by simp [h4])]
  rfl

theorem iuGateEnd_gated (hgated : (s.iuOf i).gated = true) :
    s.iuGateEnd i =
      let d := s.iuOf i
      let u := s.upToQ (d.startCh / 64) ge
      ((u.setIu i { d with edges := d.edges.filter (fun v => decide (ge ≤ v)),
                           ge := none }).setIuState i 3).gateResult i (u.gateEdges d ge) := by
  rw [iuGateEnd_some hge h4]
  dsimp only
  rw [if_pos hgated, if_pos hgated]

theorem iuGateEnd_selfGated (hgated : (s.iuOf i).gated = false) :
    s.iuGateEnd i =
      let d := s.iuOf i
      let u := s.upToQ (d.startCh / 64) ge
      ((u.setIu i { d with edges := d.edges.filter (fun v => decide (ge ≤ v)), gs := ge,
                           ge := some (ge + d.span * 1024) }).setIuState i 4).gateResult i (u.gateEdges d ge) := by
  rw [iuGateEnd_some hge h4]
  dsimp only
  rw [if_neg (ne_true_of_eq_false hgated), if_neg (ne_true_of_eq_false hgated)]

end

/-! ## Results popped (R230) -/

theorem iuPop_none (h : (s.iuOf i).results = []) : s.iuPop i = (s.setIu i { s.iuOf i with hold := [] }, 0) := by
  simp only [iuPop, h]

theorem iuPop_oldest {r : List W32} {rs : List (List W32)} (h : (s.iuOf i).results = r :: rs) :
    s.iuPop i =
      let held := r.set 1 (r.getD 1 0 ||| 0x80000000)
      ((s.setIu i { s.iuOf i with results := rs, hold := held }).iuDepth i, held.getD 0 0) := by
  rw [iuPop, h]

end

end State

end Sys2Proof.Machine

namespace Sys2Proof

open Sys2Proof.Machine Sys2Proof.Machine.State

section

variable {s t : State} {e : Eye} {n : Fin 4}

section

variable {v : W32} (hR : Reaches s (pg T.tdc e.val))
include hR

theorem does_iuArm (h : s.iuCtl (4 * e.val + n.val) (v ||| 1) = t) : Does (.iuArm e n v) s t :=
  Does.of rfl ((onPage_reaches _ _ _ hR).trans h)

theorem does_iuDisarm (h : s.iuCtl (4 * e.val + n.val) (v ||| 2) = t) : Does (.iuDisarm e n v) s t :=
  Does.of rfl ((onPage_reaches _ _ _ hR).trans h)

end

theorem does_iuTimeout (h : s.iuTimeout (4 * e.val + n.val) = t) : Does (.iuTimeout e n) s t := Does.of rfl h

theorem does_iuGateEnd (h : s.iuGateEnd (4 * e.val + n.val) = t) : Does (.iuGateEnd e n) s t := Does.of rfl h

theorem does_iuResultPop {bad : Bool} {w : W32} (hR : Readable s (pg T.tdc e.val))
    (h : (if bad then s.iuPoison (4 * e.val + n.val) else s).iuPop (4 * e.val + n.val) = (t, w)) :
    Does (.iuResultPop e n bad) s (t.answer w) :=
  Does.of rfl ((readPage_on _ _ _ hR).trans (by rw [h]))

end

/-- Settles O33: the ARM taken or refused, DISARM, the deadline that no stop meets, the gate that ends, and the result
popped. -/
theorem intervalUnitsGiveResults : Obligations.IntervalUnitsGiveResults := by
  unfold Obligations.IntervalUnitsGiveResults
  constructor
  · intro s e n v hR
    have hctl := fun (hv : v.getLsbD 1 = false) =>
      iuCtl_arm (s := s) (e := e.val) n.isLt (v := v ||| 1) (by rw [BitVec.getLsbD_or, hv]; rfl) (by simp)
    refine ⟨fun hv h => does_iuArm hR ((hctl hv).trans (iuArm_refused n.isLt h)),
      fun hv h hmode => does_iuArm hR ((hctl hv).trans (iuArm_pairs n.isLt h hmode)),
      fun hv h hmode hgated => does_iuArm hR ((hctl hv).trans (iuArm_gated n.isLt h hmode hgated)),
      fun hv h hmode hgated => does_iuArm hR ((hctl hv).trans (iuArm_selfGated n.isLt h hmode hgated)),
      fun hv => does_iuArm hR (iuCtl_disarm n.isLt (by simp [hv])), ?_⟩
    have hdisarm := iuCtl_disarm (s := s) (e := e.val) n.isLt (v := v ||| 2) (by simp)
    exact ⟨fun h => does_iuDisarm hR (hdisarm.trans (iuDisarm_off h)),
      fun h => does_iuDisarm hR (hdisarm.trans (iuDisarm_on h))⟩
  · intro s e n
    exact ⟨fun h => does_iuTimeout (iuTimeout_none h),
      fun h2 hno => ⟨fun hmode => does_iuTimeout (iuTimeout_averages h2 hno hmode),
        fun hmode => does_iuTimeout (iuTimeout_gives h2 hno hmode)⟩,
      fun h => does_iuGateEnd (iuGateEnd_none h),
      fun ge hge h4 => ⟨fun hgated => does_iuGateEnd (iuGateEnd_gated hge h4 hgated),
        fun hgated => does_iuGateEnd (iuGateEnd_selfGated hge h4 hgated)⟩,
      fun hR h => does_iuResultPop hR (iuPop_none h),
      fun hR r rs h => ⟨does_iuResultPop hR (iuPop_oldest h), does_iuResultPop hR rfl⟩⟩

end Sys2Proof

/-!
The event queue on its way to the hold and to the host ring, the trace ring, and what leaves alone when a linger time
ends (R222, R306, R308).
-/
namespace Sys2Proof.Machine

open Sys2Proof

namespace State

/-! ## Entries of the event queue (R306) -/

/-- The entry at place `i` has left the queue. -/
def evTaken (s : State) (i : Nat) : State :=
  { s with evq := { s.evq with q := s.evq.q.eraseIdx i, ends := s.evq.ends.eraseIdx i } }

/-- An entry is found corrupted: it is counted and shown. -/
def evPoisonShown (s : State) : State :=
  ((s.put evqPg F.EVQ_STS_POISON true).parityErr evqPg 1).rise evqPg X.EVQ_EVQ_POISON

/-- An entry stands in the hold and is acknowledged; its place in the queue is free. -/
def evHeld (s : State) (ws : List W32) (slot : Option Nat) : State :=
  (({ s with evq := { s.evq with hold := ws } } : State).evqSync.ackSlot slot).evqRoom

section

variable {s : State} {i : Nat} {ws : List W32} {slot : Option Nat}

theorem evTake_empty (h : s.evq.q = []) : s.evTake = none := by
  have hnext : evNext s.evq.q = none := by rw [h]; rfl
  rw [evTake, hnext]

theorem evTake_next (hnext : evNext s.evq.q = some i) (hat : s.evq.q[i]? = some (ws, slot)) :
    s.evTake = some ((ws, slot), s.evTaken i) := by
  rw [evTake, hnext]
  dsimp only
  rw [hat, evTaken]

theorem evPop_mode1 (bad : Bool) (hmode : s.flag evqPg F.EVQ_CTL_MODE = true) : s.evPop bad = (s, 0) := if_pos hmode

section

variable (hmode : s.flag evqPg F.EVQ_CTL_MODE = false)
include hmode

theorem evPop_empty (bad : Bool) (h : s.evq.q = []) :
    s.evPop bad = ({ s with evq := { s.evq with hold := [] } }, 0) := by
  rw [evPop, if_neg (by simp [hmode]), evTake_empty h]

variable (hnext : evNext s.evq.q = some i) (hat : s.evq.q[i]? = some (ws, slot))
include hnext hat

theorem evPop_sound : s.evPop false = ((s.evTaken i).evHeld ws slot, ws.getD 0 0) := by
  rw [evPop, if_neg (by simp [hmode]), evTake_next hnext hat]
  rfl

theorem evPop_corrupted :
    s.evPop true =
      let h := ws.set 0 (ws.getD 0 0 ||| 0x8000)
      ((s.evTaken i).evPoisonShown.evHeld h slot, h.getD 0 0) := by
  rw [evPop, if_neg (by simp [hmode]), evTake_next hnext hat]
  rfl

end

/-- The host ring takes an entry in MODE 1, with a ring that is not full, over a link that is up. -/
theorem evRingOpen_iff (s : State) :
    s.evRingOpen = true ↔
      s.flag evqPg F.EVQ_CTL_MODE = true ∧ s.evRingSize ≠ 0 ∧
        (s.get evqPg F.EVQ_RING_WP_WP + 1) % s.evRingSize ≠ s.get evqPg F.EVQ_RING_RP_RP % s.evRingSize ∧
        s.pci.linkUp = true ∧ s.pci.d3 = false := by
  simp [evRingOpen, and_assoc]

theorem evRingOne_sound (hopen : s.evRingOpen = true) (hnext : evNext s.evq.q = some i)
    (hat : s.evq.q[i]? = some (ws, slot)) :
    s.evRingOne false =
      let u : State := { s.evTaken i with evq := { (s.evTaken i).evq with ring := s.evq.ring ++ [slot] } }
      let wp := s.get evqPg F.EVQ_RING_WP_WP
      let base := s.get evqPg F.EVQ_RING_BASE_LO_ADDR * 64 + s.get evqPg F.EVQ_RING_BASE_HI_ADDR * 2 ^ 32
      ((((u.emit (.hostWr (base + 32 * wp) ws)).set evqPg F.EVQ_RING_WP_WP ((wp + 1) % s.evRingSize)).msi
        (evClass ws)).evqSync).evqRoom := by
  rw [evRingOne, if_neg (by simp [hopen]), evTake_next hnext hat]
  rfl

theorem evRing_waits (bad : Nat) (h : s.evq.q.length < 2) : s.evRing bad = s := if_neg (by omega)

theorem evRing_pair (bad : Nat) (h : 2 ≤ s.evq.q.length) :
    s.evRing bad = (s.evRingOne (bad.testBit 0)).evRingOne (bad.testBit 1) := if_pos h

theorem evLone_leaves (bad : Bool) (h : s.evq.q.length = 1) (hopen : s.evRingOpen = true) :
    s.evLone bad = (s.upToMono (s.evq.ends.getD 0 0)).evRingOne bad := if_pos (by simp [h, hopen])

theorem evLone_stays (bad : Bool) (h : s.evq.q.length ≠ 1 ∨ s.evRingOpen = false) : s.evLone bad = s :=
  if_neg (by rcases h with h | h <;> simp [h])

end

/-! ## Records of the trace (R222, R308) -/

section

variable {s : State}

theorem traceWrite_burst (h : 4 ≤ s.sch.trace.length) : s.traceWrite = s.traceDrain 4 := if_pos h

theorem traceWrite_waits (h : s.sch.trace.length < 4) : s.traceWrite = s := if_neg (by omega)

theorem traceTail_leaves (h : s.sch.trace.length % 4 ≠ 0) :
    s.traceTail = (s.upToMono s.sch.traceEnd).traceDrain s.sch.trace.length := if_neg h

theorem traceTail_none (h : s.sch.trace.length % 4 = 0) : s.traceTail = s := if_pos h

theorem traceDrain_none (n : Nat) (h : s.sch.trace = []) :
    s.traceDrain n = { s with sch := { s.sch with trace := [] } } := by
  simp only [traceDrain, h, List.take_nil, List.drop_nil, List.foldl_nil, ite_self]

/-! ## The partial bursts of an acquisition (R222) -/

/-- A partial burst of records waits. -/
abbrev RecsPartial (s : State) (q : Nat) : Prop := s.acqBytes q % 64 ≠ 0

/-- A partial burst of markers waits. -/
abbrev MarksPartial (s : State) (q : Nat) : Prop := (s.trgOf q).marks.length % 4 ≠ 0

/-- At an instant, the partial bursts of `s` whose own linger time has ended by then leave. -/
def acqLingered (s : State) (q end_ : Nat) (bad : List (Nat × Nat)) : State :=
  let u := s.upToMono end_
  u.acqDrain q (if s.RecsPartial q ∧ (u.trgOf q).linger ≤ u.mono then (u.trgOf q).q.length else 0)
    (if s.MarksPartial q ∧ (u.trgOf q).mlinger ≤ u.mono then (u.trgOf q).marks.length else 0) bad

@[simp] theorem upTo_trgOf (s : State) (t q : Nat) : (s.upTo t).trgOf q = s.trgOf q := by unfold upTo; split <;> rfl

variable {q : Nat} (bad : List (Nat × Nat))

theorem acqTail_none (hrecs : ¬ s.RecsPartial q) (hmarks : ¬ s.MarksPartial q) : s.acqTail q bad = s :=
  if_pos (by simp only [decide_eq_false hrecs, decide_eq_false hmarks]; rfl)

theorem acqTail_lingered (h : s.RecsPartial q ∨ s.MarksPartial q) :
    s.acqTail q bad =
      s.acqLingered q
        (if s.RecsPartial q then
          (if s.MarksPartial q then min (s.trgOf q).linger (s.trgOf q).mlinger else (s.trgOf q).linger)
         else (s.trgOf q).mlinger) bad := by
  have hgo : ¬ (!(decide (s.RecsPartial q) || decide (s.MarksPartial q))) = true := by
    simpa only [Bool.not_eq_true', Bool.or_eq_false_iff, decide_eq_false_iff_not, not_and_or, not_not] using h
  rw [acqLingered]
  simp only [upToMono, upTo_trgOf]
  exact if_neg hgo

theorem acqTail_recs (hrecs : s.RecsPartial q) (hmarks : ¬ s.MarksPartial q) :
    s.acqTail q bad = s.acqLingered q (s.trgOf q).linger bad := by
  rw [acqTail_lingered bad (.inl hrecs), if_pos hrecs, if_neg hmarks]

theorem acqTail_marks (hrecs : ¬ s.RecsPartial q) (hmarks : s.MarksPartial q) :
    s.acqTail q bad = s.acqLingered q (s.trgOf q).mlinger bad := by
  rw [acqTail_lingered bad (.inr hmarks), if_neg hrecs]

theorem acqTail_both (hrecs : s.RecsPartial q) (hmarks : s.MarksPartial q) :
    s.acqTail q bad = s.acqLingered q (min (s.trgOf q).linger (s.trgOf q).mlinger) bad := by
  rw [acqTail_lingered bad (.inl hrecs), if_pos hrecs, if_pos hmarks]

end

end State

end Sys2Proof.Machine

namespace Sys2Proof

open Sys2Proof.Machine Sys2Proof.Machine.State

section

variable {s t : State}

theorem does_evqPop {bad : Bool} {v : W32} (hR : Readable s evqPg) (h : s.evPop bad = (t, v)) :
    Does (.evqPop bad) s (t.answer v) :=
  Does.of rfl ((readPage_on _ _ _ hR).trans (by rw [h]))

theorem does_evqRingWrite {bad : BitVec 2} (h : s.evRing bad.toNat = t) : Does (.evqRingWrite bad) s t := Does.of rfl h

theorem does_traceWrite (h : s.traceWrite = t) : Does .traceWrite s t := Does.of rfl h

theorem does_lingerExpiry {l : Linger} {bad : Nat} (h : s.lingerTail l bad = t) : Does (.lingerExpiry l bad) s t :=
  Does.of rfl h

end

/-- Settles O38: the entry popped or stored in the host ring, the burst of trace records, and the partial burst of each
queue at the end of its linger time. -/
theorem eventQueueFillsTheRing : Obligations.EventQueueFillsTheRing := by
  unfold Obligations.EventQueueFillsTheRing
  refine ⟨⟨?pop, ?pair, ?ring⟩, fun s => ⟨?burst, ?few, ?trace, ?noTrace, ?lone, ?noLone, ?stream, ?flog, ?acq, ?none⟩⟩
  case pop =>
    intro s bad hR
    refine ⟨fun hmode => does_evqPop hR (evPop_mode1 bad hmode),
      fun hmode h => does_evqPop hR (evPop_empty hmode bad h), fun ws slot i hmode hnext hat => ⟨?_, ?_⟩⟩
    · rintro rfl
      exact does_evqPop hR (evPop_sound hmode hnext hat)
    · rintro rfl
      exact does_evqPop hR (evPop_corrupted hmode hnext hat)
  case pair =>
    exact fun s bad => ⟨fun h => does_evqRingWrite (evRing_waits _ h), fun h => does_evqRingWrite (evRing_pair _ h)⟩
  case ring =>
    exact fun s ws o i hmode hsize hroom hlink hd3 =>
      evRingOne_sound ((evRingOpen_iff s).2 ⟨hmode, hsize, hroom, hlink, hd3⟩)
  case burst => exact fun h => does_traceWrite (traceWrite_burst h)
  case few => exact fun h => does_traceWrite (traceWrite_waits h)
  case trace => exact fun bad h => does_lingerExpiry (traceTail_leaves h)
  case noTrace => exact fun bad h => does_lingerExpiry (traceTail_none h)
  case lone => exact fun bad h hopen => does_lingerExpiry (evLone_leaves _ h hopen)
  case noLone => exact fun bad h => does_lingerExpiry (evLone_stays _ h)
  case stream => exact fun c bad => ⟨fun h => does_lingerExpiry (if_pos h), fun h => does_lingerExpiry (if_neg h)⟩
  case flog => exact fun e bad => ⟨fun h => does_lingerExpiry (if_pos h), fun h => does_lingerExpiry (if_neg h)⟩
  case acq =>
    exact fun q bad => ⟨fun hrecs hmarks => does_lingerExpiry (acqTail_none _ hrecs hmarks),
      fun hrecs hmarks => does_lingerExpiry (acqTail_recs _ hrecs hmarks),
      fun hrecs hmarks => does_lingerExpiry (acqTail_marks _ hrecs hmarks),
      fun hrecs hmarks => does_lingerExpiry (acqTail_both _ hrecs hmarks)⟩
  case none => exact fun h => traceDrain_none 4 h

end Sys2Proof

/-!
Trigger engines: a write of TRG_CTL, the start at B, the samples evaluated, the records and markers that leave, and the
decimation of a low queue (R235, R238, R242 to R247, R249, R252).
-/
namespace Sys2Proof.Machine

open Sys2Proof

/-- A field's value fits the field. -/
theorem fget_lt (w : W32) {hi lo : Nat} (h : hi < 32) (hl : lo ≤ hi) : fget w hi lo < 2 ^ (hi + 1 - lo) := by
  refine Nat.lt_pow_two_of_testBit _ fun i hge => ?_
  have hout : ¬ 31 - (hi - lo) + i < 32 := by omega
  rw [fget, BitVec.testBit_toNat]
  simp only [BitVec.getLsbD_and, BitVec.getLsbD_ushiftRight, BitVec.getLsbD_allOnes, hout, decide_false, Bool.and_false]

namespace State

/-! ## A write of TRG_CTL (R242 to R246) -/

section

variable (s : State) (q : Nat)

/-- A DISARM that acts at once. -/
theorem trgDisarm_now :
    s.trgDisarm q (s.nowQ q) =
      if s.trgRuns q = true then
        s.setTrg q { s.trgOf q with disarm := some (min (s.nowQ q) ((s.trgOf q).disarm.getD (s.nowQ q))) }
      else s.setTrg q { s.trgOf q with armed := none, disarm := none } := by
  unfold trgDisarm
  cases s.trgRuns q <;> simp

/-- A DISARM stands that acts by an instant. -/
abbrev DisarmDue (t : Nat) : Prop := ∃ x, (s.trgOf q).disarm = some x ∧ x ≤ t

theorem disarmDue_iff (t : Nat) : (s.trgOf q).disarm.any (fun v => decide (v ≤ t)) = true ↔ s.DisarmDue q t := by
  simp only [DisarmDue, Option.any_eq_true, decide_eq_true_eq]

end

/-! ## What the start leaves as it was -/

/-- An engine's B, its next sample and its fields beside MARK_LOST are the same in `t` as in `s`. -/
def StartKept (q : Nat) (s t : State) : Prop :=
  (t.trgOf q).at_ = (s.trgOf q).at_ ∧ (t.trgOf q).armed = (s.trgOf q).armed ∧
    ∀ f, 0x010 ≠ f.ofs → (Beside F.TRG_STS_MARK_LOST f ∨ F.TRG_STS_MARK_LOST.ofs ≠ f.ofs) →
      t.get (trgPg q) f = s.get (trgPg q) f

theorem StartKept.refl (q : Nat) (s : State) : StartKept q s s := ⟨rfl, rfl, fun _ _ _ => rfl⟩

@[simp] theorem trgOf_setTrg (s : State) (q : Nat) (d : TrgDyn) : (s.setTrg q d).trgOf q = d := tabGet_put_same _ _ _ _

section

variable {q : Nat} {s t : State}

theorem StartKept.trans {u : State} (h : StartKept q s t) (h' : StartKept q t u) : StartKept q s u := by
  obtain ⟨hat, harmed, hget⟩ := h
  obtain ⟨hat', harmed', hget'⟩ := h'
  exact ⟨hat'.trans hat, harmed'.trans harmed, fun f hf hm => (hget' f hf hm).trans (hget f hf hm)⟩

theorem StartKept.setTrg {d : TrgDyn} (hat : d.at_ = (s.trgOf q).at_) (harmed : d.armed = (s.trgOf q).armed) :
    StartKept q s (s.setTrg q d) := by
  refine ⟨?_, ?_, fun _ _ _ => rfl⟩ <;> rwa [trgOf_setTrg]

end

section

variable (s : State) (q : Nat)

theorem startKept_rawTo (t : Nat) : StartKept q s (s.rawTo q t) := by
  refine StartKept.trans (List.foldlRecOn _ _ (.refl q s) fun u hu x _ => hu.trans ?_) (.setTrg rfl rfl)
  exact .setTrg rfl rfl

theorem startKept_markLost :
    StartKept q s ((s.put (trgPg q) F.TRG_STS_MARK_LOST true).rise (trgPg q) X.TRG_MARK_LOST) := by
  have htrg : ∀ u : State, (u.rise (trgPg q) X.TRG_MARK_LOST).trgOf q = u.trgOf q := fun u => by
    unfold rise; split <;> rfl
  refine ⟨congrArg TrgDyn.at_ (htrg _), congrArg TrgDyn.armed (htrg _), fun f hf hm => ?_⟩
  rw [get_rise_ofs _ _ _ hf]
  exact hm.elim (get_set_beside _ _ _ _ _) (get_set_ofs _ _ _ _ _)

theorem startKept_markIn (ui idx w3 : Nat) : StartKept q s (s.markIn q ui idx w3) := by
  unfold markIn
  dsimp only
  split
  · exact .setTrg rfl rfl
  · exact startKept_markLost s q

theorem startKept_markPut (typ ui idx level term : Nat) (forced : Bool) (info : Nat) :
    StartKept q s (s.markPut q typ ui idx level term forced info) := by
  unfold markPut
  split
  · exact .refl q s
  · exact startKept_markIn s q _ _ _

theorem startKept_acqLow : StartKept q s (s.acqLow q) := by
  unfold acqLow
  dsimp only
  split
  · split
    · exact .refl q s
    · exact .setTrg rfl rfl
  · exact .setTrg rfl rfl

/-! ## The start at B (R235, R238, R244, R246) -/

/-- The settings come into force, and the decimation begins at its minimum. -/
def trgConfigured : State :=
  ((s.inForceRange (trgPg q) 0x100 0x160).inForceRange (trgPg q) 0x170 0x1000).set (trgPg q) F.TRG_DECIM_CUR_LOG
    (s.get (trgPg q) F.TRG_DECIM_MIN_LOG)

/-- The engine's counters, flags and indices are 0, and it shows RUN in level 0. -/
def trgZeroed : State :=
  let p := trgPg q
  let u := (List.range 4).foldl (fun s n => s.set p (F.TRG_CNT_VALUE.off (4 * n)) 0) s
  let u := (((u.wr p 0x108 0).put p F.TRG_STS_TRIGGERED false).set p F.TRG_ACQ_WIDX_W 0).set p F.TRG_POST_KEPT_KEPT 0
  ((u.set p F.TRG_STS_LEVEL 0).set p F.TRG_STS_STATE 1).set p F.TRG_MARK_WP_WP 0

/-- The engine's first sample is the one at B. -/
def trgAt (b : Nat) : State :=
  let d := s.trgOf q
  s.setTrg q { start := b, at_ := b, disarm := d.disarm, stamps := d.stamps, lvl := d.lvl, q := d.q, marks := d.marks,
               segs := d.segs, linger := d.linger, mlinger := d.mlinger, info := d.info }

/-- The rebuilt state is the one that the first sample compares with. -/
def trgPrimed : State :=
  s.setTrg q { s.trgOf q with
    prev := (s.eyeSel q).map (fun i => s.rawWord q i), agreed := (List.range 4).filter (fun n => s.matcher q n) }

/-- The levels are rebuilt up to just before B, and the START marker is due. -/
def trgStarted (b : Nat) : State :=
  (((s.rawTo q ((b - 1) * 1024 + s.tcfg q F.TRG_RAW_PHASE_PHASE)).trgPrimed q).markPut q 1 b 0 0 0 false 0).acqLow q

theorem trgBegin_eq (b : Nat) : s.trgBegin q b = (((s.trgConfigured q).trgZeroed q).trgAt q b).trgStarted q b := rfl

theorem startKept_trgPrimed : StartKept q s (s.trgPrimed q) := .setTrg rfl rfl

theorem startKept_trgStarted (b : Nat) : StartKept q s (s.trgStarted q b) :=
  (((startKept_rawTo s q _).trans (startKept_trgPrimed _ q)).trans (startKept_markPut _ q 1 b 0 0 0 false 0)).trans
    (startKept_acqLow _ q)

theorem trgAt_get (b p : Nat) (f : Fld) : (s.trgAt q b).get p f = s.get p f := rfl

theorem trgConfigured_dlog : (s.trgConfigured q).dlog q = s.get (trgPg q) F.TRG_DECIM_MIN_LOG := by
  rw [dlog, trgConfigured, get_set_same _ _ _ _ (by decide) (by decide)]
  exact Nat.mod_eq_of_lt (fget_lt _ (by decide) (by decide))

theorem trgZeroed_dlog : (s.trgZeroed q).dlog q = s.dlog q := by
  have hcnt : ((List.range 4).foldl (fun s n => s.set (trgPg q) (F.TRG_CNT_VALUE.off (4 * n)) 0) s).dlog q = s.dlog q :=
    List.foldlRecOn (motive := fun u : State => u.dlog q = s.dlog q) _ _ rfl fun u hu n _ =>
      (get_set_ofs u _ _ _ 0 (show 0x170 + 4 * n ≠ 0x114 by omega)).trans hu
  rw [← hcnt]
  simp only [dlog, trgZeroed, put]
  iterate 6 rw [get_set_ofs _ _ _ _ _ (by decide)]
  exact get_wr_ofs _ _ _ _ _ (by decide)

theorem trgZeroed_state : (s.trgZeroed q).get (trgPg q) F.TRG_STS_STATE = 1 := by
  rw [trgZeroed, get_set_ofs _ _ _ _ _ (by decide), get_set_same _ _ _ _ (by decide) (by decide)]
  rfl

theorem trgZeroed_level : (s.trgZeroed q).get (trgPg q) F.TRG_STS_LEVEL = 0 := by
  rw [trgZeroed, get_set_ofs _ _ _ _ _ (by decide), get_set_beside _ _ _ _ _ (by decide),
    get_set_same _ _ _ _ (by decide) (by decide)]
  rfl

theorem trgZeroed_triggered : (s.trgZeroed q).flag (trgPg q) F.TRG_STS_TRIGGERED = false := by
  rw [trgZeroed, flag_set_ofs _ _ _ _ _ (by decide), flag_set_beside _ _ _ _ _ (by decide),
    flag_set_beside _ _ _ _ _ (by decide), flag_set_ofs _ _ _ _ _ (by decide), flag_set_ofs _ _ _ _ _ (by decide),
    flag_put_same _ _ _ _ (by decide) rfl]

theorem trgZeroed_widx : (s.trgZeroed q).widx q = 0 := by
  rw [widx, trgZeroed]
  iterate 4 rw [get_set_ofs _ _ _ _ _ (by decide)]
  rw [get_set_same _ _ _ _ (by decide) (by decide)]
  rfl

/-- What an engine that has started at B shows. -/
theorem trgBegin_shows (b : Nat) :
    let t := s.trgBegin q b
    t.get (trgPg q) F.TRG_STS_STATE = 1 ∧ t.get (trgPg q) F.TRG_STS_LEVEL = 0 ∧
      t.flag (trgPg q) F.TRG_STS_TRIGGERED = false ∧
      t.get (trgPg q) F.TRG_DECIM_CUR_LOG = s.get (trgPg q) F.TRG_DECIM_MIN_LOG ∧
      t.get (trgPg q) F.TRG_ACQ_WIDX_W = 0 ∧ (t.trgOf q).at_ = b ∧ (t.trgOf q).armed = none := by
  obtain ⟨hat, harmed, hget⟩ := startKept_trgStarted (((s.trgConfigured q).trgZeroed q).trgAt q b) q b
  rw [← trgBegin_eq] at hat harmed hget
  rw [trgAt, trgOf_setTrg] at hat harmed
  simp only [trgAt_get] at hget
  refine ⟨?state, ?level, ?triggered, ?decimation, ?index, hat, harmed⟩
  case state => rw [hget _ (by decide) (.inl (by decide)), trgZeroed_state]
  case level => rw [hget _ (by decide) (.inl (by decide)), trgZeroed_level]
  case triggered => rw [flag, hget _ (by decide) (.inl (by decide)), ← flag, trgZeroed_triggered]
  case decimation => rw [hget _ (by decide) (.inr (by decide)), ← dlog, trgZeroed_dlog, trgConfigured_dlog]
  case index => rw [hget _ (by decide) (.inr (by decide)), ← widx, trgZeroed_widx]

end

section

variable {s : State} {q : Nat}

theorem trgStart_unarmed (h : (s.trgOf q).armed = none) : s.trgStart q = s := by rw [trgStart, h]

section

variable {b : Nat} (h : (s.trgOf q).armed = some b)
include h

theorem trgStart_armed :
    s.trgStart q =
      let u := s.upToQ q (b * 1024)
      if u.DisarmDue q (b * 1024) then
        (u.rawAll q).setTrg q { (u.rawAll q).trgOf q with armed := none, disarm := none }
      else u.trgBegin q b := by
  rw [trgStart, h]
  exact if_congr (disarmDue_iff _ q _) rfl rfl

theorem trgStart_disarmed (hoff : (s.upToQ q (b * 1024)).DisarmDue q (b * 1024)) :
    s.trgStart q =
      let v := (s.upToQ q (b * 1024)).rawAll q
      v.setTrg q { v.trgOf q with armed := none, disarm := none } := (trgStart_armed h).trans (if_pos hoff)

theorem trgStart_begins (hon : ¬ (s.upToQ q (b * 1024)).DisarmDue q (b * 1024)) :
    s.trgStart q = (s.upToQ q (b * 1024)).trgBegin q b := (trgStart_armed h).trans (if_neg hon)

end

end

/-! ## A sample (R235, R238, R246) -/

/-- Where an interval of averages ends with the sample, its record is taken. -/
def avgTaken (s : State) (q u : Nat) : State :=
  if s.acqMode q = 4 ∧ u % (64 * 2 ^ (s.tcfg q F.TRG_AVG_AVG_LOG + s.dlog q)) = 0 then (s.avgFlush q).decimTake q u
  else s

/-- The level machine of the sample at `t`, then the records of the acquisition; the result says that the engine stops
at the sample's end. -/
def sampleTaken (s : State) (q t : Nat) : State × Bool :=
  let xs := sampleStamps (s.trgOf q) q
  let r := s.sampleRaw q t
  let l := r.1.levelStep q xs r.2.1
  let a := (r.2.2.zipIdx).foldl (fun s x => s.rawPoint q (t + x.2) x.1) (l.1.sampleDone q xs r.2.1)
  (((xs.foldl (fun s x => s.acqStamp q x) a).acqFails q).avgTaken q (t + 4), l.2)

/-- The engine's next sample is the one at `t`. -/
def sampleNext (s : State) (q t : Nat) : State := s.setTrg q { s.trgOf q with at_ := t }

section

variable {s : State} {q : Nat}

theorem trgSample_idle (h : s.trgRuns q = false) : s.trgSample q = s := by
  unfold trgSample
  rw [if_pos (by simp [h])]

section

variable (hrun : s.trgRuns q = true)
include hrun

theorem trgSample_runs :
    s.trgSample q =
      let t := (s.trgOf q).at_
      let u := s.upToQ q (evalAt t)
      let c := (u.sampleTaken q t).1
      if u.DisarmDue q (evalAt t) then u.trgFinish q 3 t
      else if c.trgRuns q = false then c
      else if (u.sampleTaken q t).2 = true then (c.sampleNext q (t + 4)).trgFinish q 4 (t + 4)
      else c.sampleNext q (t + 4) := by
  unfold trgSample
  rw [if_neg (by simp [hrun])]
  refine if_congr (disarmDue_iff _ q _) rfl ?_
  exact if_congr (by rw [Bool.not_eq_true']; rfl) rfl rfl

theorem trgSample_disarmed (hdue : (s.upToQ q (evalAt (s.trgOf q).at_)).DisarmDue q (evalAt (s.trgOf q).at_)) :
    s.trgSample q = (s.upToQ q (evalAt (s.trgOf q).at_)).trgFinish q 3 (s.trgOf q).at_ :=
  (trgSample_runs hrun).trans (if_pos hdue)

/-- The sample that a running engine evaluates, and whether the engine stops at its end. -/
abbrev sampleNow (s : State) (q : Nat) : State × Bool :=
  (s.upToQ q (evalAt (s.trgOf q).at_)).sampleTaken q (s.trgOf q).at_

variable (hdue : ¬ (s.upToQ q (evalAt (s.trgOf q).at_)).DisarmDue q (evalAt (s.trgOf q).at_))
include hdue

theorem trgSample_ended (hend : (s.sampleNow q).1.trgRuns q = false) : s.trgSample q = (s.sampleNow q).1 :=
  (trgSample_runs hrun).trans ((if_neg hdue).trans (if_pos hend))

variable (hon : (s.sampleNow q).1.trgRuns q = true)
include hon

theorem trgSample_goes_on (hstop : (s.sampleNow q).2 = false) :
    s.trgSample q = (s.sampleNow q).1.sampleNext q ((s.trgOf q).at_ + 4) :=
  (trgSample_runs hrun).trans ((if_neg hdue).trans ((if_neg (by simp [hon])).trans (if_neg (by simp [hstop]))))

theorem trgSample_stops (hstop : (s.sampleNow q).2 = true) :
    s.trgSample q =
      ((s.sampleNow q).1.sampleNext q ((s.trgOf q).at_ + 4)).trgFinish q 4 ((s.trgOf q).at_ + 4) :=
  (trgSample_runs hrun).trans ((if_neg hdue).trans ((if_neg (by simp [hon])).trans (if_pos hstop)))

end

/-! ## The decimation steps down (R252) -/

/-- A running AUTO engine is above its minimum decimation, and no change of it waits. -/
abbrev DecimFree (s : State) (q : Nat) : Prop :=
  s.trgRuns q = true ∧ (s.trgOf q).want = none ∧ s.tcfg q F.TRG_DECIM_AUTO = 1 ∧
    s.tcfg q F.TRG_DECIM_MIN_LOG < s.dlog q

theorem decimFree_iff (s : State) (q : Nat) :
    (s.trgRuns q && (s.trgOf q).want.isNone && s.tcfg q F.TRG_DECIM_AUTO == 1 &&
      decide (s.tcfg q F.TRG_DECIM_MIN_LOG < s.dlog q)) = true ↔ s.DecimFree q := by
  simp only [DecimFree, Bool.and_eq_true, Option.isNone_iff_eq_none, beq_iff_eq, decide_eq_true_eq, and_assoc]

theorem decimDown_low {x : Nat} (hlow : (s.trgOf q).lowSince = some x) :
    s.decimDown q =
      let u := s.upToMono ((x + 16384) * 1024)
      if s.DecimFree q then
        u.setTrg q { u.trgOf q with want := some (u.dlog q - 1), lowSince := some (u.mono / 1024) }
      else s := by
  unfold decimDown
  dsimp only
  rw [hlow]
  exact if_congr (decimFree_iff s q) rfl rfl

theorem decimDown_steps {x : Nat} (hlow : (s.trgOf q).lowSince = some x) (hfree : s.DecimFree q) :
    s.decimDown q =
      let u := s.upToMono ((x + 16384) * 1024)
      u.setTrg q { u.trgOf q with want := some (u.dlog q - 1), lowSince := some (u.mono / 1024) } :=
  (decimDown_low hlow).trans (if_pos hfree)

theorem decimDown_none (h : (s.trgOf q).lowSince = none ∨ ¬ s.DecimFree q) : s.decimDown q = s := by
  cases hlow : (s.trgOf q).lowSince with
  | none => simp only [decimDown, hlow]
  | some x => exact (decimDown_low hlow).trans (if_neg (h.resolve_left (by simp [hlow])))

end

end State

end Sys2Proof.Machine

namespace Sys2Proof

open Sys2Proof.Machine Sys2Proof.Machine.State

section

variable {s t : State} {q : Quad}

section

variable {v : W32} (hR : Reaches s (trgPg q.val))
include hR

theorem does_trgArm (h : s.trgCtl q.val (v ||| 1) = t) : Does (.trgArm q v) s t :=
  Does.of rfl ((onPage_reaches _ _ _ hR).trans h)

theorem does_trgDisarm (h : s.trgCtl q.val (v ||| 2) = t) : Does (.trgDisarm q v) s t :=
  Does.of rfl ((onPage_reaches _ _ _ hR).trans h)

theorem does_force (h : s.trgCtl q.val (v ||| 4) = t) : Does (.force q v) s t :=
  Does.of rfl ((onPage_reaches _ _ _ hR).trans h)

end

theorem does_trgStart (h : s.trgStart q.val = t) : Does (.trgStart q) s t := Does.of rfl h

theorem does_trgSample (h : s.trgSample q.val = t) : Does (.trgSample q) s t := Does.of rfl h

theorem does_acqRecordWrite {n m : Nat} {bad : List (Nat × Nat)} (h : s.acqDrain q.val n m bad = t) :
    Does (.acqRecordWrite q n m bad) s t := Does.of rfl h

theorem does_decimDown (h : s.decimDown q.val = t) : Does (.decimDown q) s t := Does.of rfl h

end

/-- Settles O34: the bits of TRG_CTL that act, the start at B, the sample evaluated, the records and markers that leave,
and the decimation that steps down. -/
theorem triggersStartAndAcquire : Obligations.TriggersStartAndAcquire := by
  unfold Obligations.TriggersStartAndAcquire
  refine ⟨?control,
    fun s q => ⟨?unarmed, fun b hb => ⟨?disarmed, fun hon => ?begins⟩, ?idle, fun hrun => ⟨?due, ?sample⟩⟩,
    fun s q => ⟨?drain, ?steps, ?level⟩⟩
  case control =>
    intro s q v hR p force disarm arm run
    have hctl : ∀ w, s.trgCtl q.val w = run w := fun w => by
      simp only [trgCtl, trgDisarm_now]
      rfl
    exact ⟨does_trgArm hR (hctl _), does_trgDisarm hR (hctl _), does_force hR (hctl _)⟩
  case unarmed => exact fun h => does_trgStart (trgStart_unarmed h)
  case disarmed => exact fun hoff => does_trgStart (trgStart_disarmed hb hoff)
  case begins =>
    have hshows := trgBegin_shows (s.upToQ q.val (b * 1024)) q.val b
    rw [upToQ, upTo_get] at hshows
    exact ⟨_, does_trgStart (trgStart_begins hb hon), hshows⟩
  case idle => exact fun h => does_trgSample (trgSample_idle h)
  case due => exact fun hdue => does_trgSample (trgSample_disarmed hrun hdue)
  case sample =>
    exact fun hdue => ⟨fun hend => does_trgSample (trgSample_ended hrun hdue hend),
      fun hon hstop => does_trgSample (trgSample_goes_on hrun hdue hon hstop),
      fun hon hstop => does_trgSample (trgSample_stops hrun hdue hon hstop)⟩
  case drain =>
    -- The clause writes out the drain of the queues, each record with the words of it found corrupted.
    exact fun n m bad => does_acqRecordWrite rfl
  case steps => exact fun x hx hfree => does_decimDown (decimDown_steps hx hfree)
  case level => exact fun h => does_decimDown (decimDown_none h)

end Sys2Proof

/-!
Lane operations of the analysis engines (R257 to R260, R263): when the operation of the word in hand has its turn, what
it computes, and how the result is narrowed.
-/
namespace Sys2Proof.Machine

open Sys2Proof

/-- A register has no load of an earlier word pending. -/
theorem not_loadPending_iff (d : AneDyn) (r : Nat) :
    (!State.loadPending d r) = true ↔ ∀ x ∈ d.loads, x.age ≠ 0 → x.dst ≠ r := by
  simp only [State.loadPending, Bool.not_eq_true', List.any_eq_false, Bool.and_eq_true, beq_iff_eq, bne_iff_ne, ne_eq,
    not_and']

namespace State

@[simp] theorem aneOf_setAne (s : State) (q : Nat) (d : AneDyn) : (s.setAne q d).aneOf q = d := tabGet_put_same _ _ _ _
@[simp] theorem aneOf_set (s : State) (p : Nat) (f : Fld) (v q : Nat) : (s.set p f v).aneOf q = s.aneOf q := rfl
@[simp] theorem aneOf_bump (s : State) (p : Nat) (f : Fld) (n q : Nat) : (s.bump p f n).aneOf q = s.aneOf q := rfl

/-! ## The turn of a part of the word in hand (R263) -/

section

variable (s : State) (q : Nat)

/-- The word in hand has the lane operation `op`, whose turn has come, and no load of an earlier word is pending to the
registers that it reads. -/
abbrev LaneTurn (op : Nat) (a b : Bool) : Prop :=
  s.aneState q = 2 ∧ fget (s.ucur q 3) 5 0 = op ∧ (s.aneOf q).parts.testBit 2 = false ∧
    (fget (s.ucur q 1) 2 0 = 0 ∨ (s.aneOf q).parts.testBit 0 = true) ∧
    (fget (s.ucur q 2) 2 0 = 0 ∨ (s.aneOf q).parts.testBit 1 = true) ∧
    (a = true → ∀ x ∈ (s.aneOf q).loads, x.age ≠ 0 → x.dst ≠ fget (s.ucur q 3) 13 10) ∧
    (b = true → (s.ucur q 3).getLsbD 18 = false →
      ∀ x ∈ (s.aneOf q).loads, x.age ≠ 0 → x.dst ≠ fget (s.ucur q 3) 17 14)

theorem laneTurn_iff (op : Nat) (a b : Bool) : s.laneTurn q op a b = true ↔ s.LaneTurn q op a b := by
  have hA := not_loadPending_iff (s.aneOf q) (fget (s.ucur q 3) 13 10)
  have hB := not_loadPending_iff (s.aneOf q) (fget (s.ucur q 3) 17 14)
  simp only [LaneTurn, ← hA, ← hB, laneTurn]
  cases a <;> cases b <;> cases (s.ucur q 3).getLsbD 18 <;> simp [and_assoc]

/-! ## What an operation leaves (R258, R259) -/

/-- The lanes whose narrowed result overflowed. -/
theorem ovfBits_narrowed (sat : Bool) (lanes : List Nat) (f : Nat → Int) :
    ovfBits (lanes.map fun l => (l, narrow40 sat (f l))) =
      (lanes.filter fun l => (narrow40 sat (f l)).2).foldl setBit 0 := by
  simp only [ovfBits, List.filter_map, List.foldl_map, Function.comp_def]

/-- The results of an operation that writes DST or ACC: each executing lane's, narrowed, at the place given. -/
def narrowed (place : Nat → Nat) (f : Nat → Int) : List (Nat × BitVec 40) :=
  (s.lanesOn q).map fun l => (place l, (narrow40 (s.satBit q) (f l)).1)

/-- The executing lanes whose exact result leaves the range. -/
def outOfRange (f : Nat → Int) : Nat :=
  ((s.lanesOn q).filter fun l => (narrow40 (s.satBit q) (f l)).2).foldl setBit 0

/-- F after a comparison: the executing lanes' bits are replaced. -/
def flagsCompared (f : Nat → Bool) : Nat :=
  (s.lanesOn q).foldl (fun m l => if f l then setBit m l else clearBit m l) (s.aneOf q).f

variable {s q} {op : Nat}

theorem laneDst_turn {a b : Bool} (f : Nat → Int) (h : s.LaneTurn q op a b) :
    s.laneDst q op a b f =
      s.laneDone q (s.narrowed q (fun l => 16 * l + fget (s.ucur q 3) 9 6) f) [] none (s.outOfRange q f) := by
  rw [laneDst, if_pos ((laneTurn_iff s q op a b).2 h)]
  simp only [ovfBits_narrowed, List.map_map, Function.comp_def, narrowed, outOfRange]

theorem laneDst_none {a b : Bool} (f : Nat → Int) (h : ¬ s.LaneTurn q op a b) : s.laneDst q op a b f = s :=
  if_neg (mt (laneTurn_iff s q op a b).1 h)

theorem laneAcc_turn {a b : Bool} (f : Nat → Int) (h : s.LaneTurn q op a b) :
    s.laneAcc q op a b f = s.laneDone q [] (s.narrowed q (fun l => l) f) none (s.outOfRange q f) := by
  rw [laneAcc, if_pos ((laneTurn_iff s q op a b).2 h)]
  simp only [ovfBits_narrowed, List.map_map, Function.comp_def, narrowed, outOfRange]

theorem laneAcc_none {a b : Bool} (f : Nat → Int) (h : ¬ s.LaneTurn q op a b) : s.laneAcc q op a b f = s :=
  if_neg (mt (laneTurn_iff s q op a b).1 h)

theorem laneCmp_turn (f : Nat → Bool) (h : s.LaneTurn q op true true) :
    s.laneCmp q op f = s.laneDone q [] [] (some (s.flagsCompared q f)) 0 := if_pos ((laneTurn_iff s q op true true).2 h)

theorem laneCmp_none (f : Nat → Bool) (h : ¬ s.LaneTurn q op true true) : s.laneCmp q op f = s :=
  if_neg (mt (laneTurn_iff s q op true true).1 h)

end

end State

/-! ## Narrowing (R259) -/

theorem narrow40_inRange (sat : Bool) {i : Int} (hlo : -(2 ^ 39) ≤ i) (hhi : i ≤ 2 ^ 39 - 1) :
    narrow40 sat i = (BitVec.ofInt 40 i, false) := if_pos ⟨hlo, hhi⟩

theorem narrow40_clamp_low {i : Int} (h : i < -(2 ^ 39)) : narrow40 true i = (BitVec.ofInt 40 (-(2 ^ 39)), true) := by
  have hout : ¬ (-(2 ^ 39) ≤ i ∧ i ≤ 2 ^ 39 - 1) := by omega
  simp only [narrow40, if_neg hout, if_pos h, if_true]

theorem narrow40_clamp_high {i : Int} (h : 2 ^ 39 - 1 < i) :
    narrow40 true i = (BitVec.ofInt 40 (2 ^ 39 - 1), true) := by
  have hout : ¬ (-(2 ^ 39) ≤ i ∧ i ≤ 2 ^ 39 - 1) := by omega
  have hlo : ¬ i < -(2 ^ 39) := by omega
  simp only [narrow40, if_neg hout, if_neg hlo, if_true]

theorem narrow40_wraps {i : Int} (h : i < -(2 ^ 39) ∨ 2 ^ 39 - 1 < i) :
    narrow40 false i = (BitVec.ofInt 40 i, true) := by
  have hout : ¬ (-(2 ^ 39) ≤ i ∧ i ≤ 2 ^ 39 - 1) := by omega
  simp only [narrow40, if_neg hout, Bool.false_eq_true, if_false]

end Sys2Proof.Machine

namespace Sys2Proof

open Sys2Proof.Machine Sys2Proof.Machine.State

section

variable {c : Instr} {s : State} {q op : Nat}

/-- A command that writes DST. -/
theorem does_laneDst {a b : Bool} {f : Nat → Int} (hc : exec c s = done (s.laneDst q op a b f)) :
    (s.LaneTurn q op a b → Does c s
      (s.laneDone q (s.narrowed q (fun l => 16 * l + fget (s.ucur q 3) 9 6) f) [] none (s.outOfRange q f))) ∧
    (¬ s.LaneTurn q op a b → Does c s s) :=
  ⟨fun h => Does.of hc (laneDst_turn f h), fun h => Does.of hc (laneDst_none f h)⟩

/-- A command that writes ACC. -/
theorem does_laneAcc {a b : Bool} {f : Nat → Int} (hc : exec c s = done (s.laneAcc q op a b f)) :
    (s.LaneTurn q op a b → Does c s
      (s.laneDone q [] (s.narrowed q (fun l => l) f) none (s.outOfRange q f))) ∧
    (¬ s.LaneTurn q op a b → Does c s s) :=
  ⟨fun h => Does.of hc (laneAcc_turn f h), fun h => Does.of hc (laneAcc_none f h)⟩

/-- A comparison. -/
theorem does_laneCmp {f : Nat → Bool} (hc : exec c s = done (s.laneCmp q op f)) :
    (s.LaneTurn q op true true → Does c s (s.laneDone q [] [] (some (s.flagsCompared q f)) 0)) ∧
    (¬ s.LaneTurn q op true true → Does c s s) :=
  ⟨fun h => Does.of hc (laneCmp_turn f h), fun h => Does.of hc (laneCmp_none f h)⟩

end

/-- Settles O55: the operations that write DST, those that write ACC, the comparisons and NOP, and the narrowing. -/
theorem laneOperationsGiveResults : Obligations.LaneOperationsGiveResults := by
  unfold Obligations.LaneOperationsGiveResults
  constructor
  · intro s q d w sat regA regB a b acc prod lanes turn after over_ dst rows accRows
    refine ⟨?dst, ?acc, ?cmp, ?nop, ?noTurn⟩
    case dst =>
      have hrows : ∀ r ∈ rows, exec r.1 s = done (s.laneDst q.val r.2.1 r.2.2.1 r.2.2.2.1 r.2.2.2.2) := by
        simp only [rows, List.forall_mem_cons, List.not_mem_nil, false_implies, implies_true, and_true]
        exact ⟨rfl, rfl, rfl, rfl, rfl, rfl, rfl, rfl, rfl, rfl, rfl, rfl, rfl⟩
      exact fun r hr => does_laneDst (hrows r hr)
    case acc =>
      have hrows : ∀ r ∈ accRows, exec r.1 s = done (s.laneAcc q.val r.2.1 r.2.2.1 r.2.2.1 r.2.2.2) := by
        simp only [accRows, List.forall_mem_cons, List.not_mem_nil, false_implies, implies_true, and_true]
        exact ⟨rfl, rfl, rfl, rfl⟩
      exact fun r hr => does_laneAcc (hrows r hr)
    case cmp =>
      simp only [List.forall_mem_cons, List.not_mem_nil, false_implies, implies_true, and_true]
      exact ⟨does_laneCmp rfl, does_laneCmp rfl⟩
    case nop => exact fun h => Does.of rfl (if_pos ((laneTurn_iff _ _ _ _ _).2 h))
    case noTurn => exact fun h => Does.of rfl (if_neg (mt (laneTurn_iff _ _ _ _ _).1 h))
  · exact fun i => ⟨fun hlo hhi sat => narrow40_inRange sat hlo hhi, narrow40_clamp_low, narrow40_clamp_high,
      narrow40_wraps⟩

end Sys2Proof

/-!
RSUM and MOVA (R258, R260).
-/
namespace Sys2Proof.Machine

open Sys2Proof

/-! ## Bits of lanes -/

theorem testBit_setBit (m i j : Nat) : (setBit m i).testBit j = (m.testBit j || decide (i = j)) := by
  rw [setBit, Nat.testBit_or, Nat.one_shiftLeft, Nat.testBit_two_pow]

theorem testBit_foldl_setBit (l : List Nat) (m j : Nat) :
    (l.foldl setBit m).testBit j = true ↔ m.testBit j = true ∨ j ∈ l := by
  induction l generalizing m with
  | nil => simp
  | cons i l ih =>
    rw [List.foldl_cons, ih, testBit_setBit, Bool.or_eq_true, decide_eq_true_eq, List.mem_cons, or_assoc,
      eq_comm (a := i)]

/-! ## The clamp of MOVA (R260) -/

/-- A value that SAT clamps to 16 bits. -/
abbrev ClampsTo16 (sat : Bool) (v : Int) : Prop := sat = true ∧ (v < -32768 ∨ 32767 < v)

/-- What a lane's register takes, and whether it overflowed. -/
def movaNarrow (sat : Bool) (v : Int) : BitVec 40 × Bool :=
  if sat && decide (v < -32768) then (BitVec.ofInt 40 (-32768), true)
  else if sat && decide (32767 < v) then (BitVec.ofInt 40 32767, true)
  else narrow40 false v

theorem movaNarrow_eq (sat : Bool) {v : Int} (hlo : -(2 ^ 39) ≤ v) (hhi : v ≤ 2 ^ 39 - 1) :
    movaNarrow sat v =
      (BitVec.ofInt 40 (if ClampsTo16 sat v then (if v < 0 then -32768 else 32767) else v),
        decide (ClampsTo16 sat v)) := by
  rw [movaNarrow, narrow40_inRange false hlo hhi]
  cases sat with
  | false => simp [ClampsTo16]
  | true =>
    by_cases hl : v < -32768
    · have hneg : v < 0 := by omega
      simp [ClampsTo16, hl, hneg]
    · by_cases hh : 32767 < v
      · have hpos : ¬ v < 0 := by omega
        simp [ClampsTo16, hl, hh, hpos]
      · simp [ClampsTo16, hl, hh]

namespace State

/-- A counter field after it counts. -/
theorem get_bump_same (s : State) (p : Nat) (f : Fld) (n : Nat) (h : f.hi < 32) (hl : f.lo ≤ f.hi) :
    (s.bump p f n).get p f = min (fmax f) (s.get p f + n) := by
  have hpos : 0 < 2 ^ (f.hi + 1 - f.lo) := Nat.two_pow_pos _
  have hle : min (fmax f) (s.get p f + n) < 2 ^ (f.hi + 1 - f.lo) := by
    have : min (fmax f) (s.get p f + n) ≤ fmax f := min_le_left _ _
    unfold fmax at this ⊢
    omega
  rw [bump, get_set_same _ _ _ _ h hl]
  exact Nat.mod_eq_of_lt hle

/-! ## The word in hand and the lanes that execute it -/

theorem ucur_congr {s t : State} {q : Nat} (hpc : t.get (anePg q) F.ANE_PC_PC = s.get (anePg q) F.ANE_PC_PC)
    (huc : t.ucode = s.ucode) (i : Nat) : t.ucur q i = s.ucur q i := by
  simp only [ucur, uword, hpc, huc]

theorem lanesOn_bump (s : State) (q : Nat) {f : Fld} (n : Nat) (h : f.ofs ≠ 0x108) :
    (s.bump (anePg q) f n).lanesOn q = s.lanesOn q := by
  have hu : ∀ i, (s.bump (anePg q) f n).ucur q i = s.ucur q i := ucur_congr (get_set_ofs _ _ _ _ _ h) rfl
  simp only [lanesOn, hu, aneOf_bump]

section

variable (s : State) (q : Nat) (wv wacc : List (Nat × BitVec 40)) (wf : Option Nat) (ovf : Nat)

@[simp] theorem laneDone_wv : ((s.laneDone q wv wacc wf ovf).aneOf q).wv = wv := by rw [laneDone, aneOf_setAne]
@[simp] theorem laneDone_wacc : ((s.laneDone q wv wacc wf ovf).aneOf q).wacc = wacc := by rw [laneDone, aneOf_setAne]
@[simp] theorem laneDone_get (p : Nat) (f : Fld) : (s.laneDone q wv wacc wf ovf).get p f = s.get p f := rfl
@[simp] theorem laneDone_ovf : ((s.laneDone q wv wacc wf ovf).aneOf q).ovf = (s.aneOf q).ovf ||| ovf := by
  rw [laneDone, aneOf_setAne]
@[simp] theorem laneDone_parts :
    ((s.laneDone q wv wacc wf ovf).aneOf q).parts = setBit (s.aneOf q).parts 2 := by rw [laneDone, aneOf_setAne]

end

variable {s : State} {q : Nat}

/-! ## RSUM (R258) -/

/-- The sum of ACC of all lanes. -/
def accSum (s : State) (q : Nat) : Int := (List.range 16).foldl (fun m l => m + (accr (s.aneOf q) l).toInt) 0

theorem laneRsum_turn (h : s.LaneTurn q 0x13 false false) :
    ∃ ovf, s.laneRsum q = (s.bump (anePg q) F.ANE_JOB_CYC_CYC 3).laneDone q []
      (if 0 ∈ s.lanesOn q then [(0, (narrow40 (s.satBit q) (s.accSum q)).1)] else []) none ovf := by
  have hlanes := lanesOn_bump s q (f := F.ANE_JOB_CYC_CYC) 3 (by decide)
  rw [laneRsum, if_pos ((laneTurn_iff s q _ _ _).2 h)]
  simp only [hlanes, List.contains_iff_mem]
  split
  · exact ⟨_, rfl⟩
  · exact ⟨_, rfl⟩

theorem laneRsum_none (h : ¬ s.LaneTurn q 0x13 false false) : s.laneRsum q = s := if_neg (mt (laneTurn_iff s q _ _ _).1 h)

/-! ## MOVA (R260) -/

section

variable (s : State) (q l : Nat)

/-- The shift of MOVA, what rounding adds, and ACC of a lane rounded and shifted. -/
def movaShift : Nat := if (s.ucur q 4).getLsbD 22 then s.get (anePg q) F.ANE_BEXP_BSH else fget (s.ucur q 4) 21 16

def movaRound : Int := if (s.ucur q 3).getLsbD 20 && decide (0 < s.movaShift q) then 2 ^ (s.movaShift q - 1) else 0

def movaValue : Int := ((accr (s.aneOf q) l).toInt + s.movaRound q) / 2 ^ s.movaShift q

/-- ACC rounded and shifted fits 40 bits: rounding adds less than the shift takes away. -/
theorem movaValue_inRange : -(2 ^ 39) ≤ s.movaValue q l ∧ s.movaValue q l ≤ 2 ^ 39 - 1 := by
  have hlo : -549755813888 ≤ (accr (s.aneOf q) l).toInt := BitVec.le_toInt _
  have hhi : (accr (s.aneOf q) l).toInt < 549755813888 := BitVec.toInt_lt
  unfold movaValue movaRound
  generalize (accr (s.aneOf q) l).toInt = a at *
  generalize s.movaShift q = n
  have hp : (1 : Int) ≤ 2 ^ n := one_le_pow₀ (by decide)
  suffices h : -549755813888 ≤ a + (if (s.ucur q 3).getLsbD 20 && decide (0 < n) then 2 ^ (n - 1) else 0) ∧
      a + (if (s.ucur q 3).getLsbD 20 && decide (0 < n) then 2 ^ (n - 1) else 0) < 549755813888 * (2 : Int) ^ n by
    constructor
    · rw [Int.le_ediv_iff_mul_le (by omega)]
      omega
    · refine Int.le_of_lt_add_one ?_
      rw [Int.ediv_lt_iff_lt_mul (by omega)]
      omega
  split
  next h =>
    simp only [Bool.and_eq_true, decide_eq_true_eq] at h
    obtain ⟨m, rfl⟩ : ∃ m, n = m + 1 := ⟨n - 1, by omega⟩
    have hm : (1 : Int) ≤ 2 ^ m := one_le_pow₀ (by decide)
    rw [pow_succ, Nat.add_sub_cancel]
    omega
  next => omega

end

/-- The lanes of a MOVA that SAT clamps. -/
def movaClamped (s : State) (q : Nat) : Nat :=
  ((s.lanesOn q).filter fun l => decide (ClampsTo16 (s.satBit q) (s.movaValue q l))).foldl setBit 0

theorem laneMova_turn (h : s.LaneTurn q 5 false false) :
    s.laneMova q = s.laneDone q
      ((s.lanesOn q).map fun l => (16 * l + fget (s.ucur q 3) 9 6, (movaNarrow (s.satBit q) (s.movaValue q l)).1)) [] none
      (s.movaClamped q) := by
  have hlanes : s.laneMova q = s.laneDone q
      (((s.lanesOn q).map fun l => (l, movaNarrow (s.satBit q) (s.movaValue q l))).map fun x =>
        (16 * x.1 + fget (s.ucur q 3) 9 6, x.2.1)) [] none
      (ovfBits ((s.lanesOn q).map fun l => (l, movaNarrow (s.satBit q) (s.movaValue q l)))) := by
    rw [laneMova, if_pos ((laneTurn_iff s q _ _ _).2 h)]
    have hlane : ∀ l, (l, movaNarrow (s.satBit q) (s.movaValue q l)) =
        if s.satBit q && decide (s.movaValue q l < -32768) then (l, (BitVec.ofInt 40 (-32768), true))
        else if s.satBit q && decide (32767 < s.movaValue q l) then (l, (BitVec.ofInt 40 32767, true))
        else (l, narrow40 false (s.movaValue q l)) := fun l => by
      rw [movaNarrow]
      split_ifs <;> rfl
    simp only [hlane]
    rfl
  have hovf : ∀ l, (movaNarrow (s.satBit q) (s.movaValue q l)).2 = decide (ClampsTo16 (s.satBit q) (s.movaValue q l)) := fun l => by
    obtain ⟨hlo, hhi⟩ := s.movaValue_inRange q l
    rw [movaNarrow_eq _ hlo hhi]
  rw [hlanes]
  simp only [ovfBits, List.map_map, List.filter_map, List.foldl_map, Function.comp_def, hovf, movaClamped]

theorem laneMova_none (h : ¬ s.LaneTurn q 5 false false) : s.laneMova q = s := if_neg (mt (laneTurn_iff s q _ _ _).1 h)

end State

end Sys2Proof.Machine

namespace Sys2Proof

open Sys2Proof.Machine Sys2Proof.Machine.State

/-- Settles O56: RSUM and MOVA in their turn and out of it. -/
theorem laneSumsAndMoves : Obligations.LaneSumsAndMoves := by
  unfold Obligations.LaneSumsAndMoves
  intro s q d w im acc lanes turn sh moved out16
  have hturn : ∀ op, turn op ↔ s.LaneTurn q.val op false false := fun op => by
    simp only [turn, LaneTurn, Bool.false_eq_true, false_implies, and_true]
    exact Iff.rfl
  simp only [hturn]
  refine ⟨?rsum, fun h => Does.of rfl (laneRsum_none h), ?mova, fun h => Does.of rfl (laneMova_none h)⟩
  case rsum =>
    intro h
    obtain ⟨ovf, hr⟩ := laneRsum_turn h
    have hcyc := get_bump_same s (anePg q.val) F.ANE_JOB_CYC_CYC 3 (by decide) (by decide)
    refine ⟨_, Does.of rfl hr, laneDone_wv _ _ _ _ _ _, laneDone_parts _ _ _ _ _ _, ?_, rfl, ?_⟩
    · rw [laneDone_wacc, List.foldl_map]
      rfl
    · rw [laneDone_get, hcyc]
      rfl
  case mova =>
    intro h
    have hround : s.movaRound q.val = if w.getLsbD 20 ∧ 0 < sh then 2 ^ (sh - 1) else 0 := by
      simp only [movaRound, Bool.and_eq_true, decide_eq_true_eq]
      rfl
    have hvalue : ∀ l, s.movaValue q.val l = moved l := fun l => by rw [movaValue, hround]; rfl
    refine ⟨_, Does.of rfl (laneMova_turn h), rfl, laneDone_wacc _ _ _ _ _ _, laneDone_parts _ _ _ _ _ _, ?_,
      fun l _ => ?_⟩
    · rw [laneDone_wv]
      refine List.map_congr_left fun l _ => ?_
      obtain ⟨hlo, hhi⟩ := s.movaValue_inRange q.val l
      rw [movaNarrow_eq _ hlo hhi, hvalue]
      rfl
    · rw [laneDone_ovf, Nat.testBit_or, Bool.or_eq_true, movaClamped, testBit_foldl_setBit, List.mem_filter,
        decide_eq_true_eq, Nat.zero_testBit, hvalue]
      simp only [Bool.false_eq_true, false_or]
      exact Iff.rfl

end Sys2Proof

/-!
The sequencers of the analysis engines (R261 to R266, R278 to R280): when the operation of the word in hand has its turn,
what the end of a word leaves, and how each operation goes on.
-/
namespace Sys2Proof.Machine

open Sys2Proof

theorem isBlock_eq : (fun f : Frame => match f with | .block .. => true | .call _ => false) = fun f => !isCall f := by
  funext f
  cases f <;> rfl

namespace State

section

variable (s : State) (q : Nat)

/-! ## The turn of the sequencer operation, and the end of the word (R263) -/

/-- The rest of the word in hand is carried out, no load's data are due, and its sequencer operation is `opc`. -/
abbrev SeqTurn (opc : Nat) : Prop :=
  s.aneState q = 2 ∧ fget (s.ucur q 0) 3 0 = opc ∧ (∀ x ∈ (s.aneOf q).loads, x.age < 3) ∧
    (fget (s.ucur q 1) 2 0 = 0 ∨ (s.aneOf q).parts.testBit 0 = true) ∧
    (fget (s.ucur q 2) 2 0 = 0 ∨ (s.aneOf q).parts.testBit 1 = true) ∧
    (fget (s.ucur q 3) 5 0 = 0 ∨ (s.aneOf q).parts.testBit 2 = true)

theorem seqTurn_iff (opc : Nat) : s.seqTurn q opc = true ↔ s.SeqTurn q opc := by
  simp only [seqTurn, loadDue, Bool.and_eq_true, Bool.or_eq_true, beq_iff_eq, Bool.not_eq_true', List.any_eq_false,
    decide_eq_true_eq, Nat.not_le, and_assoc]

section

variable {s q} {opc : Nat} {f : State → Nat → Nat → Nat → State}

theorem aneSeq_turn (h : s.SeqTurn q opc) :
    s.aneSeq q opc f = f (s.wordEnd q) (s.get (anePg q) F.ANE_PC_PC) (fget (s.ucur q 0) 17 4) (fget (s.ucur q 0) 29 18) :=
  if_pos ((seqTurn_iff s q opc).2 h)

theorem aneSeq_none (h : ¬ s.SeqTurn q opc) : s.aneSeq q opc f = s := if_neg (mt (seqTurn_iff s q opc).1 h)

end

@[simp] theorem wordEnd_bits : ((s.wordEnd q).aneOf q).bits = (s.aneOf q).bits := by simp [wordEnd]
@[simp] theorem wordEnd_spad : (s.wordEnd q).spad = s.spad := rfl

/-- The word's results become readable. -/
theorem wordEnd_shows :
    let g := (s.wordEnd q).aneOf q
    g.v = (s.aneOf q).wv.foldl (fun m x => tabPut 0 m x.1 x.2) (s.aneOf q).v ∧
      g.acc = (s.aneOf q).wacc.foldl (fun m x => tabPut 0 m x.1 x.2) (s.aneOf q).acc ∧
      g.f = (s.aneOf q).wf.getD (s.aneOf q).f ∧ g.bmax = max (s.aneOf q).bmax (s.aneOf q).wb ∧ g.parts = 0 := by
  simp [wordEnd]

/-! ## Blocks and calls (R262, R264) -/

/-- Blocks open on the stack. -/
abbrev blocksOpen : Nat := ((s.aneOf q).stack.filter fun f => !isCall f).length

/-- A block that ends at `t` lies inside the innermost block. -/
abbrev Nested (t : Nat) : Prop := ∀ a b n r, (s.aneOf q).stack = .block a b n :: r → t ≤ b

/-- BLOCK refuses the block. -/
theorem blockRefused_iff (pc t : Nat) :
    (decide (4 ≤ ((s.aneOf q).stack.filter fun f => match f with | .block .. => true | .call _ => false).length) ||
      decide (t < pc + 1) || !(match (s.aneOf q).stack with | .block _ b _ :: _ => decide (t ≤ b) | _ => true)) = true ↔
      4 ≤ s.blocksOpen q ∨ t < pc + 1 ∨ ¬ s.Nested q t := by
  rw [isBlock_eq]
  unfold Nested blocksOpen
  rcases (s.aneOf q).stack with _ | ⟨fr, r⟩
  · simp
  · cases fr <;> simp [or_assoc]

variable {s q} {pc t arg ksel : Nat}

theorem aneBlock_refused (h : 4 ≤ s.blocksOpen q ∨ t < pc + 1 ∨ ¬ s.Nested q t) :
    s.aneBlock q pc t arg ksel = s.aneEnd q 1 := if_pos ((blockRefused_iff s q pc t).2 h)

theorem aneBlock_opens (hopen : s.blocksOpen q < 4) (ht : pc < t) (hnest : s.Nested q t) :
    s.aneBlock q pc t arg ksel =
      s.aneGo q (pc + 1) (.block (pc + 1) t (if ksel = 0 then arg else kreg (s.aneOf q) ksel) :: (s.aneOf q).stack) := by
  refine if_neg (mt (blockRefused_iff s q pc t).1 ?_)
  rintro (h | h | h)
  · omega
  · omega
  · exact h hnest

theorem aneRet_call {r : Nat} {st : List Frame} (h : (s.aneOf q).stack = .call (r + 1) :: st) :
    s.aneRet q = (s.setAne q { s.aneOf q with stack := st }).aneNext q r := by
  simp only [aneRet, h, Nat.add_sub_cancel]

theorem aneRet_none (h : ∀ r st, (s.aneOf q).stack ≠ .call r :: st) : s.aneRet q = s.aneEnd q 1 := by
  unfold aneRet
  split
  next r st heq => exact absurd heq (h r st)
  next => rfl

/-! ## BRANCH (R262) -/

/-- K is counted down by one. -/
def kDown (s : State) (q c : Nat) : State :=
  s.setAne q { s.aneOf q with k := tabPut 0 (s.aneOf q).k c (kreg (s.aneOf q) c - 1) }

/-- BRANCH goes to its target or on. -/
def aneBranch (s : State) (q pc t c : Nat) : State :=
  if (s.aneCond q c).2 then (s.aneCond q c).1.aneGo q t (keepBlocks ((s.aneCond q c).1.aneOf q).stack t)
  else (s.aneCond q c).1.aneNext q pc

/-- The conditions on F and OVF. -/
abbrev FlagsHold (s : State) (q c : Nat) : Prop :=
  (c = 4 ∧ (s.aneOf q).f ≠ 0) ∨ (c = 5 ∧ (s.aneOf q).f = 0xFFFF) ∨ (c = 6 ∧ (s.aneOf q).ovf ≠ 0)

variable {c : Nat}

theorem aneBranch_counts (hc : c < 4) (hk : tabGet 0 (s.aneOf q).k c ≠ 0) :
    s.aneBranch q pc t c = (s.kDown q c).aneGo q t (keepBlocks ((s.kDown q c).aneOf q).stack t) := by
  have hcond : s.aneCond q c = (s.kDown q c, true) := by
    have hk' : ¬ kreg (s.aneOf q) c = 0 := hk
    simp only [aneCond, if_pos hc, if_neg hk']
    rfl
  rw [aneBranch, hcond, if_pos rfl]

theorem aneBranch_counted (hc : c < 4) (hk : tabGet 0 (s.aneOf q).k c = 0) :
    s.aneBranch q pc t c = s.aneNext q pc := by
  have hcond : s.aneCond q c = (s, false) := by
    have hk' : kreg (s.aneOf q) c = 0 := hk
    simp only [aneCond, if_pos hc, if_pos hk']
  rw [aneBranch, hcond, if_neg Bool.false_ne_true]

theorem aneCond_flags (hc : c = 4 ∨ c = 5 ∨ c = 6) : s.aneCond q c = (s, decide (s.FlagsHold q c)) := by
  rcases hc with rfl | rfl | rfl <;> simp [aneCond, FlagsHold, bne, Bool.beq_eq_decide_eq]

theorem aneBranch_flags (h : s.FlagsHold q c) :
    s.aneBranch q pc t c = s.aneGo q t (keepBlocks (s.aneOf q).stack t) := by
  have hc : c = 4 ∨ c = 5 ∨ c = 6 := h.imp And.left (Or.imp And.left And.left)
  rw [aneBranch, aneCond_flags hc, if_pos (decide_eq_true h)]

theorem aneBranch_noFlags (hc : c = 4 ∨ c = 5 ∨ c = 6) (h : ¬ s.FlagsHold q c) :
    s.aneBranch q pc t c = s.aneNext q pc := by
  rw [aneBranch, aneCond_flags hc, if_neg (by simp [h])]

/-! ## BEXP and LDP (R265, R266) -/

theorem aneBexp_shows (s : State) (q bmax own : Nat) :
    ((s.aneBexp q bmax own).aneOf q).bmax = own ∧
      (s.aneBexp q bmax own).get (anePg q) F.ANE_BEXP_BSH = (bitLen 41 bmax - (s.aneOf q).bits) % 64 := by
  have hbits : (((s.fresh.2).aneStall q (s.fresh.1 % 5)).aneOf q).bits = (s.aneOf q).bits := by
    simp only [aneStall, aneOf_bump, aneOf_setAne]
    rfl
  constructor
  · simp only [aneBexp, aneOf_set, aneOf_setAne]
  · simp only [aneBexp, hbits]
    rw [get_set_bits _ _ F.ANE_BEXP_SUM F.ANE_BEXP_BSH _ rfl (by decide) (by decide) (by decide) (by decide) (by decide),
      get_set_same _ _ _ _ (by decide) (by decide)]
    rfl

theorem rise_spad (s : State) (p b : Nat) : (s.rise p b).spad = s.spad := by unfold rise; split <;> rfl
theorem rise_ane (s : State) (p b : Nat) : (s.rise p b).ane = s.ane := by unfold rise; split <;> rfl

@[simp] theorem spadRead_spad (s : State) (q a : Nat) : (s.spadRead q a).1.spad = s.spad := by
  unfold spadRead
  dsimp only
  split_ifs <;> simp [rise_spad]

@[simp] theorem spadRead_ane (s : State) (q a : Nat) : (s.spadRead q a).1.ane = s.ane := by
  unfold spadRead
  dsimp only
  split_ifs <;> simp [rise_ane]

@[simp] theorem spadRead_word (s : State) (q a : Nat) : (s.spadRead q a).2.1 = tabGet 0 s.spad (spadKey q a) := rfl

/-- The pointer that LDP loads from two words. -/
def ptrWords (x y : W32) : Ptr := ⟨fget x 19 0, fget x 24 20, toSigned 16 (fget y 15 0), toSigned 16 (fget y 31 16), 0⟩

/-- The state in which LDP has read its two words. -/
def ldpRead (s : State) (q t : Nat) : State := ((s.spadRead q (8 * t)).1.spadRead q (8 * t + 4)).1

theorem ldpRead_spad (s : State) (q t : Nat) : (s.ldpRead q t).spad = s.spad := by simp [ldpRead]
theorem ldpRead_aneOf (s : State) (q t : Nat) : (s.ldpRead q t).aneOf q = s.aneOf q := by simp [ldpRead, aneOf]

/-- The state in which LDP has loaded pointer `n`. -/
def ldpLoaded (s : State) (q t n : Nat) : State :=
  (s.ldpRead q t).setAne q { s.aneOf q with
    ptrs := tabPut {} (s.aneOf q).ptrs n
      (ptrWords (tabGet 0 s.spad (spadKey q (8 * t))) (tabGet 0 s.spad (spadKey q (8 * t + 4)))) }

theorem ldpLoaded_spad (s : State) (q t n : Nat) : (s.ldpLoaded q t n).spad = s.spad := s.ldpRead_spad q t

theorem ldpLoaded_ptr (s : State) (q t n : Nat) :
    tabGet {} ((s.ldpLoaded q t n).aneOf q).ptrs n =
      ptrWords (tabGet 0 s.spad (spadKey q (8 * t))) (tabGet 0 s.spad (spadKey q (8 * t + 4))) := by
  rw [ldpLoaded, aneOf_setAne, tabGet_put_same]

theorem aneLdp_wide {n : Nat} (h : 18 < fget (tabGet 0 s.spad (spadKey q (8 * t))) 24 20) :
    s.aneLdp q t n = (s.ldpRead q t, false) := if_pos h

theorem aneLdp_loads {n : Nat} (h : fget (tabGet 0 s.spad (spadKey q (8 * t))) 24 20 ≤ 18) :
    s.aneLdp q t n = (s.ldpLoaded q t n, true) := by
  have hy : ((s.spadRead q (8 * t)).1.spadRead q (8 * t + 4)).2.1 = tabGet 0 s.spad (spadKey q (8 * t + 4)) := by simp
  refine (if_neg (Nat.not_lt.2 h)).trans ?_
  rw [ldpLoaded, ← ldpRead_aneOf s q t, ← hy]
  rfl

/-- LDP goes on, or ends the job. -/
def ldpGoesOn (s : State) (q pc t n : Nat) : State :=
  if (s.aneLdp q t n).2 then (s.aneLdp q t n).1.aneNext q pc else (s.aneLdp q t n).1.aneEnd q 1

theorem ldpGoesOn_wide {n : Nat} {u : State} (h : s.aneLdp q t n = (u, false)) :
    s.ldpGoesOn q pc t n = u.aneEnd q 1 := by
  rw [ldpGoesOn, h]
  rfl

theorem ldpGoesOn_loads {n : Nat} {u : State} (h : s.aneLdp q t n = (u, true)) :
    s.ldpGoesOn q pc t n = u.aneNext q pc := by
  rw [ldpGoesOn, h]
  rfl

/-! ## Transfers and the end (R278 to R280) -/

/-- XFER starts a transfer with WHEN 3. -/
def aneXfer (s : State) (q x : Nat) : State :=
  match (s.aneOf q).job with
  | some (w, _) => if x < 3 ∧ xferWhen w x = 3 then s.setAne q { s.aneOf q with xfers := (s.aneOf q).xfers ++ [x] } else s
  | none => s

variable {j : List W32} {slot : Option Nat}

theorem aneXfer_starts {x : Nat} (hjob : (s.aneOf q).job = some (j, slot)) (hx : x < 3 ∧ xferWhen j x = 3) :
    s.aneXfer q x = s.setAne q { s.aneOf q with xfers := (s.aneOf q).xfers ++ [x] } := by
  rw [aneXfer, hjob]
  exact if_pos hx

theorem aneXfer_none {x : Nat} (hjob : (s.aneOf q).job = some (j, slot)) (hx : x = 3 ∨ xferWhen j x ≠ 3) :
    s.aneXfer q x = s := by
  rw [aneXfer, hjob]
  exact if_neg (by omega)

theorem aneDone_ends (hjob : (s.aneOf q).job = some (j, slot)) (h : (s.aneOf q).xfers = [] ∧ xfersAt j 2 = []) :
    s.aneDone q = s.aneEnd q 0 := by
  rw [aneDone, hjob]
  exact if_pos (by simp [h])

theorem aneDone_transfers (hjob : (s.aneOf q).job = some (j, slot))
    (h : ¬ ((s.aneOf q).xfers = [] ∧ xfersAt j 2 = [])) :
    s.aneDone q =
      (s.setAne q { s.aneOf q with xfers := (s.aneOf q).xfers ++ xfersAt j 2 }).setAneState q 3 := by
  rw [aneDone, hjob]
  exact if_neg (by simpa using h)

/-! ## Fetch and blocks (R264, R268) -/

theorem aneFetch_vendor (s : State) (q : Nat) {n : Nat} (hlo : 64 ≤ n) (hhi : n < 8192) :
    s.aneFetch q n true = s.aneEnd q 2 := by
  have hn : n % 16384 = n := Nat.mod_eq_of_lt (by omega)
  simp [aneFetch, hn, hlo, hhi]

end

end State

end Sys2Proof.Machine

namespace Sys2Proof

open Sys2Proof.Machine Sys2Proof.Machine.State

section

variable {c : Instr} {s t : State} {q : Quad} {opc : Nat}

/-- A sequencer operation in its turn. -/
theorem does_aneSeq {f : State → Nat → Nat → Nat → State} (hc : exec c s = done (s.aneSeq q.val opc f))
    (h : s.SeqTurn q.val opc)
    (e : f (s.wordEnd q.val) (s.get (anePg q.val) F.ANE_PC_PC) (fget (s.ucur q.val 0) 17 4)
      (fget (s.ucur q.val 0) 29 18) = t) : Does c s t := Does.of hc ((aneSeq_turn h).trans e)

/-- A sequencer operation out of its turn. -/
theorem does_aneSeq_none {f : State → Nat → Nat → Nat → State} (hc : exec c s = done (s.aneSeq q.val opc f))
    (h : ¬ s.SeqTurn q.val opc) : Does c s s := Does.of hc (aneSeq_none h)

theorem exec_aneBlock (q : Quad) (s : State) : exec (.aneBlock q) s = done (s.aneSeq q.val 2 fun u pc t arg =>
    u.aneBlock q.val pc t arg (fget (s.ucur q.val 0) 31 30)) := rfl

theorem exec_aneCall (q : Quad) (s : State) : exec (.aneCall q) s = done (s.aneSeq q.val 4 fun u pc t _ =>
    if 4 ≤ ((u.aneOf q.val).stack.filter isCall).length then u.aneEnd q.val 1
    else u.aneGo q.val t (.call (pc + 1) :: (u.aneOf q.val).stack)) := rfl

theorem exec_aneBranch (q : Quad) (s : State) :
    exec (.aneBranch q) s = done (s.aneSeq q.val 3 fun u pc t arg => u.aneBranch q.val pc t (arg % 16)) := rfl

theorem exec_aneLdp (q : Quad) (s : State) :
    exec (.aneLdp q) s = done (s.aneSeq q.val 7 fun u pc t arg => u.ldpGoesOn q.val pc t (arg % 8)) := rfl

theorem exec_aneXfer (q : Quad) (s : State) : exec (.aneXfer q) s =
    done (s.aneSeq q.val 8 fun u pc _ arg => (u.aneXfer q.val (arg % 4)).aneNext q.val pc) := rfl

/-- WAIT, while the transfer that it names is in progress. -/
theorem exec_aneWait_busy (h : fget (s.ucur q.val 0) 29 18 % 4 ∈ (s.aneOf q.val).xfers) :
    exec (.aneWait q) s = done (if s.seqTurn q.val 9 then s.aneStall q.val 1 else s) :=
  congrArg done (if_pos (List.contains_iff_mem.2 h))

/-- WAIT, once no transfer that it names is in progress. -/
theorem exec_aneWait_free (h : ¬ fget (s.ucur q.val 0) 29 18 % 4 ∈ (s.aneOf q.val).xfers) :
    exec (.aneWait q) s = done (s.aneSeq q.val 9 fun u pc _ _ => u.aneNext q.val pc) :=
  congrArg done (if_neg (mt List.contains_iff_mem.1 h))

theorem does_aneWait_none (h : ¬ s.SeqTurn q.val 9) : Does (.aneWait q) s s := by
  by_cases hbusy : fget (s.ucur q.val 0) 29 18 % 4 ∈ (s.aneOf q.val).xfers
  · exact Does.of (exec_aneWait_busy hbusy) (if_neg (mt (seqTurn_iff _ _ _).1 h))
  · exact does_aneSeq_none (exec_aneWait_free hbusy) h

end

/-- Settles O57: each sequencer operation in its turn, the commands out of their turn, and what the end of a word shows. -/
theorem microcodeOperationsGoOn : Obligations.MicrocodeOperationsGoOn := by
  unfold Obligations.MicrocodeOperationsGoOn
  refine ⟨?operations, fun s q n => aneFetch_vendor s q.val, ?blocks⟩
  case operations =>
    intro s q d w turn e g pc target arg jumpTo calls blocks count nested kDown holds busy
    refine ⟨?next, ?jump, ?blockRefused, ?block, ?counts, ?counted, ?flags, ?noFlags, ?call, ?callDeep, ?ret, ?retNone,
      ?bexp, ?ldp, ?xfer, ?waitFree, ?waitBusy, ?done, ?setk, ?others, wordEnd_shows s q.val⟩
    case next => exact fun h => does_aneSeq rfl h rfl
    case jump => exact fun h => does_aneSeq rfl h rfl
    case blockRefused => exact fun h hbad => does_aneSeq (exec_aneBlock q s) h (aneBlock_refused (s := e) hbad)
    case block => exact fun h hopen ht hnest => does_aneSeq (exec_aneBlock q s) h (aneBlock_opens (s := e) hopen ht hnest)
    case counts => exact fun h hc hk => does_aneSeq (exec_aneBranch q s) h (aneBranch_counts (s := e) hc hk)
    case counted => exact fun h hc hk => does_aneSeq (exec_aneBranch q s) h (aneBranch_counted (s := e) hc hk)
    case flags => exact fun h hflags => does_aneSeq (exec_aneBranch q s) h (aneBranch_flags (s := e) hflags)
    case noFlags => exact fun h hc hno => does_aneSeq (exec_aneBranch q s) h (aneBranch_noFlags (s := e) hc hno)
    case call => exact fun h hcalls => does_aneSeq (exec_aneCall q s) h (if_neg (Nat.not_le.2 hcalls))
    case callDeep => exact fun h hcalls => does_aneSeq (exec_aneCall q s) h (if_pos hcalls)
    case ret => exact fun h r st hst => does_aneSeq rfl h (aneRet_call (s := e) hst)
    case retNone => exact fun h hst => does_aneSeq rfl h (aneRet_none (s := e) hst)
    case bexp =>
      intro h
      obtain ⟨hmax, hsh⟩ := aneBexp_shows e q.val d.bmax d.wb
      refine ⟨e.aneBexp q.val d.bmax d.wb, does_aneSeq rfl h rfl, hmax, ?_⟩
      rw [hsh, wordEnd_bits, Nat.mod_mod]
    case ldp =>
      intro h x y
      by_cases hw : 18 < fget x 24 20
      · have hread : e.aneLdp q.val target (arg % 8) = (e.ldpRead q.val target, false) := aneLdp_wide hw
        refine ⟨e.ldpRead q.val target, fun _ => ⟨does_aneSeq (exec_aneLdp q s) h ?_, ?_⟩,
          fun hle => absurd hw (Nat.not_lt.2 hle), ldpRead_spad _ _ _⟩
        · exact ldpGoesOn_wide hread
        · rw [ldpRead_aneOf]
      · have hload : e.aneLdp q.val target (arg % 8) = (e.ldpLoaded q.val target (arg % 8), true) :=
          aneLdp_loads (Nat.le_of_not_lt hw)
        exact ⟨e.ldpLoaded q.val target (arg % 8), fun hlt => absurd hlt hw,
          fun _ => ⟨does_aneSeq (exec_aneLdp q s) h (ldpGoesOn_loads hload), ldpLoaded_ptr _ _ _ _⟩,
          ldpLoaded_spad _ _ _ _⟩
    case xfer =>
      intro h j slot hjob
      refine ⟨fun hx => does_aneSeq (exec_aneXfer q s) h ?_, fun hx => does_aneSeq (exec_aneXfer q s) h ?_⟩
      · exact congrArg (aneNext · q.val pc) (aneXfer_starts (s := e) hjob hx)
      · exact congrArg (aneNext · q.val pc) (aneXfer_none (s := e) hjob hx)
    case waitFree => exact fun h hfree => does_aneSeq (exec_aneWait_free hfree) h rfl
    case waitBusy => exact fun h hbusy => Does.of (exec_aneWait_busy hbusy) (if_pos ((seqTurn_iff _ _ _).2 h))
    case done =>
      exact fun h j slot hjob => ⟨fun hnone => does_aneSeq rfl h (aneDone_ends (s := e) hjob hnone),
        fun hsome => does_aneSeq rfl h (aneDone_transfers (s := e) hjob hsome)⟩
    case setk => exact fun h => does_aneSeq rfl h rfl
    case others =>
      simp only [List.forall_mem_cons, List.not_mem_nil, false_implies, implies_true, and_true]
      exact ⟨does_aneSeq_none rfl, does_aneSeq_none rfl, does_aneSeq_none rfl, does_aneSeq_none rfl,
        does_aneSeq_none rfl, does_aneSeq_none rfl, does_aneSeq_none rfl, does_aneSeq_none rfl, does_aneSeq_none rfl,
        does_aneWait_none, does_aneSeq_none rfl, does_aneSeq_none rfl⟩
  case blocks =>
    exact fun a b n pc r => ⟨by simp [blockNext], by simp [blockNext], fun h => by simp [blockNext, h]⟩

end Sys2Proof

/-!
The load and store units of the analysis engines (R263, R265, R273 to R275): a load of the word in hand and the arrival of
its data, and what a store leaves of the scratchpad.
-/
namespace Sys2Proof.Machine

open Sys2Proof

/-- A field of the state that no step of a fold changes. -/
theorem foldl_keeps {α β γ : Type} (g : β → γ) {f : β → α → β} (h : ∀ s a, g (f s a) = g s) (l : List α) (s : β) :
    g (l.foldl f s) = g s := by
  induction l generalizing s with
  | nil => rfl
  | cons a l ih => rw [List.foldl_cons, ih, h]

/-! ## Halves of a word (R273) -/

/-- The low 16 bits of a register, as a word. -/
theorem and_lowMask (x : BitVec 40) :
    BitVec.ofNat 32 (x.toNat % 2 ^ 16) &&& 0xFFFF = (x.setWidth 16).setWidth 32 := by
  refine BitVec.eq_of_toNat_eq ?_
  have h : (x.toNat % 2 ^ 16 % 2 ^ 32) &&& (2 ^ 16 - 1) = x.toNat % 2 ^ 16 % 2 ^ 32 % 2 ^ 16 :=
    Nat.and_two_pow_sub_one_eq_mod _ 16
  rw [BitVec.toNat_and, BitVec.toNat_ofNat, BitVec.toNat_setWidth, BitVec.toNat_setWidth]
  refine h.trans ?_
  omega

theorem lowHalf_replaced (w : W32) (x : BitVec 40) :
    (w &&& ~~~(BitVec.ofNat 32 (0xFFFF <<< 0))) |||
        (BitVec.ofNat 32 ((x.toNat % 2 ^ 16) <<< 0) &&& BitVec.ofNat 32 (0xFFFF <<< 0)) =
      (w &&& 0xFFFF0000) ||| (x.setWidth 16).setWidth 32 := congrArg _ (and_lowMask x)

theorem highHalf_replaced (w : W32) (x : BitVec 40) :
    (w &&& ~~~(BitVec.ofNat 32 (0xFFFF <<< 16))) |||
        (BitVec.ofNat 32 ((x.toNat % 2 ^ 16) <<< 16) &&& BitVec.ofNat 32 (0xFFFF <<< 16)) =
      (w &&& 0xFFFF) ||| ((x.setWidth 16).setWidth 32 <<< 16) := by
  have hshift : BitVec.ofNat 32 ((x.toNat % 2 ^ 16) <<< 16) = BitVec.ofNat 32 (x.toNat % 2 ^ 16) <<< 16 := by
    refine BitVec.eq_of_toNat_eq ?_
    simp [Nat.shiftLeft_eq]
  have hmask : BitVec.ofNat 32 (0xFFFF <<< 16) = (0xFFFF : W32) <<< 16 := by decide
  rw [hshift, hmask, ← BitVec.shiftLeft_and_distrib, and_lowMask]
  rfl

namespace State

/-! ## The scratchpad: reads and writes (R274, R275) -/

section

variable {s t : State} (h : RisesOnly s t)
include h

theorem RisesOnly.bump (p : Nat) (f : Fld) (n : Nat) : RisesOnly s (t.bump p f n) := h.set _ _ _

/-- A read of the scratchpad counts errors only. -/
theorem RisesOnly.spadRead (q a : Nat) : RisesOnly s (t.spadRead q a).1 := by
  unfold State.spadRead
  dsimp only
  split_ifs
  · exact (h.bump _ _ _).rise _ _
  · exact (h.bump _ _ _).rise _ _
  · exact h

theorem RisesOnly.spad : t.spad = s.spad := by obtain ⟨_, _, rfl⟩ := h; rfl
theorem RisesOnly.spadBad (k : Nat) : t.spadBad k = s.spadBad k := by obtain ⟨_, _, rfl⟩ := h; rfl

end

theorem RisesOnly.refl (s : State) : RisesOnly s s := ⟨_, _, rfl⟩

/-- What a read of the scratchpad gives. -/
theorem spadRead_gives (s : State) (q a : Nat) :
    (s.spadRead q a).2 = (tabGet 0 s.spad (spadKey q a), s.spadBad (spadKey q a)) := rfl

/-! ## Loads (R263, R275) -/

/-- One lane's read of a load: the state after it, and the values so far. -/
def laneRead (q : Nat) (value : W32 → Nat → Int) (a : State × List (BitVec 40 × Bool)) (x : Nat) :
    State × List (BitVec 40 × Bool) :=
  ((a.1.spadRead q x).1,
    a.2 ++ [(BitVec.ofInt 40 (value (a.1.spadRead q x).2.1 x), (a.1.spadRead q x).2.2)])

/-- What a load gives for the word at an address. -/
def loadValue (s : State) (q : Nat) (value : W32 → Nat → Int) (x : Nat) : BitVec 40 × Bool :=
  (BitVec.ofInt 40 (value (tabGet 0 s.spad (spadKey q x)) x), s.spadBad (spadKey q x))

theorem laneReads_give {s : State} (q : Nat) (value : W32 → Nat → Int) (xs : List Nat)
    (a : State × List (BitVec 40 × Bool)) (h : RisesOnly s a.1) :
    RisesOnly s (xs.foldl (laneRead q value) a).1 ∧
      (xs.foldl (laneRead q value) a).2 = a.2 ++ xs.map (s.loadValue q value) := by
  induction xs generalizing a with
  | nil => exact ⟨h, by simp⟩
  | cons x xs ih =>
    obtain ⟨hs, hv⟩ := ih (laneRead q value a x) (h.spadRead q x)
    refine ⟨hs, hv.trans ?_⟩
    simp only [laneRead, spadRead_gives, h.spad, h.spadBad, List.append_assoc, List.map_cons, List.singleton_append,
      loadValue]

/-- The word in hand has the load `lop`, not yet carried out. -/
abbrev LoadTurn (s : State) (q lop : Nat) : Prop :=
  s.aneState q = 2 ∧ fget (s.ucur q 1) 2 0 = lop ∧ (s.aneOf q).parts.testBit 0 = false

theorem loadTurn_iff (s : State) (q lop : Nat) :
    (s.aneState q == 2 && fget (s.ucur q 1) 2 0 == lop && !(s.aneOf q).parts.testBit 0) = true ↔ s.LoadTurn q lop := by
  simp only [LoadTurn, Bool.and_eq_true, beq_iff_eq, Bool.not_eq_true', and_assoc]

/-- The addresses of a load's lanes. -/
def loadAddrs (s : State) (q : Nat) (one : Bool) (align : Nat) : List Nat :=
  (List.range 16).map fun l =>
    laneAddr (ptrOf (s.aneOf q) (fget (s.ucur q 1) 5 3)) ((s.ucur q 1).getLsbD 10) (if one then 0 else l) / align * align

/-- The reads of a load's lanes. -/
def loadReads (s : State) (q : Nat) (one : Bool) (align : Nat) (value : W32 → Nat → Int) :
    State × List (BitVec 40 × Bool) := (s.loadAddrs q one align).foldl (laneRead q value) (s, [])

/-- The load is carried out, and its data are on their way. -/
def loadCarried (s : State) (q : Nat) (one : Bool) (align : Nat) (value : W32 → Nat → Int) (wait : Nat) : State :=
  let n := accessCycles (s.loadAddrs q one align) - 1 + wait
  (((s.loadReads q one align value).1.bump (anePg q) F.ANE_SPAD_CONFLICT_COUNT wait).bump (anePg q)
    F.ANE_JOB_CYC_CYC n).setAne q { s.aneOf q with
      stall := (s.aneOf q).stall + n
      parts := setBit (s.aneOf q).parts 0
      winc := (s.aneOf q).winc ++ [fget (s.ucur q 1) 5 3]
      loads := (s.aneOf q).loads ++ [{ dst := fget (s.ucur q 1) 9 6, vals := (s.loadReads q one align value).2 }] }

section

variable {s : State} {q lop align wait : Nat} {one : Bool} {value : W32 → Nat → Int}

theorem aneLoad_turn (h : s.LoadTurn q lop) :
    s.aneLoad q lop one align value wait = s.loadCarried q one align value wait := by
  have hturn := (loadTurn_iff s q lop).2 h
  unfold aneLoad loadCarried loadReads loadAddrs
  generalize List.range 16 = lanes
  exact if_pos hturn

theorem aneLoad_none (h : ¬ s.LoadTurn q lop) : s.aneLoad q lop one align value wait = s := by
  have hturn := mt (loadTurn_iff s q lop).1 h
  unfold aneLoad
  exact if_neg hturn

theorem loadCarried_shows :
    let t := s.loadCarried q one align value wait
    t.spad = s.spad ∧ t.hbm = s.hbm ∧ (t.aneOf q).parts = setBit (s.aneOf q).parts 0 ∧
      (t.aneOf q).winc = (s.aneOf q).winc ++ [fget (s.ucur q 1) 5 3] ∧ (t.aneOf q).v = (s.aneOf q).v ∧
      (t.aneOf q).loads = (s.aneOf q).loads ++
        [⟨fget (s.ucur q 1) 9 6, (s.loadAddrs q one align).map (s.loadValue q value), 0⟩] := by
  unfold loadCarried loadReads
  generalize s.loadAddrs q one align = xs
  obtain ⟨hs, hv⟩ := laneReads_give q value xs (s, []) (.refl s)
  dsimp only
  rw [aneOf_setAne]
  refine ⟨hs.spad, hs.hbm, rfl, rfl, rfl, ?_⟩
  rw [hv, List.nil_append]

end

/-! ## The arrival of a load's data (R263, R275) -/

section

variable {s : State} {q n : Nat} {x : LaneLoad} {r : List LaneLoad}

theorem aneArrive_none (h : (s.aneOf q).loads = []) : s.aneArrive q n = s := by simp only [aneArrive, h]

theorem aneArrive_ownWord (h : (s.aneOf q).loads = x :: r) (hage : x.age = 0) : s.aneArrive q n = s := by
  simp only [aneArrive, h, if_pos hage]

theorem aneArrive_later (h : (s.aneOf q).loads = x :: r) (hage : x.age ≠ 0) :
    s.aneArrive q n = (s.setAne q { s.aneOf q with
      loads := r
      v := (x.vals.zipIdx).foldl (fun m y => tabPut 0 m (16 * y.2 + x.dst) y.1.1) (s.aneOf q).v
      stall := (s.aneOf q).stall + n
      psn := (x.vals.zipIdx).foldl (fun m y => if y.1.2 then setBit m y.2 else m) (s.aneOf q).psn }).bump
        (anePg q) F.ANE_JOB_CYC_CYC n := by
  unfold aneArrive
  dsimp only
  rw [h]
  exact if_neg hage

end

/-! ## Stores (R273, R274) -/

/-- The word in hand has the store `wop`, not yet carried out, its load is carried out, and no load of an earlier word is
pending to its source. -/
abbrev StoreTurn (s : State) (q wop : Nat) : Prop :=
  s.aneState q = 2 ∧ fget (s.ucur q 2) 2 0 = wop ∧ (s.aneOf q).parts.testBit 1 = false ∧
    (fget (s.ucur q 1) 2 0 = 0 ∨ (s.aneOf q).parts.testBit 0 = true) ∧
    ∀ x ∈ (s.aneOf q).loads, x.age ≠ 0 → x.dst ≠ fget (s.ucur q 2) 9 6

theorem storeTurn_iff (s : State) (q wop : Nat) :
    (s.aneState q == 2 && fget (s.ucur q 2) 2 0 == wop && !(s.aneOf q).parts.testBit 1 &&
      (fget (s.ucur q 1) 2 0 == 0 || (s.aneOf q).parts.testBit 0) &&
      !loadPending (s.aneOf q) (fget (s.ucur q 2) 9 6)) = true ↔ s.StoreTurn q wop := by
  rw [StoreTurn, ← not_loadPending_iff]
  simp only [Bool.and_eq_true, Bool.or_eq_true, beq_iff_eq, Bool.not_eq_true', and_assoc]

/-- The address that a lane's store forms. -/
def storeAddr (s : State) (q l : Nat) : Nat :=
  laneAddr (ptrOf (s.aneOf q) (fget (s.ucur q 2) 5 3)) ((s.ucur q 2).getLsbD 10) l

/-- The register that a lane stores. -/
def storeReg (s : State) (q l : Nat) : BitVec 40 := vreg (s.aneOf q) l (fget (s.ucur q 2) 9 6)

/-- What the executing lanes store. -/
def stored (s : State) (q : Nat) : List (Nat × BitVec 40 × Bool) :=
  (s.lanesOn q).map fun l => (s.storeAddr q l, s.storeReg q l, (s.aneOf q).psn.testBit l)

theorem aneStore_turn {s : State} {q wop wait : Nat} {put : State → List (Nat × BitVec 40 × Bool) → State}
    (h : s.StoreTurn q wop) :
    ∃ t, s.aneStore q wop put wait = t ∧ t.spad = (put s (s.stored q)).spad ∧ t.hbm = (put s (s.stored q)).hbm ∧
      (t.aneOf q).parts = setBit (s.aneOf q).parts 1 ∧
      (t.aneOf q).winc = (s.aneOf q).winc ++ [fget (s.ucur q 2) 5 3] ∧ (t.aneOf q).v = (s.aneOf q).v := by
  refine ⟨_, if_pos ((storeTurn_iff s q wop).2 h), rfl, rfl, ?_⟩
  rw [aneOf_setAne]
  exact ⟨rfl, rfl, rfl⟩

theorem aneStore_none {s : State} {q wop wait : Nat} {put : State → List (Nat × BitVec 40 × Bool) → State}
    (h : ¬ s.StoreTurn q wop) : s.aneStore q wop put wait = s := if_neg (mt (storeTurn_iff s q wop).1 h)

/-! ## What a store leaves of the scratchpad (R273, R274) -/

section

variable (q : Nat) (s : State)

theorem putHalves_hbm (xs : List (Nat × BitVec 40 × Bool)) : (putHalves q s xs).hbm = s.hbm := by
  unfold putHalves
  refine foldl_keeps State.hbm ?_ _ _
  exact fun _ _ => rfl

theorem putWords_hbm (xs : List (Nat × BitVec 40 × Bool)) : (putWords q s xs).hbm = s.hbm := by
  unfold putWords
  refine foldl_keeps State.hbm ?_ _ _
  exact fun _ _ => rfl

theorem putSums_hbm (xs : List (Nat × BitVec 40 × Bool)) : (putSums q s xs).hbm = s.hbm := by
  unfold putSums
  refine foldl_keeps State.hbm ?_ _ _
  exact fun u w => ((RisesOnly.refl u).spadRead q (4 * w)).hbm

/-- The word at an address with the half that the address selects replaced. -/
def halfPut (a : Nat) (x : BitVec 40) (w : W32) : W32 :=
  if a % 4 < 2 then (w &&& 0xFFFF0000) ||| (x.setWidth 16).setWidth 32
  else (w &&& 0xFFFF) ||| ((x.setWidth 16).setWidth 32 <<< 16)

/-- One lane's store of a half. -/
theorem spadPart_half (a : Nat) (x : BitVec 40) (bad : Bool) :
    (s.spadPart q a (BitVec.ofNat 32 (0xFFFF <<< (if a % 4 < 2 then 0 else 16)))
      (BitVec.ofNat 32 ((x.toNat % 2 ^ 16) <<< (if a % 4 < 2 then 0 else 16))) bad).spad =
      tabPut 0 s.spad (spadKey q a) (halfPut a x (tabGet 0 s.spad (spadKey q a))) := by
  simp only [spadPart, spadPut, halfPut]
  split
  · rw [lowHalf_replaced]
  · rw [highHalf_replaced]

variable (lanes : List Nat) (addr : Nat → Nat) (reg : Nat → BitVec 40) (psn : Nat → Bool)

theorem putHalves_spad :
    (putHalves q s (lanes.map fun l => (addr l, reg l, psn l))).spad =
      lanes.foldl (fun m l => tabPut 0 m (spadKey q (addr l))
        (halfPut (addr l) (reg l) (tabGet 0 m (spadKey q (addr l))))) s.spad := by
  rw [putHalves, List.foldl_map]
  exact (List.foldl_hom State.spad fun u l => (spadPart_half q u (addr l) (reg l) (psn l)).symm).symm

theorem putWords_spad :
    (putWords q s (lanes.map fun l => (addr l, reg l, psn l))).spad =
      lanes.foldl (fun m l => tabPut 0 m (spadKey q (addr l)) ((reg l).setWidth 32)) s.spad := by
  rw [putWords, List.foldl_map]
  exact (List.foldl_hom State.spad fun _ _ => rfl).symm

/-- The sum of the registers of the lanes that add to a word. -/
def laneSum (w : Nat) : W32 := (lanes.filter fun l => addr l / 4 == w).foldl (fun y l => y + (reg l).setWidth 32) 0

theorem putSums_spad :
    (putSums q s (lanes.map fun l => (addr l, reg l, psn l))).spad =
      ((lanes.map fun l => addr l / 4).eraseDups).foldl (fun m w => tabPut 0 m (spadKey q (4 * w))
        (tabGet 0 m (spadKey q (4 * w)) + laneSum lanes addr reg w)) s.spad := by
  rw [putSums, List.map_map]
  refine (List.foldl_hom State.spad fun u w => ?_).symm
  simp only [spadPut, spadRead_spad, spadRead_word, laneSum, List.filter_map, List.foldl_map, Function.comp_def]

end

end State

end Sys2Proof.Machine

namespace Sys2Proof

open Sys2Proof.Machine Sys2Proof.Machine.State

section

variable {c : Instr} {s : State} {q : Nat}

/-- A store in its turn and out of it. -/
theorem does_aneStore {wop wait : Nat} {put : State → List (Nat × BitVec 40 × Bool) → State} {m : Tab W32}
    (hc : exec c s = done (s.aneStore q wop put wait)) (hspad : (put s (s.stored q)).spad = m)
    (hhbm : (put s (s.stored q)).hbm = s.hbm) :
    (s.StoreTurn q wop → ∃ t : State, Does c s t ∧ t.spad = m ∧ t.hbm = s.hbm ∧
      (t.aneOf q).parts = setBit (s.aneOf q).parts 1 ∧
      (t.aneOf q).winc = (s.aneOf q).winc ++ [fget (s.ucur q 2) 5 3] ∧ (t.aneOf q).v = (s.aneOf q).v) ∧
    (¬ s.StoreTurn q wop → Does c s s) := by
  refine ⟨fun h => ?_, fun h => Does.of hc (aneStore_none h)⟩
  obtain ⟨t, ht, hts, hth, hlane⟩ := aneStore_turn h
  exact ⟨t, Does.of hc ht, hts.trans hspad, hth.trans hhbm, hlane⟩

end

/-- Settles O58: the loads by their kind, the arrival of a load's data, and the stores by their kind. -/
theorem laneLoadsAndStores : Obligations.LaneLoadsAndStores := by
  unfold Obligations.LaneLoadsAndStores
  refine ⟨?loads, ?arrival, ?stores⟩
  case loads =>
    intro s q n d w turn half rows r hr at_
    have hrows : ∀ r ∈ rows, exec r.1 s = done (s.aneLoad q.val r.2.1 r.2.2.1 r.2.2.2.1 r.2.2.2.2 n) := by
      simp only [rows, List.forall_mem_cons, List.not_mem_nil, false_implies, implies_true, and_true]
      exact ⟨rfl, rfl, rfl, rfl⟩
    exact ⟨fun h => ⟨_, Does.of (hrows r hr) (aneLoad_turn h), loadCarried_shows⟩,
      fun h => Does.of (hrows r hr) (aneLoad_none h)⟩
  case arrival =>
    exact fun s q n => ⟨fun h => Does.of rfl (aneArrive_none h),
      fun x r h hage => Does.of rfl (aneArrive_ownWord h hage), fun x r h hage => Does.of rfl (aneArrive_later h hage)⟩
  case stores =>
    intro s q n d w turn lanes at_ reg put halves sums rows
    simp only [rows, List.forall_mem_cons, List.not_mem_nil, false_implies, implies_true, and_true]
    exact ⟨does_aneStore rfl (putHalves_spad _ _ _ _ _ _) (putHalves_hbm _ _ _),
      does_aneStore rfl (putWords_spad _ _ _ _ _ _) (putWords_hbm _ _ _),
      does_aneStore rfl (putSums_spad _ _ _ _ _ _) (putSums_hbm _ _ _)⟩

end Sys2Proof

/-!
The scratchpad from outside (R272, R274, R342, R343, R450): atomics, writes and reads of the host through BAR4, and the
atomics of the last cores.
-/
namespace Sys2Proof.Machine

open Sys2Proof

/-! ## A byte of a word (R450) -/

theorem getLsbD_byteMask (c j : Nat) :
    (BitVec.ofNat 32 (0xFF <<< (8 * c))).getLsbD j = (decide (j < 32) && (decide (8 * c ≤ j) && decide (j - 8 * c < 8))) := by
  rw [BitVec.getLsbD_ofNat, Nat.testBit_shiftLeft, show (0xFF : Nat) = 2 ^ 8 - 1 from rfl, Nat.testBit_two_pow_sub_one]

theorem getLsbD_byteAt (v : Byte) (c j : Nat) :
    (BitVec.ofNat 32 (v.toNat <<< (8 * c))).getLsbD j =
      (decide (j < 32) && (decide (8 * c ≤ j) && v.getLsbD (j - 8 * c))) := by
  rw [BitVec.getLsbD_ofNat, Nat.testBit_shiftLeft, BitVec.testBit_toNat]

/-- Byte `c` of a word replaced. -/
def bytePut (w : W32) (c : Nat) (v : Byte) : W32 :=
  (w &&& ~~~(BitVec.ofNat 32 (0xFF <<< (8 * c)))) |||
    (BitVec.ofNat 32 (v.toNat <<< (8 * c)) &&& BitVec.ofNat 32 (0xFF <<< (8 * c)))

theorem bytePut_same (w : W32) {c : Nat} (v : Byte) (hc : c < 4) : (bytePut w c v).extractLsb' (8 * c) 8 = v := by
  refine BitVec.eq_of_getLsbD_eq fun i hi => ?_
  have hj : 8 * c + i < 32 := by omega
  simp only [bytePut, BitVec.getLsbD_extractLsb', BitVec.getLsbD_or, BitVec.getLsbD_and, BitVec.getLsbD_not,
    getLsbD_byteMask, getLsbD_byteAt, hi, hj, Nat.le_add_right, Nat.add_sub_cancel_left, decide_true, Bool.true_and,
    Bool.not_true, Bool.and_false, Bool.and_true, Bool.false_or]

theorem bytePut_other (w : W32) {b c : Nat} (v : Byte) (hb : b < 4) (h : b ≠ c) :
    (bytePut w c v).extractLsb' (8 * b) 8 = w.extractLsb' (8 * b) 8 := by
  refine BitVec.eq_of_getLsbD_eq fun i hi => ?_
  have hj : 8 * b + i < 32 := by omega
  have hout : (decide (8 * c ≤ 8 * b + i) && decide (8 * b + i - 8 * c < 8)) = false := by
    rw [Bool.and_eq_false_iff]
    simp only [decide_eq_false_iff_not]
    omega
  simp only [bytePut, BitVec.getLsbD_extractLsb', BitVec.getLsbD_or, BitVec.getLsbD_and, BitVec.getLsbD_not,
    getLsbD_byteMask, hout, hj, decide_true, Bool.and_false, Bool.not_false, Bool.and_true, Bool.or_false]

namespace State

/-! ## What an access of one scratchpad word leaves (R274) -/

/-- The output and HBM stay, and every scratchpad word but one. -/
def OneWord (k : Nat) (s t : State) : Prop :=
  t.out = s.out ∧ t.hbm = s.hbm ∧ ∀ k', k' ≠ k → tabGet 0 t.spad k' = tabGet 0 s.spad k'

theorem RisesOnly.out {s t : State} (h : RisesOnly s t) : t.out = s.out := by obtain ⟨_, _, rfl⟩ := h; rfl

theorem RisesOnly.oneWord {s t : State} (h : RisesOnly s t) (k : Nat) : OneWord k s t :=
  ⟨h.out, h.hbm, fun _ _ => by rw [h.spad]⟩

section

variable {q a : Nat} {s t : State} (h : OneWord (spadKey q a) s t)
include h

theorem OneWord.spadPut (v : W32) (bad : Bool) : OneWord (spadKey q a) s (t.spadPut q a v bad) := by
  obtain ⟨hout, hhbm, hspad⟩ := h
  exact ⟨hout, hhbm, fun k hk => (tabGet_put_other _ _ _ _ _ _ hk.symm).trans (hspad k hk)⟩

theorem OneWord.spadRead : OneWord (spadKey q a) s (t.spadRead q a).1 := by
  obtain ⟨hout, hhbm, hspad⟩ := h
  have hr := (RisesOnly.refl t).spadRead q a
  exact ⟨hr.out.trans hout, hr.hbm.trans hhbm, fun k hk => by rw [hr.spad, hspad k hk]⟩

theorem OneWord.spadAtomic (swap : Bool) (v : W32) : OneWord (spadKey q a) s (t.spadAtomic q a swap v).1 :=
  h.spadRead.spadPut _ _

end

@[simp] theorem spadPut_word (s : State) (q a : Nat) (v : W32) (bad : Bool) :
    tabGet 0 (s.spadPut q a v bad).spad (spadKey q a) = v := tabGet_put_same _ _ _ _

@[simp] theorem spadPut_flag (s : State) (q a : Nat) (v : W32) (bad : Bool) (p : Nat) (f : Fld) :
    (s.spadPut q a v bad).flag p f = s.flag p f := rfl

@[simp] theorem spadAtomic_flag (s : State) (q a : Nat) (swap : Bool) (v : W32) (p : Nat) (f : Fld) :
    (s.spadAtomic q a swap v).1.flag p f = (s.spadRead q a).1.flag p f := spadPut_flag _ _ _ _ _ _ _

theorem mem_spadPut_poison (s : State) (q a : Nat) (v : W32) : spadKey q a ∈ (s.spadPut q a v true).spadPoison :=
  List.mem_append_right _ List.mem_cons_self

theorem spadAtomic_old (s : State) (q a : Nat) (swap : Bool) (v : W32) :
    (s.spadAtomic q a swap v).2 = (tabGet 0 s.spad (spadKey q a), s.spadBad (spadKey q a)) := rfl

@[simp] theorem spadAtomic_word (s : State) (q a : Nat) (swap : Bool) (v : W32) :
    tabGet 0 (s.spadAtomic q a swap v).1.spad (spadKey q a) =
      if swap then v else tabGet 0 s.spad (spadKey q a) + v := spadPut_word _ _ _ _ _

/-- A read of the scratchpad changes the page's counters and PG_FLT only. -/
theorem get_spadRead (s : State) (q a p : Nat) {f : Fld} (hlt : f.ofs < 4096) (hcnt : 0x11C ≠ f.ofs)
    (hflt : 0x010 ≠ f.ofs) : (s.spadRead q a).1.get p f = s.get p f := by
  have hbump : ∀ (g : Fld) (n : Nat), g.ofs = 0x11C → (s.bump (anePg q) g n).rd p f.ofs = s.rd p f.ofs :=
    fun g n hg => rd_set_other _ _ _ _ _ _ (rkey_offset (by omega) hlt (by omega))
  have hrise : ∀ (u : State) (b : Nat), (u.rise (anePg q) b).rd p f.ofs = u.rd p f.ofs :=
    fun u b => rd_rise_other _ _ _ (rkey_offset (by decide) hlt hflt)
  unfold spadRead
  dsimp only
  split_ifs
  · rw [get, hrise, hbump _ _ rfl, get]
  · rw [get, hrise, hbump _ _ rfl, get]
  · rfl

/-! ## Waiting for a bank (R272) -/

theorem bar4Wait_scratchpad (s : State) {a : Nat} (n : Nat) (h : a % 0x400000 < 0x100000) :
    s.bar4Wait a n = s.bump (anePg (a / 0x400000)) (F.ANE_SPAD_CONFLICT_COUNT.off 16) n := if_pos h

theorem bar4Wait_other (s : State) {a : Nat} (n : Nat) (h : 0x100000 ≤ a % 0x400000) : s.bar4Wait a n = s :=
  if_neg (Nat.not_lt.2 h)

/-- A wait is counted in a register and changes no engine's state. -/
theorem bar4Wait_frame (s : State) (a n : Nat) :
    RisesOnly s (s.bar4Wait a n) ∧ ∀ q, (s.bar4Wait a n).aneState q = s.aneState q := by
  by_cases h : a % 0x400000 < 0x100000
  · rw [bar4Wait_scratchpad s n h]
    exact ⟨(RisesOnly.refl s).bump _ _ _, fun q => get_set_other _ _ _ _ _ _ (rkey_offset (by decide) (by decide) (by decide))⟩
  · rw [bar4Wait_other s n (Nat.le_of_not_lt h)]
    exact ⟨.refl s, fun q => rfl⟩

/-! ## Atomics (R274, R342) -/

section

variable {s : State} {a : Nat} {swap ep : Bool} {v : W32}

theorem bar4Atomic_refused (h : a % 4 ≠ 0 ∨ 0x100000 ≤ a % 0x400000) : s.bar4Atomic a swap v ep = s.emit .ur := if_pos h

variable (h : ¬ (a % 4 ≠ 0 ∨ 0x100000 ≤ a % 0x400000))
include h

theorem bar4Atomic_marching (hm : s.aneState (a / 0x400000) = 5) :
    s.bar4Atomic a swap v ep = s.emit (.cpl [0] false) := (if_neg h).trans (if_pos hm)

end

/-- The state in which POISON_RX records a poisoned request. -/
def rxPoison (s : State) (ep : Bool) : State := if ep then s.poisonRx else s

/-- A word whose request was poisoned is left poisoned. -/
def leftPoisoned (s : State) (q a : Nat) (ep : Bool) : State :=
  if ep then s.spadPut q a (tabGet 0 s.spad (spadKey q a)) true else s

/-- The atomic is carried out. -/
def atomicDone (s : State) (q a : Nat) (swap : Bool) (v : W32) (ep : Bool) : State :=
  ((s.rxPoison ep).spadAtomic q a swap v).1.leftPoisoned q a ep

theorem risesOnly_rxPoison (s : State) (ep : Bool) : RisesOnly s (s.rxPoison ep) := by
  cases ep
  · exact .refl s
  · exact ((RisesOnly.refl s).set _ _ _).rise _ _

theorem bar4Atomic_acts {s : State} {a : Nat} (swap : Bool) (v : W32) (ep : Bool)
    (h : ¬ (a % 4 ≠ 0 ∨ 0x100000 ≤ a % 0x400000)) (hm : s.aneState (a / 0x400000) ≠ 5) :
    s.bar4Atomic a swap v ep = (s.atomicDone (a / 0x400000) (a % 0x400000) swap v ep).emit
      (.cpl [tabGet 0 s.spad (spadKey (a / 0x400000) (a % 0x400000))]
        (s.spadBad (spadKey (a / 0x400000) (a % 0x400000)))) := by
  have hacts : s.bar4Atomic a swap v ep = (s.atomicDone (a / 0x400000) (a % 0x400000) swap v ep).emit
      (.cpl [((s.rxPoison ep).spadAtomic (a / 0x400000) (a % 0x400000) swap v).2.1]
        ((s.rxPoison ep).spadAtomic (a / 0x400000) (a % 0x400000) swap v).2.2) := by
    unfold bar4Atomic bar4Ofs bar4Eng
    dsimp only
    rw [if_neg h, if_neg hm]
    rfl
  have hr := s.risesOnly_rxPoison ep
  rw [hacts, spadAtomic_old, hr.spad, hr.spadBad]

theorem atomicDone_oneWord (s : State) (q a : Nat) (swap : Bool) (v : W32) (ep : Bool) :
    OneWord (spadKey q a) s (s.atomicDone q a swap v ep) := by
  have hatomic := ((s.risesOnly_rxPoison ep).oneWord (spadKey q a)).spadAtomic swap v
  unfold atomicDone leftPoisoned
  cases ep
  · exact hatomic
  · exact hatomic.spadPut _ _

theorem atomicDone_word (s : State) (q a : Nat) (swap : Bool) (v : W32) (ep : Bool) :
    tabGet 0 (s.atomicDone q a swap v ep).spad (spadKey q a) =
      if swap then v else tabGet 0 s.spad (spadKey q a) + v := by
  rw [← (s.risesOnly_rxPoison ep).spad, ← spadAtomic_word]
  unfold atomicDone leftPoisoned
  cases ep
  · rfl
  · exact spadPut_word _ _ _ _ _

/-- A poisoned request leaves the word poisoned and is recorded. -/
theorem atomicDone_poisoned (s : State) (q a : Nat) (swap : Bool) (v : W32) :
    spadKey q a ∈ (s.atomicDone q a swap v true).spadPoison ∧
      (s.atomicDone q a swap v true).flag pciPg F.PCI_STS_POISON_RX = true := by
  refine ⟨mem_spadPut_poison _ _ _ _, ?_⟩
  have hread := get_spadRead s.poisonRx q a pciPg (f := F.PCI_STS_POISON_RX) (by decide) (by decide) (by decide)
  have hset : s.poisonRx.flag pciPg F.PCI_STS_POISON_RX = true :=
    (flag_rise_ofs _ _ _ (by decide)).trans (flag_put_same _ _ _ _ (by decide) rfl)
  unfold atomicDone leftPoisoned
  rw [if_pos rfl, spadPut_flag, spadAtomic_flag, flag]
  exact (congrArg (fun n => decide (n ≠ 0)) hread).trans hset

/-! ## Writes of bytes (R450) -/

section

variable {s : State} {q o : Nat} (ho : o < 0x100000) (hm : s.aneState q ≠ 5)
include ho hm

theorem bar4Byte_scratchpad (v : Byte) :
    s.bar4Byte (q * 0x400000 + o) (some v) false =
      s.spadPart q o (BitVec.ofNat 32 (0xFF <<< (8 * (o % 4)))) (BitVec.ofNat 32 (v.toNat <<< (8 * (o % 4)))) false := by
  have hq : bar4Eng (q * 0x400000 + o) = q := by unfold bar4Eng; omega
  have hofs : bar4Ofs (q * 0x400000 + o) = o := by unfold bar4Ofs; omega
  simp only [bar4Byte, hq, hofs, if_pos ho, if_neg hm]

theorem bar4Get_scratchpad :
    s.bar4Get (q * 0x400000 + o) = (tabGet 0 s.spad (spadKey q o)).extractLsb' (8 * (o % 4)) 8 := by
  have hq : bar4Eng (q * 0x400000 + o) = q := by unfold bar4Eng; omega
  have hofs : bar4Ofs (q * 0x400000 + o) = o := by unfold bar4Ofs; omega
  simp only [bar4Get, hq, hofs, if_pos ho, if_neg hm]

theorem bar4Byte_word (v : Byte) :
    tabGet 0 (s.bar4Byte (q * 0x400000 + o) (some v) false).spad (spadKey q o) =
      bytePut (tabGet 0 s.spad (spadKey q o)) (o % 4) v := by
  rw [bar4Byte_scratchpad ho hm]
  exact spadPut_word _ _ _ _ _

theorem bar4Byte_others (v : Byte) {k : Nat} (hk : k ≠ spadKey q o) :
    tabGet 0 (s.bar4Byte (q * 0x400000 + o) (some v) false).spad k = tabGet 0 s.spad k := by
  rw [bar4Byte_scratchpad ho hm]
  exact tabGet_put_other _ _ _ _ _ _ hk.symm

theorem bar4Byte_aneState (v : Byte) : (s.bar4Byte (q * 0x400000 + o) (some v) false).aneState q ≠ 5 := by
  rw [bar4Byte_scratchpad ho hm]
  exact hm

theorem bar4Byte_same (v : Byte) :
    (s.bar4Byte (q * 0x400000 + o) (some v) false).bar4Get (q * 0x400000 + o) = v := by
  rw [bar4Get_scratchpad ho (bar4Byte_aneState ho hm v), bar4Byte_word ho hm, bytePut_same _ _ (Nat.mod_lt _ (by decide))]

/-- The other bytes of the word. -/
theorem bar4Byte_beside (v : Byte) {b : Nat} (hb : b < 4) (h : b ≠ o % 4) :
    (s.bar4Byte (q * 0x400000 + o) (some v) false).bar4Get (q * 0x400000 + (o / 4 * 4 + b)) =
      s.bar4Get (q * 0x400000 + (o / 4 * 4 + b)) := by
  have ho' : o / 4 * 4 + b < 0x100000 := by omega
  have hkey : spadKey q (o / 4 * 4 + b) = spadKey q o := by
    unfold spadKey
    rw [show (o / 4 * 4 + b) / 4 = o / 4 by omega]
  have hbyte : (o / 4 * 4 + b) % 4 = b := by omega
  rw [bar4Get_scratchpad ho' (bar4Byte_aneState ho hm v), bar4Get_scratchpad ho' hm, hkey, hbyte,
    bar4Byte_word ho hm, bytePut_other _ _ hb h]

end

/-- A write, byte by byte. -/
def bytesPut (s : State) (a : Nat) (bs : List (Option Byte)) (ep : Bool) : State :=
  (bs.zipIdx).foldl (fun s x => s.bar4Byte (a + x.2) x.1 ep) (s.rxPoison ep)

theorem bar4Write_marching {s : State} {a : Nat} {bs : List (Option Byte)} {ep : Bool}
    (h : (s.bytesPut a bs ep).aneState (a / 0x400000) = 5) : s.bar4Write a bs ep = s.bytesPut a bs ep := if_pos h

theorem bar4Write_clears {s : State} {a : Nat} {bs : List (Option Byte)} {ep : Bool}
    (h : (s.bytesPut a bs ep).aneState (a / 0x400000) ≠ 5) :
    s.bar4Write a bs ep = (s.bytesPut a bs ep).bar4Clear a bs ep := if_neg h

/-! ## Reads (R450) -/

theorem bar4Get_wait (s : State) (a n b : Nat) : (s.bar4Wait a n).bar4Get b = s.bar4Get b := by
  obtain ⟨⟨_, _, hr⟩, hst⟩ := s.bar4Wait_frame a n
  simp only [bar4Get, hst]
  rw [hr]

/-- The words that a read gives. -/
def bar4Words (s : State) (a n : Nat) : List W32 :=
  (List.range n).map fun i => wordOf (s.bar4Get (a / 4 * 4 + 4 * i)) (s.bar4Get (a / 4 * 4 + 4 * i + 1))
    (s.bar4Get (a / 4 * 4 + 4 * i + 2)) (s.bar4Get (a / 4 * 4 + 4 * i + 3))

theorem bar4Read_gives (s : State) (a n : Nat) :
    ∃ t bad, RisesOnly s t ∧ s.bar4Read a n = t.emit (.cpl (s.bar4Words a n) bad) := by
  refine ⟨_, _, ?_, rfl⟩
  refine List.foldlRecOn (List.range n) _ (motive := RisesOnly s) (.refl s) fun u hu i _ => ?_
  split
  · exact hu.spadRead _ _
  · exact hu

end State

end Sys2Proof.Machine

namespace Sys2Proof

open Sys2Proof.Machine Sys2Proof.Machine.State

/-- An atomic of the host. -/
theorem does_bar4Atomic {c : Instr} {s t : State} {a : BitVec 24} {swap ep : Bool} {v : W32} {w : Nat}
    (hc : exec c s = done (s.onLink true fun s => (s.bar4Wait a.toNat w).bar4Atomic a.toNat swap v ep))
    (hl : s.offLink = false) (h : (s.bar4Wait a.toNat w).bar4Atomic a.toNat swap v ep = t) : Does c s t :=
  Does.of hc ((onLink_on _ _ _ hl).trans h)

/-- The atomics of the host, whether they add or swap. -/
theorem does_hostAtomic {c : Instr} {s : State} {a : BitVec 24} {swap ep : Bool} {v : W32} {w : Nat}
    (hc : exec c s = done (s.onLink true fun s => (s.bar4Wait a.toNat w).bar4Atomic a.toNat swap v ep))
    (hl : s.offLink = false) :
    let q := a.toNat / 0x400000
    let o := a.toNat % 0x400000
    let k := spadKey q o
    let old := tabGet (0 : W32) s.spad k
    let no := a.toNat % 4 ≠ 0 ∨ 0x100000 ≤ o
    (no → Does c s ((s.bar4Wait a.toNat w).emit .ur)) ∧
      (¬ no → s.aneState q = 5 → Does c s ((s.bar4Wait a.toNat w).emit (.cpl [0] false))) ∧
      (¬ no → s.aneState q ≠ 5 → ∃ t : State, Does c s t ∧ t.out = s.out ++ [.cpl [old] (s.spadBad k)] ∧
        t.hbm = s.hbm ∧ tabGet 0 t.spad k = (if swap then v else old + v) ∧
        (ep = true → k ∈ t.spadPoison ∧ t.flag pciPg F.PCI_STS_POISON_RX = true) ∧
        ∀ k', k' ≠ k → tabGet 0 t.spad k' = tabGet 0 s.spad k') := by
  intro q o k old no
  obtain ⟨hwait, hst⟩ := s.bar4Wait_frame a.toNat w
  refine ⟨fun hno => does_bar4Atomic hc hl (bar4Atomic_refused hno),
    fun hyes hm => does_bar4Atomic hc hl (bar4Atomic_marching hyes ((hst q).trans hm)), fun hyes hm => ?_⟩
  have hacts := bar4Atomic_acts swap v ep hyes (s := s.bar4Wait a.toNat w) (by rw [hst]; exact hm)
  obtain ⟨hout, hhbm, hothers⟩ := (s.bar4Wait a.toNat w).atomicDone_oneWord q o swap v ep
  have hword := (s.bar4Wait a.toNat w).atomicDone_word q o swap v ep
  rw [hwait.spad] at hword hothers
  refine ⟨_, does_bar4Atomic hc hl hacts, ?_, hhbm.trans hwait.hbm, hword, ?_, hothers⟩
  · rw [hwait.spad, hwait.spadBad]
    exact congrArg (· ++ _) (hout.trans hwait.out)
  · rintro rfl
    exact (s.bar4Wait a.toNat w).atomicDone_poisoned q o swap v

theorem exec_lastSpadAtomic (s : State) (n : Fin 32) (q : Quad) (w : BitVec 18) (swap : Bool) (v : W32) (m : Nat) :
    exec (.lastSpadAtomic n q w swap v m) s =
      done (((s.bankWait q.val 3 m).spadAtomic q.val (4 * w.toNat) swap v).1.setCore n.val
        { ((s.bankWait q.val 3 m).spadAtomic q.val (4 * w.toNat) swap v).1.coreOf n.val with
          got := ((s.bankWait q.val 3 m).spadAtomic q.val (4 * w.toNat) swap v).2.1 }) := rfl

/-- An atomic of a last core. -/
theorem does_lastSpadAtomic (s : State) (n : Fin 32) (q : Quad) (w : BitVec 18) (swap : Bool) (v : W32) (m : Nat) :
    let k := q.val * 2 ^ 18 + w.toNat
    let old := tabGet (0 : W32) s.spad k
    ∃ t : State, Does (.lastSpadAtomic n q w swap v m) s t ∧ (t.coreOf n.val).got = old ∧
      tabGet 0 t.spad k = (if swap then v else old + v) ∧ ∀ k', k' ≠ k → tabGet 0 t.spad k' = tabGet 0 s.spad k' := by
  intro k old
  have hkey : spadKey q.val (4 * w.toNat) = k := by
    have := w.isLt
    unfold spadKey
    omega
  have hword := (s.bankWait q.val 3 m).spadAtomic_word q.val (4 * w.toNat) swap v
  obtain ⟨-, -, hothers⟩ :=
    (((RisesOnly.refl s).bump (anePg q.val) (F.ANE_SPAD_CONFLICT_COUNT.off (4 * 3)) m).oneWord
      (spadKey q.val (4 * w.toNat))).spadAtomic swap v
  rw [hkey] at hword hothers
  refine ⟨_, Does.of (exec_lastSpadAtomic s n q w swap v m) rfl, ?_, hword, hothers⟩
  rw [coreOf, setCore, tabGet_put_same, spadAtomic_old, hkey]
  rfl

/-- Settles O60: the atomics of the host and of the last cores, the host's writes and reads, and the waits counted. -/
theorem scratchpadAccessesFromOutside : Obligations.ScratchpadAccessesFromOutside := by
  unfold Obligations.ScratchpadAccessesFromOutside
  refine ⟨?atomics, fun s => Does.of rfl rfl, does_lastSpadAtomic, ?write,
    fun s a n => ⟨bar4Wait_scratchpad s n, bar4Wait_other s n⟩, ?read⟩
  case atomics =>
    intro s a v ep w hl q o k old no
    simp only [List.forall_mem_cons, List.not_mem_nil, false_implies, implies_true, and_true]
    exact ⟨does_hostAtomic (swap := false) rfl hl, does_hostAtomic (swap := true) rfl hl⟩
  case write =>
    intro s a bs ep w hl g u
    refine ⟨fun h => ?marching, fun h => ?clears, fun q o v _ ho hm => ?byte⟩
    case marching => exact Does.of rfl ((onLink_on _ _ _ hl).trans (bar4Write_marching h))
    case clears => exact Does.of rfl ((onLink_on _ _ _ hl).trans (bar4Write_clears h))
    case byte =>
      exact ⟨fun k' hk => bar4Byte_others ho hm v hk, bar4Byte_same ho hm v, fun b hb h => bar4Byte_beside ho hm v hb h⟩
  case read =>
    intro s a n w hl
    obtain ⟨hwait, -⟩ := s.bar4Wait_frame a.toNat w
    obtain ⟨t, bad, hread, hgives⟩ := (s.bar4Wait a.toNat w).bar4Read_gives a.toNat n
    refine ⟨_, Does.of rfl ((onLink_on _ _ _ hl).trans hgives), hread.spad.trans hwait.spad,
      hread.hbm.trans hwait.hbm, bad, ?_⟩
    simp only [bar4Words, bar4Get_wait]
    exact congrArg (· ++ _) (hread.out.trans hwait.out)

end Sys2Proof

/-!
The collector read backwards (R411 to R414, R422, R431): every rise, block reset and end of an orderly stop leaves a
trace in the log, in the list of resets or in the registers. A state without such a trace differs from what it settled
from only in the rises and the resets that waited.
-/
namespace Sys2Proof.Machine

open Sys2Proof

/-- What a fold leaves has a property that only idle steps leave: every step was idle. -/
theorem foldl_idle {α β : Type} {P : β → Prop} {f : β → α → β} (h : ∀ s a, P (f s a) → f s a = s) (l : List α) (s : β)
    (hP : P (l.foldl f s)) : l.foldl f s = s := by
  induction l generalizing s with
  | nil => rfl
  | cons a l ih =>
    have hrest := ih (f s a) hP
    rw [List.foldl_cons] at hP ⊢
    rw [hrest] at hP ⊢
    exact h s a hP

namespace State

/-! ## What the collector leaves when it has handled a rise (R414) -/

/-- The collector has logged nothing, and no block reset runs or waits. -/
structure LogCalm (s : State) : Prop where
  seq : s.flt.seq = 0
  log : s.flt.log = []
  resetting : s.resetting = []
  resetDue : s.flt.resetDue = []

theorem blockReset_idle (s : State) (p : Nat) (h : (s.blockReset p).resetting = []) : s.blockReset p = s := by
  unfold blockReset at h ⊢
  split_ifs at h ⊢ with hno
  · rfl
  · dsimp only at h
    split_ifs at h with hin
    · rw [h] at hin
      exact absurd hin (by simp)
    · exact absurd h (by simp)

theorem logRoom_idle (s : State) (h : s.logRoom.flt.log = []) : s.logRoom = s := by
  unfold logRoom at h ⊢
  split_ifs at h ⊢
  · rfl
  · rfl
  · exact absurd h (List.append_ne_nil_of_right_ne_nil _ (List.cons_ne_nil _ _))

theorem rise_seq (s : State) (p b : Nat) : (s.rise p b).flt.seq = s.flt.seq := by
  unfold rise
  split_ifs <;> rfl

theorem logPush_seq (s : State) (ws : List W32) : (s.logPush ws).flt.seq = s.flt.seq + 1 := by
  unfold logPush
  dsimp only
  split_ifs
  · exact rise_seq _ _ _
  · rfl

theorem logRoom_seq (s : State) : s.logRoom.flt.seq = s.flt.seq := by
  unfold logRoom
  split_ifs <;> rfl

theorem msi_flt (s : State) (v : Nat) : (s.msi v).flt = s.flt := by
  unfold msi
  split_ifs <;> rfl

theorem evqMark_flt (s : State) (new : Bool) : (s.evqMark new).flt = s.flt := by
  unfold evqMark
  dsimp only
  split_ifs <;> rfl

theorem evPush_seq (s : State) (ws : List W32) (slot : Option Nat) : (s.evPush ws slot).flt.seq = s.flt.seq := by
  unfold evPush
  dsimp only
  split_ifs
  · rw [evqMark_flt]; rfl
  · rw [msi_flt, evqMark_flt]; rfl
  · exact rise_seq _ _ _

theorem rxnLog_seq (p : Nat) (s : State) (b : Nat) : (rxnLog p s b).flt.seq = s.flt.seq + 1 := by
  unfold rxnLog
  dsimp only
  split_ifs <;> exact logPush_seq _ _

theorem rxnLogs_seq (p : Nat) (bs : List Nat) (s : State) :
    (bs.foldl (rxnLog p) s).flt.seq = s.flt.seq + bs.length := by
  induction bs generalizing s with
  | nil => rfl
  | cons b bs ih => rw [List.foldl_cons, ih, rxnLog_seq, List.length_cons]; omega

theorem rxnEntry_seq (p : Nat) (bs : List Nat) (s : State) : (rxnEntry p bs s).flt.seq = s.flt.seq := by
  unfold rxnEntry
  dsimp only
  split
  · rfl
  · split
    · rw [msi_flt, evPush_seq]
    · exact evPush_seq _ _ _

/-- The BLOCK_RESET reaction waits, or it acts at once. -/
theorem rxnReset_cases (s : State) (p : Nat) : (s.rxnReset p).flt.resetDue ≠ [] ∨ s.rxnReset p = s.blockReset p := by
  unfold rxnReset
  dsimp only
  split
  · exact .inr rfl
  · split
    · exact .inl (List.append_ne_nil_of_right_ne_nil _ (List.cons_ne_nil _ _))
    · exact .inr rfl

theorem rxnReset_idle (s : State) (p : Nat) (h : LogCalm (s.rxnReset p)) : s.rxnReset p = s := by
  obtain hdue | hnow := s.rxnReset_cases p
  · exact absurd h.resetDue hdue
  · rw [hnow] at h ⊢
    exact s.blockReset_idle p h.resetting

/-- A page of rises that leaves no trace has had none. -/
theorem pageRise_idle (rs : List (Nat × Nat)) (c : Nat) (s : State) (p : Nat) (h : LogCalm (pageRise rs c s p)) :
    pageRise rs c s p = s := by
  unfold pageRise at h ⊢
  generalize (List.range 32).filter (fun b => rs.contains (p, b)) = bs at h ⊢
  cases bs with
  | nil => exact s.logRoom_idle h.log
  | cons b bs =>
    exfalso
    dsimp only at h
    generalize hlogged : rxnEntry p (b :: bs) _ = u at h
    have hseq : u.flt.seq ≠ 0 := by
      rw [← hlogged, rxnEntry_seq, logRoom_seq, rxnLogs_seq, List.length_cons]
      omega
    have hcalm : ∀ v : State, (∃ due t, v = { u with flt := { u.flt with chipDue := due, chipT := t } }) ∨
        (∃ due t, v = { u.rxnReset p with flt := { (u.rxnReset p).flt with chipDue := due, chipT := t } }) →
        ¬ LogCalm v := by
      rintro v (⟨due, t, rfl⟩ | ⟨due, t, rfl⟩) ⟨hs, hl, hr, hd⟩
      · exact hseq hs
      · have hidle := u.rxnReset_idle p ⟨hs, hl, hr, hd⟩
        rw [hidle] at hs
        exact hseq hs
    refine hcalm _ ?_ h
    split_ifs
    · exact .inr ⟨_, _, rfl⟩
    · exact .inl ⟨_, _, rfl⟩
    · exact .inr ⟨_, _, rfl⟩
    · exact .inl ⟨_, _, rfl⟩

/-- The rounds of the collector leave a state without a trace only where they drop rises. -/
theorem riseRounds_idle (n : Nat) (s : State) (h : LogCalm (s.riseRounds n)) :
    ∃ rs, s.riseRounds n = { s with flt := { s.flt with rises := rs } } := by
  induction n generalizing s with
  | zero => exact ⟨s.flt.rises, rfl⟩
  | succ n ih =>
    rw [riseRounds] at h ⊢
    split_ifs at h ⊢
    · exact ⟨s.flt.rises, rfl⟩
    · obtain ⟨rs, hrest⟩ := ih _ h
      rw [hrest] at h ⊢
      have hround : s.riseRound = { s with flt := { s.flt with rises := [] } } :=
        foldl_idle (pageRise_idle _ _) _ _ ⟨h.seq, h.log, h.resetting, h.resetDue⟩
      exact ⟨rs, by rw [hround]⟩

theorem resetsDue_idle (s : State) (h : s.resetsDue.resetting = []) :
    ∃ l, s.resetsDue = { s with flt := { s.flt with resetDue := l } } :=
  ⟨_, foldl_idle (P := fun s => s.resetting = []) (fun s x => s.blockReset_idle x.1) _ _ h⟩

/-! ## What the entry to heel leaves (R423) -/

/-- No scope is in heel by the registers: the collector shows none, both stacks are out of self-refresh at stage 3 and no
sequencer shows heel. -/
structure HeelCalm (s : State) : Prop where
  shown : s.rd fltPg 0x100 = 0
  stage : s.stage = 3
  stack : s.get (pg T.mem 1) F.MEM_STS_SR_STATE ≠ 2
  eyelet : ∀ e, s.get (eyePg e) F.EYE_SEQ_STS_STATE ≠ 5

theorem get_rise_anywhere (s : State) (p b q : Nat) {f : Fld} (hf : f.ofs < 4096) (h : 0x010 ≠ f.ofs) :
    (s.rise p b).get q f = s.get q f := by
  unfold get
  rw [rd_rise_other _ _ _ (rkey_offset (by decide) hf h)]

theorem HeelCalm.of_rise {s : State} {p b : Nat} (h : HeelCalm (s.rise p b)) : HeelCalm s where
  shown := (rd_rise_other _ _ _ (rkey_offset (by decide) (by decide) (by decide))).symm.trans h.shown
  stage := (get_rise_anywhere _ _ _ _ (by decide) (by decide)).symm.trans h.stage
  stack := (get_rise_anywhere _ _ _ _ (by decide) (by decide)).symm.trans_ne h.stack
  eyelet e := (get_rise_anywhere _ _ _ _ (by decide) (by decide)).symm.trans_ne (h.eyelet e)

theorem HeelCalm.not_devHeel {s : State} (h : HeelCalm s) : s.devHeel = false := by
  unfold devHeel flag get
  rw [show F.FLT_STS_DEV_HEEL.ofs = 0x100 from rfl, h.shown]
  decide

theorem HeelCalm.not_eyeHeel {s : State} (h : HeelCalm s) (e : Nat) : s.eyeHeel e = false := by
  unfold eyeHeel
  rw [show pg T.flt 0 = fltPg from rfl, h.shown]
  simp

/-- Device heel holds the stacks in self-refresh. -/
theorem devHeelEnter_not_calm (s : State) (c : Nat) : ¬ HeelCalm (s.devHeelEnter c).faultSync := by
  intro h
  unfold devHeelEnter at h
  dsimp only at h
  generalize enginesHeel _ = u at h
  obtain ⟨-, hstage, hstack, -⟩ := h
  have hpage : rkey fltPg F.FLT_STS_FAULT_N.ofs ≠ rkey (pg T.glb 0) F.GLB_STAGE_STAGE.ofs := by decide
  have hpage' : rkey fltPg F.FLT_STS_FAULT_N.ofs ≠ rkey (pg T.mem 1) F.MEM_STS_SR_STATE.ofs := by decide
  rw [faultSync, put, get_set_other _ _ _ _ _ _ hpage'] at hstack
  rw [faultSync, put, stage, get_set_other _ _ _ _ _ _ hpage] at hstage
  split_ifs at hstage hstack with h3
  · exact hstack (get_set_same _ _ _ _ (by decide) (by decide))
  · exact h3 (hstage ▸ le_rfl)

theorem get_setSpr (s : State) (e : Nat) (d : SprDyn) (p : Nat) (f : Fld) : (s.setSpr e d).get p f = s.get p f := rfl

/-- Heel of an eyelet shows in its sequencer. -/
theorem eyeHeelPins_not_calm (s : State) (e : Nat) : ¬ HeelCalm (s.eyeHeelPins e) := by
  intro h
  have hshows := h.eyelet e
  unfold eyeHeelPins at hshows
  generalize (List.range 16).foldl _ (s.ddsEnd e) = parked at hshows
  have hpage : rkey (pg T.spr e) F.SPR_STS_STATE.ofs ≠ rkey (eyePg e) F.EYE_SEQ_STS_STATE.ofs :=
    rkey_page (by decide) (by decide) (by unfold eyePg pg; simp only [T.spr, T.eye]; omega)
  rw [get_set_other _ _ _ _ _ _ hpage, get_setSpr] at hshows
  exact hshows (get_set_same _ _ _ _ (by decide) (by decide))

theorem enterHeel_not_calm (s : State) (scope page src c : Nat) : ¬ HeelCalm (s.enterHeel scope page src c) := by
  intro h
  unfold enterHeel at h
  dsimp only at h
  generalize (if s.flt.heels.contains _ then s else _) = u at h
  split at h
  · generalize u.set fltPg F.FLT_STS_DEV_CAUSE _ = v at h
    split at h
    case isTrue hin => exact absurd (h.not_devHeel.symm.trans hin) (by decide)
    case isFalse => exact devHeelEnter_not_calm _ _ h
  · split at h
    case isTrue hin => exact absurd ((h.not_eyeHeel _).symm.trans hin) (by decide)
    case isFalse => exact eyeHeelPins_not_calm _ _ h

/-- A state that shows no heel has had no orderly stop at its end. -/
theorem stopCheck_idle (s : State) (h : HeelCalm s.stopCheck) : s.stopCheck = s :=
  foldl_idle (fun _ _ hend => absurd (HeelCalm.of_rise hend) (enterHeel_not_calm _ _ _ _ _)) _ _ h

end State

end Sys2Proof.Machine

/-!
A descriptor longer than the scratchpad: it overwrites the words that it stands in, and ends their poison (R275, R276).
-/
namespace Sys2Proof.Machine

open Sys2Proof

namespace State

/-- A state to which another has settled without a trace has the poison of that other. -/
theorem settle_calm (s : State) (hlog : LogCalm s.settle) (hheel : HeelCalm s.settle) :
    s.settle.spadPoison = s.spadPoison := by
  unfold settle at hlog hheel ⊢
  obtain ⟨rs, hrounds⟩ := riseRounds_idle 8 _ hlog
  rw [hrounds] at hlog hheel ⊢
  obtain ⟨due, hresets⟩ := resetsDue_idle s.stopCheck hlog.resetting
  rw [hresets] at hheel ⊢
  have hstops := s.stopCheck_idle ⟨hheel.shown, hheel.stage, hheel.stack, hheel.eyelet⟩
  rw [hstops]

/-! ## The words of a descriptor in the scratchpad (R276) -/

/-- Only the scratchpad, its poison and its errors change. -/
def SpadOnly (s t : State) : Prop := ∃ sp po up, t = { s with spad := sp, spadPoison := po, upset := up }

/-- A descriptor's words stand in the scratchpad. -/
def jobStand (s : State) (q : Nat) (w : List W32) (bad : BitVec 16) : State :=
  (w.zipIdx).foldl (fun s x => s.spadPut q (4 * x.2) x.1 (bad.getLsbD x.2)) s

theorem spadPut_only {s t : State} (h : SpadOnly s t) (q a : Nat) (v : W32) (bad : Bool) :
    SpadOnly s (t.spadPut q a v bad) := by
  obtain ⟨_, _, _, rfl⟩ := h
  exact ⟨_, _, _, rfl⟩

theorem jobStand_only (s : State) (q : Nat) (w : List W32) (bad : BitVec 16) : SpadOnly s (s.jobStand q w bad) :=
  List.foldlRecOn w.zipIdx _ (motive := SpadOnly s) ⟨s.spad, s.spadPoison, s.upset, rfl⟩
    fun _ h _ _ => spadPut_only h _ _ _ _

theorem not_mem_spadPut_sound (s : State) (q a : Nat) (v : W32) : spadKey q a ∉ (s.spadPut q a v false).spadPoison := by
  simp [spadPut]

/-- The last word of a descriptor, which is not found corrupted, leaves its word of the scratchpad sound. -/
theorem jobStand_last (s : State) (q : Nat) (w : List W32) (bad : BitVec 16) (hw : w ≠ [])
    (hbad : bad.getLsbD (w.length - 1) = false) : spadKey q (4 * (w.length - 1)) ∉ (s.jobStand q w bad).spadPoison := by
  have hsplit : w.zipIdx = w.dropLast.zipIdx ++ [(w.getLast hw, w.length - 1)] := by
    conv_lhs => rw [← List.dropLast_append_getLast hw]
    simp [List.zipIdx_append]
  rw [jobStand, hsplit, List.foldl_append, List.foldl_cons, List.foldl_nil, hbad]
  exact not_mem_spadPut_sound _ _ _ _

/-- Of a queue's corrupted descriptor only the free values and the count of poisoned words change. -/
theorem jobBlur_frame (s : State) (q : Nat) (ws : List W32) (bad : BitVec 16) :
    (∃ n pa, (s.jobBlur q ws bad).1 = { s with free := n, parity := pa }) ∧
      (s.jobBlur q ws bad).2.length = ws.length ∧
      ∀ i, bad.getLsbD i = false → (s.jobBlur q ws bad).2.getD i 0 = ws.getD i 0 := by
  refine List.foldlRecOn (List.range 16) _ (motive := fun a : State × List W32 =>
    (∃ n pa, a.1 = { s with free := n, parity := pa }) ∧ a.2.length = ws.length ∧
      ∀ i, bad.getLsbD i = false → a.2.getD i 0 = ws.getD i 0) ⟨⟨s.free, s.parity, rfl⟩, rfl, fun _ _ => rfl⟩ ?_
  rintro ⟨u, w⟩ ⟨⟨n, pa, rfl⟩, hlen, hword⟩ j -
  dsimp only
  split
  case isTrue hj =>
    refine ⟨⟨_, _, rfl⟩, (List.length_set ..).trans hlen, fun i hi => ?_⟩
    have hne : j ≠ i := by
      rintro rfl
      exact absurd (hj.symm.trans hi) (by decide)
    rw [← hword i hi, List.getD_eq_getElem?_getD, List.getElem?_set_ne hne, ← List.getD_eq_getElem?_getD]
  case isFalse => exact ⟨⟨n, pa, rfl⟩, hlen, hword⟩

/-- An engine that takes a descriptor shows its TAG, counts its job anew and shows its queue. -/
def jobShown (s : State) (q tag : Nat) : State :=
  (((s.set (anePg q) F.ANE_STS_TAG tag).set (anePg q) F.ANE_JOB_CYC_CYC 0).wr (anePg q) 0x114 0).aneSync q

/-- The engine's own state with the descriptor `w` taken, as it is delivered. -/
def jobHeld (s : State) (q : Nat) (w : List W32) (slot : Option Nat) (r : List (List W32 × Option Nat)) : State :=
  let k (i : Nat) := fget (w.getD (1 + i / 2) 0) (16 * (i % 2) + 15) (16 * (i % 2))
  s.setAne q { bits := s.get (anePg q) F.ANE_CTL_BITS, jobq := r, job := some (w, slot), win := (s.aneOf q).win,
               badTgt := (s.aneOf q).badTgt, k := (List.range 4).foldl (fun m i => tabPut 0 m i (k i)) [] }

/-- An idle engine that has taken a descriptor, before its checks. -/
def jobTaken (s : State) (q : Nat) (w : List W32) (slot : Option Nat) (r : List (List W32 × Option Nat))
    (bad : BitVec 16) : State :=
  ((s.jobStand q w bad).jobHeld q w slot r).jobShown q (fget (w.getD 0 0) 31 16)

/-- The engine starts the WHEN 1 transfers. -/
def xfersStart (s : State) (q : Nat) (w : List W32) : State :=
  (s.setAne q { s.aneOf q with xfers := xfersAt w 1 }).setAneState q 1

theorem aneTake_idle {s : State} {q : Nat} {ws : List W32} {slot : Option Nat} {r : List (List W32 × Option Nat)}
    {u : State} {w : List W32} (bad : BitVec 16) (hq : (s.aneOf q).jobq = (ws, slot) :: r)
    (hen : s.enabled (anePg q) = true) (hst : s.aneState q = 0) (hhold : s.flag (anePg q) F.ANE_CTL_HOLD = false)
    (hblur : s.jobBlur q ws bad = (u, w)) (hane : u.ane = s.ane) :
    s.aneTake q bad =
      let t := u.jobTaken q w slot r bad
      if t.stage < 2 || (decide (t.stage < 3) && (List.range 3).any (fun x => xferWhen w x != 0)) then t.aneEnd q 6
      else if xferErr w then t.aneEnd q 9
      else if fget (w.getD 0 0) 13 0 < 8192 ∧ !t.flag (anePg q) F.ANE_UC_STS_VENDOR_VALID then t.aneEnd q 7
      else if (xfersAt w 1).isEmpty then t.aneRun q
      else t.xfersStart q w := by
  have hd : u.aneOf q = s.aneOf q := congrArg (fun m => tabGet ({} : AneDyn) m q) hane
  unfold aneTake
  dsimp only
  rw [hq]
  dsimp only
  rw [hen, hst, hhold, hblur, ← hd]
  have hkept : (u.jobStand q w bad).aneOf q = u.aneOf q := by
    obtain ⟨_, _, _, hstand⟩ := u.jobStand_only q w bad
    rw [hstand]
    rfl
  unfold jobTaken jobHeld
  rw [hkept]
  rfl

/-- The registers of the engine's page alone change. -/
theorem rd_jobShown {q p o : Nat} (s : State) (tag : Nat) (ho : o < 4096) (hp : anePg q ≠ p) :
    (s.jobShown q tag).rd p o = s.rd p o := by
  unfold jobShown aneSync
  rw [rd_set_other _ _ _ _ _ _ (rkey_page (by decide) ho hp), rd_wr_other _ _ _ _ _ _ (rkey_page (by decide) ho hp),
    rd_set_other _ _ _ _ _ _ (rkey_page (by decide) ho hp), rd_set_other _ _ _ _ _ _ (rkey_page (by decide) ho hp)]

theorem rd_jobTaken {s : State} {q p o : Nat} (ho : o < 4096) (hp : anePg q ≠ p) (w : List W32) (slot : Option Nat)
    (r : List (List W32 × Option Nat)) (bad : BitVec 16) : (s.jobTaken q w slot r bad).rd p o = s.rd p o := by
  obtain ⟨sp, po, up, hstand⟩ := s.jobStand_only q w bad
  rw [jobTaken, rd_jobShown _ _ ho hp, hstand]
  rfl

theorem jobShown_file (s : State) (q tag : Nat) : FileOnly s (s.jobShown q tag) :=
  FileOnly.set (FileOnly.wr (FileOnly.set (FileOnly.set ⟨s.regs, rfl⟩ _ _ _) _ _ _) _ _ _) _ _ _

theorem jobHeld_ane (s : State) (q : Nat) (w : List W32) (slot : Option Nat) (r : List (List W32 × Option Nat)) :
    ∃ m, s.jobHeld q w slot r = { s with ane := m } := ⟨_, rfl⟩

/-- What is neither of the engines, nor a register, nor of the scratchpads stays, and their poison is the standing words'. -/
theorem jobTaken_frame (s : State) (q : Nat) (w : List W32) (slot : Option Nat) (r : List (List W32 × Option Nat))
    (bad : BitVec 16) :
    let t := s.jobTaken q w slot r bad
    t.flt = s.flt ∧ t.thm = s.thm ∧ t.resetting = s.resetting ∧ t.spadPoison = (s.jobStand q w bad).spadPoison := by
  unfold jobTaken
  obtain ⟨sp, po, up, hstand⟩ := s.jobStand_only q w bad
  obtain ⟨m, hheld⟩ := (s.jobStand q w bad).jobHeld_ane q w slot r
  rw [hheld, hstand]
  obtain ⟨regs, hshown⟩ :=
    jobShown_file { s with spad := sp, spadPoison := po, upset := up, ane := m } q (fget (w.getD 0 0) 31 16)
  rw [hshown]
  exact ⟨rfl, rfl, rfl, rfl⟩

/-! ## A state to which the poison's clause does not apply -/

/-- Transfer 0, of one unit, runs before the program at word 8192. -/
def jobHead : List W32 := [0x2000, 0, 0, 0, 0x80000, 1]

/-- A descriptor with words of 0 behind it. -/
def paddedJob (n : Nat) : List W32 := jobHead ++ List.replicate n 0

/-- A descriptor of 2^18 + 16 words. -/
def longJob : List W32 := paddedJob (2 ^ 18 + 10)

/-- Its word 15 is found corrupted. -/
def longBad : BitVec 16 := 0x8000

/-- Engine 0 is enabled and idle at stage 3. -/
def engineIdle : State :=
  (((({} : State).set glbPg F.GLB_STAGE_STAGE 3).put (anePg 0) F.PG_CTL_ENABLE true).put (anePg 0) F.ANE_CTL_HOLD
    false).setAneState 0 0

/-- That descriptor waits in its queue. -/
def longWaits : State := engineIdle.setAne 0 { jobq := [(longJob, none)] }

theorem longWaits_queue : (longWaits.aneOf 0).jobq = [(longJob, none)] := congrArg AneDyn.jobq (aneOf_setAne _ _ _)

theorem get_longWaits (p : Nat) (f : Fld) : longWaits.get p f = engineIdle.get p f := rfl

theorem longWaits_enabled : longWaits.enabled (anePg 0) = true := by
  rw [enabled, flag, get_longWaits]
  decide

theorem longWaits_stage : longWaits.stage = 3 := by
  rw [stage, get_longWaits]
  decide

theorem longWaits_idle : longWaits.aneState 0 = 0 := by
  rw [aneState, get_longWaits]
  decide

theorem longWaits_goes : longWaits.flag (anePg 0) F.ANE_CTL_HOLD = false := by
  rw [flag, get_longWaits]
  decide

theorem paddedJob_length (n : Nat) : (paddedJob n).length = n + 6 := by
  rw [paddedJob, List.length_append, List.length_replicate, Nat.add_comm]
  rfl

theorem paddedJob_getD (n i : Nat) : (paddedJob n).getD i 0 = jobHead.getD i 0 := by
  unfold paddedJob
  obtain hi | hi := Nat.lt_or_ge i jobHead.length
  · exact List.getD_append _ _ _ _ hi
  · rw [List.getD_append_right _ _ _ _ hi, List.getD_eq_default (hn := hi)]
    simp only [List.getD_eq_getElem?_getD, List.getElem?_replicate]
    split_ifs <;> rfl

/-- The descriptor as it is delivered. -/
def longWords : List W32 := (longWaits.jobBlur 0 longJob longBad).2

theorem longWords_length : longWords.length = 2 ^ 18 + 16 :=
  ((jobBlur_frame longWaits 0 longJob longBad).2.1).trans (paddedJob_length _)

theorem longWords_getD (i : Nat) (h : i < 15) : longWords.getD i 0 = jobHead.getD i 0 := by
  have hsound : longBad.getLsbD i = false := by
    revert i
    decide
  exact ((jobBlur_frame longWaits 0 longJob longBad).2.2 i hsound).trans (paddedJob_getD _ i)

/-- ENTRY lies outside the vendor's words. -/
theorem longWords_entry : ¬ fget (longWords.getD 0 0) 13 0 < 8192 := by
  rw [longWords_getD 0 (by decide)]
  decide

theorem longWords_xfersAt : xfersAt longWords 1 = [0] := by
  have hsame : xfersAt longWords 1 = xfersAt jobHead 1 := by
    refine List.filter_congr fun x hx => ?_
    have := List.mem_range.1 hx
    rw [xferWhen, xferWhen, longWords_getD _ (by omega)]
  rw [hsame]
  decide

theorem longWords_xferErr : xferErr longWords = false := by
  have hsame : xferErr longWords = xferErr jobHead := by
    unfold xferErr
    rw [longWords_getD 0 (by decide), longWords_getD 12 (by decide)]
    refine congrArg _ (Bool.eq_iff_iff.2 ?_)
    rw [List.any_eq_true, List.any_eq_true]
    refine exists_congr fun x => and_congr_right fun hx => ?_
    have := List.mem_range.1 hx
    rw [xferWhen, xferHbm, xferSpad, xferLen, longWords_getD (3 * x + 3) (by omega),
      longWords_getD (3 * x + 4) (by omega), longWords_getD (3 * x + 5) (by omega)]
    rfl
  rw [hsame]
  decide

/-! ## What the engine leaves of that state -/

/-- The state once the descriptor has been delivered. -/
def longRead : State := (longWaits.jobBlur 0 longJob longBad).1

/-- What taking the descriptor leaves. -/
def longTaken : State := (longRead.jobTaken 0 longWords none [] longBad).xfersStart 0 longWords

theorem longRead_frame : ∃ n pa, longRead = { longWaits with free := n, parity := pa } :=
  (jobBlur_frame longWaits 0 longJob longBad).1

theorem rd_longRead {p : Nat} (o : Nat) : longRead.rd p o = longWaits.rd p o := by
  obtain ⟨n, pa, hread⟩ := longRead_frame
  rw [hread]
  rfl

theorem rd_longWaits {p o : Nat} (ho : o < 4096) (hp : anePg 0 ≠ p) :
    longWaits.rd p o = (({} : State).set glbPg F.GLB_STAGE_STAGE 3).rd p o := by
  have hset : ∀ (s : State) (d : AneDyn), (s.setAne 0 d).rd p o = s.rd p o := fun _ _ => rfl
  rw [longWaits, hset, engineIdle, setAneState, rd_set_other _ _ _ _ _ _ (rkey_page (by decide) ho hp),
    rd_put_other _ _ _ _ _ _ (rkey_page (by decide) ho hp), rd_put_other _ _ _ _ _ _ (rkey_page (by decide) ho hp)]

theorem rd_xfersStart {s : State} {q p o : Nat} (w : List W32) (ho : o < 4096) (hp : anePg q ≠ p) :
    (s.xfersStart q w).rd p o = s.rd p o := by
  rw [xfersStart, setAneState, rd_set_other _ _ _ _ _ _ (rkey_page (by decide) ho hp)]
  rfl

theorem rd_longTaken {p o : Nat} (ho : o < 4096) (hp : anePg 0 ≠ p) :
    longTaken.rd p o = (({} : State).set glbPg F.GLB_STAGE_STAGE 3).rd p o := by
  rw [longTaken, rd_xfersStart _ ho hp, rd_jobTaken ho hp, rd_longRead, rd_longWaits ho hp]

theorem xfersStart_frame (s : State) (q : Nat) (w : List W32) :
    ∃ rs m, s.xfersStart q w = { s with regs := rs, ane := m } := ⟨_, _, rfl⟩

theorem jobStarts_frame (s : State) (q : Nat) (w : List W32) (slot : Option Nat) (r : List (List W32 × Option Nat))
    (bad : BitVec 16) :
    let t := (s.jobTaken q w slot r bad).xfersStart q w
    t.flt = s.flt ∧ t.thm = s.thm ∧ t.resetting = s.resetting ∧ t.spadPoison = (s.jobStand q w bad).spadPoison := by
  obtain ⟨hflt, hthm, hres, hpoison⟩ := s.jobTaken_frame q w slot r bad
  generalize s.jobTaken q w slot r bad = u at hflt hthm hres hpoison ⊢
  obtain ⟨rs, m, hstart⟩ := u.xfersStart_frame q w
  rw [hstart]
  exact ⟨hflt, hthm, hres, hpoison⟩

theorem longRead_quiet : longRead.flt = {} ∧ longRead.thm = {} ∧ longRead.resetting = [] := by
  obtain ⟨n, pa, hread⟩ := longRead_frame
  rw [hread]
  exact ⟨rfl, rfl, rfl⟩

theorem longTaken_frame :
    longTaken.flt = {} ∧ longTaken.thm = {} ∧ longTaken.resetting = [] ∧
      longTaken.spadPoison = (longRead.jobStand 0 longWords longBad).spadPoison := by
  obtain ⟨hflt, hthm, hres, hpoison⟩ := longRead.jobStarts_frame 0 longWords none [] longBad
  obtain ⟨hflt', hthm', hres'⟩ := longRead_quiet
  exact ⟨hflt.trans hflt', hthm.trans hthm', hres.trans hres', hpoison⟩

/-- No page's state reads 5 in these bits after reset. -/
theorem resetWord_state (p : Nat) : fget (resetWord p 0x104) 2 0 ≠ 5 := by
  have hstates : ∀ t < 23, ∀ r ∈ regsOf t, r.covers 0x104 = true → fget r.reset 2 0 ≠ 5 := by decide
  unfold resetWord
  split
  case h_1 => decide
  case h_2 r hfind =>
    unfold findReg at hfind
    split_ifs at hfind with hpage hheader
    · exact absurd hheader (by decide)
    · have hcovers := List.find?_some hfind
      rw [Bool.and_eq_true] at hcovers
      have hword := hstates _ (pagePresent_lt hpage) r (List.mem_of_find?_eq_some hfind) hcovers.1
      dsimp only
      simp only [Nat.reduceEqDiff, if_false, and_false, false_and, Nat.reduceLeDiff]
      exact hword

theorem longTaken_heelCalm : HeelCalm longTaken where
  shown := (rd_longTaken (by decide) (by decide)).trans (by decide)
  stage := by
    rw [stage, get, rd_longTaken (by decide) (by decide)]
    decide
  stack := by
    rw [get, rd_longTaken (by decide) (by decide)]
    decide
  eyelet e := by
    by_cases hp : anePg 0 = eyePg e
    · have hstate : longTaken.get (anePg 0) F.ANE_STS_STATE = 1 := get_set_same _ _ _ _ (by decide) (by decide)
      rw [← hp]
      exact fun h => absurd (hstate.symm.trans h) (by decide)
    · rw [get, rd_longTaken (by decide) hp, rd_set_other _ _ _ _ _ _ (rkey_page (by decide) (by decide) ?_)]
      · exact resetWord_state _
      · unfold glbPg eyePg pg
        simp only [T.glb, T.eye]
        omega

theorem longTaken_logCalm : LogCalm longTaken := by
  obtain ⟨hflt, -, hres, -⟩ := longTaken_frame
  exact ⟨by rw [hflt], by rw [hflt], hres, by rw [hflt]⟩

theorem longTaken_settle : longTaken.settle = longTaken := by
  obtain ⟨hflt, hthm, -, -⟩ := longTaken_frame
  exact settle_quiet _ (by rw [hflt]) ⟨by rw [hthm], by rw [hflt]⟩

theorem longTaken_sound : 15 ∉ longTaken.spadPoison := by
  obtain ⟨-, -, -, hpoison⟩ := longTaken_frame
  have hlast := jobStand_last longRead 0 longWords longBad
    (List.ne_nil_of_length_pos (by rw [longWords_length]; decide)) (by rw [longWords_length]; decide)
  rw [longWords_length] at hlast
  rwa [hpoison]

theorem longRead_jobTaken_stage : (longRead.jobTaken 0 longWords none [] longBad).stage = 3 := by
  rw [stage, get, rd_jobTaken (by decide) (by decide), rd_longRead, rd_longWaits (by decide) (by decide)]
  decide

theorem longWaits_taken : longWaits.aneTake 0 longBad = longTaken := by
  have hane : longRead.ane = longWaits.ane := by
    obtain ⟨n, pa, hread⟩ := longRead_frame
    rw [hread]
  have htake := aneTake_idle longBad longWaits_queue longWaits_enabled longWaits_idle longWaits_goes
    (u := longRead) (w := longWords) (Prod.ext rfl rfl) hane
  have hstage := longRead_jobTaken_stage
  rw [htake, longTaken]
  generalize longRead.jobTaken 0 longWords none [] longBad = t at hstage
  dsimp only
  have hready : ¬ ((decide (t.stage < 2) || (decide (t.stage < 3) &&
      (List.range 3).any fun x => xferWhen longWords x != 0)) = true) := by
    rw [hstage]
    simp
  have herr : ¬ (xferErr longWords = true) := by
    rw [longWords_xferErr]
    decide
  have hxfers : ¬ ((xfersAt longWords 1).isEmpty = true) := by
    rw [longWords_xfersAt]
    decide
  rw [if_neg hready, if_neg herr, if_neg fun h => longWords_entry h.1, if_neg hxfers]

end State

end Sys2Proof.Machine

namespace Sys2Proof

open Sys2Proof.Machine Sys2Proof.Machine.State

/-- What settles to what taking the long descriptor leaves has word 15 of the scratchpad sound. -/
theorem sound_of_does_longTake {t : State} (h : Does (.aneJobTake 0 longBad) longWaits t) : 15 ∉ t.spadPoison := by
  have hresult : exec (.aneJobTake 0 longBad) longWaits = .next longTaken.settle :=
    Does.of (t := longTaken) rfl longWaits_taken
  have hsettle : t.settle = longTaken := by
    have := Does.next h
    rw [hresult, longTaken_settle] at this
    exact (Host.Outcome.next.inj this).symm
  have hsame := settle_calm t (hsettle ▸ longTaken_logCalm) (hsettle ▸ longTaken_heelCalm)
  rw [← hsame, hsettle]
  exact longTaken_sound

/-- Refutes O59: a descriptor of 2^18 + 16 words overwrites the scratchpad's first words once more, which ends the poison
of word 15, found corrupted in the queue. -/
theorem not_analysisJobsStartAndEnd : ¬ Obligations.AnalysisJobsStartAndEnd := by
  unfold Obligations.AnalysisJobsStartAndEnd
  rintro ⟨hjobs, -⟩
  obtain ⟨-, -, -, -, htake, -⟩ := hjobs longWaits 0
  obtain ⟨t, -, -, -, -, -, -, hpoison, -, -, -, -, hstart⟩ :=
    htake longJob none [] longBad longWaits_queue longWaits_enabled longWaits_idle longWaits_goes
  have hpoisoned : 15 ∈ t.spadPoison :=
    of_decide_eq_true (hpoison 15 (by decide) (by rw [longJob, paddedJob_length]; decide))
  have hlate : ¬ (longWaits.stage < 2 ∨ longWaits.stage < 3 ∧
      ((List.range 3).any fun x => xferWhen longWords x != 0) = true) := by
    rw [longWaits_stage]
    omega
  have hxfers : xfersAt longWords 1 ≠ [] := by
    rw [longWords_xfersAt]
    decide
  have hdoes : Does (.aneJobTake 0 longBad) longWaits (t.xfersStart 0 longWords) :=
    hstart hlate longWords_xferErr (fun h => longWords_entry h.1) hxfers
  obtain ⟨_, _, hframe⟩ := t.xfersStart_frame 0 longWords
  have hsound := sound_of_does_longTake hdoes
  rw [hframe] at hsound
  exact hsound hpoisoned

end Sys2Proof

/-!
What the ticket that runs on a core does there: the group a BURST starts, the unit a MEASURE arms, the queue an ANALYZE
joins, the registers a WRITE writes, the time a WAIT waits for, and the result of a POST (R288, R290, R291).
-/
namespace Sys2Proof.Machine

open Sys2Proof

namespace State

/-! ## BURST (R288, R301) -/

/-- The sites that a BURST serves: those of its eyelets, once its registers are written. -/
def burstSites (s : State) (k : Ticket) : List Nat := (s.burstSetup k k.ranAgain).sitesOf (burstEyes k)

/-- The start of a BURST's group, and the REASON of its refusal (0: it starts). -/
def burstStart (s : State) (slot : Nat) (k : Ticket) : State × Nat :=
  ((s.burstSetup k k.ranAgain).modTicket slot (fun j => { j with
    served := s.burstSites k, siteSt := (s.burstSites k).map (fun i => (i, 0)) })).goSeq
      (fget (k.word 4) 19 16) false [slot]

/-- A BURST that runs again starts once its group can: the refusals that pass by themselves leave it waiting. -/
abbrev BurstWaits (k : Ticket) (reason : Nat) : Prop := k.ranAgain = true ∧ (reason = 2 ∨ reason = 9)

section

variable {s : State} {slot : Nat} {k : Ticket}

theorem burst_none (h : s.ticketNew slot 1 = none) : s.burst slot = s := by rw [burst, h]

theorem burst_new (h : s.ticketNew slot 1 = some k) :
    s.burst slot =
      let g := s.burstStart slot k
      let u := g.1.begin_ slot
      if BurstWaits k g.2 then g.1
      else if g.2 = 0 then u.modTicket slot (fun j => { j with goIssued := true })
      else (u.burstStatus slot (reasonStatus g.2) (fun _ => true)).finish slot
        (if s.burstSites k = [] then reasonStatus g.2 else 0) 0 := by
  rw [burst, h]
  rfl

theorem burst_waits (h : s.ticketNew slot 1 = some k) (hw : BurstWaits k (s.burstStart slot k).2) :
    s.burst slot = (s.burstStart slot k).1 := (burst_new h).trans (if_pos hw)

theorem burst_starts (h : s.ticketNew slot 1 = some k) (hr : (s.burstStart slot k).2 = 0) :
    s.burst slot = ((s.burstStart slot k).1.begin_ slot).modTicket slot (fun j => { j with goIssued := true }) := by
  have hgo : ¬ BurstWaits k (s.burstStart slot k).2 := fun hw => by have := hw.2; omega
  exact (burst_new h).trans ((if_neg hgo).trans (if_pos hr))

theorem burst_refused (h : s.ticketNew slot 1 = some k) (hr : (s.burstStart slot k).2 ≠ 0)
    (hw : ¬ BurstWaits k (s.burstStart slot k).2) :
    s.burst slot =
      (((s.burstStart slot k).1.begin_ slot).burstStatus slot (reasonStatus (s.burstStart slot k).2)
        (fun _ => true)).finish slot (if s.burstSites k = [] then reasonStatus (s.burstStart slot k).2 else 0) 0 :=
  (burst_new h).trans ((if_neg hw).trans (if_neg hr))

end

/-! ## MEASURE (R288) -/

/-- The arming of a MEASURE's unit with the words of the descriptor, and whether the unit took it. -/
def measureArm (s : State) (slot : Nat) (k : Ticket) : State × Bool :=
  let n := fget (k.word 4) 5 0
  let p := pg T.tdc (n / 4)
  let o := 0x400 + 0x40 * (n % 4)
  (((s.writeReg p o (k.word 5 &&& ~~~3) false).writeReg p (o + 4) (k.word 6) false).writeReg p (o + 8) (k.word 7)
    false).iuArm n (some (slot, k.wide 8))

section

variable {s : State} {slot : Nat} {k : Ticket}

theorem measure_none (h : s.ticketNew slot 2 = none) : s.measure slot = s := by rw [measure, h]

theorem measure_new (h : s.ticketNew slot 2 = some k) :
    s.measure slot =
      let r := s.measureArm slot k
      let u := r.1.begin_ slot
      if r.2 = true then
        u.modTicket slot (fun j => { j with expStart := some ((r.1.iuOf (fget (k.word 4) 5 0)).ta / 1024) })
      else u.finish slot 0x18 0 := by
  rw [measure, h]
  rfl

/-! ## ANALYZE (R288) -/

theorem analyze_none (h : s.ticketNew slot 3 = none) : s.analyze slot = s := by rw [analyze, h]

theorem analyze_new (h : s.ticketNew slot 3 = some k) :
    s.analyze slot =
      let q := fget (k.word 4) 1 0
      let u := s.hbmTouch (k.wide 5)
      if 8 ≤ (s.aneOf q).jobq.length then s
      else (u.jobPut q (u.hbmWords (k.wide 5) 16) (some slot)).begin_ slot := by
  rw [analyze, h]

/-! ## WRITE (R288, R291) -/

theorem writeTicket_none (h : s.ticketNew slot 4 = none) : s.writeTicket slot = s := by rw [writeTicket, h]

theorem writeTicket_new (h : s.ticketNew slot 4 = some k) :
    s.writeTicket slot =
      let r := (s.begin_ slot).writeAll k (List.range (fget (k.word 4) 2 0))
      r.1.finish slot (if r.2 = true then 0x33 else 0) 0 := by
  rw [writeTicket, h]

/-! ## WAIT (R288) -/

theorem waitTicket_none (h : s.ticketNew slot 5 = none) : s.waitTicket slot = s := by rw [waitTicket, h]

theorem waitTicket_new (h : s.ticketNew slot 5 = some k) :
    s.waitTicket slot = if k.wide 4 < s.ui then (s.begin_ slot).finish slot 0 2 else s.begin_ slot := by
  rw [waitTicket, h]

/-! ## POST (R290, R307) -/

theorem post_none (h : s.ticketNew slot 6 = none) : s.post slot = s := by rw [post, h]

theorem post_new (h : s.ticketNew slot 6 = some k) :
    s.post slot =
      ((s.begin_ slot).modTicket slot (fun _ => { s.posted k false with begun := true })).finish slot 0 0 := by
  rw [post, h]

end

end State

end Sys2Proof.Machine

namespace Sys2Proof

open Sys2Proof.Machine Sys2Proof.Machine.State

section

variable {s t : State} {i : Fin 1024}

theorem does_burst (h : s.burst i.val = t) : Does (.burst i) s t := Does.of rfl h

theorem does_measure (h : s.measure i.val = t) : Does (.measure i) s t := Does.of rfl h

theorem does_analyze (h : s.analyze i.val = t) : Does (.analyze i) s t := Does.of rfl h

theorem does_write (h : s.writeTicket i.val = t) : Does (.write i) s t := Does.of rfl h

theorem does_wait (h : s.waitTicket i.val = t) : Does (.wait i) s t := Does.of rfl h

theorem does_post (h : s.post i.val = t) : Does (.post i) s t := Does.of rfl h

end

/-- Settles O36: each type of ticket without a new ticket of it, then with one. -/
theorem ticketActionsStart : Obligations.TicketActionsStart := by
  unfold Obligations.TicketActionsStart
  intro s i
  refine ⟨fun h => does_burst (burst_none h), fun h => does_measure (measure_none h),
    fun h => does_analyze (analyze_none h), fun h => does_write (writeTicket_none h),
    fun h => does_wait (waitTicket_none h), fun h => does_post (post_none h), ?burst, ?measure, ?analyze, ?write, ?wait,
    ?post⟩
  case burst =>
    exact fun k h => ⟨fun hw => does_burst (burst_waits h hw), fun hr => does_burst (burst_starts h hr),
      fun hr hw => does_burst (burst_refused h hr hw)⟩
  case measure =>
    exact fun k h => ⟨fun hok => does_measure ((measure_new h).trans (if_pos hok)),
      fun hno => does_measure ((measure_new h).trans (if_neg (Bool.eq_false_iff.1 hno)))⟩
  case analyze =>
    exact fun k h => ⟨fun hfull => does_analyze ((analyze_new h).trans (if_pos hfull)),
      fun hroom => does_analyze ((analyze_new h).trans (if_neg (Nat.not_le.2 hroom)))⟩
  case write => exact fun k h => does_write (writeTicket_new h)
  case wait =>
    exact fun k h => ⟨fun hlate => does_wait ((waitTicket_new h).trans (if_pos hlate)),
      fun hearly => does_wait ((waitTicket_new h).trans (if_neg (Nat.not_lt.2 hearly)))⟩
  case post => exact fun k h => does_post (post_new h)

end Sys2Proof

/-!
The ends of tickets: the AT of a WAIT, completion, the LIMIT, release, the record of a takeover, and a last core that
leaves service (R288, R291, R298 to R301, R303).
-/
namespace Sys2Proof.Machine

open Sys2Proof

namespace State

section

variable {s : State} {slot : Nat}

section

variable (h : s.ticketAt slot = none)
include h

theorem waitReached_absent : s.waitReached slot = s := by rw [waitReached, h]

theorem ticketComplete_absent (bad : Nat) : s.ticketComplete slot bad = s := by rw [ticketComplete, h]

theorem ticketTimeout_absent : s.ticketTimeout slot = s := by rw [ticketTimeout, h]

theorem release_absent : s.release slot = s := by rw [release, h]

end

variable {k : Ticket} (h : s.ticketAt slot = some k)

/-! ## The AT of a WAIT (R288) -/

section

include h

theorem waitReached_due (htyp : k.typ = 5) (hbegun : k.begun = true) (hcore : k.core.isSome = true) :
    s.waitReached slot = (s.upTo (k.wide 4 * 1024)).finish slot 0 0 := by
  rw [waitReached, h]
  exact if_pos ⟨htyp, hbegun, hcore⟩

theorem waitReached_other (hk : k.typ ≠ 5 ∨ k.begun = false ∨ k.core = none) : s.waitReached slot = s := by
  rw [waitReached, h]
  refine if_neg ?_
  rintro ⟨htyp, hbegun, hcore⟩
  rcases hk with hk | hk | hk
  · exact hk htyp
  · simp [hk] at hbegun
  · simp [hk] at hcore

end

/-! ## Completion (R288, R298) -/

/-- The fail logs of a BURST's eyelets are done, and the summaries of its sites are final. -/
abbrev BurstLogged (s : State) (k : Ticket) : Prop :=
  (∀ e ∈ burstEyes k, s.flag (pg T.cmp e) F.CMP_STS_LOG_DONE = true) ∧ ∀ j ∈ k.served, (s.siteOf j).final = true

/-- The ticket's action is finished on its core, and what a BURST that has run leaves is complete. -/
abbrev Ends (s : State) (k : Ticket) : Prop :=
  k.core.isSome = true ∧ k.begun = true ∧ k.fin = true ∧ (k.isBurst = false ∨ k.expStart = none ∨ s.BurstLogged k)

theorem ends_iff (s : State) (k : Ticket) :
    (k.core.isSome && k.begun && k.fin && (!k.isBurst || k.expStart.isNone ||
      ((burstEyes k).all (fun e => s.flag (pg T.cmp e) F.CMP_STS_LOG_DONE) &&
        k.served.all (fun i => (s.siteOf i).final)))) = true ↔ s.Ends k := by
  simp only [Ends, BurstLogged, Bool.and_eq_true, Bool.or_eq_true, Bool.not_eq_true', Option.isNone_iff_eq_none,
    List.all_eq_true, and_assoc, or_assoc]

/-- Results of the unit of a MEASURE were lost. -/
def measLost (s : State) (k : Ticket) : Bool :=
  s.flag (pg T.tdc (fget (k.word 4) 5 0 / 4)) (iuFld F.TDC_IU_STS_OVF (fget (k.word 4) 5 0 % 4))

section

include h

theorem ticketComplete_eq (bad : Nat) :
    s.ticketComplete slot bad =
      let u := if k.typ = 2 then s.measPoison k bad else s
      if s.Ends k then u.completeTicket slot (if (k.typ == 2 && u.measLost k) = true then 0x16 else 0) 0 else s := by
  rw [ticketComplete, h]
  exact if_congr (ends_iff s k) rfl rfl

theorem ticketComplete_ends (bad : Nat) (hends : s.Ends k) (htyp : k.typ ≠ 2) :
    s.ticketComplete slot bad = s.completeTicket slot 0 0 := by
  rw [ticketComplete_eq h, if_neg htyp]
  dsimp only
  rw [if_pos hends, if_neg (by simp [htyp])]

theorem ticketComplete_measure (bad : Nat) (hends : s.Ends k) (htyp : k.typ = 2) :
    s.ticketComplete slot bad =
      (s.measPoison k bad).completeTicket slot (if (s.measPoison k bad).measLost k = true then 0x16 else 0) 0 := by
  rw [ticketComplete_eq h, if_pos htyp]
  dsimp only
  rw [if_pos hends, htyp]
  rfl

theorem ticketComplete_open (bad : Nat) (hopen : ¬ s.Ends k) : s.ticketComplete slot bad = s :=
  (ticketComplete_eq h bad).trans (if_neg hopen)

end

/-! ## The LIMIT (R291) -/

/-- The ticket's action is not finished on its core, and it has a LIMIT. -/
abbrev Limited (k : Ticket) : Prop := k.core.isSome = true ∧ k.fin = false ∧ k.limit ≠ 0

theorem limited_iff (k : Ticket) : (k.core.isSome && !k.fin && k.limit != 0) = true ↔ Limited k := by
  simp only [Limited, Bool.and_eq_true, Bool.not_eq_true', bne_iff_ne, and_assoc]

/-- The instant at which the ticket has run its LIMIT; its action counts as begun. -/
def limitPast (s : State) (slot : Nat) (k : Ticket) : State :=
  (s.upToMono (k.beginT + k.limit * 6400 * 1024)).begin_ slot

/-- A BURST's sites take status 30, and its group, where it has one, stops by ABORT. -/
def burstTimeout (s : State) (slot : Nat) : State :=
  let u := s.burstStatus slot 0x30 (fun _ => true)
  match u.groups.find? (fun g => g.slots.contains slot) with
  | some g => u.abortSeq g.leader
  | none => u.finish slot 0x30 0

theorem burstTimeout_group {g : Group}
    (hg : (s.burstStatus slot 0x30 (fun _ => true)).groups.find? (fun g => g.slots.contains slot) = some g) :
    s.burstTimeout slot = (s.burstStatus slot 0x30 (fun _ => true)).abortSeq g.leader := by rw [burstTimeout, hg]

theorem burstTimeout_alone
    (hg : (s.burstStatus slot 0x30 (fun _ => true)).groups.find? (fun g => g.slots.contains slot) = none) :
    s.burstTimeout slot = (s.burstStatus slot 0x30 (fun _ => true)).finish slot 0x30 0 := by rw [burstTimeout, hg]

section

include h

theorem ticketTimeout_eq :
    s.ticketTimeout slot =
      let u := s.limitPast slot k
      if Limited k then (if k.isBurst = true then u.burstTimeout slot else (u.finish slot 0x30 0).callBack slot)
      else s := by
  rw [ticketTimeout, h]
  exact if_congr (limited_iff k) rfl rfl

theorem ticketTimeout_burst (hlate : Limited k) (hburst : k.isBurst = true) :
    s.ticketTimeout slot = (s.limitPast slot k).burstTimeout slot :=
  (ticketTimeout_eq h).trans ((if_pos hlate).trans (if_pos hburst))

theorem ticketTimeout_other (hlate : Limited k) (hburst : k.isBurst = false) :
    s.ticketTimeout slot = ((s.limitPast slot k).finish slot 0x30 0).callBack slot :=
  (ticketTimeout_eq h).trans ((if_pos hlate).trans (if_neg (Bool.eq_false_iff.1 hburst)))

theorem ticketTimeout_none (hlate : ¬ Limited k) : s.ticketTimeout slot = s :=
  (ticketTimeout_eq h).trans (if_neg hlate)

end

/-! ## Release (R299, R300) -/

/-- A complete ticket's turn has come, and its gate is met. -/
abbrev MayRelease (s : State) (k : Ticket) : Prop :=
  k.isComplete = true ∧ k.rerun = false ∧ s.releaseTurn k = true ∧ s.gateMet k = true

include h in
theorem release_eq : s.release slot = if s.MayRelease k then s.releaseTicket k else s := by
  rw [release, h]
  refine if_congr ?_ rfl rfl
  simp only [MayRelease, Bool.and_eq_true, Bool.not_eq_true', and_assoc]

end

/-! ## The record of a takeover (R301) -/

section

variable {s : State}

theorem rerunRecord_none (h : s.sch.reruns = []) : s.rerunRecord = s := by rw [rerunRecord, h]

/-- The exposure of a ticket that serves the site overlaps the window. -/
def exposedIn (site ws we : Nat) (k : Ticket) : Bool :=
  k.serves.contains site && (match k.expStart with | some x => overlaps x k.expEnd ws we | none => false)

theorem exposedIn_eq (site ws we : Nat) :
    exposedIn site ws we = fun k => k.serves.contains site && k.expStart.any (fun x => overlaps x k.expEnd ws we) := by
  funext k
  unfold exposedIn
  cases k.expStart <;> rfl

/-- The tickets whose exposure the window overlaps. -/
def exposedTickets (s : State) (site ws we : Nat) : List Ticket := s.sch.tickets.filter (exposedIn site ws we)

/-- The started tickets of the site that stand behind one of these in its flow. -/
def followers (s : State) (site ws we : Nat) : List Ticket :=
  s.sch.tickets.filter (fun k => k.serves.contains site && k.started &&
    (s.exposedTickets site ws we).any (fun j => j.flow == k.flow && decide (j.age < k.age)))

/-- The slots of the tickets that a window selects to run again. -/
def selectedSlots (s : State) (site ws we : Nat) : List Nat :=
  (s.exposedTickets site ws we ++ s.followers site ws we).map (·.slot)

theorem selectedSlots_contains (s : State) (site ws we slot : Nat) :
    (s.selectedSlots site ws we).contains slot =
      (decide (slot ∈ (s.exposedTickets site ws we).map (·.slot)) ||
        decide (slot ∈ (s.followers site ws we).map (·.slot))) := by
  rw [selectedSlots, List.map_append, List.contains_append, List.contains_eq_mem, List.contains_eq_mem]

/-- The record of a window has left, and the tickets that the window selects wait for their next run. -/
def rerunMarked (s : State) (site ws we : Nat) (r : List (Nat × Nat × Nat × Nat)) : State :=
  { s with sch := { s.sch with
      reruns := r,
      tickets := s.sch.tickets.map (fun k =>
        if (s.selectedSlots site ws we).contains k.slot then { k with rerun := true } else k) } }

/-- The UNCOVERED entry of a released ticket whose exposure a window overlaps (R302). -/
def postUncovered (site ws we : Nat) (s : State) (x : Nat × List Nat × Nat × Nat) : State :=
  s.evPush ((s.evWords 1 0x21 (lo32 ws) (lo32 we) 0).set 0
    (BitVec.ofNat 32 (1 + 0x21 * 4 + site * 2 ^ 8 + x.1 * 2 ^ 16))) none

section

variable {c site ws we : Nat} {r : List (Nat × Nat × Nat × Nat)} (h : s.sch.reruns = (c, site, ws, we) :: r)
include h

theorem rerunRecord_eq :
    s.rerunRecord =
      let lost := s.sch.released.filter (fun x => x.2.1.contains site && overlaps x.2.2.1 (some x.2.2.2) ws we)
      (lost.foldl (postUncovered site ws we) (s.rerunMarked site ws we r)).rerunNext := by
  rw [rerunRecord, h]
  rfl

theorem rerunRecord_covered (hnone : ∀ x ∈ s.sch.released, site ∉ x.2.1) :
    s.rerunRecord = (s.rerunMarked site ws we r).rerunNext := by
  rw [rerunRecord_eq h, List.filter_eq_nil_iff.2 fun x hx => by simp [hnone x hx]]
  rfl

end

end

/-! ## A last core leaves service (R303) -/

/-- A core is shown out of service, with its slot empty; the fault is counted and raised. -/
def coreOffline (s : State) (n : Nat) : State :=
  (((s.set (lst n) F.LST_STS_STATE 3).put (lst n) F.LST_STS_SLOT_FULL false).bump (lst n) F.LST_CNT_FAULT_FAULTS
    1).rise (lst n) X.LST_LST_FAULT

/-- The core is out of service, and the tickets that it held have gone elsewhere or are complete. -/
def coreEmptied (s : State) (n : Nat) : State :=
  (s.sch.tickets.filter (fun k => k.core == some n || k.slotCore == some n)).foldl (coreLost n) (s.coreOffline n)

/-- No core is in service. -/
abbrev NoCore (s : State) : Prop := ∀ m, m < 32 → s.coreState m = 3

section

variable {s : State} {n : Nat}

theorem coreFail_offline (h : s.coreState n = 3) : s.coreFail n = s := if_pos h

theorem coreFail_serving (h : s.coreState n ≠ 3) :
    s.coreFail n =
      let u := s.coreEmptied n
      if u.NoCore then (u.put schPg F.SCH_STS_NO_CORE true).rise schPg X.SCH_NO_CORE else u := by
  rw [coreFail, if_neg h]
  refine if_congr ?_ rfl rfl
  simp only [NoCore, List.all_eq_true, List.mem_range, beq_iff_eq]
  rfl

theorem coreFail_last (h : s.coreState n ≠ 3) (hnone : (s.coreEmptied n).NoCore) :
    s.coreFail n = ((s.coreEmptied n).put schPg F.SCH_STS_NO_CORE true).rise schPg X.SCH_NO_CORE :=
  (coreFail_serving h).trans (if_pos hnone)

theorem coreFail_others (h : s.coreState n ≠ 3) (hsome : ∃ m, m < 32 ∧ (s.coreEmptied n).coreState m ≠ 3) :
    s.coreFail n = s.coreEmptied n := by
  obtain ⟨m, hm, hserves⟩ := hsome
  exact (coreFail_serving h).trans (if_neg fun hnone => hserves (hnone m hm))

end

end State

end Sys2Proof.Machine

namespace Sys2Proof

open Sys2Proof.Machine Sys2Proof.Machine.State

section

variable {s t : State}

section

variable {i : Fin 1024}

theorem does_waitAtReached (h : s.waitReached i.val = t) : Does (.waitAtReached i) s t := Does.of rfl h

theorem does_ticketComplete {bad : Nat} (h : s.ticketComplete i.val bad = t) : Does (.ticketComplete i bad) s t :=
  Does.of rfl h

theorem does_ticketTimeout (h : s.ticketTimeout i.val = t) : Does (.ticketTimeout i) s t := Does.of rfl h

theorem does_release (h : s.release i.val = t) : Does (.release i) s t := Does.of rfl h

end

theorem does_rerunRecord (h : s.rerunRecord = t) : Does .rerunRecord s t := Does.of rfl h

/-- A missed heartbeat and a memory error take a core out of service alike. -/
theorem does_coreFail {n : Fin 32} (h : s.coreFail n.val = t) :
    Does (.lstWdogExpiry n) s t ∧ Does (.lstMemUncorr n) s t := ⟨Does.of rfl h, Does.of rfl h⟩

end

/-- Settles O37: the end of a ticket by each of its events, the record of a takeover, and a core that leaves service. -/
theorem ticketsEndAndAreReleased : Obligations.TicketsEndAndAreReleased := by
  unfold Obligations.TicketsEndAndAreReleased
  refine ⟨⟨?absent, fun s i k hk =>
      ⟨?reached, ?notReached, ?ends, ?measure, ?runs, ?late, ?lateBurst, ?inTime, ?turn, ?noTurn⟩, ?noRecord, ?record⟩,
    fun s n => ⟨?offline, fun h => ⟨?last, ?others⟩⟩⟩
  case absent =>
    exact fun s i bad h => ⟨does_waitAtReached (waitReached_absent h),
      does_ticketComplete (ticketComplete_absent h bad), does_ticketTimeout (ticketTimeout_absent h),
      does_release (release_absent h)⟩
  case reached => exact fun htyp hbegun hcore => does_waitAtReached (waitReached_due hk htyp hbegun hcore)
  case notReached => exact fun h => does_waitAtReached (waitReached_other hk h)
  case ends => exact fun bad h htyp => does_ticketComplete (ticketComplete_ends hk bad h htyp)
  case measure => exact fun bad h htyp => does_ticketComplete (ticketComplete_measure hk bad h htyp)
  case runs => exact fun bad h => does_ticketComplete (ticketComplete_open hk bad h)
  case late => exact fun h hburst => does_ticketTimeout (ticketTimeout_other hk h hburst)
  case lateBurst =>
    exact fun h hburst =>
      ⟨fun g hg => does_ticketTimeout ((ticketTimeout_burst hk h hburst).trans (burstTimeout_group hg)),
        fun hg => does_ticketTimeout ((ticketTimeout_burst hk h hburst).trans (burstTimeout_alone hg))⟩
  case inTime => exact fun h => does_ticketTimeout (ticketTimeout_none hk h)
  case turn => exact fun h => does_release ((release_eq hk).trans (if_pos h))
  case noTurn => exact fun h => does_release ((release_eq hk).trans (if_neg h))
  case noRecord => exact fun s h => does_rerunRecord (rerunRecord_none h)
  case record =>
    intro s c site ws we r h a sel u hnone
    have hmarked : s.rerunMarked site ws we r = u := by
      simp only [rerunMarked, selectedSlots_contains, followers, exposedTickets, exposedIn_eq]
      rfl
    exact does_rerunRecord (hmarked ▸ rerunRecord_covered h hnone)
  case offline => exact fun h => does_coreFail (coreFail_offline h)
  case last => exact fun hnone => does_coreFail (coreFail_last h hnone)
  case others => exact fun hsome => does_coreFail (coreFail_others h hsome)

end Sys2Proof

/-!
Tickets on their way to a core: submission, the dependence counters and the EVT inputs that step them down, and dispatch
(R289, R292 to R297).
-/
namespace Sys2Proof.Machine

open Sys2Proof

namespace State

/-! ## What the trace leaves (R308) -/

/-- `t` differs from `s` in the trace only, and in a rise on the scheduler's page, which its PG_FLT shows. -/
def TraceOnly (s t : State) : Prop :=
  (∃ rs fl tr lost hi end_, t = { s with
    regs := rs, flt := fl,
    sch := { s.sch with trace := tr, traceLost := lost, traceHi := hi, traceEnd := end_ } }) ∧
  ∀ p a, rkey p a ≠ rkey schPg 0x010 → t.rd p a = s.rd p a

section

variable {s t : State} (h : TraceOnly s t)

section

include h

theorem TraceOnly.tickets : t.sch.tickets = s.sch.tickets := by obtain ⟨⟨_, _, _, _, _, _, rfl⟩, -⟩ := h; rfl

theorem TraceOnly.ctr (n : Nat) : t.ctr n = s.ctr n := by obtain ⟨⟨_, _, _, _, _, _, rfl⟩, -⟩ := h; rfl

theorem TraceOnly.hbm : t.hbm = s.hbm := by obtain ⟨⟨_, _, _, _, _, _, rfl⟩, -⟩ := h; rfl

theorem TraceOnly.get {p : Nat} {f : Fld} (hf : rkey p f.ofs ≠ rkey schPg 0x010) : t.get p f = s.get p f := by
  rw [State.get, h.2 p f.ofs hf, State.get]

theorem TraceOnly.trans {u : State} (h' : TraceOnly t u) : TraceOnly s u := by
  obtain ⟨⟨_, _, _, _, _, _, rfl⟩, hrd⟩ := h
  obtain ⟨⟨_, _, _, _, _, _, rfl⟩, hrd'⟩ := h'
  exact ⟨⟨_, _, _, _, _, _, rfl⟩, fun p a hpa => (hrd' p a hpa).trans (hrd p a hpa)⟩

end

theorem TraceOnly.refl (s : State) : TraceOnly s s := ⟨⟨_, _, _, _, _, _, rfl⟩, fun _ _ _ => rfl⟩

include h in
theorem TraceOnly.foldl {α : Type} {f : State → α → State} (hf : ∀ u a, TraceOnly u (f u a)) (l : List α) :
    TraceOnly s (l.foldl f t) :=
  List.foldlRecOn l f h fun u hu a _ => hu.trans (hf u a)

end

section

variable (s : State)

theorem traceOnly_traceIn (ws : List W32) : TraceOnly s (s.traceIn ws) := ⟨⟨_, _, _, _, _, _, rfl⟩, fun _ _ _ => rfl⟩

/-- A record that finds the queue full is counted and raises TRACE_LOST. -/
def traceMissed (s : State) : State :=
  ({ s with sch := { s.sch with traceLost := s.sch.traceLost + 1 } } : State).rise schPg X.SCH_TRACE_LOST

theorem traceOnly_traceMissed : TraceOnly s s.traceMissed := by
  refine ⟨?_, fun p a hpa => rd_rise_other _ _ _ hpa.symm⟩
  unfold traceMissed rise
  split <;> exact ⟨_, _, _, _, _, _, rfl⟩

theorem traceOnly_tracePut (ws : List W32) : TraceOnly s (s.tracePut ws) := by
  have hput : ∀ u : State, TraceOnly u (if u.sch.trace.length < 256 then u.traceIn ws else u.traceMissed) := fun u => by
    split
    · exact traceOnly_traceIn u ws
    · exact traceOnly_traceMissed u
  refine TraceOnly.trans ?_ (hput _)
  split
  · exact (traceOnly_traceIn s _).trans ⟨⟨_, _, _, _, _, _, rfl⟩, fun _ _ _ => rfl⟩
  · exact .refl s

theorem traceOnly_traceEv (ev core : Nat) (k : Ticket) : TraceOnly s (s.traceEv ev core k) := by
  have hepoch : TraceOnly s { s with sch := { s.sch with traceHi := hi32 s.ui } } :=
    ⟨⟨_, _, _, _, _, _, rfl⟩, fun _ _ _ => rfl⟩
  unfold traceEv
  split
  · refine TraceOnly.trans ?_ (traceOnly_tracePut _ _)
    split
    · exact .refl s
    · exact hepoch.trans (traceOnly_tracePut _ _)
  · exact .refl s

end

/-! ## Submission (R289, R292) -/

/-- The last word of a ticket is written. -/
abbrev lastWord (s : State) (v : W32) : State :=
  { s with sch := { s.sch with submit := tabPut 0 s.sch.submit 15 v } }

/-- The ticket of the words that stand. -/
abbrev ticketHere (s : State) : Ticket :=
  { words := (List.range 16).map (fun i => tabGet 0 s.sch.submit i), slot := s.freeSlot, age := s.sch.nextAge }

/-- A ticket has joined the window. -/
def accepted (s : State) (k : Ticket) : State :=
  (({ s with sch := { s.sch with
    tickets := s.sch.tickets ++ [k], nextAge := s.sch.nextAge + 1 } } : State).schSync).traceEv 1 0 k

/-- The ticket waits for no counter, or for one that is at 0. -/
def readyNow (s : State) (k : Ticket) : Bool := !k.waitEn || s.ctr k.waitCtr == 0

theorem readyNow_iff (s : State) (k : Ticket) : s.readyNow k = true ↔ k.waitEn = false ∨ s.ctr k.waitCtr = 0 := by
  simp only [readyNow, Bool.or_eq_true, Bool.not_eq_true', beq_iff_eq]

/-- The ticket as it joins the window; `bad`: its descriptor has a fault. -/
def joined (s : State) (k : Ticket) (bad : Bool) : Ticket :=
  { k with
    phase := if bad then .complete else if s.readyNow k then .ready else .waiting
    readyAt := s.mono
    status := if bad then 0x32 else 0
    signalled := bad }

section

variable (s : State) (k : Ticket) (bad : Bool)

@[simp] theorem joined_slot : (s.joined k bad).slot = k.slot := rfl
@[simp] theorem joined_age : (s.joined k bad).age = k.age := rfl
@[simp] theorem joined_site : (s.joined k bad).site = k.site := rfl
@[simp] theorem joined_sited : (s.joined k bad).sited = k.sited := rfl
@[simp] theorem joined_isPost : (s.joined k bad).isPost = k.isPost := rfl
@[simp] theorem joined_sigEn : (s.joined k bad).sigEn = k.sigEn := rfl
@[simp] theorem joined_sigCtr : (s.joined k bad).sigCtr = k.sigCtr := rfl

end

theorem joined_valid (s : State) :
    let k := s.ticketHere
    s.joined k false =
      { k with phase := if k.waitEn = false ∨ s.ctr k.waitCtr = 0 then .ready else .waiting, readyAt := s.mono } := by
  simp only [joined, readyNow_iff, Bool.false_eq_true, if_false]

/-- An accepted ticket whose descriptor has a fault: the fault is shown and raised, and the ticket completes. -/
def descFault (s : State) (k : Ticket) : State :=
  let u := (s.put schPg F.SCH_STS_DESC_ERR true).rise schPg X.SCH_DESC_ERR
  let u := (if k.sited && !k.isPost then u.siteAdd k.site k.age 0x32 0 else u).traceEv 5 0 k
  if k.sigEn = true then u.ctrDown k.sigCtr else u

theorem descFault_eq (s : State) (k : Ticket) :
    s.descFault k =
      let b := (s.put schPg F.SCH_STS_DESC_ERR true).rise schPg X.SCH_DESC_ERR
      let c := (if k.sited = true ∧ k.isPost = false then b.siteAdd k.site k.age 0x32 0 else b).traceEv 5 0 k
      if k.sigEn = true then c.ctrDown k.sigCtr else c := by
  simp only [descFault, Bool.and_eq_true, Bool.not_eq_true']

/-- The ticket of the words that stand is accepted; `bad`: its descriptor has a fault. -/
def takeIn (s : State) (bad : Bool) : State :=
  let k := s.joined s.ticketHere bad
  let u := s.accepted k
  if !bad && u.causeStatus.isSome then u.endTicket k.slot (u.causeStatus.getD 0)
  else if bad then u.descFault k
  else if s.readyNow s.ticketHere then u.traceEv 2 0 k else u

section

variable {s : State}

theorem submit_full {v : W32} (h : 1024 ≤ s.inflight) :
    s.submit v = ((s.lastWord v).put schPg F.SCH_STS_SUBMIT_OVF true).rise schPg X.SCH_SUBMIT_OVF := if_pos h

theorem submit_room {v : W32} (h : s.inflight < 1024) :
    s.submit v = (s.lastWord v).takeIn (descBad (s.lastWord v).ticketHere) := if_neg (Nat.not_le.2 h)

theorem takeIn_faulty (s : State) :
    let k := s.ticketHere
    let j := s.joined k true
    let b := ((s.accepted j).put schPg F.SCH_STS_DESC_ERR true).rise schPg X.SCH_DESC_ERR
    let c := (if k.sited = true ∧ k.isPost = false then b.siteAdd k.site k.age 0x32 0 else b).traceEv 5 0 j
    s.takeIn true = if k.sigEn = true then c.ctrDown k.sigCtr else c := by
  generalize hk : s.ticketHere = k
  simp only [takeIn, hk, descFault_eq, joined_site, joined_sited, joined_isPost, joined_age, joined_sigEn,
    joined_sigCtr]
  rfl

theorem submit_faulty {v : W32} (h : s.inflight < 1024) (hbad : descBad (s.lastWord v).ticketHere = true) :
    s.submit v = (s.lastWord v).takeIn true := by rw [submit_room h, hbad]

/-- The state in which a valid ticket has joined the window. -/
abbrev validIn (s : State) : State := s.accepted (s.joined s.ticketHere false)

theorem takeIn_caused {c : Nat} (hc : s.validIn.causeStatus = some c) :
    s.takeIn false = s.validIn.endTicket s.ticketHere.slot c := by
  simp [takeIn, hc]

theorem takeIn_free (hc : s.validIn.causeStatus = none) :
    s.takeIn false =
      if s.readyNow s.ticketHere = true then s.validIn.traceEv 2 0 (s.joined s.ticketHere false) else s.validIn := by
  simp [takeIn, hc]

theorem submit_valid {v : W32} (h : s.inflight < 1024) (hgood : descBad (s.lastWord v).ticketHere = false) :
    let a := s.lastWord v
    let k := a.ticketHere
    let j := a.joined k false
    let u := a.accepted j
    let ready := k.waitEn = false ∨ a.ctr k.waitCtr = 0
    (u.causeStatus = none → ready → s.submit v = u.traceEv 2 0 j) ∧
      (u.causeStatus = none → ¬ ready → s.submit v = u) ∧
      ∀ c, u.causeStatus = some c → s.submit v = u.endTicket k.slot c := by
  rw [submit_room h, hgood]
  exact ⟨fun hc hready => (takeIn_free hc).trans (if_pos ((readyNow_iff _ _).2 hready)),
    fun hc hwaits => (takeIn_free hc).trans (if_neg (mt (readyNow_iff _ _).1 hwaits)), fun c hc => takeIn_caused hc⟩

end

/-! ## Dependence counters (R293) -/

/-- The tickets that wait for a counter are ready. -/
def woken (s : State) (n : Nat) : State :=
  { s with sch := { s.sch with tickets := s.sch.tickets.map (fun k =>
      if k.phase = .waiting ∧ k.waitEn = true ∧ k.waitCtr = n then { k with phase := .ready, readyAt := s.mono }
      else k) } }

/-- A counter has a value. -/
def ctrTo (s : State) (n v : Nat) : State :=
  { s with sch := { s.sch with ctr := tabPut 0 s.sch.ctr n (BitVec.ofNat 16 v) } }

/-- A counter that is not at 0 has stepped down; the tickets that wait for it are ready where it comes to 0. -/
def steppedDown (s : State) (n : Nat) : State :=
  if s.ctr n = 1 then (s.ctrTo n 0).woken n else s.ctrTo n (s.ctr n - 1)

section

variable (s : State) (n : Nat)

theorem ctr_lt : s.ctr n < 2 ^ 16 := BitVec.isLt _

theorem ctr_ctrTo_same {v : Nat} (hv : v < 2 ^ 16) : (s.ctrTo n v).ctr n = v := by
  rw [ctr, ctrTo, tabGet_put_same, BitVec.toNat_ofNat, Nat.mod_eq_of_lt hv]

theorem ctr_ctrTo_other (v : Nat) {m : Nat} (h : m ≠ n) : (s.ctrTo n v).ctr m = s.ctr m :=
  congrArg BitVec.toNat (tabGet_put_other _ _ _ _ _ _ h.symm)

theorem ctr_woken (m : Nat) : (s.woken n).ctr m = s.ctr m := rfl

theorem wakes_iff (k : Ticket) :
    (k.phase == .waiting && k.waitEn && k.waitCtr == n) = true ↔
      k.phase = .waiting ∧ k.waitEn = true ∧ k.waitCtr = n := by
  simp only [Bool.and_eq_true, beq_iff_eq, and_assoc]

variable {s n}

theorem wakeup_none (h : s.ctr n ≠ 0) : s.wakeup n = s := if_pos h

theorem wakeup_zero (h : s.ctr n = 0) : TraceOnly (s.woken n) (s.wakeup n) := by
  unfold wakeup
  rw [if_neg (not_not.2 h)]
  simp only [wakes_iff]
  exact (TraceOnly.refl _).foldl (fun u k => traceOnly_traceEv u 2 0 k) _

theorem ctrDown_zero (h : s.ctr n = 0) :
    s.ctrDown n = (s.put schPg F.SCH_STS_CTR_UFL true).rise schPg X.SCH_CTR_UFL := if_pos h

theorem ctrDown_steps (h : s.ctr n ≠ 0) : TraceOnly (s.steppedDown n) (s.ctrDown n) := by
  have hput : s.ctrDown n = (s.ctrTo n (s.ctr n - 1)).wakeup n := if_neg h
  have hval := s.ctr_ctrTo_same n (v := s.ctr n - 1) (by have := s.ctr_lt n; omega)
  rw [hput, steppedDown]
  split
  next h1 =>
    rw [h1] at hval ⊢
    exact wakeup_zero hval
  next h1 =>
    rw [wakeup_none (by omega)]
    exact .refl _

theorem ctr_steppedDown_same : (s.steppedDown n).ctr n = s.ctr n - 1 := by
  unfold steppedDown
  split
  next h1 => rw [ctr_woken, ctr_ctrTo_same _ _ (by decide), h1]
  next => exact ctr_ctrTo_same _ _ (by have := s.ctr_lt n; omega)

theorem ctr_steppedDown_other {m : Nat} (h : m ≠ n) : (s.steppedDown n).ctr m = s.ctr m := by
  unfold steppedDown
  split
  next => rw [ctr_woken, ctr_ctrTo_other _ _ _ h]
  next => exact ctr_ctrTo_other _ _ _ h

theorem steppedDown_frame : ∃ sch, s.steppedDown n = { s with sch := sch } := by
  unfold steppedDown
  split <;> exact ⟨_, rfl⟩

theorem steppedDown_waits (h : 1 < s.ctr n) : s.steppedDown n = s.ctrTo n (s.ctr n - 1) := if_neg (by omega)

theorem steppedDown_wakes (h : s.ctr n = 1) : s.steppedDown n = (s.ctrTo n 0).woken n := if_pos h

/-- SCH_CTR_VAL sets the counter that SCH_CTR_IDX names, where the register takes the value. -/
theorem ctrSet_eq (s : State) (v : W32) :
    s.ctrSet v =
      let r := writeAt s schPg 0x114 v false
      if r.2 = true then r.1.ctrPut (r.1.get schPg F.SCH_CTR_IDX_IDX) (fget v 15 0) else r.1 := rfl

/-! ## EVT inputs (R294) -/

/-- The level of an EVT pin after its edge. -/
def evtLevel (s : State) (n : Nat) (rising : Bool) : State :=
  { s with evtIn := if rising then setBit s.evtIn n else clearBit s.evtIn n }

/-- The pin is an output, or its edge is not the one that EDGE selects. -/
abbrev EdgeIgnored (s : State) (n : Nat) (rising : Bool) : Prop :=
  s.evtIsOut n = true ∨ s.flag schPg (F.SCH_EVT_CTL_EDGE.off (4 * n)) = rising

theorem edgeIgnored_iff (s : State) (n : Nat) (rising : Bool) :
    (s.evtIsOut n || rising == s.flag schPg (F.SCH_EVT_CTL_EDGE.off (4 * n))) = true ↔ s.EdgeIgnored n rising := by
  rw [Bool.or_eq_true, beq_iff_eq, eq_comm (a := rising)]

theorem evtEdge_eq (s : State) (n : Nat) (rising : Bool) :
    s.evtEdge n rising =
      let a := s.evtLevel n rising
      let b := if s.flag schPg (F.SCH_EVT_CTL_CTR_EN.off (4 * n)) = true then
        a.ctrDown (s.get schPg (F.SCH_EVT_CTL_CTR.off (4 * n))) else a
      if s.EdgeIgnored n rising then a
      else (b.seqEvent 7 n).trgInput (fun i d => { d with evt := d.evt ++ [(i, n)] }) :=
  if_congr (edgeIgnored_iff s n rising) rfl rfl

end

/-! ## Dispatch (R295 to R297) -/

/-- The core that R295 chooses for a ready ticket at a dispatch. -/
abbrev coreNow (s : State) (k : Ticket) : Option Nat := s.chooseCore k (k.late || k.retries != 0)

theorem lst_apart {m n : Nat} (h : m ≠ n) (o : Nat) : rkey (lst m) o ≠ rkey (lst n) o := by
  unfold rkey lst pg
  omega

theorem lst_apart_sch (n : Nat) : rkey (lst n) 0x104 ≠ rkey schPg 0x010 := by
  simp only [rkey, lst, pg, schPg, T.lst, T.sch]
  omega

theorem TraceOnly.coreIdle {s t : State} (h : TraceOnly s t) (n : Nat) : t.coreIdle n = s.coreIdle n := by
  have hmode : t.askMode = s.askMode := congrArg (fun v => decide (v ≠ 0)) (h.get (p := schPg) (rkey_ofs (by decide)))
  have hstate : t.coreState n = s.coreState n := h.get (lst_apart_sch n)
  rw [State.coreIdle, hmode, hstate, State.coreIdle]

section

variable {s : State}

theorem place_idle {k : Ticket} {n : Nat} (h : s.coreIdle n = true) :
    s.place k n = (s.traceEv 3 n k).coreTake n k :=
  if_pos (((traceOnly_traceEv s 3 n k).coreIdle n).trans h)

theorem place_busy {k : Ticket} {n : Nat} (h : s.coreIdle n = false) :
    s.place k n =
      ((s.traceEv 3 n k).modTicket k.slot (fun k => { k with phase := .slot n })).put (lst n) F.LST_STS_SLOT_FULL
        true :=
  if_neg (Bool.eq_false_iff.1 (((traceOnly_traceEv s 3 n k).coreIdle n).trans h))

theorem dispatch_none (h : ∀ k ∈ s.readyList, s.coreNow k = none) : s.dispatch = s := by
  have hnone : s.readyList.findSome? (fun k => (s.coreNow k).map (fun n => (k, n))) = none :=
    List.findSome?_eq_none_iff.2 fun k hk => by rw [h k hk]; rfl
  rw [dispatch, hnone]

theorem dispatch_first {a b : List Ticket} {k : Ticket} {n : Nat} (hl : s.readyList = a ++ k :: b)
    (ha : ∀ j ∈ a, s.coreNow j = none) (hk : s.coreNow k = some n) : s.dispatch = s.place k n := by
  have hbefore : a.findSome? (fun k => (s.coreNow k).map (fun n => (k, n))) = none :=
    List.findSome?_eq_none_iff.2 fun j hj => by rw [ha j hj]; rfl
  have hfirst : s.readyList.findSome? (fun k => (s.coreNow k).map (fun n => (k, n))) = some (k, n) := by
    rw [hl, List.findSome?_append, hbefore, List.findSome?_cons, hk]
    rfl
  rw [dispatch, hfirst]

/-! ## The affinity wait (R295) -/

/-- The affinity wait of a ready ticket has come to its end. -/
def affLate (s : State) (slot : Nat) (k : Ticket) : State :=
  (s.upToMono (k.readyAt + s.get schPg F.SCH_MODE_AFF_WAIT * 4096)).modTicket slot (fun k => { k with late := true })

section

variable {slot : Nat}

theorem affExpire_none (h : ∀ k, s.ticketAt slot = some k → k.phase ≠ .ready) : s.affExpire slot = s := by
  unfold affExpire
  cases hk : s.ticketAt slot with
  | none => rfl
  | some k => exact if_neg (h k hk)

variable {k : Ticket} (hk : s.ticketAt slot = some k) (hready : k.phase = .ready)
include hk hready

theorem affExpire_stays (h : (s.affLate slot k).chooseCore k true = none) : s.affExpire slot = s.affLate slot k := by
  unfold affLate at h ⊢
  simp only [affExpire, hk, hready, if_true, h]

theorem affExpire_placed {n : Nat} (h : (s.affLate slot k).chooseCore k true = some n) :
    s.affExpire slot = (s.affLate slot k).place k n := by
  unfold affLate at h ⊢
  simp only [affExpire, hk, hready, if_true, h]

end

/-! ## The switch to ask-and-block mode (R297) -/

/-- A ticket in a slot is back in the ready list. -/
def slotLeft (k : Ticket) : Ticket :=
  match k.phase with
  | .slot _ => { k with phase := .ready }
  | _ => k

theorem slotLeft_eq (k : Ticket) : slotLeft k = if k.slotCore.isSome then { k with phase := .ready } else k := by
  unfold slotLeft Ticket.slotCore
  cases k.phase <;> rfl

/-- A core's slot is empty. -/
def slotEmptied (s : State) (n : Nat) : State :=
  if s.flag (lst n) F.LST_STS_SLOT_FULL then s.put (lst n) F.LST_STS_SLOT_FULL false else s

/-- An idle core asks for a ticket. -/
def idleAsks (s : State) (n : Nat) : State := if s.coreState n = 0 then s.set (lst n) F.LST_STS_STATE 2 else s

theorem dispatchSwitch_prefetch (h : s.askMode = false) : s.dispatchSwitch = s := if_pos (by rw [h]; rfl)

theorem dispatchSwitch_ask (h : s.askMode = true) :
    s.dispatchSwitch = (List.range 32).foldl (fun u n => (u.slotEmptied n).idleAsks n)
      { s with sch := { s.sch with tickets := s.sch.tickets.map slotLeft } } :=
  if_neg (by rw [h]; decide)

end

/-- Core `n` shows what it showed in `s` once the switch has reached it: its slot empty, and ASK where it was idle. -/
def Asking (s t : State) (n : Nat) : Prop :=
  t.flag (lst n) F.LST_STS_SLOT_FULL = false ∧ (s.coreState n = 0 → t.coreState n = 2) ∧
    (s.coreState n ≠ 0 → t.coreState n = s.coreState n)

/-- `t` differs from `s` in registers only, and what the other cores' pages show is as it was. -/
def CoreOnly (n : Nat) (s t : State) : Prop :=
  (∃ rs, t = { s with regs := rs }) ∧ ∀ m, m ≠ n → t.rd (lst m) 0x104 = s.rd (lst m) 0x104

section

variable (s : State) (n : Nat)

theorem slotEmptied_flag : (s.slotEmptied n).flag (lst n) F.LST_STS_SLOT_FULL = false := by
  unfold slotEmptied
  split
  next => exact flag_put_same _ _ _ _ (by decide) rfl
  next h => exact Bool.eq_false_iff.2 h

theorem slotEmptied_coreState : (s.slotEmptied n).coreState n = s.coreState n := by
  unfold slotEmptied
  split
  · exact get_set_beside _ _ _ _ _ (by decide)
  · rfl

theorem idleAsks_flag : (s.idleAsks n).flag (lst n) F.LST_STS_SLOT_FULL = s.flag (lst n) F.LST_STS_SLOT_FULL := by
  unfold idleAsks
  split
  · exact flag_set_beside _ _ _ _ _ (by decide)
  · rfl

theorem idleAsks_idle (h : s.coreState n = 0) : (s.idleAsks n).coreState n = 2 := by
  rw [idleAsks, if_pos h, coreState, get_set_same _ _ _ _ (by decide) (by decide)]
  rfl

theorem asking_core : Asking s ((s.slotEmptied n).idleAsks n) n := by
  refine ⟨(idleAsks_flag _ n).trans (s.slotEmptied_flag n), fun h => ?_, fun h => ?_⟩
  · exact idleAsks_idle _ n ((s.slotEmptied_coreState n).trans h)
  · have hbusy : (s.slotEmptied n).coreState n ≠ 0 := by rwa [slotEmptied_coreState]
    rw [idleAsks, if_neg hbusy, slotEmptied_coreState]

theorem coreOnly_set (f : Fld) (v : Nat) (hf : f.ofs = 0x104) : CoreOnly n s (s.set (lst n) f v) :=
  ⟨⟨_, rfl⟩, fun _ hm => rd_set_other _ _ _ _ _ _ (hf ▸ lst_apart hm.symm _)⟩

theorem coreOnly_refl : CoreOnly n s s := ⟨⟨_, rfl⟩, fun _ _ => rfl⟩

end

section

variable {s t : State} {n : Nat}

theorem CoreOnly.trans {u : State} (h : CoreOnly n s t) (h' : CoreOnly n t u) : CoreOnly n s u := by
  obtain ⟨⟨_, rfl⟩, hrd⟩ := h
  obtain ⟨⟨_, rfl⟩, hrd'⟩ := h'
  exact ⟨⟨_, rfl⟩, fun m hm => (hrd' m hm).trans (hrd m hm)⟩

theorem coreOnly_asks (s : State) (n : Nat) : CoreOnly n s ((s.slotEmptied n).idleAsks n) := by
  have hslot : CoreOnly n s (s.slotEmptied n) := by
    unfold slotEmptied
    split
    · exact coreOnly_set _ _ _ _ rfl
    · exact coreOnly_refl _ _
  refine hslot.trans ?_
  unfold idleAsks
  split
  · exact coreOnly_set _ _ _ _ rfl
  · exact coreOnly_refl _ _

/-- What a core shows is one word of its page. -/
theorem Asking.congr {s' t' : State} (h : Asking s t n) (hs : s'.rd (lst n) 0x104 = s.rd (lst n) 0x104)
    (ht : t'.rd (lst n) 0x104 = t.rd (lst n) 0x104) : Asking s' t' n := by
  have hbefore : s'.coreState n = s.coreState n := congrArg (fget · 1 0) hs
  have hafter : t'.coreState n = t.coreState n := congrArg (fget · 1 0) ht
  have hslot : t'.flag (lst n) F.LST_STS_SLOT_FULL = t.flag (lst n) F.LST_STS_SLOT_FULL :=
    congrArg (fun w => decide (fget w 2 2 ≠ 0)) ht
  rwa [Asking, hbefore, hafter, hslot]

end

/-- The first `c` cores have been reached, the others show what they showed. -/
theorem cores_asking (s : State) (c : Nat) :
    let t := (List.range c).foldl (fun u n => (u.slotEmptied n).idleAsks n) s
    (∃ rs, t = { s with regs := rs }) ∧ (∀ m, m < c → Asking s t m) ∧
      ∀ m, c ≤ m → t.rd (lst m) 0x104 = s.rd (lst m) 0x104 := by
  induction c with
  | zero => exact ⟨⟨_, rfl⟩, fun m hm => absurd hm (Nat.not_lt_zero m), fun _ _ => rfl⟩
  | succ c ih =>
    rw [List.range_succ, List.foldl_append]
    revert ih
    generalize (List.range c).foldl (fun u n => (u.slotEmptied n).idleAsks n) s = u
    rintro ⟨⟨rs, hframe⟩, hasking, hrest⟩
    obtain ⟨⟨rs', hframe'⟩, hothers⟩ := coreOnly_asks u c
    refine ⟨⟨rs', ?_⟩, fun m hm => ?_, fun m hm => ?_⟩
    · exact hframe'.trans (by rw [hframe])
    · by_cases hmc : m = c
      · subst hmc
        exact (asking_core u m).congr (hrest m (Nat.le_refl m)).symm rfl
      · exact (hasking m (by omega)).congr rfl (hothers m hmc)
    · exact (hothers m (by omega)).trans (hrest m (by omega))

/-- What the switch to ask-and-block mode leaves. -/
theorem dispatchSwitch_shows {s : State} (h : s.askMode = true) :
    let t := s.dispatchSwitch
    t.sch.tickets = s.sch.tickets.map (fun k => if k.slotCore.isSome then { k with phase := .ready } else k) ∧
      (∀ n, n < 32 → Asking s t n) ∧ t.hbm = s.hbm ∧ t.now = s.now := by
  obtain ⟨⟨rs, hframe⟩, hasking, -⟩ :=
    cores_asking { s with sch := { s.sch with tickets := s.sch.tickets.map slotLeft } } 32
  rw [← dispatchSwitch_ask h] at hframe hasking
  refine ⟨?_, fun n hn => (hasking n hn).congr rfl rfl, ?_, ?_⟩
  · rw [hframe]
    exact List.map_congr_left fun k _ => slotLeft_eq k
  · rw [hframe]
  · rw [hframe]

end State

end Sys2Proof.Machine

namespace Sys2Proof

open Sys2Proof.Machine Sys2Proof.Machine.State

section

variable {s t : State}

section

variable {v : W32} (hR : Reaches s schPg)
include hR

theorem does_ticketSubmit (h : s.submit v = t) : Does (.ticketSubmit v) s t :=
  Does.of rfl ((onPage_reaches _ _ _ hR).trans h)

theorem does_ctrDec (h : s.ctrDown (fget v 11 0) = t) : Does (.ctrDec v) s t :=
  Does.of rfl ((onPage_reaches _ _ _ hR).trans h)

theorem does_ctrSet (h : s.ctrSet v = t) : Does (.ctrSet v) s t := Does.of rfl ((onPage_reaches _ _ _ hR).trans h)

end

theorem does_evtEdge {n : Fin 8} {rising : Bool} (h : s.evtEdge n.val rising = t) : Does (.evtEdge n rising) s t :=
  Does.of rfl h

theorem does_dispatch (h : s.dispatch = t) : Does .dispatch s t := Does.of rfl h

theorem does_affWaitExpiry {i : Fin 1024} (h : s.affExpire i.val = t) : Does (.affWaitExpiry i) s t := Does.of rfl h

theorem does_dispatchSwitch (h : s.dispatchSwitch = t) : Does .dispatchSwitch s t := Does.of rfl h

end

/-- Settles O35: the submission of a ticket, the counters and the pins that wake one, and the core that it goes to. -/
theorem ticketsAreSubmittedAndDispatched : Obligations.TicketsAreSubmittedAndDispatched := by
  unfold Obligations.TicketsAreSubmittedAndDispatched
  refine ⟨?submit, ⟨fun s v hR => ⟨?underflow, ?steps, ?set⟩, ?edge⟩, ?none, ?first, ?wait, ?prefetch, ?switch⟩
  case submit =>
    refine fun s v hR => ⟨fun h => does_ticketSubmit hR (submit_full h),
      fun h hbad => does_ticketSubmit hR ((submit_faulty h hbad).trans (takeIn_faulty _)), fun h hgood => ?_⟩
    obtain ⟨hready, hwaits, hends⟩ := submit_valid h hgood
    rw [joined_valid] at hready hwaits hends
    exact ⟨fun hc hr => does_ticketSubmit hR (hready hc hr), fun hc hr => does_ticketSubmit hR (hwaits hc hr),
      fun c hc => does_ticketSubmit hR (hends c hc)⟩
  case underflow => exact fun h => does_ctrDec hR (ctrDown_zero h)
  case steps =>
    intro h
    have hstep := ctrDown_steps h
    obtain ⟨sch, hframe⟩ := steppedDown_frame (s := s) (n := fget v 11 0)
    refine ⟨_, does_ctrDec hR rfl, (hstep.ctr _).trans ctr_steppedDown_same,
      fun m hm => (hstep.ctr m).trans (ctr_steppedDown_other hm), fun p a hpa => (hstep.2 p a hpa).trans ?_,
      hstep.hbm.trans ?_, fun hn => hstep.tickets.trans ?_, fun hn => hstep.tickets.trans ?_⟩
    · rw [hframe]
      rfl
    · rw [hframe]
    · rw [steppedDown_waits hn]
      rfl
    · rw [steppedDown_wakes hn]
      rfl
  case set =>
    exact ⟨fun hok => does_ctrSet hR ((ctrSet_eq s v).trans (if_pos hok)),
      fun hno => does_ctrSet hR ((ctrSet_eq s v).trans (if_neg (Bool.eq_false_iff.1 hno)))⟩
  case edge =>
    exact fun s n rising => ⟨fun hoff => does_evtEdge ((evtEdge_eq s n rising).trans (if_pos hoff)),
      fun hon => does_evtEdge ((evtEdge_eq s n rising).trans (if_neg hon))⟩
  case none => exact fun s h => does_dispatch (dispatch_none h)
  case first =>
    exact fun s a b k n hl ha hk =>
      ⟨fun hidle => does_dispatch ((dispatch_first hl ha hk).trans (place_idle hidle)),
        fun hbusy => does_dispatch ((dispatch_first hl ha hk).trans (place_busy hbusy))⟩
  case wait =>
    exact fun s i => ⟨fun h => does_affWaitExpiry (affExpire_none h),
      fun k hk hready => ⟨fun h => does_affWaitExpiry (affExpire_stays hk hready h),
        fun n h => does_affWaitExpiry (affExpire_placed hk hready h)⟩⟩
  case prefetch => exact fun s h => does_dispatchSwitch (dispatchSwitch_prefetch h)
  case switch =>
    exact fun s h => ⟨_, does_dispatchSwitch rfl, dispatchSwitch_shows h⟩

end Sys2Proof

/-!
What every command keeps (O4, O3, O6): the own effect of a command keeps the queue of commands, the bound of the fault
log and the canonical form of HBM (`Keeps`), and every byte of HBM where the command stores nothing.
-/
namespace Sys2Proof.Machine

open Sys2Proof

/-- The command has an own effect, which keeps what `Keeps` names, and the bytes of HBM unless it may store. -/
def OwnKept (c : Instr) (s : State) : Prop := ∃ u, Does c s u ∧ Keeps (mayStore c) s u

theorem OwnKept.of {c : Instr} {s u : State} (h : exec c s = done u) (k : Keeps (mayStore c) s u) : OwnKept c s :=
  ⟨u, h, k⟩

section
variable {w : Bool} {s : State}

theorem keeps_page {p : Nat} {f : State → State} (hf : ∀ t, Keeps w s t → Keeps w s (f t)) :
    Keeps w s (s.onPage p f) := keeps_onPage _ _ _ hf (keeps_refl _ _)

theorem keeps_link {read : Bool} {f : State → State} (hf : ∀ t, Keeps w s t → Keeps w s (f t)) :
    Keeps w s (s.onLink read f) := keeps_onLink _ _ _ hf (keeps_refl _ _)

theorem keeps_busRead {f : State → State × W32} (hf : ∀ t, Keeps w s t → Keeps w s (f t).1) :
    Keeps w s (s.hostRead f) := keeps_hostRead _ _ hf (keeps_refl _ _)

theorem keeps_read {p : Nat} {f : State → State × W32} (hf : ∀ t, Keeps w s t → Keeps w s (f t).1) :
    Keeps w s (s.readPage p f) := keeps_readPage _ _ _ hf (keeps_refl _ _)

theorem keeps_turn {q op : Nat} {f : State → Nat → Nat → Nat → State}
    (hf : ∀ t x y z, Keeps w s t → Keeps w s (f t x y z)) : Keeps w s (s.aneSeq q op f) :=
  keeps_aneSeq _ _ _ _ hf (keeps_refl _ _)

/-- A transfer that WHEN 3 leaves to the microcode joins the engine's transfers (R278). -/
theorem keeps_xferBegun {q i : Nat} {t : State} (h : Keeps w s t) :
    Keeps w s (let d := t.aneOf q
      match d.job with
      | some (x, _) => if i < 3 ∧ xferWhen x i = 3 then t.setAne q { d with xfers := d.xfers ++ [i] } else t
      | none => t) := by
  dsimp only
  split
  · exact keeps_ite (keeps_setAne _ _ _ h) h
  · exact h

/-- A vector boundary of the group of an eyelet, where its group has one. -/
theorem keeps_groupTurn {e : Nat} {due : Group → Prop} [DecidablePred due] :
    Keeps w s (match s.groupOf e with
      | some g => if due g then s.groupVector g else s
      | none => s) := by
  split
  · exact keeps_ite (keeps_groupVector _ _ (keeps_refl _ _)) (keeps_refl _ _)
  · exact keeps_refl _ _

end

/-- Every command but PWR_FAIL is its own effect and then the collector. -/
theorem ownKept (c : Instr) (s : State) (hc : c ≠ .pwrFail) : OwnKept c s := by
  have k {w : Bool} : Keeps w s s := keeps_refl w s
  cases c with
  | registerWrite _ _ _ _ => exact .of rfl (keeps_link (fun _ h => keeps_hostWrite _ _ _ _ _ h))
  | rcRead _ => exact .of rfl (keeps_busRead (fun _ h => keeps_bar0Read _ _ h))
  | wideRegisterLoRead _ => exact .of rfl (keeps_busRead (fun _ h => keeps_bar0Read _ _ h))
  | pgEnableWrite _ _ => exact .of rfl (keeps_page (fun _ h => keeps_pgCtlWrite _ _ _ h))
  | blockReset _ => exact .of rfl (keeps_page (fun _ h => keeps_pgCtlWrite _ _ _ h))
  | blockResetDone _ _ => exact .of rfl (keeps_blockResetDone _ _ _ k)
  | cfgLock _ => exact .of rfl (keeps_page (fun _ h => keeps_pgCtlWrite _ _ _ h))
  | pgCommit _ => exact .of rfl (keeps_page (fun _ h => keeps_pgCommit _ _ _ h))
  | tableCommit _ => exact .of rfl (keeps_tableCommit _ _ k)
  | shadowCopyDone _ => exact .of rfl (keeps_copyDone _ _ k)
  | faultClear _ _ => exact .of rfl (keeps_link (fun _ h => keeps_ite (keeps_fltClear _ _ _ h) h))
  | fltClassWrite _ _ => exact .of rfl (keeps_page (fun _ h => keeps_clsWrite _ _ _ h))
  | fltRxnWrite _ _ => exact .of rfl (keeps_page (fun _ h => keeps_rxnWrite _ _ _ h))
  | trapHandler _ _ => exact .of rfl (keeps_trapDone _ _ _ k)
  | faultChipReset => exact .of rfl (keeps_faultChipReset _ k)
  | fltLogPop _ => exact .of rfl (keeps_busRead (fun _ h => keeps_logPop _ _ h))
  | leaveDev => exact .of rfl (keeps_page (fun _ h => keeps_heelCtl _ _ h))
  | leaveEye _ => exact .of rfl (keeps_page (fun _ h => keeps_heelCtl _ _ h))
  | heelLeaveDone _ => exact .of rfl (keeps_heelLeaveDone _ _ k)
  | refinLoss => exact .of rfl (keeps_refLoss _ k)
  | refinReturn _ => exact .of rfl (keeps_refReturn _ _ k)
  | refLong => exact .of rfl (keeps_refLong _ k)
  | fmonWindow _ => exact .of rfl (keeps_fmonWindow _ _ k)
  | pllLock => exact .of rfl (keeps_pllLock _ k)
  | pllUnlock _ => exact .of rfl (keeps_pllUnlock _ _ k)
  | timelineStart => exact .of rfl (keeps_timelineStart _ k)
  | alignArm _ => exact .of rfl (keeps_page (fun _ h => keeps_laceCtl _ _ h))
  | disarm _ => exact .of rfl (keeps_page (fun _ h => keeps_laceCtl _ _ h))
  | align _ _ => exact .of rfl (keeps_laceIn _ _ _ k)
  | zeroingEdge => exact .of rfl (keeps_zeroingEdge _ k)
  | alignCheck => exact .of rfl (keeps_checkEdge _ k)
  | start _ _ => exact .of rfl (keeps_laceIn _ _ _ k)
  | count _ _ => exact .of rfl (keeps_laceIn _ _ _ k)
  | trig _ _ => exact .of rfl (keeps_laceIn _ _ _ k)
  | laceCrc _ _ => exact .of rfl (keeps_laceIn _ _ _ k)
  | rsvdType _ _ => exact .of rfl (keeps_laceIn _ _ _ k)
  | goLaceTx _ => exact .of rfl (keeps_page (fun _ h => keeps_laceTx _ _ h))
  | laceTxDone => exact .of rfl (keeps_laceSent _ k)
  | capArm _ => exact .of rfl (keeps_page (fun _ h => keeps_refcalCtl _ _ h))
  | refcalEdge _ => exact .of rfl (keeps_refcalEdge _ _ k)
  | trackWindow _ => exact .of rfl (keeps_trackWindow _ _ k)
  | trackLocked _ => exact .of rfl (keeps_trackLocked _ _ k)
  | trackLost _ => exact .of rfl (keeps_trackLost _ _ k)
  | trackReturnDone _ => exact .of rfl (keeps_trackDone _ _ k)
  | vectorBoundary _ => exact .of rfl (keeps_groupTurn)
  | stitch _ => exact .of rfl (keeps_placeDue _ _ k)
  | wftWrite _ _ => exact .of rfl (keeps_page (fun _ h => keeps_wftWrite _ _ _ h))
  | wftRead _ => exact .of rfl (keeps_read (fun _ h => keeps_wftRead _ _ h))
  | dwellStart _ => exact .of rfl (keeps_dwellStart _ _ k)
  | checkStitch _ => exact .of rfl (keeps_checkStitch _ _ k)
  | mismatchDecision _ _ _ _ _ _ => exact .of rfl (keeps_mismatch _ _ _ _ _ _ _ k)
  | takeover _ => exact .of rfl (keeps_takeover _ _ k)
  | goVampLoad _ _ => exact .of rfl (keeps_page (fun _ h => keeps_vampLoad _ _ _ h))
  | vampLoadDone _ => exact .of rfl (keeps_loadDone _ _ k)
  | vampWdataWrite _ _ => exact .of rfl (keeps_page (fun _ h => keeps_wdataWrite _ _ _ h))
  | vampWdataRead _ => exact .of rfl (keeps_read (fun _ h => keeps_wdataRead _ _ h))
  | granuleComplete _ _ => exact .of rfl (keeps_granComplete _ _ _ k)
  | presenceCheck _ => exact .of rfl (keeps_presence _ _ k)
  | slackRestart _ => exact .of rfl (keeps_page (fun _ h => keeps_set _ _ _ _ h))
  | segWindowWrite _ _ _ => exact .of rfl (keeps_link (fun _ h => keeps_segWrite _ _ _ _ h))
  | go _ _ => exact .of rfl (keeps_page (fun _ h => keeps_seqCtl _ _ _ h))
  | seqStop _ _ => exact .of rfl (keeps_page (fun _ h => keeps_seqCtl _ _ _ h))
  | abort _ _ => exact .of rfl (keeps_page (fun _ h => keeps_seqCtl _ _ _ h))
  | seqStartTime _ => exact .of rfl (keeps_groupTurn)
  | swflag _ _ => exact .of rfl (keeps_page (fun _ h => keeps_seqFlag _ _ _ h))
  | syncAtArm _ _ => exact .of rfl (keeps_page (fun _ h => keeps_syncWrite _ _ _ h))
  | syncAtReached _ => exact .of rfl (keeps_syncReached _ _ k)
  | failArrival => exact .of rfl (keeps_failArrive _ k)
  | siteSummaryFinal _ => exact .of rfl (keeps_siteFinal _ _ k)
  | flogWrite _ _ => exact .of rfl (keeps_flogWrite _ _ _ k)
  | logDone _ => exact .of rfl (keeps_flogDone _ _ k)
  | evtPulseEnd _ => exact .of rfl (keeps_evtPulseEnd _ _ k)
  | goDds _ _ => exact .of rfl (keeps_page (fun _ h => keeps_ddsCtl _ _ _ h))
  | ddsStop _ _ => exact .of rfl (keeps_page (fun _ h => keeps_ddsCtl _ _ _ h))
  | ddsStartTime _ => exact .of rfl (keeps_ddsStart _ _ k)
  | hop _ => exact .of rfl (keeps_hop _ _ k)
  | hopPush _ _ => exact .of rfl (keeps_page (fun _ h => keeps_hopPush _ _ _ h))
  | ddsListWrite _ _ => exact .of rfl (keeps_page (fun _ h => keeps_ddsListWrite _ _ _ h))
  | ddsListRead _ => exact .of rfl (keeps_read (fun _ h => keeps_ddsListRead _ _ h))
  | pelTxGo _ _ => exact .of rfl (keeps_page (fun _ h => keeps_pelTx _ _ _ h))
  | pelFrameStart _ => exact .of rfl (keeps_pelStart _ _ k)
  | pelFrameDone _ _ => exact .of rfl (keeps_pelDone _ _ _ k)
  | cmpTransition _ _ _ _ => exact .of rfl (keeps_cmpChange _ _ _ _ _ k)
  | stampArrival => exact .of rfl (keeps_stampArrive _ k)
  | streamBurstWrite _ _ => exact .of rfl (keeps_streamBurst _ _ _ k)
  | lingerExpiry _ _ => exact .of rfl (keeps_lingerTail _ _ _ k)
  | flush _ _ _ => exact .of rfl (keeps_page (fun _ h => keeps_tdcCtl _ _ _ _ h))
  | gateOpen _ _ => exact .of rfl (keeps_gateOpen _ _ _ k)
  | gateClose _ _ => exact .of rfl (keeps_gateClose _ _ _ k)
  | iuArm _ _ _ => exact .of rfl (keeps_page (fun _ h => keeps_iuCtl _ _ _ h))
  | iuDisarm _ _ _ => exact .of rfl (keeps_page (fun _ h => keeps_iuCtl _ _ _ h))
  | iuTimeout _ _ => exact .of rfl (keeps_iuTimeout _ _ k)
  | iuGateEnd _ _ => exact .of rfl (keeps_iuGateEnd _ _ k)
  | iuResultPop _ _ _ => exact .of rfl (keeps_read (fun _ h => keeps_iuPop _ _ (keeps_ite (keeps_iuPoison _ _ h) h)))
  | trgArm _ _ => exact .of rfl (keeps_page (fun _ h => keeps_trgCtl _ _ _ h))
  | trgDisarm _ _ => exact .of rfl (keeps_page (fun _ h => keeps_trgCtl _ _ _ h))
  | force _ _ => exact .of rfl (keeps_page (fun _ h => keeps_trgCtl _ _ _ h))
  | trgStart _ => exact .of rfl (keeps_trgStart _ _ k)
  | trgSample _ => exact .of rfl (keeps_trgSample _ _ k)
  | acqRecordWrite _ _ _ _ => exact .of rfl (keeps_acqDrain _ _ _ _ _ k)
  | decimDown _ => exact .of rfl (keeps_decimDown _ _ k)
  | aneJobTake _ _ => exact .of rfl (keeps_aneTake _ _ _ k)
  | aneXferDone _ _ => exact .of rfl (keeps_xferDone _ _ _ k)
  | aneNext _ => exact .of rfl (keeps_turn (fun _ _ _ _ h => keeps_aneNext _ _ _ h))
  | aneJump _ => exact .of rfl (keeps_turn (fun _ _ _ _ h => keeps_aneGo _ _ _ _ h))
  | aneBlock _ => exact .of rfl (keeps_turn (fun _ _ _ _ h => keeps_aneBlock _ _ _ _ _ _ h))
  | aneBranch _ =>
    exact .of rfl (keeps_turn (fun _ _ _ _ h =>
      keeps_ite (keeps_aneGo _ _ _ _ (keeps_aneCond _ _ _ h)) (keeps_aneNext _ _ _ (keeps_aneCond _ _ _ h))))
  | aneCall _ =>
    exact .of rfl (keeps_turn (fun _ _ _ _ h => keeps_ite (keeps_aneEnd _ _ _ h) (keeps_aneGo _ _ _ _ h)))
  | aneRet _ => exact .of rfl (keeps_turn (fun _ _ _ _ h => keeps_aneRet _ _ h))
  | aneBexp _ => exact .of rfl (keeps_turn (fun _ _ _ _ h => keeps_aneNext _ _ _ (keeps_aneBexp _ _ _ _ h)))
  | aneLdp _ =>
    exact .of rfl (keeps_turn (fun _ _ _ _ h =>
      keeps_ite (keeps_aneNext _ _ _ (keeps_aneLdp _ _ _ _ h)) (keeps_aneEnd _ _ _ (keeps_aneLdp _ _ _ _ h))))
  | aneXfer _ => exact .of rfl (keeps_turn (fun _ _ _ _ h => keeps_aneNext _ _ _ (keeps_xferBegun h)))
  | aneWait _ =>
    exact .of rfl (keeps_ite (keeps_ite (keeps_aneStall _ _ _ k) k)
      (keeps_turn (fun _ _ _ _ h => keeps_aneNext _ _ _ h)))
  | aneDone _ => exact .of rfl (keeps_turn (fun _ _ _ _ h => keeps_aneDone _ _ h))
  | aneSetk _ => exact .of rfl (keeps_turn (fun _ _ _ _ h => keeps_aneNext _ _ _ (keeps_setAne _ _ _ h)))
  | aneNop _ => exact .of rfl (keeps_ite (keeps_laneDone _ _ _ _ _ _ k) k)
  | aneMul _ => exact .of rfl (keeps_laneAcc _ _ _ _ _ _ k)
  | aneMac _ => exact .of rfl (keeps_laneAcc _ _ _ _ _ _ k)
  | aneMsu _ => exact .of rfl (keeps_laneAcc _ _ _ _ _ _ k)
  | aneClra _ => exact .of rfl (keeps_laneAcc _ _ _ _ _ _ k)
  | aneMova _ => exact .of rfl (keeps_laneMova _ _ k)
  | aneAdd _ => exact .of rfl (keeps_laneDst _ _ _ _ _ _ k)
  | aneSub _ => exact .of rfl (keeps_laneDst _ _ _ _ _ _ k)
  | aneAbs _ => exact .of rfl (keeps_laneDst _ _ _ _ _ _ k)
  | aneMin _ => exact .of rfl (keeps_laneDst _ _ _ _ _ _ k)
  | aneMax _ => exact .of rfl (keeps_laneDst _ _ _ _ _ _ k)
  | aneAnd _ => exact .of rfl (keeps_laneDst _ _ _ _ _ _ k)
  | aneOr _ => exact .of rfl (keeps_laneDst _ _ _ _ _ _ k)
  | aneXor _ => exact .of rfl (keeps_laneDst _ _ _ _ _ _ k)
  | aneShl _ => exact .of rfl (keeps_laneDst _ _ _ _ _ _ k)
  | aneShr _ => exact .of rfl (keeps_laneDst _ _ _ _ _ _ k)
  | aneMov _ => exact .of rfl (keeps_laneDst _ _ _ _ _ _ k)
  | aneCgt _ => exact .of rfl (keeps_laneCmp _ _ _ _ k)
  | aneCeq _ => exact .of rfl (keeps_laneCmp _ _ _ _ k)
  | aneRsum _ => exact .of rfl (keeps_laneRsum _ _ k)
  | aneGetb _ => exact .of rfl (keeps_laneDst _ _ _ _ _ _ k)
  | aneLane _ => exact .of rfl (keeps_laneDst _ _ _ _ _ _ k)
  | aneLd16 _ _ => exact .of rfl (keeps_aneLoad _ _ _ _ _ _ _ k)
  | aneLd32 _ _ => exact .of rfl (keeps_aneLoad _ _ _ _ _ _ _ k)
  | aneLdb32 _ _ => exact .of rfl (keeps_aneLoad _ _ _ _ _ _ _ k)
  | aneLdu16 _ _ => exact .of rfl (keeps_aneLoad _ _ _ _ _ _ _ k)
  | aneLoadData _ _ => exact .of rfl (keeps_aneArrive _ _ _ k)
  | aneSt16 _ _ => exact .of rfl (keeps_aneStore _ _ _ _ _ (fun _ _ h => keeps_putHalves _ _ _ h) k)
  | aneSt32 _ _ => exact .of rfl (keeps_aneStore _ _ _ _ _ (fun _ _ h => keeps_putWords _ _ _ h) k)
  | aneSta _ _ => exact .of rfl (keeps_aneStore _ _ _ _ _ (fun _ _ h => keeps_putSums _ _ _ h) k)
  | aneBudget _ => exact .of rfl (keeps_ite (keeps_aneEnd _ _ _ (keeps_set _ _ _ _ k)) k)
  | aneAbort _ _ => exact .of rfl (keeps_page (fun _ h => keeps_aneCtl _ _ _ h))
  | aneJobqSubmit _ _ => exact .of rfl (keeps_page (fun _ h => keeps_jobqWrite _ _ _ _ h))
  | marchGo _ _ => exact .of rfl (keeps_page (fun _ h => keeps_marchCtl _ _ _ h))
  | marchDone _ _ _ _ _ => exact .of rfl (keeps_marchDone _ _ _ _ _ _ k)
  | spadFetchadd _ _ _ _ =>
    exact .of rfl (keeps_link (fun _ h => keeps_bar4Atomic _ _ _ _ _ (keeps_bar4Wait _ _ _ h)))
  | spadSwap _ _ _ _ => exact .of rfl (keeps_link (fun _ h => keeps_bar4Atomic _ _ _ _ _ (keeps_bar4Wait _ _ _ h)))
  | unsupportedAtomic => exact .of rfl (keeps_emit _ _ k)
  | lastSpadAtomic _ _ _ _ _ _ =>
    exact .of rfl (keeps_setCore _ _ _ (keeps_spadAtomic _ _ _ _ _ (keeps_bankWait _ _ _ _ k)))
  | bar4Write _ _ _ _ => exact .of rfl (keeps_link (fun _ h => keeps_bar4Write _ _ _ _ (keeps_bar4Wait _ _ _ h)))
  | bar4Read _ _ _ => exact .of rfl (keeps_link (fun _ h => keeps_bar4Read _ _ _ (keeps_bar4Wait _ _ _ h)))
  | ticketSubmit _ => exact .of rfl (keeps_page (fun _ h => keeps_submit _ _ h))
  | ctrDec _ => exact .of rfl (keeps_page (fun _ h => keeps_ctrDown _ _ h))
  | ctrSet _ => exact .of rfl (keeps_page (fun _ h => keeps_ctrSet _ _ h))
  | evtEdge _ _ => exact .of rfl (keeps_evtEdge _ _ _ k)
  | dispatch => exact .of rfl (keeps_dispatch _ k)
  | affWaitExpiry _ => exact .of rfl (keeps_affExpire _ _ k)
  | dispatchSwitch => exact .of rfl (keeps_dispatchSwitch _ k)
  | burst _ => exact .of rfl (keeps_burst _ _ k)
  | measure _ => exact .of rfl (keeps_measure _ _ k)
  | analyze _ => exact .of rfl (keeps_analyze _ _ k)
  | write _ => exact .of rfl (keeps_writeTicket _ _ k)
  | wait _ => exact .of rfl (keeps_waitTicket _ _ k)
  | waitAtReached _ => exact .of rfl (keeps_waitReached _ _ k)
  | post _ => exact .of rfl (keeps_post _ _ k)
  | ticketComplete _ _ => exact .of rfl (keeps_ticketComplete _ _ _ k)
  | ticketTimeout _ => exact .of rfl (keeps_ticketTimeout _ _ k)
  | release _ => exact .of rfl (keeps_release _ _ k)
  | rerunRecord => exact .of rfl (keeps_rerunRecord _ k)
  | lstWdogExpiry _ => exact .of rfl (keeps_coreFail _ _ k)
  | lstMemUncorr _ => exact .of rfl (keeps_coreFail _ _ k)
  | evqPop _ => exact .of rfl (keeps_read (fun _ h => keeps_evPop _ _ h))
  | evqRingWrite _ => exact .of rfl (keeps_evRing _ _ k)
  | traceWrite => exact .of rfl (keeps_traceWrite _ k)
  | slot _ _ => exact .of rfl (keeps_slot _ _ _ k)
  | hbmAccessIssue _ _ _ _ => exact .of rfl (keeps_issue _ _ _ _ _ k)
  | hbmReadReturn _ _ _ _ => exact .of rfl (keeps_readReturn _ _ _ _ _ k)
  | urgencyRise _ _ => exact .of rfl (keeps_urgency _ _ _ k)
  | waitForced _ _ => exact .of rfl (keeps_waitForced _ _ _ k)
  | refresh _ _ _ => exact .of rfl (keeps_refresh _ _ _ _ k)
  | nbrRefresh _ => exact .of rfl (keeps_nbrRefresh _ _ k)
  | srEntry _ => exact .of rfl (keeps_srEntry _ _ k)
  | srExit _ => exact .of rfl (keeps_srExit _ _ k)
  | repairStart _ => exact .of rfl (keeps_repairStart _ _ k)
  | repairDone _ => exact .of rfl (keeps_repairDone _ _ k)
  | stackFail _ => exact .of rfl (keeps_stackFail _ _ k)
  | bar2Read _ _ => exact .of rfl (keeps_link (fun _ h => keeps_bar2Read _ _ _ h))
  | bar2Write _ _ _ => exact .of rfl (keeps_link (fun _ h => keeps_bar2Write _ _ _ _ h))
  | aptBaseWrite _ => exact .of rfl (keeps_link (fun _ h => keeps_aptWrite _ _ h))
  | cplTmo _ _ _ => exact .of rfl (keeps_cplTmo _ _ _ _ k)
  | pcieConfigRequest _ _ => exact .of rfl (keeps_cfgRequest _ _ _ k)
  | pcieLinkDown => exact .of rfl (keeps_pciDown _ k)
  | d3hotEntry => exact .of rfl (keeps_d3Entry _ k)
  | d0Return => exact .of rfl (keeps_d0Return _ k)
  | weltTrigMsg _ _ _ _ _ _ => exact .of rfl (keeps_wltRx _ _ _ _ (fun _ h => keeps_weltMsg _ _ h) k)
  | weltLaceMsg _ _ _ _ _ _ _ =>
    exact .of rfl (keeps_ite (keeps_wltRx _ _ _ _ (fun _ h => keeps_weltMsg _ _ h) k) (keeps_wltBad _ _ k))
  | weltCapturePacket _ _ _ _ _ _ => exact .of rfl (keeps_wltRx _ _ _ _ (fun _ h => keeps_capsRx _ _ _ _ _ h) k)
  | weltAck _ _ => exact .of rfl (keeps_wltAcked _ _ _ k)
  | weltNak _ _ => exact .of rfl (keeps_wltReplay _ _ (keeps_wltAcked _ _ _ k))
  | weltBadPacket _ => exact .of rfl (keeps_wltBad _ _ k)
  | weltReplayTimeout _ => exact .of rfl (keeps_wltReplay _ _ k)
  | weltAckTimer _ => exact .of rfl (keeps_ite k (keeps_wltAck _ _ _ k))
  | wltMsgGo _ => exact .of rfl (keeps_page (fun _ h => keeps_msgCtl _ _ h))
  | weltMsgSend => exact .of rfl (keeps_weltSend _ k)
  | weltLastExpiry _ => exact .of rfl (keeps_lastExpiry _ _ k)
  | weltTrainDone _ _ _ => exact .of rfl (keeps_trainDone _ _ _ _ k)
  | laneFail _ _ => exact .of rfl (keeps_laneFail _ _ _ k)
  | weltLinkDown _ => exact .of rfl (keeps_wltDown _ _ k)
  | rate _ => exact .of rfl (keeps_rise _ _ _ (keeps_put _ _ _ _ k))
  | retrain _ _ => exact .of rfl (keeps_page (fun _ h => keeps_wltCtl _ _ _ h))
  | weltSleepEntry _ _ => exact .of rfl (keeps_sleepEntry _ _ _ k)
  | wake _ _ => exact .of rfl (keeps_page (fun _ h => keeps_wltCtl _ _ _ h))
  | weltWakeDone _ _ => exact .of rfl (keeps_wakeDone _ _ _ k)
  | capsGo _ _ => exact .of rfl (keeps_page (fun _ h => keeps_capsCtl _ _ _ h))
  | escanGo _ _ => exact .of rfl (keeps_page (fun _ h => keeps_scanCtl _ _ _ h))
  | escanDone _ _ => exact .of rfl (keeps_scanDone _ _ _ k)
  | ethRxFrame _ _ _ _ => exact .of rfl (keeps_ethRx _ _ _ _ _ k)
  | ethTxFrame _ _ _ _ => exact .of rfl (keeps_ethTx _ _ _ _ _ k)
  | ethLinkDown _ => exact .of rfl (keeps_rise _ _ _ (keeps_put _ _ _ _ (keeps_put _ _ _ _ k)))
  | ptpCapture => exact .of rfl (keeps_read (fun _ h => keeps_ptpCapture _ h))
  | set _ => exact .of rfl (keeps_page (fun _ h => keeps_ptpCtl _ _ h))
  | step _ => exact .of rfl (keeps_page (fun _ h => keeps_ptpCtl _ _ h))
  | invalidate _ => exact .of rfl (keeps_page (fun _ h => keeps_ptpCtl _ _ h))
  | ptpSlewDone => exact .of rfl (keeps_ptpSlewDone _ k)
  | pgGo _ _ => exact .of rfl (keeps_page (fun _ h => keeps_pgCtl _ _ _ h))
  | pgStop _ _ => exact .of rfl (keeps_page (fun _ h => keeps_pgCtl _ _ _ h))
  | pgPulse _ => exact .of rfl (keeps_pgPulse _ _ k)
  | thmSample _ _ _ => exact .of rfl (keeps_thmSample _ _ _ _ k)
  | tripPllGate => exact .of rfl (keeps_pllGate _ k)
  | thermalParkDeadline => exact .of rfl (keeps_parkDeadline _ k)
  | calTargetUpdate _ => exact .of rfl (keeps_targetUpdate _ _ k)
  | slewPeriod => exact .of rfl (keeps_slewPeriod _ k)
  | calWinWrite _ => exact .of rfl (keeps_page (fun _ h => keeps_calWinWrite _ _ h))
  | calWinRead => exact .of rfl (keeps_read (fun _ h => keeps_calWinRead _ h))
  | save _ => exact .of rfl (keeps_page (fun _ h => keeps_calFlashCtl _ _ h))
  | saveDone _ => exact .of rfl (keeps_calSaveDone _ _ k)
  | load _ => exact .of rfl (keeps_page (fun _ h => keeps_calFlashCtl _ _ h))
  | clr _ => exact .of rfl (keeps_page (fun _ h => keeps_calLin _ _ h))
  | powerOnReset _ => exact .of rfl (keeps_powerOn _ _ k)
  | resetNAssert => exact .of rfl (keeps_pinReset _ k)
  | resetNRelease => exact .of rfl (keeps_pinRelease _ k)
  | perstAssert => exact .of rfl (keeps_perst _ k)
  | perstRelease _ _ => exact .of rfl (keeps_perstRelease _ _ _ k)
  | chip _ => exact .of rfl (keeps_page (fun _ h => keeps_rstWrite _ _ h))
  | mgmtWdogExpiry => exact .of rfl (keeps_wdogReset _ k)
  | stageStep _ => exact .of rfl (keeps_stageStep _ _ k)
  | stageFall => exact .of rfl (keeps_stageFall _ k)
  | holdAtWrite _ => exact .of rfl (keeps_page (fun _ h => keeps_writeReg _ _ _ _ _ h))
  | erase => exact .of rfl (keeps_page (fun _ h => keeps_flashCmd _ _ h))
  | program => exact .of rfl (keeps_page (fun _ h => keeps_flashCmd _ _ h))
  | flashRead => exact .of rfl (keeps_page (fun _ h => keeps_flashCmd _ _ h))
  | flashOpDone _ => exact .of rfl (keeps_flashDone _ _ k)
  | releaseKill => exact .of rfl (keeps_page (fun _ h => keeps_killWrite _ _ h))
  | pwrFail => exact absurd rfl hc
  | pwrFailEnd => exact .of rfl (keeps_put _ _ _ _ k)
  | idcode => exact .of rfl (keeps_tapPlain _ _ k)
  | samplePreload => exact .of rfl (keeps_tapSample _ k)
  | extest => exact .of rfl (keeps_tapTake _ _ k)
  | extestPulse => exact .of rfl (keeps_tapTake _ _ k)
  | extestTrain => exact .of rfl (keeps_tapTake _ _ k)
  | highz => exact .of rfl (keeps_tapTake _ _ k)
  | clamp => exact .of rfl (keeps_tapTake _ _ k)
  | bypass => exact .of rfl (keeps_tapPlain _ _ k)
  | testLogicReset => exact .of rfl (keeps_tapPlain _ _ k)
  | smbArp _ => exact .of rfl (keeps_smbArp _ _ k)
  | smbReadStage => exact .of rfl (keeps_smbRead _ _ (fun _ h => h) k)
  | smbReadFltSts => exact .of rfl (keeps_smbRead _ _ (fun _ h => h) k)
  | smbReadTemp => exact .of rfl (keeps_smbRead _ _ (fun _ h => keeps_hottest _ h) k)
  | smbReadHbmTemp => exact .of rfl (keeps_smbRead _ _ (fun _ h => h) k)
  | smbReadStatus => exact .of rfl (keeps_smbRead _ _ (fun _ h => h) k)
  | refPresentRise => exact .of rfl (keeps_ite k (keeps_put _ _ _ _ k))
  | clockEdge _ => exact .of rfl (keeps_clockEdge _ _ k)
  | pcieLinkUp _ _ => exact .of rfl (keeps_pciUp _ _ _ k)
  | ethLinkUp _ => exact .of rfl (keeps_put _ _ _ _ (keeps_put _ _ _ _ k))
  | stackResponseReturn _ => exact .of rfl (keeps_setXbr _ _ _ k)

theorem Keeps.store {w : Bool} {r s : State} (h : Keeps w r s) : Keeps true r s :=
  ⟨h.1, h.2.1, h.2.2.1, nofun⟩

/-- What every command keeps, the collector's part included: the queue, the bound of the fault log, the form of HBM. -/
theorem exec_keeps (c : Instr) (s : State) : ∃ t, exec c s = .next t ∧ Keeps true s t := by
  by_cases hc : c = .pwrFail
  · subst hc
    exact ⟨_, rfl, keeps_pwrFlush _ (keeps_settle _ (keeps_pwrFail _ (keeps_refl _ _)))⟩
  · obtain ⟨u, hu, k⟩ := ownKept c s hc
    exact ⟨_, hu.next, keeps_settle _ k.store⟩

/-- One step, from the state whose queue no longer holds the command at its front (R23). -/
theorem step_keeps (s : State) :
    ∃ t, step s = .next t ∧ Keeps true { s with pending := s.pending.tail } t := by
  cases hp : s.pending with
  | nil =>
    refine ⟨_, step_empty hp, ?_⟩
    have k : Keeps true { s with pending := [] } s := by rw [← hp]; exact keeps_refl _ _
    exact keeps_ite (keeps_mk k rfl rfl) k
  | cons c r =>
    obtain ⟨t, ht, k⟩ := exec_keeps c { s with pending := r }
    exact ⟨t, (step_front hp).trans ht, k⟩

end Sys2Proof.Machine

namespace Sys2Proof

open Sys2Proof.Machine

/-- Settles O4: every operation keeps the canonical form and the bound (`Keeps`), so every command does, and a step is
one command with the queue's rest. -/
theorem everyStepKeepsInvariant : Obligations.EveryStepKeepsInvariant := by
  unfold Obligations.EveryStepKeepsInvariant
  intro s t ⟨hwf, hlog⟩ hst
  obtain ⟨u, hu, -, hlog', hwf', -⟩ := step_keeps s
  cases hst.symm.trans hu
  exact ⟨hwf' hwf, hlog' hlog⟩

/-- Settles O5: after reset HBM and the fault log are empty. -/
theorem invariantAtReset : Obligations.InvariantAtReset := by
  unfold Obligations.InvariantAtReset
  exact ⟨rfl, Nat.zero_le _⟩

/-- Settles O3: every command answers a next state and keeps the queue it is given, the rest behind it. -/
theorem everyStepAnswers : Obligations.EveryStepAnswers := by
  unfold Obligations.EveryStepAnswers
  intro s
  obtain ⟨t, ht, hq, -⟩ := step_keeps s
  exact ⟨t, ht, hq⟩

/-- Settles O6: a command that stores nothing is its own effect, which keeps every byte of HBM. -/
theorem hbmKeptByOtherCommands : Obligations.HbmKeptByOtherCommands := by
  unfold Obligations.HbmKeptByOtherCommands
  intro c s hc
  have hp : c ≠ .pwrFail := by rintro rfl; cases hc
  obtain ⟨u, hu, -, -, -, hb⟩ := ownKept c s hp
  exact ⟨u, hu, fun a => by simp only [State.physByte, hb hc]⟩

end Sys2Proof

/-!
Bytes of HBM by logical address (O7; R314 to R316): where the copies of an address lie, and what a byte written leaves.
-/
namespace Sys2Proof.Machine

open Sys2Proof

/-- A key read after every key of a list has been written, each with its own value. -/
theorem tabGet_foldl_put_all {α : Type} [DecidableEq α] (d : α) (f : Nat → α) (l : List Nat) (m : Tab α) (k : Nat) :
    tabGet d (l.foldl (fun m x => tabPut d m x (f x)) m) k = if k ∈ l then f k else tabGet d m k := by
  induction l generalizing m with
  | nil => simp
  | cons x l ih =>
    rw [List.foldl_cons, ih, tabGet_put _ _ _ _ _ _ (fun _ => rfl)]
    by_cases hl : k ∈ l
    · simp [hl]
    · by_cases hx : x = k
      · simp [hx]
      · simp [hl, hx, Ne.symm hx]

namespace State

section
variable {s : State} {a b : Nat} {v : Byte}

theorem mirrored_iff : s.mirrored a = true ↔ s.mirrorBase ≤ a ∧ a < s.mirrorBase + s.mirrorSize := by
  simp [mirrored]

theorem aliased_iff :
    s.aliased a = true ↔ s.mirrorBase + s.mirrorSize ≤ a ∧ a < s.mirrorBase + 2 * s.mirrorSize := by
  simp [aliased]

theorem not_aliased_of_mirrored (h : s.mirrored a = true) : s.aliased a = false := by
  rw [mirrored_iff] at h
  exact Bool.eq_false_iff.2 (fun ha => by rw [aliased_iff] at ha; omega)

theorem copies_mirrored (h : s.mirrored a = true) : s.copies a = [s.physical a 0, s.physical a 1] := if_pos h

theorem copies_single (h : s.mirrored a = false) : s.copies a = [a] := if_neg (by simp [h])

theorem physical_mirrored (h : s.mirrored a = true) (c : Nat) : s.physical a c =
    s.mirrorBase + 2 ^ 20 * ((a - s.mirrorBase) / 2 ^ 19) + 2 ^ 19 * c + (a - s.mirrorBase) % 2 ^ 19 := if_pos h

theorem physical_single (h : s.mirrored a = false) (c : Nat) : s.physical a c = a := if_neg (by simp [h])

/-- The size of the mirrored window is a multiple of the half MiB that its copies interleave by (R314). -/
theorem mirrorSize_halves : ∃ n, s.mirrorSize = 2 ^ 19 * n :=
  ⟨2 ^ 9 * s.get (pg T.mem 0) F.MEM_MIRROR_SIZE, by unfold mirrorSize; omega⟩

/-- Both copies of a mirrored address lie in the window and the half that cannot be addressed. -/
theorem physical_range (h : s.mirrored a = true) {c : Nat} (hc : c < 2) :
    s.mirrorBase ≤ s.physical a c ∧ s.physical a c < s.mirrorBase + 2 * s.mirrorSize := by
  rw [physical_mirrored h]
  rw [mirrored_iff] at h
  obtain ⟨n, hn⟩ := mirrorSize_halves (s := s)
  omega

/-- The two copies of mirrored addresses tell address and copy apart. -/
theorem physical_inj (ha : s.mirrored a = true) (hb : s.mirrored b = true) {c d : Nat} (hc : c < 2) (hd : d < 2)
    (h : s.physical a c = s.physical b d) : a = b ∧ c = d := by
  rw [physical_mirrored ha, physical_mirrored hb] at h
  rw [mirrored_iff] at ha hb
  omega

theorem mem_copies {x : Nat} (h : x ∈ s.copies a) : ∃ c, c < 2 ∧ x = s.physical a c := by
  cases hm : s.mirrored a with
  | true =>
    simp only [copies_mirrored hm, List.mem_cons, List.not_mem_nil, or_false] at h
    rcases h with rfl | rfl
    · exact ⟨0, by omega, rfl⟩
    · exact ⟨1, by omega, rfl⟩
  | false =>
    rw [copies_single hm, List.mem_singleton] at h
    exact ⟨0, by omega, by rw [physical_single hm, h]⟩

/-- Different addresses that can be addressed have no copy in common (R314, R316). -/
theorem copies_disjoint (hn : b ≠ a) (ha : s.aliased a = false) (hb : s.aliased b = false) {x : Nat}
    (hxa : x ∈ s.copies a) : x ∉ s.copies b := by
  intro hxb
  obtain ⟨c, hc, rfl⟩ := mem_copies hxa
  obtain ⟨d, hd, hx⟩ := mem_copies hxb
  have outside {y : Nat} (hm : s.mirrored y = false) (hy : s.aliased y = false) :
      ¬ (s.mirrorBase ≤ y ∧ y < s.mirrorBase + 2 * s.mirrorSize) := by
    rw [Bool.eq_false_iff, ne_eq, mirrored_iff] at hm
    rw [Bool.eq_false_iff, ne_eq, aliased_iff] at hy
    omega
  cases hma : s.mirrored a <;> cases hmb : s.mirrored b
  · rw [physical_single hma, physical_single hmb] at hx
    exact hn hx.symm
  · rw [physical_single hma] at hx
    exact outside hma ha (hx ▸ physical_range hmb hd)
  · rw [physical_single hmb] at hx
    exact outside hmb hb (hx ▸ physical_range hma hc)
  · exact hn (physical_inj hma hmb hc hd hx).1.symm

/-- A read is delivered from one of the copies (R315). -/
theorem rdCopy_mem : s.rdCopy a ∈ s.copies a := by
  unfold rdCopy
  split
  next x hx => exact List.mem_of_find?_eq_some hx
  next =>
    cases hm : s.mirrored a with
    | true => simp [copies_mirrored hm]
    | false => simp [copies_single hm, physical_single hm]

theorem hbmByte_addressed (h : s.aliased a = false) : s.hbmByte a = s.physByte (s.rdCopy a) := if_neg (by simp [h])

/-- A byte written stands in every copy of its address and nowhere else. -/
theorem physByte_put (x : Nat) :
    (s.hbmPutByte a v).physByte x = if x ∈ s.copies a then v else s.physByte x :=
  tabGet_foldl_put_all 0 (fun _ => v) (s.copies a) s.hbm.bytes x

/-- A byte written leaves where every address is read. -/
theorem rdCopy_put : (s.hbmPutByte a v).rdCopy b = s.rdCopy b := rfl

theorem aliased_put : (s.hbmPutByte a v).aliased b = s.aliased b := rfl

theorem hbmByte_put_same (h : s.aliased a = false) : (s.hbmPutByte a v).hbmByte a = v := by
  rw [hbmByte_addressed (by rwa [aliased_put]), rdCopy_put, physByte_put, if_pos rdCopy_mem]

theorem hbmByte_put_other (hn : b ≠ a) (ha : s.aliased a = false) (hb : s.aliased b = false) :
    (s.hbmPutByte a v).hbmByte b = s.hbmByte b := by
  have hx : s.rdCopy b ∉ s.copies a := fun hxa => copies_disjoint hn ha hb hxa rdCopy_mem
  rw [hbmByte_addressed (by rwa [aliased_put]), hbmByte_addressed hb, rdCopy_put, physByte_put, if_neg hx]

/-- A mirrored address whose first copy is uncorrectable is read from its second (R315). -/
theorem rdCopy_second (hm : s.mirrored a = true) (h0 : s.hbm.bad.contains (s.physical a 0 / 32) = true)
    (h1 : s.hbm.bad.contains (s.physical a 1 / 32) = false) : s.rdCopy a = s.physical a 1 := by
  simp only [rdCopy, copies_mirrored hm, List.find?_cons, h0, h1, Bool.not_true, Bool.not_false]

end

end State

end Sys2Proof.Machine

namespace Sys2Proof

open Sys2Proof.Machine Sys2Proof.Machine.State

/-- Settles O7: the copies of addresses that can be addressed are disjoint, and a byte is written in all of its own. -/
theorem hbmByteReadsBack : Obligations.HbmByteReadsBack := by
  unfold Obligations.HbmByteReadsBack
  refine fun s a v => ⟨hbmByte_put_same, fun b hn ha hb => hbmByte_put_other hn ha hb, fun hm => ?copies,
    fun hm h0 h1 => ?second, fun ha => if_pos ha, fun h => Memory.foldl_put_wf _ _ _ _ h⟩
  case copies =>
    have hc := copies_mirrored hm
    refine ⟨?_, ?_, fun h => absurd (physical_inj hm hm (by omega) (by omega) h).2 (by omega)⟩ <;>
      rw [physByte_put, if_pos (by simp [hc])]
  case second => rw [hbmByte_addressed (not_aliased_of_mirrored hm), rdCopy_second hm h0 h1]

end Sys2Proof

/-!
Slots of a crossbar and urgencies of its queues (O39; R324, R326, R328, R331 to R333).
-/
namespace Sys2Proof.Machine

open Sys2Proof

namespace State

section
variable {s : State} {x : Nat} {req : List MemAcc}

/-! ## Slots (R326, R328, R331) -/

/-- The accesses that have become ready join those that wait; only those of the stack that can be addressed (R326). -/
def slotAsked (s : State) (x : Nat) (req : List MemAcc) : State :=
  let rs := req.filter (fun a => hbmStack a.addr == x && !s.aliased a.addr)
  s.setXbr x { s.xbrOf x with
    ready := (s.xbrOf x).ready ++ rs, last := if rs.isEmpty then (s.xbrOf x).last else s.mono }

/-- What of a slot's pick enters the queues: the queues and the accesses that entered. -/
def slotEntered (u : State) (x : Nat) : List QAcc × List MemAcc :=
  u.enqueue x (u.xbrOf x).grants (u.slotPick x).1 (u.xbrOf x).queue []

/-- The grant of a slot, and the waits of the ports that were ready counted (R328, R331). -/
def slotGranted (u : State) (x : Nat) : State :=
  let w := u.xbrOf x
  let r := u.slotEntered x
  let ports := (r.2.map (·.port)).eraseDups
  let a := u.setXbr x { w with
    queue := r.1, grants := w.grants + b2n (!r.2.isEmpty), ready := r.2.foldl List.erase w.ready,
    kept := w.kept ++ ports.map (fun p => (w.grants, p, r.2.filter (fun a => a.port == p))) }
  (List.range 48).foldl (fun s p => s.countWait x ports p) a

/-- A slot after its accesses have become ready, the state `u`. -/
theorem slot_asked {u : State} (hu : s.slotAsked x req = u) : s.slot x req =
    if !u.memServes x then u
    else if (u.slotPick x).2 && !(u.slotEntered x).2.isEmpty then (u.slotGranted x).rise (xbrPg x) X.XBR_WAIT_FORCED
    else u.slotGranted x := by
  simp only [slotAsked] at hu
  simp only [slot, hu, slotGranted, slotEntered]
  rfl

theorem memServes_slotAsked : (s.slotAsked x req).memServes x = s.memServes x := rfl

theorem slot_unserved (h : s.memServes x = false) : s.slot x req = s.slotAsked x req := by
  rw [slot_asked rfl, if_pos (by rw [memServes_slotAsked, h]; rfl)]

theorem slot_forced (h : s.memServes x = true) (hf : ((s.slotAsked x req).slotPick x).2 = true)
    (hr : ((s.slotAsked x req).slotEntered x).2 ≠ []) :
    s.slot x req = ((s.slotAsked x req).slotGranted x).rise (xbrPg x) X.XBR_WAIT_FORCED := by
  rw [slot_asked rfl, if_neg (by simp [memServes_slotAsked, h]), if_pos (by simp [hf, hr])]

theorem slot_owned (h : s.memServes x = true)
    (hr : ((s.slotAsked x req).slotPick x).2 = false ∨ ((s.slotAsked x req).slotEntered x).2 = []) :
    s.slot x req = (s.slotAsked x req).slotGranted x := by
  rw [slot_asked rfl, if_neg (by simp [memServes_slotAsked, h]), if_neg (by rcases hr with hr | hr <;> simp [hr])]

/-! ## The wait of a port (R331) -/

theorem waitForced_eq (p : Nat) : s.waitForced x p =
    if s.get (xbrPg x) (F.XBR_WAIT_LIMIT_LIMIT.off (4 * p)) ≠ 0 ∧
        s.get (xbrPg x) (F.XBR_WAIT_LIMIT_LIMIT.off (4 * p)) ≤ waitOf (s.xbrOf x) p ∧ p ∉ (s.xbrOf x).forced then
      s.setXbr x { s.xbrOf x with forced := (s.xbrOf x).forced ++ [p] } else s := by
  simp [waitForced]

/-! ## Urgencies (R324, R333) -/

/-- Entry `k` of the queues in its next urgency, at the time at which it reaches it (R324). -/
def aged (s : State) (x k : Nat) (y : QAcc) : State :=
  (s.upToMono ((y.adm + urgAge y.tgt (y.urg + 1)) * 4096)).setXbr x
    { s.xbrOf x with queue := (s.xbrOf x).queue.set k { y with urg := y.urg + 1 } }

/-- The grants of an access's pseudo-channel that may be dropped are (R333). -/
def preempted (u : State) (x : Nat) (y : QAcc) : State :=
  (((u.xbrOf x).queue.filter (fun z => hbmPch z.a.addr == hbmPch y.a.addr && u.droppable x z)).map
    (fun z => (z.grant, z.a.port))).eraseDups.foldl (fun s z => s.dropGrant x z.1 z.2) u

/-- A miss of an access is counted and shown (R324). -/
def missShown (u : State) (x : Nat) (y : QAcc) : State :=
  ((u.set (memPg x) F.MEM_QOS_MISS_PORT y.a.port).bump (memPg x) F.MEM_QOS_MISS_COUNT 1).rise (memPg x) X.MEM_QOS_MISS

variable {k : Nat} {y : QAcc}

theorem urgency_none (h : (s.xbrOf x).queue[k]? = none) : s.urgency x k = s := by simp [urgency, h]

theorem urgency_last (h : (s.xbrOf x).queue[k]? = some y) (hu : 3 ≤ y.urg) : s.urgency x k = s := by
  simp [urgency, h, hu]

/-- What the next urgency brings: at 2 the preemption by a port above PRE_RANK, at 3 the miss. -/
theorem urgency_next (h : (s.xbrOf x).queue[k]? = some y) (hu : y.urg < 3) : s.urgency x k =
    let u := s.aged x k y
    let v := if y.urg + 1 = 2 ∧ u.get (xbrPg x) F.XBR_CTL_PRE_RANK < u.rank x y.a.port then u.preempted x y else u
    if y.urg + 1 = 3 then v.missShown x y else v := by
  unfold urgency
  simp only [h]
  exact if_neg (by omega)

theorem urgency_first (h : (s.xbrOf x).queue[k]? = some y) (hu : y.urg = 0) : s.urgency x k = s.aged x k y := by
  rw [urgency_next h (by omega)]
  simp [hu]

theorem urgency_second (h : (s.xbrOf x).queue[k]? = some y) (hu : y.urg = 1) : s.urgency x k =
    if (s.aged x k y).get (xbrPg x) F.XBR_CTL_PRE_RANK < (s.aged x k y).rank x y.a.port then
      (s.aged x k y).preempted x y else s.aged x k y := by
  rw [urgency_next h (by omega)]
  simp [hu]

theorem urgency_miss (h : (s.xbrOf x).queue[k]? = some y) (hu : y.urg = 2) :
    s.urgency x k = (s.aged x k y).missShown x y := by
  rw [urgency_next h (by omega)]
  simp [hu]

end

end State

end Sys2Proof.Machine

namespace Sys2Proof

open Sys2Proof.Machine Sys2Proof.Machine.State

section
variable {s t : State} {x : Fin 2}

/-- A request of SLOT as an access (R328). -/
def slotAcc (r : MemReq) : MemAcc := ⟨r.port.val, r.addr.toNat / 32 * 32, r.wr, r.load, r.log, 0⟩

theorem does_slot {req : List MemReq} (h : s.slot x.val (req.map slotAcc) = t) : Does (.slot x req) s t := .of rfl h

theorem does_waitForced {p : Fin 48} (h : s.waitForced x.val p.val = t) : Does (.waitForced x p) s t := .of rfl h

theorem does_urgencyRise {k : Nat} (h : s.urgency x.val k = t) : Does (.urgencyRise x k) s t := .of rfl h

end

/-- Settles O39: a slot by whether its stack serves and whom its grant goes to, ageing by the urgency reached. -/
theorem crossbarSlotsGrantAndAge : Obligations.CrossbarSlotsGrantAndAge := by
  unfold Obligations.CrossbarSlotsGrantAndAge
  refine ⟨⟨fun s x req => ⟨fun h => does_slot (slot_unserved h), fun h => ⟨fun hf => ?forced, fun hr => ?owned⟩⟩,
    fun s x p => ⟨fun hd => ?due, fun hd => ?undue⟩⟩,
    fun s x k => ⟨fun h => does_urgencyRise (urgency_none h), fun y h => ⟨fun hu => ?last, fun hu => ?first,
      fun hu hp => ?second, fun hu hp => ?preempts, fun hu => does_urgencyRise (urgency_miss h hu)⟩⟩⟩
  case forced => exact does_slot (slot_forced h hf.1 hf.2)
  case owned => exact does_slot (slot_owned h hr)
  case due => exact does_waitForced ((waitForced_eq _).trans (if_pos hd))
  case undue => exact does_waitForced ((waitForced_eq _).trans (if_neg hd))
  case last => exact does_urgencyRise (urgency_last h hu)
  case first => exact does_urgencyRise (urgency_first h hu)
  case second => exact does_urgencyRise ((urgency_second h hu).trans (if_neg (Nat.not_lt.2 hp)))
  case preempts => exact does_urgencyRise ((urgency_second h hu).trans (if_pos hp))

end Sys2Proof

/-!
Accesses issued to a stack and reads that return (O40; R315, R318, R322, R324).
-/
namespace Sys2Proof.Machine

open Sys2Proof

/-! ## The first of the greatest score -/

/-- The better of two: a later one only with a greater score. -/
def better {α : Type} (f : α → Nat) (m : Option α) (c : α) : Option α :=
  match m with
  | none => some c
  | some b => if f b < f c then some c else some b

/-- The first element of a list with the greatest score. -/
def bestOf {α : Type} (f : α → Nat) (l : List α) : Option α := l.foldl (better f) none

theorem better_keeps {α : Type} {f : α → Nat} {c : α} {l : List α} (h : ∀ d ∈ l, f d ≤ f c) :
    l.foldl (better f) (some c) = some c := by
  induction l with
  | nil => rfl
  | cons d l ih =>
    have hd : better f (some c) d = some c := if_neg (Nat.not_lt.2 (h d (List.mem_cons_self ..)))
    rw [List.foldl_cons, hd]
    exact ih (fun e he => h e (List.mem_cons_of_mem _ he))

theorem better_below {α : Type} {f : α → Nat} {c : α} {l : List α} (h : ∀ d ∈ l, f d < f c) {m : Option α}
    (hm : ∀ b, m = some b → f b < f c) : ∀ b, l.foldl (better f) m = some b → f b < f c := by
  induction l generalizing m with
  | nil => exact hm
  | cons d l ih =>
    refine ih (fun e he => h e (List.mem_cons_of_mem _ he)) (fun b hb => ?_)
    have hd := h d (List.mem_cons_self ..)
    cases m with
    | none => cases hb; exact hd
    | some e =>
      simp only [better] at hb
      split at hb <;> cases hb
      · exact hd
      · exact hm _ rfl

/-- An element of a list in the order of `g` is the best one if no score is greater and every equal one comes later. -/
theorem bestOf_eq {α : Type} {f g : α → Nat} {c : α} {l : List α} (hl : l.Pairwise (fun a b => g a < g b))
    (hc : c ∈ l) (h : ∀ d ∈ l, f d ≤ f c ∧ (f d = f c → g c ≤ g d)) : bestOf f l = some c := by
  obtain ⟨p, r, rfl⟩ := List.append_of_mem hc
  have hp : ∀ d ∈ p, f d < f c := by
    intro d hd
    have hg := (List.pairwise_append.1 hl).2.2 d hd c (List.mem_cons_self ..)
    obtain ⟨hle, heq⟩ := h d (List.mem_append_left _ hd)
    exact lt_of_le_of_ne hle (fun e => absurd (heq e) (Nat.not_le.2 hg))
  have hr : ∀ d ∈ r, f d ≤ f c := fun d hd => (h d (List.mem_append_right _ (List.mem_cons_of_mem _ hd))).1
  rw [bestOf, List.foldl_append, List.foldl_cons]
  have hb : better f (p.foldl (better f) none) c = some c := by
    cases hm : p.foldl (better f) none with
    | none => rfl
    | some b => exact if_pos (better_below (m := none) hp (by simp) b hm)
  rw [hb, better_keeps hr]

namespace State

/-! ## The access that is issued (R315, R322, R324) -/

section
variable {s : State} {x pch off busy : Nat} {draw : Bool}

/-- The bank of a row under repair is in maintenance too (R319). -/
def offBanks (s : State) (x pch busy : Nat) : Nat :=
  match (s.xbrOf x).repair with
  | some j =>
    let w := s.rd (memPg x) (0x180 + 4 * j)
    if fget w 19 15 = pch then setBit busy (fget w 23 20) else busy
  | none => busy

/-- The row of an address is open. -/
abbrev RowHit (d : XbrDyn) (a : Nat) : Prop := tabGet 0 d.rows (16 * hbmPch a + hbmBank a) = hbmRow a + 1

/-- The accesses of a pseudo-channel that can be issued: entry, place and address, in the order of the queue. -/
def issueCands (s : State) (x pch off : Nat) : List (QAcc × Nat × Nat) :=
  (s.xbrOf x).queue.zipIdx.filterMap (fun y =>
    if hbmPch y.1.a.addr = pch then (s.issueAddr x off y.1).map (fun a => (y.1, y.2, a)) else none)

/-- Urgency before row hit (R324). -/
def issueScore (d : XbrDyn) (c : QAcc × Nat × Nat) : Nat := 2 * c.1.urg + (if RowHit d c.2.2 then 1 else 0)

/-- Entry `k` of the queue is issued at an address (R322, R324). -/
def issuedAt (s : State) (x pch : Nat) (draw : Bool) (k : Nat) (y : QAcc) (a : Nat) : State :=
  let d := s.xbrOf x
  let q := d.queue.eraseIdx k
  let b := 16 * pch + hbmBank a
  s.setXbr x { d with
    queue := q, kept := d.kept.filter (fun z => q.any (fun w => w.grant == z.1 && w.a.port == z.2.1)),
    issued := if y.a.wr then d.issued else d.issued ++ [{ y with phys := some a }],
    rows := tabPut 0 d.rows b (hbmRow a + 1),
    nbr := if ¬ RowHit d a ∧ draw = true then d.nbr ++ [(b, hbmRow a)] else d.nbr }

theorem b2n_rowHit (d : XbrDyn) (a : Nat) :
    b2n (tabGet 0 d.rows (16 * hbmPch a + hbmBank a) == hbmRow a + 1) = if RowHit d a then 1 else 0 := by
  simp [b2n]

theorem issue_eq : s.issue x pch busy draw =
    match if s.memServes x then bestOf (issueScore (s.xbrOf x)) (s.issueCands x pch (s.offBanks x pch busy))
      else none with
    | none => s
    | some (y, k, a) => s.issuedAt x pch draw k y a := by
  have hb : (b2n : Bool → Nat) = fun b => if b then 1 else 0 := rfl
  unfold issue bestOf offBanks issueCands issueScore issuedAt
  simp only [b2n_rowHit]
  congr 1
  · congr 2
    funext m c
    cases m <;> rfl
  · funext y k a
    by_cases h : RowHit (s.xbrOf x) a <;> simp [h]

theorem mem_issueCands {y : QAcc} {k a : Nat} : (y, k, a) ∈ s.issueCands x pch off ↔
    (s.xbrOf x).queue[k]? = some y ∧ hbmPch y.a.addr = pch ∧ s.issueAddr x off y = some a := by
  simp only [issueCands, List.mem_filterMap, Prod.exists, List.mk_mem_zipIdx_iff_getElem?]
  constructor
  · rintro ⟨z, j, hz, h⟩
    split at h
    next hp =>
      obtain ⟨b, hb, e⟩ := Option.map_eq_some_iff.1 h
      cases e
      exact ⟨hz, hp, hb⟩
    next => cases h
  · rintro ⟨hy, hp, ha⟩
    exact ⟨y, k, hy, by rw [if_pos hp, ha]; rfl⟩

/-- The accesses stand in the order of their places in the queue. -/
theorem issueCands_ordered : (s.issueCands x pch off).Pairwise (fun c d => c.2.1 < d.2.1) := by
  have hz : (s.xbrOf x).queue.zipIdx.Pairwise (fun c d => c.2 < d.2) := by
    rw [← List.pairwise_map, List.zipIdx_map_snd]
    exact List.pairwise_lt_range'
  refine List.pairwise_filterMap.2 (hz.imp fun {c d} hcd b hb e he => ?_)
  have place {c : QAcc × Nat} {b : QAcc × Nat × Nat} (h : (if hbmPch c.1.a.addr = pch then
      (s.issueAddr x off c.1).map (fun a => (c.1, c.2, a)) else none) = some b) : b.2.1 = c.2 := by
    split at h
    · obtain ⟨a, -, rfl⟩ := Option.map_eq_some_iff.1 h
      rfl
    · cases h
  rw [place hb, place he]
  exact hcd

theorem issue_best {c : QAcc × Nat × Nat} (hm : s.memServes x = true)
    (hc : c ∈ s.issueCands x pch (s.offBanks x pch busy))
    (h : ∀ d ∈ s.issueCands x pch (s.offBanks x pch busy), issueScore (s.xbrOf x) d ≤ issueScore (s.xbrOf x) c ∧
      (issueScore (s.xbrOf x) d = issueScore (s.xbrOf x) c → c.2.1 ≤ d.2.1)) :
    s.issue x pch busy draw = s.issuedAt x pch draw c.2.1 c.1 c.2.2 := by
  rw [issue_eq, if_pos hm, bestOf_eq issueCands_ordered hc h]

theorem issue_none (hc : ∀ c, c ∉ s.issueCands x pch (s.offBanks x pch busy)) : s.issue x pch busy draw = s := by
  rw [issue_eq, List.eq_nil_iff_forall_not_mem.2 hc]
  cases s.memServes x <;> rfl

theorem issue_unserved (hm : s.memServes x = false) : s.issue x pch busy draw = s := by
  rw [issue_eq, if_neg (by simp [hm])]

end

/-! ## The data of a read (R315, R318) -/

section
variable {s : State} {x k a e0 e1 : Nat} {y : QAcc}

/-- The read leaves the reads that have been issued. -/
def readGone (s : State) (x k : Nat) : State :=
  s.setXbr x { s.xbrOf x with issued := (s.xbrOf x).issued.eraseIdx k }

theorem copyRead_sound (hb : a / 32 ∉ s.hbm.bad) (he : e0 = 0) : s.copyRead x a e0 = (s, true) := by
  simp [copyRead, hb, he]

theorem copyRead_corrected (hb : a / 32 ∉ s.hbm.bad) (he : e0 = 1) : s.copyRead x a e0 = (s.eccCorr x a, true) := by
  simp [copyRead, hb, he]

theorem copyRead_lost (h : a / 32 ∈ s.hbm.bad ∨ e0 = 2) : (s.copyRead x a e0).2 = false := by
  unfold copyRead
  dsimp only
  rw [if_pos (by rcases h with h | h <;> simp [h])]

theorem readReturn_none (h : (s.xbrOf x).issued[k]? = none) : s.readReturn x k e0 e1 = s := by
  simp [readReturn, h]

theorem readReturn_some {u : State} (h : (s.xbrOf x).issued[k]? = some y) (ha : y.phys.getD y.a.addr = a)
    (hu : s.readGone x k = u) : s.readReturn x k e0 e1 =
      if u.hbm.poison.contains (a / 32) then u
      else if (u.copyRead x a e0).2 then (u.copyRead x a e0).1
      else (u.copyRead x a e0).1.readOther x a y.a.addr e1 := by
  simp only [readGone] at hu
  simp only [readReturn, h, ha, hu]

theorem poison_readGone : (s.readGone x k).hbm.poison = s.hbm.poison := rfl

theorem readReturn_poison (h : (s.xbrOf x).issued[k]? = some y) (ha : y.phys.getD y.a.addr = a)
    (hp : a / 32 ∈ s.hbm.poison) : s.readReturn x k e0 e1 = s.readGone x k :=
  (readReturn_some h ha rfl).trans (if_pos (List.contains_iff_mem.2 hp))

theorem readReturn_sound (h : (s.xbrOf x).issued[k]? = some y) (ha : y.phys.getD y.a.addr = a)
    (hp : a / 32 ∉ s.hbm.poison) (hb : a / 32 ∉ s.hbm.bad) (he : e0 = 0) :
    s.readReturn x k e0 e1 = s.readGone x k := by
  simp [readReturn_some h ha rfl, poison_readGone, hp, copyRead_sound (s := s.readGone x k) hb he]

theorem readReturn_corrected (h : (s.xbrOf x).issued[k]? = some y) (ha : y.phys.getD y.a.addr = a)
    (hp : a / 32 ∉ s.hbm.poison) (hb : a / 32 ∉ s.hbm.bad) (he : e0 = 1) :
    s.readReturn x k e0 e1 = (s.readGone x k).eccCorr x a := by
  simp [readReturn_some h ha rfl, poison_readGone, hp, copyRead_corrected (s := s.readGone x k) hb he]

theorem readReturn_lost (h : (s.xbrOf x).issued[k]? = some y) (ha : y.phys.getD y.a.addr = a)
    (hp : a / 32 ∉ s.hbm.poison) (hb : a / 32 ∈ s.hbm.bad ∨ e0 = 2) :
    s.readReturn x k e0 e1 = ((s.readGone x k).copyRead x a e0).1.readOther x a y.a.addr e1 := by
  simp [readReturn_some h ha rfl, poison_readGone, hp, copyRead_lost (s := s.readGone x k) (x := x) hb]

end

end State

end Sys2Proof.Machine

namespace Sys2Proof

open Sys2Proof.Machine Sys2Proof.Machine.State

section
variable {s t : State} {x : Fin 2}

theorem does_hbmAccessIssue {pch : Fin 32} {busy : BitVec 16} {draw : Bool}
    (h : s.issue x.val pch.val busy.toNat draw = t) : Does (.hbmAccessIssue x pch busy draw) s t := .of rfl h

theorem does_hbmReadReturn {k : Nat} {e0 e1 : Fin 3} (h : s.readReturn x.val k e0.val e1.val = t) :
    Does (.hbmReadReturn x k e0 e1) s t := .of rfl h

end

/-- Settles O40: the access issued is the first of the best of those that can be, and a read by what its copy gives. -/
theorem hbmAccessesIssueAndReturn : Obligations.HbmAccessesIssueAndReturn := by
  unfold Obligations.HbmAccessesIssueAndReturn
  refine ⟨fun s x pch busy draw hm => ⟨fun hn => ?none, fun k y a hc hbest => ?best⟩,
    fun s x pch busy draw hm => does_hbmAccessIssue (issue_unserved hm),
    fun s x k e0 e1 => ⟨fun h => does_hbmReadReturn (readReturn_none h), fun y h => ⟨fun hp => ?poison,
      fun hp hb he => ?sound, fun hp hb he => ?corrected, fun hp hb => ?lost⟩⟩⟩
  case none =>
    exact does_hbmAccessIssue (issue_none (fun c hc => by
      obtain ⟨hq, hpch, ha⟩ := mem_issueCands.1 hc
      exact hn c.2.1 c.1 c.2.2 ⟨hq, hpch, ha⟩))
  case best =>
    have hcand : (y, k, a) ∈ s.issueCands x.val pch.val (s.offBanks x.val pch.val busy.toNat) := mem_issueCands.2 hc
    refine does_hbmAccessIssue (issue_best hm hcand (fun d hd => ?_))
    obtain ⟨hq, hpch, ha⟩ := mem_issueCands.1 hd
    exact hbest d.2.1 d.1 d.2.2 ⟨hq, hpch, ha⟩
  case poison => exact does_hbmReadReturn (readReturn_poison h rfl hp)
  case sound => exact does_hbmReadReturn (readReturn_sound h rfl hp hb he)
  case corrected => exact does_hbmReadReturn (readReturn_corrected h rfl hp hb he)
  case lost => exact does_hbmReadReturn (readReturn_lost h rfl hp hb)

end Sys2Proof

/-!
Refresh, self-refresh, neighbour refresh, failure and repair of the stacks (O41; R319 to R322, R335).
-/
namespace Sys2Proof.Machine

open Sys2Proof

namespace State

section
variable {s : State} {x : Nat}

/-! ## Refresh (R320) -/

section
variable {pch b : Nat}

/-- An access of urgency 1 or more waits for the bank (R320). -/
def BankWanted (d : XbrDyn) (pch b : Nat) : Prop :=
  ∃ y ∈ d.queue, hbmPch y.a.addr = pch ∧ (∃ a, y.phys = some a ∧ hbmBank a = b) ∧ 1 ≤ y.urg

def bankWanted (d : XbrDyn) (pch b : Nat) : Bool :=
  d.queue.any (fun y => hbmPch y.a.addr == pch && (match y.phys with | some a => hbmBank a == b | none => false) &&
    decide (1 ≤ y.urg))

theorem bankWanted_iff {d : XbrDyn} : bankWanted d pch b = true ↔ BankWanted d pch b := by
  have at_ (y : QAcc) : (match y.phys with | some a => hbmBank a == b | none => false) = true ↔
      ∃ a, y.phys = some a ∧ hbmBank a = b := by
    cases y.phys <;> simp
  simp only [bankWanted, BankWanted, List.any_eq_true, Bool.and_eq_true, at_, beq_iff_eq, decide_eq_true_eq, and_assoc]

/-- A refresh starts: the bank is closed, and the debt left is a free value, `n` at most (log entry 8). -/
def refreshed (s : State) (x pch b n : Nat) : State :=
  let d := s.xbrOf x
  ({ s with free := s.free + 1 } : State).setXbr x
    { d with debt := tabPut 0 d.debt (16 * pch + b) (Config.freeValue s.free % (n + 1)),
             rows := tabPut 0 d.rows (16 * pch + b) 0 }

/-- The greatest debt so far is shown. -/
def debtShown (s : State) (x n : Nat) : State :=
  s.set (memPg x) F.MEM_REF_STS_DEBT_MAX (max n (s.get (memPg x) F.MEM_REF_STS_DEBT_MAX))

theorem refresh_eq {n : Nat} (hn : tabGet 0 (s.xbrOf x).debt (16 * pch + b) = n) : s.refresh x pch b =
    if !s.memServes x then s
    else if !bankWanted (s.xbrOf x) pch b then s.refreshed x pch b n
    else if n + 1 < 8 then (s.debtShown x (n + 1)).setXbr x
      { s.xbrOf x with debt := tabPut 0 (s.xbrOf x).debt (16 * pch + b) (n + 1) }
    else (((s.debtShown x (n + 1)).refreshed x pch b 8).bump (memPg x) F.MEM_REF_STS_FORCED 1).rise
      (memPg x) X.MEM_REF_FORCED := by
  subst hn
  rfl

theorem refresh_unserved (h : s.memServes x = false) : s.refresh x pch b = s := by
  rw [refresh_eq rfl, if_pos (by simp [h])]

theorem refresh_starts {n : Nat} (hn : tabGet 0 (s.xbrOf x).debt (16 * pch + b) = n) (h : s.memServes x = true)
    (hb : ¬ BankWanted (s.xbrOf x) pch b) : s.refresh x pch b = s.refreshed x pch b n := by
  rw [refresh_eq hn, if_neg (by simp [h]), if_pos (by simpa [← bankWanted_iff] using hb)]

/-- A refresh of a bank that is wanted is put off, to a debt of 8 at most (R320). -/
theorem refresh_wanted {n : Nat} (hn : tabGet 0 (s.xbrOf x).debt (16 * pch + b) = n) (h : s.memServes x = true)
    (hb : BankWanted (s.xbrOf x) pch b) : s.refresh x pch b =
      if n + 1 < 8 then (s.debtShown x (n + 1)).setXbr x
        { s.xbrOf x with debt := tabPut 0 (s.xbrOf x).debt (16 * pch + b) (n + 1) }
      else (((s.debtShown x (n + 1)).refreshed x pch b 8).bump (memPg x) F.MEM_REF_STS_FORCED 1).rise
        (memPg x) X.MEM_REF_FORCED := by
  rw [refresh_eq hn, if_neg (by simp [h]), if_neg (by simpa [bankWanted_iff] using hb)]

end

/-! ## Neighbour refresh (R322) -/

theorem nbrRefresh_none (h : (s.xbrOf x).nbr = []) : s.nbrRefresh x = s := by simp [nbrRefresh, h]

theorem b2n_bne (n m : Nat) : b2n (n != m) = if n = m then 0 else 1 := by by_cases h : n = m <;> simp [b2n, h]

theorem nbrRefresh_oldest {b row : Nat} {r : List (Nat × Nat)} (h : (s.xbrOf x).nbr = (b, row) :: r) :
    s.nbrRefresh x = (s.setXbr x { s.xbrOf x with nbr := r, rows := tabPut 0 (s.xbrOf x).rows b 0 }).bump (memPg x)
      F.MEM_NBR_CNT_COUNT ((if s.physRow x row = 0 then 0 else 1) + (if s.physRow x row = 32767 then 0 else 1)) := by
  simp only [nbrRefresh, h, b2n_bne]

/-! ## Self-refresh (R321) -/

/-- Nothing is to be served and no work is under way (R321). -/
def StackIdle (s : State) (x : Nat) : Prop :=
  s.flag (memPg x) F.MEM_REF_CTL_SR_EN = true ∧ s.memServes x = true ∧ s.groups = [] ∧
    (∀ e, e < 16 → s.get (pg T.tdc e) F.TDC_CTL_STREAM = 0) ∧ (∀ q, q < 4 → s.trgRuns q = false) ∧
    (s.xbrOf x).ready = [] ∧ (s.xbrOf x).queue = [] ∧ (s.xbrOf x).issued = []

def stackIdle (s : State) (x : Nat) : Bool :=
  s.flag (memPg x) F.MEM_REF_CTL_SR_EN && s.memServes x && s.allStopped &&
    !(List.range 16).any (fun e => s.get (pg T.tdc e) F.TDC_CTL_STREAM != 0) &&
    (List.range 4).all (fun q => !s.trgRuns q) && (s.xbrOf x).ready.isEmpty && (s.xbrOf x).queue.isEmpty &&
    (s.xbrOf x).issued.isEmpty

theorem stackIdle_iff : s.stackIdle x = true ↔ s.StackIdle x := by
  simp only [stackIdle, StackIdle, allStopped, Bool.and_eq_true, List.isEmpty_iff, Bool.not_eq_true', List.any_eq_false,
    List.all_eq_true, List.mem_range, bne_iff_ne, ne_eq, not_not, and_assoc]

theorem srEntry_eq : s.srEntry x = if s.stackIdle x = true then
    (s.upToMono ((s.xbrOf x).last + s.get (memPg x) F.MEM_REF_CTL_SR_IDLE * 64 * 4096)).set (memPg x)
      F.MEM_STS_SR_STATE 2
    else s := rfl

theorem srEntry_idle (h : s.StackIdle x) : s.srEntry x =
    (s.upToMono ((s.xbrOf x).last + s.get (memPg x) F.MEM_REF_CTL_SR_IDLE * 64 * 4096)).set (memPg x)
      F.MEM_STS_SR_STATE 2 := by
  rw [srEntry_eq, if_pos (stackIdle_iff.2 h)]

theorem srEntry_none (h : ¬ s.StackIdle x) : s.srEntry x = s := by rw [srEntry_eq, if_neg (mt stackIdle_iff.1 h)]

/-- A stack is held in self-refresh (R404, R423). -/
def StackHeld (s : State) (x : Nat) : Prop := s.enabled (memPg x) = false ∨ s.flag fltPg F.FLT_STS_DEV_HEEL = true

theorem srExit_none (h : s.get (memPg x) F.MEM_STS_SR_STATE = 0 ∨ s.StackHeld x) : s.srExit x = s := by
  refine if_pos ?_
  rcases h with h | h | h
  · simp [h]
  · simp [h]
  · rw [Bool.or_eq_true]
    exact Or.inr h

theorem srExit_leaves (hn : s.get (memPg x) F.MEM_STS_SR_STATE ≠ 0) (h : ¬ s.StackHeld x) :
    s.srExit x = (s.setXbr x { s.xbrOf x with last := s.mono }).set (memPg x) F.MEM_STS_SR_STATE 0 := by
  obtain ⟨he, hf⟩ := not_or.1 h
  refine if_neg ?_
  simp only [Bool.or_eq_true, decide_eq_true_eq, Bool.not_eq_true', not_or]
  exact ⟨⟨hn, he⟩, hf⟩

/-! ## Repair (R319) -/

/-- The first candidate of the log that is not yet repaired. -/
def repairCand (s : State) (x : Nat) : Option Nat :=
  (List.range 16).find? (fun j => fget (s.rd (memPg x) (0x180 + 4 * j)) 25 24 == 2)

/-- A repair may start now (R319). -/
def MayRepair (s : State) (x : Nat) : Prop :=
  s.memServes x = true ∧ s.flag (memPg x) F.MEM_REPAIR_EN = true ∧ s.groups = [] ∧ (s.xbrOf x).repair = none ∧
    ∀ t, (s.xbrOf x).repairT = some t → t + 6400000 * 1024 ≤ s.mono

def mayRepair (s : State) (x : Nat) : Bool :=
  s.memServes x && s.flag (memPg x) F.MEM_REPAIR_EN && s.allStopped &&
    (match (s.xbrOf x).repairT with | some t => decide (t + 6400000 * 1024 ≤ s.mono) | none => true) &&
    (s.xbrOf x).repair.isNone

theorem mayRepair_iff : s.mayRepair x = true ↔ s.MayRepair x := by
  have due : (match (s.xbrOf x).repairT with | some t => decide (t + 6400000 * 1024 ≤ s.mono) | none => true) = true ↔
      ∀ t, (s.xbrOf x).repairT = some t → t + 6400000 * 1024 ≤ s.mono := by
    cases (s.xbrOf x).repairT <;> simp
  simp only [mayRepair, MayRepair, allStopped, Bool.and_eq_true, List.isEmpty_iff, due, Option.isNone_iff_eq_none]
  tauto

theorem repairStart_eq : s.repairStart x =
    match s.repairCand x with
    | some j =>
      if s.mayRepair x = true then s.setXbr x { s.xbrOf x with repair := some j, repairT := some s.mono } else s
    | none => s := by
  unfold repairStart repairCand mayRepair
  dsimp only <;> cases (s.xbrOf x).repairT <;> rfl

theorem repairStart_starts {j : Nat} (hc : s.repairCand x = some j) (h : s.MayRepair x) :
    s.repairStart x = s.setXbr x { s.xbrOf x with repair := some j, repairT := some s.mono } := by
  rw [repairStart_eq, hc]
  exact if_pos (mayRepair_iff.2 h)

theorem repairStart_none (h : s.repairCand x = none ∨ ¬ s.MayRepair x) : s.repairStart x = s := by
  rw [repairStart_eq]
  cases hc : s.repairCand x with
  | none => rfl
  | some j => exact if_neg (fun hm => by rcases h with h | h; exacts [by simp [hc] at h, h (mayRepair_iff.1 hm)])

/-- A row of the log has been repaired: DONE, and the data of its sound copies (R319). -/
def rowRepaired (s : State) (x j : Nat) : State :=
  ((s.setXbr x { s.xbrOf x with repair := none }).put (memPg x) (F.MEM_REPAIR_LOG_DONE.off (4 * j)) true).repairRow x
    (fget (s.rd (memPg x) (0x180 + 4 * j)) 23 0)

theorem repairDone_none (h : (s.xbrOf x).repair = none) : s.repairDone x = s := by simp [repairDone, h]

theorem repairDone_some {j : Nat} (h : (s.xbrOf x).repair = some j) :
    s.repairDone x = (s.rowRepaired x j).repairStore x (fget (s.rd (memPg x) (0x180 + 4 * j)) 23 0) := by
  simp only [repairDone, h]
  rfl

variable {key b : Nat}

theorem repairStore_full (h : 256 ≤ (s.flash.rlist.filter (fun r => r.1 == x)).length) : s.repairStore x key =
    (s.put glbPg F.GLB_BIST_MISC_RLIST_FULL true).rise glbPg X.GLB_RLIST_FULL := if_pos h

theorem repairStore_room (h : (s.flash.rlist.filter (fun r => r.1 == x)).length < 256) : s.repairStore x key =
    { s with flash := { s.flash with rlist := s.flash.rlist ++ [(x, key)] } } := if_neg (Nat.not_le.2 h)

/-- A row with one access in error: it is written back where it is mirrored and its other copy is sound. -/
theorem repairRow_single
    (h : s.hbm.bad.filter (fun b => hbmStack (32 * b) == x && rowKey (32 * b) == key) = [b]) : s.repairRow x key =
      if decide (s.mirrorBase ≤ 32 * b) && decide (32 * b < s.mirrorBase + 2 * s.mirrorSize) &&
        !s.hbm.bad.contains (((32 * b) ^^^ 2 ^ 19) / 32) then s.copyBack (32 * b) ((32 * b) ^^^ 2 ^ 19) else s := by
  simp only [repairRow, h, List.foldl_cons, List.foldl_nil]

end

end State

end Sys2Proof.Machine

namespace Sys2Proof

open Sys2Proof.Machine Sys2Proof.Machine.State

section
variable {s t : State} {x : Fin 2}

theorem does_refresh {pch : Fin 32} {b : Fin 16} (h : s.refresh x.val pch.val b.val = t) :
    Does (.refresh x pch b) s t := .of rfl h

theorem does_nbrRefresh (h : s.nbrRefresh x.val = t) : Does (.nbrRefresh x) s t := .of rfl h

theorem does_srEntry (h : s.srEntry x.val = t) : Does (.srEntry x) s t := .of rfl h

theorem does_srExit (h : s.srExit x.val = t) : Does (.srExit x) s t := .of rfl h

theorem does_repairStart (h : s.repairStart x.val = t) : Does (.repairStart x) s t := .of rfl h

theorem does_repairDone (h : s.repairDone x.val = t) : Does (.repairDone x) s t := .of rfl h

end

/-- Settles O41: each of the stacks' own commands by its conditions. -/
theorem stacksRefreshSleepAndRepair : Obligations.StacksRefreshSleepAndRepair := by
  unfold Obligations.StacksRefreshSleepAndRepair
  refine ⟨fun s x pch b => ⟨fun h => does_refresh (refresh_unserved h),
      fun h hb => does_refresh (refresh_starts rfl h hb), fun h hb => ⟨fun hn => ?put_off, fun hn => ?forced⟩⟩,
    fun s x => ⟨fun h => does_nbrRefresh (nbrRefresh_none h), fun b row r h => does_nbrRefresh (nbrRefresh_oldest h),
      ⟨fun h => does_srEntry (srEntry_idle h), fun h => does_srEntry (srEntry_none h)⟩,
      ⟨fun h => does_srExit (srExit_none h), fun hn h => does_srExit (srExit_leaves hn h)⟩, .of rfl rfl, .of rfl rfl⟩,
    fun s x => ⟨fun j hc hm => does_repairStart (repairStart_starts hc hm),
      fun h => does_repairStart (repairStart_none h), fun h => does_repairDone (repairDone_none h),
      fun j h => ⟨fun hf => ?full, fun hr => ?room⟩, fun key b h => ⟨fun hlo hhi ho => ?mirrored, fun ho => ?kept⟩⟩⟩
  case put_off => exact does_refresh ((refresh_wanted rfl h hb).trans (if_pos (by omega)))
  case forced => exact does_refresh ((refresh_wanted rfl h hb).trans (if_neg (by omega)))
  case full => exact does_repairDone ((repairDone_some h).trans (repairStore_full hf))
  case room => exact does_repairDone ((repairDone_some h).trans (repairStore_room hr))
  case mirrored =>
    refine (repairRow_single h).trans (if_pos ?_)
    generalize 32 * b ^^^ 2 ^ 19 = o at ho ⊢
    simp [hlo, hhi, ho]
  case kept =>
    refine (repairRow_single h).trans (if_neg ?_)
    generalize 32 * b ^^^ 2 ^ 19 = o at ho ⊢
    rcases ho with ho | ho
    · simp [ho]
    · simp [Nat.not_le.2 ho]

end Sys2Proof

/-!
The PCI Express endpoint: configuration requests, and the states of its link (O43; R337, R338, R345, R346, R370, R407).
-/
namespace Sys2Proof.Machine

open Sys2Proof

namespace State

section
variable {s : State} {i v : Nat}

/-- PERST_N and RESET_N are high (R407). -/
def LinkFree (s : State) : Prop := s.pci.perstLow = false ∧ s.boot.held = false

theorem LinkFree.off (h : s.LinkFree) : (s.pci.perstLow || s.boot.held) = false := by simp [h.1, h.2]

theorem not_linkFree (h : s.pci.perstLow = true ∨ s.boot.held = true) : (s.pci.perstLow || s.boot.held) = true := by
  simpa using h

/-! ## Configuration requests (R337, R338) -/

theorem cfgRequest_held (h : s.pci.perstLow = true ∨ s.boot.held = true) (w : Option W32) : s.cfgRequest i w = s :=
  if_pos (not_linkFree h)

theorem cfgRequest_early (h : s.LinkFree) (h0 : s.stage = 0) (w : Option W32) : s.cfgRequest i w = s.emit .crs := by
  simp [cfgRequest, h.1, h.2, h0]

theorem cfgRequest_read (h : s.LinkFree) (h0 : s.stage ≠ 0) :
    s.cfgRequest i none = s.emit (.cpl [s.cfgRead i] false) := by
  simp [cfgRequest, h.1, h.2, h0]

/-- The writable bits of a configuration dword are written, the others stay. -/
def cfgWritten (s : State) (i : Nat) (v : W32) : State :=
  { s with pci := { s.pci with
    cfg := tabPut 0 s.pci.cfg i ((tabGet 0 s.pci.cfg i &&& ~~~cfgMask i) ||| (v &&& cfgMask i)) } }

theorem cfgRequest_write (h : s.LinkFree) (h0 : s.stage ≠ 0) (v : W32) :
    s.cfgRequest i (some v) = (s.cfgWritten i v).emit (.cpl [] false) := by
  simp only [cfgRequest, h.off, Bool.false_eq_true, if_false, if_neg h0, cfgWritten]

/-! ## The link (R346, R370) -/

theorem pciUp_held (h : s.pci.perstLow = true ∨ s.boot.held = true) (sp w : Nat) : s.pciUp sp w = s :=
  if_pos (not_linkFree h)

/-- The link is up at a speed and width (R370). -/
def linkShown (s : State) (sp w : Nat) : State :=
  let u := ((s.set pciPg F.PCI_LINK_SPEED sp).set pciPg F.PCI_LINK_WIDTH w).set pciPg F.PCI_LINK_PSTATE 0
  { u with pci := { u.pci with linkUp := true } }

theorem pciUp_trains (h : s.LinkFree) (sp w : Nat) : s.pciUp sp w = (s.linkShown sp w).msiFlush :=
  if_neg (by simp [h.off])

theorem d0Return_none (h : s.pci.d3 = false) : s.d0Return = s := if_neg (by simp [h])

theorem d0Return_leaves (h : s.pci.d3 = true) : s.d0Return =
    ({ s.set pciPg F.PCI_LINK_PSTATE 0 with pci := { s.pci with d3 := false } } : State).msiFlush := if_pos h

/-! ## MSI-X messages (R345, R346) -/

theorem msi_sent (hl : s.pci.linkUp = true) (hd : s.pci.d3 = false) (hm : s.msixMasked v = false) :
    s.msi v = s.emit (.msix v) := if_pos (by simp [hl, hd, hm])

theorem msi_pends (h : s.pci.linkUp = false ∨ s.pci.d3 = true ∨ s.msixMasked v = true) (hv : v ∉ s.pci.pba) :
    s.msi v = { s with pci := { s.pci with pba := s.pci.pba ++ [v] } } := by
  have hc : (s.pci.linkUp && !s.pci.d3 && !s.msixMasked v) = false := by
    rcases h with h | h | h <;> simp [h]
  rw [msi, if_neg (by simp [hc]), if_neg (by simpa using hv)]

end

end State

end Sys2Proof.Machine

namespace Sys2Proof

open Sys2Proof.Machine Sys2Proof.Machine.State

section
variable {s t : State}

theorem does_pcieConfigRequest {i : Fin 1024} {w : Option W32} (h : s.cfgRequest i.val w = t) :
    Does (.pcieConfigRequest i w) s t := .of rfl h

theorem does_pcieLinkUp {sp : Fin 6} {w : Fin 17} (h : s.pciUp sp.val w.val = t) : Does (.pcieLinkUp sp w) s t :=
  .of rfl h

theorem does_d0Return (h : s.d0Return = t) : Does .d0Return s t := .of rfl h

end

/-- Settles O43: a request by what the endpoint's resets and the stage let it answer, and each event of the link. -/
theorem endpointAnswersAndChangesState : Obligations.EndpointAnswersAndChangesState := by
  unfold Obligations.EndpointAnswersAndChangesState
  refine ⟨fun s i w sp n h => ⟨?held, ?down⟩, fun s i w hp hb h0 => ?early, fun s i v hp hb h0 => ⟨?read, ?write⟩,
    fun s sp w hp hb => ?up, fun s => ⟨.of rfl rfl, .of rfl rfl, fun h => ?stays, fun h => ?leaves⟩,
    fun s v => ⟨fun hl hd hm => msi_sent hl hd hm, fun h hv => msi_pends h hv⟩⟩
  case held => exact does_pcieConfigRequest (cfgRequest_held h w)
  case down => exact does_pcieLinkUp (pciUp_held h _ _)
  case early => exact does_pcieConfigRequest (cfgRequest_early ⟨hp, hb⟩ h0 w)
  case read => exact does_pcieConfigRequest (cfgRequest_read ⟨hp, hb⟩ h0)
  case write => exact does_pcieConfigRequest (cfgRequest_write ⟨hp, hb⟩ h0 v)
  case up => exact does_pcieLinkUp (pciUp_trains ⟨hp, hb⟩ _ _)
  case stays => exact does_d0Return (d0Return_none h)
  case leaves => exact does_d0Return (d0Return_leaves h)

end Sys2Proof

/-!
Ethernet frames through the descriptor rings, and the port's link (O44; R343, R344, R346, R362 to R365, R370).
-/
namespace Sys2Proof.Machine

open Sys2Proof

namespace State

section
variable {s : State} {e st : Nat} {f : List Byte} {d : List W32}

/-! ## Reception (R362 to R364) -/

/-- The receive ring has a descriptor that the device owns, and host memory can be reached (R346, R362). -/
def RxHas (s : State) (e : Nat) (d : List W32) : Prop :=
  s.pci.linkUp = true ∧ s.pci.d3 = false ∧ s.get (ethPg e) F.ETH_RXR_HEAD_HEAD ≠ s.get (ethPg e) F.ETH_RXR_TAIL_TAIL ∧
    (d.getD 2 0).getLsbD 14 = true

theorem rxHas_iff : (s.ethHost && s.ethHas e false && (d.getD 2 0).getLsbD 14) = true ↔ s.RxHas e d := by
  simp only [ethHost, ethHas, ethHeadF, ethTailF, RxHas, Bool.and_eq_true, Bool.not_eq_true', bne_iff_ne,
    Bool.false_eq_true, if_false, and_assoc]

theorem ethRx_off (h : s.ethOn e = false) : s.ethRx e f st d = s := by simp only [ethRx, h, Bool.not_false, if_true]

section
variable (h : s.ethOn e = true)
include h

theorem ethRx_uncorrectable (hs : st = 2) (hf : s.flag (ethPg e) F.ETH_CTL_FEC = true) : s.ethRx e f st d =
    ((s.put (ethPg e) F.ETH_STS_FEC_UNCORR true).rise (ethPg e) X.ETH_FEC_UNCORR).bump (ethPg e) F.ETH_CNT_FCS 1 := by
  simp only [ethRx, h, hs, hf, Bool.not_true, Bool.false_eq_true, if_false, and_self, if_true]

theorem ethRx_badFcs (hs : st = 1 ∨ (st = 2 ∧ s.flag (ethPg e) F.ETH_CTL_FEC = false)) :
    s.ethRx e f st d = s.bump (ethPg e) F.ETH_CNT_FCS 1 := by
  have hn : ¬ (st = 2 ∧ s.flag (ethPg e) F.ETH_CTL_FEC = true) := by
    rintro ⟨h2, hf⟩
    rcases hs with h1 | ⟨-, hf'⟩
    · omega
    · simp [hf] at hf'
  have h0 : st ≠ 0 := by omega
  simp only [ethRx, h, hn, h0, Bool.not_true, Bool.false_eq_true, if_false, ne_eq, not_false_iff, if_true]

theorem ethRx_dropped (hs : st = 0) (hd : ¬ s.RxHas e d) : s.ethRx e f st d =
    ((s.put (ethPg e) F.ETH_STS_RX_DROP true).bump (ethPg e) F.ETH_CNT_DROP 1).rise (ethPg e) X.ETH_RX_DROP := by
  rw [← rxHas_iff, Bool.not_eq_true] at hd
  simp only [ethRx, h, hs, hd, Bool.not_true, Bool.not_false, Bool.false_eq_true, if_false, if_true, ne_eq, not_true,
    show ¬ (0 = 2) by omega, false_and]

/-- A sound frame goes to its buffer, cut to its size, and the descriptor is written back (R362). -/
theorem ethRx_taken (hs : st = 0) (hd : s.RxHas e d) : s.ethRx e f st d =
    let u := s.emit (.hostBytes ((d.getD 0 0).toNat + (d.getD 1 0).toNat * 2 ^ 32) (f.take (fget (d.getD 2 0) 13 0)))
    u.ethBack e false ([d.getD 0 0, d.getD 1 0,
      doneWord f.length true false (ptpEvent f).isSome (decide (fget (d.getD 2 0) 13 0 < f.length)), ptpWord f] ++
        stampWds (u.ethStamp e false)) := by
  rw [← rxHas_iff] at hd
  simp only [ethRx, h, hs, hd, Bool.not_true, Bool.false_eq_true, if_false, ne_eq, not_true, show ¬ (0 = 2) by omega,
    false_and]

end

/-! ## Transmission (R343, R362, R365) -/

/-- The port sends the descriptor at HEAD: it works, host memory can be reached and the device owns it (R346, R362). -/
def TxMay (s : State) (e : Nat) (d : List W32) : Prop :=
  s.ethOn e = true ∧ s.pci.linkUp = true ∧ s.pci.d3 = false ∧
    s.get (ethPg e) F.ETH_TXR_HEAD_HEAD ≠ s.get (ethPg e) F.ETH_TXR_TAIL_TAIL ∧ (d.getD 2 0).getLsbD 14 = true

theorem txMay_iff : (s.ethOn e && s.ethHost && s.ethHas e true && (d.getD 2 0).getLsbD 14) = true ↔ s.TxMay e d := by
  simp only [ethHost, ethHas, ethHeadF, ethTailF, TxMay, Bool.and_eq_true, Bool.not_eq_true', bne_iff_ne, if_true,
    and_assoc]

/-- The frame as sent with one-step insertion, where its descriptor asks for it (R365). -/
def inserted (s : State) (e : Nat) (w : W32) (g : List Byte) : Option (List Byte) :=
  if w.getLsbD 16 then
    (ptpEvent g).bind (fun x => oneStep g x (s.ethStamp e true) (s.flag (ethPg e) F.ETH_CTL_UDP4_ZERO))
  else none

/-- A frame is sent, padded to 60 bytes, and its descriptor written back (R362, R365). -/
def txSent (s : State) (e : Nat) (d : List W32) (g : List Byte) (o : Option (List Byte)) : State :=
  let w := d.getD 2 0
  (s.emit (.eth e (o.getD g ++ List.replicate (60 - g.length) 0))).ethBack e true
    ([d.getD 0 0, d.getD 1 0,
      doneWord (fget w 13 0) (w.getLsbD 15) (w.getLsbD 16) (ptpEvent g).isSome (w.getLsbD 16 && o.isNone), ptpWord g] ++
      (if w.getLsbD 15 then stampWds (s.ethStamp e true) else (List.range 4).map (fun i => d.getD (i + 4) 0)))

theorem ethTx_none {bad : Bool} (h : ¬ s.TxMay e d) : s.ethTx e f d bad = s := by
  rw [← txMay_iff, Bool.not_eq_true] at h
  simp only [ethTx, h, Bool.not_false, if_true]

theorem ethTx_poisoned (h : s.TxMay e d) : s.ethTx e f d true = s.ethErr e true d := by
  rw [← txMay_iff] at h
  simp only [ethTx, h, Bool.not_true, Bool.false_eq_true, if_false, if_true]

theorem ethTx_sends (h : s.TxMay e d) : s.ethTx e f d false =
    let g := f.take (fget (d.getD 2 0) 13 0)
    s.txSent e d g (s.inserted e (d.getD 2 0) g) := by
  rw [← txMay_iff] at h
  simp only [ethTx, h, Bool.not_true, Bool.false_eq_true, if_false, txSent, inserted]
  cases ptpEvent (f.take (fget (d.getD 2 0) 13 0)) with
  | none => simp only [Option.bind_none, ite_self]
  | some p => rfl

/-! ## Completion timeouts (R344) -/

theorem cplTmo_eq (tx : Bool) : s.cplTmo e tx d =
    let u := (s.put pciPg F.PCI_STS_CPL_TMO true).rise pciPg X.PCI_CPL_TMO
    if u.ethHas e tx then u.ethErr e tx d else u := rfl

end

end State

end Sys2Proof.Machine

namespace Sys2Proof

open Sys2Proof.Machine Sys2Proof.Machine.State

section
variable {s t : State} {e : Fin 2} {f : List Byte} {d : List W32}

theorem does_ethRxFrame {st : Fin 3} (h : s.ethRx e.val f st.val d = t) : Does (.ethRxFrame e f st d) s t := .of rfl h

theorem does_ethTxFrame {bad : Bool} (h : s.ethTx e.val f d bad = t) : Does (.ethTxFrame e f d bad) s t := .of rfl h

theorem does_cplTmo {tx : Bool} (h : s.cplTmo e.val tx d = t) : Does (.cplTmo e tx d) s t := .of rfl h

end

/-- Settles O44: a frame by the port, its FCS and the descriptor at HEAD. -/
theorem ethernetFramesMoveThroughRings : Obligations.EthernetFramesMoveThroughRings := by
  unfold Obligations.EthernetFramesMoveThroughRings
  refine ⟨fun s e f st d => ⟨fun h => does_ethRxFrame (ethRx_off h), fun h => ⟨fun hs hf => ?uncorrectable,
      fun hs => ?badFcs, fun hs hd => ?dropped, fun hs hd => ?taken⟩⟩,
    fun s e f d bad => ⟨fun h => ?notSent, fun h hb => ?poisoned, fun h hb o ho => ?sent⟩,
    fun s e tx d => ⟨fun h => ?err, fun h => ?timeout⟩, fun s e => ⟨.of rfl rfl, .of rfl rfl⟩⟩
  case uncorrectable => exact does_ethRxFrame (ethRx_uncorrectable h hs hf)
  case badFcs => exact does_ethRxFrame (ethRx_badFcs h hs)
  case dropped => exact does_ethRxFrame (ethRx_dropped h hs hd)
  case taken => exact does_ethRxFrame (ethRx_taken h hs hd)
  case notSent => exact does_ethTxFrame (ethTx_none h)
  case poisoned =>
    subst hb
    exact does_ethTxFrame (ethTx_poisoned h)
  case sent =>
    subst hb ho
    exact does_ethTxFrame (ethTx_sends h)
  case err => exact does_cplTmo ((cplTmo_eq tx).trans (if_pos h))
  case timeout => exact does_cplTmo ((cplTmo_eq tx).trans (if_neg (Bool.eq_false_iff.1 h)))

end Sys2Proof

/-!
Packets of the Welt links (O45; R350, R351, R353, R356).
-/
namespace Sys2Proof.Machine

open Sys2Proof

namespace State

section
variable {s : State} {n seq : Nat}

/-! ## A packet received (R350, R351) -/

/-- A bad packet is counted, and answered with a NAK unless one is out (R351). -/
def badCounted (s : State) (n : Nat) : State :=
  let u := s.bump (wltPg n) F.WLT_CNT_CRC_ERRS 1
  if (s.wltOf n).nak = true then u
  else (u.setWlt n { s.wltOf n with due := 0, nak := true }).emit (.welt n 3 [((s.wltOf n).rxSeq + 4095) % 4096, 1])

theorem wltBad_down (h : s.wltUp n = false) : s.wltBad n = s := if_pos (by simp [h])

theorem wltBad_up (h : s.wltUp n = true) : s.wltBad n = s.badCounted n := by
  simp only [wltBad, h, Bool.not_true, Bool.false_eq_true, if_false]
  rfl

/-- A packet in SEQ order: the next SEQ is expected and an acknowledgement is due (R351). -/
def inOrder (s : State) (n seq : Nat) : State :=
  s.setWlt n { s.wltOf n with rxSeq := (seq + 1) % 4096, due := (s.wltOf n).due + 1, nak := false }

/-- 32 packets that are not acknowledged are acknowledged at once (R351). -/
def ackFull (n : Nat) (t : State) : State := if 32 ≤ (t.wltOf n).due then t.wltAck n false else t

variable {f : State → State}

theorem wltRx_down (h : s.wltUp n = false) : s.wltRx n seq f = s := if_pos (by simp [h])

theorem wltRx_outOfOrder (h : s.wltUp n = true) (hs : seq ≠ (s.wltOf n).rxSeq) : s.wltRx n seq f = s.badCounted n := by
  rw [← wltBad_up h]
  simp [wltRx, h, hs]

theorem wltRx_inOrder (h : s.wltUp n = true) (hs : seq = (s.wltOf n).rxSeq) :
    s.wltRx n seq f = ackFull n (f (s.inOrder n seq)) := by
  subst hs
  simp only [wltRx, h, Bool.not_true, Bool.false_eq_true, if_false, ne_eq, not_true]
  rfl

/-! ## Acknowledgements and replays (R351) -/

/-- The packets up to place `i` are free again; a capture send goes on, and is done at its last one (R351, R356). -/
def freed (s : State) (n i : Nat) : State :=
  ((s.setWlt n { s.wltOf n with replay := (s.wltOf n).replay.drop (i + 1), tries := 0 }).capsPump n 57).capsDone n

theorem wltAcked_none (h : (s.wltOf n).replay.findIdx? (fun x => x.seq == seq) = none) : s.wltAcked n seq = s := by
  simp only [wltAcked, h]

theorem wltAcked_some {i : Nat} (h : (s.wltOf n).replay.findIdx? (fun x => x.seq == seq) = some i) :
    s.wltAcked n seq = s.freed n i := by
  simp only [wltAcked, h]
  rfl

/-- The packets not acknowledged are sent again. -/
def sentAgain (n : Nat) (l : List WPkt) (u : State) : State :=
  l.foldl (fun s x => s.emit (.welt n x.kind (x.seq :: x.ws))) u

theorem wltReplay_none (h : (s.wltOf n).replay = [] ∨ s.wltUp n = false) : s.wltReplay n = s :=
  if_pos (by rcases h with h | h <;> simp [h])

section
variable (h : (s.wltOf n).replay ≠ []) (hu : s.wltUp n = true)
include h hu

theorem wltReplay_retrains (ht : max 1 (s.get (wltPg n) F.WLT_CTL_REPLAY_MAX) ≤ (s.wltOf n).tries) :
    s.wltReplay n = (s.setWlt n { s.wltOf n with tries := 0 }).setWltState n 1 := by
  simp only [wltReplay, List.isEmpty_eq_false_iff.2 h, hu, Bool.not_true, Bool.or_self, Bool.false_eq_true, if_false,
    ht, if_true]

theorem wltReplay_again (ht : (s.wltOf n).tries < max 1 (s.get (wltPg n) F.WLT_CTL_REPLAY_MAX)) :
    s.wltReplay n = sentAgain n (s.wltOf n).replay
      ((s.setWlt n { s.wltOf n with tries := (s.wltOf n).tries + 1 }).bump (wltPg n) F.WLT_CNT_REPLAYS 1) := by
  simp only [wltReplay, List.isEmpty_eq_false_iff.2 h, hu, Bool.not_true, Bool.or_self, Bool.false_eq_true, if_false,
    Nat.not_le.2 ht, sentAgain]

end

end

end State

end Sys2Proof.Machine

namespace Sys2Proof

open Sys2Proof.Machine Sys2Proof.Machine.State

section
variable {s t : State} {n : Fin 4} {seq : BitVec 12} {src : BitVec 6} {mid : Byte} {ttl : BitVec 6}

theorem does_weltTrigMsg {code : Byte} (h : s.wltRx n.val seq.toNat (fun s => s.weltMsg
    ⟨false, 0, code.toNat, src.toNat, mid.toNat, ttl.toNat, some n.val⟩) = t) :
    Does (.weltTrigMsg n seq code src mid ttl) s t := .of rfl h

theorem does_weltCapturePacket {ofs : BitVec 30} {len : Fin 16} {ws : List W32} {pm : BitVec 4}
    (h : s.wltRx n.val seq.toNat (fun s => s.capsRx n.val ofs.toNat
      ((ws ++ List.replicate 32 0).take (2 * (len.val + 1))) pm.toNat) = t) :
    Does (.weltCapturePacket n seq ofs len ws pm) s t := .of rfl h

section
variable {typ : BitVec 4} {data : BitVec 48}

/-- A lace message of a type that the Welt carries (R353). -/
theorem does_weltLaceMsg (hl : 2 ≤ typ.toNat ∧ typ.toNat ≤ 4) (h : s.wltRx n.val seq.toNat (fun s => s.weltMsg
    ⟨true, typ.toNat, data.toNat, src.toNat, mid.toNat, ttl.toNat, some n.val⟩) = t) :
    Does (.weltLaceMsg n seq typ data src mid ttl) s t := .of rfl ((if_pos hl).trans h)

theorem does_weltLaceMsg_bad (hl : ¬ (2 ≤ typ.toNat ∧ typ.toNat ≤ 4)) (h : s.wltBad n.val = t) :
    Does (.weltLaceMsg n seq typ data src mid ttl) s t := .of rfl ((if_neg hl).trans h)

/-- What a link refuses it refuses of any type. -/
theorem does_weltLaceMsg_refused (hr : ∀ f, s.wltRx n.val seq.toNat f = t) (hb : s.wltBad n.val = t) :
    Does (.weltLaceMsg n seq typ data src mid ttl) s t := by
  by_cases hl : 2 ≤ typ.toNat ∧ typ.toNat ≤ 4
  · exact does_weltLaceMsg hl (hr _)
  · exact does_weltLaceMsg_bad hl hb

end

theorem does_weltBadPacket (h : s.wltBad n.val = t) : Does (.weltBadPacket n) s t := .of rfl h

theorem does_weltAck (h : s.wltAcked n.val seq.toNat = t) : Does (.weltAck n seq) s t := .of rfl h

theorem does_weltNak {u : State} (hu : s.wltAcked n.val seq.toNat = u) (h : u.wltReplay n.val = t) :
    Does (.weltNak n seq) s t := .of rfl ((congrArg (·.wltReplay n.val) hu).trans h)

theorem does_weltReplayTimeout (h : s.wltReplay n.val = t) : Does (.weltReplayTimeout n) s t := .of rfl h

theorem does_weltAckTimer (h : (if (s.wltOf n.val).due = 0 then s else s.wltAck n.val false) = t) :
    Does (.weltAckTimer n) s t := .of rfl h

end

/-- Settles O45: a packet by the link's state and its SEQ, an acknowledgement by the packets that wait for it. -/
theorem weltPacketsAreAcceptedInOrder : Obligations.WeltPacketsAreAcceptedInOrder := by
  unfold Obligations.WeltPacketsAreAcceptedInOrder
  refine ⟨fun s n seq code src mid ttl typ data ofs len ws pm => ⟨fun h => ?down,
      fun h => does_weltBadPacket (wltBad_up h), fun h hs => ?outOfOrder, fun h hl => ?reserved,
      fun h hs => ⟨?trigger, fun hl => ?lace, ?capture⟩⟩,
    fun s n seq => ⟨fun h => ⟨?ackNone, ?nakNone⟩, fun i h => ⟨?ackSome, ?nakSome⟩,
      fun h => does_weltReplayTimeout (wltReplay_none h), fun h hu ht => ?retrains, fun h hu ht => ?again,
      fun h => ?noneDue, fun h => ?due⟩⟩
  case down =>
    exact ⟨does_weltTrigMsg (wltRx_down h), does_weltLaceMsg_refused (fun _ => wltRx_down h) (wltBad_down h),
      does_weltCapturePacket (wltRx_down h), does_weltBadPacket (wltBad_down h)⟩
  case outOfOrder =>
    exact ⟨does_weltTrigMsg (wltRx_outOfOrder h hs),
      does_weltLaceMsg_refused (fun _ => wltRx_outOfOrder h hs) (wltBad_up h),
      does_weltCapturePacket (wltRx_outOfOrder h hs)⟩
  case reserved => exact does_weltLaceMsg_bad hl (wltBad_up h)
  case trigger => exact does_weltTrigMsg (wltRx_inOrder h hs)
  case lace => exact does_weltLaceMsg hl (wltRx_inOrder h hs)
  case capture => exact does_weltCapturePacket (wltRx_inOrder h hs)
  case ackNone => exact does_weltAck (wltAcked_none h)
  case nakNone => exact does_weltNak (wltAcked_none h) rfl
  case ackSome => exact does_weltAck (wltAcked_some h)
  case nakSome => exact does_weltNak (wltAcked_some h) rfl
  case retrains => exact does_weltReplayTimeout (wltReplay_retrains h hu ht)
  case again => exact does_weltReplayTimeout (wltReplay_again h hu ht)
  case noneDue => exact does_weltAckTimer (if_pos h)
  case due => exact does_weltAckTimer (if_neg h)

end Sys2Proof

/-!
Messages of the Welt links, capture sends and eye scans (O46; R352, R353, R356, R360).
-/
namespace Sys2Proof.Machine

open Sys2Proof

namespace State

section
variable {s : State} {n : Nat} {v : W32}

/-! ## Messages (R352, R353) -/

theorem msgCtl_go (h : v.getLsbD 31 = true) : s.msgCtl v =
    let u := s.writeReg (wltPg 0) 0x144 v false
    u.weltOwn false 0 (u.get (wltPg 0) F.WLT_MSG_CODE) := if_pos h

theorem weltSend_none (h : s.wq = []) : s.weltSend = s := by simp only [weltSend, h]

/-- The links on which a message leaves (R352). -/
def msgLinks (s : State) (m : WMsg) : List Nat :=
  (List.range 4).filter (fun n => s.wltUp n && s.flag (wltPg n) F.WLT_CTL_FWD && m.link != some n)

/-- A message is sent on a link, or waits for it to wake (R352, R359). -/
def msgOn (m : WMsg) (k : Nat) (s : State) (n : Nat) : State :=
  if s.wltAwake n then s.wltSend n k (msgFields m) (1 + k)
  else (s.setWlt n { s.wltOf n with waitq := (s.wltOf n).waitq ++ [(k, msgFields m)] }).wltWake n

/-- The message has left the queue, and 256 UI are to pass before the next (R352). -/
def msgTaken (s : State) (r : List WMsg) : State :=
  { s.upToMono s.wquiet with wq := r, wquiet := (s.upToMono s.wquiet).mono + 256 * 1024 }

/-- A link of the message has no room for it (R352). -/
def MsgStuck (s : State) (m : WMsg) : Prop :=
  ∃ n ∈ s.msgLinks m, 1024 < replayBlocks (s.wltOf n) + 1 + b2n m.lace

theorem weltSend_eq {m : WMsg} {r : List WMsg} (h : s.wq = m :: r) : s.weltSend =
    if (s.msgLinks m).any (fun n => decide (1024 < replayBlocks (s.wltOf n) + 1 + b2n m.lace)) = true then s
    else (s.msgLinks m).foldl (msgOn m (b2n m.lace)) (s.msgTaken r) := by
  simp only [weltSend, h]
  rfl

theorem msgStuck_iff {m : WMsg} : (s.msgLinks m).any
    (fun n => decide (1024 < replayBlocks (s.wltOf n) + 1 + b2n m.lace)) = true ↔ s.MsgStuck m := by
  simp only [MsgStuck, List.any_eq_true, decide_eq_true_eq]

theorem lastExpiry_none {src : Nat} (h : ∀ x ∈ s.wlast, x.1 ≠ src) : s.lastExpiry src = s := by
  have hf : s.wlast.find? (fun x => x.1 == src) = none := List.find?_eq_none.2 (fun x hx => by simpa using h x hx)
  simp only [lastExpiry, hf]

theorem wlast_upToMono (m : Nat) : (s.upToMono m).wlast = s.wlast := by
  unfold upToMono upTo
  split <;> rfl

theorem lastExpiry_some {src : Nat} {x : Nat × Nat × Nat} (h : s.wlast.find? (fun x => x.1 == src) = some x) :
    s.lastExpiry src =
      { s.upToMono (x.2.2 + 131072000000) with wlast := s.wlast.filter (fun x => x.1 != src) } := by
  simp only [lastExpiry, h, wlast_upToMono]

/-! ## Capture sends (R356) -/

/-- A write of WLT_CAPS_CTL with GO. -/
def capsWritten (s : State) (n : Nat) (v : W32) : State := s.writeReg (wltPg n) 0x12C v false

/-- The capture send that the registers describe begins (R356). -/
def capsBegun (u : State) (n : Nat) : State :=
  let p := wltPg n
  let src := u.get p F.WLT_CAPS_SRC_LO_ADDR + u.get p F.WLT_CAPS_SRC_HI_ADDR * 2 ^ 27
  let d := { u.wltOf n with caps := some (src, u.get p F.WLT_CAPS_OFS_OFS, u.get p F.WLT_CAPS_CTL_LEN) }
  (((u.setWlt n d).put p F.WLT_CAPS_CTL_BUSY true).wltWake n).capsPump n 57

theorem capsCtl_eq {u : State} (h : v.getLsbD 28 = true) (hu : s.capsWritten n v = u) : s.capsCtl n v =
    if (u.flag (wltPg n) F.WLT_CAPS_CTL_BUSY || u.get (wltPg n) F.WLT_CAPS_CTL_LEN == 0) = true then u
    else u.capsBegun n := by
  simp only [capsWritten] at hu
  simp only [capsCtl, h, hu, Bool.not_true, Bool.false_or, capsBegun]

/-! ## Eye scans (R360) -/

/-- A write of WLT_ESCAN_CTL; DWELL is 20 to 40, another is refused. -/
def scanWritten (s : State) (n : Nat) (v : W32) : State :=
  s.writeReg (wltPg n) 0x130 v (decide (fget v 20 15 < 20) || decide (40 < fget v 20 15))

theorem scanCtl_eq {u : State} (h : v.getLsbD 21 = true) (hu : s.scanWritten n v = u) : s.scanCtl n v =
    if (!u.flag (wltPg n) F.WLT_ESCAN_CTL_BUSY) = true then
      (u.setWlt n { u.wltOf n with scan := some (u.get (wltPg n) F.WLT_ESCAN_CTL_LANE) }).put (wltPg n)
        F.WLT_ESCAN_CTL_BUSY true
    else u := by
  simp only [scanWritten] at hu
  simp only [scanCtl, h, hu, Bool.true_and]

theorem scanDone_none (h : (s.wltOf n).scan = none) (errs : Nat) : s.scanDone n errs = s := by simp only [scanDone, h]

theorem scanDone_some {l : Nat} (h : (s.wltOf n).scan = some l) (errs : Nat) : s.scanDone n errs =
    ((s.setWlt n { s.wltOf n with scan := none }).put (wltPg n) F.WLT_ESCAN_CTL_BUSY false).set (wltPg n)
      F.WLT_ESCAN_ERR_ERRORS (min errs (2 ^ 32 - 1)) := by simp only [scanDone, h]

end

/-- A bit of a word that a command's own bit is set in. -/
theorem getLsbD_or_one {v w : W32} {i : Nat} (h : w.getLsbD i = true) : (v ||| w).getLsbD i = true := by
  rw [BitVec.getLsbD_or, h, Bool.or_true]

theorem getLsbD_or_zero {v w : W32} {i : Nat} (h : w.getLsbD i = false) : (v ||| w).getLsbD i = v.getLsbD i := by
  rw [BitVec.getLsbD_or, h, Bool.or_false]

end State

end Sys2Proof.Machine

namespace Sys2Proof

open Sys2Proof.Machine Sys2Proof.Machine.State

section
variable {s t : State} {n : Fin 4} {v : W32}

/-- A command on a page that it reaches. -/
theorem does_onPage {c : Instr} {p : Nat} {f : State → State} (he : exec c s = done (s.onPage p f))
    (hr : Reaches s p) (h : f s = t) : Does c s t := .of he ((onPage_reaches s p f hr).trans h)

theorem does_wltMsgGo (hr : Reaches s (wltPg 0)) (h : s.msgCtl (v ||| 0x80000000) = t) : Does (.wltMsgGo v) s t :=
  does_onPage rfl hr h

theorem does_weltMsgSend (h : s.weltSend = t) : Does .weltMsgSend s t := .of rfl h

theorem does_weltLastExpiry {src : BitVec 6} (h : s.lastExpiry src.toNat = t) : Does (.weltLastExpiry src) s t :=
  .of rfl h

theorem does_capsGo (hr : Reaches s (wltPg n.val)) (h : s.capsCtl n.val (v ||| 0x10000000) = t) :
    Does (.capsGo n v) s t := does_onPage rfl hr h

theorem does_escanGo (hr : Reaches s (wltPg n.val)) (h : s.scanCtl n.val (v ||| 0x200000) = t) :
    Does (.escanGo n v) s t := does_onPage rfl hr h

theorem does_escanDone {errs : Nat} (h : s.scanDone n.val errs = t) : Does (.escanDone n errs) s t := .of rfl h

end

/-- Settles O46: messages by the room of their links, capture sends and eye scans by what is in progress. -/
theorem weltMessagesAndCapturesAreSent : Obligations.WeltMessagesAndCapturesAreSent := by
  unfold Obligations.WeltMessagesAndCapturesAreSent
  refine ⟨⟨fun s v hr => ?go, fun s h => does_weltMsgSend (weltSend_none h),
      fun s m r h => ⟨fun hf => ?stuck, fun hf => ?sends⟩,
      fun s src => ⟨fun h => does_weltLastExpiry (lastExpiry_none h),
        fun x h => does_weltLastExpiry (lastExpiry_some h)⟩⟩,
    fun s n v => ⟨fun hr => ⟨fun hb => ?capsNone, fun hb hl => ?capsBegins⟩,
      fun hr => ⟨fun hb => ?scanBusy, fun hb => ?scanBegins⟩,
      fun errs h => does_escanDone (scanDone_none h errs), fun errs l h => does_escanDone (scanDone_some h errs)⟩⟩
  case go => exact does_wltMsgGo hr (msgCtl_go (getLsbD_or_one rfl))
  case stuck => exact does_weltMsgSend ((weltSend_eq h).trans (if_pos (msgStuck_iff.2 hf)))
  case sends => exact does_weltMsgSend ((weltSend_eq h).trans (if_neg (mt msgStuck_iff.1 hf)))
  case capsNone =>
    refine does_capsGo hr ((capsCtl_eq (getLsbD_or_one rfl) rfl).trans (if_pos ?_))
    rcases hb with hb | hb
    · rw [Bool.or_eq_true]
      exact Or.inl hb
    · rw [Bool.or_eq_true, beq_iff_eq]
      exact Or.inr hb
  case capsBegins =>
    refine does_capsGo hr ((capsCtl_eq (getLsbD_or_one rfl) rfl).trans (if_neg ?_))
    rw [Bool.or_eq_true, beq_iff_eq]
    rintro (h | h)
    · exact absurd (h.symm.trans hb) (by decide)
    · exact hl h
  case scanBusy =>
    refine does_escanGo hr ((scanCtl_eq (getLsbD_or_one rfl) rfl).trans (if_neg ?_))
    rw [Bool.not_eq_true', Bool.not_eq_false]
    exact hb
  case scanBegins =>
    refine does_escanGo hr ((scanCtl_eq (getLsbD_or_one rfl) rfl).trans (if_pos ?_))
    rw [Bool.not_eq_true']
    exact hb

end Sys2Proof

/-!
The states of the Welt links: training, lane failures and sleep (O47; R349, R351, R357 to R359).
-/
namespace Sys2Proof.Machine

open Sys2Proof

namespace State

section
variable {s : State} {n : Nat}

/-! ## Training (R357, R358) -/

/-- The lanes that locked, are enabled and had not failed (R357). -/
def lanesLocked (en failed good : Nat) : Nat :=
  (List.range 4).foldl
    (fun m i => if en.testBit i && good.testBit i && !failed.testBit i then setBit m i else m) 0

/-- The registers at the end of training; a lane newly failed raises LANE_FAIL (R358, log entry 176). -/
def trainShown (s : State) (n lanes far : Nat) : State :=
  let p := wltPg n
  let failed := s.get p F.WLT_STS_FAILED
  let out := failed ||| (s.get p F.WLT_CTL_LANE_EN ^^^ lanes)
  let v := ((s.set p F.WLT_STS_LANES lanes).set p F.WLT_STS_FAILED out).set p F.WLT_STS_FAR_DEV far
  if out = failed then v else v.rise p X.WLT_LANE_FAIL

/-- A link comes up and sends its packets again (R351, R357). -/
def trainedUp (n : Nat) (u : State) : State :=
  let w := u.setWltState n (u.wltRest n)
  (sentAgain n (w.wltOf n).replay (w.setWlt n { w.wltOf n with tries := 0 })).capsPump n 57

theorem trainDone_eq {good far lanes : Nat}
    (hl : lanesLocked (s.get (wltPg n) F.WLT_CTL_LANE_EN) (s.get (wltPg n) F.WLT_STS_FAILED) good = lanes) :
    s.trainDone n good far =
      if s.enabled (wltPg n) = true ∧ s.wltState n ≤ 1 then
        if lanes = 0 then s.setWltState n 1 else trainedUp n (s.trainShown n lanes far)
      else s := by
  simp only [lanesLocked] at hl
  simp only [trainDone, hl, trainedUp, trainShown, sentAgain]

/-! ## Lane failures (R358) -/

/-- The lane has failed; an eye scan on it ends with ABORTED (R358, R360). -/
def laneGone (s : State) (n lane : Nat) : State :=
  let p := wltPg n
  let a := ((s.set p F.WLT_STS_LANES (clearBit (s.get p F.WLT_STS_LANES) lane)).set p F.WLT_STS_FAILED
    (setBit (s.get p F.WLT_STS_FAILED) lane)).rise p X.WLT_LANE_FAIL
  if (a.wltOf n).scan = some lane then a.scanAbort n else a

/-- An UP link that lost a lane is DEGRADED (R358). -/
def laneDegraded (n : Nat) (b : State) : State := if b.wltState n = 2 then b.setWltState n 3 else b

theorem laneFail_eq {lane : Nat} : s.laneFail n lane =
    if (!(s.get (wltPg n) F.WLT_STS_LANES).testBit lane) = true then s
    else if (s.laneGone n lane).get (wltPg n) F.WLT_STS_LANES = 0 then (s.laneGone n lane).wltDown n
    else if ((laneDegraded n (s.laneGone n lane)).wltOf n).replay.isEmpty = true then
      laneDegraded n (s.laneGone n lane)
    else sentAgain n ((laneDegraded n (s.laneGone n lane)).wltOf n).replay
      ((laneDegraded n (s.laneGone n lane)).bump (wltPg n) F.WLT_CNT_REPLAYS 1) := by
  simp only [laneFail, laneGone, laneDegraded, sentAgain]
  rfl

/-! ## WLT_CTL: RETRAIN and WAKE (R357, R359) -/

/-- A write of WLT_CTL; SLEEP 3 is refused. -/
def wltWritten (s : State) (n : Nat) (v : W32) : State := s.writeReg (wltPg n) 0x100 v (fget v 7 6 == 3)

/-- Training begins anew, with no lane and none failed (R357, R358). -/
def retrained (u : State) (n : Nat) : State :=
  let p := wltPg n
  ((((u.set p F.WLT_STS_LANES 0).set p F.WLT_STS_FAILED 0).put p F.WLT_STS_TX_HALF false).put p F.WLT_STS_RX_HALF
    false).setWltState n 1

theorem wltCtl_eq {u : State} {v : W32} (hu : s.wltWritten n v = u) : s.wltCtl n v =
    let t := if v.getLsbD 17 = true ∧ u.enabled (wltPg n) = true then u.retrained n else u
    if v.getLsbD 16 = true then t.wltWake n else t := by
  simp only [wltWritten] at hu
  simp only [wltCtl, hu, retrained, Bool.and_eq_true]

/-! ## Sleep (R359) -/

/-- The sleep that a link enters: half sleep for SLEEP 1 with COMPAT (R359). -/
def sleepMode (s : State) (n : Nat) : Nat :=
  if s.get (wltPg n) F.WLT_CTL_SLEEP = 1 ∧ s.flag (wltPg n) F.WLT_CTL_COMPAT = true then 2
  else s.get (wltPg n) F.WLT_CTL_SLEEP

theorem sleepEntry_asleep (h : s.wltAwake n = false) (far : Bool) : s.sleepEntry n far = s := by
  simp only [sleepEntry, h, Bool.not_false, if_true]

section
variable (h : s.wltAwake n = true)
include h

theorem sleepEntry_far : s.sleepEntry n true = s.put (wltPg n) F.WLT_STS_RX_HALF true := by
  simp only [sleepEntry, h, Bool.not_true, Bool.false_eq_true, if_false, if_true]

theorem sleepEntry_busy (hi : s.wltIdle n = false) : s.sleepEntry n false = s := by
  simp only [sleepEntry, h, hi, Bool.not_true, Bool.not_false, Bool.false_eq_true, if_false, if_true]

theorem sleepEntry_idle (hi : s.wltIdle n = true) : s.sleepEntry n false =
    if s.sleepMode n = 1 then s.setWltState n 5
    else if s.sleepMode n = 2 then s.put (wltPg n) F.WLT_STS_TX_HALF true else s := by
  simp only [sleepEntry, h, hi, Bool.not_true, Bool.false_eq_true, if_false, sleepMode]
  rfl

end

/-- The transmitter is awake; a link that slept is up again (R359). -/
def awoken (s : State) (n : Nat) : State :=
  let a := s.put (wltPg n) F.WLT_STS_TX_HALF false
  if a.wltState n = 6 ∨ a.wltState n = 5 then a.setWltState n (a.wltRest n) else a

theorem wakeDone_near : s.wakeDone n false =
    (((s.awoken n).wltOf n).waitq.foldl (fun s m => s.wltSend n m.1 m.2 (1 + m.1))
      ((s.awoken n).setWlt n { (s.awoken n).wltOf n with waitq := [] })).capsPump n 57 := by
  simp only [wakeDone, awoken, Bool.false_eq_true, if_false]

end

end State

end Sys2Proof.Machine

namespace Sys2Proof

open Sys2Proof.Machine Sys2Proof.Machine.State

section
variable {s t : State} {n : Fin 4}

theorem does_weltTrainDone {good : BitVec 4} {far : BitVec 6} (h : s.trainDone n.val good.toNat far.toNat = t) :
    Does (.weltTrainDone n good far) s t := .of rfl h

theorem does_laneFail {lane : Fin 4} (h : s.laneFail n.val lane.val = t) : Does (.laneFail n lane) s t := .of rfl h

theorem does_retrain {v : W32} (hr : Reaches s (wltPg n.val)) (h : s.wltCtl n.val (v ||| 0x20000) = t) :
    Does (.retrain n v) s t := does_onPage rfl hr h

theorem does_wake {v : W32} (hr : Reaches s (wltPg n.val)) (h : s.wltCtl n.val (v ||| 0x10000) = t) :
    Does (.wake n v) s t := does_onPage rfl hr h

theorem does_weltSleepEntry {far : Bool} (h : s.sleepEntry n.val far = t) : Does (.weltSleepEntry n far) s t :=
  .of rfl h

theorem does_weltWakeDone {far : Bool} (h : s.wakeDone n.val far = t) : Does (.weltWakeDone n far) s t := .of rfl h

end

/-- Settles O47: training by the lanes that locked, a lane's failure by those left, sleep by state and mode. -/
theorem weltLinksTrainAndSleep : Obligations.WeltLinksTrainAndSleep := by
  unfold Obligations.WeltLinksTrainAndSleep
  refine ⟨⟨fun s n good far => ⟨fun h => ?untrained, fun h hl => ?noLane, fun h hl => ?trained⟩,
      fun s n lane => ⟨fun h => ?notThere, fun h hl => ?last, fun h hl => ⟨fun hq => ?quiet, fun hq => ?again⟩⟩,
      fun s n => ⟨.of rfl rfl, .of rfl rfl⟩, fun s n v hr => ?retrain⟩,
    fun s n => ⟨fun h far => does_weltSleepEntry (sleepEntry_asleep h far),
      fun h => does_weltSleepEntry (sleepEntry_far h), fun h hi => does_weltSleepEntry (sleepEntry_busy h hi),
      fun h hi => ⟨fun hm => ?sleeps, fun hm => ?halfSleeps, fun h1 h2 => ?stays⟩,
      fun v hr => ⟨fun ht => ?wakes, fun ht => ?awake⟩,
      does_weltWakeDone rfl, does_weltWakeDone wakeDone_near⟩⟩
  case untrained => exact does_weltTrainDone ((trainDone_eq rfl).trans (if_neg h))
  case noLane => exact does_weltTrainDone ((trainDone_eq rfl).trans ((if_pos h).trans (if_pos hl)))
  case trained => exact does_weltTrainDone ((trainDone_eq rfl).trans ((if_pos h).trans (if_neg hl)))
  case notThere => exact does_laneFail (laneFail_eq.trans (if_pos (by rw [h]; rfl)))
  case last =>
    refine does_laneFail (laneFail_eq.trans ((if_neg ?_).trans (if_pos hl)))
    rw [h]; decide
  case quiet =>
    refine does_laneFail (laneFail_eq.trans ((if_neg ?_).trans ((if_neg hl).trans (if_pos ?_))))
    · rw [h]; decide
    · exact List.isEmpty_iff.2 hq
  case again =>
    refine does_laneFail (laneFail_eq.trans ((if_neg ?_).trans ((if_neg hl).trans (if_neg ?_))))
    · rw [h]; decide
    · exact mt List.isEmpty_iff.1 hq
  case retrain =>
    refine does_retrain hr ((wltCtl_eq rfl).trans ?_)
    simp only [getLsbD_or_one (show (0x20000 : W32).getLsbD 17 = true from rfl),
      getLsbD_or_zero (show (0x20000 : W32).getLsbD 16 = false from rfl), true_and]
    rfl
  case sleeps => exact does_weltSleepEntry ((sleepEntry_idle h hi).trans (if_pos hm))
  case halfSleeps =>
    have h1 : ¬ s.sleepMode n.val = 1 := fun h1 => absurd (h1.symm.trans hm) (by decide)
    exact does_weltSleepEntry ((sleepEntry_idle h hi).trans ((if_neg h1).trans (if_pos hm)))
  case stays => exact does_weltSleepEntry ((sleepEntry_idle h hi).trans ((if_neg h1).trans (if_neg h2)))
  case wakes =>
    refine does_wake hr ((wltCtl_eq rfl).trans ?_)
    simp only [getLsbD_or_one (show (0x10000 : W32).getLsbD 16 = true from rfl),
      getLsbD_or_zero (show (0x10000 : W32).getLsbD 17 = false from rfl), if_true]
    exact if_pos ht
  case awake =>
    refine does_wake hr ((wltCtl_eq rfl).trans ?_)
    simp only [getLsbD_or_one (show (0x10000 : W32).getLsbD 16 = true from rfl),
      getLsbD_or_zero (show (0x10000 : W32).getLsbD 17 = false from rfl), if_true]
    exact if_neg ht

end Sys2Proof

/-!
The precision clock's adjustments and the pulse generators (O48; R366 to R369).
-/
namespace Sys2Proof.Machine

open Sys2Proof

namespace State

section
variable {s : State} {g : Nat} {x : Int}

/-! ## What a fault bit and a message leave as they are -/

theorem rise_ptp (s : State) (p b : Nat) : (s.rise p b).ptp = s.ptp := by
  unfold rise
  split <;> rfl

theorem msi_ptp (s : State) (v : Nat) : (s.msi v).ptp = s.ptp := by
  unfold msi
  split_ifs <;> rfl

theorem msi_regs (s : State) (v : Nat) : (s.msi v).regs = s.regs := by
  unfold msi
  split_ifs <;> rfl

theorem flag_msi (s : State) (v p : Nat) (f : Fld) : (s.msi v).flag p f = s.flag p f := by
  rw [flag, get, rd, msi_regs]
  rfl

/-! ## The clock (R367, R368) -/

/-- A capture of the clock changes registers only. -/
theorem ptpCapture_fileOnly (s : State) : FileOnly s s.ptpCapture :=
  (((((FileOnly.set ⟨s.regs, rfl⟩ _ _ _).set _ _ _).set _ _ _).set _ _ _).set _ _ _).set _ _ _

theorem ptpCapture_ns (s : State) :
    s.ptpCapture.get ptpPg F.PTP_TIME0_NS = s.ptpNow / 2 ^ 32 % 1000000000 := by
  rw [ptpCapture, get_set_ofs _ _ _ _ _ (by decide), get_set_ofs _ _ _ _ _ (by decide),
    get_set_ofs _ _ _ _ _ (by decide), get_set_ofs _ _ _ _ _ (by decide), get_set_ofs _ _ _ _ _ (by decide),
    get_set_same _ _ _ _ (by decide) (by decide)]
  exact Nat.mod_eq_of_lt (Nat.lt_trans (Nat.mod_lt _ (by decide)) (by decide))

theorem ptpCapture_sec (s : State) :
    s.ptpCapture.get ptpPg F.PTP_TIME1_SEC = s.ptpNow / ptpSec % 2 ^ 32 := by
  rw [ptpCapture, get_set_ofs _ _ _ _ _ (by decide), get_set_ofs _ _ _ _ _ (by decide),
    get_set_ofs _ _ _ _ _ (by decide), get_set_ofs _ _ _ _ _ (by decide),
    get_set_same _ _ _ _ (by decide) (by decide)]
  exact Nat.mod_mod _ _

theorem ptpCapture_frac (s : State) :
    s.ptpCapture.get ptpPg F.PTP_TIME_FR_FRAC = s.ptpNow % 2 ^ 32 := by
  rw [ptpCapture, get_set_ofs _ _ _ _ _ (by decide), get_set_ofs _ _ _ _ _ (by decide),
    get_set_same _ _ _ _ (by decide) (by decide)]
  exact Nat.mod_mod _ _

theorem ptpCapture_ui (s : State) :
    s.ptpCapture.get ptpPg F.PTP_MAP_TL_LO_UI = s.ui / 4 * 4 % 2 ^ 32 := by
  rw [ptpCapture, get_set_ofs _ _ _ _ _ (by decide), get_set_same _ _ _ _ (by decide) (by decide)]
  exact Nat.mod_mod _ _

theorem ptpStep_applied (h : x.natAbs ≤ s.ptpSync.get ptpPg F.PTP_ADJ_CTL_THR * 2 ^ 32) : s.ptpStep x =
    { s.ptpSync with
      ptp := { s.ptpSync.ptp with base := (((s.ptpSync.ptp.base : Int) + x) % (ptpMod : Int)).toNat } } := by
  simp only [ptpStep, if_pos h]

theorem ptpStep_refused (h : s.ptpSync.get ptpPg F.PTP_ADJ_CTL_THR * 2 ^ 32 < x.natAbs) : s.ptpStep x =
    ((((({ s.ptpSync with ptp := { s.ptpSync.ptp with rem := s.ptpSync.ptp.rem + x } } : State).ptpShow).put ptpPg
      F.PTP_STS_STEP_REFUSED true).rise ptpPg X.PTP_STEP_REFUSED).msi 8) := by
  simp only [ptpStep, if_neg (Nat.not_le.2 h)]

theorem ptpSlewDone_none (h : s.ptp.rem = 0) : s.ptpSlewDone = s := by simp only [ptpSlewDone, if_pos h]

theorem ptpSlewDone_some (h : s.ptp.rem ≠ 0) :
    s.ptpSlewDone = (s.upTo ((s.ptp.at_ + s.slewCycles) * 4096)).ptpSync := by
  simp only [ptpSlewDone, if_neg h]

/-! ## Starting a pulse generator (R369) -/

/-- The generator counts on the clock, not on the timeline. -/
abbrev GenClock (s : State) (g : Nat) : Prop := s.get ptpPg (F.PTP_PG_CTL_SRC.off (0x20 * g)) = 1

def genWord (s : State) (g i : Nat) : Nat := (s.rd ptpPg (0x204 + 0x20 * g + 4 * i)).toNat

def genStart (s : State) (g : Nat) : Nat :=
  if GenClock s g then
    (s.genWord g 1 + s.genWord g 2 % 2 ^ 16 * 2 ^ 32) * ptpSec + s.genWord g 0 % 2 ^ 30 * 2 ^ 32
  else s.genWord g 0 + s.genWord g 1 * 2 ^ 32

def genPeriod (s : State) (g : Nat) : Nat :=
  if GenClock s g then max 10 (s.get ptpPg (F.PTP_PG_PERIOD_PERIOD.off (0x20 * g))) * 2 ^ 32
  else max 64 (s.get ptpPg (F.PTP_PG_PERIOD_PERIOD.off (0x20 * g)))

/-- The least time that is far enough ahead. -/
def genLeast (s : State) (g : Nat) : Nat := if GenClock s g then s.ptpAt (s.ptpCycles + 160) else s.ui + 640

/-- The due times skipped. -/
def genSkip (s : State) (g : Nat) : Nat :=
  if s.genStart g < s.genLeast g then (s.genLeast g - s.genStart g + s.genPeriod g - 1) / s.genPeriod g else 0

def genCount (s : State) (g : Nat) : Nat := s.get ptpPg (F.PTP_PG_COUNT_COUNT.off (0x20 * g))

/-- The generator as GO starts it. -/
def genAt (s : State) (g : Nat) : PgDyn :=
  { run := decide (s.genCount g = 0 ∨ s.genSkip g < s.genCount g), clock := decide (GenClock s g),
    next := s.genStart g + s.genSkip g * s.genPeriod g, period := s.genPeriod g,
    left := if s.genCount g = 0 then none else some (s.genCount g - s.genSkip g),
    pin := s.get ptpPg (F.PTP_PG_CTL_PIN.off (0x20 * g)),
    width := s.get ptpPg (F.PTP_PG_CTL_WIDTH.off (0x20 * g)) }

def genGoes (s : State) (g : Nat) : State :=
  (s.setPg g (s.genAt g)).put ptpPg (F.PTP_PG_CTL_RUN.off (0x20 * g)) (s.genAt g).run

/-- Due times were skipped. -/
def genLate (s : State) : State := ((s.put ptpPg F.PTP_STS_PULSE_LATE true).rise ptpPg X.PTP_PULSE_LATE).msi 8

theorem pgGo_eq (s : State) (g : Nat) :
    s.pgGo g = if s.genSkip g = 0 then s.genGoes g else (s.genGoes g).genLate := by
  simp only [pgGo, genGoes, genLate, genAt, genSkip, genStart, genLeast, genPeriod, genCount, genWord,
    decide_eq_true_eq]
  rfl

theorem genPeriod_pos (s : State) (g : Nat) : 0 < s.genPeriod g := by
  unfold genPeriod
  split_ifs <;> omega

theorem genSkip_none (h : s.genLeast g ≤ s.genStart g) : s.genSkip g = 0 := by rw [genSkip, if_neg (by omega)]

/-- Of the due times, the first that is far enough ahead (R369). -/
theorem genSkip_least (h : s.genStart g < s.genLeast g) : 0 < s.genSkip g ∧
    s.genLeast g ≤ s.genStart g + s.genSkip g * s.genPeriod g ∧
    s.genStart g + s.genSkip g * s.genPeriod g < s.genLeast g + s.genPeriod g := by
  have hp := s.genPeriod_pos g
  rw [genSkip, if_pos h]
  generalize hm : s.genLeast g - s.genStart g + s.genPeriod g - 1 = m
  have hdiv := Nat.div_add_mod m (s.genPeriod g)
  have hmod := Nat.mod_lt m hp
  rw [Nat.mul_comm] at hdiv
  exact ⟨Nat.div_pos (by omega) hp, by omega, by omega⟩

theorem genAt_run_all (h : s.genSkip g = 0) : (s.genAt g).run = true :=
  decide_eq_true (by rw [h]; exact Nat.eq_zero_or_pos _)

theorem genAt_next_all (h : s.genSkip g = 0) : (s.genAt g).next = s.genStart g := by
  simp only [genAt, h, Nat.zero_mul, Nat.add_zero]

theorem genAt_left_all (h : s.genSkip g = 0) :
    (s.genAt g).left = if s.genCount g = 0 then none else some (s.genCount g) := by
  simp only [genAt, h, Nat.sub_zero]

theorem pgOf_genGoes (s : State) (g : Nat) : (s.genGoes g).pgOf g = s.genAt g := by
  rw [genGoes, pgOf, put_ptp]
  exact tabGet_put_same _ _ _ _

theorem genLate_ptp (s : State) : s.genLate.ptp = s.ptp := by rw [genLate, msi_ptp, rise_ptp, put_ptp]

theorem pgOf_pgGo (s : State) (g : Nat) : (s.pgGo g).pgOf g = s.genAt g := by
  rw [pgGo_eq]
  split_ifs
  · exact pgOf_genGoes s g
  · rw [pgOf, genLate_ptp]
    exact pgOf_genGoes s g

theorem flag_run_genGoes (s : State) (g : Nat) :
    (s.genGoes g).flag ptpPg (F.PTP_PG_CTL_RUN.off (0x20 * g)) = (s.genAt g).run :=
  flag_put_same _ _ _ _ (show (22 : Nat) < 32 by decide) rfl

/-- RUN of a generator and PULSE_LATE stand in different registers. -/
theorem late_ofs_ne (g : Nat) : F.PTP_STS_PULSE_LATE.ofs ≠ (F.PTP_PG_CTL_RUN.off (0x20 * g)).ofs := by
  have hrun : (F.PTP_PG_CTL_RUN.off (0x20 * g)).ofs = 0x200 + 0x20 * g := rfl
  have hlate : F.PTP_STS_PULSE_LATE.ofs = 0x104 := rfl
  omega

theorem flag_run_pgGo (s : State) (g : Nat) :
    (s.pgGo g).flag ptpPg (F.PTP_PG_CTL_RUN.off (0x20 * g)) = (s.genAt g).run := by
  have hofs : (F.PTP_PG_CTL_RUN.off (0x20 * g)).ofs = 0x200 + 0x20 * g := rfl
  rw [pgGo_eq]
  split_ifs
  · exact flag_run_genGoes s g
  · rw [genLate, flag_msi, flag_rise_ofs _ _ _ (by omega), flag_put_ofs _ _ _ _ _ (late_ofs_ne g)]
    exact flag_run_genGoes s g

theorem flag_late_genGoes (s : State) (g : Nat) :
    (s.genGoes g).flag ptpPg F.PTP_STS_PULSE_LATE = s.flag ptpPg F.PTP_STS_PULSE_LATE := by
  rw [genGoes, flag_put_ofs _ _ _ _ _ (late_ofs_ne g).symm]
  rfl

theorem flag_late_genLate (s : State) : s.genLate.flag ptpPg F.PTP_STS_PULSE_LATE = true := by
  rw [genLate, flag_msi, flag_rise_ofs _ _ _ (by decide)]
  exact flag_put_same _ _ _ _ (by decide) rfl

/-! ## A write to PTP_PG_CTL (R369) -/

section
variable {v : W32}

theorem pgCtl_go (h0 : v.getLsbD 0 = true) (h1 : v.getLsbD 1 = false) :
    s.pgCtl g v = (writeAt s ptpPg (0x200 + 0x20 * g) v false).1.pgGo g := by
  simp only [pgCtl, h0, h1, if_true, Bool.false_eq_true, if_false]

theorem pgCtl_stop (h0 : v.getLsbD 0 = false) (h1 : v.getLsbD 1 = true) :
    s.pgCtl g v = (writeAt s ptpPg (0x200 + 0x20 * g) v false).1.pgStop g := by
  simp only [pgCtl, h0, h1, if_true, Bool.false_eq_true, if_false]

theorem pgCtl_both (h0 : v.getLsbD 0 = true) (h1 : v.getLsbD 1 = true) :
    s.pgCtl g v = ((writeAt s ptpPg (0x200 + 0x20 * g) v false).1.pgStop g).pgGo g := by
  simp only [pgCtl, h0, h1, if_true]

end

/-! ## A due time (R369) -/

/-- Where the clock or the timeline stands at the generator's due time. -/
def genDue (s : State) (d : PgDyn) : State :=
  if d.clock then s.upTo ((s.ptp.at_ + s.ptpReach (d.next - s.ptp.base)) * 4096) else s.upTo ((d.next + 3) / 4 * 4096)

theorem pgPulse_idle (h : (s.pgOf g).run = false) : s.pgPulse g = s := by
  simp only [pgPulse, h, Bool.not_false, if_true]

/-- A count has run out when one was left, or none. -/
theorem left_more (l : Option Nat) : (l.map (· - 1) ≠ some 0) ↔ (l ≠ some 1 ∧ l ≠ some 0) := by
  cases l with
  | none => simp
  | some n =>
    simp only [Option.map_some, ne_eq, Option.some.injEq]
    omega

theorem pgPulse_due {d : PgDyn} (hd : s.pgOf g = d) (h : d.run = true) : s.pgPulse g =
    (((s.genDue d).evtPulse d.pin 4 g d.width 0).setPg g
      { d with run := decide (d.left ≠ some 1 ∧ d.left ≠ some 0), next := d.next + d.period,
               left := d.left.map (· - 1) }).put ptpPg (F.PTP_PG_CTL_RUN.off (0x20 * g))
      (decide (d.left ≠ some 1 ∧ d.left ≠ some 0)) := by
  have hm : decide (d.left.map (· - 1) ≠ some 0) = decide (d.left ≠ some 1 ∧ d.left ≠ some 0) :=
    decide_eq_decide.2 (left_more d.left)
  simp only [pgPulse, hd, h, Bool.not_true, Bool.false_eq_true, if_false, hm, genDue]

end

end State

end Sys2Proof.Machine

namespace Sys2Proof

open Sys2Proof.Machine Sys2Proof.Machine.State

section
variable {s t : State} {g : Fin 4} {v : W32}

theorem does_ptpSlewDone (h : s.ptpSlewDone = t) : Does .ptpSlewDone s t := .of rfl h

theorem does_ptpCtl {c : Instr} {w : W32} (he : exec c s = done (s.onPage ptpPg (fun s => s.ptpCtl w)))
    (hr : Reaches s ptpPg) : Does c s (s.ptpCtl w) := does_onPage he hr rfl

theorem does_ptpCapture (hr : Readable s ptpPg) :
    Does .ptpCapture s (s.ptpCapture.answer (s.ptpCapture.rd ptpPg 0x110)) := .of rfl (readPage_on _ _ _ hr)

theorem does_pgGo (hr : Reaches s ptpPg) (h : s.pgCtl g.val (v ||| 1) = t) : Does (.pgGo g v) s t :=
  does_onPage rfl hr h

theorem does_pgStop (hr : Reaches s ptpPg) (h : s.pgCtl g.val (v ||| 2) = t) : Does (.pgStop g v) s t :=
  does_onPage rfl hr h

theorem does_pgPulse (h : s.pgPulse g.val = t) : Does (.pgPulse g) s t := .of rfl h

end

/-- Settles O48: the fields a capture writes; a write's bits in their order; of a generator's due times the first
that is far enough ahead. -/
theorem precisionTimeAdjustsAndPulses : Obligations.PrecisionTimeAdjustsAndPulses := by
  unfold Obligations.PrecisionTimeAdjustsAndPulses
  refine ⟨⟨fun s hr => ⟨s.ptpCapture, does_ptpCapture hr, ?ns, ?sec, ?frac, ?ui, s.ptpCapture_fileOnly.eq⟩,
      fun s v hr => ⟨?set, ?step, ?invalidate⟩,
      fun s x => ⟨fun h => ptpStep_applied h, fun h => ptpStep_refused h⟩,
      fun s => ⟨fun h => does_ptpSlewDone (ptpSlewDone_none h), fun h => does_ptpSlewDone (ptpSlewDone_some h)⟩⟩,
    fun s g v hr => ⟨fun hb => does_pgGo hr ?goOnly, fun hb => does_pgGo hr ?goStops,
      fun hb => does_pgStop hr ?stopOnly, fun hb => does_pgStop hr ?stopGoes⟩,
    fun s g hg => ?starts,
    fun s g => ⟨fun h => does_pgPulse (pgPulse_idle h), fun h => does_pgPulse (pgPulse_due rfl h)⟩⟩
  case ns => exact ptpCapture_ns s
  case sec => exact ptpCapture_sec s
  case frac => exact ptpCapture_frac s
  case ui => exact ptpCapture_ui s
  case set => exact does_ptpCtl rfl hr
  case step => exact does_ptpCtl rfl hr
  case invalidate => exact does_ptpCtl rfl hr
  case goOnly => exact pgCtl_go (getLsbD_or_one rfl) ((getLsbD_or_zero rfl).trans hb)
  case goStops => exact pgCtl_both (getLsbD_or_one rfl) ((getLsbD_or_zero rfl).trans hb)
  case stopOnly => exact pgCtl_stop ((getLsbD_or_zero rfl).trans hb) (getLsbD_or_one rfl)
  case stopGoes => exact pgCtl_both ((getLsbD_or_zero rfl).trans hb) (getLsbD_or_one rfl)
  case starts =>
    have hd := pgOf_pgGo s g
    refine ⟨congrArg PgDyn.clock hd, congrArg PgDyn.period hd, congrArg PgDyn.pin hd, congrArg PgDyn.width hd,
      (flag_run_pgGo s g).trans (congrArg PgDyn.run hd).symm, fun h => ?ahead, fun h => ?late⟩
    case ahead =>
      have h0 : s.genSkip g = 0 := genSkip_none h
      refine ⟨(congrArg PgDyn.run hd).trans (genAt_run_all h0), (congrArg PgDyn.next hd).trans (genAt_next_all h0),
        (congrArg PgDyn.left hd).trans (genAt_left_all h0), ?_⟩
      rw [pgGo_eq, if_pos h0]
      exact flag_late_genGoes s g
    case late =>
      obtain ⟨hpos, hlo, hhi⟩ := genSkip_least (s := s) (g := g) h
      refine ⟨?_, s.genSkip g, congrArg PgDyn.next hd, ?_, ?_, fun hrun => ⟨?_, congrArg PgDyn.left hd⟩,
        fun hc hn => ?_⟩
      · rw [pgGo_eq, if_neg (Nat.ne_of_gt hpos)]
        exact flag_late_genLate _
      · exact (congrArg PgDyn.next hd).symm ▸ hlo
      · exact (congrArg PgDyn.next hd).symm ▸ hhi
      · exact (congrArg PgDyn.run hd).trans (decide_eq_true hrun)
      · exact (congrArg PgDyn.run hd).trans (decide_eq_false (not_or.2 ⟨hc, Nat.not_lt.2 hn⟩))

end Sys2Proof

/-!
Calibration: targets and slewing, the image's window and the flash slots (O49; R372, R374, R376 to R379, R383 to R385,
R477).
-/
namespace Sys2Proof.Machine

open Sys2Proof

/-- A key that is not listed reads as the default. -/
theorem tabGet_absent {α : Type} (d : α) {m : Tab α} {k : Nat} (h : k ∉ m.map (·.1)) : tabGet d m k = d := by
  induction m with
  | nil => rfl
  | cons x m ih =>
    simp only [List.map_cons, List.mem_cons, not_or] at h
    have hrest := ih h.2
    simp only [tabGet, tabFind, if_neg (Ne.symm h.1)] at hrest ⊢
    exact hrest

theorem nodup_eraseDups (l : List Nat) : l.eraseDups.Nodup := by
  induction hn : l.length using Nat.strong_induction_on generalizing l with
  | _ n ih =>
    cases l with
    | nil => simp
    | cons a l =>
      rw [List.eraseDups_cons, List.nodup_cons]
      refine ⟨by simp, ih _ ?_ _ rfl⟩
      exact Nat.lt_of_le_of_lt (List.length_filter_le _ _) (by simp [← hn])

namespace State

section
variable {s : State} {e k : Nat} {v : W32}

/-! ## Targets of an eyelet (R376, R377, R379) -/

/-- The word of the eyelet's die sensor. -/
def eyeSensor (s : State) (e : Nat) : W32 := s.rd (pg T.thm 0) (0x140 + 4 * e)

/-- The reading is invalid, or the sensor is out of service. -/
abbrev SensorBad (s : State) (e : Nat) : Prop :=
  fget (s.eyeSensor e) 11 11 = 0 ∨ (s.rd (pg T.thm 0) 0x110).getLsbD e = true

/-- New targets at the sensor's reading. -/
def calNew (s : State) (e : Nat) : State :=
  (s.setBitAt calPg 0x110 (16 + e) false).calTargets e (fget (s.eyeSensor e) 10 0)

/-- The reading lies outside the points of a channel of the eyelet. -/
abbrev CalOut (s : State) (e : Nat) : Prop :=
  ∃ k, k < 16 ∧ (s.calNew e).calOutside (16 * e + k) (fget (s.eyeSensor e) 10 0) = true

theorem calOut_any {u : State} {t : Nat} : ((List.range 16).any fun k => u.calOutside (16 * e + k) t) = true ↔
    ∃ k, k < 16 ∧ u.calOutside (16 * e + k) t = true := by
  simp only [List.any_eq_true, List.mem_range]

theorem targetUpdate_low (h : s.stage < 3) : s.targetUpdate e = s := by simp only [targetUpdate, if_pos h]

theorem targetUpdate_held (h : ¬ s.stage < 3) (hh : s.flag calPg F.CAL_CTL_HOLD = true) :
    s.targetUpdate e = (s.calTake e).calSync := by
  simp only [targetUpdate, if_neg h, hh, if_true]

theorem targetUpdate_bad (h : ¬ s.stage < 3) (hh : s.flag calPg F.CAL_CTL_HOLD = false) (hb : s.SensorBad e) :
    s.targetUpdate e =
      ((((s.setBitAt calPg 0x110 (16 + e) true).rise calPg X.CAL_SENSOR_HOLD).calTake e).calSync) := by
  simp only [SensorBad, eyeSensor] at hb
  simp only [targetUpdate, if_neg h, hh, if_pos hb, Bool.false_eq_true, if_false]

/-- `out` is whether the reading lies outside the points of a channel. -/
theorem targetUpdate_eq {u : State} {out : Bool} (h : ¬ s.stage < 3) (hh : s.flag calPg F.CAL_CTL_HOLD = false)
    (hb : ¬ s.SensorBad e) (hu : s.calNew e = u)
    (ho : ((List.range 16).any fun k => u.calOutside (16 * e + k) (fget (s.eyeSensor e) 10 0)) = out) :
    s.targetUpdate e = (((if out = true then (u.setBitAt calPg 0x110 e out).rise calPg X.CAL_EXTRAP
      else u.setBitAt calPg 0x110 e out).calTake e).calSync) := by
  simp only [SensorBad, eyeSensor] at hb ho
  simp only [calNew, eyeSensor] at hu
  simp only [targetUpdate, if_neg h, hh, if_neg hb, Bool.false_eq_true, if_false, hu, ho]

theorem targetUpdate_out (h : ¬ s.stage < 3) (hh : s.flag calPg F.CAL_CTL_HOLD = false) (hb : ¬ s.SensorBad e)
    (ho : s.CalOut e) : s.targetUpdate e =
      (((((s.calNew e).setBitAt calPg 0x110 e true).rise calPg X.CAL_EXTRAP).calTake e).calSync) := by
  rw [targetUpdate_eq h hh hb rfl (calOut_any.2 ho), if_pos rfl]

theorem targetUpdate_in (h : ¬ s.stage < 3) (hh : s.flag calPg F.CAL_CTL_HOLD = false) (hb : ¬ s.SensorBad e)
    (ho : ¬ s.CalOut e) : s.targetUpdate e = ((((s.calNew e).setBitAt calPg 0x110 e false).calTake e).calSync) := by
  rw [targetUpdate_eq h hh hb rfl (Bool.eq_false_iff.2 (mt calOut_any.1 ho)), if_neg Bool.false_ne_true]

/-! ## A slew period (R378) -/

/-- The correction at `k` after a step. -/
def slewed (s : State) (step : Int) (k : Nat) : Int :=
  if s.eyeHeel (calEye k) = true then tabGet 0 s.calF k
  else if tabGet 0 s.calF k < tabGet 0 s.calT k then min (tabGet 0 s.calT k) (tabGet 0 s.calF k + step)
  else max (tabGet 0 s.calT k) (tabGet 0 s.calF k - step)

/-- One correction makes its step. -/
def slewKey (step : Int) (s : State) (k : Nat) : State :=
  if s.eyeHeel (calEye k) = true then s
  else
    let a := tabGet 0 s.calF k
    let t := tabGet 0 s.calT k
    { s with calF := tabPut 0 s.calF k (if a < t then min t (a + step) else max t (a - step)) }

/-- The corrections after the keys of a list have made their steps. -/
structure SlewedBy (step : Int) (l : List Nat) (s t : State) : Prop where
  only : ∃ c, t = { s with calF := c }
  at_ : ∀ k, tabGet 0 t.calF k = if k ∈ l then s.slewed step k else tabGet 0 s.calF k

theorem slewKey_slews (step : Int) (s : State) (k : Nat) : SlewedBy step [k] s (slewKey step s k) := by
  unfold slewKey
  split_ifs with h
  · refine ⟨⟨_, rfl⟩, fun j => ?_⟩
    by_cases hj : j = k
    · simp [hj, slewed, h]
    · simp [hj]
  · refine ⟨⟨_, rfl⟩, fun j => ?_⟩
    by_cases hj : j = k
    · simp [hj, slewed, h]
    · simp [hj, tabGet_put_other _ _ _ _ _ _ (Ne.symm hj)]

theorem SlewedBy.slewed_other {step : Int} {t : State} {l : List Nat} (h : SlewedBy step l s t) (hk : k ∉ l) :
    t.slewed step k = s.slewed step k := by
  have hval := h.at_ k
  rw [if_neg hk] at hval
  obtain ⟨c, rfl⟩ := h.only
  simp only [slewed, ← hval]
  rfl

theorem slewKeys_slew (step : Int) (l : List Nat) (hl : l.Nodup) (s : State) :
    SlewedBy step l s (l.foldl (slewKey step) s) := by
  induction l generalizing s with
  | nil => exact ⟨⟨s.calF, rfl⟩, fun k => by simp⟩
  | cons a l ih =>
    obtain ⟨ha, hl⟩ := List.nodup_cons.1 hl
    have hone := slewKey_slews step s a
    have hrest := ih hl (slewKey step s a)
    refine ⟨?only, fun k => ?at_⟩
    case only =>
      obtain ⟨c, hc⟩ := hone.only
      obtain ⟨d, hd⟩ := hrest.only
      exact ⟨d, by rw [List.foldl_cons, hd, hc]⟩
    case at_ =>
      rw [List.foldl_cons, hrest.at_, hone.at_]
      by_cases hk : k ∈ l
      · have hka : k ∉ [a] := fun h => ha (List.mem_singleton.1 h ▸ hk)
        simp [hk, hone.slewed_other hka]
      · simp [hk]

/-- The corrections and targets that are not 0. -/
def calKeys (s : State) : List Nat := (s.calF.map (·.1) ++ s.calT.map (·.1)).eraseDups

/-- A correction that is not listed, nor its target, is 0 and stays there. -/
theorem slewed_absent {step : Int} (hs : 0 ≤ step) (h : k ∉ s.calKeys) : s.slewed step k = tabGet 0 s.calF k := by
  rw [calKeys, List.mem_eraseDups, List.mem_append, not_or] at h
  obtain ⟨hf, ht⟩ := h
  simp only [slewed, tabGet_absent 0 hf, tabGet_absent 0 ht]
  split_ifs <;> omega

def slewStep (s : State) : Int := (max 1 (s.get calPg F.CAL_SLEW_STEP) : Nat)

theorem slewPeriod_stands (h : s.tlOn = false) : s.slewPeriod = s := by
  simp only [slewPeriod, h, Bool.not_false, if_true]

theorem slewPeriod_eq {u : State} (h : s.tlOn = true) (hu : s.upTo ((s.ui / 64000 + 1) * 64000 * 1024) = u) :
    s.slewPeriod = (u.calKeys.foldl (slewKey u.slewStep) u).calSync := by
  simp only [slewPeriod, h, hu, Bool.not_true, Bool.false_eq_true, if_false, calKeys, slewStep]
  rfl

/-- A slew period: every correction has made its step. -/
theorem slewPeriod_slews (h : s.tlOn = true) : ∃ c,
    s.slewPeriod = ({ s.upTo ((s.ui / 64000 + 1) * 64000 * 1024) with calF := c } : State).calSync ∧
      ∀ k, tabGet 0 c k = s.slewed s.slewStep k := by
  generalize hu : s.upTo ((s.ui / 64000 + 1) * 64000 * 1024) = u
  obtain ⟨⟨c, hc⟩, hat⟩ := slewKeys_slew u.slewStep u.calKeys (nodup_eraseDups _) u
  rw [hc] at hat
  have hstep : u.slewStep = s.slewStep := by rw [← hu, slewStep, upTo_get, slewStep]
  have hsame (k : Nat) (step : Int) : u.slewed step k = s.slewed step k := by
    rw [← hu, upTo_eq]
    rfl
  refine ⟨c, by rw [slewPeriod_eq h hu, hc], fun k => ?_⟩
  have hk := hat k
  rw [← hsame, ← hstep]
  by_cases hmem : k ∈ u.calKeys
  · rwa [if_pos hmem] at hk
  · rw [if_neg hmem] at hk
    rw [slewed_absent (show 0 ≤ u.slewStep from Int.natCast_nonneg _) hmem]
    exact hk

theorem slewed_heel {step : Int} (h : s.eyeHeel (calEye k) = true) : s.slewed step k = tabGet 0 s.calF k := if_pos h

theorem slewed_up {step : Int} (h : s.eyeHeel (calEye k) = false) (hlt : tabGet 0 s.calF k < tabGet 0 s.calT k) :
    s.slewed step k = min (tabGet 0 s.calT k) (tabGet 0 s.calF k + step) := by
  rw [slewed, if_neg (by rw [h]; decide), if_pos hlt]

theorem slewed_down {step : Int} (h : s.eyeHeel (calEye k) = false) (hle : tabGet 0 s.calT k ≤ tabGet 0 s.calF k) :
    s.slewed step k = max (tabGet 0 s.calT k) (tabGet 0 s.calF k - step) := by
  rw [slewed, if_neg (by rw [h]; decide), if_neg (Int.not_lt.2 hle)]

theorem upTo_calT (t : Nat) : (s.upTo t).calT = s.calT := by rw [upTo_eq]

/-! ## The image's window (R383, R477) -/

/-- The word that CAL_WIN_IDX names is not to be written: a copy runs, or the page is locked and the word would
change. -/
abbrev CalShut (s : State) (v : W32) : Prop :=
  s.flag calPg F.CAL_STS_COPY_BUSY = true ∨ (s.locked calPg = true ∧ s.calShadow s.calIdx ≠ v)

theorem calShut_iff : (s.flag calPg F.CAL_STS_COPY_BUSY || (s.locked calPg && s.calShadow s.calIdx != v)) = true ↔
    s.CalShut v := by
  rw [Bool.or_eq_true, Bool.and_eq_true, bne_iff_ne]

theorem calWinWrite_shut (h : s.CalShut v) : s.calWinWrite v = (s.refuse calPg 0x118).calInc := by
  simp only [calWinWrite, if_pos (calShut_iff.2 h)]

theorem calWinWrite_word (h : ¬ s.CalShut v) (hi : s.calIdx < 50176) :
    s.calWinWrite v = (s.calShadowPut s.calIdx v).calInc := by
  simp only [calWinWrite, if_neg (mt calShut_iff.1 h), if_pos hi]

theorem calWinWrite_beyond (h : ¬ s.CalShut v) (hi : ¬ s.calIdx < 50176) : s.calWinWrite v = s.calInc := by
  simp only [calWinWrite, if_neg (mt calShut_iff.1 h), if_neg hi]

theorem calWinRead_beyond (h : 50176 ≤ s.calIdx) : s.calWinRead = (s.calInc, 0) := by
  simp only [calWinRead, if_pos h]

/-- The word that the window reads, and the errors of the copy that holds it. -/
def calWin (s : State) : W32 :=
  if s.flag calPg F.CAL_WIN_IDX_LIVE = true then s.calWord s.calIdx else s.calShadow s.calIdx

def calWinEcc (s : State) : Nat := s.eccOf (if s.flag calPg F.CAL_WIN_IDX_LIVE = true then 6 else 9) s.calIdx

theorem calWinRead_sound (h : s.calIdx < 50176) (he : s.calWinEcc = 0) : s.calWinRead = (s.calInc, s.calWin) := by
  rw [calWinEcc] at he
  simp only [calWinRead, if_neg (Nat.not_le.2 h), he, calWin]

theorem calWinRead_corrected (h : s.calIdx < 50176) (he : s.calWinEcc = 1) :
    s.calWinRead = ((s.rise calPg X.CAL_RAM_CORR).calInc, s.calWin) := by
  rw [calWinEcc] at he
  simp only [calWinRead, if_neg (Nat.not_le.2 h), he, calWin]

theorem calWinRead_uncorrectable (h : s.calIdx < 50176) (he : 2 ≤ s.calWinEcc) : s.calWinRead =
    (((({ s with free := s.free + 1 } : State).put calPg F.CAL_STS_RAM_UNCORR true).rise calPg
      X.CAL_RAM_UNCORR).calInc, BitVec.ofNat 32 (Config.freeValue s.free)) := by
  obtain ⟨m, hm⟩ := Nat.exists_eq_add_of_le' he
  rw [calWinEcc] at hm
  simp only [calWinRead, if_neg (Nat.not_le.2 h), hm, fresh]

theorem calShadow_put_same : (s.calShadowPut k v).calShadow k = v := tabGet_put_same _ _ _ _

theorem calShadow_put_other {j : Nat} (h : j ≠ k) : (s.calShadowPut k v).calShadow j = s.calShadow j :=
  tabGet_put_other _ _ _ _ _ _ (Ne.symm h)

/-! ## The flash slots (R384, R385) -/

/-- Words put at successive addresses from `a + n` on. -/
def flashPutAll (a n : Nat) (ws : List W32) (s : State) : State :=
  (ws.zipIdx n).foldl (fun (s : State) (x : W32 × Nat) => s.flashPut (a + x.2) x.1) s

theorem flashWord_put_other {a b : Nat} (h : a ≠ b) : (s.flashPut a v).flashWord b = s.flashWord b :=
  tabGet_put_other _ _ _ _ _ _ h

theorem flashWord_put_same {a : Nat} : (s.flashPut a v).flashWord a = v := tabGet_put_same _ _ _ _

theorem flashWord_putAll {a n b : Nat} (ws : List W32) (h : b < a + n) (s : State) :
    (flashPutAll a n ws s).flashWord b = s.flashWord b := by
  induction ws generalizing n s with
  | nil => rfl
  | cons w ws ih =>
    rw [flashPutAll, List.zipIdx_cons, List.foldl_cons, ← flashPutAll, ih (by omega)]
    exact flashWord_put_other (by omega)

theorem flashWord_erase {a n b : Nat} :
    (s.flashErase a n).flashWord b = if a ≤ b ∧ b < a + n then 0xFFFFFFFF else s.flashWord b := by
  rw [flashErase, flashWord, tabGet, tabFind_filter (fun k => !(decide (a ≤ k) && decide (k < a + n)))]
  by_cases h : a ≤ b ∧ b < a + n
  · simp [h]
  · have hk : (!(decide (a ≤ b) && decide (b < a + n))) = true := by
      rw [Bool.not_eq_true', ← Bool.not_eq_true, Bool.and_eq_true, decide_eq_true_iff, decide_eq_true_iff]
      exact h
    rw [if_neg h, if_pos hk]
    rfl

/-- `t` differs from `s` in registers and flash only. -/
def FlashOnly (s t : State) : Prop := ∃ rs f, t = { s with regs := rs, flash := f }

theorem FlashOnly.eq {t : State} (h : FlashOnly s t) : t = { s with regs := t.regs, flash := t.flash } := by
  obtain ⟨rs, f, rfl⟩ := h
  rfl

theorem FlashOnly.flashPut {t : State} (h : FlashOnly s t) (a : Nat) (v : W32) : FlashOnly s (t.flashPut a v) := by
  obtain ⟨rs, f, rfl⟩ := h
  exact ⟨_, _, rfl⟩

theorem FlashOnly.flashErase {t : State} (h : FlashOnly s t) (a n : Nat) : FlashOnly s (t.flashErase a n) := by
  obtain ⟨rs, f, rfl⟩ := h
  exact ⟨_, _, rfl⟩

theorem FlashOnly.put {t : State} (h : FlashOnly s t) (p : Nat) (f : Fld) (b : Bool) : FlashOnly s (t.put p f b) := by
  obtain ⟨rs, f, rfl⟩ := h
  exact ⟨_, _, rfl⟩

theorem FlashOnly.set {t : State} (h : FlashOnly s t) (p : Nat) (f : Fld) (n : Nat) : FlashOnly s (t.set p f n) := by
  obtain ⟨rs, f, rfl⟩ := h
  exact ⟨_, _, rfl⟩

theorem FlashOnly.save {t : State} (h : FlashOnly s t) (x : Option Nat) :
    FlashOnly s { t with flash := { t.flash with save := x } } := by
  obtain ⟨rs, f, rfl⟩ := h
  exact ⟨_, _, rfl⟩

theorem FlashOnly.putAll {t : State} {a n : Nat} (h : FlashOnly s t) (ws : List W32) :
    FlashOnly s (flashPutAll a n ws t) := by
  induction ws generalizing n t with
  | nil => exact h
  | cons w ws ih =>
    rw [flashPutAll, List.zipIdx_cons, List.foldl_cons, ← flashPutAll]
    exact ih (h.flashPut _ _)

/-- The slot that a save takes. -/
def saveSlot (s : State) : Nat := if s.newestSlot = some 0 then 1 else 0

/-- The words of a save: COMMIT is left erased. -/
def saveImage (s : State) : List W32 :=
  let seq : W32 := match s.newestSlot with
    | some n => BitVec.ofNat 32 (s.slotSeq n + 1)
    | none => 1
  let body := (List.range 49152).map (fun i => s.calWord (1024 + i))
  let head : List W32 :=
    [0x43414C31, seq, 0x31000, BitVec.ofNat 32 (crc32 body)] ++ (List.range 4).map (fun i => s.calWord (4 + i))
  let rest := (List.range 1014).map (fun i => s.calWord (9 + i))
  head ++ [0xFFFFFFFF] ++ rest ++ [BitVec.ofNat 32 (crc32 (head ++ rest))] ++ body

/-- A save of slot `k` is in progress. -/
def saveBusy (k : Nat) (s : State) : State :=
  { s with flash := { s.flash with save := some k } }.put calPg F.CAL_STS_SAVE_BUSY true

theorem flashWord_saveBusy (s : State) (a : Nat) : (saveBusy k s).flashWord a = s.flashWord a := rfl

theorem saveBusy_save (s : State) : (saveBusy k s).flash.save = some k := rfl

theorem flag_saveBusy (s : State) : (saveBusy k s).flag calPg F.CAL_STS_SAVE_BUSY = true :=
  flag_put_same _ _ _ _ (by decide) rfl

/-- A save begins. -/
def saveBegun (s : State) : State :=
  saveBusy s.saveSlot
    (flashPutAll (slotAddr s.saveSlot) 0 s.saveImage (s.flashErase (slotAddr s.saveSlot) 0x10000))

theorem calSave_busy (h : s.flag calPg F.CAL_STS_SAVE_BUSY = true) : s.calSave = s.calIgnored := by
  simp only [calSave, h, if_true]

theorem calSave_begins (h : s.flag calPg F.CAL_STS_SAVE_BUSY = false) : s.calSave = s.saveBegun := by
  cases hn : s.newestSlot <;>
    simp only [calSave, h, hn, Bool.false_eq_true, if_false, saveBegun, saveBusy, flashPutAll, saveSlot, saveImage]

theorem saveBegun_only (s : State) : FlashOnly s s.saveBegun := by
  have hsame : FlashOnly s s := ⟨s.regs, s.flash, rfl⟩
  rw [saveBegun, saveBusy]
  exact (((hsame.flashErase _ _).putAll _).save _).put _ _ _

theorem saveBegun_slot (s : State) : s.saveBegun.flash.save = some s.saveSlot := by rw [saveBegun, saveBusy_save]

theorem flag_saveBegun (s : State) : s.saveBegun.flag calPg F.CAL_STS_SAVE_BUSY = true := by
  rw [saveBegun, flag_saveBusy]

theorem flashWord_saveBegun {a : Nat} (h : a < slotAddr s.saveSlot) : s.saveBegun.flashWord a = s.flashWord a := by
  rw [saveBegun, flashWord_saveBusy, flashWord_putAll (a := slotAddr s.saveSlot) (n := 0) _ h, flashWord_erase,
    if_neg (fun hin => absurd h (Nat.not_lt.2 hin.1))]

/-- The shadow image takes the table `m`, a copy of slot `k`. -/
def shadowFrom (k : Nat) (m : Tab W32) (s : State) : State :=
  (({ s with calSFac := false, calS := m } : State).upsetClear 9 65536 0).set calPg F.CAL_STS_COPY k

theorem calShadow_shadowFrom (m : Tab W32) (i : Nat) : (shadowFrom k m s).calShadow i = tabGet 0 m i := rfl

theorem shadowFrom_only (m : Tab W32) : shadowFrom k m s =
    { s with regs := (shadowFrom k m s).regs, calS := (shadowFrom k m s).calS,
             calSFac := (shadowFrom k m s).calSFac, upset := (shadowFrom k m s).upset } := rfl

theorem get_copy_shadowFrom (m : Tab W32) (hk : k < 2) : (shadowFrom k m s).get calPg F.CAL_STS_COPY = k := by
  rw [shadowFrom, get_set_same _ _ _ _ (by decide) (by decide)]
  exact Nat.mod_eq_of_lt hk

/-- The words of slot `k`. -/
def slotWords (s : State) (k n : Nat) : Tab W32 :=
  (List.range n).foldl (fun (m : Tab W32) i => tabPut 0 m i (s.flashWord (slotAddr k + i))) []

theorem tabGet_slotWords {n i : Nat} (hi : i < n) : tabGet 0 (s.slotWords k n) i = s.flashWord (slotAddr k + i) := by
  have hall := tabGet_foldl_put_all (0 : W32) (fun i => s.flashWord (slotAddr k + i)) (List.range n) [] i
  rwa [if_pos (List.mem_range.2 hi)] at hall

/-- The newest valid copy in the shadow image. -/
def loadedFrom (s : State) (k : Nat) : State := shadowFrom k (s.slotWords k 50176) s

theorem calLoad_busy (h : s.flag calPg F.CAL_STS_SAVE_BUSY = true) : s.calLoad = s.calIgnored := by
  simp only [calLoad, h, if_true]

theorem calLoad_none (h : s.flag calPg F.CAL_STS_SAVE_BUSY = false) (hn : s.newestSlot = none) :
    s.calLoad = (s.put calPg F.CAL_STS_LOAD_ERR true).rise calPg X.CAL_LOAD_ERR := by
  simp only [calLoad, h, hn, Bool.false_eq_true, if_false]

theorem calLoad_some (h : s.flag calPg F.CAL_STS_SAVE_BUSY = false) (hn : s.newestSlot = some k) :
    s.calLoad = s.loadedFrom k := by
  simp only [calLoad, h, hn, Bool.false_eq_true, if_false, loadedFrom, shadowFrom, slotWords]

/-- There are two slots. -/
theorem newestSlot_lt (h : s.newestSlot = some k) : k < 2 := by
  unfold newestSlot at h
  cases h0 : s.slotValid 0 <;> cases h1 : s.slotValid 1 <;> simp only [h0, h1] at h
  case false.false => exact absurd h (by simp)
  case true.true =>
    rw [Option.some.injEq] at h
    split_ifs at h <;> omega
  all_goals
    rw [Option.some.injEq] at h
    omega

theorem loadedFrom_shadow {i : Nat} (hi : i < 50176) :
    (s.loadedFrom k).calShadow i = s.flashWord (slotAddr k + i) := by
  rw [loadedFrom, calShadow_shadowFrom, tabGet_slotWords hi]

theorem loadedFrom_copy (h : s.newestSlot = some k) : (s.loadedFrom k).get calPg F.CAL_STS_COPY = k := by
  rw [loadedFrom, get_copy_shadowFrom _ (newestSlot_lt h)]

/-- A load changes the shadow image, its errors and registers. -/
theorem loadedFrom_only : ∃ rs m b u,
    s.loadedFrom k = { s with regs := rs, calS := m, calSFac := b, upset := u } := by
  generalize hm : s.slotWords k 50176 = m
  rw [loadedFrom, hm]
  exact ⟨_, _, _, _, shadowFrom_only m⟩

theorem flashCtl_save (h0 : v.getLsbD 0 = true) (h1 : v.getLsbD 1 = false) : s.calFlashCtl v = s.calSave := by
  simp only [calFlashCtl, h0, h1, if_true, Bool.false_eq_true, if_false]

theorem flashCtl_load (h0 : v.getLsbD 0 = false) (h1 : v.getLsbD 1 = true) : s.calFlashCtl v = s.calLoad := by
  simp only [calFlashCtl, h0, h1, if_true, Bool.false_eq_true, if_false]

/-! ## The end of a save (R385) -/

/-- A save has ended. -/
def saveOver (s : State) : State :=
  { s with flash := { s.flash with save := none } }.put calPg F.CAL_STS_SAVE_BUSY false

theorem saveDone_none {ok : Bool} (h : s.flash.save = none) : s.calSaveDone ok = s := by simp only [calSaveDone, h]

theorem saveDone_commits (h : s.flash.save = some k) :
    s.calSaveDone true = (s.flashPut (slotAddr k + 8) (~~~(s.flashWord (slotAddr k + 1)))).saveOver := by
  simp only [calSaveDone, h, if_true, saveOver]

theorem saveDone_fails (h : s.flash.save = some k) :
    s.calSaveDone false = ((s.flashBlur (slotAddr k + 1024) 49152).calIgnored).saveOver := by
  simp only [calSaveDone, h, Bool.false_eq_true, if_false, saveOver]

theorem flag_saveOver (s : State) : s.saveOver.flag calPg F.CAL_STS_SAVE_BUSY = false :=
  flag_put_same _ _ _ _ (by decide) rfl

theorem saveOver_save (s : State) : s.saveOver.flash.save = none := rfl

theorem flashWord_saveOver (s : State) (a : Nat) : s.saveOver.flashWord a = s.flashWord a := rfl

/-- Words that nothing fixes, in `[a, a + n)`. -/
theorem flashWord_blur {a n b : Nat} (h : b < a ∨ a + n ≤ b) : (s.flashBlur a n).flashWord b = s.flashWord b := by
  induction n with
  | zero => rfl
  | succ n ih =>
    rw [flashBlur, List.range_succ, List.foldl_append, List.foldl_cons, List.foldl_nil, ← flashBlur]
    exact (flashWord_put_other (by omega)).trans (ih (by omega))

/-- A blur changes flash and draws free values. -/
theorem flashBlur_only (s : State) (a n : Nat) : ∃ f x, s.flashBlur a n = { s with flash := f, free := x } := by
  induction n with
  | zero => exact ⟨s.flash, s.free, rfl⟩
  | succ n ih =>
    obtain ⟨f, x, hf⟩ := ih
    rw [flashBlur, List.range_succ, List.foldl_append, List.foldl_cons, List.foldl_nil, ← flashBlur, hf]
    exact ⟨_, _, rfl⟩

/-- A fault bit that rises changes registers and the rises noted. -/
theorem rise_only (s : State) (p b : Nat) : ∃ rs f, s.rise p b = { s with regs := rs, flt := f } := by
  unfold rise
  split
  · exact ⟨s.regs, s.flt, rfl⟩
  · exact ⟨_, _, rfl⟩

theorem rise_flash (s : State) (p b : Nat) : (s.rise p b).flash = s.flash := by
  obtain ⟨rs, f, h⟩ := s.rise_only p b
  rw [h]

theorem flashWord_calIgnored (s : State) (a : Nat) : s.calIgnored.flashWord a = s.flashWord a := by
  rw [flashWord, calIgnored, rise_flash]
  rfl

theorem flag_calIgnored (s : State) : s.calIgnored.flag calPg F.CAL_STS_SAVE_ERR = true := by
  rw [calIgnored, flag_rise_ofs _ _ _ (by decide)]
  exact flag_put_same _ _ _ _ (by decide) rfl

/-- Another flag of the same register. -/
theorem flag_put_bits (s : State) (p : Nat) (f g : Fld) (b : Bool) (ho : f.ofs = g.ofs)
    (hf : f.lo ≤ f.hi ∧ f.hi < 32) (hg : g.lo ≤ g.hi ∧ g.hi < 32) (hd : f.hi < g.lo ∨ g.hi < f.lo) :
    (s.put p f b).flag p g = s.flag p g :=
  congrArg (fun n => decide (n ≠ 0)) (get_set_bits s p f g (b2n b) ho hf.2 hf.1 hg.2 hg.1 hd)

theorem flag_err_saveOver (s : State) :
    s.saveOver.flag calPg F.CAL_STS_SAVE_ERR = s.flag calPg F.CAL_STS_SAVE_ERR := by
  rw [saveOver, flag_put_bits _ _ _ _ _ (by decide) (by decide) (by decide) (by decide)]
  rfl

/-- A save that fails changes registers, flash, the rises noted and the free values drawn. -/
theorem saveFailed_only (s : State) (a n : Nat) : ∃ rs f l x,
    (s.flashBlur a n).calIgnored.saveOver = { s with regs := rs, flash := f, flt := l, free := x } := by
  obtain ⟨f, x, hf⟩ := s.flashBlur_only a n
  obtain ⟨rs, l, hr⟩ := ((s.flashBlur a n).put calPg F.CAL_STS_SAVE_ERR true).rise_only calPg X.CAL_SAVE_ERR
  rw [calIgnored, hr, hf]
  exact ⟨_, _, _, _, rfl⟩

/-! ## CLR of the linearity counts (R387) -/

/-- CAL_LIN_CTL. -/
def linReg : Reg := (findReg calPg 0x124).getD ⟨0, 0, 0, 0, 0, false, []⟩

def linWritten (s : State) (v : W32) : State := (regWrite s calPg 0x124 linReg v false (s.enabled calPg)).1

/-- The counts up to `n` cleared. -/
def linClear (n : Nat) (s : State) : State := (List.range n).foldl (fun s b => s.wr calPg (0x200 + 4 * b) 0) s

theorem calLin_clears (h : v.getLsbD 10 = true) : s.calLin v = linClear 64 (s.linWritten v) := by
  have hr : findReg calPg 0x124 = some linReg := by decide
  have hidle (u : State) : u.idleForce calPg = u := rfl
  simp only [calLin, writeReg, writeAt, hr, hidle, h, if_true, linClear, linWritten]

theorem rd_linClear (n : Nat) (s : State) {b : Nat} (h : b < n) : (linClear n s).rd calPg (0x200 + 4 * b) = 0 := by
  induction n with
  | zero => omega
  | succ n ih =>
    rw [linClear, List.range_succ, List.foldl_append, List.foldl_cons, List.foldl_nil, ← linClear]
    by_cases hb : b = n
    · rw [hb, rd_wr_same]
    · rw [rd_wr_ofs _ _ _ _ _ (by omega)]
      exact ih (by omega)

theorem rd_linClear_other (n : Nat) (s : State) {q a : Nat} (h : ∀ b, b < n → rkey calPg (0x200 + 4 * b) ≠ rkey q a) :
    (linClear n s).rd q a = s.rd q a := by
  induction n with
  | zero => rfl
  | succ n ih =>
    rw [linClear, List.range_succ, List.foldl_append, List.foldl_cons, List.foldl_nil, ← linClear,
      rd_wr_other _ _ _ _ _ _ (h n (by omega))]
    exact ih (fun b hb => h b (by omega))

theorem linClear_regsOnly (n : Nat) (s : State) : RegsOnly s (linClear n s) := by
  induction n with
  | zero => exact ⟨s.regs, s.held, rfl⟩
  | succ n ih =>
    obtain ⟨rs, hs, h⟩ := ih
    rw [linClear, List.range_succ, List.foldl_append, List.foldl_cons, List.foldl_nil, ← linClear, h]
    exact ⟨_, _, rfl⟩

theorem calLin_regsOnly (h : v.getLsbD 10 = true) : RegsOnly s (s.calLin v) := by
  obtain ⟨rs, hs, hw⟩ := regsOnly_regWrite s calPg 0x124 linReg v false (s.enabled calPg)
  obtain ⟨rs', hs', hc⟩ := linClear_regsOnly 64 (s.linWritten v)
  rw [calLin_clears h, hc, linWritten, hw]
  exact ⟨_, _, rfl⟩

/-- Another page's registers stay. -/
theorem rd_calLin_other (h : v.getLsbD 10 = true) {q a : Nat} (ha : a < 0x1000) (hq : q ≠ calPg) :
    (s.calLin v).rd q a = s.rd q a := by
  have hkey (o : Nat) (ho : o < 0x1000) : rkey q a ≠ rkey calPg o := rkey_page ha ho hq
  rw [calLin_clears h, rd_linClear_other _ _ (fun b hb => (hkey _ (by omega)).symm)]
  exact rd_regWrite_other _ _ _ _ _ (hkey _ (by decide)) (hkey _ (by decide)) (hkey _ (by decide))

end

end State

end Sys2Proof.Machine

namespace Sys2Proof

open Sys2Proof.Machine Sys2Proof.Machine.State

section
variable {s t : State} {e : Eye} {v x : W32}

theorem does_calTargetUpdate (h : s.targetUpdate e.val = t) : Does (.calTargetUpdate e) s t := .of rfl h

theorem does_slewPeriod (h : s.slewPeriod = t) : Does .slewPeriod s t := .of rfl h

theorem does_calWinWrite (hr : Reaches s calPg) (h : s.calWinWrite v = t) : Does (.calWinWrite v) s t :=
  does_onPage rfl hr h

theorem does_calWinRead (hr : Readable s calPg) (h : s.calWinRead = (t, x)) : Does .calWinRead s (t.answer x) :=
  .of rfl ((readPage_on _ _ _ hr).trans (congrArg (fun r : State × W32 => r.1.answer r.2) h))

theorem does_save (hr : Reaches s calPg) (hb : v.getLsbD 1 = false) (h : s.calSave = t) : Does (.save v) s t :=
  does_onPage rfl hr ((flashCtl_save (getLsbD_or_one rfl) ((getLsbD_or_zero rfl).trans hb)).trans h)

theorem does_load (hr : Reaches s calPg) (hb : v.getLsbD 0 = false) (h : s.calLoad = t) : Does (.load v) s t :=
  does_onPage rfl hr ((flashCtl_load ((getLsbD_or_zero rfl).trans hb) (getLsbD_or_one rfl)).trans h)

theorem does_clr (hr : Reaches s calPg) : Does (.clr v) s (s.calLin (v ||| 0x400)) := does_onPage rfl hr rfl

theorem does_saveDone {ok : Bool} (h : s.calSaveDone ok = t) : Does (.saveDone ok) s t := .of rfl h

end

/-- Settles O49: the keys of the corrections step one by one; the words of a slot are put one by one. -/
theorem calibrationTargetsSlewAndSave : Obligations.CalibrationTargetsSlewAndSave := by
  unfold Obligations.CalibrationTargetsSlewAndSave
  refine ⟨⟨fun s e => ⟨fun h => does_calTargetUpdate (targetUpdate_low h),
        fun h hh => does_calTargetUpdate (targetUpdate_held (Nat.not_lt.2 h) hh),
        fun h hh hb => does_calTargetUpdate (targetUpdate_bad (Nat.not_lt.2 h) hh hb),
        fun h hh hb ho => does_calTargetUpdate (targetUpdate_out (Nat.not_lt.2 h) hh hb ho),
        fun h hh hb ho => does_calTargetUpdate (targetUpdate_in (Nat.not_lt.2 h) hh hb ho)⟩,
      fun s h => does_slewPeriod (slewPeriod_stands h), fun s h => ?slews⟩,
    fun s v => ⟨fun hr hn => does_calWinWrite hr (calWinWrite_shut hn),
      fun hr hn hi => does_calWinWrite hr (calWinWrite_word hn hi),
      fun hr hn hi => does_calWinWrite hr (calWinWrite_beyond hn (Nat.not_lt.2 hi)),
      fun hr hi => does_calWinRead hr (calWinRead_beyond hi),
      fun hr hi => ⟨fun he => does_calWinRead hr (calWinRead_sound hi he),
        fun he => does_calWinRead hr (calWinRead_corrected hi he),
        fun he => does_calWinRead hr (calWinRead_uncorrectable hi he)⟩⟩,
    fun s i v => ⟨calShadow_put_same, fun k hk => calShadow_put_other hk⟩,
    fun s v hr => ⟨fun hb h1 => does_save hr h1 (calSave_busy hb),
      fun hb h1 => ⟨s.saveBegun, does_save hr h1 (calSave_begins hb), flag_saveBegun s, saveBegun_slot s,
        s.saveBegun_only.eq, fun a ha => flashWord_saveBegun ha⟩,
      fun hb h0 => does_load hr h0 (calLoad_busy hb), fun hb h0 hn => does_load hr h0 (calLoad_none hb hn),
      fun k hb h0 hn => ⟨s.loadedFrom k, does_load hr h0 (calLoad_some hb hn),
        loadedFrom_copy hn, fun i hi => loadedFrom_shadow hi, ?loaded⟩,
      ⟨s.calLin (v ||| 0x400), does_clr hr, fun b hb => ?cleared, (calLin_regsOnly (getLsbD_or_one rfl)).eq,
        fun q a ha hq => rd_calLin_other (getLsbD_or_one rfl) ha hq⟩⟩,
    fun s => ⟨fun h ok => does_saveDone (saveDone_none h),
      fun k h => ⟨_, does_saveDone (saveDone_commits h), saveOver_save _, flag_saveOver _, ?commit,
        fun a ha => ?others, rfl⟩,
      fun k h => ⟨_, does_saveDone (saveDone_fails h), saveOver_save _, flag_saveOver _,
        (flag_err_saveOver _).trans (flag_calIgnored _), fun a ha => ?kept, ?failed⟩⟩⟩
  case slews =>
    obtain ⟨c, hc, hat⟩ := slewPeriod_slews h
    exact ⟨_, does_slewPeriod hc, rfl, upTo_calT _, upTo_hbm _ _, flag_put_same _ _ _ _ (by decide) rfl,
      fun k => ⟨fun hh => (hat k).trans (slewed_heel hh), fun hh hlt => (hat k).trans (slewed_up hh hlt),
        fun hh hle => (hat k).trans (slewed_down hh hle)⟩⟩
  case loaded =>
    obtain ⟨rs, m, b, u, hl⟩ := loadedFrom_only (s := s) (k := k)
    rw [hl]
  case cleared =>
    rw [calLin_clears (getLsbD_or_one rfl)]
    exact rd_linClear 64 _ hb
  case commit => rw [flashWord_saveOver, flashWord_put_same]
  case others => rw [flashWord_saveOver, flashWord_put_other (Ne.symm ha)]
  case kept =>
    have hout := ha.imp_right (Nat.le_trans (Nat.le_of_eq (Nat.add_assoc (slotAddr k) 1024 49152)))
    rw [flashWord_saveOver, flashWord_calIgnored, flashWord_blur hout]
  case failed =>
    obtain ⟨rs, f, l, x, hf⟩ := s.saveFailed_only (slotAddr k + 1024) 49152
    rw [hf]

end Sys2Proof

/-!
The resets and what each one keeps (O51; R390, R393 to R395, R407, R455, R475).
-/
namespace Sys2Proof.Machine

open Sys2Proof

/-- Two registers that differ in page or offset have different keys. -/
theorem rkey_ne {p q o a : Nat} (ho : o < 0x1000) (ha : a < 0x1000) (h : ¬ (q = p ∧ a = o)) : rkey p o ≠ rkey q a := by
  unfold rkey
  omega

namespace State

section
variable {s t : State} {cause : Nat}

/-! ## What every device reset leaves -/

/-- A flash command abandoned changes flash and draws free values. -/
theorem flashAbandon_only (s : State) : ∃ f x, s.flashAbandon = { s with flash := f, free := x } := by
  unfold flashAbandon
  dsimp only
  split
  · rename_i a _ _
    obtain ⟨f, x, h⟩ := s.flashBlur_only (a / 16384 * 16384) 16384
    exact ⟨_, _, by rw [h]⟩
  · rename_i a _ _
    obtain ⟨f, x, h⟩ := s.flashBlur_only a 1
    exact ⟨_, _, by rw [h]⟩
  · exact ⟨_, _, rfl⟩

/-- The state that a device reset leaves, before GLB_RST_CAUSE and SVN_MIN take their values. -/
def resetLeft (s : State) : State :=
  { pending := s.pending, out := s.out, free := s.free, flash := s.flash, jtag := s.jtag, evtIn := s.evtIn,
    chan := s.chanInputs, pci := { perstLow := s.pci.perstLow } }

theorem deviceReset_eq (s : State) (cause : Nat) : s.deviceReset cause =
    ((resetLeft s.flashAbandon).wr glbPg 0x10C (BitVec.ofNat 32 cause)).set secPg F.SEC_STS_SVN_MIN
      (s.get secPg F.SEC_STS_SVN_MIN) := rfl

/-- Every register but those that a reset keeps has its reset value, nothing runs, and what waits stays. -/
def CleanFrom (s t : State) : Prop :=
  t.now = 0 ∧ t.tlOn = false ∧ t.groups = [] ∧ t.flt = {} ∧ t.evq = {} ∧ t.sch = {} ∧ t.pending = s.pending ∧
    t.out = s.out ∧ ∀ p o, o < 0x1000 → ¬ (p = glbPg ∧ o = 0x10C) → ¬ (p = secPg ∧ o = 0x100) →
      ¬ (p = pciPg ∧ o = 0x104) → t.rd p o = resetWord p o

theorem rd_deviceReset {p o : Nat} (ho : o < 0x1000) (hg : ¬ (p = glbPg ∧ o = 0x10C))
    (hs : ¬ (p = secPg ∧ o = 0x100)) : (s.deviceReset cause).rd p o = resetWord p o := by
  rw [deviceReset_eq, rd_set_other _ _ _ _ _ _ (rkey_ne (by decide) ho hs),
    rd_wr_other _ _ _ _ _ _ (rkey_ne (by decide) ho hg)]
  rfl

theorem deviceReset_clean (s : State) (cause : Nat) : CleanFrom s (s.deviceReset cause) := by
  obtain ⟨f, x, hf⟩ := s.flashAbandon_only
  refine ⟨rfl, rfl, rfl, rfl, rfl, rfl, ?pending, ?out, fun p o ho hg hs _ => rd_deviceReset ho hg hs⟩
  case pending => rw [deviceReset_eq, hf]; rfl
  case out => rw [deviceReset_eq, hf]; rfl

theorem CleanFrom.boot (h : CleanFrom s t) (j : JtagDyn) (b : BootDyn) :
    CleanFrom s { t with jtag := j, boot := b } := h

theorem powerOn_clean (s : State) (test : Bool) : CleanFrom s (s.powerOn test) := by
  rw [powerOn]
  exact (s.deviceReset_clean 3).boot _ _

theorem pinReset_clean (s : State) : CleanFrom s s.pinReset := by
  rw [pinReset]
  exact (s.deviceReset_clean _).boot _ _

theorem rd_cause_deviceReset (s : State) (cause : Nat) :
    (s.deviceReset cause).rd glbPg 0x10C = BitVec.ofNat 32 cause := by
  rw [deviceReset_eq, rd_set_other _ _ _ _ _ _ (by decide), rd_wr_same]

theorem get_svn_deviceReset (s : State) (cause : Nat) :
    (s.deviceReset cause).get secPg F.SEC_STS_SVN_MIN = s.get secPg F.SEC_STS_SVN_MIN := by
  rw [deviceReset_eq, get_set_same _ _ _ _ (by decide) (by decide)]
  exact Nat.mod_eq_of_lt (fget_lt _ (by decide) (by decide))

theorem hbm_deviceReset (s : State) (cause : Nat) : (s.deviceReset cause).hbm = {} := rfl

theorem pci_deviceReset (s : State) (cause : Nat) : (s.deviceReset cause).pci = { perstLow := s.pci.perstLow } := by
  obtain ⟨f, x, hf⟩ := s.flashAbandon_only
  rw [deviceReset_eq, hf]
  rfl

theorem jtag_deviceReset (s : State) (cause : Nat) : (s.deviceReset cause).jtag = s.jtag := by
  obtain ⟨f, x, hf⟩ := s.flashAbandon_only
  rw [deviceReset_eq, hf]
  rfl

theorem rd_boot (t : State) (j : JtagDyn) (b : BootDyn) (p o : Nat) :
    ({ t with jtag := j, boot := b } : State).rd p o = t.rd p o := rfl

theorem get_boot (t : State) (j : JtagDyn) (b : BootDyn) (p : Nat) (f : Fld) :
    ({ t with jtag := j, boot := b } : State).get p f = t.get p f := rfl

theorem rd_cause_powerOn (s : State) (test : Bool) : (s.powerOn test).rd glbPg 0x10C = 3 := by
  rw [powerOn, rd_boot, rd_cause_deviceReset]
  rfl

theorem get_svn_powerOn (s : State) (test : Bool) :
    (s.powerOn test).get secPg F.SEC_STS_SVN_MIN = s.get secPg F.SEC_STS_SVN_MIN := by
  rw [powerOn, get_boot, get_svn_deviceReset]

theorem rd_cause_pinReset (s : State) : s.pinReset.rd glbPg 0x10C = BitVec.ofNat 32 (setBit s.rstCause 1) := by
  rw [pinReset, rd_boot, rd_cause_deviceReset]

/-! ## Chip reset (R394) -/

/-- The chip reset of a die that runs. -/
def chipLeft (s : State) (keep : Bool) (bit cause : Nat) : State :=
  ({ s.deviceReset cause with
      pci := s.pci, smb := s.smb, boot := { resume := keep, wdog := bit == 4 },
      hbm := if keep then s.hbm else {} } : State).wr pciPg 0x104 (s.rd pciPg 0x104)

theorem chipReset_held {keep : Bool} {bit : Nat} (h : s.boot.held = true) : s.chipReset keep bit = s := by
  simp only [chipReset, h, if_true]

theorem chipReset_runs {keep : Bool} {bit : Nat} (h : s.boot.held = false) (hb : bit < 6) :
    s.chipReset keep bit = s.chipLeft keep bit (setBit s.rstCause bit) := by
  simp only [chipReset, h, Bool.false_eq_true, if_false, if_pos hb, chipLeft]

theorem chipLeft_clean (s : State) (keep : Bool) (bit cause : Nat) : CleanFrom s (s.chipLeft keep bit cause) := by
  obtain ⟨hnow, htl, hgroups, hflt, hevq, hsch, hpending, hout, hregs⟩ := s.deviceReset_clean cause
  refine ⟨hnow, htl, hgroups, hflt, hevq, hsch, hpending, hout, fun p o ho hg hs hp => ?_⟩
  rw [chipLeft, rd_wr_other _ _ _ _ _ _ (rkey_ne (by decide) ho hp)]
  exact hregs p o ho hg hs hp

theorem rd_cause_chipLeft (s : State) (keep : Bool) (bit cause : Nat) :
    (s.chipLeft keep bit cause).rd glbPg 0x10C = BitVec.ofNat 32 cause := by
  rw [chipLeft, rd_wr_other _ _ _ _ _ _ (by decide)]
  exact s.rd_cause_deviceReset cause

theorem rd_link_chipLeft (s : State) (keep : Bool) (bit cause : Nat) :
    (s.chipLeft keep bit cause).rd pciPg 0x104 = s.rd pciPg 0x104 := rd_wr_same _ _ _ _

theorem jtag_chipLeft (s : State) (keep : Bool) (bit cause : Nat) : (s.chipLeft keep bit cause).jtag = s.jtag := by
  rw [chipLeft, wr_jtag]
  exact s.jtag_deviceReset cause

theorem RegsOnly.boot (h : RegsOnly s t) : t.boot = s.boot := by
  obtain ⟨rs, hs, rfl⟩ := h
  rfl

/-- What a chip reset leaves after a register write. -/
theorem chipLeft_regsOnly (h : RegsOnly s t) (keep : Bool) (bit cause : Nat) :
    CleanFrom s (t.chipLeft keep bit cause) ∧ (t.chipLeft keep bit cause).pci = s.pci ∧
      (t.chipLeft keep bit cause).jtag = s.jtag ∧ (t.chipLeft keep bit cause).smb = s.smb ∧
      (t.chipLeft keep bit cause).hbm = if keep then s.hbm else {} := by
  have hclean := t.chipLeft_clean keep bit cause
  have hjtag := t.jtag_chipLeft keep bit cause
  obtain ⟨rs, hs, rfl⟩ := h
  exact ⟨hclean, rfl, hjtag, rfl, rfl⟩

/-- The word that a CHIP command writes holds the key. -/
theorem fget_chip (v : W32) : fget ((v &&& ~~~0xFF00) ||| 0xA501) 15 8 = 0xA5 := by
  have hout : (~~~(0xFF00 : W32)) >>> 8 &&& (BitVec.allOnes 32 >>> (31 - (15 - 8))) = 0 := by decide
  have hkey : (BitVec.allOnes 32 >>> (31 - (15 - 8))) &&& (0xA501 : W32) >>> 8 = 0xA5 := by decide
  rw [fget, BitVec.ushiftRight_or_distrib, BitVec.ushiftRight_and_distrib, BitVec.and_comm,
    BitVec.and_or_distrib_left, hkey, BitVec.and_comm, BitVec.and_assoc, hout]
  show (v >>> 8 &&& 0#32 ||| 0xA5#32).toNat = 0xA5
  rw [BitVec.and_zero]
  rfl

theorem rstWrite_resets {v : W32} (h0 : v.getLsbD 0 = true) (hk : fget v 15 8 = 0xA5) : s.rstWrite v =
    (s.writeReg glbPg 0x108 v false).chipReset ((s.writeReg glbPg 0x108 v false).flag glbPg F.GLB_RST_KEEP_HBM) 2 := by
  simp only [rstWrite, h0, hk, beq_self_eq_true, Bool.and_true, if_true]

/-- A write to GLB_RST changes its own register and those of a refusal. -/
theorem writeRst_regsOnly (s : State) (v : W32) : RegsOnly s (s.writeReg glbPg 0x108 v false) := by
  have hr : (findReg glbPg 0x108).isSome = true := by decide
  obtain ⟨r, hr⟩ := Option.isSome_iff_exists.1 hr
  have hidle (u : State) : u.idleForce glbPg = u := rfl
  simp only [writeReg, writeAt, hr, hidle]
  exact regsOnly_regWrite _ _ _ _ _ _ _

theorem rd_writeRst_link (s : State) (v : W32) :
    (s.writeReg glbPg 0x108 v false).rd pciPg 0x104 = s.rd pciPg 0x104 := by
  have hr : (findReg glbPg 0x108).isSome = true := by decide
  obtain ⟨r, hr⟩ := Option.isSome_iff_exists.1 hr
  have hidle (u : State) : u.idleForce glbPg = u := rfl
  simp only [writeReg, writeAt, hr, hidle]
  exact rd_regWrite_other _ _ _ _ _ (by decide) (by decide) (by decide)

/-! ## RESET_N and PERST_N (R393, R407, R455, R475) -/

theorem pinRelease_test (h : s.boot.test = true) : s.pinRelease = s := by simp only [pinRelease, h, if_true]

theorem pinRelease_starts (h : s.boot.test = false) (hp : s.pci.perstLow = false) :
    s.pinRelease = { s with boot := { s.boot with held := false } } := by
  simp only [pinRelease, h, hp, Bool.false_eq_true, if_false]

theorem pinRelease_perst (h : s.boot.test = false) (hp : s.pci.perstLow = true) :
    s.pinRelease = ({ s with boot := { s.boot with held := false } } : State).put glbPg F.GLB_RST_CAUSE_PERST true := by
  simp only [pinRelease, h, hp, Bool.false_eq_true, if_false, if_true]

/-- The registers of the PCI page at their reset values. -/
def pciCleared (s : State) : State :=
  { s with regs := s.regs.filter (fun x => x.1 / 4096 != pciPg), held := s.held.filter (fun x => x.1 / 4096 != pciPg) }

/-- The endpoint in reset: the pending messages and the subsystem identity stay. -/
def endpointReset (s : State) : State :=
  { s.pciCleared with
      pci := { perstLow := true, pba := s.pci.pba, cfg := tabPut 0 [] 11 (tabGet 0 s.pci.cfg 11) } }

theorem perst_eq (s : State) : s.perst =
    if s.boot.held = true then s.endpointReset else s.endpointReset.put glbPg F.GLB_RST_CAUSE_PERST true := rfl

theorem rd_endpointReset (s : State) {q o : Nat} (ho : o < 0x1000) :
    s.endpointReset.rd q o = if q = pciPg then resetWord q o else s.rd q o := by
  have hq : rkey q o / 4096 = q := by unfold rkey; omega
  have hfind := tabFind_filter (fun k => k / 4096 != pciPg) s.regs (rkey q o)
  rw [hq] at hfind
  rw [rd, tabGet]
  show (tabFind (s.regs.filter fun x => x.1 / 4096 != pciPg) (rkey q o)).getD _ = _
  rw [hfind]
  by_cases h : q = pciPg
  · simp [h]
  · simp [h, rd, tabGet]

theorem rd_perst (s : State) {q o : Nat} (ho : o < 0x1000) (hc : ¬ (q = glbPg ∧ o = 0x10C)) :
    s.perst.rd q o = if q = pciPg then resetWord q o else s.rd q o := by
  rw [perst_eq]
  split
  · exact rd_endpointReset s ho
  · rw [rd_put_other _ _ _ _ _ _ (rkey_ne (by decide) ho hc)]
    exact rd_endpointReset s ho

theorem perst_pci (s : State) : s.perst.pci = s.endpointReset.pci := by
  rw [perst_eq]
  split <;> rfl

theorem perst_only (s : State) :
    s.perst = { s with regs := s.perst.regs, held := s.perst.held, pci := s.perst.pci } := by
  rw [perst_eq]
  split <;> rfl

theorem flag_perst (h : s.boot.held = false) : s.perst.flag glbPg F.GLB_RST_CAUSE_PERST = true := by
  rw [perst_eq, if_neg (by rw [h]; decide)]
  exact flag_put_same _ _ _ _ (by decide) rfl

theorem perstRelease_trains {n w : Nat} (hp : s.pci.perstLow = true) (h : s.boot.held = false) :
    s.perstRelease n w = ({ s with pci := { s.pci with perstLow := false } } : State).pciUp n w := by
  simp only [perstRelease, hp, h, Bool.not_false, Bool.and_true, if_true]

theorem perstRelease_still {n w : Nat} (h : s.pci.perstLow = false ∨ s.boot.held = true) :
    s.perstRelease n w = { s with pci := { s.pci with perstLow := false } } := by
  have hc : (s.pci.perstLow && !s.boot.held) = false := by
    rcases h with h | h <;> simp [h]
  simp only [perstRelease, hc, Bool.false_eq_true, if_false]

end

end State

end Sys2Proof.Machine

namespace Sys2Proof

open Sys2Proof.Machine Sys2Proof.Machine.State

section
variable {s t : State} {v : W32}

theorem does_powerOnReset {test : Bool} : Does (.powerOnReset test) s (s.powerOn test) := .of rfl rfl

theorem does_resetNAssert : Does .resetNAssert s s.pinReset := .of rfl rfl

theorem does_resetNRelease (h : s.pinRelease = t) : Does .resetNRelease s t := .of rfl h

theorem does_mgmtWdogExpiry (h : s.chipReset true 4 = t) : Does .mgmtWdogExpiry s t := .of rfl h

theorem does_chip (hr : Reaches s glbPg) (h : s.rstWrite ((v &&& ~~~0xFF00) ||| 0xA501) = t) : Does (.chip v) s t :=
  does_onPage rfl hr h

theorem does_perstAssert : Does .perstAssert s s.perst := .of rfl rfl

theorem does_perstRelease {n : Fin 6} {w : Fin 17} (h : s.perstRelease n.val w.val = t) :
    Does (.perstRelease n w) s t := .of rfl h

end

/-- Settles O51: every device reset is built on one state, whose registers hold their reset values. -/
theorem resetsReturnRegisters : Obligations.ResetsReturnRegisters := by
  unfold Obligations.ResetsReturnRegisters
  refine ⟨fun s => ⟨fun test => ?power, ?pin, fun h => does_resetNRelease (pinRelease_test h),
      ⟨fun h hp => does_resetNRelease (pinRelease_starts h hp), fun h hp => does_resetNRelease (pinRelease_perst h hp)⟩,
      fun h => does_mgmtWdogExpiry (chipReset_held h), fun h => ?wdog, fun v hr h => ?chip⟩,
    fun s => ⟨?perst, fun sp w => ⟨fun hp h => does_perstRelease (perstRelease_trains hp h),
      fun h => does_perstRelease (perstRelease_still h)⟩⟩⟩
  case power =>
    exact ⟨_, does_powerOnReset, s.powerOn_clean test, s.rd_cause_powerOn test, rfl, rfl, rfl, s.pci_deviceReset 3, rfl,
      rfl, rfl, s.get_svn_powerOn test⟩
  case pin =>
    exact ⟨_, does_resetNAssert, s.pinReset_clean, s.rd_cause_pinReset, rfl, rfl,
      s.hbm_deviceReset (setBit s.rstCause 1), s.pci_deviceReset (setBit s.rstCause 1),
      s.jtag_deviceReset (setBit s.rstCause 1), rfl, rfl⟩
  case wdog =>
    exact ⟨_, does_mgmtWdogExpiry (chipReset_runs h (by decide)), s.chipLeft_clean _ _ _,
      s.rd_cause_chipLeft _ _ _, rfl, rfl, s.jtag_chipLeft _ _ _, rfl, s.rd_link_chipLeft _ _ _, rfl⟩
  case chip =>
    have hr' := writeRst_regsOnly s ((v &&& ~~~0xFF00) ||| 0xA501)
    have hlink := rd_writeRst_link s ((v &&& ~~~0xFF00) ||| 0xA501)
    have hdoes := does_chip (t := _) hr (rstWrite_resets (getLsbD_or_one rfl) (fget_chip v))
    rw [chipReset_runs (hr'.boot ▸ h) (by decide)] at hdoes
    obtain ⟨hclean, hpci, hjtag, hsmb, hhbm⟩ := chipLeft_regsOnly hr' _ _ _
    exact ⟨_, hdoes, hclean, rd_cause_chipLeft _ _ _ _, hpci, hjtag, hsmb, (rd_link_chipLeft _ _ _ _).trans hlink, hhbm⟩
  case perst =>
    exact ⟨_, does_perstAssert, congrArg PciDyn.perstLow s.perst_pci, congrArg PciDyn.linkUp s.perst_pci,
      congrArg PciDyn.d3 s.perst_pci, congrArg PciDyn.msix s.perst_pci, (congrArg PciDyn.pba s.perst_pci).trans rfl,
      (congrArg (fun c : PciDyn => tabGet 0 c.cfg 11) s.perst_pci).trans (tabGet_put_same _ _ _ _),
      fun o ho => (rd_perst s ho (fun h => absurd h.1 (by decide))).trans (if_pos rfl),
      fun q o ho hq hc => (rd_perst s ho hc).trans (if_neg hq), fun h => flag_perst h, s.perst_only⟩

end Sys2Proof

/-!
Steps and falls of the start-up stage (O52; R403, R404).
-/
namespace Sys2Proof.Machine

open Sys2Proof

namespace State

section
variable {s : State} {b : Boot} {n : Nat}

/-! ## The stage itself -/

theorem stage_set (s : State) (h : n < 8) : (s.set glbPg F.GLB_STAGE_STAGE n).stage = n := by
  have hget := get_set_same s glbPg F.GLB_STAGE_STAGE n (by decide) (by decide)
  exact hget.trans (Nat.mod_eq_of_lt h)

theorem stage_rise (s : State) (p b : Nat) : (s.rise p b).stage = s.stage :=
  get_rise_anywhere _ _ _ _ (by decide) (by decide)

theorem stage_stage1 (s : State) (b : Boot) : (s.stage1 b).stage = 1 := by
  have h : (((s.fwBoot b).integrate).setStage 1).stage = 1 := stage_set _ (by decide)
  simp only [stage1]
  split
  · rw [stage_rise, h]
  · exact h

/-! ## Steps (R403) -/

/-- Nothing steps: in reset, at the test port, at a power failure, in device heel. -/
abbrev StepsHeld (s : State) : Prop :=
  s.boot.held = true ∨ s.jtag.taken = true ∨ s.flag fltPg F.FLT_STS_PWR_FAIL = true ∨ s.devHeel = true

theorem stepsHeld_iff : (s.boot.held || s.jtag.taken || s.flag fltPg F.FLT_STS_PWR_FAIL || s.devHeel) = true ↔
    s.StepsHeld := by
  simp only [Bool.or_eq_true, or_assoc]

/-- HOLD_AT, or recovery, keeps the stage. -/
abbrev StageKept (s : State) : Prop := s.holdAt ≤ s.stage ∨ s.flag secPg F.SEC_STS_RECOVERY = true

theorem stageStep_held (h : s.StepsHeld) : s.stageStep b = s := by
  simp only [stageStep, if_pos (stepsHeld_iff.2 h)]

theorem stageStep_zero (hs : ¬ s.StepsHeld) (h : s.stage = 0) :
    s.stageStep b = if s.pllsLocked then s.stage1 b else s := by
  simp only [stageStep, if_neg (mt stepsHeld_iff.1 hs), if_pos h]

theorem stageStep_kept (h : s.stage ≠ 0) (hk : s.StageKept) : s.stageStep b = s := by
  by_cases hs : s.StepsHeld
  · exact stageStep_held hs
  · simp only [stageStep, if_neg (mt stepsHeld_iff.1 hs), if_neg h, if_pos hk]

theorem stageStep_eq (hs : ¬ s.StepsHeld) (h : s.stage ≠ 0) (hk : ¬ s.StageKept) : s.stageStep b =
    if s.stage = 1 then (if s.pllsLocked then s.stage2 b else s)
    else if s.stage = 2 then s.stage3 b
    else if s.stage = 3 then s.stage4
    else s := by
  simp only [stageStep, if_neg (mt stepsHeld_iff.1 hs), if_neg h, if_neg hk]

theorem not_stageKept (h : s.stage < s.holdAt) (hr : s.flag secPg F.SEC_STS_RECOVERY = false) : ¬ s.StageKept := by
  rintro (hk | hk)
  · omega
  · exact absurd (hr.symm.trans hk) (by decide)

theorem stage4_user (h : s.flag calPg F.CAL_STS_USER_OK = true) : s.stage4 = s.setStage 4 := by
  simp only [stage4, h, if_true]

/-- Without a valid copy in flash the stage stays (R403). -/
theorem stage4_none (h : s.flag calPg F.CAL_STS_USER_OK = false) (hn : s.newestSlot = none) :
    s.stage4 = (s.put calPg F.CAL_STS_LOAD_ERR true).rise calPg X.CAL_LOAD_ERR := by
  have hsame : ((s.put calPg F.CAL_STS_LOAD_ERR true).rise calPg X.CAL_LOAD_ERR).flag calPg F.CAL_STS_USER_OK =
      false := by
    rw [flag_rise_ofs _ _ _ (by decide), flag_put_bits _ _ _ _ _ (by decide) (by decide) (by decide) (by decide), h]
  simp only [stage4, h, hn, hsame, Bool.false_eq_true, if_false]

/-! ## Falls (R404) -/

theorem stageFall_runs (h : s.groups ≠ []) : s.stageFall = s := by
  have hrun : s.allStopped = false := by
    rw [allStopped, List.isEmpty_eq_false_iff]
    exact h
  simp only [stageFall, hrun, Bool.false_eq_true, if_false]

theorem stageFall_stopped (h : s.groups = []) : s.stageFall = s.fallTo (max 2 s.holdAt) := by
  have hstop : s.allStopped = true := by rw [allStopped, h, List.isEmpty_nil]
  simp only [stageFall, hstop, if_true]

theorem fallTo_none {m : Nat} (hm : 2 ≤ m) (h : s.stage < 3 ∨ s.stage ≤ m) : s.fallTo m = s := by
  have h4 : ¬ (s.stage = 4 ∧ m < 4) := by omega
  have h3 : ¬ (s.stage = 3 ∧ m < 3) := by omega
  simp only [fallTo, if_neg h4, if_neg h3]

theorem fallTo_three {m : Nat} (h : s.stage = 3) (hm : m < 3) : s.fallTo m = s.fall2 := by
  have h4 : ¬ (s.stage = 4 ∧ m < 4) := by omega
  simp only [fallTo, if_neg h4, if_pos (And.intro h hm)]

/-- From 4 the factory image becomes live. -/
theorem fallTo_four {m : Nat} (h : s.stage = 4) (hm : m < 4) :
    s.fallTo m = if m < 3 then (s.calFactory.setStage 3).fall2 else s.calFactory.setStage 3 := by
  have h3 : (s.calFactory.setStage 3).stage = 3 := stage_set _ (by decide)
  simp only [fallTo, if_pos (And.intro h hm), h3, true_and]

end

end State

end Sys2Proof.Machine

namespace Sys2Proof

open Sys2Proof.Machine Sys2Proof.Machine.State

section
variable {s t : State} {b : Boot} {v : W32}

theorem does_stageStep (h : s.stageStep b = t) : Does (.stageStep b) s t := .of rfl h

theorem does_stageFall (h : s.stageFall = t) : Does .stageFall s t := .of rfl h

theorem does_holdAtWrite (hr : Reaches s glbPg) : Does (.holdAtWrite v) s (s.writeReg glbPg 0x104 v false) :=
  does_onPage rfl hr rfl

end

/-- Settles O52: a step by the stage and what holds it; a fall by the stage and HOLD_AT. -/
theorem stagesStepAndFall : Obligations.StagesStepAndFall := by
  unfold Obligations.StagesStepAndFall
  refine ⟨fun s b => ⟨fun h => does_stageStep (stageStep_held h), fun hs h hp => ?one,
      fun hs h hp => ?unlocked, fun h hk => does_stageStep (stageStep_kept h hk), fun hs hlt hr => ?above⟩,
    fun s => ⟨fun h => does_stageFall (stageFall_runs h), fun h hle _ => ?stays, fun h h3 hm => ?from3,
      fun h h4 hm => ?to3, fun h h4 hm => ?to2⟩,
    fun s v hr => does_holdAtWrite hr⟩
  case one =>
    refine ⟨s.stage1 b, does_stageStep ?_, stage_stage1 s b⟩
    rw [stageStep_zero hs h, if_pos hp]
  case unlocked =>
    refine does_stageStep ?_
    rw [stageStep_zero hs h, if_neg (by rw [hp]; decide)]
  case above =>
    have hk := not_stageKept hlt hr
    refine ⟨fun h hp => does_stageStep ?locked, fun h hp => does_stageStep ?not, fun h => does_stageStep ?two,
      fun h hu => does_stageStep ?user, fun h hu hn => does_stageStep ?none⟩
    case locked => rw [stageStep_eq hs (by omega) hk, if_pos h, if_pos hp]
    case not => rw [stageStep_eq hs (by omega) hk, if_pos h, if_neg (by rw [hp]; decide)]
    case two => rw [stageStep_eq hs (by omega) hk, if_neg (by omega), if_pos h]
    case user =>
      rw [stageStep_eq hs (by omega) hk, if_neg (by omega), if_neg (by omega), if_pos h]
      exact stage4_user hu
    case none =>
      rw [stageStep_eq hs (by omega) hk, if_neg (by omega), if_neg (by omega), if_pos h]
      exact stage4_none hu hn
  case stays => exact does_stageFall ((stageFall_stopped h).trans (fallTo_none (Nat.le_max_left _ _) hle))
  case from3 => exact does_stageFall ((stageFall_stopped h).trans (fallTo_three h3 (by omega)))
  case to3 => exact does_stageFall (((stageFall_stopped h).trans (fallTo_four h4 (by omega))).trans (if_neg (by omega)))
  case to2 => exact does_stageFall (((stageFall_stopped h).trans (fallTo_four h4 (by omega))).trans (if_pos (by omega)))

end Sys2Proof

/-!
Flash commands and the release of KILL_N (O53; R401, R424).
-/
namespace Sys2Proof.Machine

open Sys2Proof

namespace State

section
variable {s t : State} {v : W32} {op a : Nat} {d : W32}

/-! ## The start of a command -/

/-- A command runs. -/
def flashRun (s : State) (op : Nat) : State :=
  ({ s with flash := { s.flash with op := some (op, s.get secPg F.SEC_FLASH_ADDR_ADDR, s.rd secPg 0x144) } } :
    State).put secPg F.SEC_STS_FLASH_BUSY true

theorem stage_of_onLink (h : s.offLink = false) : s.stage ≠ 0 := by
  intro h0
  rw [offLink, h0, beq_self_eq_true, Bool.or_true] at h
  exact absurd h (by decide)

theorem flashCmd_eq (hop : fget v 1 0 = op) (h0 : op ≠ 0) (hs : s.stage ≠ 0) : s.flashCmd v =
    if (s.flash.op.isSome || (op != 3 && !s.flashAllowed (s.get secPg F.SEC_FLASH_ADDR_ADDR))) = true
    then s.flashErr else s.flashRun op := by
  have hst : decide (s.stage = 0) = false := decide_eq_false hs
  simp only [flashCmd, hop, if_neg h0, hst, Bool.false_or, flashRun]

theorem flashCmd_busy (hop : fget v 1 0 = op) (h0 : op ≠ 0) (hs : s.stage ≠ 0) (hb : s.flash.op ≠ none) :
    s.flashCmd v = s.flashErr := by
  rw [flashCmd_eq hop h0 hs, Option.isSome_iff_ne_none.2 hb, Bool.true_or, if_pos rfl]

theorem flashCmd_refused (hop : fget v 1 0 = op) (h0 : op ≠ 0) (hs : s.stage ≠ 0) (h3 : op ≠ 3)
    (ha : s.flashAllowed (s.get secPg F.SEC_FLASH_ADDR_ADDR) = false) : s.flashCmd v = s.flashErr := by
  have h3' : (op != 3) = true := bne_iff_ne.2 h3
  rw [flashCmd_eq hop h0 hs, ha, h3', Bool.not_false, Bool.and_true, Bool.or_true, if_pos rfl]

theorem flashCmd_runs (hop : fget v 1 0 = op) (h0 : op ≠ 0) (hs : s.stage ≠ 0) (hb : s.flash.op = none)
    (ha : op = 3 ∨ s.flashAllowed (s.get secPg F.SEC_FLASH_ADDR_ADDR) = true) : s.flashCmd v = s.flashRun op := by
  have hc : (op != 3 && !s.flashAllowed (s.get secPg F.SEC_FLASH_ADDR_ADDR)) = false := by
    rcases ha with ha | ha <;> simp [ha]
  rw [flashCmd_eq hop h0 hs, hb, hc, Option.isSome_none, Bool.or_false, if_neg Bool.false_ne_true]

/-! ## The end of a command -/

/-- What a command that succeeds does to flash or to the data register. -/
def flashWorked (s : State) (op a : Nat) (d : W32) : State :=
  if op = 1 then s.flashErase (a / 16384 * 16384) 16384
  else if op = 2 then s.flashPut a (s.flashWord a &&& d)
  else s.wr secPg 0x144 (s.flashWord a)

/-- The address steps on but for an erase, and the command is over. -/
def flashOver (op a : Nat) (s : State) : State :=
  let u := if op = 1 then s else s.set secPg F.SEC_FLASH_ADDR_ADDR ((a + 1) % 2 ^ 22)
  ({ u with flash := { u.flash with op := none } } : State).put secPg F.SEC_STS_FLASH_BUSY false

theorem flashDone_none {ok : Bool} (h : s.flash.op = none) : s.flashDone ok = s := by simp only [flashDone, h]

theorem flashDone_works (h : s.flash.op = some (op, a, d)) :
    s.flashDone true = flashOver op a (s.flashWorked op a d) := by
  simp only [flashDone, h, Bool.not_true, Bool.false_eq_true, if_false, flashOver, flashWorked]

theorem flashDone_fails (h : s.flash.op = some (op, a, d)) : s.flashDone false = flashOver op a
    ({ s.flashAbandon with flash := { s.flashAbandon.flash with save := s.flash.save } } : State).flashErr := by
  simp only [flashDone, h, Bool.not_false, if_true, flashOver]

theorem flashOver_op (op a : Nat) (s : State) : (flashOver op a s).flash.op = none := rfl

theorem flag_flashOver (op a : Nat) (s : State) : (flashOver op a s).flag secPg F.SEC_STS_FLASH_BUSY = false :=
  flag_put_same _ _ _ _ (by decide) rfl

theorem flag_err_flashOver (op a : Nat) (s : State) :
    (flashOver op a s).flag secPg F.SEC_STS_FLASH_ERR = s.flag secPg F.SEC_STS_FLASH_ERR := by
  rw [flashOver]
  dsimp only
  rw [flag_put_bits _ _ _ _ _ (by decide) (by decide) (by decide) (by decide)]
  split
  · rfl
  · exact congrArg (fun n => decide (n ≠ 0))
      (get_set_ofs s secPg F.SEC_FLASH_ADDR_ADDR F.SEC_STS_FLASH_ERR _ (by decide))

theorem flag_flashErr (s : State) : s.flashErr.flag secPg F.SEC_STS_FLASH_ERR = true := by
  rw [flashErr, flag_rise_ofs _ _ _ (by decide)]
  exact flag_put_same _ _ _ _ (by decide) rfl

theorem flashWord_flashOver (op a : Nat) (s : State) (x : Nat) : (flashOver op a s).flashWord x = s.flashWord x := by
  rw [flashOver]
  dsimp only
  split <;> rfl

theorem rd_data_flashOver (op a : Nat) (s : State) : (flashOver op a s).rd secPg 0x144 = s.rd secPg 0x144 := by
  rw [flashOver]
  dsimp only
  rw [rd_put_ofs _ _ _ _ _ (by decide)]
  split
  · rfl
  · exact rd_set_ofs s secPg 0x144 F.SEC_FLASH_ADDR_ADDR _ (by decide)

theorem get_addr_erased (s : State) :
    (flashOver 1 a s).get secPg F.SEC_FLASH_ADDR_ADDR = s.get secPg F.SEC_FLASH_ADDR_ADDR := by
  rw [flashOver, if_pos rfl]
  dsimp only
  rw [put, get_set_ofs _ _ _ _ _ (by decide)]
  rfl

theorem get_addr_stepped (s : State) (h : op ≠ 1) :
    (flashOver op a s).get secPg F.SEC_FLASH_ADDR_ADDR = (a + 1) % 2 ^ 22 := by
  rw [flashOver, if_neg h]
  dsimp only
  rw [put, get_set_ofs _ _ _ _ _ (by decide)]
  have hget := get_set_same s secPg F.SEC_FLASH_ADDR_ADDR ((a + 1) % 2 ^ 22) (by decide) (by decide)
  exact hget.trans (Nat.mod_mod _ _)

theorem FlashOnly.flashOver (h : FlashOnly s t) (op a : Nat) : FlashOnly s (flashOver op a t) := by
  obtain ⟨rs, f, rfl⟩ := h
  rw [State.flashOver]
  split <;> exact ⟨_, _, rfl⟩

theorem flashWorked_only (s : State) (op a : Nat) (d : W32) : FlashOnly s (s.flashWorked op a d) := by
  have hsame : FlashOnly s s := ⟨s.regs, s.flash, rfl⟩
  rw [flashWorked]
  split_ifs
  · exact hsame.flashErase _ _
  · exact hsame.flashPut _ _
  · exact ⟨_, _, rfl⟩

/-! ## KILL_N (R424) -/

theorem stage_writeKill (s : State) (v : W32) (bad : Bool) : (s.writeReg glbPg 0x110 v bad).stage = s.stage := by
  obtain ⟨r, hr⟩ := Option.isSome_iff_exists.1 (show (findReg glbPg 0x110).isSome = true by decide)
  have hidle (u : State) : u.idleForce glbPg = u := rfl
  have hrd : (regWrite s glbPg 0x110 r v bad (s.enabled glbPg)).1.rd glbPg 0x104 = s.rd glbPg 0x104 :=
    rd_regWrite_other _ _ _ _ _ (by decide) (by decide) (by decide)
  simp only [writeReg, writeAt, hr, hidle]
  exact congrArg (fun w => fget w 2 0) hrd

theorem killWrite_release (hs : s.stage ≠ 0) : s.killWrite 1 =
    (s.writeReg glbPg 0x110 1 (s.devHeel || s.flag fltPg F.FLT_STS_PWR_FAIL || s.flag thmPg F.THM_STS_TRIP)).put glbPg
      F.GLB_KILL_ASSERTED (!(s.writeReg glbPg 0x110 1 (s.devHeel || s.flag fltPg F.FLT_STS_PWR_FAIL ||
        s.flag thmPg F.THM_STS_TRIP)).flag glbPg F.GLB_KILL_RELEASE) := by
  generalize hu : s.writeReg glbPg 0x110 1
    (s.devHeel || s.flag fltPg F.FLT_STS_PWR_FAIL || s.flag thmPg F.THM_STS_TRIP) = u
  have hst : u.stage ≠ 0 := by
    rw [← hu, stage_writeKill]
    exact hs
  have hbit : (1 : W32).getLsbD 0 = true := rfl
  simp only [killWrite, hbit, Bool.true_and, hu, if_neg hst]

end

end State

end Sys2Proof.Machine

namespace Sys2Proof

open Sys2Proof.Machine Sys2Proof.Machine.State

section
variable {s t : State}

theorem does_erase (hr : Reaches s secPg) (h : s.flashCmd 1 = t) : Does .erase s t := does_onPage rfl hr h

theorem does_program (hr : Reaches s secPg) (h : s.flashCmd 2 = t) : Does .program s t := does_onPage rfl hr h

theorem does_flashRead (hr : Reaches s secPg) (h : s.flashCmd 3 = t) : Does .flashRead s t := does_onPage rfl hr h

theorem does_flashOpDone {ok : Bool} (h : s.flashDone ok = t) : Does (.flashOpDone ok) s t := .of rfl h

theorem does_releaseKill (hr : Reaches s glbPg) (h : s.killWrite 1 = t) : Does .releaseKill s t :=
  does_onPage rfl hr h

end

/-- Settles O53: a command by what is refused; its end by the command. -/
theorem flashCommandsAndKillRelease : Obligations.FlashCommandsAndKillRelease := by
  unfold Obligations.FlashCommandsAndKillRelease
  refine ⟨fun s hr => ?starts, fun s => ⟨fun h ok => does_flashOpDone (flashDone_none h), fun op a d h => ?works,
    fun op a d h => ?fails⟩, fun s hr => does_releaseKill hr (killWrite_release (stage_of_onLink hr.1))⟩
  case starts =>
    have hs := stage_of_onLink hr.1
    refine ⟨fun hb => ⟨?_, ?_, ?_⟩, fun hb => ?_, fun hb ha => ⟨?_, ?_⟩, fun hb ha => ⟨?_, ?_⟩⟩
    · exact does_erase hr (flashCmd_busy rfl (by decide) hs hb)
    · exact does_program hr (flashCmd_busy rfl (by decide) hs hb)
    · exact does_flashRead hr (flashCmd_busy rfl (by decide) hs hb)
    · exact does_flashRead hr (flashCmd_runs rfl (by decide) hs (not_not.1 hb) (Or.inl rfl))
    · exact does_erase hr (flashCmd_refused rfl (by decide) hs (by decide) ha)
    · exact does_program hr (flashCmd_refused rfl (by decide) hs (by decide) ha)
    · exact does_erase hr (flashCmd_runs rfl (by decide) hs (not_not.1 hb) (Or.inr ha))
    · exact does_program hr (flashCmd_runs rfl (by decide) hs (not_not.1 hb) (Or.inr ha))
  case works =>
    refine ⟨_, does_flashOpDone (flashDone_works h), flashOver_op _ _ _, flag_flashOver _ _ _,
      ((s.flashWorked_only op a d).flashOver op a).eq, ?erase, ?program, ?read, fun h1 => get_addr_stepped _ h1⟩
    case erase =>
      rintro rfl
      exact ⟨get_addr_erased _, fun x => (flashWord_flashOver _ _ _ _).trans flashWord_erase⟩
    case program =>
      rintro rfl x
      rw [flashWord_flashOver]
      split_ifs with hx
      · rw [hx]
        exact flashWord_put_same
      · exact flashWord_put_other (Ne.symm hx)
    case read =>
      rintro rfl
      exact ⟨(rd_data_flashOver _ _ _).trans (rd_wr_same _ _ _ _), fun x => flashWord_flashOver _ _ _ _⟩
  case fails =>
    exact ⟨_, does_flashOpDone (flashDone_fails h), flashOver_op _ _ _, flag_flashOver _ _ _,
      (flag_err_flashOver _ _ _).trans (flag_flashErr _)⟩

end Sys2Proof

/-!
The header of a page (R440 to R443), and the state right after reset (O1; R393, R395, R403, R424).
-/
namespace Sys2Proof.Machine

open Sys2Proof

section
variable {p o : Nat}

/-! ## The header registers at their reset values -/

/-- Every page holds every header register. -/
theorem findReg_header (hp : pagePresent p = true) (ho : o < 0x100) :
    findReg p o = regsHeader.find? (fun r => r.covers o) := by
  have hall : ∀ r ∈ regsHeader, r.only0 = false := by decide
  rw [findReg, if_pos hp, if_pos ho]
  refine List.find?_congr fun r hr => ?_
  rw [hall r hr, Bool.not_false, Bool.true_or, Bool.and_true]

theorem resetWord_cap (hp : pagePresent p = true) : resetWord p 0x004 = BitVec.ofNat 32 (pgCap (p / 256)) := by
  rw [resetWord, findReg_header hp (by decide)]
  rfl

theorem resetWord_ctl (hp : pagePresent p = true) : resetWord p 0x008 = if resettable (p / 256) then 0 else 1 := by
  rw [resetWord, findReg_header hp (by decide)]
  rfl

/-- PG_CTL.ENABLE is 1 at reset on the pages that BLOCK_RESET does not act on (R441). -/
theorem resetWord_enable (hp : pagePresent p = true) : (resetWord p 0x008).getLsbD 0 = !resettable (p / 256) := by
  rw [resetWord_ctl hp]
  cases resettable (p / 256) <;> rfl

theorem resettable_iff {t : Nat} : resettable t = false ↔ t = T.glb ∨ t = T.pci ∨ t = T.flt ∨ t = T.sec := by
  rw [resettable, Bool.not_eq_false', List.contains_iff_mem]
  simp only [List.mem_cons, List.not_mem_nil, or_false]

namespace State

theorem enabled_bit (s : State) (p : Nat) : s.enabled p = (s.rd p 0x008).getLsbD 0 :=
  flag_eq_getLsbD s p F.PG_CTL_ENABLE rfl

end State

end

end Sys2Proof.Machine

namespace Sys2Proof

open Sys2Proof.Machine Sys2Proof.Machine.State

/-- Settles O1: an unlisted register reads its reset value. -/
theorem stateAtReset : Obligations.StateAtReset := by
  unfold Obligations.StateAtReset
  refine ⟨rfl, fun p o => ⟨rfl, rfl⟩, by decide, by decide, by decide, by decide, by decide, rfl, rfl, rfl, rfl, rfl,
    rfl, rfl, fun p hr hp => ?off, fun p hr hp => ?on⟩
  case off =>
    rw [enabled_bit]
    exact (resetWord_enable hp).trans (by rw [hr]; rfl)
  case on =>
    rw [enabled_bit]
    exact (resetWord_enable hp).trans (by rw [hr]; rfl)

end Sys2Proof

/-!
What a rise is, what a masked rise does, and the room of the fault log (O15; R413, R414, R418).
-/
namespace Sys2Proof.Machine

open Sys2Proof

namespace State

section
variable {s : State} {p b c : Nat} {ws : List W32}

/-! ## A rise (R414) -/

theorem rise_idle (h : s.fltBit p b = true) : s.rise p b = s := by simp only [rise, h, if_true]

theorem rise_new (h : s.fltBit p b = false) : s.rise p b =
    { s.wr p 0x010 (s.rd p 0x010 ||| BitVec.ofNat 32 (1 <<< b)) with
      flt := { s.flt with rises := s.flt.rises ++ [(p, b)] } } := by
  simp only [rise, h, Bool.false_eq_true, if_false, wr_flt]

/-- A word with one bit set. -/
theorem getLsbD_bit {i j : Nat} (hj : j < 32) : (BitVec.ofNat 32 (1 <<< i)).getLsbD j = decide (i = j) := by
  rw [BitVec.getLsbD_ofNat, Nat.one_shiftLeft, Nat.testBit_two_pow]
  simp [hj]

theorem fltBit_rise_other (hc : c < 32) (hcb : c ≠ b) : (s.rise p b).fltBit p c = s.fltBit p c := by
  cases h : s.fltBit p b
  case true => rw [rise_idle h]
  case false =>
    have hrd : (s.rise p b).rd p 0x010 = s.rd p 0x010 ||| BitVec.ofNat 32 (1 <<< b) := by
      rw [rise_new h]
      exact rd_wr_same _ _ _ _
    rw [fltBit, hrd, BitVec.getLsbD_or, getLsbD_bit hc, decide_eq_false (Ne.symm hcb), Bool.or_false, fltBit]

/-! ## The room of the log (R418) -/

/-- The log has no entry free for a record. -/
abbrev LogFull (s : State) (ws : List W32) : Prop :=
  512 ≤ s.flt.log.length ∨ (logOther ws = true ∧ 480 ≤ (s.flt.log.filter logOther).length)

theorem logFull_iff : (decide (512 ≤ s.flt.log.length) ||
    (logOther ws && decide (480 ≤ (s.flt.log.filter logOther).length))) = true ↔ s.LogFull ws := by
  rw [Bool.or_eq_true, Bool.and_eq_true, decide_eq_true_iff, decide_eq_true_iff]

theorem logPush_room (h : ¬ s.LogFull ws) : s.logPush ws =
    ({ s with flt := { s.flt with seq := s.flt.seq + 1, log := s.flt.log ++ [ws] } } : State).set fltPg
      F.FLT_LOG_STS_DEPTH (s.flt.log.length + 1) := by
  have hfull := mt logFull_iff.1 h
  simp only [logPush, if_neg hfull, List.length_append, List.length_singleton]
  rfl

/-- A record that finds no room. -/
def logMissed (s : State) : State :=
  ({ s with flt := { s.flt with seq := s.flt.seq + 1, logLost := s.flt.logLost + 1 } } : State).bump fltPg
    F.FLT_LOG_STS_LOST 1

theorem logPush_full (h : s.LogFull ws) : s.logPush ws =
    (s.logMissed.put fltPg F.FLT_STS_LOG_LOST true).rise fltPg X.FLT_LOG_LOST := by
  have hfull := logFull_iff.2 h
  simp only [logPush, if_pos hfull, logMissed]
  rfl

theorem rise_log (s : State) (p b : Nat) : (s.rise p b).flt.log = s.flt.log := by
  unfold rise
  split <;> rfl

theorem rise_logLost (s : State) (p b : Nat) : (s.rise p b).flt.logLost = s.flt.logLost := by
  unfold rise
  split <;> rfl

theorem logPush_full_log (h : s.LogFull ws) : (s.logPush ws).flt.log = s.flt.log := by
  rw [logPush_full h, rise_log]
  rfl

theorem logPush_full_lost (h : s.LogFull ws) : (s.logPush ws).flt.logLost = s.flt.logLost + 1 := by
  rw [logPush_full h, rise_logLost]
  rfl

theorem logPush_full_flag (h : s.LogFull ws) : (s.logPush ws).flag fltPg F.FLT_STS_LOG_LOST = true := by
  rw [logPush_full h, flag_rise_ofs _ _ _ (by decide)]
  exact flag_put_same _ _ _ _ (by decide) rfl

theorem logPush_room_log (h : ¬ s.LogFull ws) : (s.logPush ws).flt.log = s.flt.log ++ [ws] := by
  rw [logPush_room h]
  rfl

theorem logPush_room_lost (h : ¬ s.LogFull ws) : (s.logPush ws).flt.logLost = s.flt.logLost := by
  rw [logPush_room h]
  rfl

theorem logPush_bounded (h : s.flt.log.length ≤ 512) : (s.logPush ws).flt.log.length ≤ 512 := by
  by_cases hf : s.LogFull ws
  · rw [logPush_full_log hf]
    exact h
  · have hlt : ¬ 512 ≤ s.flt.log.length := fun h' => hf (Or.inl h')
    rw [logPush_room_log hf, List.length_append, List.length_singleton]
    omega

theorem not_logFull (h : s.flt.log.length < 480) : ¬ s.LogFull ws := by
  rintro (hl | ⟨-, hl⟩)
  · omega
  · have := List.length_filter_le logOther s.flt.log
    omega

/-! ## One masked rise (R413, R414) -/

theorem risePages_one (p b : Nat) : risePages [(p, b)] = [p] := by
  simp [risePages, List.eraseDups_cons]

/-- Of one rise, the sources of its page. -/
theorem riseBits_one (hb : b < 32) : (List.range 32).filter (fun c => [(p, b)].contains (p, c)) = [b] := by
  have hpick : ∀ b < 32, (List.range 32).filter (fun c => c == b) = [b] := by decide
  rw [← hpick b hb]
  refine List.filter_congr fun c _ => ?_
  by_cases h : c = b <;> simp [h]

/-- The rises taken up. -/
def risesTaken (s : State) : State := { s with flt := { s.flt with rises := [] } }

theorem riseRound_one (h : s.flt.rises = [(p, b)]) :
    s.riseRound = pageRise [(p, b)] (riseC [(p, b)]) s.risesTaken p := by
  simp only [riseRound, h, risePages_one, List.foldl_cons, List.foldl_nil, risesTaken]

theorem srcRxn_masked (h : s.srcMasked p b = true) (hf : (srcOf p b).fixed = 0) : s.srcRxn p b = 0 := by
  simp only [srcRxn, h, if_true, hf]

theorem rxnHeel_none {n : Nat} (h : s.srcRxn p b = 0) : rxnHeel n p s b = s := by
  simp only [rxnHeel, h, Nat.zero_testBit, Bool.false_and, Bool.false_eq_true, if_false]

theorem rxnFault_none (h : s.srcRxn p b = 0) : rxnFault p s b = s := by
  simp only [rxnFault, h, Nat.zero_testBit, Bool.false_eq_true, if_false]

theorem rxnLog_plain (h : s.srcRxn p b = 0) :
    rxnLog p s b = s.logPush (s.logRec 1 p b (s.cls p b) 0 (s.srcMasked p b)) := by
  simp only [rxnLog, h, Nat.zero_testBit, Bool.false_eq_true, if_false]

theorem logRoom_none (h : s.flt.logLost = 0) : s.logRoom = s := by simp only [logRoom, h, if_true]

theorem rxnEntry_masked (h : s.srcMasked p b = true) : rxnEntry p [b] s = s := by
  simp [rxnEntry, h]

theorem srcMasked_logPush (s : State) (hf : ¬ s.LogFull ws) (p b : Nat) :
    (s.logPush ws).srcMasked p b = s.srcMasked p b := by
  have hkey : rkey fltPg F.FLT_LOG_STS_DEPTH.ofs ≠ rkey p 0x014 := rkey_offset (by decide) (by decide) (by decide)
  rw [logPush_room hf, srcMasked, rd_set_other _ _ _ _ _ _ hkey]
  rfl

theorem pageRise_masked {n : Nat} (hb : b < 32) (hm : s.srcMasked p b = true) (hf : (srcOf p b).fixed = 0)
    (hroom : s.flt.log.length < 480) (hlost : s.flt.logLost = 0) :
    pageRise [(p, b)] n s p = s.logPush (s.logRec 1 p b (s.cls p b) 0 true) := by
  have hrx := srcRxn_masked hm hf
  have hfull : ¬ s.LogFull (s.logRec 1 p b (s.cls p b) 0 true) := not_logFull hroom
  have hkept := (logPush_room_lost hfull).trans hlost
  have hmask := (srcMasked_logPush s hfull p b).trans hm
  simp only [pageRise, riseBits_one hb, List.map_cons, List.map_nil, List.foldl_cons, List.foldl_nil, rxnHeel_none hrx,
    rxnFault_none hrx, rxnLog_plain hrx, hm, logRoom_none hkept, rxnEntry_masked hmask, List.any_cons, List.any_nil,
    hrx, Nat.zero_testBit, Bool.or_false, Bool.false_eq_true, if_false]

theorem riseRounds_none {n : Nat} (h : s.flt.rises = []) : s.riseRounds n = s := by
  cases n with
  | zero => rfl
  | succ n => rw [riseRounds, h, List.isEmpty_nil, if_pos rfl]

theorem settle_masked (hb : b < 32) (h : s.flt.rises = [(p, b)]) (hq : Quiet s) (hm : s.srcMasked p b = true)
    (hf : (srcOf p b).fixed = 0) (hroom : s.flt.log.length < 480) (hlost : s.flt.logLost = 0) :
    s.settle = ({ s with flt := { s.flt with rises := [], seq := s.flt.seq + 1,
                                             log := s.flt.log ++ [s.logRec 1 p b (s.cls p b) 0 true] } } : State).set
      fltPg F.FLT_LOG_STS_DEPTH (s.flt.log.length + 1) := by
  have hround : s.riseRound = s.risesTaken.logPush (s.risesTaken.logRec 1 p b (s.risesTaken.cls p b) 0 true) :=
    (riseRound_one h).trans (pageRise_masked hb hm hf hroom hlost)
  have hstop : s.stopCheck = s := by simp only [stopCheck, hq.1, List.filter_nil, List.foldl_nil]
  have hrooms : ¬ s.risesTaken.LogFull (s.risesTaken.logRec 1 p b (s.risesTaken.cls p b) 0 true) := not_logFull hroom
  have hsome : ¬ s.flt.rises.isEmpty = true := by
    rw [h]
    exact Bool.false_ne_true
  rw [settle, hstop, resetsDue_none s hq.2, riseRounds, if_neg hsome, hround, logPush_room hrooms]
  exact riseRounds_none rfl

end

end State

end Sys2Proof.Machine

namespace Sys2Proof

open Sys2Proof.Machine Sys2Proof.Machine.State

/-- Settles O15: a rise by its bit, the collector on one masked rise, a record by the room it finds. -/
theorem risesAreRecordedOnce : Obligations.RisesAreRecordedOnce := by
  unfold Obligations.RisesAreRecordedOnce
  refine ⟨fun s p b hb => ⟨fun h => rise_idle h, fun h => ⟨?rises, fltBit_rise s p hb,
      fun c hc hcb => fltBit_rise_other hc hcb, fun q a hk => rd_rise_other s p b hk.symm, ?hbm⟩,
      rise_idle (fltBit_rise s p hb)⟩,
    fun s hr hq => settle_quiet s hr hq,
    fun s p b hb h hq hm hf hroom hlost => settle_masked hb h hq hm hf hroom hlost,
    fun s ws => ⟨fun h => ⟨logPush_full_log h, logPush_full_lost h, logPush_full_flag h⟩,
      fun h => ⟨logPush_room_log h, logPush_room_lost h⟩, fun h => logPush_bounded h⟩⟩
  case rises => rw [rise_new h]
  case hbm =>
    rw [rise_new h]
    rfl

end Sys2Proof

/-!
Clearing fault bits, fault classes, trap words and the log's read (O16; R410, R411, R419, R420, R445).
-/
namespace Sys2Proof.Machine

open Sys2Proof

/-- A field that another word's bits lie outside of. -/
theorem fget_or_out {w : W32} {hi lo : Nat} (v : W32) (h : fget w hi lo = 0) : fget (v ||| w) hi lo = fget v hi lo := by
  have hw : w >>> lo &&& (BitVec.allOnes 32 >>> (31 - (hi - lo))) = 0#32 := BitVec.eq_of_toNat_eq h
  rw [fget, BitVec.ushiftRight_or_distrib, BitVec.and_comm, BitVec.and_or_distrib_left, BitVec.and_comm _ (w >>> lo),
    hw, BitVec.or_zero, BitVec.and_comm, fget]

namespace State

section
variable {s : State} {p b c : Nat} {v : W32}

/-! ## Clears (R420) -/

/-- Of the bits of a word with one bit, those that are to be cleared. -/
theorem clearBits_one (hb : b < 32) :
    (List.range 32).filter (fun c => (BitVec.ofNat 32 (1 <<< b)).getLsbD c && s.fltBit p c) =
      if s.fltBit p b = true then [b] else [] := by
  have hpick : ∀ b < 32, (List.range 32).filter (fun c => c == b) = [b] := by decide
  have hcongr : ∀ c ∈ List.range 32,
      ((BitVec.ofNat 32 (1 <<< b)).getLsbD c && s.fltBit p c) = (c == b && s.fltBit p b) := by
    intro c hc
    rw [getLsbD_bit (List.mem_range.1 hc)]
    by_cases h : b = c
    · simp [h]
    · simp [h, Ne.symm h]
  rw [List.filter_congr hcongr]
  cases s.fltBit p b
  case false => simp
  case true => simpa using hpick b hb

theorem fltClear_idle (hp : pagePresent p = true) (hb : b < 32) (h : s.fltBit p b = false) :
    s.fltClear p (BitVec.ofNat 32 (1 <<< b)) = s := by
  have hlist := clearBits_one (s := s) (p := p) hb
  rw [h, if_neg Bool.false_ne_true] at hlist
  simp only [fltClear, hp, Bool.not_true, Bool.false_eq_true, if_false, hlist, List.foldl_nil]

theorem fltClear_one (hp : pagePresent p = true) (hb : b < 32) (h : s.fltBit p b = true) :
    s.fltClear p (BitVec.ofNat 32 (1 <<< b)) = clearOne p s b := by
  have hlist := clearBits_one (s := s) (p := p) hb
  rw [h, if_pos rfl] at hlist
  simp only [fltClear, hp, Bool.not_true, Bool.false_eq_true, if_false, hlist, List.foldl_cons, List.foldl_nil]

/-- The bit at 0, no longer driving FAULT_N. -/
def bitCleared (s : State) (p b : Nat) : State :=
  let u := s.wr p 0x010 (s.rd p 0x010 &&& ~~~(BitVec.ofNat 32 (1 <<< b)))
  ({ u with flt := { u.flt with faultN := u.flt.faultN.filter (· != (p, b)) } } : State).faultSync

/-- The refusal of a clear shown. -/
def clearShown (s : State) (p b : Nat) : State :=
  ((s.put fltPg F.FLT_STS_CLR_REFUSED true).set fltPg F.FLT_CLR_OFS_BIT b).set fltPg F.FLT_CLR_OFS_PAGE p

theorem clearOne_absent (h : s.causeHolds p b = false) : clearOne p s b =
    (s.bitCleared p b).logPush ((s.bitCleared p b).logRec 2 p b ((s.bitCleared p b).cls p b) 0 false) := by
  simp only [clearOne, h, Bool.false_eq_true, if_false]
  rfl

theorem clearOne_persists (h : s.causeHolds p b = true) : clearOne p s b =
    (s.clearShown p b).logPush ((s.clearShown p b).logRec 3 p b ((s.clearShown p b).cls p b) 0 false) := by
  simp only [clearOne, h, if_true, clearShown]

/-! ## Classes (R410, R445) -/

/-- A write to PG_FLT_CLASS is refused. -/
abbrev ClassShut (s : State) (p b c : Nat) : Prop :=
  c = 3 ∨ (s.locked p = true ∧ (s.cls p b ≠ c ∨ s.get p F.PG_FLT_CLASS_SRC ≠ b))

/-- The class applied. -/
def classed (s : State) (p b c : Nat) : State :=
  let u := s.set p F.PG_FLT_CLASS_SRC b
  if hasSrc p b = true then
    { u with flt := { u.flt with cls := tabPut (srcOf p b).cls u.flt.cls (p * 32 + b) c } }
  else u

theorem clsWrite_eq (hp : pagePresent p = true) (hw : v.getLsbD 31 = true) (hb : fget v 4 0 = b) (hc : fget v 9 8 = c) :
    s.clsWrite p v =
      if (c == 3 || (s.locked p && s.cls p b != c)) = true then s.refuse p 0x018
      else if (s.locked p && s.get p F.PG_FLT_CLASS_SRC != b) = true then s.refuse p 0x018
      else s.classed p b c := by
  simp only [clsWrite, hp, hw, hb, hc, Bool.not_true, Bool.false_eq_true, if_false, Bool.true_and, classed]

theorem clsWrite_shut (hp : pagePresent p = true) (hw : v.getLsbD 31 = true) (hb : fget v 4 0 = b)
    (hc : fget v 9 8 = c) (h : s.ClassShut p b c) : s.clsWrite p v = s.refuse p 0x018 := by
  rw [clsWrite_eq hp hw hb hc]
  split_ifs with h1 h2
  · rfl
  · rfl
  · simp only [Bool.or_eq_true, Bool.and_eq_true, beq_iff_eq, bne_iff_ne] at h1 h2
    rcases h with h | ⟨hl, h | h⟩
    · exact absurd (Or.inl h) h1
    · exact absurd (Or.inr ⟨hl, h⟩) h1
    · exact absurd ⟨hl, h⟩ h2

theorem clsWrite_open (hp : pagePresent p = true) (hw : v.getLsbD 31 = true) (hb : fget v 4 0 = b)
    (hc : fget v 9 8 = c) (h : ¬ s.ClassShut p b c) : s.clsWrite p v = s.classed p b c := by
  rw [clsWrite_eq hp hw hb hc, if_neg, if_neg]
  · simp only [Bool.and_eq_true, bne_iff_ne]
    exact fun hs => h (Or.inr ⟨hs.1, Or.inr hs.2⟩)
  · simp only [Bool.or_eq_true, Bool.and_eq_true, beq_iff_eq, bne_iff_ne]
    exact fun hs => h (hs.imp id (fun hs => ⟨hs.1, Or.inl hs.2⟩))

theorem classed_only (s : State) (p b c : Nat) :
    s.classed p b c = { s with regs := (s.classed p b c).regs, flt := (s.classed p b c).flt } := by
  unfold classed
  dsimp only
  split <;> rfl

theorem cls_classed (h : hasSrc p b = true) : (s.classed p b c).cls p b = c := by
  rw [classed, if_pos h]
  exact tabGet_put_same _ _ _ _

theorem cls_classed_other {q d : Nat} (h : q * 32 + d ≠ p * 32 + b) : (s.classed p b c).cls q d = s.cls q d := by
  unfold classed
  dsimp only
  split
  · exact tabGet_put_other _ _ _ _ _ _ (Ne.symm h)
  · rfl

theorem rxn_classed : (s.classed p b c).rxn = s.rxn := by
  funext q d
  unfold classed
  dsimp only
  split <;> rfl

theorem rises_classed : (s.classed p b c).flt.rises = s.flt.rises := by
  unfold classed
  dsimp only
  split <;> rfl

theorem rd_classed_other {q a : Nat} (h : rkey q a ≠ rkey p 0x018) : (s.classed p b c).rd q a = s.rd q a := by
  have hset : (s.set p F.PG_FLT_CLASS_SRC b).rd q a = s.rd q a := rd_set_other _ _ _ _ _ _ h.symm
  unfold classed
  dsimp only
  split
  · exact hset
  · exact hset

/-! ## Traps (R411) -/

/-- The record that a trap's words enter. -/
abbrev TrapRec (n : W32) (x : List W32) : Prop := x.getD 4 0 = n ∧ fget (x.getD 3 0) 16 14 = 1

/-- The log with the trap's words. -/
def trapWords (d0 d1 n : W32) (l : List (List W32)) : List (List W32) :=
  l.map (fun x => if TrapRec n x then (x.set 5 d0).set 6 d1 else x)

theorem trapDone_none {d0 d1 : W32} (h : s.flt.traps = []) : s.trapDone d0 d1 = s := by simp only [trapDone, h]

theorem trapDone_some {d0 d1 n : W32} {r : List W32} (h : s.flt.traps = n :: r) : s.trapDone d0 d1 =
    { s with flt := { s.flt with traps := r, log := trapWords d0 d1 n s.flt.log } } := by
  simp only [trapDone, h, trapWords]

theorem trapWords_hit {d0 d1 n : W32} {l : List (List W32)} {i : Nat} {x : List W32} (h : l[i]? = some x)
    (ht : TrapRec n x) : (trapWords d0 d1 n l)[i]? = some ((x.set 5 d0).set 6 d1) := by
  rw [trapWords, List.getElem?_map, h, Option.map_some, if_pos ht]

theorem trapWords_miss {d0 d1 n : W32} {l : List (List W32)} {i : Nat} {x : List W32} (h : l[i]? = some x)
    (ht : ¬ TrapRec n x) : (trapWords d0 d1 n l)[i]? = some x := by
  rw [trapWords, List.getElem?_map, h, Option.map_some, if_neg ht]

/-! ## A read of the log (R419) -/

theorem logPop_empty {bad : Bool} (h : s.flt.log = []) :
    s.logPop bad = ({ s with flt := { s.flt with logHold := [] } }, 0) := by
  simp only [logPop, h]

/-- The oldest record in the hold. -/
def logTaken (s : State) (r : List W32) (l : List (List W32)) : State :=
  ({ s with flt := { s.flt with log := l, logHold := r } } : State).set fltPg F.FLT_LOG_STS_DEPTH l.length

theorem logTaken_room {r : List W32} {l : List (List W32)} (h : s.flt.logLost = 0) :
    (s.logTaken r l).logRoom = s.logTaken r l := logRoom_none h

theorem logPop_sound {r : List W32} {l : List (List W32)} (h : s.flt.log = r :: l) (hlost : s.flt.logLost = 0) :
    s.logPop false = (s.logTaken r l, r.getD 0 0) := by
  simp only [logPop, h, Bool.false_eq_true, if_false]
  exact congrArg (fun u : State => (u, r.getD 0 0)) (logTaken_room hlost)

/-- A record that was corrupted carries POISON, and counts as a parity error (R221). -/
theorem logPop_corrupted {r : List W32} {l : List (List W32)} (h : s.flt.log = r :: l) (hlost : s.flt.logLost = 0) :
    s.logPop true = ((s.parityErr fltPg 1).logTaken (r.set 3 (r.getD 3 0 ||| 0x20000)) l,
      (r.set 3 (r.getD 3 0 ||| 0x20000)).getD 0 0) := by
  have hroom : (s.parityErr fltPg 1).flt.logLost = 0 := hlost
  simp only [logPop, h, if_true]
  exact congrArg (fun u : State => (u, (r.set 3 (r.getD 3 0 ||| 0x20000)).getD 0 0)) (logTaken_room hroom)

end

end State

end Sys2Proof.Machine

namespace Sys2Proof

open Sys2Proof.Machine Sys2Proof.Machine.State

section
variable {s t : State} {p : PageNo} {v d0 d1 x : W32} {bad : Bool}

theorem does_faultClear (hr : Readable s p.toNat) (h : s.fltClear p.toNat v = t) : Does (.faultClear p v) s t :=
  .of rfl ((onLink_on s false _ hr.1).trans ((if_pos hr.2).trans h))

theorem does_fltClassWrite (hr : Reaches s p.toNat) (h : s.clsWrite p.toNat (v ||| 0x80000000) = t) :
    Does (.fltClassWrite p v) s t := does_onPage rfl hr h

theorem does_trapHandler (h : s.trapDone d0 d1 = t) : Does (.trapHandler d0 d1) s t := .of rfl h

theorem does_fltLogPop (hl : s.offLink = false) (h : s.logPop bad = (t, x)) : Does (.fltLogPop bad) s (t.answer x) :=
  .of rfl ((hostRead_on s _ hl).trans (congrArg (fun r : State × W32 => r.1.answer r.2) h))

end

/-- Settles O16: a word with one bit clears one source; a class by what is refused; a trap by its record's number. -/
theorem faultBitsClearAndClassesApply : Obligations.FaultBitsClearAndClassesApply := by
  unfold Obligations.FaultBitsClearAndClassesApply
  refine ⟨fun s p b hb hr => ?clears, fun s p v hp hr => ?classes,
    fun s d0 d1 => ⟨fun h => does_trapHandler (trapDone_none h), fun n r h => ?traps⟩,
    fun s bad hl => ⟨fun h => does_fltLogPop hl (logPop_empty h), fun r l h hlost => ?pops⟩⟩
  case clears =>
    have hp := answers_present hr.2
    exact ⟨fun h => does_faultClear hr (fltClear_idle hp hb h),
      fun h hc => does_faultClear hr ((fltClear_one hp hb h).trans (clearOne_absent hc)),
      fun h hc => does_faultClear hr ((fltClear_one hp hb h).trans (clearOne_persists hc))⟩
  case classes =>
    have hb : fget (v ||| 0x80000000) 4 0 = fget v 4 0 := fget_or_out v (by decide)
    have hc : fget (v ||| 0x80000000) 9 8 = fget v 9 8 := fget_or_out v (by decide)
    have hw : (v ||| 0x80000000).getLsbD 31 = true := getLsbD_or_one rfl
    exact ⟨fun h => does_fltClassWrite hr (clsWrite_shut hp hw hb hc h), fun h =>
      ⟨_, does_fltClassWrite hr (clsWrite_open hp hw hb hc h), classed_only _ _ _ _, fun hs => cls_classed hs,
        fun q d hk => cls_classed_other hk, rxn_classed, rises_classed, fun q a hk => rd_classed_other hk⟩⟩
  case pops =>
    cases bad
    case false => exact does_fltLogPop hl (logPop_sound h hlost)
    case true => exact does_fltLogPop hl (logPop_corrupted h hlost)
  case traps =>
    refine ⟨_, does_trapHandler (trapDone_some h), rfl, List.length_map _, fun i x hx hn hk hlen => ?hit,
      fun i x hx hn => trapWords_miss hx (fun ht => hn ht.1)⟩
    refine ⟨_, trapWords_hit hx ⟨hn, hk⟩, ?_, ?_⟩
    · rw [List.getD_eq_getElem _ _ (by simp only [List.length_set]; omega), List.getElem_set_ne (by decide),
        List.getElem_set_self]
    · rw [List.getD_eq_getElem _ _ (by simp only [List.length_set]; omega), List.getElem_set_self]

end Sys2Proof

/-!
Fixed reactions (O17; R412).
-/
namespace Sys2Proof.Machine

open Sys2Proof

/-! ## The reactions that are fixed -/

/-- The sources whose HEEL is fixed, by block type. -/
def heelFixed : List (Nat × Nat) :=
  [(T.tbs, X.TBS_REF_LONG), (T.spr, X.SPR_SECOND_FAULT), (T.thm, X.THM_STOP), (T.thm, X.THM_TRIP),
    (T.thm, X.THM_HBM_STOP), (T.flt, X.FLT_PWR_FAIL)]

/-- The sources whose FAULT_N is fixed. -/
def faultNFixed : List (Nat × Nat) := [(T.thm, X.THM_TRIP), (T.flt, X.FLT_PWR_FAIL)]

theorem heelFixed_table : ∀ t < 23, ∀ b < 32, (srcOf (256 * t) b).fixed.testBit 5 = true ↔ (t, b) ∈ heelFixed := by
  decide

theorem faultNFixed_table : ∀ t < 23, ∀ b < 32, (srcOf (256 * t) b).fixed.testBit 4 = true ↔ (t, b) ∈ faultNFixed := by
  decide

theorem otherFixed_table : ∀ t < 23, ∀ b < 32, (srcOf (256 * t) b).fixed &&& 15 = 0 := by decide

theorem heelFixed_lt : ∀ x ∈ heelFixed, x.2 < 32 := by decide

theorem faultNFixed_lt : ∀ x ∈ faultNFixed, x.2 < 32 := by decide

/-- No block type has more than 32 sources. -/
theorem fltSrcs_lt : ∀ t < 23, ∀ x ∈ fltSrcs t, x.bit < 32 := by decide

/-- A source that the block type does not have reacts in no way. -/
theorem fixed_beyond {p b : Nat} (hp : p / 256 < 23) (hb : ¬ b < 32) : (srcOf p b).fixed = 0 := by
  have hnone : (fltSrcs (p / 256)).find? (fun x => x.bit == b) = none := by
    refine List.find?_eq_none.2 fun x hx => ?_
    have := fltSrcs_lt _ hp x hx
    rw [beq_iff_eq]
    omega
  rw [srcOf, hnone]

theorem srcOf_type (p b : Nat) : srcOf p b = srcOf (256 * (p / 256)) b := by
  rw [srcOf, srcOf, Nat.mul_div_cancel_left _ (by decide)]

/-- Where a block type has one page, its type names it. -/
theorem page_iff_type {p t : Nat} (hp : pagePresent p = true) (ht : instances t = 1) : p = pg t 0 ↔ p / 256 = t := by
  refine ⟨fun h => by rw [h, pg_type (by decide)], fun h => ?_⟩
  rw [pagePresent, h, ht, decide_eq_true_iff] at hp
  unfold pg
  omega

theorem fixed_iff {p b : Nat} (hp : pagePresent p = true) :
    ((srcOf p b).fixed.testBit 5 = true ↔ (p / 256, b) ∈ heelFixed) ∧
      ((srcOf p b).fixed.testBit 4 = true ↔ (p / 256, b) ∈ faultNFixed) ∧ (srcOf p b).fixed &&& 15 = 0 := by
  by_cases hb : b < 32
  · rw [srcOf_type]
    have ht := pagePresent_lt hp
    exact ⟨heelFixed_table _ ht b hb, faultNFixed_table _ ht b hb, otherFixed_table _ ht b hb⟩
  · rw [fixed_beyond (pagePresent_lt hp) hb]
    have hheel : (p / 256, b) ∉ heelFixed := fun h => hb (heelFixed_lt _ h)
    have hfault : (p / 256, b) ∉ faultNFixed := fun h => hb (faultNFixed_lt _ h)
    exact ⟨iff_of_false (by decide) hheel, iff_of_false (by decide) hfault, rfl⟩

namespace State

section
variable {s : State} {p b c : Nat} {v : W32}

/-! ## A write to PG_FLT_RXN (R412, R445) -/

/-- The write is refused. -/
abbrev RxnShut (s : State) (p b c : Nat) : Prop :=
  s.locked p = true ∧ (s.get p F.PG_FLT_RXN_SRC ≠ b ∨ s.rxn p b ||| (srcOf p b).fixed ≠ c)

/-- The reactions applied. -/
def reacted (s : State) (p b c : Nat) : State :=
  let u := s.set p F.PG_FLT_RXN_SRC b
  if hasSrc p b = true then
    { u with flt := { u.flt with rxn := tabPut (srcOf p b).rxn u.flt.rxn (p * 32 + b) c } }
  else u

theorem rxnWrite_eq (hp : pagePresent p = true) (hw : v.getLsbD 31 = true) (hb : fget v 4 0 = b)
    (hc : fget v 13 8 ||| (srcOf p b).fixed = c) : s.rxnWrite p v =
      if (s.locked p && (s.get p F.PG_FLT_RXN_SRC != b || (s.rxn p b ||| (srcOf p b).fixed) != c)) = true then
        s.refuse p 0x01C
      else s.reacted p b c := by
  simp only [rxnWrite, hp, hw, hb, hc, Bool.not_true, Bool.false_eq_true, if_false, Bool.true_and, reacted]

theorem rxnShut_iff :
    (s.locked p && (s.get p F.PG_FLT_RXN_SRC != b || (s.rxn p b ||| (srcOf p b).fixed) != c)) = true ↔
      s.RxnShut p b c := by
  rw [Bool.and_eq_true, Bool.or_eq_true, bne_iff_ne, bne_iff_ne]

theorem reacted_only (s : State) (p b c : Nat) :
    s.reacted p b c = { s with regs := (s.reacted p b c).regs, flt := (s.reacted p b c).flt } := by
  unfold reacted
  dsimp only
  split <;> rfl

theorem rxn_reacted (h : hasSrc p b = true) : (s.reacted p b c).rxn p b = c := by
  rw [reacted, if_pos h]
  exact tabGet_put_same _ _ _ _

theorem rxn_reacted_other {q d : Nat} (h : q * 32 + d ≠ p * 32 + b) : (s.reacted p b c).rxn q d = s.rxn q d := by
  unfold reacted
  dsimp only
  split
  · exact tabGet_put_other _ _ _ _ _ _ (Ne.symm h)
  · rfl

theorem cls_reacted : (s.reacted p b c).cls = s.cls := by
  funext q d
  unfold reacted
  dsimp only
  split <;> rfl

theorem rises_reacted : (s.reacted p b c).flt.rises = s.flt.rises := by
  unfold reacted
  dsimp only
  split <;> rfl

theorem rd_reacted_other {q a : Nat} (h : rkey q a ≠ rkey p 0x01C) : (s.reacted p b c).rd q a = s.rd q a := by
  have hset : (s.set p F.PG_FLT_RXN_SRC b).rd q a = s.rd q a := rd_set_other _ _ _ _ _ _ h.symm
  unfold reacted
  dsimp only
  split
  · exact hset
  · exact hset

end

end State

end Sys2Proof.Machine

namespace Sys2Proof

open Sys2Proof.Machine Sys2Proof.Machine.State

theorem does_fltRxnWrite {s t : State} {p : PageNo} {v : W32} (hr : Reaches s p.toNat)
    (h : s.rxnWrite p.toNat (v ||| 0x80000000) = t) : Does (.fltRxnWrite p v) s t := does_onPage rfl hr h

/-- Settles O17: the fixed reactions join the written ones; the table of sources names those that have some. -/
theorem fixedReactionsStay : Obligations.FixedReactionsStay := by
  unfold Obligations.FixedReactionsStay
  refine ⟨fun s p v hp hr => ?write, fun p b hp => ?table⟩
  case write =>
    have hb : fget (v ||| 0x80000000) 4 0 = fget v 4 0 := fget_or_out v (by decide)
    have hc : fget (v ||| 0x80000000) 13 8 = fget v 13 8 := fget_or_out v (by decide)
    have hw : (v ||| 0x80000000).getLsbD 31 = true := getLsbD_or_one rfl
    have heq := rxnWrite_eq (s := s) hp hw hb (congrArg (· ||| (srcOf p.toNat (fget v 4 0)).fixed) hc)
    exact ⟨fun h => does_fltRxnWrite hr (heq.trans (if_pos (rxnShut_iff.2 h))), fun h =>
      ⟨_, does_fltRxnWrite hr (heq.trans (if_neg (mt rxnShut_iff.1 h))), reacted_only _ _ _ _, fun hs => rxn_reacted hs,
        fun q d hk => rxn_reacted_other hk, cls_reacted, rises_reacted, fun q a hk => rd_reacted_other hk⟩⟩
  case table =>
    obtain ⟨hheel, hfault, hother⟩ := fixed_iff (b := b) hp
    have htbs : p = tbsPg ↔ p / 256 = T.tbs := page_iff_type hp rfl
    have hthm : p = thmPg ↔ p / 256 = T.thm := page_iff_type hp rfl
    have hflt : p = fltPg ↔ p / 256 = T.flt := page_iff_type hp rfl
    simp only [heelFixed, faultNFixed, List.mem_cons, List.not_mem_nil, or_false, Prod.mk.injEq] at hheel hfault
    rw [htbs, hthm, hflt]
    exact ⟨hheel, hfault, hother⟩

end Sys2Proof

/-!
Leaving heel, and the chip reset of a reaction (O18; R394, R404, R414, R425).
-/
namespace Sys2Proof.Machine

open Sys2Proof

/-- A fold that acts on one member of a range. -/
theorem foldl_range_one {α : Type} (f : α → Nat → α) {n e : Nat} (he : e < n) (a : α) :
    (List.range n).foldl (fun a k => if decide (e = k) = true then f a k else a) a = f a e := by
  have hpick : (List.range n).filter (fun k => decide (e = k)) = [e] := by
    have hfilter : (List.range n).filter (fun k => decide (e = k)) = (List.range n).filter (fun k => k == e) :=
      List.filter_congr fun k _ => by
        by_cases h : e = k
        · simp [h]
        · simp [h, Ne.symm h]
    rw [hfilter, List.filter_beq, List.count_eq_one_of_mem List.nodup_range (List.mem_range.2 he)]
    rfl
  have hfold := List.foldl_filter (p := fun k => decide (e = k)) (f := f) (l := List.range n) (init := a)
  rw [← hfold, hpick]
  rfl

namespace State

section
variable {s : State} {e : Nat}

/-! ## Writes to FLT_HEEL_CTL (R425) -/

theorem heelCtl_dev (s : State) : s.heelCtl 1 = s.leaveDev := by
  have hbit (k : Nat) : (1 : W32).getLsbD (16 + k) = false := by
    have hone : (1 : W32) = BitVec.ofNat 32 (1 <<< 0) := rfl
    by_cases hk : 16 + k < 32
    · rw [hone, getLsbD_bit hk]
      exact decide_eq_false (by omega)
    · exact BitVec.getLsbD_of_ge _ _ (Nat.not_lt.1 hk)
  have h0 : (1 : W32).getLsbD 0 = true := rfl
  simp only [heelCtl, h0, hbit, if_true, Bool.false_eq_true, if_false, List.foldl_fixed]

/-- The word of LEAVE_EYE for one eyelet. -/
theorem leaveEye_bits {k : Nat} (hk : k < 16) :
    ((BitVec.ofNat 16 (1 <<< e)).setWidth 32 <<< 16).getLsbD (16 + k) = decide (e = k) := by
  rw [BitVec.getLsbD_shiftLeft, BitVec.getLsbD_setWidth, BitVec.getLsbD_ofNat, Nat.one_shiftLeft, Nat.testBit_two_pow]
  have h1 : 16 + k < 32 := by omega
  have h2 : ¬ 16 + k < 16 := by omega
  have h3 : k < 32 := by omega
  simp only [h1, h2, Nat.add_sub_cancel_left, h3, hk, decide_true, decide_false, Bool.not_false, Bool.true_and]

theorem heelCtl_eye (s : State) (he : e < 16) :
    s.heelCtl ((BitVec.ofNat 16 (1 <<< e)).setWidth 32 <<< 16) = s.leaveEye e := by
  have h0 : ((BitVec.ofNat 16 (1 <<< e)).setWidth 32 <<< 16 : W32).getLsbD 0 = false := by
    rw [BitVec.getLsbD_shiftLeft]
    rfl
  rw [heelCtl, h0, if_neg Bool.false_ne_true, ← foldl_range_one (fun s k => s.leaveEye k) he s]
  refine List.foldl_ext _ _ _ fun a k hk => ?_
  rw [leaveEye_bits (List.mem_range.1 hk)]

theorem leaveDev_idle (h : s.devHeel = false ∨ s.flt.leaving = true) : s.leaveDev = s := by
  have hc : (!s.devHeel || s.flt.leaving) = true := by
    rcases h with h | h <;> simp [h]
  simp only [leaveDev, hc, if_true]

theorem leaveDev_refused (hd : s.devHeel = true) (hl : s.flt.leaving = false) (h : s.mayLeave 31 = false) :
    s.leaveDev = s.put fltPg F.FLT_STS_LEAVE_REFUSED true := by
  simp only [leaveDev, hd, hl, h, Bool.not_true, Bool.not_false, Bool.or_false, Bool.false_eq_true, if_false, if_true,
    leaveRefused]

theorem leaveDev_begins (hd : s.devHeel = true) (hl : s.flt.leaving = false) (h : s.mayLeave 31 = true) :
    s.leaveDev = (({ s with flt := { s.flt with leaving := true } } : State).put schPg F.SCH_MODE_DISPATCH
      true).dispatchSwitch := by
  simp only [leaveDev, hd, hl, h, Bool.not_true, Bool.or_false, Bool.false_eq_true, if_false]

theorem leaveEye_idle (h : s.eyeHeel e = false) : s.leaveEye e = s := by
  simp only [leaveEye, h, Bool.not_false, if_true]

theorem leaveEye_refused (hh : s.eyeHeel e = true) (h : s.devHeel = true ∨ s.mayLeave e = false) :
    s.leaveEye e = s.put fltPg F.FLT_STS_LEAVE_REFUSED true := by
  have hc : (s.devHeel || !s.mayLeave e) = true := by
    rcases h with h | h <;> simp [h]
  simp only [leaveEye, hh, hc, Bool.not_true, Bool.false_eq_true, if_false, if_true, leaveRefused]

/-- The eyelet's heel state and its causes are gone. -/
def eyeOut (s : State) (e : Nat) : State :=
  let u : State := { s with flt := { s.flt with heels := s.flt.heels.filter (fun h => h.scope != e) } }
  u.set fltPg F.FLT_STS_EYE_HEEL (clearBit (u.get fltPg F.FLT_STS_EYE_HEEL) e)

theorem leaveEye_leaves (hh : s.eyeHeel e = true) (hd : s.devHeel = false) (h : s.mayLeave e = true) : s.leaveEye e =
    ((s.eyeOut e).logPush ((s.eyeOut e).logRec 5 fltPg e 2 0 false)).eyeHeelLeave e := by
  simp only [leaveEye, hh, hd, h, Bool.not_true, Bool.or_false, Bool.false_eq_true, if_false, heelRec, eyeOut]

/-! ## The end of leaving device heel (R404, R425) -/

/-- What the firmware needs at its end. -/
abbrev HeelMayEnd (s : State) : Prop :=
  s.flag tbsPg F.TBS_REF_STS_REF_PRESENT = true ∧ s.pllsLocked = true ∧ s.holdover = false ∧ s.mayLeave 31 = true

theorem heelMayEnd_iff : (!s.flag tbsPg F.TBS_REF_STS_REF_PRESENT || !s.pllsLocked || s.holdover || !s.mayLeave 31) =
    true ↔ ¬ s.HeelMayEnd := by
  unfold HeelMayEnd
  cases s.flag tbsPg F.TBS_REF_STS_REF_PRESENT <;> cases s.pllsLocked <;> cases s.holdover <;> cases s.mayLeave 31 <;>
    simp

/-- The firmware leaves device heel no longer. -/
def leavingOver (s : State) : State := { s with flt := { s.flt with leaving := false } }

/-- The last cores whose self-test fails. -/
def coresFailed (bad : W32) (s : State) : State :=
  (List.range 32).foldl (fun s n => if bad.getLsbD n && s.coreState n != 3 then s.coreFail n else s) s

/-- The eyelets with a cause of their own. -/
def eyesStay (s : State) : List Nat := (List.range 16).filter (fun e => s.flt.heels.any (fun h => h.scope == e))

/-- Device heel and its causes are gone; the eyelets of `stay` are in heel. -/
def devOut (s : State) (stay : List Nat) : State :=
  let a : State := { s with flt := { s.flt with heels := s.flt.heels.filter (fun h => h.scope != 31) } }
  ((a.put fltPg F.FLT_STS_DEV_HEEL false).set fltPg F.FLT_STS_DEV_CAUSE 0).set fltPg F.FLT_STS_EYE_HEEL
    (stay.foldl setBit 0)

/-- From stage 3 on the stacks are active. -/
def stacksActive (s : State) : State :=
  if 3 ≤ s.stage then (s.set (memPg 0) F.MEM_STS_SR_STATE 0).set (memPg 1) F.MEM_STS_SR_STATE 0 else s

/-- The eyelets that leave heel. -/
def eyesOut (s : State) (stay : List Nat) : State :=
  (List.range 16).foldl (fun s e => if stay.contains e then s else s.eyeHeelLeave e) s

/-- The stage falls to HOLD_AT where it lies above. -/
def fallen (s : State) : State := s.fallTo (max 2 s.holdAt)

/-- The end of device heel. -/
def heelEnds (s : State) : State :=
  ((((s.devOut s.eyesStay).stacksActive.fallen.eyesOut s.eyesStay).dispatchOff).heelRec 5 31).faultSync

theorem heelLeaveDone_idle {bad : W32} (h : s.flt.leaving = false) : s.heelLeaveDone bad = s := by
  simp only [heelLeaveDone, h, Bool.not_false, if_true]

theorem heelLeaveDone_refused {bad : W32} (h : s.flt.leaving = true) (hok : ¬ s.leavingOver.HeelMayEnd) :
    s.heelLeaveDone bad = (s.leavingOver.put fltPg F.FLT_STS_LEAVE_REFUSED true).dispatchOff := by
  have hc := heelMayEnd_iff.2 hok
  simp only [leavingOver] at hc
  simp only [heelLeaveDone, h, Bool.not_true, Bool.false_eq_true, if_false, hc, if_true, leaveRefused, leavingOver]

theorem heelLeaveDone_ends {bad : W32} {v : State} (h : s.flt.leaving = true) (hok : s.leavingOver.HeelMayEnd)
    (hv : coresFailed bad s.leavingOver = v) : s.heelLeaveDone bad = v.heelEnds := by
  have hc := mt heelMayEnd_iff.1 (not_not.2 hok)
  simp only [leavingOver] at hc
  simp only [coresFailed, leavingOver] at hv
  simp only [heelLeaveDone, h, Bool.not_true, Bool.false_eq_true, if_false, hc, hv]
  rfl

/-! ## The chip reset of a reaction (R394, R414) -/

theorem faultChipReset_none (h : s.flt.chipDue = false ∨ s.boot.held = true) : s.faultChipReset = s := by
  rcases h with h | h
  · simp only [faultChipReset, h, Bool.false_eq_true, if_false]
  · rw [faultChipReset, chipReset_held h, ite_self]

theorem faultChipReset_resets (h : s.flt.chipDue = true) (hb : s.boot.held = false) : s.faultChipReset =
    s.chipLeft (s.flag glbPg F.GLB_RST_KEEP_HBM) 3 (setBit s.rstCause 3) := by
  rw [faultChipReset, if_pos h, chipReset_runs hb (by decide)]

theorem hbm_chipLeft (s : State) (keep : Bool) (bit cause : Nat) :
    (s.chipLeft keep bit cause).hbm = if keep then s.hbm else {} := rfl

end

end State

end Sys2Proof.Machine

namespace Sys2Proof

open Sys2Proof.Machine Sys2Proof.Machine.State

section
variable {s t : State} {e : Nat} {bad : BitVec 32}

theorem does_leaveDev (hr : Reaches s fltPg) (h : s.leaveDev = t) : Does .leaveDev s t :=
  does_onPage rfl hr ((heelCtl_dev s).trans h)

theorem does_leaveEye (he : e < 16) (hr : Reaches s fltPg) (h : s.leaveEye e = t) :
    Does (.leaveEye (BitVec.ofNat 16 (1 <<< e))) s t := does_onPage rfl hr ((heelCtl_eye s he).trans h)

theorem does_heelLeaveDone (h : s.heelLeaveDone bad = t) : Does (.heelLeaveDone bad) s t := .of rfl h

theorem does_faultChipReset (h : s.faultChipReset = t) : Does .faultChipReset s t := .of rfl h

end

/-- Settles O18: each end of heel by what refuses it; the chip reset of a reaction by the state every reset leaves. -/
theorem heelEndsWhenItsCausesEnd : Obligations.HeelEndsWhenItsCausesEnd := by
  unfold Obligations.HeelEndsWhenItsCausesEnd
  refine ⟨fun s hr => ⟨fun h => does_leaveDev hr (leaveDev_idle h),
      fun hd hl h => does_leaveDev hr (leaveDev_refused hd hl h),
      fun hd hl h => does_leaveDev hr (leaveDev_begins hd hl h)⟩,
    fun s e he hr => ⟨fun h => does_leaveEye he hr (leaveEye_idle h),
      fun hh h => does_leaveEye he hr (leaveEye_refused hh h),
      fun hh hd h => does_leaveEye he hr (leaveEye_leaves hh hd h)⟩,
    fun s bad => ⟨fun h => does_heelLeaveDone (heelLeaveDone_idle h), fun h =>
      ⟨fun hok => does_heelLeaveDone (heelLeaveDone_refused h hok),
        fun hok => does_heelLeaveDone (heelLeaveDone_ends h hok rfl)⟩⟩,
    fun s h => does_faultChipReset (faultChipReset_none h), fun s h hb => ?chip⟩
  obtain ⟨hnow, htl, hgroups, hflt, -, -, -, hout, hregs⟩ :=
    s.chipLeft_clean (s.flag glbPg F.GLB_RST_KEEP_HBM) 3 (setBit s.rstCause 3)
  exact ⟨_, does_faultChipReset (faultChipReset_resets h hb), hnow, htl, hgroups, hflt, rfl, s.jtag_chipLeft _ _ _, rfl,
    hout, s.rd_cause_chipLeft _ _ _, s.rd_link_chipLeft _ _ _, fun hk => (s.hbm_chipLeft _ _ _).trans (if_pos hk),
    fun hk => (s.hbm_chipLeft _ _ _).trans (if_neg (by rw [hk]; decide)), fun p o ho hg hp hs => hregs p o ho hg hs hp⟩

end Sys2Proof

/-!
Temperature samples, what limits lead to, and a power loss (O50; R428 to R434).
-/
namespace Sys2Proof.Machine

open Sys2Proof

namespace State

section
variable {s : State} {n v warn stop w r : Nat} {raw : Int} {odd : Bool}

/-! ## Samples (R428, R429) -/

/-- The reading jumps from the last. -/
abbrev SensorJumps (s : State) (n v : Nat) : Prop :=
  ∃ w, (s.sensorOf n).last = some w ∧ (w + 80 < v ∨ v + 80 < w)

theorem sensorJumps_iff : (match (s.sensorOf n).last with
    | some w => decide (w + 80 < v) || decide (v + 80 < w)
    | none => false) = true ↔ s.SensorJumps n v := by
  cases h : (s.sensorOf n).last <;> simp [SensorJumps, h]

/-- A stack's reading shown. -/
def stackSampled (s : State) (n v : Nat) : State :=
  (s.set (memPg (n - 24)) F.MEM_TEMP_TEMP v).setSensor n { s.sensorOf n with last := some v }

theorem thmSample_stack (h : 24 ≤ n) : s.thmSample n raw odd =
    (s.stackSampled n (min raw.toNat 2047)).compare n (min raw.toNat 2047)
      ((s.stackSampled n (min raw.toNat 2047)).get thmPg F.THM_HBM_LIMITS_WARN)
      ((s.stackSampled n (min raw.toNat 2047)).get thmPg F.THM_HBM_LIMITS_STOP) X.THM_HBM_WARN X.THM_HBM_STOP := by
  rw [thmSample, if_pos h]
  rfl

theorem thmSample_die {v : Nat} (h : n < 24) (hv : min raw.toNat 2047 = v) : s.thmSample n raw odd =
    if (odd || match (s.sensorOf n).last with
      | some w => decide (w + 80 < v) || decide (v + 80 < w)
      | none => false) = true then s.invalidSample n else s.validSample n v := by
  rw [thmSample, if_neg (Nat.not_le.2 h), hv] <;> cases (s.sensorOf n).last <;> rfl

theorem thmSample_invalid (h : n < 24) (hj : odd = true ∨ s.SensorJumps n (min raw.toNat 2047)) :
    s.thmSample n raw odd = s.invalidSample n := by
  rw [thmSample_die h rfl, if_pos (Bool.or_eq_true_iff.2 (hj.imp id sensorJumps_iff.2))]

theorem thmSample_valid (h : n < 24) (ho : odd = false) (hj : ¬ s.SensorJumps n (min raw.toNat 2047)) :
    s.thmSample n raw odd = s.validSample n (min raw.toNat 2047) := by
  rw [thmSample_die h rfl, if_neg]
  rw [Bool.or_eq_true_iff, ho]
  rintro (h' | h')
  · exact Bool.false_ne_true h'
  · exact hj (sensorJumps_iff.1 h')

/-- An invalid sample counted. -/
def invalidCounted (s : State) (n : Nat) : State :=
  (s.setSensor n { s.sensorOf n with invalid := (s.sensorOf n).invalid + 1, valid := 0 }).put thmPg
    (tempF F.THM_TEMP_VALID n) false

/-- The sensor out of service. -/
def sensorOut (s : State) (n : Nat) : State :=
  (((s.setSensor n { s.sensorOf n with warn := false, stop := false }).setBitAt thmPg 0x110 n true).rise thmPg
    X.THM_SENSOR_BAD).hotSync

theorem invalidSample_eq : s.invalidSample n =
    if 2 ≤ (s.sensorOf n).invalid ∧ (!(s.invalidCounted n).sensorBad n) = true then (s.invalidCounted n).sensorOut n
    else s.invalidCounted n := rfl

theorem invalidSample_counts (h : (s.sensorOf n).invalid < 2 ∨ (s.invalidCounted n).sensorBad n = true) :
    s.invalidSample n = s.invalidCounted n := by
  rw [invalidSample_eq, if_neg]
  rintro ⟨h2, hb⟩
  rcases h with h | h
  · omega
  · rw [h] at hb
    exact Bool.false_ne_true hb

theorem invalidSample_third (h : 2 ≤ (s.sensorOf n).invalid) (hb : (s.invalidCounted n).sensorBad n = false) :
    s.invalidSample n = (s.invalidCounted n).sensorOut n := by
  rw [invalidSample_eq, if_pos ⟨h, by rw [hb]; rfl⟩]

/-! ## Limits (R430 to R432) -/

/-- Whether the reading stands above the limits, less HYST since it crossed them. -/
def limitsKept (s : State) (n v warn stop : Nat) : State :=
  s.setSensor n { s.sensorOf n with
    warn := decide (warn ≤ v) || ((s.sensorOf n).warn && decide (warn ≤ v + s.hyst)),
    stop := decide (stop ≤ v) || ((s.sensorOf n).stop && decide (stop ≤ v + s.hyst)) }

/-- A reading at WARN raises its source. -/
def warned (s : State) (n v warn stop w : Nat) : State :=
  if warn ≤ v then (s.limitsKept n v warn stop).rise thmPg w else s.limitsKept n v warn stop

theorem compare_eq {x : State} (hx : s.warned n v warn stop w = x) : s.compare n v warn stop w r =
    if n < 24 ∧ 920 ≤ v then x.trip
    else if stop ≤ v then (x.stopBegin (if (x.flag thmPg F.THM_CTL_SCOPE && decide (n < 16)) = true then n else 31)
      r).stopCheck
    else x := by
  rw [← hx]
  rfl

theorem compare_trip (h : n < 24) (hv : 920 ≤ v) :
    s.compare n v warn stop w r = (s.warned n v warn stop w).trip :=
  (compare_eq rfl).trans (if_pos ⟨h, hv⟩)

theorem compare_below (h : 24 ≤ n ∨ v < 920) (hs : v < stop) :
    s.compare n v warn stop w r = s.warned n v warn stop w := by
  rw [compare_eq rfl, if_neg (by omega), if_neg (by omega)]

/-- The scope of a stop: an eyelet with SCOPE 1, or the device. -/
theorem stopScope_eq (x : State) (n : Nat) :
    (if (x.flag thmPg F.THM_CTL_SCOPE && decide (n < 16)) = true then n else 31) =
      if x.flag thmPg F.THM_CTL_SCOPE = true ∧ n < 16 then n else 31 := by
  simp only [Bool.and_eq_true, decide_eq_true_eq]

theorem compare_stop (h : 24 ≤ n ∨ v < 920) (hs : stop ≤ v) : s.compare n v warn stop w r =
    ((s.warned n v warn stop w).stopBegin
      (if (s.warned n v warn stop w).flag thmPg F.THM_CTL_SCOPE = true ∧ n < 16 then n else 31) r).stopCheck := by
  rw [compare_eq rfl, if_neg (by omega), if_pos hs, stopScope_eq]

theorem stopBegin_heel {scope src : Nat} (h : s.inHeel scope = true) :
    s.stopBegin scope src = (s.enterHeel scope thmPg src 0x34).rise thmPg src := by
  rw [stopBegin, if_pos h]

/-- Another source joins the stop in progress. -/
theorem stopBegin_joins {scope src : Nat} {x : Nat × Nat × Nat} (h : s.inHeel scope = false)
    (hf : s.thm.stops.find? (fun x => x.2.1 == scope || x.2.1 == 31) = some x)
    (hx : (x.1, x.2.1, src) ∉ s.thm.stops) : s.stopBegin scope src =
      { s with thm := { s.thm with stops := s.thm.stops ++ [(x.1, x.2.1, src)] } } := by
  have hc : s.thm.stops.contains (x.1, x.2.1, src) = false := by
    rw [← Bool.not_eq_true, List.contains_iff_mem]
    exact hx
  simp only [stopBegin, h, hf, hc, Bool.false_eq_true, if_false]

/-! ## What follows (R431 to R434) -/

theorem pllGate_none (h : s.thm.tripT = none) : s.pllGate = s := by simp only [pllGate, h]

theorem pllGate_gates {t : Nat} (h : s.thm.tripT = some t) : s.pllGate =
    { s.upToMono (t + 64000 * 1024) with thm := { s.thm with gated := true }, tlOn := false } := by
  have hthm : (s.upToMono (t + 64000 * 1024)).thm = s.thm := by
    rw [upToMono, upTo_eq]
  simp only [pllGate, h, hthm]

theorem parkDeadline_none (h : s.thm.stops = []) : s.parkDeadline = s := by simp only [parkDeadline, h]

theorem parkDeadline_parks {t scope src : Nat} {rest : List (Nat × Nat × Nat)} {u : State}
    (h : s.thm.stops = (t, scope, src) :: rest) (hu : s.upToMono (t + 633600 * 1024) = u) : s.parkDeadline =
      ((u.scopeGroups scope).foldl (fun s g => s.parkGroup g 0x34) u).stopCheck := by
  simp only [parkDeadline, h, hu]

end

end State

end Sys2Proof.Machine

namespace Sys2Proof

open Sys2Proof.Machine Sys2Proof.Machine.State

section
variable {s t : State} {n : Fin 26} {raw : Int} {odd : Bool}

theorem does_thmSample (h : s.thmSample n.val raw odd = t) : Does (.thmSample n raw odd) s t := .of rfl h

theorem does_tripPllGate (h : s.pllGate = t) : Does .tripPllGate s t := .of rfl h

theorem does_thermalParkDeadline (h : s.parkDeadline = t) : Does .thermalParkDeadline s t := .of rfl h

end

/-- Settles O50: a sample by its sensor, a reading by the limits it reaches, a stop by what is in progress. -/
theorem thermalLimitsAndPowerLossStopTheDevice : Obligations.ThermalLimitsAndPowerLossStopTheDevice := by
  unfold Obligations.ThermalLimitsAndPowerLossStopTheDevice
  refine ⟨⟨fun s n raw odd => ⟨fun h => does_thmSample (thmSample_stack h), fun h hj =>
        ⟨fun hc => does_thmSample ((thmSample_invalid h hj).trans (invalidSample_counts hc)),
          fun h2 hb => does_thmSample ((thmSample_invalid h hj).trans (invalidSample_third h2 hb))⟩,
        fun h ho hj => does_thmSample (thmSample_valid h ho hj)⟩,
      fun s n v warn stop w r => ⟨fun h hv => compare_trip h hv, fun h hs => compare_below h hs,
        fun h hs => compare_stop h hs⟩,
      fun s scope src => ⟨fun h => stopBegin_heel h, fun x h hf hx => stopBegin_joins h hf hx⟩⟩,
    fun s => ⟨fun h => does_tripPllGate (pllGate_none h), fun t h => does_tripPllGate (pllGate_gates h),
      fun h => does_thermalParkDeadline (parkDeadline_none h),
      fun t scope src r h => does_thermalParkDeadline (parkDeadline_parks h rfl), rfl, .of rfl rfl⟩⟩

end Sys2Proof

/-!
BLOCK_RESET on the pages it does not act on (O11; R443, R445).

The obligation compares every pair of a page and an offset, offsets from 0x1000 on among them. The model keys a
register by page * 4096 + offset, so that such a pair names the key of a register of a later page, with a default of its own.
In a register file that lists PG_CTL of the PCI page with its reset value 1, the write that BLOCK_RESET makes takes the entry
out, as it equals its default; the pair (PCI page - 1, 0x1008) then reads its own default, 0.
-/
namespace Sys2Proof.Machine

open Sys2Proof

namespace State

/-- Stage 1, and PG_CTL of the PCI page listed with the value that it has at reset. -/
def ctlListed : State := { regs := [(rkey glbPg 0x104, 1), (rkey pciPg 0x008, 1)] }

theorem ctlListed_reaches : Reaches ctlListed pciPg := by
  have hpresent : pagePresent pciPg = true := by decide
  have hopen : [T.glb, T.sec, T.pci, T.flt].contains (pciPg / 256) = true := by decide
  refine ⟨by decide, by decide, ?_⟩
  rw [answers, hpresent, hopen, Bool.or_true, Bool.and_true]

/-- The write takes the entry out of the register file. -/
theorem ctlListed_written : (ctlListed.pgCtlWrite pciPg 2).rd (pciPg - 1) 0x1008 = 0 := by decide

theorem ctlListed_before : ctlListed.rd (pciPg - 1) 0x1008 = 1 := by decide

theorem ctlListed_calm : (ctlListed.pgCtlWrite pciPg 2).flt.rises = [] ∧ Quiet (ctlListed.pgCtlWrite pciPg 2) := by
  decide

/-- Where a state and what it is written to have nothing for the collector, a command's effect is that state. -/
theorem does_unique {c : Instr} {s t u : State} (ht : Does c s t) (hu : Does c s u)
    (htq : t.flt.rises = [] ∧ Quiet t) (huq : u.flt.rises = [] ∧ Quiet u) : t = u := by
  have hsettle : t.settle = u.settle := Host.Outcome.next.inj (ht.next.symm.trans hu.next)
  rwa [settle_quiet t htq.1 htq.2, settle_quiet u huq.1 huq.2] at hsettle

end State

end Sys2Proof.Machine

namespace Sys2Proof

open Sys2Proof.Machine Sys2Proof.Machine.State

/-- Refutes O11: with PG_CTL of the PCI page listed at its reset value 1, BLOCK_RESET on that page changes what the pair
(PCI page - 1, 0x1008) reads, from 1 to 0. -/
theorem not_blockResetActsOnResettablePages : ¬ Obligations.BlockResetActsOnResettablePages := by
  unfold Obligations.BlockResetActsOnResettablePages
  rintro ⟨-, -, -, hignored⟩
  obtain ⟨t, hdoes, honly, hreads⟩ := hignored ctlListed 3584 (by decide) (by decide) (by decide)
  have hwritten : Does (.blockReset 3584) ctlListed (ctlListed.pgCtlWrite pciPg 2) :=
    does_onPage rfl ctlListed_reaches rfl
  have hcalm : t.flt.rises = [] ∧ Quiet t := by
    rw [honly]
    exact ⟨rfl, rfl, rfl⟩
  have ht := does_unique hdoes hwritten hcalm ctlListed_calm
  have hread := hreads (pciPg - 1) 0x1008
  rw [ht, ctlListed_written, ctlListed_before] at hread
  exact absurd hread (by decide)

end Sys2Proof

/-!
What a block reset returns to reset values, and what is ignored while it runs (O12; R93, R303, R444).
-/
namespace Sys2Proof.Machine

open Sys2Proof

namespace State

/-! ## CHN_CTL under the end of a channel's work -/

/-- The first register of the block's own, at 0x100, is kept on every page. -/
def CtlKept (s t : State) : Prop := ∀ q, t.rd q 0x100 = s.rd q 0x100

section
variable {s t : State}

theorem CtlKept.refl (s : State) : CtlKept s s := fun _ => rfl

theorem CtlKept.wr (h : CtlKept s t) (p : Nat) {o : Nat} (v : W32) (ho : o < 4096 ∧ o ≠ 0x100) :
    CtlKept s (t.wr p o v) := fun q => by
  rw [rd_wr_other _ _ _ _ _ _ (rkey_offset ho.1 (by decide) ho.2)]
  exact h q

theorem CtlKept.set (h : CtlKept s t) (p : Nat) {f : Fld} (v : Nat) (ho : f.ofs < 4096 ∧ f.ofs ≠ 0x100) :
    CtlKept s (t.set p f v) := h.wr p _ ho

theorem CtlKept.put (h : CtlKept s t) (p : Nat) {f : Fld} (b : Bool) (ho : f.ofs < 4096 ∧ f.ofs ≠ 0x100) :
    CtlKept s (t.put p f b) := h.wr p _ ho

theorem CtlKept.bump (h : CtlKept s t) (p : Nat) {f : Fld} (n : Nat) (ho : f.ofs < 4096 ∧ f.ofs ≠ 0x100) :
    CtlKept s (t.bump p f n) := h.wr p _ ho

theorem CtlKept.setBitAt (h : CtlKept s t) (p : Nat) {o : Nat} (b : Nat) (v : Bool) (ho : o < 4096 ∧ o ≠ 0x100) :
    CtlKept s (t.setBitAt p o b v) := h.wr p _ ho

theorem CtlKept.rise (h : CtlKept s t) (p b : Nat) : CtlKept s (t.rise p b) := fun q => by
  rw [rd_rise_other _ _ _ (rkey_offset (by decide) (by decide) (by decide))]
  exact h q

/-- What leaves the register file as it is. -/
theorem CtlKept.regs {u : State} (h : CtlKept s t) (hu : u.regs = t.regs) : CtlKept s u := fun q => by
  rw [rd, hu]
  exact h q

theorem CtlKept.foldl {α : Type} (f : State → α → State) (l : List α)
    (hf : ∀ u x, CtlKept s u → CtlKept s (f u x)) (h : CtlKept s t) : CtlKept s (l.foldl f t) := by
  induction l generalizing t with
  | nil => exact h
  | cons x l ih => exact ih (hf t x h)

theorem siteOfCh_lt (s : State) (c : Nat) : s.siteOfCh c < 128 := fget_lt _ (by decide) (by decide)

theorem CtlKept.accUncorr (h : CtlKept s t) (e : Nat) (l : List Nat) : CtlKept s (t.accUncorr e l) :=
  (h.rise (pg T.cmp e) X.CMP_ACC_UNCORR).regs rfl

theorem CtlKept.accChan (h : CtlKept s t) (c : Nat) : CtlKept s (t.accChan c) := by
  have hofs : (F.CMP_CH_FCNT_COUNT.off (4 * (c % 16))).ofs = 0x180 + 4 * (c % 16) := rfl
  unfold State.accChan
  dsimp only
  split_ifs
  · exact h
  · exact h.regs rfl
  · refine CtlKept.accUncorr (CtlKept.set ?_ _ _ (by rw [hofs]; omega)) _ _
    exact h.regs rfl

theorem CtlKept.setChan (h : CtlKept s t) (c : Nat) (d : ChanDyn) : CtlKept s (t.setChan c d) := h.regs rfl

theorem CtlKept.setSite (h : CtlKept s t) (i : Nat) (d : SiteRec) : CtlKept s (t.setSite i d) := h.regs rfl

theorem CtlKept.accSite (h : CtlKept s t) (i : Nat) : CtlKept s (t.accSite i) := by
  unfold State.accSite
  dsimp only
  split_ifs
  · exact h
  · exact h.regs rfl
  · refine CtlKept.accUncorr (CtlKept.setSite ?_ _ _) _ _
    exact h.regs rfl

theorem CtlKept.modVec (h : CtlKept s t) (e vid : Nat) (f : VecRec → VecRec) :
    CtlKept s (t.modVec e vid f) := h.regs rfl

theorem CtlKept.fails (h : CtlKept s t) (l : List FailMsg) : CtlKept s { t with fails := l } := h.regs rfl

theorem CtlKept.siteFail (h : CtlKept s t) {i : Nat} (n vb : Nat) (hi : i < 128) : CtlKept s (t.siteFail i n vb) := by
  unfold State.siteFail
  dsimp only
  exact CtlKept.setBitAt ((h.accSite i).setSite _ _) _ _ _ (by omega)

theorem CtlKept.recordFail (h : CtlKept s t) (c vid vb n obs : Nat) : CtlKept s (t.recordFail c vid vb n obs) := by
  have hofs : (F.CMP_CH_FCNT_COUNT.off (4 * (c % 16))).ofs = 0x180 + 4 * (c % 16) := rfl
  unfold State.recordFail
  dsimp only
  refine CtlKept.fails (CtlKept.modVec (CtlKept.siteFail ?_ _ _ (siteOfCh_lt _ _)) _ _ _) _
  exact CtlKept.setBitAt (CtlKept.bump (h.accChan c) _ _ (by rw [hofs]; omega)) _ _ _ (by decide)

/-- An illegal state of a comparator shown (R188). -/
def illShown (s : State) (d : Due) (obs : Nat) : State :=
  if obs = 3 then ((s.put (pg T.cmp (d.own / 16)) F.CMP_STS_ILLEGAL true).set (pg T.cmp (d.own / 16)) F.CMP_STS_ILL_CH
    (d.own % 16)).rise (pg T.cmp (d.own / 16)) X.CMP_ILLEGAL
  else s

theorem judge_eq {d : Due} {obs n : Nat} {den : Bool} {u : State} (hu : s.illShown d obs = u) : s.judge d obs den n =
    if (d.excl || (d.gate && den) || d.exp == 3) = true then s
    else if d.mloop = true then
      if obs = d.exp then u.modVec (d.own / 16) d.vid (fun v => { v with agree := v.agree ++ [d.own] })
      else u.modVec (d.own / 16) d.vid (fun v => { v with disagree := v.disagree ++ [d.own] })
    else if obs = d.exp then u
    else u.recordFail d.own d.vid d.vb n obs := by
  rw [← hu]
  rfl

theorem CtlKept.judge (h : CtlKept s t) (d : Due) (obs : Nat) (den : Bool) (n : Nat) :
    CtlKept s (t.judge d obs den n) := by
  have hill : CtlKept s (t.illShown d obs) := by
    unfold illShown
    split_ifs
    · exact ((h.put _ _ (by decide)).set _ _ (by decide)).rise _ _
    · exact h
  rw [judge_eq rfl]
  split_ifs
  · exact h
  · exact hill.modVec _ _ _
  · exact hill.modVec _ _ _
  · exact hill
  · exact hill.recordFail _ _ _ _ _

theorem CtlKept.setMatch (h : CtlKept s t) (l : List Nat) {i : Nat} (v : Bool) (hi : i < 128) :
    CtlKept s (t.setMatch l i v) :=
  CtlKept.foldl _ _ (fun _ _ hu => hu.setBitAt _ _ _ (by omega)) h

theorem CtlKept.foldl_mem {α : Type} (f : State → α → State) (l : List α)
    (hf : ∀ u, ∀ x ∈ l, CtlKept s u → CtlKept s (f u x)) (h : CtlKept s t) : CtlKept s (l.foldl f t) := by
  induction l generalizing t with
  | nil => exact h
  | cons x l ih =>
    exact ih (fun u y hy => hf u y (List.mem_cons_of_mem _ hy)) (hf t x List.mem_cons_self h)

theorem CtlKept.matchVec (h : CtlKept s t) (g : Group) (vid : Nat) : CtlKept s (t.matchVec g vid) := by
  unfold State.matchVec
  dsimp only
  refine CtlKept.foldl _ _ (fun _ _ hu => hu.regs rfl)
    (CtlKept.regs (CtlKept.foldl_mem _ _ (fun u i hi hu => ?_) h) rfl)
  obtain ⟨hi, -⟩ := List.mem_filter.1 hi
  obtain ⟨c, -, rfl⟩ := List.mem_map.1 hi
  exact hu.setMatch _ _ (siteOfCh_lt _ _)

theorem CtlKept.setEye (h : CtlKept s t) (e : Nat) (d : EyeDyn) : CtlKept s (t.setEye e d) := h.regs rfl

theorem CtlKept.flogJoin (h : CtlKept s t) (e : Nat) (r : List W32) : CtlKept s (t.flogJoin e r) := h.regs rfl

theorem CtlKept.flogSeq (h : CtlKept s t) (e : Nat) (ws : List W32) : CtlKept s (t.flogSeq e ws).2 :=
  h.set _ _ (by decide)

theorem CtlKept.flogLost (h : CtlKept s t) (e : Nat) (d : EyeDyn) :
    CtlKept s ((((t.setEye e d).bump (pg T.cmp e) F.CMP_FLOG_LOST_COUNT 1).put (pg T.cmp e) F.CMP_STS_LOST true).rise
      (pg T.cmp e) X.CMP_FLOG_LOST) :=
  (((h.setEye e d).bump _ _ (by decide)).put _ _ (by decide)).rise _ _

theorem CtlKept.flogOffer (h : CtlKept s t) (e : Nat) (ws : List W32) : CtlKept s (t.flogOffer e ws) := by
  have howed (ws : List W32) (d : EyeDyn) (r : List W32) :
      CtlKept s ((((t.flogSeq e ws).2.setEye e d).flogJoin e r)) := ((h.flogSeq _ _).setEye _ _).flogJoin _ _
  unfold State.flogOffer
  dsimp only
  split
  · exact h
  · split <;> split
    · exact CtlKept.flogJoin (CtlKept.flogSeq (howed _ _ _) _ _) _ _
    · exact CtlKept.flogLost (CtlKept.flogSeq (howed _ _ _) _ _) _ _
    · exact CtlKept.flogJoin (CtlKept.flogSeq h _ _) _ _
    · exact CtlKept.flogLost (CtlKept.flogSeq h _ _) _ _

theorem CtlKept.trgFail (h : CtlKept s t) (e : Nat) (v : VecRec) : CtlKept s (t.trgFail e v) := by
  unfold State.trgFail
  dsimp only
  split
  · exact h.regs rfl
  · exact h

theorem CtlKept.closeVec (h : CtlKept s t) (e vid : Nat) : CtlKept s (t.closeVec e vid) := by
  unfold State.closeVec
  split
  · exact h
  · split
    · split
      · split
        · exact h
        · exact h.matchVec _ _
      · exact h.regs rfl
    · split
      · exact h
      · dsimp only
        split
        · exact h.setEye _ _
        · exact CtlKept.flogOffer (CtlKept.trgFail (CtlKept.setEye h _ _) _ _) _ _

theorem CtlKept.closeWin (h : CtlKept s t) (c : Nat) : CtlKept s (t.closeWin c) := by
  unfold State.closeWin
  dsimp only
  split
  · exact h
  · refine CtlKept.closeVec ?_ _ _
    split
    · split
      · exact CtlKept.judge (CtlKept.setChan h _ _) _ _ _ _
      · exact CtlKept.setChan h _ _
    · exact CtlKept.judge (CtlKept.setChan h _ _) _ _ _ _

theorem CtlKept.parkTo (h : CtlKept s t) (c k n : Nat) : CtlKept s (t.parkTo c k n) := by
  unfold State.parkTo
  dsimp only
  refine CtlKept.put ?_ _ _ (by decide)
  split
  · exact CtlKept.setChan h _ _
  · exact CtlKept.setChan h _ _

theorem CtlKept.chanOff (h : CtlKept s t) (c : Nat) : CtlKept s (t.chanOff c) := by
  have hpark : CtlKept s (t.parkNow c 0) := CtlKept.parkTo (CtlKept.setChan (h.closeWin c) _ _) _ _ _
  unfold State.chanOff State.chanLeave
  split
  · exact hpark
  · exact hpark.regs rfl

theorem CtlKept.burstsAbort (h : CtlKept s t) (e : Nat) (l : List Nat) : CtlKept s (t.burstsAbort e l) := by
  unfold State.burstsAbort
  split
  · exact h
  · exact CtlKept.foldl _ _ (fun _ _ hu => hu.regs rfl) h

/-- A channel page's work ends without a change of any CHN_CTL. -/
theorem blockEnd_chn {p : Nat} (hp : p / 256 = T.chn) : CtlKept s (s.blockEnd p) := by
  have htbs : ¬ p / 256 = T.tbs := by rw [hp]; decide
  unfold State.blockEnd
  simp only [if_neg htbs, if_pos hp]
  exact ((CtlKept.refl s).burstsAbort _ _).chanOff _

end

/-! ## The registers of the page -/

section
variable {s : State} {p o : Nat}

theorem rd_regsReset (kept : Nat → Bool) (ho : o < 0x1000) (q : Nat) :
    (s.regsReset p kept).rd q o = if q ≠ p ∨ kept o = true then s.rd q o else resetWord q o := by
  have hq : rkey q o / 4096 = q := by unfold rkey; omega
  have hko : rkey q o % 4096 = o := by unfold rkey; omega
  have hfind := tabFind_filter (fun k => k / 4096 != p || kept (k % 4096)) s.regs (rkey q o)
  rw [hq, hko] at hfind
  rw [rd, tabGet]
  show (tabFind (s.regs.filter fun x => x.1 / 4096 != p || kept (x.1 % 4096)) (rkey q o)).getD _ = _
  rw [hfind]
  by_cases h : q ≠ p ∨ kept o = true
  · rw [if_pos h, if_pos (by simpa using h)]
    rfl
  · rw [if_neg h, if_neg (by simpa using h)]
    rfl

/-- Fields given back leave the other registers of the page. -/
theorem rd_setFields (l : List (Fld × Nat)) (h : ∀ x ∈ l, rkey p x.1.ofs ≠ rkey q o) :
    (l.foldl (fun (s : State) (x : Fld × Nat) => s.set p x.1 x.2) s).rd q o = s.rd q o := by
  induction l generalizing s with
  | nil => rfl
  | cons x l ih =>
    rw [List.foldl_cons, ih fun y hy => h y (List.mem_cons_of_mem _ hy)]
    exact rd_set_other _ _ _ _ _ _ (h x List.mem_cons_self)

theorem rd_keepFields (fs : List Fld) (f : State → State) (h : ∀ x ∈ fs, rkey p x.ofs ≠ rkey q o) :
    (s.keepFields p fs f).rd q o = (f s).rd q o := by
  rw [keepFields]
  refine rd_setFields _ fun x hx => ?_
  obtain ⟨y, hy, rfl⟩ := List.mem_map.1 hx
  exact h y hy

/-- The page with its registers back at their reset values. -/
def pageReset (s : State) (p : Nat) : State :=
  (s.blockEnd p).keepFields p (keptFlds (p / 256)) (fun s => s.regsReset p (keptReg (p / 256)))

theorem keptFlds_ofs (t : Nat) : ∀ x ∈ keptFlds t, 0x100 ≤ x.ofs ∧ x.ofs < 0x1000 := by
  have hall : ∀ l ∈ [[F.TBS_LACE_STS_ALIGN_SEQ, F.TBS_LACE_STS_REFUSE_WHY],
      [F.CHN_STS_TAKEN, F.CHN_STS_PARKED, F.CHN_STS_ABSORBED], [F.SPR_STS_STATE, F.SPR_STS_FOR_CH],
      [F.EYE_SEQ_STS_STATE], [F.ANE_STS_STATE, F.ANE_UC_STS_VENDOR_VALID], [F.SCH_STS_NO_CORE], [F.LST_STS_STATE],
      [F.MEM_STS_SR_STATE], [F.ETH_STS_LINK, F.ETH_STS_BLOCK_LOCK], [F.PTP_STS_VALID],
      [F.CAL_STS_USER_OK, F.CAL_STS_COPY, F.CAL_STS_SETTLED], []],
      ∀ x ∈ l, 0x100 ≤ x.ofs ∧ x.ofs < 0x1000 := by decide
  refine hall _ ?_
  unfold keptFlds
  split_ifs <;> decide

theorem rd_pageReset (ho : o < 0x1000) (hk : keptReg (p / 256) o = false)
    (hf : o ∉ (keptFlds (p / 256)).map (·.ofs)) : (s.pageReset p).rd p o = resetWord p o := by
  rw [pageReset, rd_keepFields, rd_regsReset _ ho, if_neg (by simp [hk])]
  intro x hx hkey
  refine hf (List.mem_map.2 ⟨x, hx, ?_⟩)
  unfold rkey at hkey
  omega

theorem rd_pageReset_other {q : Nat} (ho : o < 0x1000) (hq : q ≠ p) :
    (s.pageReset p).rd q o = (s.blockEnd p).rd q o := by
  rw [pageReset, rd_keepFields, rd_regsReset _ ho, if_pos (.inl hq)]
  intro x hx
  have := keptFlds_ofs _ x hx
  unfold rkey
  omega

/-- What an absorbing pair writes: CHN_CTL and CHN_STS of its odd channel. -/
theorem rd_pairSync {q : Nat} (c : Nat) (ho : o < 0x1000)
    (h : ¬ (q = pg T.chn (c / 2 * 2 + 1) ∧ (o = 0x100 ∨ o = 0x104))) :
    (s.pairSync c).rd q o = s.rd q o := by
  have hctl : rkey (pg T.chn (c / 2 * 2 + 1)) 0x100 ≠ rkey q o :=
    rkey_ne (by decide) ho fun ⟨hq, hc⟩ => h ⟨hq, .inl hc⟩
  have hsts : rkey (pg T.chn (c / 2 * 2 + 1)) 0x104 ≠ rkey q o :=
    rkey_ne (by decide) ho fun ⟨hq, hc⟩ => h ⟨hq, .inr hc⟩
  unfold pairSync
  dsimp only
  split_ifs
  · rw [rd_put_other _ _ _ _ _ _ hsts, rd_set_other _ _ _ _ _ _ hctl, rd_set_other _ _ _ _ _ _ hctl]
  · rw [rd_put_other _ _ _ _ _ _ hsts, rd_set_other _ _ _ _ _ _ hctl]
  · rfl

/-- An odd channel whose partner absorbs nothing has MODE 0 where it showed its absorption. -/
theorem rd_pairSync_odd {c : Nat} (hmode : s.get (pg T.chn (c / 2 * 2)) F.CHN_CTL_MODE ≠ 2)
    (hfree : fset (s.rd (pg T.chn (c / 2 * 2 + 1)) 0x100) 1 0 0 = s.rd (pg T.chn (c / 2 * 2 + 1)) 0x100) :
    (s.pairSync c).rd (pg T.chn (c / 2 * 2 + 1)) 0x100 = s.rd (pg T.chn (c / 2 * 2 + 1)) 0x100 := by
  unfold pairSync
  simp only [if_neg hmode]
  split_ifs
  · rw [rd_put_ofs _ _ _ _ _ (by decide)]
    exact (rd_wr_same _ _ _ _).trans hfree
  · rfl

theorem rd_blockAfter (trim : W32) (ho : o < 0x1000) (hq : p / 256 ≠ T.evq) (hs : p / 256 ≠ T.sch)
    (h : ¬ (p / 256 = T.chn ∧ (o = 0x100 ∨ o = 0x104))) : (s.blockAfter p trim).rd p o = s.rd p o := by
  unfold blockAfter
  simp only [if_neg hq, if_neg hs]
  split
  · split <;> rfl
  · split
    · exact rd_pairSync _ ho fun ⟨_, hc⟩ => h ⟨‹_›, hc⟩
    · rfl

/-- CHN_CTL is 0 at reset. -/
theorem resetWord_chnCtl (hp : pagePresent p = true) (ht : p / 256 = T.chn) : resetWord p 0x100 = 0 := by
  rw [resetWord, findReg, if_pos hp, if_neg (by decide), ht]
  rfl

/-- CHN_CTL of a channel page, where its partner does not absorb it. -/
theorem rd_blockAfter_chnCtl (trim : W32) (ht : p / 256 = T.chn) (hzero : s.rd p 0x100 = 0)
    (h : p % 2 = 1 → s.get (p - 1) F.CHN_CTL_MODE ≠ 2) : (s.blockAfter p trim).rd p 0x100 = s.rd p 0x100 := by
  have hchn : T.chn = 2 := rfl
  have htbs : ¬ p / 256 = T.tbs := by rw [ht]; decide
  unfold blockAfter
  simp only [if_neg htbs, if_pos ht]
  rcases Nat.mod_two_eq_zero_or_one p with heven | hodd
  · refine rd_pairSync _ (by decide) fun ⟨hq, _⟩ => ?_
    unfold pg at hq
    omega
  · have hpart : pg T.chn (p % 256 / 2 * 2) = p - 1 := by unfold pg; omega
    have hself : pg T.chn (p % 256 / 2 * 2 + 1) = p := by unfold pg; omega
    have hsync := rd_pairSync_odd (s := s) (c := p % 256)
    rw [hpart, hself] at hsync
    exact hsync (h hodd) (by rw [hzero]; decide)

/-- The registers that the reset leaves at their reset values. -/
theorem rd_pageReset_after (trim : W32) (hp : pagePresent p = true) (ho : o < 0x1000) (hq : p / 256 ≠ T.evq)
    (hs : p / 256 ≠ T.sch) (hk : keptReg (p / 256) o = false) (hf : o ∉ (keptFlds (p / 256)).map (·.ofs))
    (hodd : ¬ (p / 256 = T.chn ∧ o = 0x100 ∧ p % 2 = 1 ∧ s.get (p - 1) F.CHN_CTL_MODE = 2)) :
    ((s.pageReset p).blockAfter p trim).rd p o = resetWord p o := by
  have hreset : (s.pageReset p).rd p o = resetWord p o := rd_pageReset ho hk hf
  by_cases hpair : p / 256 = T.chn ∧ (o = 0x100 ∨ o = 0x104)
  · obtain ⟨ht, rfl | rfl⟩ := hpair
    · rw [rd_blockAfter_chnCtl trim ht (hreset.trans (resetWord_chnCtl hp ht)), hreset]
      intro hmod hmode
      refine hodd ⟨ht, rfl, hmod, ?_⟩
      have hkept : (s.pageReset p).rd (p - 1) 0x100 = s.rd (p - 1) 0x100 :=
        (rd_pageReset_other (by decide) (by omega)).trans (blockEnd_chn ht _)
      exact (congrArg (fun w => fget w 1 0) hkept).symm.trans hmode
    · rw [ht] at hf
      exact absurd (by decide) hf
  · rw [rd_blockAfter trim ho hq hs hpair, hreset]

/-- A page counts as being reset from now on. -/
def noteReset (s : State) (p : Nat) : State :=
  if s.resetting.contains p then s else { s with resetting := s.resetting ++ [p] }

theorem blockReset_eq (hp : pagePresent p = true) (hr : resettable (p / 256) = true) :
    s.blockReset p = ((((s.pageReset p).blockAfter p (s.eff p 0x114)).put p F.PG_STS_BUSY true).noteReset p) := by
  have h : (!pagePresent p || !resettable (p / 256)) = false := by rw [hp, hr]; rfl
  simp only [blockReset, h, Bool.false_eq_true, if_false]
  rfl

theorem noteReset_regs (s : State) (p : Nat) : (s.noteReset p).regs = s.regs := by
  unfold noteReset
  split <;> rfl

theorem rd_noteReset (s : State) (p q a : Nat) : (s.noteReset p).rd q a = s.rd q a := by
  rw [rd, noteReset_regs]
  rfl

theorem rd_blockReset (hp : pagePresent p = true) (hr : resettable (p / 256) = true) (hsts : o ≠ 0x00C) :
    (s.blockReset p).rd p o = ((s.pageReset p).blockAfter p (s.eff p 0x114)).rd p o := by
  rw [blockReset_eq hp hr, rd_noteReset]
  exact rd_put_ofs _ _ _ _ _ (Ne.symm hsts)

theorem keptReg_header (t : Nat) (h : o < 0x010 ∨ 0x020 ≤ o ∧ o < 0x100) : keptReg t o = false := by
  have hw {lo hi : Nat} (hlo : 0x100 ≤ lo) : within lo hi o = false := by
    have : ¬ lo ≤ o := by omega
    simp [within, this]
  have hh : within 0x010 0x020 o = false := by
    simp only [within, Bool.and_eq_false_iff, decide_eq_false_iff_not]
    omega
  unfold keptReg
  split_ifs <;> simp [hw, hh]

theorem keptFlds_header (t : Nat) (h : o < 0x100) : o ∉ (keptFlds t).map (·.ofs) := by
  intro hmem
  obtain ⟨x, hx, rfl⟩ := List.mem_map.1 hmem
  have := (keptFlds_ofs t x hx).1
  omega

/-- The header registers but the fault settings return to their reset values. -/
theorem rd_pageReset_header (trim : W32) (hp : pagePresent p = true) (hq : p / 256 ≠ T.evq) (hs : p / 256 ≠ T.sch)
    (h : o < 0x010 ∨ 0x020 ≤ o ∧ o < 0x100) :
    ((s.pageReset p).blockAfter p trim).rd p o = resetWord p o :=
  rd_pageReset_after trim hp (by omega) hq hs (keptReg_header _ h) (keptFlds_header _ (by omega))
    fun ⟨_, hctl, _⟩ => by omega

/-- PG_STS and PG_CFG_ERR_OFS have the reset values of their fields. -/
theorem resetWord_status {r : Reg} (hr : findReg p o = some r) (ho : o = 0x00C ∨ o = 0x024) :
    resetWord p o = r.reset := by
  rw [resetWord, hr]
  rcases ho with rfl | rfl <;> simp

theorem resetWord_sts (hp : pagePresent p = true) : resetWord p 0x00C = 0 := by
  rw [resetWord_status (findReg_header hp (by decide)) (.inl rfl)]
  decide

theorem resetWord_cfgErrOfs (hp : pagePresent p = true) : resetWord p 0x024 = 0 := by
  rw [resetWord_status (findReg_header hp (by decide)) (.inr rfl)]
  decide

/-- PG_STS after a block reset: BUSY alone. -/
theorem rd_blockReset_sts (hp : pagePresent p = true) (hr : resettable (p / 256) = true) (hq : p / 256 ≠ T.evq)
    (hs : p / 256 ≠ T.sch) : (s.blockReset p).rd p 0x00C = 1 := by
  rw [blockReset_eq hp hr, rd_noteReset]
  refine (rd_wr_same _ p 0x00C _).trans ?_
  show fset (((s.pageReset p).blockAfter p (s.eff p 0x114)).rd p 0x00C) 0 0 (b2n true) = 1
  rw [rd_pageReset_header _ hp hq hs (by decide), resetWord_sts hp]
  decide

/-- PG_CTL after a block reset: neither ENABLE nor CFG_LOCK. -/
theorem rd_blockReset_ctl (hp : pagePresent p = true) (hr : resettable (p / 256) = true) (hq : p / 256 ≠ T.evq)
    (hs : p / 256 ≠ T.sch) : (s.blockReset p).rd p 0x008 = 0 := by
  rw [rd_blockReset hp hr (by decide), rd_pageReset_header _ hp hq hs (by decide), resetWord_ctl hp, if_pos hr]

theorem rd_blockReset_cfgErrOfs (hp : pagePresent p = true) (hr : resettable (p / 256) = true) (hq : p / 256 ≠ T.evq)
    (hs : p / 256 ≠ T.sch) : (s.blockReset p).rd p 0x024 = 0 := by
  rw [rd_blockReset hp hr (by decide), rd_pageReset_header _ hp hq hs (by decide), resetWord_cfgErrOfs hp]

theorem pgCtlWrite_reset (hp : pagePresent p = true) (hr : resettable (p / 256) = true) :
    s.pgCtlWrite p 2 = s.blockReset p := by
  have hbit : ((2 : W32).getLsbD 1 && resettable (p / 256)) = true := by rw [hr]; decide
  simp only [pgCtlWrite, hp, hbit, Bool.not_true, Bool.false_eq_true, if_false, if_true]

/-- A register write to a page that is being reset does nothing, but to PG_FLT. -/
theorem bar0Write_resetting (v : W32) (hp : pagePresent p = true) (ho : o < 0x1000) (h4 : o % 4 = 0) (hf : o ≠ 0x010)
    (h : s.resetting.contains p = true) : s.bar0Write (rkey p o) v = s := by
  obtain ⟨e4, ep, eo, hlt⟩ := rkey_split hp ho h4
  have h1 : ¬ (0x2000000 ≤ rkey p o ∧ rkey p o < 0x2200000) := by omega
  have h2 : ¬ (0x3F00000 ≤ rkey p o ∧ rkey p o < 0x3F08000) := by omega
  simp only [bar0Write, e4, ep, eo, if_neg h1, if_neg h2, hf, offReset, h, if_true, if_false, ite_self]

/-- A page whose block reset is over. -/
def resetOver (s : State) (p : Nat) : State :=
  ({ s with resetting := s.resetting.filter (· != p) } : State).put p F.PG_STS_BUSY false

theorem askMode_resetOver : (s.resetOver p).askMode = s.askMode := by
  have h : (s.resetOver p).rd (pg T.sch 0) F.SCH_MODE_DISPATCH.ofs = s.rd (pg T.sch 0) F.SCH_MODE_DISPATCH.ofs :=
    rd_put_other _ _ _ _ _ _ (rkey_offset (by decide) (by decide) (by decide))
  rw [askMode, flag, get, h]
  rfl

theorem blockResetDone_resetting (ok : Bool) (h : s.resetting.contains p = true) :
    s.blockResetDone p ok = if p / 256 = T.lst ∧ ok = true then
      ((s.resetOver p).set p F.LST_STS_STATE (if s.askMode then 2 else 0)).put schPg F.SCH_STS_NO_CORE false
    else s.resetOver p := by
  rw [blockResetDone, h, ← askMode_resetOver (s := s) (p := p)]
  rfl

theorem resetting_noteReset (s : State) (p : Nat) : (s.noteReset p).resetting.contains p = true := by
  unfold noteReset
  split
  · assumption
  · simp

end

end State

end Sys2Proof.Machine

namespace Sys2Proof

open Sys2Proof.Machine Sys2Proof.Machine.State

/-- A page's command on a page that is being reset does nothing. -/
theorem does_onPage_resetting {c : Instr} {s : State} {p : Nat} {f : State → State}
    (he : exec c s = done (s.onPage p f)) (h : s.resetting.contains p = true) : Does c s s := by
  refine Does.of he ?_
  rw [onPage, onLink]
  split
  · rfl
  · rw [offReset, if_pos h, ite_self]

/-- Settles O12: registers are returned after the block's work has ended, which touches no CHN_CTL (so that the test of
R93 sees the partner's MODE of before), and every way to write the page tests for the reset first. -/
theorem blockResetReturnsRegisters : Obligations.BlockResetReturnsRegisters := by
  unfold Obligations.BlockResetReturnsRegisters
  refine ⟨?leaves, ?done, ?doneIdle, ?page, ?write⟩
  case leaves =>
    intro s p hp hR hr hq hs
    refine ⟨s.blockReset p.toNat, does_onPage rfl hR (pgCtlWrite_reset hp hr), ?_⟩
    generalize p.toNat = n at *
    have hsts : (s.blockReset n).rd n 0x00C = 1 := rd_blockReset_sts hp hr hq hs
    have hctl : (s.blockReset n).rd n 0x008 = 0 := rd_blockReset_ctl hp hr hq hs
    have hofs : (s.blockReset n).rd n 0x024 = 0 := rd_blockReset_cfgErrOfs hp hr hq hs
    refine ⟨?_, ?_, ?_, ?_, ?_, ?_, ?_, ?_⟩
    · rw [blockReset_eq hp hr]
      exact resetting_noteReset _ _
    · exact congrArg (fun w => decide (fget w 0 0 ≠ 0)) hsts
    · exact congrArg (fun w => decide (fget w 2 2 ≠ 0)) hctl
    · exact congrArg (fun w => decide (fget w 0 0 ≠ 0)) hctl
    · exact congrArg (fun w => decide (fget w 1 1 ≠ 0)) hsts
    · exact congrArg (fun w => decide (fget w 2 2 ≠ 0)) hsts
    · exact congrArg (fun w => fget w 11 0) hofs
    · intro o ho hk hf hne hodd
      rw [rd_blockReset hp hr hne]
      exact rd_pageReset_after _ hp ho hq hs hk hf hodd
  case done =>
    intro s p ok h
    exact .of rfl (blockResetDone_resetting ok h)
  case doneIdle =>
    intro s p ok h
    exact .of rfl (by simp only [blockResetDone, h, Bool.not_false, if_true])
  case page =>
    intro s p v h
    exact ⟨does_onPage_resetting rfl h, does_onPage_resetting rfl h, does_onPage_resetting rfl h,
      does_onPage_resetting rfl h⟩
  case write =>
    intro s p o ofs v hp ho hf h4 ha h hl
    refine does_registerWrite hl ?_
    rw [ha, hostWrite, if_neg (by decide), if_neg (by decide)]
    exact bar0Write_resetting v hp ho h4 hf h

end Sys2Proof

/-!
ENABLE, CFG_LOCK and COMMIT of a page (O13; R141, R441, R442, R445, R447).
-/
namespace Sys2Proof.Machine

open Sys2Proof

namespace State

section
variable {s : State} {p : Nat} {v : W32}

/-! ## A write to PG_CTL -/

/-- What a write to PG_CTL leaves beside ENABLE: CFG_LOCK is set by a 1. -/
def ctlWord (s : State) (p : Nat) (v : W32) : W32 := s.rd p 8 ||| (v &&& 4)

/-- A write to PG_CTL that is taken. -/
def ctlTaken (s : State) (p : Nat) (v : W32) : State :=
  (s.wr p 8 (s.ctlWord p v)).setRW p 8 ((s.ctlWord p v &&& ~~~1) ||| (v &&& 1))

/-- A write to PG_CTL whose ENABLE is refused. -/
def ctlRefused (s : State) (p : Nat) (v : W32) : State := (s.wr p 8 (s.ctlWord p v)).refuse p 8

theorem enable_changes (s : State) (p : Nat) (v : W32) :
    (s.rd p 8 ^^^ v) &&& 1 ≠ 0 ↔ s.enabled p ≠ v.getLsbD 0 := by
  have hone : (1 : W32) = BitVec.twoPow 32 0 := rfl
  rw [enabled_bit, hone, BitVec.and_twoPow, BitVec.getLsbD_xor]
  cases (s.rd p 8).getLsbD 0 <;> cases v.getLsbD 0 <;> decide

/-- PG_CTL. -/
def ctlReg : Reg := ⟨0x008, 1, 0x1000, 1, 4, false, [F.PG_CTL_ENABLE, F.PG_CTL_BLOCK_RESET, F.PG_CTL_CFG_LOCK]⟩

theorem findReg_ctl (hp : pagePresent p = true) : findReg p 8 = some ctlReg := by
  rw [findReg_header hp (by decide)]
  rfl

theorem ctlReg_masks : ctlReg.mask [.rwS, .rwL] = 1 ∧ ctlReg.mask [.rwS] = 0 ∧ ctlReg.mask [.w1c] = 0 ∧
    ctlReg.mask [.w1s] = 4 := by decide

theorem and_not_and_zero (x v : W32) : x &&& ~~~(v &&& 0) = x := by
  rw [show v &&& 0 = 0 from BitVec.and_zero, show ~~~(0 : W32) = BitVec.allOnes 32 from by decide, BitVec.and_allOnes]

theorem and_zero_same (x : W32) : ¬ x &&& 0 ≠ 0 := fun h => h BitVec.and_zero

/-- PG_CTL has no field that ENABLE governs, and none that a 1 clears. -/
theorem writeAt_ctl (hp : pagePresent p = true) (bad : Bool) :
    (writeAt s p 8 v bad).1 =
      if bad = true ∨ (s.locked p = true ∧ s.enabled p ≠ v.getLsbD 0) then s.ctlRefused p v
      else s.ctlTaken p v := by
  obtain ⟨hrw, hS, hc, h1⟩ := ctlReg_masks
  have htest : (bad || (decide ((s.rd p 8 ^^^ v) &&& 0 ≠ 0) && s.enabled p) ||
      (decide ((s.rd p 8 ^^^ v) &&& 1 ≠ 0) && s.locked p)) = true ↔
      bad = true ∨ (s.locked p = true ∧ s.enabled p ≠ v.getLsbD 0) := by
    rw [decide_eq_false (and_zero_same _), Bool.false_and, Bool.or_false, Bool.or_eq_true, Bool.and_eq_true,
      decide_eq_true_eq, enable_changes, and_comm (a := s.locked p = true)]
  simp only [writeAt, findReg_ctl hp, regWrite, hrw, hS, hc, h1, and_not_and_zero]
  by_cases h : bad = true ∨ (s.locked p = true ∧ s.enabled p ≠ v.getLsbD 0)
  · rw [if_pos h, if_pos (htest.2 h)]
    rfl
  · rw [if_neg h, if_neg (mt htest.1 h)]
    rfl

/-! ## ENABLE after the write -/

theorem ctlWord_enable (s : State) (p : Nat) (v : W32) : (s.ctlWord p v).getLsbD 0 = s.enabled p := by
  rw [ctlWord, BitVec.getLsbD_or, BitVec.getLsbD_and, enabled_bit]
  simp

theorem enabled_ctlRefused : (s.ctlRefused p v).enabled p = s.enabled p := by
  have hrd : (s.ctlRefused p v).rd p 8 = s.ctlWord p v := by
    rw [ctlRefused, refuse, rd_set_ofs _ _ _ _ _ (by decide), rd_put_ofs _ _ _ _ _ (by decide)]
    exact rd_wr_same _ _ _ _
  rw [enabled_bit, hrd, ctlWord_enable]

theorem rd_ctlTaken : (s.ctlTaken p v).rd p 8 = (s.ctlWord p v &&& ~~~1) ||| (v &&& 1) := by
  rw [ctlTaken]
  exact (rd_setRW _ _ _ _ _ _).trans (rd_wr_same _ _ _ _)

theorem enabled_ctlTaken : (s.ctlTaken p v).enabled p = v.getLsbD 0 := by
  rw [enabled_bit, rd_ctlTaken, BitVec.getLsbD_or, BitVec.getLsbD_and, BitVec.getLsbD_and]
  simp

/-- A write to PG_CTL that resets no block, on a page whose ENABLE can be written. -/
theorem pgCtlWrite_plain (hp : pagePresent p = true) (hbit : v.getLsbD 1 = false)
    (hr : resettable (p / 256) = true) : s.pgCtlWrite p v =
      if s.enableBad p v = true ∨ (s.locked p = true ∧ s.enabled p ≠ v.getLsbD 0) then s.ctlRefused p v
      else if s.enabled p = v.getLsbD 0 then s.ctlTaken p v
      else ((s.ctlTaken p v).pageEnable p (v.getLsbD 0)).idleForce p := by
  simp only [pgCtlWrite, hp, hbit, hr, Bool.not_true, Bool.false_and, Bool.false_eq_true, if_false, if_true,
    writeAt_ctl hp]
  by_cases h : s.enableBad p v = true ∨ (s.locked p = true ∧ s.enabled p ≠ v.getLsbD 0)
  · simp only [if_pos h, enabled_ctlRefused, if_true]
  · simp only [if_neg h, enabled_ctlTaken]

/-- On the other pages a write leaves ENABLE at 1. -/
theorem pgCtlWrite_open (hp : pagePresent p = true) (hr : resettable (p / 256) = false) (hon : s.enabled p = true) :
    s.pgCtlWrite p v = s.ctlTaken p (v ||| 1) := by
  have hbit : (v ||| 1).getLsbD 0 = true := by simp
  have heth : (p / 256 == T.eth) = false := by
    rcases resettable_iff.1 hr with h | h | h | h <;> rw [h] <;> decide
  have hbad : s.enableBad p (v ||| 1) = false := by
    rw [enableBad, heth, Bool.false_and, Bool.false_and, Bool.false_and]
  have hno : ¬ (s.enableBad p (v ||| 1) = true ∨ (s.locked p = true ∧ s.enabled p ≠ (v ||| 1).getLsbD 0)) := by
    rw [hbad, hbit, hon]
    simp
  simp only [pgCtlWrite, hp, hr, Bool.not_true, Bool.and_false, Bool.false_eq_true, if_false, writeAt_ctl hp,
    if_neg hno, enabled_ctlTaken]
  rw [hon, hbit, if_pos rfl]

/-! ## A written word without its BLOCK_RESET, or with its ENABLE held at 1 -/

theorem ctlWord_noReset : s.ctlWord p (v &&& ~~~2) = s.ctlWord p v := by
  have h : v &&& ~~~2 &&& 4 = v &&& 4 := by rw [BitVec.and_assoc]; rfl
  rw [ctlWord, ctlWord, h]

theorem ctlTaken_noReset : s.ctlTaken p (v &&& ~~~2) = s.ctlTaken p v := by
  have h : v &&& ~~~2 &&& 1 = v &&& 1 := by rw [BitVec.and_assoc]; rfl
  rw [ctlTaken, ctlTaken, ctlWord_noReset, h]

theorem enable_noReset (v : W32) : (v &&& ~~~2).getLsbD 0 = v.getLsbD 0 := by
  rw [BitVec.getLsbD_and]
  simp

theorem reset_noReset (v : W32) : (v &&& ~~~2).getLsbD 1 = false := by
  rw [BitVec.getLsbD_and]
  simp

theorem enableBad_noReset : s.enableBad p (v &&& ~~~2) = s.enableBad p v := by
  rw [enableBad, enableBad, enable_noReset]

theorem ctlTaken_open : s.ctlTaken p (v &&& ~~~2 ||| 1) =
    (s.wr p 8 (s.ctlWord p v)).setRW p 8 ((s.ctlWord p v &&& ~~~1) ||| 1) := by
  have hkeep : v &&& 1 ||| 1 = 1 := by
    refine BitVec.eq_of_getLsbD_eq fun i _ => ?_
    rw [BitVec.getLsbD_or, BitVec.getLsbD_and]
    cases v.getLsbD i <;> simp
  have hone : (v &&& ~~~2 ||| 1) &&& 1 = 1 := by
    rw [BitVec.and_or_distrib_right, BitVec.and_assoc, show ~~~(2 : W32) &&& 1 = 1 from by decide, BitVec.and_self]
    exact hkeep
  have hlock : (v &&& ~~~2 ||| 1) &&& 4 = v &&& 4 := by
    rw [BitVec.and_or_distrib_right, BitVec.and_assoc]
    exact BitVec.or_zero
  have hword : s.ctlWord p (v &&& ~~~2 ||| 1) = s.ctlWord p v := congrArg (s.rd p 8 ||| ·) hlock
  rw [ctlTaken, hword, hone]

/-! ## CFG_LOCK -/

/-- The word with which CFG_LOCK is set and ENABLE left as it is. -/
def lockWord (s : State) (p : Nat) : W32 := BitVec.ofNat 32 (4 + b2n (s.enabled p))

theorem lockWord_bits (s : State) (p : Nat) :
    (s.lockWord p).getLsbD 0 = s.enabled p ∧ (s.lockWord p).getLsbD 1 = false ∧
    s.lockWord p &&& 4 = 4 := by
  rw [lockWord]
  cases s.enabled p <;> decide

theorem ctlTaken_lock (h : v.getLsbD 0 = s.enabled p) (h4 : v &&& 4 = 4) :
    (s.ctlTaken p v).rd p 8 = s.rd p 8 ||| 4 := by
  have hword : s.ctlWord p v = s.rd p 8 ||| 4 := congrArg (s.rd p 8 ||| ·) h4
  rw [enabled_bit] at h
  rw [rd_ctlTaken, hword]
  refine BitVec.eq_of_getLsbD_eq fun i hi => ?_
  rw [BitVec.getLsbD_or, BitVec.getLsbD_and, BitVec.getLsbD_and, BitVec.getLsbD_not, decide_eq_true hi]
  rcases Nat.eq_zero_or_pos i with rfl | hpos
  · rw [h, BitVec.getLsbD_or]
    cases (s.rd p 8).getLsbD 0 <;> decide
  · have hone : (1 : W32).getLsbD i = false :=
      BitVec.getLsbD_one.trans (by simp [hpos.ne'])
    rw [hone, Bool.not_false, Bool.and_true, Bool.and_true, Bool.and_false, Bool.or_false]

theorem pgCtlWrite_lock (hp : pagePresent p = true) (h : resettable (p / 256) = true ∨ s.enabled p = true) :
    ∃ v, s.pgCtlWrite p (s.lockWord p) = s.ctlTaken p v ∧ v.getLsbD 0 = s.enabled p ∧ v &&& 4 = 4 := by
  obtain ⟨h0, h1, h4⟩ := s.lockWord_bits p
  cases hr : resettable (p / 256)
  case true =>
    have hno : ¬ (s.enableBad p (s.lockWord p) = true ∨
        (s.locked p = true ∧ s.enabled p ≠ (s.lockWord p).getLsbD 0)) := by
      rw [enableBad, h0]
      cases s.enabled p <;> simp
    exact ⟨s.lockWord p, by rw [pgCtlWrite_plain hp h1 hr, if_neg hno, if_pos h0.symm], h0, h4⟩
  case false =>
    have hon : s.enabled p = true := h.resolve_left (by rw [hr]; decide)
    refine ⟨s.lockWord p ||| 1, pgCtlWrite_open hp hr hon, by rw [hon]; simp, ?_⟩
    rw [BitVec.and_or_distrib_right, h4]
    rfl

/-- A write of the RW fields changes one register, and its value in force. -/
theorem eff_setRW_other {o q a : Nat} (h : rkey q a ≠ rkey p o) : (s.setRW p o v).eff q a = s.eff q a := by
  have hrd : (s.setRW p o v).rd q a = s.rd q a := (rd_setRW _ _ _ _ _ _).trans (rd_wr_other _ _ _ _ _ _ h.symm)
  rw [eff, hrd, eff]
  unfold setRW
  dsimp only
  split
  · show (tabFind (tabErase s.held (rkey p o)) (rkey q a)).getD _ = _
    rw [tabFind_erase, if_neg h.symm]
    rfl
  · exact tabGet_put_other _ _ _ _ _ _ h.symm

theorem ctlTaken_regs : s.ctlTaken p v = { s with regs := (s.ctlTaken p v).regs, held := (s.ctlTaken p v).held } := by
  unfold ctlTaken setRW
  dsimp only
  split <;> rfl

theorem ctlTaken_only : OnlyReg s (s.ctlTaken p v) p 8 := by
  refine ⟨ctlTaken_regs, fun q a h => ⟨?_, ?_⟩⟩
  · exact (rd_setRW _ _ _ _ _ _).trans
      ((rd_wr_other _ _ _ _ _ _ h.symm).trans (rd_wr_other _ _ _ _ _ _ h.symm))
  · refine (eff_setRW_other h).trans ?_
    rw [eff, rd_wr_other _ _ _ _ _ _ h.symm]
    rfl

theorem locked_of_rd {u : State} {w : W32} (h : u.rd p 8 = w ||| 4) : u.locked p = true := by
  rw [locked, flag_eq_getLsbD u p F.PG_CTL_CFG_LOCK rfl]
  show (u.rd p 8).getLsbD 2 = true
  rw [h, BitVec.getLsbD_or]
  simp

/-! ## PG_COMMIT -/

theorem pgCommit_off (h : hasShadow (p / 256) = false) : s.pgCommit p 1 = s := by
  simp only [pgCommit, h, Bool.not_false, Bool.or_true, Bool.true_or, if_true]

theorem pgCommit_on (hp : pagePresent p = true) (h : hasShadow (p / 256) = true) : s.pgCommit p 1 =
    if s.locked p = true then s.refuse p 0x020
    else if p = glbPg then
      { s.put p F.PG_STS_COMMIT_PEND true with
        segPend := ((s.put p F.PG_STS_COMMIT_PEND true).segPend ++
          (s.put p F.PG_STS_COMMIT_PEND true).segSelected).eraseDups }
    else s.put p F.PG_STS_COMMIT_PEND true := by
  have hgo : (!pagePresent p || !hasShadow (p / 256) || !(1 : W32).getLsbD 0) = false := by rw [hp, h]; decide
  simp only [pgCommit, hgo, Bool.false_eq_true, if_false]

end

end State

end Sys2Proof.Machine

namespace Sys2Proof

open Sys2Proof.Machine Sys2Proof.Machine.State

/-- Settles O13: PG_CTL is a register with one RW field, whose write the page refuses or takes before its block acts. -/
theorem pageControlsEnableLockCommit : Obligations.PageControlsEnableLockCommit := by
  unfold Obligations.PageControlsEnableLockCommit
  refine ⟨?enable, ?lock, ?commit⟩
  case enable =>
    intro s p v hp hR w no u
    have hwrite {t : State} (ht : s.pgCtlWrite p.toNat (v &&& ~~~2) = t) : Does (.pgEnableWrite p v) s t :=
      does_onPage rfl hR ht
    have hplain (hr : resettable (p.toNat / 256) = true) := pgCtlWrite_plain (s := s) hp (reset_noReset v) hr
    rw [enableBad_noReset, enable_noReset, ctlTaken_noReset] at hplain
    have hrefused : s.ctlRefused p.toNat (v &&& ~~~2) = (s.wr p.toNat 8 w).refuse p.toNat 8 := by
      rw [ctlRefused, ctlWord_noReset]
      rfl
    refine ⟨fun hr => ⟨fun hno => hwrite ?_, fun hno he => hwrite ?_, fun hno he => hwrite ?_⟩,
      fun hr hon => hwrite ?_⟩
    · rw [hplain hr, if_pos hno, hrefused]
    · rw [hplain hr, if_neg hno, if_pos he]
      rfl
    · rw [hplain hr, if_neg hno, if_neg he]
      rfl
    · rw [pgCtlWrite_open hp hr hon, ctlTaken_open]
      rfl
  case lock =>
    intro s p hp hR h
    obtain ⟨v, hv, h0, h4⟩ := pgCtlWrite_lock (s := s) hp h
    exact ⟨_, does_onPage rfl hR hv, ctlTaken_only, ctlTaken_lock h0 h4, locked_of_rd (ctlTaken_lock h0 h4)⟩
  case commit =>
    intro s p hp hR
    have hcommit {t : State} (ht : s.pgCommit p.toNat 1 = t) : Does (.pgCommit p) s t := does_onPage rfl hR ht
    refine ⟨fun h => hcommit (pgCommit_off h), fun h hl => hcommit ?_, fun h hl hg => hcommit ?_,
      fun hg hl => hcommit ?_⟩
    · rw [pgCommit_on hp h, if_pos hl]
    · rw [pgCommit_on hp h, if_neg (by rw [hl]; decide), if_neg hg]
    · have h : hasShadow (p.toNat / 256) = true := by rw [hg]; decide
      rw [pgCommit_on hp h, hg, if_neg (by rw [hl]; decide), if_pos rfl]

end Sys2Proof

/-!
Instructions of the test port and commands of the SMBus port (O54; R468 to R470).
-/
namespace Sys2Proof.Machine

open Sys2Proof

namespace State

section
variable {s : State}

/-! ## The test port (R468, R469) -/

/-- The device as an instruction that takes the balls finds it. -/
def takeFrom (s : State) : State :=
  if s.jtag.taken = true ∨ s.boot.held = true then s else s.chipReset (s.flag glbPg F.GLB_RST_KEEP_HBM) 6

theorem tapTake_eq (s : State) (c : BitVec 8) :
    s.tapTake c = { s.takeFrom with jtag := { s.takeFrom.jtag with ir := c, taken := true } } := by
  simp only [tapTake, takeFrom, Bool.or_eq_true]

/-- A chip reset for the test port sets no cause. -/
theorem chipReset_noCause (keep : Bool) (h : s.boot.held = false) :
    s.chipReset keep 6 = s.chipLeft keep 6 s.rstCause := by
  simp only [chipReset, h, Bool.false_eq_true, if_false, chipLeft, if_neg (show ¬ 6 < 6 from by decide)]

theorem takeFrom_keeps (ht : s.jtag.taken = false) (h : s.boot.held = false) :
    s.takeFrom.rd glbPg 0x10C = s.rd glbPg 0x10C ∧ s.takeFrom.pci = s.pci := by
  rw [takeFrom, if_neg (by rw [ht, h]; decide), chipReset_noCause _ h, rd_cause_chipLeft, rstCause]
  exact ⟨(BitVec.ofNat_toNat 32 _).trans (BitVec.setWidth_eq _), rfl⟩

/-! ## The SMBus port (R470) -/

theorem smbRead_silent {f : State → State × List Nat} (h : s.smb = none ∨ s.stage = 0) : s.smbRead f = s := by
  have hno : (s.smb.isSome && decide (1 ≤ s.stage)) = false := by
    rcases h with h | h <;> rw [h] <;> simp
  rw [smbRead, hno]
  rfl

theorem smbRead_answers {f : State → State × List Nat} {t : State} {bs : List Nat} (ha : s.smb ≠ none)
    (hs : s.stage ≠ 0) (h : f s = (t, bs)) : s.smbRead f = t.emit (.smb bs) := by
  have hyes : (s.smb.isSome && decide (1 ≤ s.stage)) = true := by
    rw [Option.isSome_iff_ne_none.2 ha, decide_eq_true (Nat.one_le_iff_ne_zero.2 hs)]
    rfl
  rw [smbRead, hyes, if_pos rfl, h]

theorem hottest_none (h : s.validTemps = []) :
    s.hottest = (Config.freeValue s.free, { s with free := s.free + 1 }) := by
  rw [hottest, h]
  rfl

theorem hottest_some {t : Nat} {r : List Nat} (h : s.validTemps = t :: r) : s.hottest = (r.foldl max t, s) := by
  rw [hottest, h]

end

end State

end Sys2Proof.Machine

namespace Sys2Proof

open Sys2Proof.Machine Sys2Proof.Machine.State

/-- Settles O54: an instruction is one change of the test port, after a chip reset where it takes the balls; an SMBus
read answers from the registers, or not at all. -/
theorem testPortTakesAndSmbusAnswers : Obligations.TestPortTakesAndSmbusAnswers := by
  unfold Obligations.TestPortTakesAndSmbusAnswers
  refine ⟨fun s => ?port, fun s a => .of rfl rfl, fun s => .of rfl rfl, ?silent, ?answers⟩
  case port =>
    exact ⟨.of rfl rfl, .of rfl rfl, .of rfl rfl, .of rfl rfl, .of rfl (s.tapTake_eq 3), .of rfl (s.tapTake_eq 4),
      .of rfl (s.tapTake_eq 5), .of rfl (s.tapTake_eq 6), .of rfl (s.tapTake_eq 7), takeFrom_keeps⟩
  case silent =>
    intro s h
    exact ⟨.of rfl (smbRead_silent h), .of rfl (smbRead_silent h), .of rfl (smbRead_silent h),
      .of rfl (smbRead_silent h), .of rfl (smbRead_silent h)⟩
  case answers =>
    intro s ha hs word
    refine ⟨.of rfl (smbRead_answers ha hs rfl), .of rfl (smbRead_answers ha hs rfl), fun hv => ?none,
      fun t r hv => ?some, .of rfl (smbRead_answers ha hs rfl), .of rfl (smbRead_answers ha hs rfl)⟩
    case none =>
      refine .of rfl (smbRead_answers ha hs ?_)
      rw [hottest_none hv]
      rfl
    case some =>
      refine .of rfl (smbRead_answers ha hs ?_)
      rw [hottest_some hv]
      rfl

end Sys2Proof
